-- ==== Sys2Proof/Word.lean ====
section
/-! DEFINITION. The words of the block: bytes, fixed-width words, and the sparse table that holds
a numbered family of like things (registers, units, channels, queue pairs). -/

namespace Sys2Proof

/-- One byte. -/
abbrev Byte := BitVec 8
/-- A 32-bit register (R5). -/
abbrev W32 := BitVec 32
/-- A 64-bit register or word (R5). -/
abbrev W64 := BitVec 64
/-- A string of bytes, lowest address first. -/
abbrev Bytes := List Byte

/-- A numbered family of like things. A number that is not listed has the family's reset value. -/
abbrev Tbl (α : Type) := List (Nat × α)

/-- The member numbered `k`, or `d` where none is listed. -/
def tget {α : Type} (d : α) (k : Nat) : Tbl α → α
  | [] => d
  | (j, v) :: t => if k = j then v else tget d k t

/-- The family with member `k` replaced; the listed numbers stay in rising order. -/
def tset {α : Type} (k : Nat) (v : α) : Tbl α → Tbl α
  | [] => [(k, v)]
  | (j, w) :: t =>
    if k = j then (k, v) :: t
    else if k < j then (k, v) :: (j, w) :: t
    else (j, w) :: tset k v t

/-- The family without member `k`: it has its reset value again. -/
def tdel {α : Type} (k : Nat) (t : Tbl α) : Tbl α := t.filter (fun p => p.1 != k)

end Sys2Proof
end

