-- ==== Sys2Proof/Syntax.lean ====
section
/-! DEFINITION. The commands of the block: one constructor per row of the spec's table of
operations and events, with the operands the row needs. -/

namespace Sys2Proof

/-- The path a request came by (R407). -/
inductive Path where
  | internal
  | host
  | sideband
  | fabric
  | network
  deriving DecidableEq, Repr

/-- The code of a path (R407). -/
def Path.code : Path → Nat
  | .internal => 0
  | .host => 1
  | .sideband => 2
  | .fabric => 3
  | .network => 4

/-- A block with a commit register (R51, R436). -/
inductive CBlk where
  | window
  | queue (q : Nat)
  | power
  | net
  | stack (s : Nat)
  deriving DecidableEq, Repr

/-- Whom a stack-controller request serves (R94, R111, R458). -/
inductive Owner where
  /-- a queue entry -/
  | entry (q seq : Nat)
  /-- a window read, by offset and length -/
  | winRead (off len : Nat)
  /-- a window write -/
  | winWrite (off len : Nat)
  /-- a fabric request, by origin and transaction number -/
  | fabric (src txn : Nat)
  /-- a request of an RDMA context -/
  | rdma (qpn : Nat)
  /-- a request of the module's own engines -/
  | engine
  deriving DecidableEq, Repr

/-- A fabric packet (R331). `rsv` holds the reserved bits, which a good packet carries zero. -/
structure Packet where
  typ : Nat
  flags : Nat
  src : Nat
  dst : Nat
  txn : Nat
  qs : Nat
  hops : Nat
  sub : Nat
  rsv : Nat
  addr : Nat
  arg : Nat
  payload : Bytes
  deriving DecidableEq, Repr

/-- The place of a RoCE v2 frame in its message (R347). -/
inductive RPos where
  | first
  | middle
  | last
  | only
  deriving DecidableEq, Repr

/-- An inbound RoCE v2 request frame (R347, R349, R350). -/
structure RFrame where
  port : Nat
  qpn : Nat
  psn : Nat
  pos : RPos
  ackReq : Bool
  ecn : Bool
  va : Nat
  rkey : Nat
  /-- DMA length of the message (WRITE first or only, READ) -/
  len : Nat
  payload : Bytes
  deriving DecidableEq, Repr


/-- What a step command runs (R144): a direct command on a channel, or the step at which a unit's
sequence stands. -/
inductive StepTarget where
  | direct (ch mask body : Nat)
  | unit (u : Nat)
  deriving DecidableEq, Repr

/-- A port's request for a column word: the port, its class (R89), and the hint to keep the row open (R97). -/
structure ColAsk where
  port : Nat
  cls : Nat
  keep : Bool
  deriving DecidableEq, Repr

/-- The initialisation of a segment, with the class of the access that began it (R67, R89). -/
structure SegInit where
  seg : Nat
  cls : Nat
  deriving DecidableEq, Repr

/-- What a step of a start-up reports: the milliseconds it took, and the lane pairs that did not train
(R112, R416). -/
structure StepRun where
  ms : Nat
  bad : List Nat
  deriving DecidableEq, Repr

/-- A host's read of the control space: its offset, and whether it is 8 bytes long (R5). -/
structure HostRead where
  off : Nat
  wide : Bool
  deriving DecidableEq, Repr

/-- One constructor per row of the table of operations and events. -/
inductive Instr where
  /-- BAD_ACCESS (R6) -/
  | badAccess (path : Path) (write : Bool) (off : Nat) (size : Nat)
  /-- SDG_WRITE_REFUSED (R9) -/
  | sdgWriteRefused (path : Path) (off : Nat) (val : Nat)
  /-- REGISTER_WRITE (R8) -/
  | registerWrite (path : Path) (off : Nat) (wide : Bool) (val : Nat)
  /-- BUDGET_PERIOD_BOUNDARY (R90) -/
  | budgetPeriodBoundary (margin : Nat)
  /-- COMMIT (R52) -/
  | commit (path : Path) (blk : CBlk) (val : Nat)
  /-- LAY_LOAD (R44) -/
  | layLoad (path : Path) (val : Nat)
  /-- LAY_PERSIST_DONE (R49) -/
  | layPersistDone (ok : Bool)
  /-- SEGMENT_INIT_DONE (R67) -/
  | segmentInitDone (init : SegInit)
  /-- SEAL (R80) -/
  | sealSegs (q : Nat) (seq : Nat)
  /-- UNSEAL (R80) -/
  | unsealSegs (q : Nat) (seq : Nat)
  /-- CONVERSION_SEGMENT_DONE (R81) -/
  | conversionSegmentDone (seg : Nat)
  /-- SCRUB_STEP (R83) -/
  | scrubStep (ch : Nat)
  /-- ACT (R88) -/
  | act (ch : Nat) (port : Nat) (cls : Nat) (bank : Nat) (row : Nat)
  /-- PRE (R88) -/
  | pre (ch : Nat) (port : Nat) (cls : Nat) (bank : Nat)
  /-- RDH (R88) -/
  | rdh (ch : Nat) (port : Nat) (cls : Nat) (bank : Nat) (row : Nat) (grp : Nat) (half : Nat) (keep : Bool)
  /-- WRH (R88) -/
  | wrh (ch : Nat) (port : Nat) (cls : Nat) (bank : Nat) (row : Nat) (grp : Nat) (half : Nat) (keep : Bool) (data : Bytes)
  /-- RDW (R88) -/
  | rdw (ch : Nat) (ask : ColAsk) (bank : Nat) (row : Nat) (word : Nat)
  /-- WRW (R88) -/
  | wrw (ch : Nat) (ask : ColAsk) (bank : Nat) (row : Nat) (word : Nat) (data : Bytes)
  /-- REFPR (R103) -/
  | refpr (ch : Nat) (pair : Nat)
  /-- SRE (R107) -/
  | sre (die : Nat)
  /-- SRX (R108) -/
  | srx (die : Nat)
  /-- CMD_PARITY_FAIL (R111) -/
  | cmdParityFail (ch : Nat) (owner : Owner)
  /-- REFRESH_DUE (R103) -/
  | refreshDue (ch : Nat) (pair : Nat)
  /-- REFRESH_LATE (R104) -/
  | refreshLate (ch : Nat) (pair : Nat)
  /-- REFRESH_PULL_IN (R103) -/
  | refreshPullIn (ch : Nat) (pair : Nat)
  /-- ROW_IDLE_TIMEOUT (R97) -/
  | rowIdleTimeout (ch : Nat) (bank : Nat)
  /-- SC_REQ_TIMEOUT (R94) -/
  | scReqTimeout (ch : Nat) (port : Nat) (cls : Nat) (owner : Owner)
  /-- SR_ENTRY_TIMEOUT (R107) -/
  | srEntryTimeout (die : Nat)
  /-- SR_EXIT_PHY_LOCKED (R108) -/
  | srExitPhyLocked (die : Nat)
  /-- SR_EXIT_TXS_ELAPSED (R108) -/
  | srExitTxsElapsed (die : Nat)
  /-- SR_EXIT_PHY_TIMEOUT (R108) -/
  | srExitPhyTimeout (die : Nat)
  /-- CORR_WINDOW_EXPIRY (R112) -/
  | corrWindowExpiry (ch : Nat)
  /-- RETRAIN_TIMER (R113) -/
  | retrainTimer (bad : List Nat)
  /-- CLR_COUNTERS (R116) -/
  | clrCounters (path : Path) (stack : Nat) (val : Nat)
  /-- TRN_START (R115) -/
  | trnStart (path : Path) (val : Nat)
  /-- TRN_RUN_DONE (R115) -/
  | trnRunDone (errs : List Nat)
  /-- PIM_MODE (R131) -/
  | pimMode (ch : Nat) (mask : Nat) (body : Nat)
  /-- OPL (R132) -/
  | opl (ch : Nat) (mask : Nat) (body : Nat) (data : Bytes)
  /-- CACT (R133) -/
  | cact (t : StepTarget)
  /-- CRD (R134) -/
  | crd (t : StepTarget)
  /-- CWR (R137) -/
  | cwr (t : StepTarget)
  /-- ACC_RD (R138) -/
  | accRd (t : StepTarget)
  /-- ACC_RD_TRANSFER_DONE (R144) -/
  | accRdTransferDone (u : Nat) (set : Nat)
  /-- TBL_WR (R139) -/
  | tblWr (ch : Nat) (mask : Nat) (body : Nat) (data : Bytes)
  /-- STEP_LD (R140) -/
  | stepLd (ch : Nat) (mask : Nat) (body : Nat) (data : Bytes)
  /-- STEP_GO (R141) -/
  | stepGo (ch : Nat) (mask : Nat) (body : Nat)
  /-- SMAX (R143) -/
  | smax (u : Nat)
  /-- SEXP (R143) -/
  | sexp (u : Nat)
  /-- LPERM (R147) -/
  | lperm (u : Nat)
  /-- LEW (R143) -/
  | lew (u : Nat)
  /-- LSTAT (R143) -/
  | lstat (u : Nat)
  /-- UNIT_STEP_DONE (R144) -/
  | unitStepDone (u : Nat)
  /-- BANK_GEMV (R161) -/
  | bankGemv (q : Nat) (seq : Nat)
  /-- PLAN_READ_DONE (R158) -/
  | planReadDone (q : Nat) (seq : Nat)
  /-- TREE_WINDOW_COMPLETE (R165) -/
  | treeWindowComplete (q : Nat) (seq : Nat) (stack : Nat) (win : Nat)
  /-- HUB_WINDOW_COMBINE (R166) -/
  | hubWindowCombine (q : Nat) (seq : Nat) (win : Nat)
  /-- BANK_EWISE (R171) -/
  | bankEwise (q : Nat) (seq : Nat)
  /-- BANK_NORM (R174) -/
  | bankNorm (q : Nat) (seq : Nat)
  /-- NORM_STATS_READY (R174) -/
  | normStatsReady (q : Nat) (seq : Nat) (row : Nat)
  /-- BANK_TABLE (R176) -/
  | bankTable (q : Nat) (seq : Nat)
  /-- BANK_ATTN (R194) -/
  | bankAttn (q : Nat) (seq : Nat)
  /-- ATTN_FALLBACK_CHECK (R195) -/
  | attnFallbackCheck (q : Nat) (seq : Nat)
  /-- ATTN_PROBE_RESOLVE (R197) -/
  | attnProbeResolve (q : Nat) (seq : Nat) (head : Nat)
  /-- TILE_MM (R210) -/
  | tileMm (q : Nat) (seq : Nat)
  /-- TILE_DONE (R209) -/
  | tileDone (ox : Nat)
  /-- FTQ_ENTRY_FREED (R213) -/
  | ftqEntryFreed (periods : List Nat)
  /-- VEC_PROG (R220) -/
  | vecProg (q : Nat) (seq : Nat)
  /-- VE_ROW_BOUNDARY (R225) -/
  | veRowBoundary (long : Bool)
  /-- SFU_MAP (R237) -/
  | sfuMap (q : Nat) (seq : Nat)
  /-- SFU_SOFTMAX (R238) -/
  | sfuSoftmax (q : Nat) (seq : Nat)
  /-- SFU_LOG_SOFTMAX (R238) -/
  | sfuLogSoftmax (q : Nat) (seq : Nat)
  /-- SFU_LAYER_NORM (R240) -/
  | sfuLayerNorm (q : Nat) (seq : Nat)
  /-- SFU_RMS_NORM (R240) -/
  | sfuRmsNorm (q : Nat) (seq : Nat)
  /-- SFU_LOAD_TABLE (R244) -/
  | sfuLoadTable (q : Nat) (seq : Nat)
  /-- COPY (R273) -/
  | copy (q : Nat) (seq : Nat)
  /-- FILL (R274) -/
  | fill (q : Nat) (seq : Nat)
  /-- RELAY (R276) -/
  | relay (q : Nat) (seq : Nat)
  /-- DESC_CREATE (R256) -/
  | descCreate (q : Nat) (seq : Nat)
  /-- DESC_DROP (R260) -/
  | descDrop (q : Nat) (seq : Nat)
  /-- NOP (R297) -/
  | nop (q : Nat) (seq : Nat)
  /-- FENCE (R311) -/
  | fence (q : Nat) (seq : Nat)
  /-- WINDOW_READ (R286) -/
  | windowRead (off : Nat) (len : Nat)
  /-- WINDOW_WRITE (R286) -/
  | windowWrite (off : Nat) (data : Bytes)
  /-- PCIE_ATOMICOP (R284) -/
  | pcieAtomicop (bar : Nat)
  /-- DOORBELL (R300) -/
  | doorbell (path : Path) (q : Nat) (val : Nat)
  /-- RING_FETCH_DONE (R301) -/
  | ringFetchDone (q : Nat) (entries : List Bytes) (err : Bool)
  /-- STALE_REREAD (R301) -/
  | staleReread (q : Nat) (entry : Bytes)
  /-- STALE_DOORBELL (R301) -/
  | staleDoorbell (q : Nat)
  /-- ENTRY_START (R302) -/
  | entryStart (q : Nat) (seq : Nat)
  /-- ENTRY_COMPLETE (R313) -/
  | entryComplete (q : Nat) (seq : Nat)
  /-- CQ_HEAD_WRITE (R306) -/
  | cqHeadWrite (q : Nat) (val : Nat)
  /-- QP_ENABLE (R319) -/
  | qpEnable (q : Nat) (on : Bool)
  /-- QP_RESET (R307) -/
  | qpReset (q : Nat)
  /-- QP_DROP_HELD (R319) -/
  | qpDropHeld (q : Nat)
  /-- COALESCE_DELAY_EXPIRY (R315) -/
  | coalesceDelayExpiry (v : Nat)
  /-- REATTACH (R319) -/
  | reattach (val : Nat)
  /-- LINK_SIGNAL_DETECT (R324) -/
  | linkSignalDetect (link : Nat)
  /-- LINK_TRAINING_DONE (R324) -/
  | linkTrainingDone (link : Nat)
  /-- LINK_BRINGUP_TIMEOUT (R324) -/
  | linkBringupTimeout (link : Nat)
  /-- LINK_RETRY_TIMER (R324) -/
  | linkRetryTimer (link : Nat)
  /-- IDENT (R325) -/
  | ident (link : Nat) (msg : Bytes)
  /-- PROOF (R326) -/
  | proof (link : Nat) (msg : Bytes)
  /-- LINK_MISMATCH_RETRY (R326) -/
  | linkMismatchRetry (link : Nat)
  /-- LINK_FEC_RATE_CHECK (R324) -/
  | linkFecRateCheck (link : Nat) (bad : Nat) (total : Nat)
  /-- DATA_FLIT (R330) -/
  | dataFlit (link : Nat) (raw : Bytes) (fecOk : Bool)
  /-- NAK_FLIT (R330) -/
  | nakFlit (link : Nat) (ack : Nat)
  /-- FLIT_ACK_TIMEOUT (R330) -/
  | flitAckTimeout (link : Nat)
  /-- FEC_LOCK_LOSS (R330) -/
  | fecLockLoss (link : Nat)
  /-- FAB_READ (R333) -/
  | fabRead (link : Nat) (p : Packet)
  /-- FAB_WRITE (R333) -/
  | fabWrite (link : Nat) (p : Packet)
  /-- FAB_ATOMIC (R337) -/
  | fabAtomic (link : Nat) (p : Packet)
  /-- FAB_FENCE (R332) -/
  | fabFence (link : Nat) (p : Packet)
  /-- FAB_DOORBELL (R332) -/
  | fabDoorbell (link : Nat) (p : Packet)
  /-- FWD_ENTRY (R338) -/
  | fwdEntry (link : Nat) (p : Packet)
  /-- LINK_STATE (R343) -/
  | linkState (link : Nat) (p : Packet)
  /-- READ_RSP (R332) -/
  | readRsp (link : Nat) (p : Packet)
  /-- WRITE_ACK (R332) -/
  | writeAck (link : Nat) (p : Packet)
  /-- ATOMIC_RSP (R332) -/
  | atomicRsp (link : Nat) (p : Packet)
  /-- FENCE_ACK (R339) -/
  | fenceAck (link : Nat) (p : Packet)
  /-- DOORBELL_ACK (R332) -/
  | doorbellAck (link : Nat) (p : Packet)
  /-- FWD_ACK (R332) -/
  | fwdAck (link : Nat) (p : Packet)
  /-- ROUTE_NAK (R344) -/
  | routeNak (link : Nat) (p : Packet)
  /-- PACKET_TRANSIT (R342) -/
  | packetTransit (link : Nat) (p : Packet)
  /-- REMOTE_TIMEOUT (R335) -/
  | remoteTimeout (txn : Nat)
  /-- UNREACHABLE_MARK_EXPIRY (R344) -/
  | unreachableMarkExpiry (dst : Nat)
  /-- REMOTE_PUT (R336) -/
  | remotePut (q : Nat) (seq : Nat)
  /-- REMOTE_GET (R336) -/
  | remoteGet (q : Nat) (seq : Nat)
  /-- REMOTE_ATOMIC (R337) -/
  | remoteAtomic (q : Nat) (seq : Nat)
  /-- FAB_ISOLATE (R353) -/
  | fabIsolate (path : Path) (val : Nat)
  /-- FAB_RETRAIN (R353) -/
  | fabRetrain (path : Path) (val : Nat)
  /-- RDMA_WRITE (R349) -/
  | rdmaWrite (f : RFrame)
  /-- RDMA_READ (R349) -/
  | rdmaRead (f : RFrame)
  /-- RDMA_SEND (R350) -/
  | rdmaSend (f : RFrame)
  /-- ROCE_ACK (R351) -/
  | roceAck (qpn : Nat) (psn : Nat)
  /-- ROCE_NAK (R351) -/
  | roceNak (qpn : Nat) (psn : Nat)
  /-- RNR_NAK (R347) -/
  | rnrNak (qpn : Nat)
  /-- ROCE_RETRY_TIMEOUT (R351) -/
  | roceRetryTimeout (qpn : Nat)
  /-- CNP (R347) -/
  | cnp (qpn : Nat)
  /-- CONGESTION_RECOVERY (R347) -/
  | congestionRecovery (qpn : Nat)
  /-- PFC_PAUSE (R346) -/
  | pfcPause (port : Nat) (prio : Nat) (on : Bool)
  /-- NON_ROCE_FRAME (R346) -/
  | nonRoceFrame (port : Nat)
  /-- NET_POST_WRITE (R351) -/
  | netPostWrite (q : Nat) (seq : Nat)
  /-- NET_POST_READ (R351) -/
  | netPostRead (q : Nat) (seq : Nat)
  /-- NET_POST_SEND (R351) -/
  | netPostSend (q : Nat) (seq : Nat)
  /-- NET_POST_RECV (R351) -/
  | netPostRecv (q : Nat) (seq : Nat)
  /-- QPC_LOAD (R348) -/
  | qpcLoad (path : Path) (val : Nat)
  /-- QPC_RESET (R354) -/
  | qpcReset (path : Path) (val : Nat)
  /-- QPC_FORCE_ERROR (R354) -/
  | qpcForceError (path : Path) (val : Nat)
  /-- POWER_HINT (R362) -/
  | powerHint (q : Nat) (seq : Nat)
  /-- POWER_HINT_WAIT_TIMEOUT (R362) -/
  | powerHintWaitTimeout (q : Nat) (seq : Nat)
  /-- DIE_IDLE_TIMER (R360) -/
  | dieIdleTimer (die : Nat)
  /-- LISTEN_WINDOW (R365) -/
  | listenWindow (opens : Bool)
  /-- LINK_WAKE_DETECT (R368) -/
  | linkWakeDetect (link : Nat)
  /-- WAKE_IN_N_LOW (R367) -/
  | wakeInNLow (low : Bool)
  /-- WAKE_STEP_READY (R370) -/
  | wakeStepReady (elapsed : Nat) (ident : Bool)
  /-- WAKE_STEP_TIMEOUT (R371) -/
  | wakeStepTimeout (index : Nat) (cause : Nat)
  /-- PWR_CMD_HOLD (R372) -/
  | pwrCmdHold (path : Path)
  /-- PWR_CMD_OFF (R372) -/
  | pwrCmdOff (path : Path)
  /-- PWR_CMD_WAKE (R372) -/
  | pwrCmdWake (path : Path)
  /-- CLEAR_STUCK (R372) -/
  | clearStuck (path : Path)
  /-- POWER_CYCLE (R372) -/
  | powerCycle (path : Path)
  /-- PWR_PADREL (R373) -/
  | pwrPadrel (path : Path) (val : Nat)
  /-- PWR_LINKWAKE (R368) -/
  | pwrLinkwake (path : Path) (val : Nat)
  /-- LINKWAKE_PATTERN_END (R368) -/
  | linkwakePatternEnd (link : Nat)
  /-- PMBUS_TRANSACTION_DONE (R375) -/
  | pmbusTransactionDone (ok : Bool)
  /-- AVS_ACK_TIMEOUT (R375) -/
  | avsAckTimeout (mv : Nat)
  /-- PWR_EN_ASSERT (R416) -/
  | pwrEnAssert (slot : Nat)
  /-- RAIL_POWER_GOOD_LOST (R446) -/
  | railPowerGoodLost (rail : Nat)
  /-- SENSOR_UPDATE (R393) -/
  | sensorUpdate (temps : List (Option Int)) (mv : Nat) (watts : Nat) (telem : Bool) (secs : Nat) (nvOk : Bool)
  /-- REGULATOR_READ (R389) -/
  | regulatorRead (temps : List (Option Int))
  /-- INPUT_CURRENT_CHECK (R395) -/
  | inputCurrentCheck (ma : Nat) (mv : Nat)
  /-- HOLDDOWN_END (R398) -/
  | holddownEnd (secs : Nat)
  /-- THERM_N_EXTERNAL (R405) -/
  | thermNExternal (low : Bool)
  /-- CAPSULE_LOAD (R384) -/
  | capsuleLoad (path : Path) (val : Nat) (late : Bool)
  /-- CAPSULE_PERSIST_DONE (R386) -/
  | capsulePersistDone (ok : Bool)
  /-- LEASE_ACQUIRE (R400) -/
  | leaseAcquire (holder : Nat) (n : Nat)
  /-- LEASE_RENEW (R400) -/
  | leaseRenew (holder : Nat) (n : Nat)
  /-- LEASE_RELEASE (R400) -/
  | leaseRelease (holder : Nat) (n : Nat)
  /-- LEASE_EXPIRY (R402) -/
  | leaseExpiry (n : Nat) (u : Nat)
  /-- WATCHDOG_EXPIRY (R403) -/
  | watchdogExpiry (core : Nat)
  /-- CORE_PARITY_ERROR (R403) -/
  | coreParityError (core : Nat)
  /-- EL_TAIL_WRITE (R409) -/
  | elTailWrite (path : Path) (val : Nat)
  /-- STARTUP_STEP_DONE (R416) -/
  | startupStepDone (ok : Bool) (run : StepRun)
  /-- MODE_REQUEST (R419) -/
  | modeRequest (path : Path) (val : Nat)
  /-- ID_OBJ_FIRMWARE (R422) -/
  | idObjFirmware (path : Path)
  /-- ID_OBJ_ENROL (R429) -/
  | idObjEnrol (path : Path)
  /-- ID_OBJ_REPORT (R432) -/
  | idObjReport (path : Path)
  /-- ID_OBJ_CERT (R426) -/
  | idObjCert (path : Path)
  /-- READ_REG (R438) -/
  | readReg (block : Nat) (off : Nat) (count : Nat)
  /-- WRITE_REG (R438) -/
  | writeReg (block : Nat) (off : Nat) (val : Nat)
  /-- GET_REPORT (R434) -/
  | getReport (nonce : Bytes)
  /-- LOAD_OBJECT (R434) -/
  | loadObject (kind : Nat) (off : Nat) (data : Bytes) (last : Bool)
  /-- SET_MODE (R418) -/
  | setMode (m : Nat)
  /-- HOST_WAKE (R366) -/
  | hostWake (read : HostRead)
  /-- RDMA_READ_RESPONSE (R351) -/
  | rdmaReadResponse (qpn : Nat) (data : Bytes)
  /-- NET_LINK_CHANGE (R354) -/
  | netLinkChange (port : Nat) (up : Bool)
  /-- IDLE_FLIT (R328) -/
  | idleFlit (link : Nat) (ack : Nat) (cvc : Nat) (ccount : Nat)
  /-- LAY_COPY_DONE (R44) -/
  | layCopyDone
  /-- LAY_VERIFY_DONE (R42) -/
  | layVerifyDone
  /-- LAY_DRAIN_TIMEOUT (R45) -/
  | layDrainTimeout
  /-- LAY_DRAIN_DONE (R44) -/
  | layDrainDone
  /-- LAY_APPLY_DONE (R44) -/
  | layApplyDone
  /-- TRN_RUN_TIMEOUT (R115) -/
  | trnRunTimeout
  /-- VADD (R218) -/
  | vadd
  /-- VSUB (R218) -/
  | vsub
  /-- VMUL (R218) -/
  | vmul
  /-- VFMA (R218) -/
  | vfma
  /-- VMIN (R218) -/
  | vmin
  /-- VMAX (R218) -/
  | vmax
  /-- VABS (R218) -/
  | vabs
  /-- VNEG (R218) -/
  | vneg
  /-- VLOGIC (R218) -/
  | vlogic
  /-- VCMP (R218) -/
  | vcmp
  /-- VSEL (R218) -/
  | vsel
  /-- VMOV (R218) -/
  | vmov
  /-- VSPLAT (R218) -/
  | vsplat
  /-- VIOTA (R218) -/
  | viota
  /-- VPERM (R222) -/
  | vperm
  /-- VCOMPRESS (R221) -/
  | vcompress
  /-- VEXPAND (R221) -/
  | vexpand
  /-- LD (R218) -/
  | ld
  /-- ST (R218) -/
  | st
  /-- LDK (R218) -/
  | ldk
  /-- SCMP (R221) -/
  | scmp
  /-- LDX (R221) -/
  | ldx
  /-- LDS (R218) -/
  | lds
  /-- STS (R218) -/
  | sts
  /-- RED (R223) -/
  | red
  /-- RGET (R223) -/
  | rget
  /-- XSET (R218) -/
  | xset
  /-- XALU (R218) -/
  | xalu
  /-- KOP (R218) -/
  | kop
  /-- VFN (R218) -/
  | vfn
  /-- ATTACH (R317) -/
  | attach
  /-- DETACH (R320) -/
  | detach
  /-- HEARTBEAT (R317) -/
  | heartbeat
  /-- HEARTBEAT_TIMEOUT (R317) -/
  | heartbeatTimeout
  /-- ORPHAN_EXPIRY (R320) -/
  | orphanExpiry
  /-- PERST_N_ASSERT (R317) -/
  | perstNAssert
  /-- PERST_N_DEASSERT (R450) -/
  | perstNDeassert
  /-- PCIE_LINK_DOWN (R317) -/
  | pcieLinkDown
  /-- PCIE_LINK_DOWN_1MS (R317) -/
  | pcieLinkDown1ms
  /-- FUNCTION_LEVEL_RESET (R320) -/
  | functionLevelReset
  /-- KEEP_EXPIRY (R359) -/
  | keepExpiry
  /-- RUN_DOZE_TIMER (R359) -/
  | runDozeTimer
  /-- DOZE_WATCH_TIMER (R361) -/
  | dozeWatchTimer
  /-- QUIESCE_TIMEOUT (R363) -/
  | quiesceTimeout
  /-- ENTRY_STEP_DONE (R363) -/
  | entryStepDone
  /-- ALARM_EXPIRY (R367) -/
  | alarmExpiry
  /-- WAKE_RETRY_DELAY (R371) -/
  | wakeRetryDelay
  /-- PWR_EN_DEASSERT (R361) -/
  | pwrEnDeassert
  /-- INPUT_POWER_APPLIED (R415) -/
  | inputPowerApplied
  /-- CLUSTER_READY_TIMEOUT (R417) -/
  | clusterReadyTimeout
  /-- GET_CERT (R434) -/
  | getCert
  /-- GET_STATUS (R434) -/
  | getStatus
  /-- MCTP_RESPONSE_TIMEOUT (R406) -/
  | mctpResponseTimeout
  /-- INPUT_UNDERVOLTAGE (R444) -/
  | inputUndervoltage
  /-- INPUT_OVERVOLTAGE (R444) -/
  | inputOvervoltage
  /-- INPUT_RESTORED (R444) -/
  | inputRestored
  /-- HOLDUP_EXHAUSTED (R444) -/
  | holdupExhausted
  /-- CLUSTER_RESTART_READY (R403) -/
  | clusterRestartReady
  /-- AVS_ACKNOWLEDGED (R375) -/
  | avsAcknowledged
  /-- WAKE_OUT_N_RELEASE (R370) -/
  | wakeOutNRelease
  deriving DecidableEq, Repr

end Sys2Proof
end

