-- ==== Sys2Proof/Config.lean ====
section
/-! DEFINITION. What the spec leaves open: constants without a body. Nothing in Lean can evaluate
one or prove a value of it; every statement holds for every value. Each is named in a log entry. -/

namespace Sys2Proof.Config
open Sys2Proof

/-- The n-th free 32-bit word (a random token or an unstated register value). DESIGN CHOICE, log 11. -/
opaque freeWord : Nat → W32

/-- The reference that BANK_ATTN derives from a c* or Λ for which R195, R197 and R198 state no value; it is a
function of the operands alone, as R199 asks (log 11). -/
opaque freeRef : Nat → Nat → W32

/-- Byte `i` of the n-th free byte string (nonces, undefined data). DESIGN CHOICE, log 11. -/
opaque freeByte : Nat → Nat → Byte

/-- R232, R149: the input from which a faithful FP32 result is the upper of its two brackets, by
function, monotone interval and lower bracket. DESIGN CHOICE, log 12. -/
opaque faithfulFrom : Nat → Nat → Nat → Int

/-- Which of two neighbours a result rounds to where the model's enclosure of the real value does
not decide, by function, format and input. DESIGN CHOICE, log 12. -/
opaque roundsUp : Nat → Nat → Nat → Bool

/-- R247: the CRL1 function unit's FP32 result bits, by function and input bits. DESIGN CHOICE, log 13. -/
opaque crl1 : Nat → Nat → Nat

/-- The 32 bytes that ML-DSA signing draws at random (FIPS 204), by context and message. DESIGN CHOICE,
log 14. -/
opaque signRandom : Bytes → Bytes → Bytes

/-- Relligrim's PCI-SIG vendor identifier (R283, R439), which the spec does not give. Log 15. -/
opaque vendorId : BitVec 16

/-- The serial number that Relligrim wrote at manufacture (R426, R439). Log 16. -/
opaque serial : Bytes

/-- The 256-bit secret of the PUF array (R424). Log 16. -/
opaque pufSecret : Bytes

/-- The identity fingerprint recorded at manufacture (R423). Log 16. -/
opaque recordedFp : Nat

/-- Fingerprint and signature of the device certificate (R426). Log 16. -/
opaque devKeyFp : Nat
opaque certSig : Bytes

/-- The two Relligrim firmware keys held in ROM (R420). Log 16. -/
opaque romKey : Nat → Bytes

/-- The MAC address of a network port (R354). Log 16. -/
opaque mac : Nat → BitVec 48

/-- Start and full temperature of the board sensors in °C, which R385 does not list. DESIGN CHOICE,
log 21. -/
opaque boardStart : Nat
opaque boardFull : Nat

/-- SDG_THROTTLE cause of the two sources without a listed code: 0 the board, 1 an AVSBus failure.
DESIGN CHOICE, log 21. -/
opaque otherCause : Nat → BitVec 4

/-- SDG_WDOG alive at a local time: no rule says when a core restarts its watchdog. DESIGN CHOICE, log 22. -/
opaque wdogAlive : Nat → BitVec 8

/-- Periods left of the compute-slot lease that SDG_LEASE3 shows at a local time. DESIGN CHOICE, log 22. -/
opaque slotLeaseLeft : Nat → BitVec 22

/-- Voltage in mV of a clock point in MHz, in the characterisation table with a digest (R376). Log 23. -/
opaque pointMv : Bytes → Nat → BitVec 16

/-- VDD_HUB in mV and the clock point in MHz with which RUN begins after a start-up (R370, R376). Log 23. -/
opaque bootMv : BitVec 16
opaque bootMhz : BitVec 12

end Sys2Proof.Config
end

