-- ==== Sys2Proof/Machine/Bits.lean ====
section
/-! DEFINITION. Bit fields, byte order (R3, R4) and byte strings. -/

namespace Sys2Proof.Machine
open Sys2Proof

/-- Bits `hi` down to `lo` of a number. -/
def bits (n hi lo : Nat) : Nat := (n >>> lo) % 2 ^ (hi + 1 - lo)

/-- Bit `i` of a number. -/
def bit (n i : Nat) : Bool := n.testBit i

/-- 1 or 0. -/
def b2n (b : Bool) : Nat := if b then 1 else 0

/-- The number with bit `i` set. -/
def setBit (n i : Nat) : Nat := n ||| (1 <<< i)

/-- The number with bit `i` cleared. -/
def clrBit (n i : Nat) : Nat := if n.testBit i then n - (1 <<< i) else n

/-- Two's complement reading of the low `w` bits (R4). -/
def sext (w n : Nat) : Int :=
  let m := n % 2 ^ w
  if m < 2 ^ (w - 1) then (m : Int) else (m : Int) - (2 ^ w : Nat)

/-- The low `w` bits of an integer. -/
def wrap (w : Nat) (z : Int) : Nat := (z % ((2 ^ w : Nat) : Int)).toNat

/-- A number's bytes, least significant first (R3). -/
def leBytes : Nat → Nat → Bytes
  | 0, _ => []
  | k + 1, n => BitVec.ofNat 8 n :: leBytes k (n / 256)

/-- The number that bytes spell, least significant first (R3). -/
def leNat : Bytes → Nat
  | [] => 0
  | b :: t => b.toNat + 256 * leNat t

/-- `len` bytes at offset `off`; bytes beyond the string read as zero. -/
def bytesAt (b : Bytes) (off len : Nat) : Bytes :=
  let s := (b.drop off).take len
  s ++ List.replicate (len - s.length) 0

/-- The little-endian field of `len` bytes at offset `off`. -/
def fld (b : Bytes) (off len : Nat) : Nat := leNat ((b.drop off).take len)

/-- Whether every byte of the range is zero. -/
def zeroAt (b : Bytes) (off len : Nat) : Bool := ((b.drop off).take len).all (· == 0)

/-- The string with the bytes at `off` replaced. -/
def putAt (b : Bytes) (off : Nat) (d : Bytes) : Bytes := b.take off ++ d ++ b.drop (off + d.length)

/-- `n` zero bytes. -/
def zeros (n : Nat) : Bytes := List.replicate n 0

/-- ASCII bytes of a string. -/
def ascii (s : String) : Bytes := s.toList.map (fun c => BitVec.ofNat 8 c.toNat)

/-- A count that stays at its 32-bit limit ("saturating"). -/
def satInc (w : W32) : W32 := if w = BitVec.allOnes 32 then w else w + 1

/-- Adds `n` to a saturating count. -/
def satAdd (w : W32) (n : Nat) : W32 := BitVec.ofNat 32 (min (w.toNat + n) (2 ^ 32 - 1))

/-- Ceiling division. -/
def cdiv (a b : Nat) : Nat := (a + b - 1) / b

/-- Whether `a` is a multiple of `b`. -/
def multOf (a b : Nat) : Bool := a % b == 0

/-- Whether two half-open ranges share a number. -/
def overlap (a la b lb : Nat) : Bool := decide (a < b + lb) && decide (b < a + la)

/-- Whether `[a, a+la)` lies inside `[b, b+lb)`. -/
def inside (a la b lb : Nat) : Bool := decide (b ≤ a) && decide (a + la ≤ b + lb)

/-- Indices 0 .. n-1 whose bit is set, ascending. -/
def bitsSet (n width : Nat) : List Nat := (List.range width).filter (fun i => n.testBit i)

/-- Number of bits set below `width`. -/
def popc (n width : Nat) : Nat := (bitsSet n width).length

/-- Whether the list holds no element twice. -/
def noDup : List Nat → Bool
  | [] => true
  | a :: t => !t.contains a && noDup t

/-- Whether the list is a permutation of 0 .. n-1. -/
def isPerm (l : List Nat) (n : Nat) : Bool := l.length == n && (List.range n).all (fun i => l.contains i)

/-- Cuts a string into pieces of `n` bytes, at most `fuel` of them. -/
def chunk (n : Nat) : Nat → Bytes → List Bytes
  | 0, _ => []
  | _, [] => []
  | fuel + 1, b => b.take n :: chunk n fuel (b.drop n)

/-- Whether a list of numbers rises strictly. -/
def rising : List Nat → Bool
  | a :: c :: t => decide (a < c) && rising (c :: t)
  | _ => true

end Sys2Proof.Machine
end

