-- ==== Sys2Proof/Machine/Codes.lean ====
section
/-! DEFINITION. The check codes: CRC-32C (R74), the Reed-Solomon code of guarded quarters (R69),
and SHAKE256 (named by R34, R41, R430). -/

namespace Sys2Proof.Machine
open Sys2Proof

/-- One bit of the reflected CRC-32C, polynomial 0x1EDC6F41 (R74). -/
def crcBit (c : Nat) : Nat := if c % 2 = 1 then (c / 2) ^^^ 0x82F63B78 else c / 2

def crcByte (c : Nat) (b : Byte) : Nat :=
  let x := c ^^^ b.toNat
  crcBit (crcBit (crcBit (crcBit (crcBit (crcBit (crcBit (crcBit x)))))))

/-- The bytes of a message in order; the match has the CRC so far evaluated before the next byte. -/
def crcFrom : Bytes → Nat → Nat
  | [], c => c
  | b :: t, c =>
    match crcByte c b with
    | 0 => crcFrom t 0
    | n + 1 => crcFrom t (n + 1)

/-- CRC-32C with initial value and final XOR 0xFFFF_FFFF (R74). -/
def crc32c (d : Bytes) : Nat := crcFrom d 0xFFFFFFFF ^^^ 0xFFFFFFFF

/-! ### GF(2⁸) and the code of R69 -/

/-- Times α = 0x02, modulo x⁸+x⁴+x³+x²+1. -/
def gfDbl (a : Nat) : Nat := let d := 2 * a; if 256 ≤ d then (d ^^^ 0x11D) % 256 else d

/-- The product of two field elements; `fuel` is the number of bits of `b` left. -/
def gfMulN : Nat → Nat → Nat → Nat
  | 0, _, _ => 0
  | fuel + 1, a, b => (if b % 2 = 1 then a else 0) ^^^ gfMulN fuel (gfDbl a) (b / 2)

def gfMul (a b : Nat) : Nat := gfMulN 8 a b

def gfPow (a : Nat) : Nat → Nat
  | 0 => 1
  | k + 1 => gfMul a (gfPow a k)

/-- α^k, for k taken modulo 255. -/
def gfExp (k : Nat) : Nat := gfPow 2 (k % 255)

/-- The inverse: a^254. -/
def gfInv (a : Nat) : Nat := gfPow a 254

/-- Discrete logarithm: the k below 255 with α^k = a. -/
def gfLog (a : Nat) : Option Nat := (List.range 255).find? (fun k => gfExp k == a)

/-- Multiplies a polynomial (lowest coefficient first) by (x + c). -/
def polyMulRoot (c : Nat) (p : List Nat) : List Nat :=
  List.zipWith (fun a b => a ^^^ b) (0 :: p) ((p.map (gfMul c)) ++ [0])

/-- g(x) = (x + α⁰)…(x + α⁷), lowest coefficient first (R69). -/
def rsGen : List Nat := (List.range 8).foldl (fun p i => polyMulRoot (gfExp i) p) [1]

/-- One step of the division by g: brings the next coefficient `c` (from the highest down) into
the remainder `r` of eight coefficients, lowest first. -/
def rsStep (g r : List Nat) (c : Nat) : List Nat :=
  let top := c ^^^ (r.getD 7 0)
  List.zipWith (fun a b => a ^^^ gfMul top b) (0 :: r.take 7) (g.take 8)

/-- The check symbols of a quarter's 64 data bytes with tag symbol `v` (R69): the remainder of
the sum of c_j x^j over positions 8 to 72, lowest coefficient first. -/
def rsCheck (data : Bytes) (v : Nat) : Bytes :=
  let syms := (v :: (data.map BitVec.toNat).reverse)
  let g := rsGen
  (syms.foldl (rsStep g) (List.replicate 8 0)).map (BitVec.ofNat 8)

/-- Syndrome i of the received word: the value of its polynomial at α^i. -/
def rsSyndrome (word : List Nat) (i : Nat) : Nat :=
  word.foldr (fun c acc => c ^^^ gfMul (gfExp i) acc) 0

/-- The eight syndromes of slice `chk` and `data`, computed with tag symbol 0. -/
def rsSyndromes (chk data : Bytes) : List Nat :=
  let word := (chk.map BitVec.toNat) ++ (data.map BitVec.toNat) ++ [0]
  (List.range 8).map (rsSyndrome word)

/-- An error: its position (0 to 72) and magnitude. -/
abbrev RsErr := Nat × Nat

/-- The syndromes that a set of errors would give. -/
def rsSynOf (errs : List RsErr) : List Nat :=
  (List.range 8).map (fun i => errs.foldl (fun a e => a ^^^ gfMul e.2 (gfExp (i * e.1))) 0)

/-- A single error at a position within the 73 that explains the syndromes. -/
def rsOne (s : List Nat) : Option (List RsErr) :=
  let s0 := s.getD 0 0
  let s1 := s.getD 1 0
  if s0 = 0 then none
  else match gfLog (gfMul s1 (gfInv s0)) with
    | some p => if p ≤ 72 && rsSynOf [(p, s0)] == s then some [(p, s0)] else none
    | none => none

/-- Two errors, at positions within the 73, that explain the syndromes. With X and Y the locators,
S₀S₂ + S₁², the elementary sums σ₁ and σ₂ follow, and X runs over the positions. -/
def rsTwo (s : List Nat) : Option (List RsErr) :=
  let s0 := s.getD 0 0
  let s1 := s.getD 1 0
  let s2 := s.getD 2 0
  let s3 := s.getD 3 0
  let det := gfMul s0 s2 ^^^ gfMul s1 s1
  if det = 0 then none
  else
    let inv := gfInv det
    let sg1 := gfMul inv (gfMul s0 s3 ^^^ gfMul s1 s2)
    let sg2 := gfMul inv (gfMul s1 s3 ^^^ gfMul s2 s2)
    let roots := (List.range 73).filter (fun p =>
      let x := gfExp p
      (gfMul x x ^^^ gfMul sg1 x ^^^ sg2) == 0)
    match roots with
    | [p, r] =>
      let x := gfExp p
      let y := gfExp r
      let e2 := gfMul (gfInv (x ^^^ y)) (gfMul s0 x ^^^ s1)
      let e1 := s0 ^^^ e2
      if rsSynOf [(p, e1), (r, e2)] == s then some [(p, e1), (r, e2)] else none
    | _ => none

/-- What the decoder of R69 finds: no error, at most two errors, or none it can name. -/
def rsDecode (s : List Nat) : Option (List RsErr) :=
  if s.all (· == 0) then some []
  else match rsOne s with
    | some e => some e
    | none => rsTwo s

/-! ### SHAKE256 -/

/-- The rotation offsets of Keccak's ρ step, lane x + 5y. -/
def keccakRot : List Nat :=
  [0, 1, 62, 28, 27, 36, 44, 6, 55, 20, 3, 10, 43, 25, 39, 41, 45, 15, 21, 8, 18, 2, 61, 56, 14]

/-- The round constants of Keccak's ι step. -/
def keccakRc : List W64 :=
  [0x0000000000000001, 0x0000000000008082, 0x800000000000808A, 0x8000000080008000,
   0x000000000000808B, 0x0000000080000001, 0x8000000080008081, 0x8000000000008009,
   0x000000000000008A, 0x0000000000000088, 0x0000000080008009, 0x000000008000000A,
   0x000000008000808B, 0x800000000000008B, 0x8000000000008089, 0x8000000000008003,
   0x8000000000008002, 0x8000000000000080, 0x000000000000800A, 0x800000008000000A,
   0x8000000080008081, 0x8000000000008080, 0x0000000080000001, 0x8000000080008008]

def keccakRound (a : List W64) (rc : W64) : List W64 :=
  let at' := fun (l : List W64) (i : Nat) => l.getD i 0
  let c := (List.range 5).map (fun x =>
    at' a x ^^^ at' a (x + 5) ^^^ at' a (x + 10) ^^^ at' a (x + 15) ^^^ at' a (x + 20))
  let d := (List.range 5).map (fun x => at' c ((x + 4) % 5) ^^^ (at' c ((x + 1) % 5)).rotateLeft 1)
  let t := (List.range 25).map (fun i => at' a i ^^^ at' d (i % 5))
  let b := (List.range 25).map (fun j =>
    -- lane (X, Y) of B is the rotated lane (x, y) of A with X = y, Y = 2x + 3y
    let xx := j % 5
    let yy := j / 5
    let y := xx
    let x := (yy * 3 + xx * 1) % 5
    -- 2x + 3y = yy (mod 5) with y = xx gives x = 3 (yy − 3 xx) = 3 yy + xx (mod 5)
    (at' t (x + 5 * y)).rotateLeft (keccakRot.getD (x + 5 * y) 0))
  let e := (List.range 25).map (fun i =>
    let x := i % 5
    let y := i / 5
    at' b i ^^^ (~~~ (at' b ((x + 1) % 5 + 5 * y)) &&& at' b ((x + 2) % 5 + 5 * y)))
  match e with
  | h :: t' => (h ^^^ rc) :: t'
  | [] => []

def keccakF (a : List W64) : List W64 := keccakRc.foldl keccakRound a

/-- The first `r` lanes, the rate, XORed with one block of as many lanes. -/
def keccakAbsorb (r : Nat) (a : List W64) (blk : Bytes) : List W64 :=
  let lanes := (List.range 25).map (fun i =>
    if i < r then BitVec.ofNat 64 (fld blk (8 * i) 8) else 0)
  keccakF (List.zipWith (· ^^^ ·) a lanes)

def keccakSqueeze (r : Nat) : Nat → List W64 → Bytes
  | 0, _ => []
  | k + 1, a => ((a.take r).flatMap (fun l => leBytes 8 l.toNat)) ++ keccakSqueeze r k (keccakF a)

/-- SHAKE with a rate of `r` lanes and `n` bytes of output. -/
def shake (r : Nat) (msg : Bytes) (n : Nat) : Bytes :=
  let w := 8 * r
  let padLen := w - (msg.length % w)
  let pad : Bytes := if padLen = 1 then [0x9F] else (0x1F :: zeros (padLen - 2)) ++ [0x80]
  let m := msg ++ pad
  let a := (chunk w (m.length / w) m).foldl (keccakAbsorb r) (List.replicate 25 0)
  (keccakSqueeze r (cdiv n w) a).take n

/-- SHAKE256 with `n` bytes of output. -/
def shake256 (msg : Bytes) (n : Nat) : Bytes := shake 17 msg n

/-- SHAKE128 with `n` bytes of output. -/
def shake128 (msg : Bytes) (n : Nat) : Bytes := shake 21 msg n

end Sys2Proof.Machine
end

