-- ==== Sys2Proof/Machine/Operands.lean ====
section
/-! DEFINITION. The element formats of R10 and the exact arithmetic behind every operation:
decoding (R122, R207), exact sums and products (R125), and the one rounding of R129 and R221. -/

namespace Sys2Proof.Machine
open Sys2Proof

/-- An exact value: NaN, a signed infinity, or (−1)^neg × num ÷ den × 2^exp. -/
inductive Ex where
  | nan
  | inf (neg : Bool)
  | q (neg : Bool) (num den : Nat) (exp : Int)
  deriving DecidableEq, Repr

/-- Completion flags (R305) as a mask. -/
abbrev Flags := Nat

namespace Ex

def zero : Ex := .q false 0 1 0
def ofNat (n : Nat) : Ex := .q false n 1 0
def ofInt (z : Int) : Ex := .q (decide (z < 0)) z.natAbs 1 0
/-- z × 2^e. -/
def ofDyadic (z : Int) (e : Int) : Ex := .q (decide (z < 0)) z.natAbs 1 e

def isNan : Ex → Bool | .nan => true | _ => false
def isInf : Ex → Bool | .inf _ => true | _ => false
def isZero : Ex → Bool | .q _ n _ _ => n == 0 | _ => false
def isNeg : Ex → Bool | .nan => false | .inf s => s | .q s _ _ _ => s
def isFin : Ex → Bool | .q _ _ _ _ => true | _ => false

def neg : Ex → Ex
  | .nan => .nan
  | .inf s => .inf (!s)
  | .q s n d e => .q (!s) n d e

def abs : Ex → Ex
  | .nan => .nan
  | .inf _ => .inf false
  | .q _ n d e => .q false n d e

/-- 2^k as a natural number, 1 for negative k. -/
def p2 (k : Int) : Nat := 2 ^ k.toNat

/-- Signed numerators of two finite values over one common denominator and exponent. -/
def align (s1 : Bool) (n1 d1 : Nat) (e1 : Int) (s2 : Bool) (n2 d2 : Nat) (e2 : Int) : Int × Int × Nat × Int :=
  let e := min e1 e2
  let a : Int := ((n1 * p2 (e1 - e) * d2 : Nat) : Int)
  let b : Int := ((n2 * p2 (e2 - e) * d1 : Nat) : Int)
  (if s1 then -a else a, if s2 then -b else b, d1 * d2, e)

/-- The exact sum; R125 for NaN and infinities, IEEE for the sign of an exact zero. -/
def add : Ex → Ex → Ex
  | .nan, _ => .nan
  | _, .nan => .nan
  | .inf s, .inf t => if s = t then .inf s else .nan
  | .inf s, _ => .inf s
  | _, .inf s => .inf s
  | .q s1 n1 d1 e1, .q s2 n2 d2 e2 =>
    let (a, b, d, e) := align s1 n1 d1 e1 s2 n2 d2 e2
    if a + b = 0 then .q (s1 && s2) 0 1 0 else .q (decide (a + b < 0)) (a + b).natAbs d e

def sub (a b : Ex) : Ex := add a (neg b)

/-- The exact product; an infinity times zero is NaN (R125). -/
def mul : Ex → Ex → Ex
  | .nan, _ => .nan
  | _, .nan => .nan
  | .inf s, .inf t => .inf (s != t)
  | .inf s, .q t n _ _ => if n = 0 then .nan else .inf (s != t)
  | .q t n _ _, .inf s => if n = 0 then .nan else .inf (s != t)
  | .q s1 n1 d1 e1, .q s2 n2 d2 e2 => .q (s1 != s2) (n1 * n2) (d1 * d2) (e1 + e2)

/-- The exact quotient, with the IEEE results at zero and infinity. -/
def div : Ex → Ex → Ex
  | .nan, _ => .nan
  | _, .nan => .nan
  | .inf _, .inf _ => .nan
  | .inf s, .q t _ _ _ => .inf (s != t)
  | .q t _ _ _, .inf s => .q (s != t) 0 1 0
  | .q s1 n1 d1 e1, .q s2 n2 d2 e2 =>
    if n2 = 0 then (if n1 = 0 then .nan else .inf (s1 != s2))
    else .q (s1 != s2) (n1 * d2) (d1 * n2) (e1 - e2)

/-- Scales by 2^k. -/
def scale (k : Int) : Ex → Ex
  | .q s n d e => .q s n d (e + k)
  | x => x

/-- Numerical order of two values that are not NaN; −0 and +0 are equal. -/
def lt : Ex → Ex → Bool
  | .nan, _ => false
  | _, .nan => false
  | .inf s, .inf t => s && !t
  | .inf s, .q _ _ _ _ => s
  | .q _ _ _ _, .inf s => !s
  | .q s1 n1 d1 e1, .q s2 n2 d2 e2 =>
    let (a, b, _, _) := align s1 n1 d1 e1 s2 n2 d2 e2
    decide (a < b)

def eqv (a b : Ex) : Bool := !a.isNan && !b.isNan && !lt a b && !lt b a
def le (a b : Ex) : Bool := lt a b || eqv a b

/-- IEEE 754-2019 maximum: NaN propagates, −0 is below +0 (R218). -/
def max2 (a b : Ex) : Ex :=
  if a.isNan || b.isNan then .nan
  else if lt a b then b else if lt b a then a else if a.isNeg then b else a

/-- IEEE 754-2019 minimum (R218). -/
def min2 (a b : Ex) : Ex :=
  if a.isNan || b.isNan then .nan
  else if lt a b then a else if lt b a then b else if a.isNeg then a else b

/-- ⌊x⌋ of a finite value; 0 otherwise. -/
def floor : Ex → Int
  | .q s n d e =>
    let num := n * p2 e
    let den := d * p2 (-e)
    if den = 0 then 0
    else if s then -(((num + den - 1) / den : Nat) : Int) else ((num / den : Nat) : Int)
  | _ => 0

/-- ⌊log₂ |x|⌋ of a finite nonzero value. -/
def ilog2 : Ex → Int
  | .q _ n d e =>
    let k : Int := (Nat.log2 n : Int) - (Nat.log2 d : Int)
    let ge : Bool := decide (d * p2 k ≤ n * p2 (-k))
    e + (if ge then k else k - 1)
  | _ => 0

end Ex

/-- n ÷ d rounded to nearest, ties to even. -/
def rneDiv (n d : Nat) : Nat :=
  let k := n / d
  let r := n % d
  if 2 * r > d || (2 * r == d && k % 2 == 1) then k + 1 else k

/-- num ÷ den × 2^e in units of 2^u, rounded to nearest, ties to even. -/
def rneUnits (num den : Nat) (e u : Int) : Nat :=
  rneDiv (num * Ex.p2 (e - u)) (den * Ex.p2 (u - e))

/-- A binary floating format: exponent and fraction bits, bias, and its largest finite value
`maxM × 2^maxE`; whether it has infinities, and its quiet NaN (R122, R129, R207). -/
structure FFmt where
  mb : Nat
  bias : Int
  maxM : Nat
  maxE : Int
  width : Nat
  hasInf : Bool
  infBits : Nat
  nanBits : Nat
  maxBits : Nat
  deriving DecidableEq, Repr

def ffp32 : FFmt := ⟨23, 127, 16777215, 104, 32, true, 0x7F800000, 0x7FC00000, 0x7F7FFFFF⟩
def fbf16 : FFmt := ⟨7, 127, 255, 120, 16, true, 0x7F80, 0x7FC0, 0x7F7F⟩
def ffp16 : FFmt := ⟨10, 15, 2047, 5, 16, true, 0x7C00, 0x7E00, 0x7BFF⟩
def fe5m2 : FFmt := ⟨2, 15, 7, 13, 8, true, 0x7C, 0x7F, 0x7B⟩
def fe4m3 : FFmt := ⟨3, 7, 14, 5, 8, false, 0x7E, 0x7F, 0x7E⟩
def fe2m1 : FFmt := ⟨1, 1, 3, 1, 4, false, 0x7, 0, 0x7⟩
def fe3m2 : FFmt := ⟨2, 3, 7, 2, 6, false, 0x1F, 0, 0x1F⟩
def fe2m3 : FFmt := ⟨3, 1, 15, -1, 6, false, 0x1F, 0, 0x1F⟩

/-- Decodes a floating word. Subnormals keep their value (R122). -/
def decF (f : FFmt) (raw : Nat) : Ex :=
  let s := raw.testBit (f.width - 1)
  let mag := raw % 2 ^ (f.width - 1)
  let e := mag / 2 ^ f.mb
  let m := mag % 2 ^ f.mb
  if f.hasInf && mag == f.infBits then .inf s
  else if f.hasInf && mag > f.infBits then .nan
  else if f.nanBits != 0 && !f.hasInf && mag == f.nanBits then .nan
  else if e = 0 then .q s m 1 (1 - f.bias - (f.mb : Int))
  else .q s (m + 2 ^ f.mb) 1 ((e : Int) - f.bias - (f.mb : Int))

def flagFill : Flags := 1
def flagClamp : Flags := 2
def flagPermOor : Flags := 4
def flagEmptyReduce : Flags := 8
def flagMaskedRow : Flags := 16
def flagWideOvf : Flags := 32
def flagNegIndex : Flags := 64
def flagSat : Flags := 128
def flagNan : Flags := 256
def flagCorrected : Flags := 512

/-- Encodes m × 2^u, which is a multiple of the format's unit at its size. -/
def packF (f : FFmt) (neg : Bool) (m : Nat) (u : Int) : Nat :=
  let sgn := if neg then 2 ^ (f.width - 1) else 0
  let (m, u) := if m = 2 ^ (f.mb + 1) then (2 ^ f.mb, u + 1) else (m, u)
  if m < 2 ^ f.mb then sgn + m
  else sgn + ((u + (f.mb : Int) + f.bias).toNat * 2 ^ f.mb + (m - 2 ^ f.mb))

/-- The unit of the last place of a nonzero value in a floating format. -/
def ulpExp (f : FFmt) (x : Ex) : Int := max (Ex.ilog2 x) (1 - f.bias) - (f.mb : Int)

/-- R129 for floating targets: one rounding, to nearest, ties to even. -/
def encF (f : FFmt) : Ex → Nat × Flags
  | .nan => (f.nanBits, flagNan)
  | .inf s =>
    let sgn := if s then 2 ^ (f.width - 1) else 0
    if f.hasInf then (sgn + f.infBits, 0) else (sgn + f.maxBits, flagSat)
  | .q s n d e =>
    if n = 0 then ((if s then 2 ^ (f.width - 1) else 0), 0)
    else
      let x := Ex.q s n d e
      let u := ulpExp f x
      let m := rneUnits n d e u
      let big : Bool := decide (f.maxM * Ex.p2 (f.maxE - u) < m * Ex.p2 (u - f.maxE))
      if big then
        -- formats of 8 bits and fewer saturate, FP8E5M2 too
        ((if s then 2 ^ (f.width - 1) else 0) + (if 8 < f.width then f.infBits else f.maxBits), flagSat)
      else (packF f s m u, 0)

/-- An exact value rounded to an integer, to nearest, ties to even. -/
def rneInt : Ex → Int
  | .q s n d e => let m := rneUnits n d e 0; if s then -(m : Int) else (m : Int)
  | _ => 0

/-- R129 for integer targets of `w` bits with limits `lo` and `hi`. -/
def encI (w : Nat) (lo hi : Int) : Ex → Nat × Flags
  | .nan => (0, flagNan)
  | .inf s => (wrap w (if s then lo else hi), flagSat)
  | x =>
    let z := rneInt x
    if z < lo then (wrap w lo, flagSat) else if hi < z then (wrap w hi, flagSat) else (wrap w z, 0)

/-- The WIDE96 codes of R124. -/
def wideNan : Nat := 2 ^ 95
def widePinf : Nat := 2 ^ 95 + 1
def wideNinf : Nat := 2 ^ 95 + 2
def wideLo : Int := -((2 ^ 95 - 3 : Nat) : Int)
def wideHi : Int := ((2 ^ 95 - 1 : Nat) : Int)

/-- R129 for WIDE96. -/
def encWide : Ex → Nat × Flags
  | .nan => (wideNan, flagNan)
  | .inf s => (if s then wideNinf else widePinf, 0)
  | x => encI 96 wideLo wideHi x

def decWide (raw : Nat) : Ex :=
  let r := raw % 2 ^ 96
  if r = wideNan then .nan else if r = widePinf then .inf false else if r = wideNinf then .inf true
  else Ex.ofInt (sext 96 r)

/-- Format codes (R10). -/
def cFP32 : Nat := 0x01
def cBF16 : Nat := 0x02
def cFP16 : Nat := 0x03
def cE4M3 : Nat := 0x04
def cE5M2 : Nat := 0x05
def cINT8 : Nat := 0x06
def cUINT8 : Nat := 0x07
def cINT4 : Nat := 0x08
def cFP4 : Nat := 0x09
def cCB4 : Nat := 0x0A
def cMXE4M3 : Nat := 0x10
def cMXE5M2 : Nat := 0x11
def cMXE3M2 : Nat := 0x12
def cMXE2M3 : Nat := 0x13
def cMXFP4 : Nat := 0x14
def cMXINT8 : Nat := 0x15
def cINT32 : Nat := 0x20
def cWIDE96 : Nat := 0x21

/-- R10, R11: the codes that are not reserved. -/
def fmtListed (c : Nat) : Bool :=
  (decide (1 ≤ c) && decide (c ≤ 0x0A)) || (decide (0x10 ≤ c) && decide (c ≤ 0x15)) || c == 0x20 || c == 0x21

def isMX (c : Nat) : Bool := decide (0x10 ≤ c) && decide (c ≤ 0x15)
/-- Block-scaled formats and CB4 (R251). -/
def isBlock (c : Nat) : Bool := isMX c || c == cCB4

/-- Element bits (R10). -/
def fmtBits (c : Nat) : Nat :=
  if c = cFP32 || c = cINT32 then 32
  else if c = cBF16 || c = cFP16 then 16
  else if c = cINT4 || c = cFP4 || c = cCB4 || c = cMXFP4 then 4
  else if c = cMXE3M2 || c = cMXE2M3 then 6
  else if c = cWIDE96 then 96
  else 8

/-- Elements per block (R251). -/
def blkElems (c : Nat) : Nat := if c = cCB4 then 256 else if isMX c then 32 else 1
/-- Bytes per block (R251), or per element for formats of whole bytes. -/
def blkBytes (c : Nat) : Nat :=
  if c = cCB4 then 160
  else if c = cMXE4M3 || c = cMXE5M2 || c = cMXINT8 then 33
  else if c = cMXE3M2 || c = cMXE2M3 then 25
  else if c = cMXFP4 then 17
  else fmtBits c / 8

/-- The exact value of one element's raw bits, scales and codebooks apart (R122, R207). -/
def decElem (c raw : Nat) : Ex :=
  if c = cFP32 then decF ffp32 raw
  else if c = cBF16 then decF fbf16 raw
  else if c = cFP16 then decF ffp16 raw
  else if c = cE4M3 || c = cMXE4M3 then decF fe4m3 raw
  else if c = cE5M2 || c = cMXE5M2 then decF fe5m2 raw
  else if c = cINT8 then Ex.ofInt (sext 8 raw)
  else if c = cUINT8 then Ex.ofNat (raw % 256)
  else if c = cINT4 then Ex.ofInt (sext 4 raw)
  else if c = cFP4 || c = cMXFP4 then decF fe2m1 raw
  else if c = cMXE3M2 then decF fe3m2 raw
  else if c = cMXE2M3 then decF fe2m3 raw
  else if c = cMXINT8 then (Ex.ofInt (sext 8 raw)).scale (-6)
  else if c = cINT32 then Ex.ofInt (sext 32 raw)
  else if c = cWIDE96 then decWide raw
  else Ex.ofNat raw

/-- The E8M0 scale (R122). -/
def decScale (raw : Nat) : Ex := if raw % 256 = 255 then .nan else .q false 1 1 ((raw % 256 : Nat) - 127)

/-- The one rounding of R129, extended by R221 to INT4 and FP4E2M1. -/
def encElem (c : Nat) (x : Ex) : Nat × Flags :=
  if c = cFP32 then encF ffp32 x
  else if c = cBF16 then encF fbf16 x
  else if c = cFP16 then encF ffp16 x
  else if c = cE4M3 || c = cMXE4M3 then encF fe4m3 x
  else if c = cE5M2 || c = cMXE5M2 then encF fe5m2 x
  else if c = cMXINT8 then encI 8 (-128) 127 (x.scale 6)
  else if c = cINT8 then encI 8 (-128) 127 x
  else if c = cUINT8 then encI 8 0 255 x
  else if c = cINT4 then encI 4 (-8) 7 x
  else if c = cFP4 || c = cMXFP4 then encF fe2m1 x
  else if c = cINT32 then encI 32 (-2147483648) 2147483647 x
  else if c = cWIDE96 then encWide x
  else encI 8 0 255 x

/-- FP32 value of raw bits. -/
def f32 (raw : Nat) : Ex := decF ffp32 raw
/-- One FP32 rounding (fl of R173 and R240). -/
def fl32 (x : Ex) : Nat := (encF ffp32 x).1
/-- One FP32 rounding, as a value. -/
def fl (x : Ex) : Ex := f32 (fl32 x)
def f32NaN : Nat := 0x7FC00000
def f32NInf : Nat := 0xFF800000
def f32PInf : Nat := 0x7F800000
def f32One : Nat := 0x3F800000
def f32add (a b : Nat) : Nat := fl32 (Ex.add (f32 a) (f32 b))
def f32mul (a b : Nat) : Nat := fl32 (Ex.mul (f32 a) (f32 b))
/-- Whether raw FP32 bits are finite. -/
def f32Finite (raw : Nat) : Bool := (f32 raw).isFin

/-- The sum of a list of exact terms (order does not matter, R125). -/
def exSum (l : List Ex) : Ex := l.foldl Ex.add Ex.zero

end Sys2Proof.Machine
end

