-- ==== Sys2Proof/Machine/Regs.lean ====
section
/-! DEFINITION. The register map of the control space (R436, R441): for each register its writable
fields by access code (R8) and its reset value, and the offsets, status codes (R304) and error-log
kinds (R408) that the meanings name. -/

namespace Sys2Proof.Machine
open Sys2Proof

/-- The writable bits of a 32-bit register by access code, and its reset value. Bits in no mask are
RO, WO with a row of their own, SDG or reserved: an ordinary write leaves them (R7, R8). -/
structure RegInfo where
  rw : Nat
  w1c : Nat
  rwc : Nat
  reset : Nat
  deriving DecidableEq, Repr

def mRO (r : Nat) : RegInfo := ⟨0, 0, 0, r⟩
def mRW (m r : Nat) : RegInfo := ⟨m, 0, 0, r⟩
def mW1C (m : Nat) : RegInfo := ⟨0, m, 0, 0⟩
def mRWC (m r : Nat) : RegInfo := ⟨0, 0, m, r⟩

def all1 : Nat := 0xFFFFFFFF

/-- Rows of a block's register list: first offset, last offset, fields. -/
abbrev RegRows := List (Nat × Nat × RegInfo)

def rowsIdent : RegRows :=
  [(0x000, 0x004, mRO 0), (0x010, 0x03B, mRO 0), (0x040, 0x047, mRO 0), (0x100, 0x103, mW1C 0x100),
   (0x104, 0x107, mRW 0x300 0), (0x108, 0x10B, mRW all1 0), (0x10C, 0x10F, mRW 0xFF 0),
   (0x110, 0x113, mRW 0xFFFFFF 0), (0x114, 0x143, mRO 0)]

def rowsAttach : RegRows :=
  [(0x000, 0x00F, mRO 0), (0x010, 0x013, mRW 0xFFF 60), (0x014, 0x017, mRW 0xFFFF 0),
   (0x018, 0x01F, mRO 0), (0x020, 0x023, mRO 0), (0x024, 0x027, mW1C 0x1F), (0x028, 0x02B, mRO 0)]

def rowsWindow : RegRows :=
  [(0x000, 0x003, mRWC 0xFFE00000 0), (0x004, 0x007, mRWC 0xFF 0), (0x008, 0x00B, mRWC all1 0),
   (0x010, 0x013, mW1C 7), (0x014, 0x01B, mRO 0), (0x180, 0x187, mRO 0)]

def rowsEvents : RegRows :=
  [(0x000, 0x003, mRO 0), (0x004, 0x007, mRW all1 all1), (0x010, 0x02F, mRW 0x3F3F3F3F 0),
   (0x100, 0x1FF, mRW 0xFFFFFF 0)]

def rowsQueue : RegRows :=
  [(0x000, 0x003, mRWC 0xFFFFF000 0), (0x004, 0x007, mRWC all1 0), (0x008, 0x00B, mRWC 0xFFFFF000 0),
   (0x00C, 0x00F, mRWC all1 0), (0x010, 0x013, mRWC 0x03FF1F1F 0x404), (0x014, 0x02F, mRO 0),
   (0x030, 0x033, mW1C 0x1F), (0x034, 0x037, mRO 0), (0x180, 0x187, mRO 0)]

def rowsLayout : RegRows :=
  [(0x000, 0x00B, mRO 0), (0x00C, 0x00F, mRW 6 4), (0x010, 0x013, mRW all1 0), (0x014, 0x017, mRW 0xFF 0),
   (0x018, 0x01B, mRW 0x7FFFFF 0), (0x01C, 0x01F, mRW 0x3FFF 100), (0x020, 0x023, mRO 0xFF00),
   (0x024, 0x027, mRO all1), (0x028, 0x02B, mW1C 0xF), (0x02C, 0x037, mRO 0), (0x040, 0x07F, mRO 0)]

def rowsPower : RegRows :=
  [(0x000, 0x007, mRO 0), (0x008, 0x00B, mW1C 0x7F), (0x00C, 0x00F, mRO 0), (0x010, 0x013, mRWC all1 200),
   (0x014, 0x017, mRWC all1 0), (0x018, 0x01B, mRWC 0xF 0xF), (0x01C, 0x01F, mRWC all1 0),
   (0x020, 0x023, mRWC all1 0xFFFF), (0x024, 0x037, mRWC all1 0), (0x040, 0x047, mRO 0),
   (0x048, 0x04B, mRW all1 0), (0x04C, 0x053, mRO 0), (0x054, 0x057, mW1C 0x1F), (0x058, 0x05F, mRO 0),
   (0x180, 0x187, mRO 0)]

def rowsErrlog : RegRows := [(0x000, 0x00F, mRO 0), (0x020, 0x03F, mRO 0)]

def rowsFabric : RegRows :=
  [(0x000, 0x007, mRO 0), (0x008, 0x00B, mRW all1 1000), (0x00C, 0x00F, mW1C 0xF), (0x010, 0x023, mRO 0),
   (0x100, 0x17F, mRO 0), (0x200, 0x27F, mRO 0)]

def rowsNet : RegRows :=
  [(0x000, 0x003, mRO 0), (0x004, 0x007, mRW 0xF 0), (0x008, 0x017, mRO 0), (0x018, 0x01B, mW1C 7),
   (0x020, 0x023, mRWC 0xFFFFF000 0), (0x024, 0x027, mRWC all1 0), (0x028, 0x02B, mRWC 0xFFFFF000 0),
   (0x02C, 0x02F, mRWC all1 0), (0x030, 0x033, mRWC 0x7FF 0), (0x040, 0x05F, mRWC all1 0),
   (0x060, 0x067, mRO 0), (0x070, 0x077, mRO 0), (0x180, 0x187, mRO 0)]

def rowsStack : RegRows :=
  [(0x000, 0x003, mRO 0), (0x004, 0x007, mRW 5 1), (0x008, 0x00B, mRO 0x100),
   (0x010, 0x013, mRWC all1 0x02000040), (0x014, 0x017, mRWC all1 0x00800100),
   (0x018, 0x01B, mRWC all1 0x00200020), (0x020, 0x04F, mRWC 0x3FFFF 0x24924), (0x050, 0x07F, mRWC all1 all1),
   (0x080, 0x08B, mRWC 0x1F1F1F1F 0x10101010), (0x090, 0x093, mRWC 0x3F3F 0x3010),
   (0x094, 0x097, mRWC 0x3FF 0x20), (0x098, 0x09B, mRWC 0xFFFF 0x5A0), (0x0A0, 0x0A3, mRW all1 10000),
   (0x0A4, 0x0A7, mRW all1 1000), (0x0A8, 0x0AB, mW1C 0x7F), (0x0B0, 0x0BF, mRO 0), (0x100, 0x15F, mRO 0),
   (0x180, 0x187, mRO 0)]

def rowsTrain : RegRows :=
  [(0x000, 0x003, mRO 0), (0x004, 0x007, mRW 0xE 0), (0x008, 0x00B, mRW 0x1FF 0), (0x00C, 0x00F, mRW 0xFF 0),
   (0x010, 0x017, mRW all1 0), (0x018, 0x01B, mRW 0xFFFFFF 0x10000), (0x040, 0x04B, mRO 0),
   (0x100, 0x18F, mRO 0)]

/-- R385: the factory limits give the reset values of the SDG fields. -/
def rowsSdg : RegRows :=
  [(0x000, 0x003, mRO 0), (0x004, 0x007, mW1C 0x7F), (0x008, 0x00B, mRO 0x08FC0100), (0x00C, 0x013, mRO 0),
   (0x014, 0x017, mRW 2 2), (0x018, 0x01B, mRW all1 0), (0x01C, 0x01F, mRW 0xFF 0), (0x020, 0x023, mRW 0xFFF 0), (0x024, 0x02B, mRO 0),
   (0x040, 0x043, mRO 1650), (0x044, 0x047, mRO 0x625E58), (0x048, 0x04B, mRO 0x6E675F),
   (0x04C, 0x04F, mRO 0x736C64), (0x050, 0x053, mRO 0x37342E), (0x054, 0x057, mRO 0x7D7369),
   (0x058, 0x05B, mRO 16), (0x05C, 0x05F, mRO 1000000), (0x060, 0x063, mRO 0), (0x064, 0x067, mRO 2300),
   (0x068, 0x06B, mRO 0x8328003C), (0x080, 0x093, mRO 0), (0x0A0, 0x0B3, mRO 0), (0x0C0, 0x0C3, mRW 0x3F 0),
   (0x0C4, 0x0C7, mRO 0), (0x0E0, 0x0FF, mRO 0), (0x200, 0x23F, mRO 0), (0x1000, 0x17FF, mRO 0)]

/-- Block bases (R436). -/
def bIDENT : Nat := 0x0
def bATTACH : Nat := 0x1000
def bWINDOW : Nat := 0x2000
def bEVENTS : Nat := 0x3000
def bQUEUES : Nat := 0x10000
def bLAYOUT : Nat := 0x100000
def bPOWER : Nat := 0x110000
def bTHERM : Nat := 0x120000
def bERRLOG : Nat := 0x130000
def bFABRIC : Nat := 0x140000
def bNET : Nat := 0x150000
def bSTACK : Nat := 0x160000
def bTRAIN : Nat := 0x170000
def bSDG : Nat := 0x180000
/-- The base of a queue pair's block. -/
def bQP (q : Nat) : Nat := bQUEUES + q * 0x1000
/-- The base of a stack's block. -/
def bSC (s : Nat) : Nat := bSTACK + s * 0x1000

/-- The base and the register list of the block instance that holds an offset (R436). THERM_VIEW
mirrors SDG read-only (R413) and is not listed here. -/
def blockOf (off : Nat) : Option (Nat × RegRows) :=
  if off < 0x1000 then some (bIDENT, rowsIdent)
  else if off < 0x2000 then some (bATTACH, rowsAttach)
  else if off < 0x3000 then some (bWINDOW, rowsWindow)
  else if off < 0x4000 then some (bEVENTS, rowsEvents)
  else if off < 0x10000 then none
  else if off < 0x50000 then some (off / 0x1000 * 0x1000, rowsQueue)
  else if off < 0x100000 then none
  else if off < 0x110000 then some (bLAYOUT, rowsLayout)
  else if off < 0x120000 then some (bPOWER, rowsPower)
  else if off < 0x130000 then none
  else if off < 0x140000 then some (bERRLOG, rowsErrlog)
  else if off < 0x150000 then some (bFABRIC, rowsFabric)
  else if off < 0x160000 then some (bNET, rowsNet)
  else if off < 0x170000 then some (off / 0x1000 * 0x1000, rowsStack)
  else if off < 0x180000 then some (bTRAIN, rowsTrain)
  else if off < 0x190000 then some (bSDG, rowsSdg)
  else none

/-- The row that lists a relative offset. -/
def rowOf (rows : RegRows) (rel : Nat) : Option RegInfo :=
  (rows.find? (fun r => decide (r.1 ≤ rel) && decide (rel ≤ r.2.1))).map (fun r => r.2.2)

/-- The register at a 4-aligned offset of the control space; none where the offset is reserved. -/
def regInfo (off : Nat) : Option RegInfo :=
  match blockOf off with
  | none => none
  | some (base, rows) => rowOf rows (off - base)

/-- The RWC register whose value in effect reads at `off` (R55). -/
def mirrorOf (off : Nat) : Option Nat :=
  match blockOf off with
  | none => none
  | some (base, rows) =>
    if off - base < 0x800 || 0xC00 ≤ off - base then none
    else match rowOf rows (off - base - 0x800) with
      | some i => if i.rwc = 0 then none else some (off - 0x800)
      | none => none

/-- The reset value of the word stored for an offset: a register, or a value in effect. -/
def regReset (off : Nat) : Nat :=
  match mirrorOf off with
  | some x => ((regInfo x).map RegInfo.reset).getD 0
  | none => ((regInfo off).map RegInfo.reset).getD 0

/-- Width 64 registers of the control space (R5): the low half's offset relative to the block. -/
def isWide64 (off : Nat) : Bool :=
  match blockOf off with
  | none => off == 0x120018
  | some (base, _) =>
    let x := off - base
    let y := if 0x800 ≤ x && x < 0xC00 then x - 0x800 else x
    if base = bIDENT then x == 0x30 || x == 0x40 || x == 0x108 || (decide (0x120 ≤ x) && decide (x ≤ 0x138) && x % 8 == 0)
    else if base = bWINDOW then y == 0
    else if bQUEUES ≤ base && base < 0x50000 then y == 0 || y == 8
    else if base = bLAYOUT then x == 0x10 || x == 0x30
    else if base = bNET then x == 8 || x == 0x10 || y == 0x20 || y == 0x28
    else if base = bTRAIN then x == 0x10
    else if base = bSDG then x == 0x18
    else false

/-! ### Status codes (R304) -/
def stOK : Nat := 0x00
def stFLAGGED : Nat := 0x01
def stDESC : Nat := 0x10
def stRANGE : Nat := 0x11
def stALIAS : Nat := 0x12
def stCLASS : Nat := 0x13
def stUNCORR : Nat := 0x14
def stCHECK : Nat := 0x15
def stTABLE : Nat := 0x17
def stUNREACH : Nat := 0x20
def stRTIMEOUT : Nat := 0x21
def stROUTE : Nat := 0x22
def stPREEMPT : Nat := 0x30
def stABORT : Nat := 0x3F
def stTHERMAL : Nat := 0x40
def stPOWER : Nat := 0x41
def stINTERNAL : Nat := 0x7F

/-- R304: every code but OK, OK_FLAGGED and PREEMPTED is an error. -/
def isErr (s : Nat) : Bool := !(s == stOK || s == stFLAGGED || s == stPREEMPT)

/-! ### Error-log kinds (R408) -/
def kBAD_ACCESS : Nat := 0x0001
def kSDG_WRITE : Nat := 0x0002
def kLAYOUT_REJ : Nat := 0x0003
def kCOMMIT_REF : Nat := 0x0004
def kMEM_UNCORR : Nat := 0x0010
def kMEM_CLASS : Nat := 0x0011
def kMEM_CHECK : Nat := 0x0012
def kMEM_POISON : Nat := 0x0013
def kMEM_UNITREF : Nat := 0x0014
def kSRAM : Nat := 0x0015
def kSC_CMD : Nat := 0x0020
def kSC_REQTO : Nat := 0x0021
def kSC_REFLATE : Nat := 0x0022
def kSC_THERMREF : Nat := 0x0023
def kSC_CORRTH : Nat := 0x0024
def kSC_LANE : Nat := 0x0025
def kSC_SCRUBLATE : Nat := 0x0026
def kSC_SREXIT : Nat := 0x0027
def kTRAIN_REF : Nat := 0x0028
def kUNIT_TABMISS : Nat := 0x0030
def kUNIT_TABACT : Nat := 0x0031
def kWIN_RANGE : Nat := 0x0040
def kWIN_SLOT : Nat := 0x0041
def kQP_BADDB : Nat := 0x0042
def kSTALE_DB : Nat := 0x0043
def kQP_BADCQH : Nat := 0x0044
def kQP_FETCH : Nat := 0x0045
def kATT_ENDED : Nat := 0x0046
def kFAB_MISMATCH : Nat := 0x0050
def kPWR_STUCK : Nat := 0x0060
def kPWR_AVS : Nat := 0x0061
def kPWR_PADREL : Nat := 0x0062
def kPWR_CMD : Nat := 0x0063
def kSDG_EXCL : Nat := 0x0070
def kSDG_REST : Nat := 0x0071
def kSDG_THROTTLE : Nat := 0x0072
def kSDG_SHUT : Nat := 0x0073
def kSDG_RESTART : Nat := 0x0074
def kSDG_LEASE : Nat := 0x0075
def kSDG_CORE : Nat := 0x0076
def kSDG_CAPOK : Nat := 0x0077
def kSDG_CAPREJ : Nat := 0x0078
def kSDG_INPUT : Nat := 0x0079
def kSDG_FAULT : Nat := 0x007A
def kSDG_NV : Nat := 0x007B

/-- The severity of each kind (R408). -/
def severity (k : Nat) : Nat :=
  if [kSC_SCRUBLATE, kATT_ENDED, kSDG_REST, kSDG_THROTTLE, kSDG_RESTART, kSDG_CAPOK].contains k then 0
  else if [kSC_CORRTH, kSC_LANE, kSDG_EXCL].contains k then 1
  else if [kSC_REFLATE, kSC_SREXIT, kPWR_STUCK, kSDG_FAULT].contains k then 3
  else 2

/-- Paths (R407). -/
def pINT : Nat := 0
def pHOST : Nat := 1
def pSIDE : Nat := 2
def pFAB : Nat := 3
def pNET : Nat := 4

end Sys2Proof.Machine
end

