-- ==== Sys2Proof/Machine/State.lean ====
section
/-! DEFINITION. The state of the block as plain data: every register, buffer, queue, counter, mode
and pin that the spec gives it, the queue of waiting commands, the reasons a step can stop, and the
state after reset. -/

namespace Sys2Proof.Machine
open Sys2Proof

/-! ### Messages that left the module -/

/-- What the module sent, oldest first. -/
inductive Msg where
  /-- an MSI-X message of a vector (R315) -/
  | msix (vector : Nat)
  /-- data returned for a control-space read (R6, R438) -/
  | regRead (val : Nat)
  /-- a completion with Unsupported Request (R284) -/
  | unsupported
  /-- data returned for a window read, with the bytes that are poisoned (R286) -/
  | winRead (off : Nat) (data : Bytes) (poisoned : List Nat)
  /-- a write to host memory: a completion (R303) -/
  | hostWrite (addr : Nat) (data : Bytes)
  /-- a read of a ring in host memory (R301) -/
  | hostRead (addr len : Nat)
  /-- a fabric packet leaves on a link -/
  | packet (link : Nat) (p : Packet)
  /-- flits are sent again from the retry buffer, from a sequence number (R330) -/
  | resend (link seq : Nat)
  /-- a NAK flit naming the last good flit (R330) -/
  | nakFlit (link ack : Nat)
  /-- a flit returns credits of a virtual channel with an ack (R327, R329) -/
  | idle (link ack vc credits : Nat)
  /-- a control message: IDENT or PROOF (R325) -/
  | control (link : Nat) (data : Bytes)
  /-- the link wake pattern (R368) -/
  | wakePattern (link : Nat)
  /-- a RoCE v2 frame of a context (R347): kind, PSN, data -/
  | roce (qpn kind psn : Nat) (data : Bytes)
  /-- the frames of a context are sent again from a PSN (R347, R351) -/
  | roceAgain (qpn psn : Nat)
  /-- a network port sends a priority pause (R346) -/
  | pause (port prio : Nat)
  deriving DecidableEq, Repr

/-! ### Structure (02_layout_images) -/

/-- A region of REGN (R26). -/
structure Region where
  id : Nat
  flags : Nat
  owners : Nat
  base : Nat
  len : Nat
  stackSet : Nat
  dies : Nat
  chans : Nat
  pairFirst : Nat
  pairCount : Nat
  rowFirst : Nat
  rowCount : Nat
  deriving DecidableEq, Repr

/-- R26: the class bit of the region; true for open. -/
def Region.isOpen (r : Region) : Bool := r.flags.testBit 0
/-- R26: true for bank-local placement. -/
def Region.isLocal (r : Region) : Bool := r.flags.testBit 1
/-- R26: true for layer residency. -/
def Region.isLayer (r : Region) : Bool := r.flags.testBit 2
/-- R26: SEAL and UNSEAL may treat the region. -/
def Region.convertible (r : Region) : Bool := r.flags.testBit 3

/-- An entry of LINK (R34). -/
structure LinkEnt where
  bundle : Nat
  flags : Nat
  nbModule : Nat
  nbLink : Nat
  nbFp : Nat
  deriving DecidableEq, Repr

/-- ROUT (R36). -/
structure Rout where
  mode : Nat
  dims : Nat
  size : List Nat
  wrap : Nat
  coord : List Nat
  order : List Nat
  table : List Nat
  deriving DecidableEq, Repr

/-- An entry of TABL (R40). -/
structure TablEnt where
  unit : Nat
  kind : Nat
  bank : Nat
  gen : Nat
  payload : Bytes
  deriving DecidableEq, Repr

/-- The content of a layout image, or of the factory structure (R25 to R40, R50). -/
structure Struc where
  gen : Nat
  modNum : Nat
  herdSize : Nat
  toolId : Nat
  regions : List Region
  retired : List Nat
  hubOrder : List Nat
  dieOrder : List (List Nat)
  /-- eligible_mask and slot_count of each die, in stack-major order (R29) -/
  slots : List (Nat × Nat)
  /-- per stack: refresh, compute, hub, remote, scrub, training (R31) -/
  budgets : List (List Nat)
  /-- per port 0 to 11: six priorities in class order (R33) -/
  prio : List (List Nat)
  links : List LinkEnt
  rout : Option Rout
  runDoze : Nat
  dozeWatch : Nat
  wakeSrc : Nat
  groups : List Nat
  retain : Nat
  tabl : List TablEnt
  keyFp : Nat
  digest : Bytes
  deriving DecidableEq, Repr

/-- R50: the factory structure. -/
def Struc.factory : Struc where
  gen := 0
  modNum := 0
  herdSize := 1
  toolId := 0
  regions := [⟨0, 0, 2 ^ 64 - 1, 0, 0xC000000000, 0, 0, 0, 0, 0, 0, 0⟩]
  retired := []
  hubOrder := List.range 16
  dieOrder := List.replicate 16 (List.range 12)
  slots := List.replicate 192 (0xFFFFFFFF, 16)
  budgets := List.replicate 16 [64, 512, 256, 128, 32, 32]
  prio := List.replicate 12 [4, 4, 4, 4, 4, 4]
  links := []
  rout := none
  runDoze := 200
  dozeWatch := 0
  wakeSrc := 0xF
  groups := List.replicate 16 0
  retain := 0xFFFF
  tabl := []
  keyFp := 0
  digest := zeros 64

/-- LAY_STATUS state (R57). -/
inductive LayPhase where
  | idle
  | copying
  | verifying
  | draining
  | applying
  deriving DecidableEq, Repr

/-- The layout load (R44) and what flash keeps of images (R49). -/
structure LaySt where
  phase : LayPhase
  /-- an image, and not the factory structure, is in effect -/
  active : Bool
  buf : Bytes
  /-- the verified structure that waits to be applied -/
  cand : Option Struc
  /-- key table in effect at the load (R427) -/
  keys : List Bytes
  /-- the drain has ended: the apply begins at the next boundary -/
  drained : Bool
  /-- the image whose flash write is in progress -/
  persisting : Option (Nat × Bytes)
  copy0 : Option (Nat × Bytes)
  copy1 : Option (Nat × Bytes)
  /-- whether the last start-up, or the write since, found each copy valid (R49, R417) -/
  ok0 : Bool
  ok1 : Bool
  floorGen : Nat
  /-- links whose LINK entry the apply changed (R44 step 5) -/
  changedLinks : List Nat
  deriving DecidableEq, Repr

/-- The commit state of one block (R51 to R56). -/
structure CommitSt where
  captured : List (Nat × W32)
  gen : BitVec 16
  pend : Option (BitVec 16)
  /-- the group mask of the pending commit -/
  groups : Nat
  result : Nat
  reason : Nat
  deriving DecidableEq, Repr

def CommitSt.reset : CommitSt := ⟨[], 0, none, 0, 0, 0⟩

/-! ### Error log and events (14_sheepdog_thermal_faults, 11_host_attachment) -/

/-- An error-log entry (R407). -/
structure LogEntry where
  kind : Nat
  severity : Nat
  valid : Nat
  seq : Nat
  time : Nat
  port : Nat
  qp : Nat
  status : Nat
  path : Nat
  addr : Nat
  cga : Nat
  detail : Nat
  deriving DecidableEq, Repr

/-- The error log (R409, R414): entry number modulo 2,048 names the place. -/
structure LogSt where
  entries : Tbl LogEntry
  head : W32
  tail : W32
  ovf : W32
  deriving DecidableEq, Repr

/-- MSI-X and coalescing (R315, R316). -/
structure EvSt where
  /-- signals pending per vector -/
  pend : Tbl Nat
  /-- BAR4 vector-control mask bits cleared by the host, and pending bits -/
  unmasked : Nat
  pba : Nat
  /-- BAR4 message address and data words -/
  table : Tbl W32
  /-- sources that rose in WATCH, signalled once RUN is reached (R366) -/
  late : Nat
  deriving DecidableEq, Repr

/-! ### Memory (03_memory_organisation) -/

/-- What the stack controllers hold of a 2 MiB segment beside the structure (R66). -/
structure Seg where
  isOpen : Bool
  fresh : Bool
  deriving DecidableEq, Repr

/-- A SEAL or UNSEAL in progress (R80). -/
structure Conv where
  q : Nat
  seq : Nat
  toGuarded : Bool
  /-- segments being treated -/
  now : List Nat
  /-- segments not reached -/
  rest : List Nat
  failed : Nat
  corrected : Nat
  /-- status with which a drain or a power entry has ended it (R82, R363); 0 for none -/
  stop : Nat
  deriving DecidableEq, Repr

/-- The DRAM and what is held about it. -/
structure MemSt where
  cells : List Host.Cell
  segs : Tbl Seg
  convs : List Conv
  /-- per channel: next group to scrub, counted bank-major inside a row index (R83) -/
  scrubPos : Tbl Nat
  /-- findings of the scrubber that R83 only counts, per channel -/
  scrubSeen : Tbl Nat
  /-- corrected quarters whose write-back waits for the scrub class: group and quarter (R76) -/
  fixes : List (Nat × Nat)
  /-- tick at which the channel's pass began, and channels whose pass is late (R110) -/
  scrubFrom : Tbl Nat
  scrubLate : List Nat
  /-- a double-bit error in the SRAM that the next entry's data will pass through (R87): buffer, 0 the hub
  store and 1 + s the staging SRAM of stack s, and offset in it -/
  sramBad : Option (Nat × Nat)
  /-- buffers and 4 KiB offsets of SRAM_UNCORRECTABLE entries, with their times (R410) -/
  sramLog : List (Nat × Nat × Nat)
  /-- class and fresh bits that the RET domain carries through HOLD (R68) -/
  retained : Tbl Seg
  deriving DecidableEq, Repr

/-! ### Stack controllers (04_stack_controllers) -/

/-- A half-group request in a channel queue (R95). -/
structure HalfReq where
  port : Nat
  cls : Nat
  bank : Nat
  row : Nat
  grp : Nat
  half : Nat
  keep : Bool
  /-- the tick at which it came (R101) -/
  since : Nat
  data : Bytes
  deriving DecidableEq, Repr

/-- A row that the channel holds open, with the class of the command that last used it (R97). -/
structure OpenRow where
  row : Nat
  cls : Nat
  deriving DecidableEq, Repr

/-- One channel (R90 to R97, R110 to R112). -/
structure ChanSt where
  /-- half-slots left per class -/
  cnt : List Nat
  /-- port last granted per class (R93) -/
  last : List Nat
  readQ : List HalfReq
  writeQ : List HalfReq
  /-- requests that wait at their ports for a free queue entry, in order; true for a write (R95) -/
  portQ : List (Bool × HalfReq)
  drain : Bool
  /-- open row per bank -/
  rows : Tbl OpenRow
  /-- banks whose precharge waits for its charge, with the class that pays (R90, R97) -/
  closing : List (Nat × Nat)
  /-- half-slots of the period that commands have used (R92) -/
  spent : Nat
  /-- what the channel pins last carried to a port -/
  moved : Bytes
  /-- issues of the present command that failed parity -/
  parity : Nat
  /-- codewords corrected in the present window (R112) -/
  corrWin : Nat
  /-- the window's SC_CORR_THRESHOLD entry is written (R112) -/
  corrSaid : Bool
  /-- half-slots that training still has to use (R113, R115) -/
  trainDue : Nat
  /-- the die's training buffer of this channel, 72 bytes (R113 preamble) -/
  train : Bytes
  deriving DecidableEq, Repr

/-- One bank pair (R103). -/
structure PairSt where
  debt : Int
  urgent : Bool
  deriving DecidableEq, Repr

/-- Self-refresh of a die (R107, R108). -/
inductive SrPhase where
  | awake
  | entering
  | asleep
  | exitPhy (tries : Nat)
  /-- the PHY has locked and SRX waits for its slot -/
  | locked
  | exitTxs
  | failed
  deriving DecidableEq, Repr

/-- One die. -/
structure DieSt where
  /-- F of R98, in 256ths of a slot -/
  frac : Nat
  /-- A of R98 -/
  allow : Nat
  hot : Bool
  refused : Bool
  sr : SrPhase
  deriving DecidableEq, Repr

/-! ### Pins (R405, R450, R377) -/

/-- Levels of the module's pins; true is high. -/
structure Pins where
  pwrEn : Bool
  wakeInN : Bool
  perstN : Bool
  thermN : Bool
  slotId : Nat
  pwrGood : Bool
  wakeOutN : Bool
  faultN : Bool
  /-- Sheepdog pulls THERM_N low itself -/
  thermOut : Bool
  deriving DecidableEq, Repr

def Pins.reset : Pins := ⟨true, true, true, true, 0, true, true, true, false⟩


/-! ### Host attachment, window and queues (11_host_attachment) -/

/-- A completion before it is written (R303); its phase is set when it is written. -/
structure Comp where
  status : Nat
  scope : Nat
  seq : Nat
  tag : Nat
  flags : Nat
  result : Nat
  irq : Bool
  deriving DecidableEq, Repr

/-- Where an accepted entry stands (R301, R302). -/
inductive Stage where
  /-- accepted and not started -/
  | accepted
  /-- started: its command has not finished -/
  | running
  /-- its effect is complete; its completion is not written -/
  | done
  deriving DecidableEq, Repr

/-- A range of module memory: first MPA and length. -/
abbrev Span := Nat × Nat

/-- One element as it was read: its raw bits and the bytes of its storage unit (R251). -/
structure Elem where
  raw : Nat
  unit : Bytes
  deriving DecidableEq, Repr

/-- The accumulator of a target of an accumulating store (R264): its address, the content last stored and
the value before the last rounding. -/
structure AccSum where
  addr : Nat
  last : Nat
  acc : Ex
  deriving DecidableEq, Repr

/-- What an entry of the layout engine holds between its bursts or records (R263, R264, R273, R281). -/
structure BurstSt where
  /-- the next burst of the source -/
  next : Nat
  /-- elements of the source that were read and are not stored yet, by element number -/
  source : List (Nat × Elem)
  sums : List AccSum
  /-- under LAST: the highest element number stored so far, by address -/
  tops : Tbl Nat
  /-- the plan or block table of a RELAY -/
  table : Bytes
  deriving DecidableEq, Repr

def BurstSt.start : BurstSt := ⟨0, [], [], [], []⟩

/-- An accepted entry until its completion (R296 to R313). -/
structure Flight where
  q : Nat
  seq : Nat
  raw : Bytes
  /-- path of the doorbell that posted it -/
  path : Nat
  stage : Stage
  /-- the order in which entries started -/
  order : Nat
  /-- operating mode when it started (R267, R419) -/
  mode : Nat
  status : Nat
  flags : Nat
  result : Nat
  scope : Nat
  /-- its sequence was pre-empted or yielded (R105) -/
  preempted : Bool
  reads : List Span
  writes : List Span
  /-- window slots it touches (R294) -/
  slots : List Nat
  /-- entries a FENCE captured, or that were in flight before it (R310, R311) -/
  waits : List (Nat × Nat)
  /-- transaction numbers whose responses it needs (R336) -/
  txns : List Nat
  /-- remote bytes that have arrived: herd address and data -/
  fetched : List (Nat × Bytes)
  /-- modules it wrote to, for scope HERD (R339) -/
  homes : List Nat
  /-- descriptor handles it named, with what they meant when it started (R259) -/
  used : List Nat
  /-- steps of its own progress, by operation -/
  progress : Nat
  /-- writes to other modules that wait for a transaction number -/
  out : List (Nat × Bytes)
  burst : BurstSt
  deriving DecidableEq, Repr

/-- A queue pair (R295 to R307). -/
structure QpSt where
  enabled : Bool
  /-- the ring group has been committed (R307) -/
  everCommitted : Bool
  head : W32
  cqHead : W32
  cqTail : W32
  seqNext : W32
  fetchError : Bool
  /-- a completion write failed: completions are held (R459) -/
  compFail : Bool
  staleWait : Bool
  /-- furthest doorbell value received since the last stale period ended (R300) -/
  posted : Option W32
  /-- the doorbell values that were received since then, in order, with the paths that rang them: an entry's
  poster is the path of the first that covers it (R294, R300) -/
  posters : List (W32 × Nat)
  /-- entries asked for by the ring read in progress (R301) -/
  fetching : Nat
  /-- doorbells recorded while none may act (R45, R322, R366) -/
  recorded : List (Nat × W32)
  /-- held completions, in completion order (R318, R459) -/
  held : List Comp
  /-- expiry has reset the pair once its entries end (R320) -/
  ending : Bool
  deriving DecidableEq, Repr

def QpSt.reset : QpSt := ⟨false, false, 0, 0, 0, 0, false, false, false, none, [], 0, [], [], false⟩

/-- R317: the host attachment. -/
inductive AttPhase where
  | detached
  | attached
  | orphan
  deriving DecidableEq, Repr

structure AttSt where
  phase : AttPhase
  /-- the token, kept through ORPHAN for R319 -/
  token : W32
  cause : Nat
  /-- tick at which the hold ends, in ORPHAN -/
  holdEnd : Nat
  /-- wrong tokens in the present hold -/
  badTokens : Nat
  linkUp : Bool
  /-- ATT_LINK -/
  link : Nat
  /-- the heartbeat timer runs: attached with a nonzero limit -/
  beats : Nat
  /-- the host port is ready to train (R450) -/
  ready : Bool
  /-- an end by R320 waits for the last host-bound entry -/
  ending : Bool
  deriving DecidableEq, Repr

/-- Slots (R291 to R294). -/
structure WinSt where
  /-- owners read from memory since the last commit -/
  mirror : Tbl Nat
  /-- slots whose violation is logged in this owner period -/
  violated : List Nat
  /-- MODULE slots whose checksum has been verified -/
  verified : List Nat
  /-- one more than the highest payload offset written by entries, per slot -/
  written : Tbl Nat
  deriving DecidableEq, Repr

/-- An access that waits inside the block: for a conversion (R81), a die's self-refresh exit (R108),
a starved class (R457), an apply (R46), or a wake (R366). -/
inductive HeldReq where
  | winRead (off len base : Nat)
  | winWrite (off : Nat) (data : Bytes) (base : Nat)
  /-- a control-space access, run when RUN is reached -/
  | cmd (i : Instr)
  | packet (link : Nat) (p : Packet)
  | rdma (op : Nat) (f : RFrame)
  deriving DecidableEq, Repr

/-! ### Power (13_power) -/

/-- R356, with the two transitions of PWR_STATE and the absence of input power. -/
inductive PState where
  | run
  | doze
  | watch
  | hold
  | off
  | stuck
  | entering
  | waking
  | unpowered
  deriving DecidableEq, Repr

/-- PWR_STATE code (R378); without power it reads as OFF would, when nothing can read it. -/
def PState.code : PState → Nat
  | .run => 0
  | .doze => 1
  | .watch => 2
  | .hold => 3
  | .off => 4
  | .stuck => 5
  | .entering => 6
  | .waking => 7
  | .unpowered => 4

/-- Which sequence a WAKING module runs (R370, R416). -/
inductive WakePath where
  | fromWatch
  | fromHold
  | startup
  deriving DecidableEq, Repr

/-- A voltage request over AVSBus (R375, R376): its voltage, and how often it has been repeated. -/
structure AvsReq where
  mv : Nat
  attempt : Nat
  deriving DecidableEq, Repr

structure PwrSt where
  state : PState
  prev : PState
  step : Nat
  attempt : Nat
  /-- state being entered -/
  target : PState
  /-- state an entry or wake left -/
  source : PState
  wake : WakePath
  /-- the entry came over the sideband (R363 step 1) -/
  viaSide : Bool
  /-- causes latched during entry step 6 (R364) -/
  latched : Nat
  latchedLink : Nat
  /-- the 1 ms wait after a failed wake step (R371) -/
  retryWait : Bool
  /-- digest and generation recorded at HOLD entry (R363, R374) -/
  saved : Nat × Bytes
  /-- transition that begins once the completion of a hint (queue pair, seq) is written (R362) -/
  after : Option (Nat × Nat × PState)
  /-- tick at which the keep period ends -/
  keepEnd : Option Nat
  rails : Nat
  padsHeld : Nat
  /-- links on which the wake pattern is being sent (R368) -/
  pattern : Nat
  /-- Gander's signal detectors are in a listen window (R365) -/
  listening : Bool
  /-- acknowledged VDD_HUB in mV and hub clock in MHz (R376) -/
  mv : Nat
  mhz : Nat
  avs : Option AvsReq
  /-- failures of the present PMBus transaction (R375) -/
  pmbus : Nat
  /-- hot-swap switch closed (R444) -/
  hotSwap : Bool
  /-- input contacts within range -/
  inputOk : Bool
  deriving DecidableEq, Repr


/-- ID_MODE (R418). -/
inductive OpMode where
  | startup
  | normal
  | test
  | recovery
  deriving DecidableEq, Repr

def OpMode.code : OpMode → Nat
  | .startup => 0
  | .normal => 1
  | .test => 2
  | .recovery => 3


/-! ### Herd fabric and network ports (12_fabric_and_network) -/

/-- FAB_LINK state (R353). -/
inductive LkState where
  | disabled
  | training
  | ident
  | up
  | down
  | mismatch
  deriving DecidableEq, Repr

def LkState.code : LkState → Nat
  | .disabled => 0
  | .training => 1
  | .ident => 2
  | .up => 3
  | .down => 4
  | .mismatch => 5

/-- A flit kept until it is acknowledged (R330), with the packets whose units it carries. -/
structure TxFlit where
  seq : Nat
  kind : Nat
  payload : Bytes
  pkts : List Packet
  /-- times it has been resent -/
  resent : Nat
  deriving DecidableEq, Repr

/-- One fabric link (R324 to R330). -/
structure LinkSt where
  st : LkState
  /-- bring-up step, and repeats of step 2 -/
  step : Nat
  attempt : Nat
  retrains : Nat
  resends : Nat
  uncorrected : Nat
  /-- own nonce of this bring-up (R325) -/
  nonce : Bytes
  /-- partner's IDENT once received whole -/
  partner : Bytes
  proofSent : Bool
  /-- fragments of the message being received -/
  frags : Bytes
  txSeq : Nat
  /-- seq of the last flit received in order and good -/
  rxSeq : Nat
  retry : List TxFlit
  /-- packets that wait for credits or room (virtual channel, packet) -/
  waiting : List (Nat × Packet)
  credits : List Nat
  /-- a NAK was sent and no good flit has come since (R330) -/
  naked : Bool
  /-- units of the packet being received -/
  part : Bytes
  /-- units of each virtual channel that held packets still occupy: their credits are withheld (R46, R329) -/
  owed : List Nat
  deriving DecidableEq, Repr

def LinkSt.reset : LinkSt :=
  ⟨.disabled, 0, 0, 0, 0, 0, [], [], false, [], 0, 0, [], [], [0, 0, 0, 0], false, [], [0, 0, 0, 0]⟩

/-- An outstanding request (R335). -/
structure Txn where
  num : Nat
  typ : Nat
  dst : Nat
  addr : Nat
  len : Nat
  /-- the entry it serves -/
  q : Nat
  seq : Nat
  deriving DecidableEq, Repr

structure FabSt where
  links : Tbl LinkSt
  txns : List Txn
  /-- dead bundles of the route map: module and bundle (R340, R343) -/
  dead : List (Nat × Nat)
  /-- last report applied, per origin -/
  reports : Tbl Nat
  /-- own report count -/
  repSeq : Nat
  /-- destinations marked unreachable (R344) -/
  marks : List Nat
  /-- own bundles reported dead -/
  ownDead : List Nat
  deriving DecidableEq, Repr

/-- State of a queue-pair context (R348, R351). -/
inductive QpcPhase where
  | reset
  | ready
  | error
  deriving DecidableEq, Repr

/-- A NET_POST on the wire or a posted RECV (R351). -/
structure NetPost where
  q : Nat
  seq : Nat
  op : Nat
  len : Nat
  addr : Nat
  /-- PSNs of its first and last frame -/
  psn : Nat
  endPsn : Nat
  deriving DecidableEq, Repr

structure QpcSt where
  phase : QpcPhase
  /-- the module's copy of the 128-byte table entry -/
  ctx : Bytes
  /-- send rate in Mb/s (R347) -/
  rate : Nat
  sqPsn : Nat
  rqPsn : Nat
  /-- message being placed: next address and bytes left -/
  va : Nat
  left : Nat
  retries : Nat
  rnrRetries : Nat
  posts : List NetPost
  recvs : List NetPost
  /-- bytes of a SEND being received -/
  sendBuf : Bytes
  deriving DecidableEq, Repr

/-- 800 Gb/s, the line rate of a port (R346). -/
def lineRate : Nat := 800000

def QpcSt.reset : QpcSt := ⟨.reset, [], lineRate, 0, 0, 0, 0, 0, 0, [], [], []⟩

structure NetSt where
  qpcs : Tbl QpcSt
  /-- ports paused by priority flow control -/
  paused : Nat
  /-- the module's copies of memory keys are read from its table at each use -/
  linkUp : Nat
  deriving DecidableEq, Repr


/-! ### Descriptors and the plan store (10_tensor_layout, 06_near_bank_operations) -/

/-- A descriptor with its binding (R249, R254); `owners` is the module's copy of the owner table
(R278): first outer index, count, base. -/
structure Desc where
  fmt : Nat
  rank : Nat
  flags : Nat
  dims : List Nat
  stride : List Int
  base : Nat
  fill : Nat
  ixHandle : Nat
  srcLen : Nat
  winStart : Int
  winStep : Nat
  winDil : Nat
  ixDim : Nat
  owners : List (Nat × Nat × Nat)
  deriving DecidableEq, Repr

/-- A descriptor index (R255 to R262). -/
inductive DescPhase where
  | inUse
  /-- dropped while entries still use it (R260) -/
  | dropped
  /-- failed the check of R262 -/
  | invalid
  deriving DecidableEq, Repr

structure DescSt where
  d : Desc
  distinct : Bool
  phase : DescPhase
  deriving DecidableEq, Repr

/-- A checked copy in the plan store (R158, R185). -/
structure PlanCopy where
  handle : Nat
  /-- 0 GEMV plan, 1 block table, 2 owner table -/
  kind : Nat
  data : Bytes
  /-- parameters it was checked against -/
  key : List Nat
  /-- anchors of a block table that are still to be written: unit and anchor row (R183) -/
  todo : List (Nat × Nat)
  deriving DecidableEq, Repr


/-! ### Bank units and the bank sequencer (05_bank_units to 07_attention) -/

/-- A table bank (R121): codebook, unit table, generation. -/
structure TabBank where
  codebook : Bytes
  table : Bytes
  gen : Nat
  deriving DecidableEq, Repr

def TabBank.reset : TabBank := ⟨zeros 32, zeros 32, 0⟩

/-- An accumulator set: the partials (b, v) in the order bank, vector, as WIDE96 or FP32 words. -/
structure AccSet where
  fp : Bool
  vals : List Nat
  deriving DecidableEq, Repr

def AccSet.zero : AccSet := ⟨false, List.replicate 8 0⟩

/-- A unit command of a bank operation: opcode, pair mask and body of R130 with the data it carries;
the operation, the reduction window and the record it serves; whether its last step is the record's
last; whether the slot is kept when its sequence ends (R192, R174). `idle` marks a TBL_WR whose bank
is resolved when it is issued (R176). -/
structure UCmd where
  ch : Nat
  op : Nat
  mask : Nat
  body : Nat
  data : Bytes
  own : Option (Nat × Nat)
  win : Option Nat
  item : Nat
  fin : Bool
  hold : Bool
  idle : Bool
  deriving DecidableEq, Repr

/-- A sequence in a unit (R144): a direct command, or step-list entries. -/
structure SeqSt where
  /-- the word of a direct command in the form of a step-list entry -/
  direct : Option Nat
  first : Nat
  last : Nat
  reps : Nat
  /-- present repetition and entry -/
  n : Nat
  i : Nat
  inStep : Bool
  /-- it has run a step -/
  begun : Bool
  /-- when it began to wait; a sequence without slot waits for one -/
  age : Nat
  yielded : Bool
  /-- pre-empted by a refresh (R103) -/
  preempted : Bool
  /-- status with which it stops at its next step boundary; 0 for none -/
  stop : Nat
  /-- the first error code set while it runs or waits; 0 for none (R153) -/
  erred : Nat
  cmd : UCmd
  deriving DecidableEq, Repr

/-- Partials on their way to the tree (R144). -/
structure Xfer where
  sets : List Nat
  tag : Nat
  fp : Bool
  parts : List Nat
  flags : Nat
  err : Nat
  cmd : UCmd
  /-- it is the last transfer of its sequence's record -/
  fin : Bool
  deriving DecidableEq, Repr

/-- One bank unit (R121). -/
structure UnitSt where
  inPim : Bool
  nvec : Nat
  wfmt : Nat
  afmt : Nat
  anchor : Nat
  /-- latch words 0 to 255 -/
  latch : Tbl Bytes
  /-- scale words 0 to 7 -/
  scale : Tbl Bytes
  s : List Nat
  mask : Nat
  acc : List AccSet
  /-- entry e of vector v is number 64v + e -/
  score : Tbl Nat
  m : List Nat
  l : List Nat
  cur : List (Option Nat)
  pend : List (Option Nat)
  steps : Tbl Nat
  tab0 : TabBank
  tab1 : TabBank
  active : Nat
  flags : Nat
  err : Nat
  seq : Option SeqSt
  /-- the order of the slot's grant, while it holds one -/
  slot : Option Nat
  /-- order of a release by R174, while it waits for its statistics or for a slot after them -/
  released : Option Nat
  /-- the operation for which the slot or its release is kept between sequences -/
  keptFor : Option (Nat × Nat)
  xfers : List Xfer
  /-- the operation whose PIM_MODE put the unit into compute mode -/
  pimFor : Option (Nat × Nat)
  /-- the tick since which a request of another class waits for the pair (R101) -/
  asked : Option Nat
  /-- when a block that is held until the unit has a slot began to wait for it (R194) -/
  wants : Option Nat
  deriving DecidableEq, Repr

def UnitSt.reset : UnitSt where
  inPim := false
  nvec := 0
  wfmt := 0
  afmt := 0
  anchor := 0
  latch := []
  scale := []
  s := [0, 0, 0, 0]
  mask := 0
  acc := List.replicate 4 .zero
  score := []
  m := List.replicate 4 0xFF800000
  l := [0, 0, 0, 0]
  cur := [none, none]
  pend := [none, none]
  steps := []
  tab0 := .reset
  tab1 := .reset
  active := 0
  flags := 0
  err := 0
  seq := none
  slot := none
  released := none
  keptFor := none
  xfers := []
  pimFor := none
  asked := none
  wants := none

/-- What a tree or the hub holds for one tag (R164): an exact sum, and FP32 partials with their
record and die. -/
structure TagAcc where
  wide : Nat
  fps : List (Nat × Nat × Nat)
  deriving DecidableEq, Repr

/-- A reduction context (R164, R201). -/
structure TreeCtx where
  q : Nat
  seq : Nat
  stack : Nat
  win : Nat
  tags : Tbl TagAcc
  flags : Nat
  /-- lowest-numbered unit that reported an error, and its code -/
  err : Option (Nat × Nat)
  /-- records whose final status word has not arrived -/
  left : Nat
  /-- records whose status word carried SAT (R201) -/
  sat : List Nat
  deriving DecidableEq, Repr

/-- A window of an operation at the hub (R166). -/
structure WinSum where
  win : Nat
  /-- stacks that have not delivered -/
  due : List Nat
  got : List TreeCtx
  deriving DecidableEq, Repr

/-- A head of a BANK_ATTN (R195 to R198). -/
structure HeadSt where
  /-- 0 one-pass, 1 pass 1, 2 pass 2, 3 nothing more to run -/
  phase : Nat
  runs : Nat
  /-- probe level or reference per query, FP32 -/
  refs : List Nat
  /-- queries without a reference yet -/
  open' : List Nat
  fell : Bool
  flags : Nat
  /-- O and Λ sums in order of the query and dimension -/
  sums : List Nat
  deriving DecidableEq, Repr

/-- A bank operation in the sequencer. -/
structure Job where
  q : Nat
  seq : Nat
  /-- commands not issued -/
  prog : List UCmd
  /-- units that reported an error, and the statuses -/
  errs : List (Nat × Nat)
  flags : Nat
  wins : List WinSum
  /-- windows combined -/
  combined : List Nat
  pass : Nat
  accepted : Nat
  refused : Nat
  /-- inline result so far -/
  result : Nat
  /-- operands staged from X, Q or the appended tokens -/
  x : Bytes
  kv : Bytes
  /-- select mask or attention mask -/
  sel : Bytes
  plan : Bytes
  heads : List HeadSt
  /-- rows of a BANK_NORM with what each unit still runs -/
  rows : List (Nat × List UCmd)
  /-- it has written nothing more since an error reached the hub -/
  failed : Bool
  /-- channels on which commands follow that its program does not hold yet (R177) -/
  chans : List Nat
  /-- anchors that its program writes and has not written yet (R183) -/
  anchors : List (Nat × Nat)
  /-- what the step list of each unit holds after the program so far (R193) -/
  lists : Tbl (List Nat)
  /-- stacks in which it holds a reduction context until it completes (R201) -/
  stacksHeld : List Nat
  /-- ranges of memory that hold undefined data should it end with an error (R204) -/
  spoil : List (Nat × Nat)
  /-- output bytes whose group is not whole yet (R179) -/
  ybuf : List (Nat × Bytes)
  deriving DecidableEq, Repr

/-- Units, reduction trees and the bank sequencer. -/
structure CuSt where
  units : Tbl UnitSt
  trees : List TreeCtx
  jobs : List Job
  /-- commands that a stack controller holds until a sequence ends -/
  waiting : List UCmd
  age : Nat
  deriving DecidableEq, Repr

/-! ### Hub engines (08_hub_engines, 09_special_functions) -/

/-- A finished tile: in an accumulator bank of an Ox, or in the finished-tile queue (R213). Its
values are FP32 words, vector by vector. -/
structure Tile where
  q : Nat
  seq : Nat
  no : Nat
  vals : List Nat
  /-- the epilogue's last row of the tile has stored -/
  stored : Bool
  deriving DecidableEq, Repr

/-- One Ox (R210): the tile being summed, and finished tiles that wait for the queue. -/
structure OxSt where
  run : Option (Nat × Nat × Nat)
  kept : List Tile
  deriving DecidableEq, Repr

/-- A program of the vector engine, copied when its entry starts (R216, R226). -/
structure VProg where
  vfmt : Nat
  pre : Nat
  body : Nat
  post : Nat
  x0 : List Nat
  code : List Nat
  deriving DecidableEq, Repr

/-- A TILE_MM that the Ox serve (R211). -/
structure TileJob where
  q : Nat
  seq : Nat
  /-- order in which the hub received it -/
  order : Nat
  next : Nat
  total : Nat
  written : Nat
  waited : Nat
  flags : Nat
  epi : Option VProg
  /-- status with which it ends at the next tile boundary (R212, R228) -/
  stop : Nat
  /-- an auxiliary row that repeats, once it is fetched (R221) -/
  bias : List Elem
  deriving DecidableEq, Repr

/-- A row accumulator (R223): value, index of the value, number of active elements. -/
structure RowAcc where
  used : Bool
  val : Nat
  idx : Nat
  cnt : Nat
  deriving DecidableEq, Repr

/-- A register context of the vector engine (R215): vectors of 2,048 bits; an unlisted one, or an unlisted
mask, is zero. -/
structure VeCtx where
  v : Tbl Nat
  x : Tbl Nat
  k : Tbl Nat
  ra : Tbl RowAcc
  vl : Nat
  deriving DecidableEq, Repr

def VeCtx.reset : VeCtx := ⟨[], [], [], [], 0⟩

/-- A program that runs: a VEC_PROG entry, or the epilogue of a tile. -/
structure VeRun where
  q : Nat
  seq : Nat
  prog : VProg
  rows : Nat
  len : Nat
  row : Nat
  /-- 0 PRE, 1 BODY, 2 POST, 3 the row has ended -/
  phase : Nat
  chunk : Nat
  pc : Nat
  /-- positions of SCMP and LDX in streams 0 to 3, and where they stood when the row began -/
  pos : List Nat
  rowPos : List Nat
  /-- elements that SCMP stored -/
  stored : Nat
  /-- status with which it ends at the row boundary -/
  st : Nat
  flags : Nat
  /-- the tile of an epilogue -/
  tile : Nat
  /-- its context while another entry runs (R225) -/
  saved : Option VeCtx
  /-- status with which it ends at the next row boundary (R228) -/
  stop : Nat
  /-- by stream: a row that repeats, once it is fetched (R221) -/
  held : Tbl (List Elem)
  deriving DecidableEq, Repr

/-- One table bank of a USER function (R242). -/
structure UserBank where
  table : Bytes
  gen : Nat
  deriving DecidableEq, Repr

/-- USER0 or USER1: banks 0 and 1, and the active one (R242). -/
structure UserFn where
  bank0 : UserBank
  bank1 : UserBank
  active : Nat
  deriving DecidableEq, Repr

/-- R242: the tables at start-up. -/
def UserFn.reset : UserFn := ⟨⟨zeros 1040, 0⟩, ⟨zeros 1040, 0⟩, 0⟩

structure HubSt where
  /-- entries received by the hub so far -/
  order : Nat
  tiles : List TileJob
  ox : Tbl OxSt
  ftq : List Tile
  epi : VeCtx
  prog : VeCtx
  /-- 0 idle, 1 a tile, 2 a VEC_PROG -/
  active : Nat
  tile : Option VeRun
  run : Option VeRun
  queue : List VeRun
  user0 : UserFn
  user1 : UserFn
  deriving DecidableEq, Repr

def HubSt.reset : HubSt := ⟨0, [], [], [], .reset, .reset, 0, none, none, [], .reset, .reset⟩

/-! ### Sheepdog (14_sheepdog_thermal_faults) -/

/-- One sensor (R388 to R391). Temperatures are in 1/16 °C. -/
structure SensorSt where
  /-- previous valid conversion -/
  prev : Option Int
  /-- last usable reading -/
  usable : Option Int
  /-- suspect samples in a row -/
  suspect : Nat
  excluded : Bool
  /-- samples in a row that were not suspect, while excluded -/
  good : Nat
  /-- samples for which the raw value has not changed, with the least and greatest neighbour median -/
  same : Nat
  medLo : Int
  medHi : Int
  /-- conversions in a row at or above trip -/
  hot : Nat
  deriving DecidableEq, Repr

def SensorSt.reset : SensorSt := ⟨none, none, 0, false, 0, 0, 0, 0, 0⟩

/-- A lease (R400): its holder, and the tick at which it expires. -/
structure LeaseSt where
  holder : Nat
  ends : Nat
  deriving DecidableEq, Repr

structure SdgSt where
  sensors : Tbl SensorSt
  /-- newest regulator readings over PMBus, used from the next update (R389) -/
  regs : Tbl Int
  /-- invalid and valid regulator reads in a row (R390) -/
  regBad : Tbl Nat
  regGood : Tbl Nat
  /-- invalid samples in a row of the input converter's telemetry, and its exclusion (R395) -/
  inBad : Nat
  inExcluded : Bool
  /-- global factor, and factors per stack, as applied (R393) -/
  global : Nat
  stackFactors : List Nat
  /-- lower factors that wait for the next boundary: global, then stacks 0 to 15 -/
  lower : Option (List Nat)
  /-- an AVSBus failure holds the global factor at 200 (R394) -/
  avsHeld : Bool
  leases : Tbl LeaseSt
  /-- units withdrawn from grants (R401) -/
  withdrawn : List Nat
  /-- an accepted capsule that takes effect at the next boundary, and whether it is written to flash -/
  capNext : Option Bytes
  capDigest : Bytes
  capFloor : Nat
  cap0 : Option Bytes
  cap1 : Option Bytes
  /-- whether the last start-up, or the write since, found each copy valid (R386) -/
  capOk0 : Bool
  capOk1 : Bool
  capSave : Option Bytes
  /-- shutdown records, newest first (R399) -/
  records : List Bytes
  shutdowns : Nat
  startups : Nat
  /-- always-on time in seconds at which automatic restarts began (R398) -/
  restarts : List Nat
  /-- local times of cluster restarts (R404) -/
  coreRestarts : List Nat
  /-- FAULT_N stays low until the module leaves OFF (R398, R446) -/
  faultHeld : Bool
  /-- the last shutdown's record was not written (R406) -/
  nvFail : Bool
  deriving DecidableEq, Repr

def SdgSt.reset : SdgSt where
  sensors := []
  regs := []
  regBad := []
  regGood := []
  inBad := 0
  inExcluded := false
  global := 256
  stackFactors := List.replicate 16 256
  lower := none
  avsHeld := false
  leases := []
  withdrawn := []
  capNext := none
  capDigest := []
  capFloor := 0
  cap0 := none
  cap1 := none
  capOk0 := false
  capOk1 := false
  capSave := none
  records := []
  shutdowns := 0
  startups := 1
  restarts := []
  coreRestarts := []
  faultHeld := false
  nvFail := false

/-! ### Firmware, keys and identity (15_startup_and_security) -/

/-- A firmware copy in flash that meets R420 and R421. -/
structure FwCopy where
  version : Nat
  secVer : Nat
  digest : Bytes
  img : Bytes
  deriving DecidableEq, Repr

/-- A component: copies A and B, which one runs, and the floor (R421). -/
structure FwSt where
  a : Option FwCopy
  b : Option FwCopy
  runsB : Bool
  floor : Nat
  /-- version and digest of the copy that runs -/
  version : Nat
  digest : Bytes
  deriving DecidableEq, Repr

/-- The operator key table (R427): four slots, empty where the key has no bytes, and the counter. -/
structure KeyTbl where
  slots : List Bytes
  counter : Nat
  deriving DecidableEq, Repr

def KeyTbl.empty : KeyTbl := ⟨[[], [], [], []], 0⟩

structure SecSt where
  fw : List FwSt
  /-- the table in use, and its two flash copies -/
  keys : KeyTbl
  key0 : Option KeyTbl
  key1 : Option KeyTbl
  /-- the module has an identity (R425) -/
  ident : Bool
  /-- measurement registers and their counts (R430) -/
  m : List Bytes
  counts : List Nat
  /-- ID_MODE reason and ID_STARTUP path -/
  reason : Nat
  path : Nat
  ms : Nat
  /-- the object whose fragments arrive over the sideband: kind and bytes so far (R434) -/
  frags : Option (Nat × Bytes)
  /-- responses that the management controller has not collected (R406) -/
  resps : List Bytes
  /-- no always-on firmware copy is valid: only its image is accepted (R415) -/
  romOnly : Bool
  /-- the key table or identity failed at start-up: RECOVERY at step 7 (R417) -/
  recover : Bool
  deriving DecidableEq, Repr

/-- A component whose copy A runs; the version is a DESIGN CHOICE, log 18. -/
def FwSt.factory : FwSt := ⟨some ⟨0, 0, zeros 64, []⟩, none, false, 0, 0, zeros 64⟩

/-- R430: the register value after one extension of zero. -/
def extend (m d : Bytes) : Bytes := shake256 (m ++ d) 64

/-- Bytes of the item that extends M2 (R429). -/
def KeyTbl.item (k : KeyTbl) : Bytes :=
  shake256 ((k.slots.map (fun s => if s.isEmpty then zeros 8 else (shake256 s 8))).flatten ++ leBytes 4 k.counter) 64

/-- R416, R430: right after a start-up with an empty key table, no image and no capsule. -/
def SecSt.reset : SecSt where
  fw := [.factory, .factory, .factory]
  keys := .empty
  key0 := some .empty
  key1 := none
  ident := true
  m := [extend (zeros 64) (zeros 64), extend (extend (zeros 64) (zeros 64)) (zeros 64),
        extend (zeros 64) KeyTbl.empty.item, extend (zeros 64) (zeros 64), extend (zeros 64) (zeros 64),
        zeros 64, zeros 64, zeros 64]
  counts := [1, 2, 1, 1, 1, 0, 0, 0]
  reason := 0
  path := 0
  ms := 0
  frags := none
  resps := []
  romOnly := false
  recover := false
/-! ### The whole block -/

/-- Everything but the queue of waiting commands. -/
structure Blk where
  /-- registers by control-space offset: shadows at X, values in effect at X + 0x800 (R55) -/
  regs : Tbl W32
  /-- ID_TIME (R13, R440) -/
  time : W64
  commits : Tbl CommitSt
  log : LogSt
  ev : EvSt
  sent : List Msg
  ctr : Nat
  struc : Struc
  lay : LaySt
  mem : MemSt
  chans : Tbl ChanSt
  pairs : Tbl PairSt
  dies : Tbl DieSt
  pins : Pins
  qps : Tbl QpSt
  /-- accepted entries until their completions, in order of acceptance -/
  flights : List Flight
  att : AttSt
  win : WinSt
  held : List HeldReq
  pwr : PwrSt
  mode : OpMode
  /-- the control cluster is being restarted (R403) -/
  restarting : Bool
  fab : FabSt
  net : NetSt
  /-- by queue pair × 4,096 + index (R255) -/
  descs : Tbl DescSt
  plans : List PlanCopy
  cu : CuSt
  hub : HubSt
  sdg : SdgSt
  sec : SecSt
  deriving DecidableEq, Repr

/-- Why a step stops. No command of this block ends in a fault: every failure that the spec
describes is a status, an error-log entry, an event bit or a pin. -/
inductive Fault where
  /-- raised by no meaning; safe -/
  | none
  deriving DecidableEq, Repr

/-- Why a command is refused. -/
inductive Refusal where
  /-- raised by an arm of exec whose command has no meaning yet; safe -/
  | notModelled (mnemonic : String)
  deriving DecidableEq, Repr

structure State where
  /-- the commands that wait, first in first out -/
  pending : List Instr
  blk : Blk
  deriving DecidableEq, Repr

def LogSt.reset : LogSt := ⟨[], 0, 0, 0⟩
def LaySt.reset : LaySt := ⟨.idle, false, [], none, [], false, none, none, none, false, false, 0, []⟩
def MemSt.reset : MemSt := ⟨[], [], [], [], [], [], [], [], none, [], []⟩
/-- R90: counters hold twice the budgets. -/
def ChanSt.reset : ChanSt := ⟨[128, 1024, 512, 256, 64, 64], [11, 11, 11, 11, 11, 11], [], [], [], false, [], [], 0, [], 0, 0, false, 0, []⟩
def PairSt.reset : PairSt := ⟨0, false⟩
def DieSt.reset : DieSt := ⟨0, 16, false, false, .awake⟩

/-- R317: detached; the link as trained at full width and rate (DESIGN CHOICE, log 17). -/
def AttSt.reset : AttSt := ⟨.detached, 0, 0, 0, 0, true, 0x11040, 0, true, false⟩
/-- R378: RUN, entered from OFF; every rail up. -/
def PwrSt.reset : PwrSt := ⟨.run, .off, 0, 0, .run, .off, .startup, false, 0, 0, false, (0, []), none, none,
  0xFFFF, 0, 0, false, 0, 0, none, 0, true, true⟩

def Blk.reset : Blk where
  regs := []
  time := 0
  commits := []
  log := .reset
  ev := ⟨[], 0, 0, [], 0⟩
  sent := []
  ctr := 0
  struc := .factory
  lay := .reset
  mem := .reset
  chans := []
  pairs := []
  dies := []
  pins := .reset
  qps := []
  flights := []
  att := .reset
  win := ⟨[], [], [], []⟩
  held := []
  pwr := .reset
  mode := .startup
  restarting := false
  fab := ⟨[], [], [], [], 0, [], []⟩
  net := ⟨[], 0, 0⟩
  descs := []
  plans := []
  cu := ⟨[], [], [], [], 0⟩
  hub := .reset
  sdg := .reset
  sec := .reset

/-- The block right after a start-up with no image, capsule or enrolled key in flash. -/
def State.reset : State := ⟨[], .reset⟩

end Sys2Proof.Machine
end

