-- ==== Sys2Proof/Machine/Ops.lean ====
section
/-! DEFINITION. Shared operations over the block: registers, the error log (R407 to R409), event
bits and MSI-X (R315, R316), module fault (R410), and the frame of every command. -/

namespace Sys2Proof.Machine
open Sys2Proof

/-- What a command answers. -/
abbrev Out := Host.Outcome State Fault Refusal

/-! ### Registers -/

/-- The stored word of a register (R8). -/
def Blk.reg (b : Blk) (off : Nat) : Nat := (tget (BitVec.ofNat 32 (regReset off)) off b.regs).toNat

def Blk.setReg (b : Blk) (off v : Nat) : Blk := { b with regs := tset off (BitVec.ofNat 32 v) b.regs }

def Blk.orReg (b : Blk) (off m : Nat) : Blk := b.setReg off (b.reg off ||| m)

/-- Clears the bits of a mask. -/
def Blk.clrReg (b : Blk) (off m : Nat) : Blk := b.setReg off (b.reg off &&& ((2 ^ 32 - 1) ^^^ (m % 2 ^ 32)))

/-- Replaces the bits of a mask. -/
def Blk.putReg (b : Blk) (off m v : Nat) : Blk :=
  b.setReg off ((b.reg off &&& ((2 ^ 32 - 1) ^^^ (m % 2 ^ 32))) ||| (v &&& m))

/-- Adds one to a saturating count. -/
def Blk.incReg (b : Blk) (off : Nat) : Blk := { b with regs := tset off (satInc (BitVec.ofNat 32 (b.reg off))) b.regs }

def Blk.addReg (b : Blk) (off n : Nat) : Blk :=
  { b with regs := tset off (satAdd (BitVec.ofNat 32 (b.reg off)) n) b.regs }

/-- Two words read as one 64-bit register (R5). -/
def Blk.reg64 (b : Blk) (off : Nat) : Nat := b.reg off + 2 ^ 32 * b.reg (off + 4)

def Blk.setReg64 (b : Blk) (off v : Nat) : Blk := (b.setReg off (v % 2 ^ 32)).setReg (off + 4) (v / 2 ^ 32)

/-- The value in effect of an RWC register (R55). -/
def Blk.eff (b : Blk) (off : Nat) : Nat := b.reg (off + 0x800)

def Blk.eff64 (b : Blk) (off : Nat) : Nat := b.reg64 (off + 0x800)

/-- The next free value's number; the count advances. -/
def Blk.fresh (b : Blk) : Blk × Nat := ({ b with ctr := b.ctr + 1 }, b.ctr)

def Blk.send (b : Blk) (m : Msg) : Blk := { b with sent := b.sent ++ [m] }

/-- Bits 31:0 of the local time (R13). -/
def Blk.time32 (b : Blk) : Nat := b.time.toNat % 2 ^ 32

/-! ### Error log -/

/-- The optional fields of an error-log entry (R407). -/
structure LogArg where
  port : Option Nat := none
  qp : Option Nat := none
  status : Nat := 0
  path : Nat := 0
  addr : Option Nat := none
  cga : Option Nat := none
  detail : Nat := 0
  deriving DecidableEq, Repr

/-- R407, R408: the entry that a finding writes. -/
def mkEntry (b : Blk) (kind : Nat) (a : LogArg) : LogEntry where
  kind := kind
  severity := severity kind
  valid := b2n a.addr.isSome + 2 * b2n a.cga.isSome + 4 * b2n a.port.isSome + 8 * b2n a.qp.isSome
  seq := b.log.head.toNat
  time := b.time32
  port := a.port.getD 0
  qp := a.qp.getD 0
  status := a.status
  path := a.path
  addr := a.addr.getD 0
  cga := a.cga.getD 0
  detail := a.detail

/-- Entries not read yet. -/
def LogSt.unread (l : LogSt) : Nat := (l.head - l.tail).toNat

/-- R409: a new entry; in a full log it overwrites the oldest. -/
def LogSt.push (l : LogSt) (e : LogEntry) : LogSt :=
  let full := l.unread == 2048
  { entries := tset (l.head.toNat % 2048) e l.entries
    head := l.head + 1
    tail := if full then l.tail + 1 else l.tail
    ovf := if full then satInc l.ovf else l.ovf }

/-- Writes an entry; without the power of the RET domain there is no log to write (R409, R358). -/
def Blk.logE (b : Blk) (kind : Nat) (a : LogArg) : Blk :=
  if b.pwr.rails.testBit 1 then { b with log := b.log.push (mkEntry b kind a) } else b

/-- The 32 bytes of an entry (R407). -/
def LogEntry.bytes (e : LogEntry) : Bytes :=
  leBytes 2 e.kind ++ leBytes 1 e.severity ++ leBytes 1 e.valid ++ leBytes 4 e.seq ++ leBytes 4 e.time
    ++ leBytes 1 e.port ++ leBytes 1 e.qp ++ leBytes 1 e.status ++ leBytes 1 e.path ++ leBytes 8 e.addr
    ++ leBytes 4 e.cga ++ leBytes 4 e.detail

/-- The entry with every field zero, which an unlisted place reads as. -/
def LogEntry.zero : LogEntry := ⟨0, 0, 0, 0, 0, 0, 0, 0, 0, 0, 0, 0⟩

/-! ### Events -/

def oEV_MASK : Nat := bEVENTS + 4
def oLAY_EVENTS : Nat := bLAYOUT + 0x28
def oATT_EVENTS : Nat := bATTACH + 0x24
def oWIN_EVENTS : Nat := bWINDOW + 0x10
def oPWR_EVENTS : Nat := bPOWER + 0x54
def oSDG_STATUS : Nat := bSDG
def oSDG_EVENTS : Nat := bSDG + 4
def oFAB_EVENTS : Nat := bFABRIC + 0xC
def oNET_EVENTS : Nat := bNET + 0x18
def oSC_EVENTS (s : Nat) : Nat := bSC s + 0xA8
def oQP_EVENTS (q : Nat) : Nat := bQP q + 0x30

/-- Whether an event register, which resets to zero, holds a bit set. -/
def Blk.evSet (b : Blk) (off : Nat) : Bool := tget 0 off b.regs != 0

/-- Whether an offset is some pair's QP_EVENTS. -/
def isQpEvents (off : Nat) : Bool := decide (bQUEUES ≤ off) && decide (off < 0x50000) && off % 0x1000 == 0x30

/-- Whether event source `n` holds an event bit set (R316). -/
def Blk.source (b : Blk) (n : Nat) : Bool :=
  if n = 0 then b.evSet oLAY_EVENTS
  else if n = 1 then b.evSet oATT_EVENTS
  else if n = 2 then b.evSet oWIN_EVENTS
  else if n = 3 then b.log.unread != 0
  else if n < 20 then b.evSet (oSC_EVENTS (n - 4))
  else if n = 20 then b.evSet oPWR_EVENTS
  else if n = 21 then b.evSet oSDG_EVENTS
  else if n = 22 then b.evSet oFAB_EVENTS
  else if n = 23 then b.evSet oNET_EVENTS
  else if n = 24 then b.regs.any (fun p => isQpEvents p.1 && p.2 != 0)
  else false

/-- EV_STATUS (R316). -/
def Blk.evStatus (b : Blk) : Nat :=
  (List.range 25).foldl (fun a n => if b.source n then setBit a n else a) 0

/-- R315: an MSI-X message, held as a pending bit while the vector's BAR4 mask is set; none goes to
the host in ORPHAN (R318). -/
def Blk.msix (b : Blk) (v : Nat) : Blk :=
  if b.att.phase == .orphan then b
  else if b.ev.unmasked.testBit v then b.send (.msix v)
  else { b with ev := { b.ev with pba := setBit b.ev.pba v } }

def oEV_COAL (v : Nat) : Nat := bEVENTS + 0x100 + 4 * v

/-- R315: a completion's signal on a vector, subject to coalescing. -/
def Blk.signal (b : Blk) (v : Nat) : Blk :=
  let c := b.reg (oEV_COAL v) % 256
  let p := tget 0 v b.ev.pend + 1
  if p < c then { b with ev := { b.ev with pend := tset v p b.ev.pend } }
  else ({ b with ev := { b.ev with pend := tset v 0 b.ev.pend } }).msix v

/-- The vector a source is routed to (R316). -/
def Blk.routeOf (b : Blk) (n : Nat) : Nat := bits (b.reg (bEVENTS + 0x10 + 4 * (n / 4))) (8 * (n % 4) + 5) (8 * (n % 4))

/-- R366: source events that arise in WATCH wait for RUN. -/
def Blk.quietEv (b : Blk) : Bool := b.pwr.state == .watch || (b.pwr.state == .waking && b.pwr.wake == .fromWatch)

/-- The message of a source that went from 0 to 1. -/
def Blk.raise (b : Blk) (n : Nat) : Blk :=
  if (b.reg oEV_MASK).testBit n then b
  else if b.quietEv then { b with ev := { b.ev with late := setBit b.ev.late n } }
  else b.msix (b.routeOf n)

/-- R315: each unmasked source whose bit went from 0 to 1 sends its vector. -/
def settle (a b : Blk) : Blk :=
  (List.range 25).foldl (fun (x : Blk) n => if b.source n && !a.source n then x.raise n else x) b

/-- The messages of the sources that rose in WATCH and still hold (R366). -/
def Blk.lateEvents (b : Blk) : Blk :=
  let l := b.ev.late
  let b := { b with ev := { b.ev with late := 0 } }
  (List.range 25).foldl (fun (x : Blk) n => if l.testBit n && b.source n then x.raise n else x) b

/-- The frame of a command: an effect on the block, then its event messages; the queue stays. -/
def act (s : State) (f : Blk → Blk) : Out := .next { s with blk := settle s.blk (f s.blk) }

/-- R356, R358: the hub domain has its power. -/
def Blk.hubUp (b : Blk) : Bool := b.pwr.rails.testBit 2

/-- The frame of a command of a unit in the hub domain or behind it: without power it cannot happen. -/
def hubAct (s : State) (f : Blk → Blk) : Out := if s.blk.hubUp then act s f else .next s

def Blk.layEvent (b : Blk) (i : Nat) : Blk := b.orReg oLAY_EVENTS (2 ^ i)
def Blk.scEvent (b : Blk) (s i : Nat) : Blk := b.orReg (oSC_EVENTS s) (2 ^ i)
def Blk.sdgEvent (b : Blk) (i : Nat) : Blk := b.orReg oSDG_EVENTS (2 ^ i)
def Blk.pwrEvent (b : Blk) (i : Nat) : Blk := b.orReg oPWR_EVENTS (2 ^ i)
def Blk.attEvent (b : Blk) (i : Nat) : Blk := b.orReg oATT_EVENTS (2 ^ i)
def Blk.winEvent (b : Blk) (i : Nat) : Blk := b.orReg oWIN_EVENTS (2 ^ i)
def Blk.fabEvent (b : Blk) (i : Nat) : Blk := b.orReg oFAB_EVENTS (2 ^ i)
def Blk.netEvent (b : Blk) (i : Nat) : Blk := b.orReg oNET_EVENTS (2 ^ i)
def Blk.qpEvent (b : Blk) (q i : Nat) : Blk := b.orReg (oQP_EVENTS q) (2 ^ i)

/-- R410: module_fault, FAULT_N low, and the entry that says why. -/
def Blk.moduleFault (b : Blk) (detail : Nat) : Blk :=
  let b := (b.orReg oSDG_STATUS 4).sdgEvent 5
  let b := { b with pins := { b.pins with faultN := false } }
  b.logE kSDG_FAULT { detail := detail }

/-! ### Channels, pairs and dies -/

/-- The die of a channel, in stack-major order (R59). -/
def dieOfCh (ch : Nat) : Nat := ch / 2
/-- The stack of a channel (R59). -/
def stackOfCh (ch : Nat) : Nat := ch / 24
def stackOfDie (die : Nat) : Nat := die / 12

def Blk.chan (b : Blk) (ch : Nat) : ChanSt := tget .reset ch b.chans
def Blk.setChan (b : Blk) (ch : Nat) (c : ChanSt) : Blk := { b with chans := tset ch c b.chans }
def pairKey (ch pair : Nat) : Nat := ch * 16 + pair
def Blk.pair (b : Blk) (ch pair : Nat) : PairSt := tget .reset (pairKey ch pair) b.pairs
def Blk.setPair (b : Blk) (ch pair : Nat) (p : PairSt) : Blk := { b with pairs := tset (pairKey ch pair) p b.pairs }
def Blk.die (b : Blk) (d : Nat) : DieSt := tget .reset d b.dies
def Blk.setDie (b : Blk) (d : Nat) (x : DieSt) : Blk := { b with dies := tset d x b.dies }

/-- Classes in the order of R31. -/
def cRefresh : Nat := 0
def cCompute : Nat := 1
def cHub : Nat := 2
def cRemote : Nat := 3
def cScrub : Nat := 4
def cTrain : Nat := 5

/-- The budget in effect of a class in a stack (R31, R116). -/
def Blk.budget (b : Blk) (s cls : Nat) : Nat :=
  let w := b.eff (bSC s + 0x10 + 4 * (cls / 2))
  if cls % 2 = 0 then bits w 15 0 else bits w 31 16

/-- slot_count in effect of a die (R116), held at the capsule's limit (R387). -/
def Blk.slotCount (b : Blk) (d : Nat) : Nat :=
  let w := b.eff (bSC (stackOfDie d) + 0x80 + 4 * (d % 12 / 4))
  min (bits w (8 * (d % 4) + 4) (8 * (d % 4))) (b.reg (bSDG + 0x58) % 32)

/-- eligible_mask in effect of a die. -/
def Blk.eligMask (b : Blk) (d : Nat) : Nat := b.eff (bSC (stackOfDie d) + 0x50 + 4 * (d % 12))

end Sys2Proof.Machine
end

