-- ==== Sys2Proof/Machine/Budget.lean ====
section
/-! DEFINITION. Units and banks by number (R59), what holds a bank (R93, R101, R103, R131), and the
charges of commands (R88 to R92). -/

namespace Sys2Proof.Machine
open Sys2Proof

/-! ### Numbering (R59) -/

def unitNo (ch pair : Nat) : Nat := 32 * (ch / 2) + 16 * (ch % 2) + pair
def unitDie (u : Nat) : Nat := u / 32
def unitStack (u : Nat) : Nat := u / 384
def unitCh (u : Nat) : Nat := 2 * (u / 32) + u % 32 / 16
def unitPair (u : Nat) : Nat := u % 16
/-- The bank of a unit's side `side`. -/
def unitBank (u side : Nat) : Nat := 2 * unitPair u + side

def Blk.unit (b : Blk) (u : Nat) : UnitSt := tget .reset u b.cu.units
def Blk.setUnit (b : Blk) (u : Nat) (x : UnitSt) : Blk := { b with cu := { b.cu with units := tset u x b.cu.units } }

/-! ### Open rows (R97) -/

def Blk.openRowOf (b : Blk) (ch bank : Nat) : Option Nat :=
  ((b.chan ch).rows.find? (fun p => p.1 == bank)).map (fun p => p.2.row)

def Blk.closeBank (b : Blk) (ch bank : Nat) : Blk :=
  let c := b.chan ch
  b.setChan ch { c with rows := tdel bank c.rows, closing := c.closing.filter (fun p => p.1 != bank) }

def Blk.openBank (b : Blk) (ch bank row cls : Nat) : Blk :=
  let c := b.chan ch
  b.setChan ch { c with rows := tset bank ⟨row, cls⟩ c.rows, closing := c.closing.filter (fun p => p.1 != bank) }

/-! ### Held banks (R93, R101, R103, R107, R131) -/

/-- The die takes commands: it is awake, or it finishes what it holds before self-refresh (R107). -/
def Blk.dieTakes (b : Blk) (d : Nat) : Bool := (b.die d).sr == .awake || (b.die d).sr == .entering

/-- Whether a unit keeps requests of a class from its pair: while it is in compute mode, but for a step
boundary of a sequence at which the request has waited for a period (R101, R131). -/
def Blk.unitKeeps (b : Blk) (u cls since : Nat) : Bool :=
  let x := b.unit u
  cls != cCompute && x.inPim && !(match x.seq with
    | some s => !s.inStep && decide (since + 1 ≤ b.time.toNat)
    | none => false)

/-- Whether a command of a class may act on a bank now, for a request that came at a tick. -/
def Blk.bankFree (b : Blk) (ch bank cls since : Nat) : Bool :=
  b.dieTakes (dieOfCh ch) && !(b.pair ch (bank / 2)).urgent && !b.unitKeeps (unitNo ch (bank / 2)) cls since

/-- The tick since which a request waits for a bank's pair; now where none waits. -/
def Blk.askedAt (b : Blk) (ch bank : Nat) : Nat :=
  let c := b.chan ch
  let own := (b.unit (unitNo ch (bank / 2))).asked.getD b.time.toNat
  ((c.readQ ++ c.writeQ).filter (fun r => r.bank / 2 == bank / 2)).foldl (fun a r => min a r.since) own

/-! ### Charges (R90 to R92) -/

/-- A queued request is ready, and its class can pay for it (R92, R93). -/
def Blk.couldIssue (b : Blk) (ch : Nat) (r : HalfReq) : Bool :=
  decide (3 ≤ (b.chan ch).cnt.getD r.cls 0)
    && (r.cls == cTrain || (b.openRowOf ch r.bank == some r.row && b.bankFree ch r.bank r.cls r.since))

/-- A unit command that an operation has for a channel could issue: its units are free and the compute
class can pay for it. -/
def Blk.unitCouldIssue (b : Blk) (ch : Nat) : Bool :=
  decide (2 ≤ (b.chan ch).cnt.getD cCompute 0) && b.cu.jobs.any (fun j =>
    match j.prog.find? (fun d => d.ch == ch) with
    | some d => (List.range 16).all (fun m => !d.mask.testBit m || (b.unit (unitNo ch m)).seq.isNone)
    | none => false)

/-- R92: whether a command of a class may use a slot that no class with budget left needs. -/
def Blk.mayBorrow (b : Blk) (ch cls half : Nat) : Bool :=
  (b.reg (bSC (stackOfCh ch) + 4)).testBit 2 && cls != cCompute && cls != cRefresh
    && decide ((b.chan ch).spent + half ≤ 2048)
    && !((b.chan ch).readQ ++ (b.chan ch).writeQ).any (fun r => r.cls != cls && b.couldIssue ch r) && !b.unitCouldIssue ch

/-- Whether a class can pay half-slots on a channel, or borrow them. -/
def Blk.canPay (b : Blk) (ch cls half : Nat) : Bool :=
  decide (half ≤ (b.chan ch).cnt.getD cls 0) || b.mayBorrow ch cls half

/-- Takes half-slots from a class's counter, all it holds where it holds fewer; nothing where they are
borrowed (R92). An issue ends the parity failures of R111. -/
def Blk.take (b : Blk) (ch cls half : Nat) : Blk :=
  let c := b.chan ch
  let left := c.cnt.getD cls 0
  let cnt := if half ≤ left || !b.mayBorrow ch cls half then c.cnt.set cls (left - half) else c.cnt
  b.setChan ch { c with cnt := cnt, spent := c.spent + half, parity := 0 }

/-- R90: deducts half-slots from the class's counter; none where the command may not issue. -/
def Blk.pay (b : Blk) (ch cls half : Nat) : Option Blk := if b.canPay ch cls half then some (b.take ch cls half) else none

/-- R91: a refresh that is due takes the rest of its charge from the other classes, in this order. -/
def takeFrom : List Nat → List Nat → Nat → List Nat
  | [], cnt, _ => cnt
  | k :: t, cnt, due =>
    let have' := cnt.getD k 0
    takeFrom t (cnt.set k (have' - min have' due)) (due - min have' due)

def Blk.payRefresh (b : Blk) (ch half : Nat) : Blk :=
  let c := b.chan ch
  b.setChan ch { c with
    cnt := takeFrom [cRefresh, cScrub, cTrain, cRemote, cHub, cCompute] c.cnt half, spent := c.spent + half, parity := 0 }

/-- R457: a class with budget 0 in a stack issues only in slots it borrows (R92). -/
def Blk.starved (b : Blk) (s cls : Nat) : Bool :=
  b.budget s cls == 0 && (cls == cCompute || !(b.reg (bSC s + 4)).testBit 2)

/-- R33, R89: the classes in which a port makes requests. -/
def classOk (port cls : Nat) : Bool :=
  if port = 1 || port = 2 || port = 3 then cls == cRemote
  else if port = 4 then cls == cHub || cls == cRemote
  else if port = 8 then cls == cCompute
  else if port = 9 then cls == cScrub
  else if port = 10 then cls == cRefresh
  else if port = 11 then cls == cTrain
  else decide (port < 8) && cls == cHub

end Sys2Proof.Machine
end

