-- ==== Sys2Proof/Machine/Mem.lean ====
section
/-! DEFINITION. Module memory (03_memory_organisation): the address maps R59 to R64, the cells and
their margins, the read decisions R76 and R77, the writes R71, R74, R75, and range accesses. -/

namespace Sys2Proof.Machine
open Sys2Proof

/-! ### Cells

A group is numbered across the module. Data byte i of group g has key 256 g + i. Margin byte i has
two keys, one for each class that the group's segment may have, since what an untouched group holds
depends on the class it was initialised in (R67). -/

/-- Number of data bytes, and the first margin key (R14, R61). -/
def dramBytes : Nat := 0xC000000000

/-- Global number of a group: channel, bank, row, group (R59). -/
def gidOf (ch bank row grp : Nat) : Nat := ((ch * 32 + bank) * 32768 + row) * 8 + grp
def gidCh (g : Nat) : Nat := g / 8 / 32768 / 32
def gidBank (g : Nat) : Nat := g / 8 / 32768 % 32
def gidRow (g : Nat) : Nat := g / 8 % 32768
def gidGrp (g : Nat) : Nat := g % 8

/-- R60: the cell-group address of a group. -/
def cgaOf (g : Nat) : Nat :=
  let ch := gidCh g
  gidRow g + gidBank g * 2 ^ 15 + (ch % 2) * 2 ^ 20 + (ch % 24 / 2) * 2 ^ 21 + (ch / 24) * 2 ^ 25 + gidGrp g * 2 ^ 29

def dataKey (g i : Nat) : Nat := g * 256 + i
def marginKey (g : Nat) (isOpen : Bool) (i : Nat) : Nat := dramBytes + (g * 32 + i) * 2 + b2n isOpen

/-- The check symbols of a quarter with tag 10: zero data and tag symbol 0xA5 (R69). -/
def guarded10 : Bytes := [0x1A, 0x4C, 0xC8, 0x6A, 0xA4, 0x9D, 0x0F, 0x67]

/-- CRC-32C over a group's data, byte 0 of slice 0 and its cell-group address (R74). -/
def openCrc (g : Nat) (data : Bytes) (b0 : Byte) : Nat := crc32c (data ++ b0 :: leBytes 4 (cgaOf g))

/-- The same CRC for zero data and byte 0 = 0x80 (tag 10, generation 0), from the shift register
after those 257 bytes. -/
def openCrc10 (g : Nat) : Nat := ((leBytes 4 (cgaOf g)).foldl crcByte 3177453936) ^^^ 0xFFFFFFFF

/-- Slice q of an open margin (R73). -/
def openSlice (b0 : Byte) (crc q : Nat) : Bytes :=
  let c := leBytes 4 crc
  b0 :: c ++ [BitVec.ofNat 8 (0xB4 + q), ~~~(c.getD 0 0), ~~~(c.getD 1 0)]

def openMargin (b0 : Byte) (crc : Nat) : Bytes :=
  openSlice b0 crc 0 ++ openSlice b0 crc 1 ++ openSlice b0 crc 2 ++ openSlice b0 crc 3

/-- What an unlisted cell reads as: zero data, and the margin of tag 10 in the class of its key. -/
def cellDefault (k : Nat) : Byte :=
  if k < dramBytes then 0
  else
    let m := k - dramBytes
    let g := m / 64
    let i := m / 2 % 32
    if m % 2 = 0 then guarded10.getD (i % 8) 0
    else (openMargin 0x80 (openCrc10 g)).getD i 0

/-- The byte at a key. -/
def cellGet : List Host.Cell → Nat → Byte
  | [], k => cellDefault k
  | (a, v) :: t, k => if k = a then v else if k < a then cellDefault k else cellGet t k

/-- Writes a byte, keeping addresses rising and no entry equal to what it would read as unlisted. -/
def cellPut : List Host.Cell → Nat → Byte → List Host.Cell
  | [], k, v => if v = cellDefault k then [] else [(k, v)]
  | (a, w) :: t, k, v =>
    if k = a then (if v = cellDefault k then t else (k, v) :: t)
    else if k < a then (if v = cellDefault k then (a, w) :: t else (k, v) :: (a, w) :: t)
    else (a, w) :: cellPut t k v

/-- Memory as a list of cells. -/
abbrev Memory := List Host.Cell

/-- The canonical form: addresses strictly rising, no entry equal to what it reads as unlisted. -/
def Memory.wf : Memory → Bool
  | [] => true
  | [(a, v)] => v != cellDefault a
  | (a, v) :: (c, w) :: t => (v != cellDefault a) && decide (a < c) && Memory.wf ((c, w) :: t)

/-- Writes bytes in order. -/
def cellsPut (m : List Host.Cell) : List (Nat × Byte) → List Host.Cell
  | [] => m
  | (k, v) :: t => cellsPut (cellPut m k v) t

/-- Keeps the cells that a test on keys does not name; the others read as unlisted again. -/
def cellsDrop (m : List Host.Cell) (p : Nat → Bool) : List Host.Cell := m.filter (fun c => !p c.1)

def groupData (m : List Host.Cell) (g : Nat) : Bytes := (List.range 256).map (fun i => cellGet m (dataKey g i))
def groupMargin (m : List Host.Cell) (g : Nat) (o : Bool) : Bytes :=
  (List.range 32).map (fun i => cellGet m (marginKey g o i))

/-- Keys and bytes of a run of data bytes of a group. -/
def dataCells (g off : Nat) : Bytes → List (Nat × Byte)
  | [] => []
  | v :: t => (dataKey g off, v) :: dataCells g (off + 1) t

def marginCells (g : Nat) (o : Bool) (off : Nat) : Bytes → List (Nat × Byte)
  | [] => []
  | v :: t => (marginKey g o off, v) :: marginCells g o (off + 1) t

/-- The group of a key. -/
def keyGroup (k : Nat) : Nat := if k < dramBytes then k / 256 else (k - dramBytes) / 64

/-! ### Address maps -/

def fold7 (t : Nat) : Nat := (t % 128) ^^^ (t / 128 % 128) ^^^ (t / 16384)

/-- R63: the group of an interleaved MPA. -/
def mpaGroup (mpa : Nat) : Nat :=
  let g := mpa / 256
  let seg := g / 8192
  let u := g % 8192
  let t := seg / 3
  let n := 128 * (seg % 3) + ((u % 128) ^^^ fold7 t)
  let w := t * 64 + u / 128
  let row := w / 256
  gidOf n ((w / 8 % 32) ^^^ (row % 32)) row (w % 8)

/-- R63: the MPA of byte 0 of a group under interleaving. -/
def groupMpa (g : Nat) : Nat :=
  let n := gidCh g
  let row := gidRow g
  let w := row * 256 + ((gidBank g) ^^^ (row % 32)) * 8 + gidGrp g
  let t := w / 64
  let u := (w % 64) * 128 + ((n % 128) ^^^ fold7 t)
  ((3 * t + n / 128) * 8192 + u) * 256

/-- R64: the group of byte `o` of a bank-local region. -/
def localGroup (r : Region) (o : Nat) : Nat :=
  let S := bitsSet r.stackSet 16
  let D := bitsSet r.dies 12
  let C := bitsSet r.chans 2
  let q := o / 2048
  let row := q % r.rowCount
  let q := q / r.rowCount
  let b := q % 2
  let q := q / 2
  let p := q % r.pairCount
  let q := q / r.pairCount
  let c := q % C.length
  let q := q / C.length
  let d := q % D.length
  let q := q / D.length
  gidOf (24 * S.getD q 0 + 2 * D.getD d 0 + C.getD c 0) (2 * (r.pairFirst + p) + b) (r.rowFirst + row) (o % 2048 / 256)

/-- Position of an element in a list. -/
def indexIn (l : List Nat) (a : Nat) : Option Nat := l.findIdx? (· == a)

/-- Whether a bank-local region names a row of a bank (R27). -/
def Region.names (r : Region) (ch bank row : Nat) : Bool :=
  r.isLocal && r.stackSet.testBit (ch / 24) && r.dies.testBit (ch % 24 / 2) && r.chans.testBit (ch % 2)
    && decide (r.pairFirst ≤ bank / 2) && decide (bank / 2 < r.pairFirst + r.pairCount)
    && decide (r.rowFirst ≤ row) && decide (row < r.rowFirst + r.rowCount)

/-- The MPA of byte 0 of a row that a bank-local region names (the inverse of R64). -/
def localMpa (r : Region) (ch bank row : Nat) : Nat :=
  let iS := (indexIn (bitsSet r.stackSet 16) (ch / 24)).getD 0
  let iD := (indexIn (bitsSet r.dies 12) (ch % 24 / 2)).getD 0
  let iC := (indexIn (bitsSet r.chans 2) (ch % 2)).getD 0
  let nD := popc r.dies 12
  let nC := popc r.chans 2
  r.base + (((((iS * nD + iD) * nC + iC) * r.pairCount + (bank / 2 - r.pairFirst)) * 2 + bank % 2) * r.rowCount
    + (row - r.rowFirst)) * 2048

/-- The region that holds an MPA. -/
def Struc.regionAt (st : Struc) (mpa : Nat) : Option Region :=
  st.regions.find? (fun r => decide (r.base ≤ mpa) && decide (mpa < r.base + r.len))

/-- The MPA at which a row's first data byte stands, if a region maps it. -/
def Struc.rowMpa (st : Struc) (ch bank row : Nat) : Option Nat :=
  match st.regions.find? (fun r => r.names ch bank row) with
  | some r => some (localMpa r ch bank row)
  | none =>
    let a := groupMpa (gidOf ch bank row 0)
    match st.regionAt (a / 0x200000 * 0x200000) with
    | some r => if r.isLocal then none else some a
    | none => none

/-- The MPA of byte 0 of a group, if a region maps it. -/
def Struc.groupMpa? (st : Struc) (g : Nat) : Option Nat :=
  match st.regions.find? (fun r => r.names (gidCh g) (gidBank g) (gidRow g)) with
  | some r => some (localMpa r (gidCh g) (gidBank g) (gidRow g) + 256 * gidGrp g)
  | none =>
    let a := groupMpa g
    match st.regionAt a with
    | some r => if r.isLocal then none else some a
    | none => none

/-- The segment that contains a retired-row entry's row (R28, R84). -/
def Struc.retiredSeg (st : Struc) (e : Nat) : Option Nat :=
  let ch := 24 * bits e 28 25 + 2 * bits e 24 21 + bits e 20 20
  (st.rowMpa ch (bits e 19 15) (bits e 14 0)).map (· / 0x200000)

/-- R84: whether a segment is retired. -/
def Struc.isRetired (st : Struc) (seg : Nat) : Bool := st.retired.any (fun e => st.retiredSeg e == some seg)

/-- R61, R66: whether a segment is mapped and not retired. -/
def Struc.mapped (st : Struc) (seg : Nat) : Bool := (st.regionAt (seg * 0x200000)).isSome && !st.isRetired seg

/-- What a segment starts as: fresh, in its region's class (R66 to R68). -/
def Struc.segDefault (st : Struc) (seg : Nat) : Seg :=
  ⟨((st.regionAt (seg * 0x200000)).map Region.isOpen).getD false, true⟩

def Blk.seg (b : Blk) (seg : Nat) : Seg := tget (b.struc.segDefault seg) seg b.mem.segs
def Blk.setSeg (b : Blk) (seg : Nat) (x : Seg) : Blk := { b with mem := { b.mem with segs := tset seg x b.mem.segs } }
def Blk.setCells (b : Blk) (c : List Host.Cell) : Blk := { b with mem := { b.mem with cells := c } }

/-- The group and the byte in it at an MPA of a region. -/
def Region.place (r : Region) (mpa : Nat) : Nat × Nat :=
  if r.isLocal then (localGroup r (mpa - r.base), mpa % 256) else (mpaGroup mpa, mpa % 256)

/-! ### Reading (R76, R77) -/

/-- The open-format signature of slice q (R73). -/
def openSig (slice : Bytes) (q : Nat) : Bool :=
  slice.getD 5 0 == BitVec.ofNat 8 (0xB4 + q) && slice.getD 6 0 == ~~~(slice.getD 1 0)
    && slice.getD 7 0 == ~~~(slice.getD 2 0)

/-- Applies errors to the symbols of a codeword. -/
def applyErrs (errs : List RsErr) (word : List Nat) : List Nat :=
  errs.foldl (fun w e => w.set e.1 ((w.getD e.1 0) ^^^ e.2)) word

/-- What R76 finds in a guarded quarter: the row of its table and the data it delivers. -/
structure QFind where
  row : Nat
  data : Bytes
  deriving DecidableEq, Repr

/-- R76. `raw` is the quarter as stored, returned unchanged where nothing is delivered. -/
def qFind (raw slice : Bytes) (q : Nat) : QFind :=
  if slice == guarded10 && raw == zeros 64 then ⟨5, zeros 64⟩
  else
    let syn := rsSyndromes slice raw
    let zero := syn.all (· == 0)
    if openSig slice q then (if zero then ⟨1, raw⟩ else ⟨2, raw⟩)
    else if zero then ⟨3, raw⟩
    else match rsDecode syn with
      | none => ⟨7, raw⟩
      | some errs =>
        if errs.all (fun e => e.1 ≤ 71) then
          ⟨4, ((applyErrs errs ((slice ++ raw).map BitVec.toNat)).drop 8).map (BitVec.ofNat 8)⟩
        else if errs.any (fun e => e.1 == 72 && e.2 == 0xA5) then ⟨5, zeros 64⟩
        else if errs.any (fun e => e.1 == 72 && e.2 == 0x5A) then ⟨6, raw⟩
        else ⟨7, raw⟩

/-- R76 without its first two rows, as UNSEAL decides (R80). -/
def qFindPlain (raw slice : Bytes) : QFind :=
  if slice == guarded10 && raw == zeros 64 then ⟨5, zeros 64⟩
  else match rsDecode (rsSyndromes slice raw) with
    | none => ⟨7, raw⟩
    | some [] => ⟨3, raw⟩
    | some errs =>
      if errs.all (fun e => e.1 ≤ 71) then
        ⟨4, ((applyErrs errs ((slice ++ raw).map BitVec.toNat)).drop 8).map (BitVec.ofNat 8)⟩
      else if errs.any (fun e => e.1 == 72 && e.2 == 0xA5) then ⟨5, zeros 64⟩
      else if errs.any (fun e => e.1 == 72 && e.2 == 0x5A) then ⟨6, raw⟩
      else ⟨7, raw⟩

/-- The status a guarded read returns for a row of R76. -/
def qStatus (row : Nat) : Nat :=
  if row = 2 then stCLASS else if row = 4 then stFLAGGED else if row = 6 || row = 7 then stUNCORR else stOK

/-- R77: the row of its table for an open group. -/
def gFind (g : Nat) (data margin : Bytes) : Nat :=
  let slice := fun q => bytesAt margin (8 * q) 8
  let dat := fun q => bytesAt data (64 * q) 64
  let lacking := (List.range 4).filter (fun q => !openSig (slice q) q)
  if data == zeros 256 && margin == openMargin 0x80 (openCrc10 g) then 3
  else if !lacking.isEmpty && lacking.all (fun q => (rsSyndromes (slice q) (dat q)).all (· == 0)) then 1
  else
    let b0 := (slice 0).getD 0 0
    let tag := b0.toNat / 64
    let differ := (List.range 4).any (fun q => (slice q).take 5 != (slice 0).take 5)
    let crc := fld (slice 0) 1 4
    if !lacking.isEmpty || differ || tag == 0 || (tag != 3 && openCrc g data b0 != crc) then 2
    else if tag = 2 then 3
    else if tag = 3 then 4
    else 5

/-- The status an open read returns for a row of R77. -/
def gStatus (row : Nat) : Nat := if row = 1 then stCLASS else if row = 2 || row = 4 then stCHECK else stOK

/-- Who makes an access (R33, R89, R407). -/
structure Req where
  port : Nat
  cls : Nat
  qp : Option Nat
  path : Nat
  deriving DecidableEq, Repr

def logMem (b : Blk) (kind : Nat) (rq : Req) (g : Nat) (mpa : Option Nat) (st : Nat) : Blk :=
  b.logE kind { port := some rq.port, qp := rq.qp, status := st, path := rq.path, addr := mpa, cga := some (cgaOf g) }

/-- R112: one more corrected codeword on a channel; the first beyond the threshold in a window is
reported. -/
def Blk.corrected (b : Blk) (ch : Nat) : Blk :=
  let s := stackOfCh ch
  let b := b.incReg (bSC s + 0x100 + 4 * (ch % 24))
  let c := b.chan ch
  let th := b.reg (bSC s + 0xA4)
  let past := th != 0 && !c.corrSaid && decide (th ≤ c.corrWin)
  let b := b.setChan ch { c with corrWin := c.corrWin + 1, corrSaid := c.corrSaid || past }
  if past then (b.logE kSC_CORRTH { cga := some (cgaOf (gidOf ch 0 0 0)) }).scEvent s 0 else b

/-- The margin of quarter q in a guarded group, written with tag symbol v. -/
def putQuarter (b : Blk) (g q : Nat) (data : Bytes) (v : Nat) : Blk :=
  b.setCells (cellsPut b.mem.cells (dataCells g (64 * q) data ++ marginCells g false (8 * q) (rsCheck data v)))

/-- Stores a group in open form (R73, R74). -/
def putOpen (b : Blk) (g : Nat) (data : Bytes) (tag gen : Nat) : Blk :=
  let b0 : Byte := BitVec.ofNat 8 (tag * 64 + gen % 64)
  b.setCells (cellsPut b.mem.cells
    (dataCells g 0 data ++ marginCells g true 0 (openMargin b0 (openCrc g data b0))))

/-- Poisons an open group: tag 11 with its data and bytes 1 to 7 kept (R74), and the next generation (R75). -/
def poisonOpen (b : Blk) (g : Nat) : Blk :=
  let m := groupMargin b.mem.cells g true
  b.setCells (cellsPut b.mem.cells ((List.range 4).map (fun q =>
    (marginKey g true (8 * q), BitVec.ofNat 8 (0xC0 + ((m.getD (8 * q) 0).toNat + 1) % 64)))))

/-- The outcome of an access: the block, a status, the bytes (zero where nothing is delivered), and
whether guarded data was corrected. -/
structure Acc where
  b : Blk
  st : Nat
  data : Bytes
  corr : Bool
  deriving DecidableEq, Repr

/-- What R76 finds in a quarter as it is stored. -/
def Blk.findQuarter (b : Blk) (g q : Nat) : QFind :=
  qFind (bytesAt (groupData b.mem.cells g) (64 * q) 64) (bytesAt (groupMargin b.mem.cells g false) (8 * q) 8) q

/-- R76 row 4: the write-back of a corrected quarter, at once where the scrub class can pay for its two
WRW, and their ACT and PRE unless the scrubber has the row open, and else when it can. -/
def Blk.fixQuarter (b : Blk) (cls g q : Nat) (data : Bytes) : Blk :=
  let half := if cls = cScrub then 4 else 8
  if b.canPay (gidCh g) cScrub half then (putQuarter b g q data 0).take (gidCh g) cScrub half
  else { b with mem := { b.mem with fixes := b.mem.fixes.filter (· != (g, q)) ++ [(g, q)] } }

/-- The write-backs that waited: one is dropped where its quarter no longer needs it. -/
def Blk.writeBacks (b : Blk) : Blk :=
  b.mem.fixes.foldl (fun (b : Blk) p =>
    let f := b.findQuarter p.1 p.2
    let c := { b with mem := { b.mem with fixes := b.mem.fixes.filter (· != p) } }
    if f.row = 4 then c.fixQuarter cHub p.1 p.2 f.data else c) b

/-- R76 on one quarter for a reader: its log entries, the corrected count, the write-back. -/
def readQuarter (b : Blk) (rq : Req) (g q mpa : Nat) : Acc :=
  let raw := bytesAt (groupData b.mem.cells g) (64 * q) 64
  let slice := bytesAt (groupMargin b.mem.cells g false) (8 * q) 8
  let f := qFind raw slice q
  if f.row = 2 then ⟨logMem b kMEM_CLASS rq g (some mpa) stCLASS, stCLASS, zeros 64, false⟩
  else if f.row = 4 then ⟨(b.corrected (gidCh g)).fixQuarter rq.cls g q f.data, stOK, f.data, true⟩
  else if f.row = 6 then ⟨b, stUNCORR, zeros 64, false⟩
  else if f.row = 7 then ⟨logMem b kMEM_UNCORR rq g (some mpa) stUNCORR, stUNCORR, zeros 64, false⟩
  else ⟨b, stOK, f.data, false⟩

/-- R77 on one group for a reader. -/
def readOpen (b : Blk) (rq : Req) (g : Nat) (mpa : Option Nat) : Acc :=
  let d := groupData b.mem.cells g
  let row := gFind g d (groupMargin b.mem.cells g true)
  if row = 1 then ⟨logMem b kMEM_CLASS rq g mpa stCLASS, stCLASS, zeros 256, false⟩
  else if row = 2 then ⟨logMem b kMEM_CHECK rq g mpa stCHECK, stCHECK, zeros 256, false⟩
  else if row = 4 then ⟨b, stCHECK, zeros 256, false⟩
  else if row = 3 then ⟨b, stOK, zeros 256, false⟩
  else ⟨b, stOK, d, false⟩

/-- The channels that hold a segment, each with the number of its rows there (R63, R64). -/
def Struc.segShare (st : Struc) (seg : Nat) : List (Nat × Nat) :=
  match st.regionAt (seg * 0x200000) with
  | none => []
  | some r =>
    if r.isLocal then
      let S := bitsSet r.stackSet 16
      let D := bitsSet r.dies 12
      let C := bitsSet r.chans 2
      let first := (seg * 0x200000 - r.base) / 2048
      let per := r.pairCount * 2 * r.rowCount
      (List.range ((first + 1023) / per + 1 - first / per)).map (fun j =>
        let k := first / per + j
        (24 * S.getD (k / C.length / D.length) 0 + 2 * D.getD (k / C.length % D.length) 0 + C.getD (k % C.length) 0,
          min ((k + 1) * per) (first + 1024) - max (k * per) first))
    else (List.range 128).map (fun k => (128 * (seg % 3) + k, 8))

/-- The thirds of the channels in which a segment lies (R63, R80). -/
def Struc.segThirds (st : Struc) (seg : Nat) : List Nat := ((st.segShare seg).map (fun p => p.1 / 128)).eraseDups

/-- Whether work on a segment can begin: a class can pay on each of its channels (R90, R457). -/
def Blk.segPays (b : Blk) (cls seg : Nat) : Bool := (b.struc.segShare seg).all (fun p => b.canPay p.1 cls 2)

/-- Charges half-slots for each row of a segment, on the channels that hold it; more than a counter holds
is spread over later periods (log 7). -/
def Blk.chargeSeg (b : Blk) (cls seg half : Nat) : Blk :=
  (b.struc.segShare seg).foldl (fun (b : Blk) p => b.take p.1 cls (half * p.2)) b

/-- R67: initialises a fresh segment to tag 10 in its class, for 66 slots a row. -/
def initSeg (b : Blk) (cls seg : Nat) : Blk :=
  let x := b.seg seg
  let st := b.struc
  let b := b.chargeSeg cls seg 132
  let b := b.setCells (cellsDrop b.mem.cells (fun k =>
    match st.groupMpa? (keyGroup k) with
    | some a => a / 0x200000 == seg
    | none => false))
  b.setSeg seg { x with fresh := false }

/-- R61: whether an MPA reaches a cell: inside a region, in a segment that is not retired. -/
def Blk.reach (b : Blk) (mpa : Nat) : Option Region :=
  if dramBytes ≤ mpa then none
  else match b.struc.regionAt mpa with
    | none => none
    | some r => if b.struc.isRetired (mpa / 0x200000) then none else some r

/-- Reads a piece that lies inside one quarter of a guarded segment or one group of an open one. -/
def readPiece (b : Blk) (rq : Req) (mpa len : Nat) : Acc :=
  match b.reach mpa with
  | none => ⟨b, stRANGE, zeros len, false⟩
  | some r =>
    let x := b.seg (mpa / 0x200000)
    if x.fresh then ⟨b, stOK, zeros len, false⟩
    else
      let (g, i) := r.place mpa
      if x.isOpen then
        let a := readOpen b rq g (some mpa)
        { a with data := bytesAt a.data i len }
      else
        let a := readQuarter b rq g (i / 64) mpa
        { a with data := bytesAt a.data (i % 64) len }

/-- Writes a piece that lies inside one quarter or one group (R67, R71, R75). -/
def writePiece (b : Blk) (rq : Req) (mpa : Nat) (d : Bytes) : Blk × Nat :=
  match b.reach mpa with
  | none => (b, stRANGE)
  | some r =>
    let seg := mpa / 0x200000
    let b := if (b.seg seg).fresh then initSeg b rq.cls seg else b
    let x := b.seg seg
    let (g, i) := r.place mpa
    if x.isOpen then
      let m := groupMargin b.mem.cells g true
      let gen := (m.getD 0 0).toNat % 64
      if i = 0 && d.length = 256 then (putOpen b g d 1 (gen + 1), stOK)
      else
        let a := readOpen b rq g (some mpa)
        if a.st != stOK then (a.b, a.st)
        else (putOpen a.b g (putAt a.data i d) 1 (gen + 1), stOK)
    else if i % 64 = 0 && d.length = 64 then (putQuarter b g (i / 64) d 0, stOK)
    else
      let a := readQuarter b rq g (i / 64) mpa
      if a.st != stOK then (a.b, a.st)
      else (putQuarter a.b g (i / 64) (putAt a.data (i % 64) d) 0, stOK)

/-! ### Charges of port accesses (R88, R90) -/

/-- Half-groups that bytes `lo` to `hi` of a group touch. -/
def halvesOf (lo hi : Nat) : Nat := if lo < 128 && 128 < hi then 2 else 1

/-- Half-slots of a write of bytes `lo` to `hi` of a group: WRH for what is whole, and RDW and WRW of the
words of what is read, changed and written (R71, R75). -/
def writeCost (isOpen : Bool) (lo hi : Nat) : Nat :=
  if isOpen then (if lo = 0 && hi = 256 then 6 else 32)
  else
    let whole := fun (q : Nat) => decide (lo ≤ 64 * q) && decide (64 * q + 64 ≤ hi)
    let part := fun (q : Nat) => !whole q && decide (lo < 64 * q + 64) && decide (64 * q < hi)
    ((List.range 4).filter part).length * 8 + (if whole 0 || whole 1 then 3 else 0) + (if whole 2 || whole 3 then 3 else 0)

/-- Charges a range access to its class, group by group: ACT and PRE for each row it comes to, PRE too
for another row that its bank holds open (R97; hint close at the row's end, log 28), and the column commands.
Fresh segments are not read (R67). -/
def Blk.chargeRange (b : Blk) (cls mpa len : Nat) (write : Bool) : Blk :=
  let first := mpa / 256
  ((List.range ((mpa + len + 255) / 256 - first)).foldl (fun (a : Blk × Option (Nat × Nat × Nat)) k =>
    let at' := (first + k) * 256
    match a.1.reach at' with
    | none => a
    | some r =>
      let x := a.1.seg (at' / 0x200000)
      if x.fresh && !write then a
      else
        let g := (r.place at').1
        let lo := max mpa at' - at'
        let hi := min (mpa + len) (at' + 256) - at'
        let cost := if write then writeCost x.isOpen lo hi else 3 * halvesOf lo hi
        let here := (gidCh g, gidBank g, gidRow g)
        let o := a.1.openRowOf (gidCh g) (gidBank g)
        let row := if a.2 == some here || o == some (gidRow g) then 0 else if o.isSome then 6 else 4
        let b := if row = 6 then a.1.closeBank (gidCh g) (gidBank g) else a.1
        (b.take (gidCh g) cls (cost + row), some here)) (b, none)).1

/-- Bytes from `mpa` to the end of the quarter (guarded) or group (open) that holds it. -/
def pieceLen (b : Blk) (mpa : Nat) : Nat :=
  if (b.seg (mpa / 0x200000)).isOpen then 256 - mpa % 256 else 64 - mpa % 64

/-- Reads a range piece by piece in ascending order, at most `fuel` pieces; the status is the
first failure's. -/
def readPieces : Nat → Blk → Req → Nat → Nat → Acc
  | 0, b, _, _, _ => ⟨b, stOK, [], false⟩
  | fuel + 1, b, rq, mpa, len =>
    if len = 0 then ⟨b, stOK, [], false⟩
    else
      let n := min len (pieceLen b mpa)
      let a := readPiece b rq mpa n
      let t := readPieces fuel a.b rq (mpa + n) (len - n)
      ⟨t.b, if a.st = stOK then t.st else a.st, a.data ++ t.data, a.corr || t.corr⟩

def readRange (b : Blk) (rq : Req) (mpa len : Nat) : Acc :=
  readPieces (len / 64 + 2) (b.chargeRange rq.cls mpa len false) rq mpa len

/-- Writes a range piece by piece in ascending order; the status is the first failure's. -/
def writePieces : Nat → Blk → Req → Nat → Bytes → Blk × Nat
  | 0, b, _, _, _ => (b, stOK)
  | fuel + 1, b, rq, mpa, d =>
    if d.isEmpty then (b, stOK)
    else
      let n := min d.length (pieceLen b mpa)
      let (b, s) := writePiece b rq mpa (d.take n)
      let (b, s2) := writePieces fuel b rq (mpa + n) (d.drop n)
      (b, if s = stOK then s2 else s)

def writeRange (b : Blk) (rq : Req) (mpa : Nat) (d : Bytes) : Blk × Nat :=
  writePieces (d.length / 64 + 2) (b.chargeRange rq.cls mpa d.length true) rq mpa d

/-- How many bytes of a range a write writes: those of the pieces that do not fail. -/
def writtenBytes : Nat → Blk → Req → Nat → Bytes → Nat
  | 0, _, _, _, _ => 0
  | fuel + 1, b, rq, mpa, d =>
    if d.isEmpty then 0
    else
      let n := min d.length (pieceLen b mpa)
      let (b', s) := writePiece b rq mpa (d.take n)
      (if s = stOK then n else 0) + writtenBytes fuel b' rq (mpa + n) (d.drop n)

/-- Bytes of module memory that the spec leaves undefined: they change, and nothing else is noted. -/
def Blk.spoilRange (b : Blk) (mpa len : Nat) : Blk :=
  let d := (List.range len).map (Config.freeByte b.ctr)
  { b with mem := (writeRange b ⟨8, cCompute, none, pINT⟩ mpa d).1.mem, ctr := b.ctr + 1 }

/-- Whether a range lies wholly inside one region with none of its segments retired (R61, R85). -/
def Struc.rangeIn (st : Struc) (mpa len : Nat) : Option Region :=
  match st.regionAt mpa with
  | none => none
  | some r =>
    if mpa + len ≤ r.base + r.len
      && !(st.retired.any (fun e => match st.retiredSeg e with
        | some s => overlap mpa len (s * 0x200000) 0x200000
        | none => false))
    then some r else none

/-- The range lies wholly inside one guarded region (R42, R295, R355, R384, R433). -/
def Struc.inGuarded (st : Struc) (mpa len : Nat) : Bool :=
  match st.regionAt mpa with
  | none => false
  | some r => !r.isOpen && decide (mpa + len ≤ r.base + r.len)

/-! ### Waiting accesses -/

/-- R81: whether a range touches a segment under conversion. -/
def Blk.convHeld (b : Blk) (mpa len : Nat) : Bool :=
  b.mem.convs.any (fun c => c.now.any (fun s => overlap mpa len (s * 0x200000) 0x200000))

/-- The dies that hold a range, by its groups. -/
def Blk.diesOf (b : Blk) (mpa len : Nat) : List Nat :=
  let first := mpa / 256
  let n := (mpa + len + 255) / 256 - first
  ((List.range n).filterMap (fun k =>
    let a := (first + k) * 256
    (b.struc.regionAt a).map (fun r => dieOfCh (gidCh (r.place a).1)))).eraseDups

/-- The dies of a range that are not awake. -/
def Blk.asleep (b : Blk) (mpa len : Nat) : List Nat :=
  if b.dies.all (fun p => p.2.sr == .awake) then []
  else (b.diesOf mpa len).filter (fun d => (b.die d).sr != .awake)

/-- R108 step 1: a die in self-refresh begins its exit. -/
def Blk.wakeDie (b : Blk) (d : Nat) : Blk :=
  let x := b.die d
  match x.sr with
  | .asleep => b.setDie d { x with sr := .exitPhy 0 }
  | _ => b

/-- The groups that a range touches, where a region maps them. -/
def Blk.groupsOf (b : Blk) (mpa len : Nat) : List Nat :=
  let first := mpa / 256
  (List.range ((mpa + len + 255) / 256 - first)).filterMap (fun k =>
    let a := (first + k) * 256
    (b.struc.regionAt a).map (fun r => (r.place a).1))

/-- The unit of a group's bank pair. -/
def gidUnit (g : Nat) : Nat := unitNo (gidCh g) (gidBank g / 2)

/-- Whether a group's bank keeps an access of a class waiting: its pair is urgent (R103), or its unit is in
compute mode and the access has not come to a step boundary after a period's wait (R101, R131). -/
def Blk.bankKeeps (b : Blk) (cls g : Nat) : Bool :=
  (b.pair (gidCh g) (gidBank g / 2)).urgent
    || b.unitKeeps (gidUnit g) cls ((b.unit (gidUnit g)).asked.getD b.time.toNat)

/-- Whether a bank keeps some group of a range waiting. -/
def Blk.banksKeep (b : Blk) (cls mpa len : Nat) : Bool :=
  (b.pairs.any (fun p => p.2.urgent) || b.cu.units.any (fun p => p.2.inPim)) && (b.groupsOf mpa len).any (b.bankKeeps cls)

/-- Whether a class cannot pay for a column command on some channel of a range (R90, R457). -/
def Blk.broke (b : Blk) (cls mpa len : Nat) : Bool :=
  b.chans.any (fun p => decide (p.2.cnt.getD cls 0 < 3)) && (b.groupsOf mpa len).any (fun g => !b.canPay (gidCh g) cls 3)

/-- Whether an access must wait: a conversion, a die in self-refresh, a bank that is held, or a class that
may not issue. -/
def Blk.mustWait (b : Blk) (cls mpa len : Nat) : Bool :=
  b.convHeld mpa len || !(b.asleep mpa len).isEmpty || b.banksKeep cls mpa len || b.broke cls mpa len
    || ((List.range 16).any (fun s => b.starved s cls) && (b.diesOf mpa len).any (fun d => b.starved (stackOfDie d) cls))

/-- R101: notes at the units of a range that an access waits for their pairs. -/
def Blk.askPairs (b : Blk) (mpa len : Nat) : Blk :=
  if b.cu.units.any (fun p => p.2.inPim) then
    (b.groupsOf mpa len).foldl (fun (b : Blk) g =>
      let x := b.unit (gidUnit g)
      if x.inPim && x.asked.isNone then b.setUnit (gidUnit g) { x with asked := some b.time.toNat } else b) b
  else b

/-- An access that waits asks for what it waits for: dies in self-refresh begin their exit (R108), and the
units of held pairs note it (R101). -/
def Blk.askExit (b : Blk) (mpa len : Nat) : Blk := ((b.asleep mpa len).foldl Blk.wakeDie b).askPairs mpa len

end Sys2Proof.Machine
end

