-- ==== Sys2Proof/Machine/Queue.lean ====
section
/-! DEFINITION. The queue engine (R295 to R308): rings, doorbells, fetching, acceptance, the entries
in flight and their completions. -/

namespace Sys2Proof.Machine
open Sys2Proof

/-! ### The window and its slots (R285, R289, R291) -/

def Blk.winBase (b : Blk) : Nat := b.eff64 bWINDOW / 2 ^ 21 * 2 ^ 21
def Blk.slotCfg (b : Blk) : Nat := b.eff (bWINDOW + 8)
def Blk.slotsOn (b : Blk) : Bool := b.slotCfg.testBit 31
def Blk.slotSize (b : Blk) : Nat := 2 ^ bits b.slotCfg 30 26
def Blk.winSlots (b : Blk) : Nat := bits b.slotCfg 25 16 + 1
def Blk.slotArea (b : Blk) : Nat := bits b.slotCfg 15 0 * 4096
/-- MPA of a slot's header. -/
def Blk.slotBase (b : Blk) (i : Nat) : Nat := b.winBase + b.slotArea + i * b.slotSize

/-- The pieces of a write that leave protected bytes out. -/
def cutAround : List (Nat × Nat) → Nat → Bytes → List (Nat × Bytes)
  | [], a, d => if d.isEmpty then [] else [(a, d)]
  | (p, n) :: t, a, d =>
    if p + n ≤ a || a + d.length ≤ p then cutAround t a d
    else
      let pre := d.take (p - a)
      let post := cutAround t (max a (p + n)) (d.drop (p + n - a))
      if pre.isEmpty then post else (a, pre) :: post

/-- The slots of whose owner or generation bytes a range takes some in (R291). -/
def Blk.slotHeads (b : Blk) (a len : Nat) : List Nat :=
  if !b.slotsOn then [] else (List.range b.winSlots).filter (fun i => overlap a len (b.slotBase i) 8)

/-- A write of a party to which R292 gives no change of an owner byte and no write of a generation: those
bytes stay, and the others are written. -/
def Blk.otherWrite (b : Blk) (rq : Req) (a : Nat) (d : Bytes) : Blk × Nat :=
  match b.slotHeads a d.length with
  | [] => writeRange b rq a d
  | heads =>
    let keep := (heads.map (fun i => [(b.slotBase i, 1), (b.slotBase i + 4, 4)])).flatten
    (cutAround keep a d).foldl (fun (x : Blk × Nat) p =>
      let (b, s) := writeRange x.1 rq p.1 p.2
      (b, if x.2 = stOK then s else x.2)) (b, stOK)

/-! ### Pairs and rings -/

def Blk.qp (b : Blk) (q : Nat) : QpSt := tget .reset q b.qps
def Blk.setQp (b : Blk) (q : Nat) (x : QpSt) : Blk := { b with qps := tset q x b.qps }

/-- QP_CFG in effect (R307). -/
def Blk.qpCfg (b : Blk) (q : Nat) : Nat := b.eff (bQP q + 0x10)
def Blk.sqLog (b : Blk) (q : Nat) : Nat := bits (b.qpCfg q) 4 0
def Blk.cqLog (b : Blk) (q : Nat) : Nat := bits (b.qpCfg q) 12 8
def Blk.sqLocal (b : Blk) (q : Nat) : Bool := (b.qpCfg q).testBit 16
def Blk.cqLocal (b : Blk) (q : Nat) : Bool := (b.qpCfg q).testBit 17
def Blk.qpVector (b : Blk) (q : Nat) : Nat := bits (b.qpCfg q) 23 18
def Blk.poster (b : Blk) (q : Nat) : Nat := bits (b.qpCfg q) 25 24
def Blk.sqBase (b : Blk) (q : Nat) : Nat := b.eff64 (bQP q) / 4096 * 4096
def Blk.cqBase (b : Blk) (q : Nat) : Nat := b.eff64 (bQP q + 8) / 4096 * 4096

/-- R295: a ring in host memory, or poster 0. -/
def Blk.hostBound (b : Blk) (q : Nat) : Bool := !b.sqLocal q || !b.cqLocal q || b.poster q == 0

/-- The queue engine's own accesses (R89). -/
def rqQueue (q : Nat) : Req := ⟨7, cHub, some q, 0⟩

/-! ### Entry fields (R296, R298) -/

def eOpcode (e : Bytes) : Nat := fld e 1 1
def eCtl (e : Bytes) : Nat := fld e 2 1
def eInline (e : Bytes) : Nat := fld e 3 1
def eSeq (e : Bytes) : Nat := fld e 4 4
def eTag (e : Bytes) : Nat := fld e 8 8
/-- Handle i of an entry. -/
def eHandle (e : Bytes) (i : Nat) : Nat := fld e (0x10 + 4 * i) 4
def eFenceBefore (e : Bytes) : Bool := (eCtl e).testBit 0
def eFenceAfter (e : Bytes) : Bool := (eCtl e).testBit 1
/-- Scope requested: 0 PATH, 1 MODULE, 2 HERD. -/
def eScope (e : Bytes) : Nat := bits (eCtl e) 3 2
def eIrq (e : Bytes) : Bool := (eCtl e).testBit 4

/-! ### Entries in flight -/

def Flight.is (f : Flight) (q seq : Nat) : Bool := f.q == q && f.seq == seq

def Blk.flight? (b : Blk) (q seq : Nat) : Option Flight := b.flights.find? (fun f => f.is q seq)

def Blk.updFlight (b : Blk) (q seq : Nat) (g : Flight → Flight) : Blk :=
  { b with flights := b.flights.map (fun f => if f.is q seq then g f else f) }

/-- Entries of a pair that are started and not completed (R302). -/
def Blk.inflight (b : Blk) (q : Nat) : Nat := (b.flights.filter (fun f => f.q == q && f.stage != .accepted)).length

/-- The started entry whose command has not finished. -/
def Blk.running? (b : Blk) (q seq : Nat) : Option Flight :=
  match b.flight? q seq with
  | some f => if f.stage = .running then some f else none
  | none => none

/-- The final status of an entry (R105, R304): an error stands; PREEMPTED replaces success; a flag
turns OK into OK_FLAGGED. -/
def finalStatus (st flags : Nat) (pre : Bool) : Nat :=
  if isErr st then st else if pre then stPREEMPT else if flags != 0 then stFLAGGED else stOK

/-- The entry's effect is complete: status, flags and inline result are settled. -/
def Blk.finish (b : Blk) (q seq st flags result : Nat) : Blk :=
  b.updFlight q seq (fun f =>
    { f with
      stage := .done
      status := finalStatus st (f.flags ||| flags) f.preempted
      flags := f.flags ||| flags
      result := result })

/-- Records what an entry wrote, for its release, scope and ordering. -/
def Blk.noteScope (b : Blk) (q seq scope : Nat) : Blk := b.updFlight q seq (fun f => { f with scope := max f.scope scope })

/-! ### Completions (R303, R306, R459) -/

/-- The 32 bytes of the completion with free-running index `j` (R298, R303). -/
def Comp.bytes (c : Comp) (j cqLog time : Nat) : Bytes :=
  [BitVec.ofNat 8 (1 - (j >>> cqLog) % 2), BitVec.ofNat 8 c.status, BitVec.ofNat 8 c.scope, 0]
    ++ leBytes 4 c.seq ++ leBytes 8 c.tag ++ leBytes 4 c.flags ++ leBytes 4 time ++ leBytes 8 c.result

/-- The completion of a finished entry. -/
def Flight.comp (f : Flight) : Comp where
  status := f.status
  scope := f.scope
  seq := f.seq
  tag := eTag f.raw
  flags := f.flags
  result := f.result
  irq := eIrq f.raw

/-- Whether completions of a pair go to the hold buffer (R318, R459). -/
def Blk.holdsComp (b : Blk) (q : Nat) : Bool :=
  (b.qp q).compFail || (!b.cqLocal q && b.att.phase == .orphan)

/-- Where the next completion of a pair is written (R303). -/
def Blk.compAt (b : Blk) (q : Nat) : Nat := b.cqBase q + 32 * ((b.qp q).cqTail.toNat % 2 ^ b.cqLog q)

/-- R459: a completion write into module memory failed. -/
def Blk.compWriteFailed (b : Blk) (q st : Nat) (c : Comp) : Blk :=
  let x := b.qp q
  let b := b.setQp q { x with fetchError := true, compFail := true, held := x.held ++ [c], staleWait := false }
  (b.logE kQP_FETCH { qp := some q, status := st, addr := some (b.cqBase q + 32 * (x.cqTail.toNat % 2 ^ b.cqLog q)) }).qpEvent q 4

/-- R303: writes a completion as one 32-byte write, advances QP_CQ_TAIL and signals. -/
def Blk.writeComp (b : Blk) (q : Nat) (c : Comp) : Blk :=
  let x := b.qp q
  if x.ending then b
  else if b.holdsComp q then b.setQp q { x with held := x.held ++ [c] }
  else
    let j := x.cqTail.toNat
    let a := b.cqBase q + 32 * (j % 2 ^ b.cqLog q)
    let d := c.bytes j (b.cqLog q) b.time32
    let b' := if b.cqLocal q then writeRange b (rqQueue q) a d else (b.send (.hostWrite a d), stOK)
    if b'.2 != stOK then b'.1.compWriteFailed q b'.2 c
    else
      let b := b'.1.setQp q { x with cqTail := x.cqTail + 1 }
      if c.irq then b.signal (b.qpVector q) else b

/-- Writes a list of completions in order. -/
def Blk.writeComps (b : Blk) (q : Nat) : List Comp → Blk
  | [] => b
  | c :: t => (b.writeComp q c).writeComps q t

/-! ### Fetching and acceptance (R300, R301) -/

/-- Whether fetching is stopped for every pair: a drain or apply (R45), a power entry (R363), or a
restart of the control cluster (R403). -/
def Blk.fetchStopped (b : Blk) : Bool :=
  b.lay.phase == .draining || b.lay.phase == .applying || b.restarting
    || !(b.pwr.state == .run || b.pwr.state == .doze)

/-- R301: starts the read of the entries from head up to the doorbell value, at most 32, not past
the ring's end. -/
def Blk.startFetch (b : Blk) (q : Nat) : Blk :=
  let x := b.qp q
  match x.posted with
  | none => b
  | some v =>
    let d := (v - x.head).toNat
    if !x.enabled || x.fetchError || x.staleWait || x.fetching != 0 || d = 0 || b.fetchStopped
        || (!b.sqLocal q && b.att.phase == .orphan) then b
    else
      let size := 2 ^ b.sqLog q
      let i := x.head.toNat % size
      let n := min (min d 32) (size - i)
      let b := b.setQp q { x with fetching := n }
      if b.sqLocal q then b else b.send (.hostRead (b.sqBase q + 128 * i) (128 * n))

/-- R301: phase, own bits 7:1 and seq are as expected. -/
def Blk.entryValid (b : Blk) (q : Nat) (e : Bytes) : Bool :=
  let x := b.qp q
  fld e 0 1 == 1 - (x.head.toNat >>> b.sqLog q) % 2 && eSeq e == x.seqNext.toNat

/-- Doorbell values that entries from head on wait for. -/
def QpSt.ahead (x : QpSt) : List (W32 × Nat) := x.posters.dropWhile (fun p => p.1 == x.head || decide (2 ^ 31 ≤ (p.1 - x.head).toNat))

/-- The path that posted the entry at head. -/
def QpSt.posterOf (x : QpSt) : Nat := ((x.ahead.head?).map (fun p => p.2)).getD pHOST

/-- R301: accepts an entry. -/
def Blk.accept (b : Blk) (q : Nat) (e : Bytes) : Blk :=
  let x := b.qp q
  let f : Flight :=
    { q := q, seq := x.seqNext.toNat, raw := e, path := x.posterOf, stage := .accepted, order := 0, mode := 0, status := stOK
      flags := 0, result := 0, scope := 0, preempted := false, reads := [], writes := [], slots := [], waits := []
      txns := [], fetched := [], homes := [], used := [], progress := 0, out := [], burst := .start }
  { b.setQp q { x with head := x.head + 1, seqNext := x.seqNext + 1, posters := x.ahead } with flights := b.flights ++ [f] }

/-- Takes fetched entries in order; the first that is not valid starts the re-reads. -/
def Blk.acceptAll (b : Blk) (q : Nat) : List Bytes → Blk
  | [] => b
  | e :: t =>
    if b.entryValid q e then (b.accept q e).acceptAll q t
    else b.setQp q { b.qp q with staleWait := true }

/-- R307: a ring read failed. -/
def Blk.fetchFailed (b : Blk) (q st : Nat) : Blk :=
  let x := b.qp q
  let b := b.setQp q { x with fetchError := true, fetching := 0, staleWait := false }
  (b.logE kQP_FETCH { qp := some q, status := st, addr := some (b.sqBase q + 128 * (x.head.toNat % 2 ^ b.sqLog q)) }).qpEvent q 4

/-- R300: whether a path may ring a pair. -/
def Blk.mayRing (b : Blk) (q path : Nat) : Bool :=
  path == pHOST
    || (path == pFAB && (b.poster q).testBit 0 && b.mode != .recovery)
    || (path == pNET && (b.poster q).testBit 1 && b.mode != .recovery)

/-- R300: a doorbell with value `v` from a path. -/
def Blk.ring (b : Blk) (q path : Nat) (v : W32) : Blk :=
  let x := b.qp q
  if !x.enabled || !b.mayRing q path then b.qpEvent q 3
  else if b.fetchStopped then b.setQp q { x with recorded := x.recorded ++ [(path, v)] }
  else
    let d := (v - x.head).toNat
    if d = 0 then b
    else if 2 ^ b.sqLog q < d then (b.logE kQP_BADDB { qp := some q, path := path }).qpEvent q 1
    else
      let known := match x.posted with
        | some p => decide (d ≤ (p - x.head).toNat)
        | none => false
      if known then b
      else (b.setQp q { x with posted := some v, posters := x.posters ++ [(v, path)] }).startFetch q

/-- Acts on the doorbells recorded for a pair (R45, R322, R366). -/
def Blk.replay (b : Blk) (q : Nat) : Blk :=
  let x := b.qp q
  (x.recorded.foldl (fun (y : Blk) p => y.ring q p.1 p.2) (b.setQp q { x with recorded := [] })).startFetch q

/-- Fetching resumes on every pair. -/
def Blk.resumeFetch (b : Blk) : Blk := (List.range 64).foldl (fun (y : Blk) q => y.replay q) b

/-- R302, R307, R308: disabled with nothing started and not completed. -/
def Blk.quiesced (b : Blk) (q : Nat) : Bool := !(b.qp q).enabled && b.inflight q == 0

/-- Completions that the hold buffer holds or may still get: those held, and those of entries in flight on pairs
whose completions it takes (R318, R459). -/
def Blk.holdLoad (b : Blk) : Nat :=
  (b.qps.map (fun p => p.2.held.length)).sum
    + (b.flights.filter (fun f => f.stage != .accepted && b.holdsComp f.q)).length

/-- R302: whether a completion of one more entry of a pair has room: in its ring, and, where the hold buffer takes
it, in that buffer's 4,096 places (R318). -/
def Blk.cqRoom (b : Blk) (q : Nat) : Bool :=
  let x := b.qp q
  decide ((x.cqTail - x.cqHead).toNat + b.inflight q < 2 ^ b.cqLog q) && (!b.holdsComp q || decide (b.holdLoad < 4096))

end Sys2Proof.Machine
end

