-- ==== Sys2Proof/Machine/Func.lean ====
section
/-! DEFINITION. The functions of R229 and the exp2 of R149. The real value of each function is
enclosed between two multiples of 2^-1200 by exact integer arithmetic, so that its one rounding
(R231) is decided; a faithful FP32 result (R232) is one of the two values around the real one, and
which one is free but monotone (R233). -/

namespace Sys2Proof.Machine
open Sys2Proof

/-- The working precision: enclosures count in units of 2^-1200. -/
def fxP : Nat := 1200
def fxOne : Int := ((2 ^ fxP : Nat) : Int)

/-- An enclosure of a real number, in units of 2^-1200. -/
structure Iv where
  lo : Int
  hi : Int
  deriving DecidableEq, Repr

/-- ⌈a ÷ b⌉ for positive b. -/
def cdivI (a b : Int) : Int := -((-a) / b)

namespace Iv
def ofInt (z : Int) : Iv := ⟨z * fxOne, z * fxOne⟩
def ofRat (n : Int) (d : Nat) : Iv := ⟨(n * fxOne) / (d : Int), cdivI (n * fxOne) (d : Int)⟩
def add (a b : Iv) : Iv := ⟨a.lo + b.lo, a.hi + b.hi⟩
def neg (a : Iv) : Iv := ⟨-a.hi, -a.lo⟩
def sub (a b : Iv) : Iv := add a (neg b)
def mul (a b : Iv) : Iv :=
  let p := a.lo * b.lo
  let q := a.lo * b.hi
  let r := a.hi * b.lo
  let s := a.hi * b.hi
  ⟨(min (min p q) (min r s)) / fxOne, cdivI (max (max p q) (max r s)) fxOne⟩
/-- Division by a positive whole number. -/
def divN (a : Iv) (n : Nat) : Iv := ⟨a.lo / (n : Int), cdivI a.hi (n : Int)⟩
/-- The reciprocal of an enclosure that lies above zero. -/
def inv (a : Iv) : Iv :=
  if a.lo ≤ 0 then ⟨0, fxOne * fxOne⟩ else ⟨(fxOne * fxOne) / a.hi, cdivI (fxOne * fxOne) a.lo⟩
/-- Times 2^k. -/
def shift (a : Iv) (k : Int) : Iv :=
  if 0 ≤ k then ⟨a.lo * (Ex.p2 k : Int), a.hi * (Ex.p2 k : Int)⟩
  else ⟨a.lo / (Ex.p2 (-k) : Int), cdivI a.hi (Ex.p2 (-k) : Int)⟩
/-- Widened by `k` units each way, for the terms that a series leaves out. -/
def widen (a : Iv) (k : Int) : Iv := ⟨a.lo - k, a.hi + k⟩
/-- The square root of an enclosure at or above zero. -/
def sqrt (a : Iv) : Iv :=
  ⟨((Nat.sqrt (a.lo.toNat * 2 ^ fxP) : Nat) : Int), ((Nat.sqrt (a.hi.toNat * 2 ^ fxP) : Nat) : Int) + 1⟩
end Iv

/-- Horner form of the exponential series, for an argument of magnitude at most 1. -/
def ivExpSmall (r : Iv) : Nat → Nat → Iv
  | 0, _ => Iv.ofInt 1
  | fuel + 1, k => Iv.add (Iv.ofInt 1) ((Iv.mul r (ivExpSmall r fuel (k + 1))).divN k)

/-- Σ t^(2k+1) ÷ (2k+1), signs alternating when `alt`. -/
def ivOddSeries (alt : Bool) (t2 : Iv) : Nat → Nat → Iv → Iv → Iv
  | 0, _, _, acc => acc
  | fuel + 1, k, pw, acc =>
    let term := pw.divN (2 * k + 1)
    let acc' := if alt && k % 2 == 1 then Iv.sub acc term else Iv.add acc term
    ivOddSeries alt t2 fuel (k + 1) (Iv.mul pw t2) acc'

def ivAtanh (t : Iv) : Iv := (ivOddSeries false (Iv.mul t t) 400 0 t (Iv.ofInt 0)).widen 4
def ivAtan (t : Iv) : Iv := (ivOddSeries true (Iv.mul t t) 400 0 t (Iv.ofInt 0)).widen 4
def ivLn2 : Iv := (ivAtanh (Iv.ofRat 1 3)).shift 1
def ivPi : Iv := Iv.sub ((ivAtan (Iv.ofRat 1 5)).shift 4) ((ivAtan (Iv.ofRat 1 239)).shift 2)

/-- e^x for |x| up to about 1,000. -/
def ivExp (x : Iv) : Iv :=
  let l := ivLn2
  let n := (2 * x.lo + l.lo) / (2 * l.lo)
  let r := Iv.sub x (Iv.mul (Iv.ofInt n) l)
  ((ivExpSmall r 260 1).widen 4).shift n

/-- ln of a positive rational n ÷ d × 2^e. -/
def ivLn (n d : Nat) (e : Int) : Iv :=
  let k := Ex.ilog2 (.q false n d 0)
  let a := n * Ex.p2 (-k)
  let b := d * Ex.p2 k
  let t := Iv.ofRat ((a : Int) - (b : Int)) (a + b)
  Iv.add ((ivAtanh t).shift 1) (Iv.mul (Iv.ofInt (e + k)) ivLn2)

/-- sin y for y from 0 to π ÷ 2: Σ (−1)^k y^(2k+1) ÷ (2k+1)!. -/
def ivSinSeries (y2 : Iv) : Nat → Nat → Iv → Iv → Iv
  | 0, _, _, acc => acc
  | fuel + 1, k, term, acc =>
    let acc' := if k % 2 == 1 then Iv.sub acc term else Iv.add acc term
    ivSinSeries y2 fuel (k + 1) ((Iv.mul term y2).divN ((2 * k + 2) * (2 * k + 3))) acc'

/-- sin(πr) for a rational r from 0 to 1 ÷ 2. -/
def ivSinPi (r : Iv) : Iv :=
  let y := Iv.mul ivPi r
  (ivSinSeries (Iv.mul y y) 150 0 y (Iv.ofInt 0)).widen 4

/-- Σ (−1)^k x^(2k+1) ÷ (k! (2k+1)). -/
def ivErfSeries (x2 : Iv) : Nat → Nat → Iv → Iv → Iv
  | 0, _, _, acc => acc
  | fuel + 1, k, pw, acc =>
    let term := pw.divN (2 * k + 1)
    let acc' := if k % 2 == 1 then Iv.sub acc term else Iv.add acc term
    ivErfSeries x2 fuel (k + 1) ((Iv.mul pw x2).divN (k + 1)) acc'

/-- erf x for x from 0 to 15. -/
def ivErf (x : Iv) : Iv :=
  let s := (ivErfSeries (Iv.mul x x) 1500 0 x (Iv.ofInt 0)).widen 4
  Iv.mul (s.shift 1) (Iv.inv (Iv.sqrt ivPi))

/-- 2^-200 in units: smaller than any nonzero result's half unit. -/
def fxTiny : Int := ((2 ^ (fxP - 200) : Nat) : Int)

/-- A function's value: exact, or enclosed. -/
inductive FRes where
  | exact (x : Ex)
  | enc (v : Iv)
  deriving DecidableEq, Repr

/-- An enclosure of a finite value. -/
def ivOf : Ex → Iv
  | .q s n d e =>
    let v := (Iv.ofRat (if s then -(n : Int) else (n : Int)) d).shift e
    v
  | _ => Iv.ofInt 0

/-- Just below a value: what the activations take where x is far above zero. -/
def ivBelow (x : Ex) : Iv := ⟨(ivOf x).lo - fxTiny, (ivOf x).lo - 1⟩

/-- 1 ÷ (1 + e^−u) for an enclosed u, with the far tails replaced by their bounds. -/
def ivSigmoid (u : Iv) : Iv :=
  if u.hi < (Iv.ofInt (-250)).lo then ⟨1, fxTiny⟩
  else if (Iv.ofInt 250).lo < u.lo then ⟨fxOne - fxTiny, fxOne - 1⟩
  else Iv.inv (Iv.add (Iv.ofInt 1) (ivExp u.neg))

/-- Whether a finite value is a whole number. -/
def Ex.isInt (x : Ex) : Bool := Ex.eqv x (Ex.ofInt (Ex.floor x))

/-- x − ⌊x⌋. -/
def Ex.frac (x : Ex) : Ex := Ex.sub x (Ex.ofInt (Ex.floor x))

/-- 2^x for a finite x: exact for whole x. -/
def fnExp2 (x : Ex) : FRes :=
  let n := Ex.floor x
  if n < -1100 then .enc ⟨1, fxTiny⟩
  else if 1100 < n then .exact (.q false 1 1 1100)
  else if x.isInt then .exact (.q false 1 1 n)
  else .enc ((ivExp (Iv.mul (ivOf x.frac) ivLn2)).shift n)

/-- R229, R234: the real value of a native function at an input that is a number. -/
def fnValue (fn : Nat) (x : Ex) : FRes :=
  match x with
  | .nan => .exact .nan
  | .inf s =>
    if fn = 1 || fn = 2 then .exact (if s then .zero else .inf false)
    else if fn = 3 || fn = 4 || fn = 6 then .exact (if s then .nan else .inf false)
    else if fn = 5 then .exact (.q s 0 1 0)
    else if fn = 7 then .exact (if s then .nan else .zero)
    else if fn = 8 then .exact (if s then .zero else Ex.ofNat 1)
    else if fn = 9 || fn = 14 then .exact (if s then Ex.ofInt (-1) else Ex.ofNat 1)
    else if fn = 10 || fn = 11 || fn = 12 then .exact (if s then .q true 0 1 0 else .inf false)
    else if fn = 13 then .exact (if s then .zero else .inf false)
    else .exact .nan
  | .q s n d e =>
    let ax := Ex.q false n d e
    if n = 0 then
      if fn = 1 || fn = 2 || fn = 16 then .exact (Ex.ofNat 1)
      else if fn = 3 || fn = 4 then .exact (.inf true)
      else if fn = 5 || fn = 7 then .exact (.inf s)
      else if fn = 8 then .exact (.q false 1 2 0)
      else if fn = 13 then .enc ivLn2
      else .exact x
    else if fn = 1 then fnExp2 x
    else if fn = 2 then
      if Ex.lt x (Ex.ofInt (-400)) then .enc ⟨1, fxTiny⟩
      else if Ex.lt (Ex.ofNat 400) x then .exact (.q false 1 1 400)
      else .enc (ivExp (ivOf x))
    else if fn = 3 || fn = 4 then
      if s then .exact .nan
      else
        let k := Ex.ilog2 x
        if Ex.eqv x (.q false 1 1 k) then
          (if fn = 3 then .exact (Ex.ofInt k)
           else if k = 0 then .exact .zero else .enc (Iv.mul (Iv.ofInt k) ivLn2))
        else if fn = 4 then .enc (ivLn n d e)
        else .enc (Iv.mul (ivLn n d e) (Iv.inv ivLn2))
    else if fn = 5 then .exact (Ex.div (Ex.ofNat 1) x)
    else if fn = 6 || fn = 7 then
      if s then .exact .nan
      else
        -- the value n·2^e ÷ d with an even exponent, as a ratio of whole numbers a ÷ b
        let e2 := if e % 2 = 0 then e else e - 1
        let a := n * (if e % 2 = 0 then 1 else 2)
        let ra := Nat.sqrt a
        let rb := Nat.sqrt d
        if ra * ra = a && rb * rb = d then
          (if fn = 6 then .exact (.q false ra rb (e2 / 2)) else .exact (.q false rb ra (-(e2 / 2))))
        else
          let root := (Iv.ofRat (a : Int) d).sqrt
          -- the mantissa part lies within a factor of the input's width, so its root keeps full precision
          if fn = 6 then .enc (root.shift (e2 / 2)) else .enc ((Iv.inv root).shift (-(e2 / 2)))
    else if fn = 8 then .enc (ivSigmoid (if Ex.lt (Ex.ofNat 300) ax then Iv.ofInt (if s then -300 else 300) else ivOf x))
    else if fn = 9 then
      if Ex.lt (Ex.ofNat 200) ax then
        (let v : Iv := ⟨fxOne - fxTiny, fxOne - 1⟩; .enc (if s then v.neg else v))
      else
        let u := (ivOf ax).shift 1
        let ex := ivExp u
        let v := Iv.mul (Iv.sub ex (Iv.ofInt 1)) (Iv.inv (Iv.add ex (Iv.ofInt 1)))
        .enc (if s then v.neg else v)
    else if fn = 10 then
      if Ex.lt (Ex.ofNat 300) ax then
        (if s then .enc ⟨-fxTiny, -1⟩ else .enc (ivBelow x))
      else .enc (Iv.mul (ivOf x) (ivSigmoid (ivOf x)))
    else if fn = 11 then
      if Ex.lt (Ex.ofNat 100) ax then (if s then .enc ⟨-fxTiny, -1⟩ else .enc (ivBelow x))
      else
        let v := ivOf x
        let c := Iv.sqrt ((Iv.inv ivPi).shift 1)
        let u := Iv.mul c (Iv.add v (Iv.mul (Iv.ofRat 44715 1000000) (Iv.mul v (Iv.mul v v))))
        .enc (Iv.mul v (ivSigmoid (u.shift 1)))
    else if fn = 12 then
      if Ex.lt (Ex.ofNat 20) ax then (if s then .enc ⟨-fxTiny, -1⟩ else .enc (ivBelow x))
      else
        let v := ivOf ax
        let er := ivErf (Iv.mul v (Iv.inv (Iv.sqrt (Iv.ofInt 2))))
        let half := v.shift (-1)
        if s then .enc (Iv.mul half (Iv.sub (Iv.ofInt 1) er)).neg
        else .enc (Iv.mul half (Iv.add (Iv.ofInt 1) er))
    else if fn = 13 then
      if Ex.lt (Ex.ofNat 300) ax then
        (if s then .enc ⟨1, fxTiny⟩
         else .enc ⟨(ivOf x).lo + 1, (ivOf x).hi + fxTiny⟩)
      else
        let w := Iv.add (Iv.ofInt 1) (ivExp (ivOf x))
        .enc ⟨(ivLn w.lo.toNat (2 ^ fxP) 0).lo, (ivLn w.hi.toNat (2 ^ fxP) 0).hi⟩
    else if fn = 14 then
      if Ex.lt (Ex.ofNat 15) ax then
        (let v : Iv := ⟨fxOne - fxTiny, fxOne - 1⟩; .enc (if s then v.neg else v))
      else
        let v := ivErf (ivOf ax)
        .enc (if s then v.neg else v)
    else if fn = 15 then
      if ax.isInt then .exact (.q s 0 1 0)
      else
        let k := Ex.floor ax
        let f := ax.frac
        let flip := (k % 2 == 1) != s
        let r := if Ex.lt (.q false 1 2 0) f then Ex.sub (Ex.ofNat 1) f else f
        if Ex.eqv r (.q false 1 2 0) then .exact (if flip then Ex.ofInt (-1) else Ex.ofNat 1)
        else
          let v := ivSinPi (ivOf r)
          .enc (if flip then v.neg else v)
    else if fn = 16 then
      let k := Ex.floor ax
      if ax.isInt then .exact (if k % 2 == 1 then Ex.ofInt (-1) else Ex.ofNat 1)
      else
        -- cos(π(k + f)) = (−1)^k sin(π(½ − f)), negative beyond f = ½
        let f := ax.frac
        if Ex.eqv f (.q false 1 2 0) then .exact .zero
        else
          let beyond := Ex.lt (.q false 1 2 0) f
          let r := if beyond then Ex.sub f (.q false 1 2 0) else Ex.sub (.q false 1 2 0) f
          let v := ivSinPi (ivOf r)
          .enc (if (k % 2 == 1) != beyond then v.neg else v)
    else .exact .nan

/-- The functions evaluated on |x| and mirrored (R232): TANH, ERF, SINPI odd, COSPI even. -/
def fnOdd (fn : Nat) : Bool := fn == 9 || fn == 14 || fn == 15
def fnEven (fn : Nat) : Bool := fn == 16

/-- The turning points that R233 names, as the FP32 values nearest to them. -/
def fnTurn (fn : Nat) : Ex :=
  if fn = 10 then .q true 10724538 1 (-23)
  else if fn = 11 then .q true 12624208 1 (-24)
  else .q true 12612969 1 (-24)

/-- The monotone intervals of R233 in which x lies, and whether the function rises there: at a turning value
both that end there. -/
def fnPieces (fn : Nat) (x : Ex) : List (Nat × Bool) :=
  if fn = 5 then [(b2n x.isNeg, false)]
  else if fn = 7 then [(0, false)]
  else if fn = 10 || fn = 11 || fn = 12 then
    (if Ex.le x (fnTurn fn) then [(0, false)] else []) ++ (if Ex.le (fnTurn fn) x then [(1, true)] else [])
  else if fn = 15 then
    let k := Ex.floor (Ex.add x (.q false 1 2 0))
    [((2 * k.natAbs) + b2n (decide (k < 0)), k % 2 == 0)]
  else if fn = 16 then
    let k := Ex.floor x
    [((2 * k.natAbs) + b2n (decide (k < 0)), k % 2 != 0)]
  else [(0, true)]

/-- An FP32 pattern as a number that rises with its value. -/
def f32Key (raw : Nat) : Int := if raw ≥ 2 ^ 31 then -((raw - 2 ^ 31 : Nat) : Int) else (raw : Int)

/-- The finite value of units of 2^-1200. -/
def exOfFx (z : Int) : Ex := Ex.ofDyadic z (-(fxP : Int))

/-- The magnitude bits of the FP32 value at or next below |x|, and whether it is |x| itself. -/
def trunc32 (n d : Nat) (e : Int) : Nat × Bool :=
  if n = 0 then (0, true)
  else
    let u := ulpExp ffp32 (.q false n d e)
    let a := n * Ex.p2 (e - u)
    let b := d * Ex.p2 (u - e)
    (packF ffp32 false (a / b) u, a % b == 0)

/-- The FP32 values that bracket a finite value: the lower, the upper, and whether they coincide. -/
def bracket32 : Ex → Nat × Nat × Bool
  | .q s n d e =>
    let (t, ex) := trunc32 n d e
    if ex then (let r := (if s then 2 ^ 31 else 0) + t; (r, r, true))
    else if s then (2 ^ 31 + t + 1, 2 ^ 31 + t, false)
    else (t, t + 1, false)
  | _ => (f32NaN, f32NaN, true)

/-- R232, R233: a faithful FP32 result at the FP32 input `raw`. -/
def faithful (fn raw : Nat) (x : Ex) (v : FRes) : Nat × Flags :=
  let (lo, hi) := match v with
    | .exact y => (y, y)
    | .enc i => (exOfFx i.lo, exOfFx i.hi)
  if !lo.isFin then encF ffp32 lo
  else if (encF ffp32 lo).2 != 0 then encF ffp32 lo
  else
    let (a, b, same) := bracket32 lo
    let (a2, b2, _) := bracket32 hi
    if same && lo == hi then encF ffp32 lo
    else
      let high := (fnPieces fn x).all (fun p =>
        let thr := Config.faithfulFrom fn p.1 a
        if p.2 then decide (thr ≤ f32Key raw) else decide (f32Key raw ≤ thr))
      let top := if a = a2 then b else b2
      -- the bracket above the largest finite value is not taken by a value that R129 keeps finite
      if high && top % 2 ^ 31 < f32PInf then (top, 0) else (a, 0)

/-- R231: the real value rounded once into a short format. -/
def roundOnce (fn fmt raw : Nat) (v : FRes) : Nat × Flags :=
  match v with
  | .exact y => encElem fmt y
  | .enc i =>
    let a := encElem fmt (exOfFx i.lo)
    let b := encElem fmt (exOfFx i.hi)
    if a = b then a else if Config.roundsUp fn fmt raw then b else a

/-- R234: a SILU or GELU result between −0 and the smallest negative subnormal of the format is −0. -/
def nearNegZero (fn fmt : Nat) (v : FRes) : Bool :=
  match v with
  | .enc i => (fn == 10 || fn == 11 || fn == 12) && decide (i.hi < 0) && Ex.lt (decElem fmt 1).neg (exOfFx i.lo)
  | .exact _ => false

/-- The bounds of a function's real value. -/
def fnBounds (fn : Nat) (x : Ex) : Ex × Ex :=
  match fnValue fn x with
  | .exact y => (y, y)
  | .enc i => (exOfFx i.lo, exOfFx i.hi)

/-- A native function (R229 to R234) of the FP32 input `raw`, into output format `fmt`. -/
def sfuNative (fn fmt raw : Nat) : Nat × Flags :=
  let x := f32 raw
  match x with
  | .nan => encElem fmt .nan
  | _ =>
    let mirror := x.isNeg && x.isFin && (fnOdd fn || fnEven fn)
    let x' := if mirror then x.neg else x
    let raw' := if mirror then raw % 2 ^ 31 else raw
    let v := fnValue fn x'
    let (y, f) := if nearNegZero fn fmt v then (2 ^ (fmtBits fmt - 1), 0)
      else if fmt = cFP32 then faithful fn raw' x' v else roundOnce fn fmt raw' v
    if mirror && fnOdd fn then
      let w := 2 ^ (fmtBits fmt - 1)
      ((if y ≥ w then y - w else y + w), f)
    else (y, f)

/-- Native FP32 result bits. -/
def sfu32 (fn raw : Nat) : Nat := (sfuNative fn cFP32 raw).1

/-- The in-bank exp2 unit (R149): faithful, monotone, and the nearest FP32 value at every
multiple of 1/32. -/
def bankExp2 (raw : Nat) : Nat × Flags :=
  let x := f32 raw
  match x with
  | .nan => (f32NaN, flagNan)
  | .inf s => if s then (0, 0) else (f32PInf, flagSat)
  | _ =>
    if Ex.lt x (Ex.ofInt (-126)) then (0, 0)
    else if Ex.le (Ex.ofNat 128) x then (f32PInf, flagSat)
    else
      -- x = n + f; the quadratic of the segment decides on f alone, and its result is scaled by 2^n
      let n := Ex.floor x
      let f := Ex.sub x (Ex.ofInt n)
      let near := fun (y : Ex) => (roundOnce 0 cFP32 0 (fnExp2 y)).1
      let k := Ex.floor (f.scale 5)
      let seam := Ex.ofDyadic k (-5)
      let next := Ex.ofDyadic (k + 1) (-5)
      let lower := fun (y : Ex) => match fnExp2 y with
        | .exact v => (bracket32 v).1
        | .enc i => (bracket32 (exOfFx i.lo)).1
      let a := lower f
      let p :=
        if Ex.eqv f seam then near seam
        else if lower seam = a && near seam = a + 1 then a + 1
        else if lower next = a && near next = a then a
        else if Config.faithfulFrom 0 0 a ≤ Ex.floor (f.scale 149) then a + 1 else a
      (((p : Int) + n * 8388608).toNat, 0)

end Sys2Proof.Machine
end

