-- ==== Sys2Proof/Machine/Unit.lean ====
section
/-! DEFINITION. What one step computes inside a bank unit (R119 to R129, R135, R143, R147): pure
functions over the unit's state. -/

namespace Sys2Proof.Machine
open Sys2Proof

/-! ### Lanes and formats (R119, R120, R123) -/

def laneFour (wfmt : Nat) : Bool := wfmt == cINT4 || wfmt == cFP4 || wfmt == cMXFP4 || wfmt == cCB4

/-- Vectors a pass may serve (R119). -/
def nvecMax (wfmt : Nat) : Nat := if laneFour wfmt then 2 else 4

/-- Latch words per vector area. -/
def areaWords (wfmt : Nat) : Nat := if laneFour wfmt then 128 else 64

/-- R123: the accepted pairs of weight and operand formats. -/
def pairOk (w a : Nat) : Bool :=
  let fp8 := fun (x : Nat) => x == cE4M3 || x == cE5M2
  let int8 := fun (x : Nat) => x == cINT8 || x == cUINT8
  let mx8 := fun (x : Nat) => x == cMXE4M3 || x == cMXE5M2
  if fp8 w || w == cFP4 || w == cCB4 then fp8 a
  else if int8 w || w == cINT4 then int8 a
  else if mx8 w || w == cMXFP4 then mx8 a
  else if w == cMXINT8 then a == cMXINT8
  else w == cBF16 && a == cBF16

/-- Exponent of the smallest magnitude of a format (R122). -/
def eminOf (f : Nat) : Int :=
  if f == cE4M3 || f == cMXE4M3 then -9
  else if f == cE5M2 || f == cMXE5M2 then -16
  else if f == cFP4 || f == cMXFP4 then -1
  else if f == cMXINT8 then -6
  else if f == cBF16 then -133
  else 0

/-- R127: formats that accumulate in the window of the anchor. -/
def isWindow (wfmt : Nat) : Bool := isMX wfmt || wfmt == cCB4

/-- Exponent of the unit of a wide partial (R124). -/
def wideExp (wfmt afmt anchor : Nat) : Int := if isWindow wfmt then sext 16 anchor else eminOf wfmt + eminOf afmt

/-- Negative zero decodes as zero, and an exact zero has no sign. -/
def plusZero (x : Ex) : Ex := if x.isZero then .zero else x

/-- One operand or weight element, scales and codebooks apart (R122). -/
def decU (fmt raw : Nat) : Ex := plusZero (decElem fmt raw)

/-- The raw elements of a 32-byte word, by element width. -/
def rawsOf (bits : Nat) (w : Bytes) : List Nat :=
  if bits = 4 then w.flatMap (fun b => [b.toNat % 16, b.toNat / 16])
  else if bits = 16 then (List.range 16).map (fun i => fld w (2 * i) 2)
  else w.map BitVec.toNat

/-- The active table bank (R121). -/
def UnitSt.tab (u : UnitSt) : TabBank := if u.active = 0 then u.tab0 else u.tab1
def UnitSt.idleTab (u : UnitSt) : TabBank := if u.active = 0 then u.tab1 else u.tab0

/-- The weights of a column word. -/
def UnitSt.weights (u : UnitSt) (w : Bytes) : List Ex :=
  if u.wfmt == cCB4 then (rawsOf 4 w).map (fun i => decU cBF16 (fld u.tab.codebook (2 * i) 2))
  else (rawsOf (fmtBits u.wfmt) w).map (decU u.wfmt)

/-- Elements per latch word. -/
def latchElems (fmt : Nat) : Nat := if fmtBits fmt = 16 then 16 else 32

def zeroWord : Bytes := zeros 32

/-- The latch word at an offset of vector v's area; the offset wraps in the area (R120). -/
def UnitSt.latchNo (u : UnitSt) (v off : Nat) : Nat := areaWords u.wfmt * v + off % areaWords u.wfmt
def UnitSt.latchAt (u : UnitSt) (v off : Nat) : Bytes := tget zeroWord (u.latchNo v off) u.latch
def UnitSt.setLatch (u : UnitSt) (v off : Nat) (w : Bytes) : UnitSt :=
  { u with latch := tset (u.latchNo v off) w u.latch }

/-- The operand elements of a latch word. -/
def UnitSt.operands (u : UnitSt) (w : Bytes) : List Ex := (rawsOf (8 * (32 / latchElems u.afmt)) w).map (decU u.afmt)

/-- Latch offsets that pair with column word c, from the step's latch field (R120). -/
def UnitSt.pairOffs (u : UnitSt) (lat c : Nat) : List Nat :=
  if laneFour u.wfmt then [lat + 2 * c, lat + 2 * c + 1] else [lat + c]

/-- The operands that pair with column word c for vector v. -/
def UnitSt.opsAt (u : UnitSt) (v lat c : Nat) : List Ex :=
  (u.pairOffs lat c).flatMap (fun o => u.operands (u.latchAt v o))

/-- NAN_SEEN for a list of inputs (R125). -/
def nanFlags (l : List Ex) : Flags := if l.any Ex.isNan then flagNan else 0

def products (w a : List Ex) : List Ex := List.zipWith (fun x y => plusZero (Ex.mul x y)) w a

/-- R127: one contribution enters the window of the anchor, rounded by itself. -/
def enterWindow (a : Int) (lim : Nat) (x : Ex) : Ex × Flags :=
  match x with
  | .q s n d e =>
    let q := rneUnits n d e a
    if 2 ^ lim ≤ q then (.q s (2 ^ lim - 1) 1 0, flagWideOvf) else (plusZero (.q s q 1 0), 0)
  | y => (y, 0)

/-- Enters a list of contributions. -/
def enterAll (a : Int) (lim : Nat) (l : List Ex) : Ex × Flags :=
  l.foldl (fun (acc : Ex × Flags) x => let (y, f) := enterWindow a lim x; (Ex.add acc.1 y, acc.2 ||| f)) (.zero, 0)

/-- Adds an exact number of units to a wide partial (R125), with the flags of R129. -/
def addWide (raw : Nat) (x : Ex) : Nat × Flags := encWide (Ex.add (decWide raw) x)

/-- One FP32 operation with its flags. -/
def fpRes (x : Ex) : Nat × Flags := encF ffp32 (plusZero x)

/-- An FP32 product, whose zero keeps its sign. -/
def fpMul (x y : Nat) : Nat × Flags := encF ffp32 (Ex.mul (f32 x) (f32 y))

/-! ### MX rows (R136) -/

/-- Blocks per row. -/
def mxBlocks (wfmt : Nat) : Nat := if wfmt == cMXFP4 then 120 else 62

/-- Weights and scale byte of block j of a row. -/
def UnitSt.mxBlock (u : UnitSt) (row : Bytes) (j : Nat) : List Ex × Nat :=
  if u.wfmt == cMXFP4 then
    ((rawsOf 4 (bytesAt row (16 * j) 16)).map (decU u.wfmt), fld row (1920 + j) 1)
  else ((rawsOf 8 (bytesAt row (32 * j) 32)).map (decU u.wfmt), fld row (1984 + j) 1)

/-- The scale byte of operand block j of vector v (R132). -/
def UnitSt.opScale (u : UnitSt) (v j : Nat) : Nat :=
  let i := areaWords u.wfmt * v + j % areaWords u.wfmt
  ((tget zeroWord (i / 32) u.scale).getD (i % 32) 0).toNat

/-- The value that block j contributes for vector v, with the flags of its inputs. -/
def UnitSt.mxTerm (u : UnitSt) (row : Bytes) (v lat j : Nat) : Ex × Flags :=
  let (w, sw) := u.mxBlock row j
  let a := u.operands (u.latchAt v (lat + j))
  let sa := u.opScale v (lat + j)
  let fl := nanFlags w ||| nanFlags a
  if sw = 255 || sa = 255 then (.nan, flagNan)
  else ((exSum (products w a)).scale ((sw : Int) + sa - 254), fl)

/-! ### CRD (R135) -/

/-- Partial (b, v) of a set. -/
def AccSet.get (a : AccSet) (b v : Nat) : Nat := a.vals.getD (4 * b + v) 0
def AccSet.put (a : AccSet) (b v x : Nat) : AccSet := { a with vals := a.vals.set (4 * b + v) x }
def UnitSt.accSet (u : UnitSt) (k : Nat) : AccSet := u.acc.getD (k % 4) .zero
def UnitSt.setAcc (u : UnitSt) (k : Nat) (a : AccSet) : UnitSt := { u with acc := u.acc.set (k % 4) a }
def UnitSt.flag (u : UnitSt) (f : Flags) : UnitSt := { u with flags := u.flags ||| f }
/-- R152, R153: the first error stays, and a sequence that runs or waits notes it. -/
def UnitSt.error (u : UnitSt) (e : Nat) : UnitSt :=
  { u with
    err := if u.err = 0 then e else u.err
    seq := u.seq.map (fun s => if s.erred = 0 then { s with erred := e } else s) }

/-- DOT of one bank for vector v: the new partial and the flags. `words` are the column words read,
each with its column number. A set that holds FP32 from a rescale (R143) and is added to in another
mode holds a value that the spec does not state: the free word. -/
def UnitSt.dotPart (u : UnitSt) (fp : Bool) (old v lat : Nat) (words : List (Nat × Bytes)) (free : Nat) : Nat × Flags :=
  if u.wfmt == cBF16 then
    words.foldl (fun (a : Nat × Flags) p =>
      let w := u.weights p.2
      let o := u.opsAt v lat p.1
      let (x, f) := fpRes (Ex.add (f32 a.1) (exSum (products w o)))
      (x, a.2 ||| nanFlags w ||| nanFlags o ||| f)) (old, 0)
  else if fp then (free, 0)
  else if isMX u.wfmt then
    let row := (words.map (fun p => p.2)).flatten
    (List.range (mxBlocks u.wfmt)).foldl (fun (a : Nat × Flags) j =>
      let (x, f) := u.mxTerm row v lat j
      let (y, g) := enterWindow (sext 16 u.anchor) 80 x
      let (r, h) := addWide a.1 y
      (r, a.2 ||| f ||| g ||| h)) (old, 0)
  else
    words.foldl (fun (a : Nat × Flags) p =>
      let w := u.weights p.2
      let o := u.opsAt v lat p.1
      let ps := products w o
      let fl := a.2 ||| nanFlags w ||| nanFlags o
      if u.wfmt == cCB4 then
        let (y, g) := enterAll (sext 16 u.anchor) 75 ps
        let (r, h) := addWide a.1 y
        (r, fl ||| g ||| h)
      else
        let (r, h) := addWide a.1 ((exSum ps).scale (-(wideExp u.wfmt u.afmt u.anchor)))
        (r, fl ||| h)) (old, 0)

/-- DOT over the words of the named banks; `free n` numbers free words. -/
def UnitSt.dot (u : UnitSt) (set : Nat) (clear : Bool) (lat : Nat) (banks : List (Nat × List (Nat × Bytes)))
    (free : Nat → Nat) : UnitSt :=
  let a := if clear then AccSet.zero else u.accSet set
  let wasFp := a.fp
  let (a, fl) := banks.foldl (fun (x : AccSet × Flags) p =>
    (List.range u.nvec).foldl (fun (y : AccSet × Flags) v =>
      let (r, f) := u.dotPart wasFp (y.1.get p.1 v) v lat p.2 (free (4 * p.1 + v))
      (y.1.put p.1 v r, y.2 ||| f)) x) (a, 0)
  (u.setAcc set { a with fp := wasFp || u.wfmt == cBF16 }).flag fl

/-- The exact sum of one SDOT segment for vector v. -/
def UnitSt.segSum (u : UnitSt) (v seg : Nat) (words : List (Nat × Bytes)) (row : Bytes) : Ex × Flags :=
  words.foldl (fun (a : Ex × Flags) p =>
    if isMX u.wfmt then
      -- blocks of this word, each with its scales; its operands lie at offset c mod seg
      let per := if u.wfmt == cMXFP4 then 2 else 1
      (List.range per).foldl (fun (y : Ex × Flags) i =>
        let j := per * p.1 + i
        if mxBlocks u.wfmt ≤ j then y
        else
          let (w, sw) := u.mxBlock row j
          let at' := per * (p.1 % seg) + i
          let o := u.operands (u.latchAt v at')
          let sa := u.opScale v at'
          let x := if sw = 255 || sa = 255 then Ex.nan else (exSum (products w o)).scale ((sw : Int) + sa - 254)
          (Ex.add y.1 x, y.2 ||| nanFlags [x] ||| nanFlags w ||| nanFlags o)) a
    else
      let w := u.weights p.2
      let o := u.opsAt v 0 (p.1 % seg)
      (Ex.add a.1 (exSum (products w o)), a.2 ||| nanFlags w ||| nanFlags o)) (.zero, 0)

/-- Segments of `seg` words each. -/
def segments (seg : Nat) : Nat → List (Nat × Bytes) → List (List (Nat × Bytes))
  | 0, _ => []
  | _, [] => []
  | fuel + 1, l => l.take seg :: segments seg fuel (l.drop seg)

/-- SDOT (R135). -/
def UnitSt.sdot (u : UnitSt) (e seg : Nat) (banks : List (Nat × List (Nat × Bytes))) : UnitSt :=
  let segs := banks.flatMap (fun p => (segments seg 64 p.2).map (fun s => (s, (p.2.map (fun x => x.2)).flatten)))
  (segs.foldl (fun (x : UnitSt × Nat) s =>
    let k := (e + x.2) % 64
    ((List.range u.nvec).foldl (fun (y : UnitSt) v =>
      let (sum, f) := u.segSum v seg s.1 s.2
      let (r, g) := fpRes (Ex.mul sum (plusZero (f32 (u.s.getD v 0))))
      let masked := u.mask.testBit (64 * v + k)
      { y with score := tset (64 * v + k) (if masked then f32NInf else r) y.score
               flags := y.flags ||| f ||| (if masked then 0 else g) }) x.1, x.2 + 1)) (u, 0)).1

/-- Replaces element i of a latch word. -/
def putElem (fmt : Nat) (w : Bytes) (i raw : Nat) : Bytes :=
  if latchElems fmt = 16 then putAt w (2 * i) (leBytes 2 raw) else putAt w i (leBytes 1 raw)

/-- Rewrites every element of a latch word through a function of its index and value, into a format. -/
def UnitSt.mapWord (u : UnitSt) (v off : Nat) (f : Nat → Ex → Ex) : UnitSt :=
  let old := u.latchAt v off
  let (w, fl) := (List.range (latchElems u.afmt)).foldl (fun (a : Bytes × Flags) i =>
    let x := (u.operands old).getD i .zero
    let (r, g) := encElem u.afmt (plusZero (f i x))
    (putElem u.afmt a.1 i r, a.2 ||| g ||| nanFlags [x])) (old, 0)
  (u.setLatch v off w).flag fl

/-- EW_ADD, EW_MUL, EW_MAX over the words of the named banks (R135): `op` 2, 3, 4. -/
def UnitSt.ew (u : UnitSt) (op lat : Nat) (banks : List (Nat × List (Nat × Bytes))) : UnitSt :=
  banks.foldl (fun (x : UnitSt) p =>
    p.2.foldl (fun (y : UnitSt) c =>
      let w := y.weights c.2
      let offs := y.pairOffs lat c.1
      let per := w.length / offs.length
      (List.range y.nvec).foldl (fun (z : UnitSt) v =>
        (List.range offs.length).foldl (fun (t : UnitSt) k =>
          t.mapWord v (offs.getD k 0) (fun i e =>
            let a := w.getD (k * per + i) .zero
            if op = 2 then Ex.add e a else if op = 3 then Ex.mul e a else Ex.max2 e a)) z)
        (y.flag (nanFlags w))) x) u

/-! ### Local kinds (R143, R147) -/

def UnitSt.scoreAt (u : UnitSt) (v e : Nat) : Nat := tget 0 (64 * v + e % 64) u.score

/-- The value of a partial (R124), for a conversion. -/
def UnitSt.partVal (u : UnitSt) (a : AccSet) (b v : Nat) : Ex :=
  if a.fp then f32 (a.get b v) else (decWide (a.get b v)).scale (wideExp u.wfmt u.afmt u.anchor)

def UnitSt.smax (u : UnitSt) (e count set : Nat) (rescale : Bool) : UnitSt :=
  (List.range u.nvec).foldl (fun (x : UnitSt) v =>
    let old := x.m.getD v 0
    let top := (List.range count).foldl (fun (a : Ex) i => Ex.max2 a (f32 (x.scoreAt v (e + i)))) (f32 old)
    let (new, f0) := encF ffp32 top
    let (r, f1) := if old = f32NInf && new = f32NInf then (f32One, 0) else
      (let (d, f) := fpRes (Ex.sub (f32 old) (f32 new)); let (y, g) := bankExp2 d; (y, f ||| g))
    let (l, f2) := fpMul (x.l.getD v 0) r
    let x := { x with m := x.m.set v new, l := x.l.set v l, flags := x.flags ||| f0 ||| f1 ||| f2 }
    if rescale then
      let a := x.accSet set
      let (a', f) := [0, 1].foldl (fun (y : AccSet × Flags) b =>
        let (c, g) := encF ffp32 (x.partVal a b v)
        let (p, h) := fpMul c r
        (y.1.put b v p, y.2 ||| g ||| h)) (a, 0)
      (x.setAcc set a').flag f
    else x) u
  |> fun x => if rescale then x.setAcc set { x.accSet set with fp := true } else x

def UnitSt.sexp (u : UnitSt) (e count lat out : Nat) : UnitSt :=
  (List.range u.nvec).foldl (fun (x : UnitSt) v =>
    let m := x.m.getD v 0
    let epe := latchElems out
    (List.range count).foldl (fun (y : UnitSt) i =>
      let word := lat + i / epe
      if m = f32NInf then
        (y.setLatch v word (putElem out (y.latchAt v word) (i % epe) 0)).flag flagMaskedRow
      else
        let (d, f) := fpRes (Ex.sub (f32 (y.scoreAt v (e + i))) (f32 m))
        let (p, g) := bankExp2 d
        let (l, h) := fpRes (Ex.add (f32 (y.l.getD v 0)) (f32 p))
        let (r, k) := encElem out (f32 p)
        let y := { y with l := y.l.set v l, flags := y.flags ||| f ||| g ||| h ||| k }
        y.setLatch v word (putElem out (y.latchAt v word) (i % epe) r)) x) u

/-- R147 on one latch word. -/
def permWord (table : Bytes) (esz n : Nat) (w : Bytes) : Bytes × Flags :=
  let k := if esz = 1 then 16 else 32
  let elem := fun (i : Nat) => if esz = 1 then fld w (2 * i) 2 else fld w i 1
  let fmt := if esz = 1 then cBF16 else cUINT8
  (List.range k).foldl (fun (a : Bytes × Flags) i =>
    let t := fld table i 1
    if n ≤ i || t.testBit 7 then (putElem fmt a.1 i 0, a.2)
    else if n ≤ t then (putElem fmt a.1 i 0, a.2 ||| flagPermOor)
    else (putElem fmt a.1 i (elem t), a.2)) (w, 0)

def UnitSt.lperm (u : UnitSt) (lat count esz n : Nat) : UnitSt :=
  (List.range u.nvec).foldl (fun (x : UnitSt) v =>
    (List.range count).foldl (fun (y : UnitSt) i =>
      let (w, f) := permWord y.tab.table esz n (y.latchAt v (lat + i))
      (y.setLatch v (lat + i) w).flag f) x) u

def UnitSt.lew (u : UnitSt) (lat count op : Nat) : UnitSt :=
  (List.range u.nvec).foldl (fun (x : UnitSt) v =>
    let s := plusZero (f32 (x.s.getD v 0))
    (List.range count).foldl (fun (y : UnitSt) i =>
      (y.mapWord v (lat + i) (fun _ e =>
        if op = 0 then Ex.mul e s else if op = 1 then Ex.add e s else Ex.max2 e s)).flag (nanFlags [s])) x) u

/-- An exact value as a wide partial; where it is no whole number of the unit the spec states no
value, and the free word stands. -/
def wideOf (unit : Int) (x : Ex) (free : Nat) : Nat :=
  match x with
  | .q s n d e =>
    let y := Ex.q s n d (e - unit)
    if Ex.eqv y (Ex.ofInt (rneInt y)) then (encWide y).1 else free
  | y => (encWide y).1

/-- LSTAT (R143): Σx and Σx² of each vector. -/
def UnitSt.lstat (u : UnitSt) (lat count set : Nat) (free : Nat → Nat) : UnitSt :=
  let bf := u.afmt == cBF16
  let (a, fl) := (List.range u.nvec).foldl (fun (p : AccSet × Flags) v =>
    let xs := (List.range count).flatMap (fun i => u.operands (u.latchAt v (lat + i)))
    let sq := xs.map (fun x => Ex.mul x x)
    if bf then
      let run := fun (l : List Ex) => l.foldl (fun (a : Nat × Flags) x =>
        let (r, f) := fpRes (Ex.add (f32 a.1) x); (r, a.2 ||| f)) (0, 0)
      -- the square of a BF16 value is exact, and enters the FP32 sum with one rounding
      let (s1, f1) := run xs
      let (s2, f2) := run sq
      ((p.1.put 0 v s1).put 1 v s2, p.2 ||| f1 ||| f2 ||| nanFlags xs)
    else
      let un := wideExp u.wfmt u.afmt u.anchor
      ((p.1.put 0 v (wideOf un (exSum xs) (free v))).put 1 v (wideOf un (exSum sq) (free (4 + v))),
        p.2 ||| nanFlags xs)) (u.accSet set, 0)
  (u.setAcc set { a with fp := bf }).flag fl

end Sys2Proof.Machine
end

