-- ==== Sys2Proof/Machine/Seq.lean ====
section
/-! DEFINITION. Compute slots (R98, R99), unit commands (R130 to R141), the
sequences they run step by step (R142, R144), and the reduction trees (R164, R165). -/

namespace Sys2Proof.Machine
open Sys2Proof

/-! ### Units, jobs and their errors -/

def Blk.setJobs (b : Blk) (j : List Job) : Blk := { b with cu := { b.cu with jobs := j } }
def Blk.setTrees (b : Blk) (t : List TreeCtx) : Blk := { b with cu := { b.cu with trees := t } }

def Job.is (j : Job) (q seq : Nat) : Bool := j.q == q && j.seq == seq
def Blk.job? (b : Blk) (q seq : Nat) : Option Job := b.cu.jobs.find? (fun j => j.is q seq)
def Blk.updJob (b : Blk) (q seq : Nat) (f : Job → Job) : Blk :=
  b.setJobs (b.cu.jobs.map (fun j => if j.is q seq then f j else j))

def UCmd.ownedBy (c : UCmd) (q seq : Nat) : Bool := c.own == some (q, seq)

/-- The units that a command names (R130). -/
def UCmd.units (c : UCmd) : List Nat := (bitsSet c.mask 16).map (unitNo c.ch)

/-- Whether a unit, a transfer or a held command still works for an operation. -/
def Blk.jobBusy (b : Blk) (q seq : Nat) : Bool :=
  b.cu.waiting.any (fun c => c.ownedBy q seq)
    || b.cu.units.any (fun p =>
      (match p.2.seq with | some s => s.cmd.ownedBy q seq | none => false)
        || p.2.xfers.any (fun x => x.cmd.ownedBy q seq))

/-- R153: an error of a unit reaches the sequencer: no further command of the operation is issued, and those
that stack controllers hold for it are dropped. -/
def Blk.jobNote (b : Blk) (own : Option (Nat × Nat)) (u st : Nat) : Blk :=
  match own with
  | none => b
  | some (q, seq) =>
    let b := b.updJob q seq (fun j => { j with errs := (u, st) :: j.errs, prog := [], rows := [], chans := [], failed := true })
    { b with cu := { b.cu with waiting := b.cu.waiting.filter (fun c => !c.ownedBy q seq) } }

/-- The status of the lowest-numbered unit that reported one (R153). -/
def lowestErr : List (Nat × Nat) → Nat
  | [] => stOK
  | p :: t => (t.foldl (fun (a : Nat × Nat) x => if x.1 ≤ a.1 then x else a) p).2

/-- A unit after the end of an operation: a slot kept for it goes, and the compute mode that it entered for
it and never left, as after an error, ends (log 65). -/
def UnitSt.freed (x : UnitSt) (own : Nat × Nat) : UnitSt :=
  if x.seq.isSome then x
  else
    let x := if x.keptFor == some own then { x with slot := none, released := none, keptFor := none } else x
    if x.pimFor == some own then { x with inPim := false, pimFor := none, cur := [none, none], pend := [none, none] } else x

/-- Anchors that an operation has not written go back to the copy of its block table (R183). -/
def Blk.keepAnchors (b : Blk) (j : Job) : Blk :=
  match b.flight? j.q j.seq with
  | none => b
  | some f => { b with plans := b.plans.map (fun (p : PlanCopy) =>
      if p.kind == 1 && p.handle == eHandle f.raw 1 then { p with todo := p.todo ++ j.anchors } else p) }

/-- Ends an operation: its contexts and units are freed, what an error leaves undefined in memory is so
(R204), and its entry is finished. -/
def Blk.jobEnd (b : Blk) (j : Job) (st flags result : Nat) : Blk :=
  let b := if isErr st then (b.keepAnchors j) |> fun b => j.spoil.foldl (fun (b : Blk) s => b.spoilRange s.1 s.2) b else b
  let b := b.setTrees (b.cu.trees.filter (fun t => !(t.q == j.q && t.seq == j.seq)))
  let b := b.setJobs (b.cu.jobs.filter (fun k => !k.is j.q j.seq))
  let b := { b with cu := { b.cu with units := b.cu.units.map (fun (p : Nat × UnitSt) => (p.1, p.2.freed (j.q, j.seq))) } }
  b.finish j.q j.seq st flags result

/-- An operation that failed ends once nothing works for it any more. Others end when their
program has run or their last result is written. -/
def Blk.jobSettle (b : Blk) (own : Option (Nat × Nat)) : Blk :=
  match own with
  | none => b
  | some (q, seq) =>
    match b.job? q seq with
    | none => b
    | some j => if j.failed && !b.jobBusy q seq then b.jobEnd j (lowestErr j.errs) j.flags j.result else b

/-! ### Slots (R98, R99) -/

/-- Units of a die that hold a slot. -/
def Blk.holders (b : Blk) (die : Nat) : List (Nat × Nat) :=
  b.cu.units.filterMap (fun p => if unitDie p.1 = die then p.2.slot.map (fun g => (p.1, g)) else none)

/-- Whether a sequence needs a slot: all but a direct ACC_RD do (R151). -/
def SeqSt.needs (s : SeqSt) : Bool := !(s.direct.any (fun w => bits w 63 60 == 6))

/-- R194: a command that begins a block of a BANK_ATTN waits for the block's slot. -/
def Blk.takesSlot (b : Blk) (c : UCmd) : Bool :=
  c.op == 1 && c.body.testBit 43 && c.hold && (match c.own with
    | some (q, seq) => ((b.flight? q seq).map (fun f => eOpcode f.raw)).getD 0 == 0x11
    | none => false)

/-- Whether a held block waits for a slot of the unit. -/
def Blk.wantsSlot (b : Blk) (u : Nat) : Bool := b.cu.waiting.any (fun c => c.units.contains u && b.takesSlot c)

/-- Rank of a unit that waits for a slot: yielded ones in grant order, then those that R174 released,
then the oldest. -/
def UnitSt.waitRank (x : UnitSt) : Option (Nat × Nat) :=
  match x.seq with
  | none => if x.slot.isSome then none else x.wants.map (fun a => (2, a))
  | some s =>
    if x.slot.isSome || !s.needs then none
    else if s.yielded then some (0, s.age)
    else match x.released with
      | some r => some (1, r)
      | none => some (2, s.age)

def rankLt (a b : (Nat × Nat) × Nat) : Bool :=
  decide (a.1.1 < b.1.1) || (a.1.1 == b.1.1 && (decide (a.1.2 < b.1.2) || (a.1.2 == b.1.2 && decide (a.2 < b.2))))

/-- The unit of a die that is granted next; while the die goes to self-refresh only sequences that have
begun are, so that they reach their end (R107). -/
def Blk.nextGrant (b : Blk) (die : Nat) : Option Nat :=
  let l := b.cu.units.filterMap (fun p =>
    if unitDie p.1 = die && (p.2.seq.isSome || b.wantsSlot p.1) && (b.eligMask die).testBit (p.1 % 32) && !b.sdg.withdrawn.contains p.1
        && ((b.die die).sr == .awake || ((b.die die).sr == .entering && (p.2.seq.map SeqSt.begun).getD false))
      then p.2.waitRank.map (fun r => (r, p.1)) else none)
  match l with
  | [] => none
  | a :: t => some (t.foldl (fun x y => if rankLt y x then y else x) a).2

/-- Grants free slots, at most `fuel` of them. -/
def Blk.grantN (b : Blk) (die : Nat) : Nat → Blk
  | 0 => b
  | fuel + 1 =>
    if (b.holders die).length < (b.die die).allow then
      match b.nextGrant die with
      | none => b
      | some u =>
        let x := b.unit u
        let b := b.setUnit u { x with slot := some b.cu.age, released := none, wants := none
                                      seq := x.seq.map (fun s => { s with yielded := false }) }
        ({ b with cu := { b.cu with age := b.cu.age + 1 } }).grantN die fuel
    else b

def Blk.grant (b : Blk) (die : Nat) : Blk := b.grantN die 16

/-- Whether a unit is among the most recent grants beyond the allowance. -/
def Blk.mustYield (b : Blk) (u : Nat) : Bool :=
  match (b.unit u).slot with
  | none => false
  | some g =>
    let h := b.holders (unitDie u)
    decide ((b.die (unitDie u)).allow ≤ (h.filter (fun p => decide (p.2 < g))).length)

/-- R105: the operation of a sequence completes as PREEMPTED. -/
def Blk.notePreempt (b : Blk) (u : Nat) (s : SeqSt) : Blk :=
  let b := b.incReg (bSC (unitStack u) + 0xB0)
  match s.cmd.own with
  | none => b
  | some (q, seq) => b.updFlight q seq (fun f => { f with preempted := true })

/-- A yield at a step boundary: the slot goes, the state stays. -/
def Blk.yieldUnit (b : Blk) (u : Nat) : Blk :=
  let x := b.unit u
  match x.seq, x.slot with
  | some s, some g =>
    b.setUnit u { x with slot := none, seq := some { s with yielded := true, age := g } }
    |> fun b => match s.cmd.own with
      | none => b
      | some (q, seq) => b.updFlight q seq (fun f => { f with preempted := true })
  | _, _ => b

def Blk.yieldIf (b : Blk) (u : Nat) : Blk := if b.mustYield u then b.yieldUnit u else b

/-! ### Reduction trees (R164, R165) -/

/-- Contexts are counted by operation and window group; the rows of a BANK_NORM and the passes of a
BANK_ATTN share one. -/
def ctxGroup (t : TreeCtx) : Nat × Nat × Nat := (t.q, t.seq, t.win / 2 ^ 20)

def Blk.ctx? (b : Blk) (q seq stack win : Nat) : Option TreeCtx :=
  b.cu.trees.find? (fun t => t.q == q && t.seq == seq && t.stack == stack && t.win == win)

/-- A context for a command's window, where one is free; none where the command must wait. A BANK_ATTN
holds one context in a stack from its first block there to its completion (R201). -/
def Blk.attachCtx (b : Blk) (j : Job) (c : UCmd) : Option Blk :=
  match c.win with
  | none => some b
  | some w =>
    let s := stackOfCh c.ch
    match b.ctx? j.q j.seq s w with
    | some _ => some b
    | none =>
      let held := (b.cu.jobs.filter (fun k => k.stacksHeld.contains s)).map (fun k => (k.q, k.seq, 0))
      let groups := ((b.cu.trees.filter (fun t => t.stack == s)).map ctxGroup ++ held).eraseDups
      let g := (j.q, j.seq, w / 2 ^ 20)
      if groups.contains g || groups.length < 4 then
        let b := if j.heads.isEmpty || j.stacksHeld.contains s then b
          else b.updJob j.q j.seq (fun k => { k with stacksHeld := s :: k.stacksHeld })
        let left := (j.prog.filter (fun d => d.fin && d.win == some w && stackOfCh d.ch == s)).foldl (fun a d => a + popc d.mask 16) 0
        some (b.setTrees (b.cu.trees ++ [⟨j.q, j.seq, s, w, [], 0, none, left, []⟩]))
      else none

/-- Inserts an FP32 partial in record order. -/
def insFp (p : Nat × Nat × Nat) : List (Nat × Nat × Nat) → List (Nat × Nat × Nat)
  | [] => [p]
  | a :: t => if p.1 < a.1 then p :: a :: t else a :: insFp p t

def TagAcc.zero : TagAcc := ⟨0, []⟩

/-- Adds the partials of a transfer, tag by tag, with the flags of the sums (R129). -/
def addParts (fp : Bool) (item die : Nat) : Nat → List Nat → Tbl TagAcc → Tbl TagAcc × Flags
  | _, [], t => (t, 0)
  | tag, r :: rest, t =>
    let a := tget .zero (tag % 65536) t
    let (w, f) := addWide a.wide (decWide r)
    let a' := if fp then { a with fps := insFp (item, die, r) a.fps } else { a with wide := w }
    let (u, g) := addParts fp item die (tag + 1) rest (tset (tag % 65536) a' t)
    (u, (if fp then 0 else f) ||| g)

/-- The lower-numbered of two errors. -/
def lowErr (a : Option (Nat × Nat)) (u e : Nat) : Option (Nat × Nat) :=
  if e = 0 then a else match a with
    | some (k, c) => if k ≤ u then some (k, c) else some (u, e)
    | none => some (u, e)

/-- R165: a transfer and its status word reach the tree. -/
def Blk.deliver (b : Blk) (u : Nat) (x : Xfer) : Blk :=
  match x.cmd.own, x.cmd.win with
  | some (q, seq), some w =>
    let s := unitStack u
    let b := b.setTrees (b.cu.trees.map (fun t =>
      if t.q == q && t.seq == seq && t.stack == s && t.win == w then
        let r := addParts x.fp x.cmd.item (unitDie u) x.tag x.parts t.tags
        { t with tags := r.1
                 flags := t.flags ||| x.flags ||| r.2
                 err := lowErr t.err u x.err
                 left := if x.fin then t.left - 1 else t.left
                 sat := if x.flags &&& flagSat != 0 then x.cmd.item :: t.sat else t.sat }
      else t))
    let b := b.updJob q seq (fun j => { j with flags := j.flags ||| x.flags })
    if x.err != 0 then (b.jobNote (some (q, seq)) u x.err).jobSettle (some (q, seq)) else b
  | _, _ => b

/-! ### Ending sequences -/

/-- R153: what an error leaves undefined in the unit. -/
def UnitSt.undefine (x : UnitSt) (n : Nat) : UnitSt :=
  { x with
    acc := (List.range 4).map (fun k => ⟨false, (List.range 8).map (fun i => (Config.freeWord (n + 8 * k + i)).toNat)⟩)
    latch := (List.range 256).map (fun k => (k, (List.range 32).map (Config.freeByte (n + k))))
    score := (List.range 256).map (fun k => (k, (Config.freeWord (n + 32 + k)).toNat)) }

/-- Ends the sequence of a unit with a status (0 for success). The pending rows stay while the unit's
command sequence goes on (R133; steps 5 and 6 of R161 and the worked example after R153 switch in at
the second STEP_GO the rows that the first pre-activated; DEDUCED, log 25). -/
def Blk.closeSeq (b : Blk) (u st : Nat) : Blk :=
  let x := b.unit u
  match x.seq with
  | none => b
  | some s =>
    let bad := s.erred != 0
    let st := if st != 0 then st else s.erred
    let x := if bad then x.undefine b.ctr else x
    let b := if bad then { b with ctr := b.ctr + 512 } else b
    let keep := s.cmd.hold && st == 0
    -- R174: the slot is released after the row's partials, and asked for again ahead of others
    let release := keep && s.cmd.fin && ((s.cmd.own.bind (fun o => b.flight? o.1 o.2)).map (fun f => eOpcode f.raw)).getD 0 == 0x13
    let b := b.setUnit u { x with seq := none
                                  pend := if st == 0 && (s.cmd.hold || s.cmd.own.isNone) then x.pend else [none, none]
                                  slot := if keep && !release then x.slot else none
                                  released := if release then some b.cu.age else none
                                  keptFor := if keep then s.cmd.own else none }
    let b := if release then { b with cu := { b.cu with age := b.cu.age + 1 } } else b
    let b := match s.cmd.own with
      | some (q, seq) => b.updJob q seq (fun j => { j with
          flags := j.flags ||| x.flags
          anchors := if st == 0 && s.cmd.op == 5 then j.anchors.eraseP (fun a => a.1 == u) else j.anchors })
      | none => b
    if st != 0 then b.jobNote s.cmd.own u st else b

/-! ### Opening rows (R133, R67, R72, R80) -/

/-- Whether the segment of a row refuses units: 0, CLASS_MISMATCH or RANGE. -/
def Blk.rowStatus (b : Blk) (ch bank row : Nat) (new : Bool) : Nat :=
  match b.struc.rowMpa ch bank row with
  | none => stRANGE
  | some a =>
    let seg := a / 0x200000
    if b.struc.isRetired seg then stRANGE
    else if !(b.seg seg).isOpen then stCLASS
    else if new && b.mem.convs.any (fun c => c.now.contains seg || c.rest.contains seg) then stCLASS
    else 0

/-- The path and pair of the operation that a command serves. -/
def Blk.unitReq (b : Blk) (own : Option (Nat × Nat)) : Req :=
  match own with
  | none => ⟨8, cCompute, none, pINT⟩
  | some (q, seq) => ⟨8, cCompute, some q, ((b.flight? q seq).map Flight.path).getD pINT⟩

/-- R72, R86: a unit command aimed at a row that may not be used: it is logged, and the sequence stops
with the status at its step boundary. -/
def Blk.refuseRow (b : Blk) (u side row st : Nat) (own : Option (Nat × Nat)) : Blk :=
  let b := logMem b kMEM_UNITREF (b.unitReq own) (gidOf (unitCh u) (unitBank u side) row 0) none st
  let x := b.unit u
  let x := if st = stCLASS then x.error st else x
  b.setUnit u { x with seq := x.seq.map (fun s => { s with stop := st }) }

/-- Checks a row before it opens: a fresh segment is initialised; a refusal is logged and stops the
sequence at its step boundary. -/
def Blk.openRow (b : Blk) (u side row : Nat) (new : Bool) (own : Option (Nat × Nat)) : Blk × Bool :=
  let ch := unitCh u
  let bank := unitBank u side
  let st := b.rowStatus ch bank row new
  if st = 0 then
    let seg := ((b.struc.rowMpa ch bank row).getD 0) / 0x200000
    (if (b.seg seg).fresh then initSeg b cCompute seg else b, true)
  else (b.refuseRow u side row st own, false)

/-- R72: the row that a column step finds current may still be used; a row whose segment has left the open
class or the mapping is refused. -/
def Blk.useRow (b : Blk) (u side : Nat) (own : Option (Nat × Nat)) : Blk × Bool :=
  match (b.unit u).cur.getD side none with
  | none => (b, true)
  | some row =>
    let st := b.rowStatus (unitCh u) (unitBank u side) row false
    if st = 0 then (b, true) else (b.refuseRow u side row st own, false)

/-! ### Steps -/

/-- Bank sides that a two-bit field names. -/
def sides (m : Nat) : List Nat := (if m.testBit 0 then [0] else []) ++ (if m.testBit 1 then [1] else [])

def setRow (l : List (Option Nat)) (side : Nat) (r : Option Nat) : List (Option Nat) := l.set side r

/-- CACT (R133). -/
def Blk.stepCact (b : Blk) (u body : Nat) (new : Bool) (own : Option (Nat × Nat)) : Blk :=
  let pend := body.testBit 41
  (sides (bits body 43 42)).foldl (fun (b : Blk) s =>
    let row := if s = 0 then bits body 40 26 else bits body 25 11
    let (b, ok) := b.openRow u s row new own
    if !ok then b
    else
      let x := b.unit u
      let cur := x.cur.getD s none
      let same := cur.any (fun c => c % 8 == row % 8)
      if pend && !same then b.setUnit u { x with pend := setRow x.pend s (some row) }
      else b.setUnit u { x with cur := setRow x.cur s (some row) }) b

/-- Switches to the pending rows and pre-activates the next (R134 stream). -/
def Blk.streamRows (b : Blk) (u : Nat) (banks : List Nat) (step : Nat) (own : Option (Nat × Nat)) : Blk :=
  let b := banks.foldl (fun (b : Blk) s =>
    let x := b.unit u
    match x.pend.getD s none with
    | some r => b.setUnit u { x with cur := setRow x.cur s (some r), pend := setRow x.pend s none }
    | none => b) b
  if step = 0 then b
  else banks.foldl (fun (b : Blk) s =>
    match (b.unit u).cur.getD s none with
    | none => b
    | some r =>
      let row := (r + step) % 32768
      let (b, ok) := b.openRow u s row false own
      if ok then (let x := b.unit u; b.setUnit u { x with pend := setRow x.pend s (some row) }) else b) b

/-- R134, R136: the order in which a CRD reads groups: from the named banks by turns, column by column,
and in MX formats the group with the scales first. -/
def readOrder (wfmt : Nat) (banks : List Nat) (gf gc : Nat) : List (Nat × Nat) :=
  let gs := (List.range gc).map (gf + ·)
  let gs := if isMX wfmt then gs.filter (· == 7) ++ gs.filter (· != 7) else gs
  gs.flatMap (fun g => banks.map (fun s => (s, g)))

/-- The group of a unit's current row on a side. -/
def Blk.unitGroup (b : Blk) (u side grp : Nat) : Option Nat :=
  ((b.unit u).cur.getD side none).map (fun row => gidOf (unitCh u) (unitBank u side) row grp)

/-- R150: what the check of one group leaves: its log entry, and the unit's error code where it fails; a
side without a current row gives INTERNAL. -/
def Blk.checkGroup (b : Blk) (u side grp : Nat) (own : Option (Nat × Nat)) : Blk :=
  match b.unitGroup u side grp with
  | none => b.setUnit u ((b.unit u).error stINTERNAL)
  | some g =>
    let r := readOpen b (b.unitReq own) g (b.struc.groupMpa? g)
    if r.st != stOK then r.b.setUnit u ((r.b.unit u).error r.st) else r.b

/-- The column words that groups of the current row of one side deliver, with their column numbers. -/
def Blk.groupWords (b : Blk) (u side gf gc : Nat) (own : Option (Nat × Nat)) : List (Nat × Bytes) :=
  (List.range gc).flatMap (fun k =>
    match b.unitGroup u side (gf + k) with
    | none => []
    | some g =>
      let d := (readOpen b (b.unitReq own) g none).data
      (List.range 8).map (fun c => (8 * (gf + k) + c, bytesAt d (32 * c) 32)))

/-- CRD (R134, R135) with its set and latch field already adjusted. -/
def Blk.stepCrd (b : Blk) (u body set lat : Nat) (own : Option (Nat × Nat)) : Blk :=
  let op := bits body 43 41
  let banks := sides (bits body 40 39)
  let gf := bits body 38 36
  let gc := bits body 35 33 + 1
  let b := if body.testBit 29 then b.streamRows u banks (bits body 28 25) own else b
  let (b, ok) := banks.foldl (fun (a : Blk × Bool) s => if a.2 then a.1.useRow u s own else a) (b, true)
  if !ok then b
  else
    let data := banks.map (fun s => (s, b.groupWords u s gf gc own))
    let b := (readOrder (b.unit u).wfmt banks gf gc).foldl (fun (b : Blk) p => b.checkGroup u p.1 p.2 own) b
    let n := b.ctr
    let x := b.unit u
    if op = 0 then
      ({ b with ctr := n + 8 }).setUnit u (x.dot set (body.testBit 30) lat data (fun k => (Config.freeWord (n + k)).toNat))
    else if op = 1 then b.setUnit u (x.sdot lat (2 ^ bits body 16 14) data)
    else b.setUnit u (x.ew op lat data)

/-- CWR (R137, R150). -/
def Blk.stepCwr (b : Blk) (u body lat : Nat) (own : Option (Nat × Nat)) : Blk :=
  let side := bits body 43 43
  let gf := bits body 42 40
  let gc := bits body 39 37 + 1
  let (b, ok) := b.useRow u side own
  let x := b.unit u
  if !ok then b
  else match x.cur.getD side none with
  | none => b.setUnit u (x.error stINTERNAL)
  | some row =>
    (List.range gc).foldl (fun (b : Blk) k =>
      let g := gidOf (unitCh u) (unitBank u side) row (gf + k)
      let b0 := ((groupMargin b.mem.cells g true).getD 0 0).toNat
      if b0 / 64 = 3 then b.setUnit u ((b.unit u).error stCHECK)
      else
        let d := (List.range 8).flatMap (fun c => tget zeroWord ((lat + 8 * k + c) % 256) x.latch)
        putOpen b g d 1 (b0 % 64 + 1)) b

/-- The partials of the sets that an ACC_RD reads, in the order set, bank, vector. -/
def UnitSt.partsOf (x : UnitSt) (sets : List Nat) : List (AccSet × Nat × Nat) :=
  sets.flatMap (fun k => [0, 1].flatMap (fun s => (List.range x.nvec).map (fun v => (x.accSet k, s, v))))

/-- Target formats of a conversion into the latch (R138). -/
def cvtOk (f : Nat) : Bool :=
  [cFP32, cBF16, cFP16, cE4M3, cE5M2, cINT8, cUINT8, cINT32].contains f

/-- Packs raw values from a latch word, absolute. -/
def packLatch (t : Tbl Bytes) (lat size : Nat) (l : List Nat) : Tbl Bytes :=
  let d := l.flatMap (leBytes size)
  (List.range (cdiv d.length 32)).foldl (fun t i =>
    let k := (lat + i) % 256
    let old := tget zeroWord k t
    let part := (d.drop (32 * i)).take 32
    tset k (part ++ old.drop part.length) t) t

/-- ACC_RD (R138) with its sets, tag and latch word adjusted. -/
def Blk.stepAccRd (b : Blk) (u body : Nat) (sets : List Nat) (tag lat : Nat) (cmd : UCmd) (last : Bool) : Blk :=
  let x := b.unit u
  let ps := x.partsOf sets
  let cleared := fun (y : UnitSt) => if body.testBit 5 then sets.foldl (fun (z : UnitSt) k => z.setAcc k .zero) y else y
  if bits body 43 42 = 0 then
    let fp := x.wfmt == cBF16 || ps.any (fun p => p.1.fp)
    let t : Xfer :=
      { sets := sets, tag := tag, fp := fp, parts := ps.map (fun p => p.1.get p.2.1 p.2.2), flags := x.flags, err := x.err
        cmd := cmd, fin := cmd.fin && last }
    b.setUnit u { cleared x with flags := 0, xfers := x.xfers ++ [t] }
  else
    let f := bits body 37 30
    let rs := ps.map (fun p => encElem f (plusZero (x.partVal p.1 p.2.1 p.2.2)))
    let y := cleared { x with latch := packLatch x.latch lat (fmtBits f / 8) (rs.map (fun r => r.1)) }
    b.setUnit u (rs.foldl (fun (z : UnitSt) r => z.flag r.2) y)

/-! ### Step-list entries (R142) -/

def eKind (e : Nat) : Nat := bits e 63 60
def eBody (e : Nat) : Nat := e % 2 ^ 44

/-- Whether an entry is a valid step for a mode (R134, R138, R142, R143, R147). -/
def entryOk (wfmt e : Nat) : Bool :=
  let y := eBody e
  let z := fun (hi lo : Nat) => bits y hi lo == 0
  let k := eKind e
  bits e 56 44 == 0 &&
  (if k = 3 then bits y 43 42 != 0 && z 10 0
   else if k = 4 then
     decide (bits y 43 41 ≤ 4) && bits y 40 39 != 0 && decide (bits y 38 36 + bits y 35 33 + 1 ≤ 8)
       && (!isMX wfmt || (bits y 38 36 == 0 && bits y 35 33 == 7)) && bits y 28 25 != 8
       && decide (bits y 16 14 ≤ 3) && z 13 0
   else if k = 5 then decide (bits y 42 40 + bits y 39 37 + 1 ≤ 8) && z 28 0
   else if k = 6 then
     decide (bits y 43 42 ≤ 1) && decide (bits y 41 40 + bits y 39 38 + 1 ≤ 4) && z 4 0
       && (bits y 43 42 == 0 || cvtOk (bits y 37 30))
   else if k = 0xA then decide (bits y 35 28 ≤ 63)
   else if k = 0xB then decide (bits y 35 28 ≤ 63) && [cBF16, cE4M3, cE5M2].contains (bits y 19 12)
   else if k = 0xC then
     z 20 0 && decide (1 ≤ bits y 26 21) && decide (bits y 26 21 ≤ (if y.testBit 27 then 16 else 32))
   else if k = 0xD then decide (bits y 27 25 ≤ 2)
   else k == 0xE)

/-- Latch words or score entries that an entry covers (R142). -/
def UnitSt.covers (x : UnitSt) (e : Nat) : Nat :=
  let y := eBody e
  let k := eKind e
  if k = 4 then
    let words := 8 * (bits y 35 33 + 1)
    if bits y 43 41 = 1 then (sides (bits y 40 39)).length * (words / 2 ^ bits y 16 14)
    else if laneFour x.wfmt then 2 * words else words
  else if k = 5 then 8 * (bits y 39 37 + 1)
  else if k = 6 then cdiv (2 * x.nvec * (bits y 39 38 + 1) * (fmtBits (bits y 37 30) / 8)) 32
  else if k = 0xB then cdiv (bits y 35 28 + 1) (latchElems (bits y 19 12))
  else bits y 35 28 + 1

/-- The entry at which a sequence stands. -/
def UnitSt.entry (x : UnitSt) (s : SeqSt) : Nat :=
  match s.direct with
  | some w => w
  | none => tget 0 s.i x.steps

/-- The adjusted set of an entry in repetition n. -/
def adjSet (e n set : Nat) : Nat := if e.testBit 59 then (set + n) % 4 else set
def UnitSt.adjLat (x : UnitSt) (e n lat : Nat) : Nat := if e.testBit 57 then (lat + n * x.covers e) % 256 else lat

/-- The sets that an entry clears, writes or rescales. -/
def setsWritten (e n : Nat) : List Nat :=
  let y := eBody e
  let k := eKind e
  if k = 4 && bits y 43 41 == 0 then [adjSet e n (bits y 32 31)]
  else if k = 6 && y.testBit 5 then (List.range (bits y 39 38 + 1)).map (fun i => (adjSet e n (bits y 41 40) + i) % 4)
  else if k = 0xA && y.testBit 25 then [adjSet e n (bits y 27 26)]
  else if k = 0xE then [adjSet e n (bits y 27 26)]
  else []

/-- R144: whether a step waits for a transfer in flight. -/
def UnitSt.stalls (x : UnitSt) (e n : Nat) : Bool :=
  (setsWritten e n).any (fun k => x.xfers.any (fun t => t.sets.contains k))

/-- Whether the step at which a sequence stands needs a compute slot: every kind but ACC_RD does, and a
STEP_GO waits for its slot before its first step (R151). -/
def SeqSt.needsSlot (s : SeqSt) (kind : Nat) : Bool := kind != 6 || (s.direct.isNone && !s.begun)

/-- The words that an ACC_RD step moves on the channel pins, in bytes (R88, R130). -/
def UnitSt.accBytes (x : UnitSt) (e : Nat) : Nat :=
  if eKind e = 6 && bits (eBody e) 43 42 == 0 then
    2 * x.nvec * (bits (eBody e) 39 38 + 1) * (if x.wfmt == cBF16 then 4 else 12) + 4
  else 0

/-- Whether a unit may take its next step now. -/
def Blk.stepReady (b : Blk) (u : Nat) : Bool :=
  let x := b.unit u
  match x.seq with
  | none => false
  | some s =>
    let e := x.entry s
    !s.inStep && !s.yielded && s.stop == 0 && s.erred == 0 && (x.slot.isSome || !s.needsSlot (eKind e))
      && !(b.pair (unitCh u) (unitPair u)).urgent && !(b.die (unitDie u)).refused
      && ((b.die (unitDie u)).sr == .awake || ((b.die (unitDie u)).sr == .entering && s.begun)) && !x.stalls e s.n

/-- Runs the step at which a unit stands, if it is of the kind. -/
def Blk.runStep (b : Blk) (u kind : Nat) : Blk :=
  let x := b.unit u
  match x.seq with
  | none => b
  | some s =>
    let e := x.entry s
    let y := eBody e
    if eKind e != kind || !b.stepReady u then b
    else
      match b.pay (unitCh u) cCompute (3 * cdiv (x.accBytes e) 128) with
      | none => b
      | some b =>
        let own := s.cmd.own
        let b := b.setUnit u { x with seq := some { s with inStep := true, begun := true, preempted := false }, asked := none }
        let x := b.unit u
        let last := decide (s.i = s.last) && decide (s.n + 1 = s.reps)
        if kind = 3 then b.stepCact u y true own
        else if kind = 4 then b.stepCrd u y (adjSet e s.n (bits y 32 31)) (x.adjLat e s.n (bits y 24 17)) own
        else if kind = 5 then b.stepCwr u y (x.adjLat e s.n (bits y 36 29)) own
        else if kind = 6 then
          let first := adjSet e s.n (bits y 41 40)
          let sets := (List.range (bits y 39 38 + 1)).map (fun i => (first + i) % 4)
          let per := 2 * x.nvec * sets.length
          let tag := if e.testBit 58 then bits y 29 14 + s.n * per else bits y 29 14
          b.stepAccRd u y sets (tag % 65536) (x.adjLat e s.n (bits y 13 6)) s.cmd last
        else if kind = 0xA then
          b.setUnit u (x.smax (bits y 43 36) (bits y 35 28 + 1) (adjSet e s.n (bits y 27 26)) (y.testBit 25))
        else if kind = 0xB then
          b.setUnit u (x.sexp (bits y 43 36) (bits y 35 28 + 1) (x.adjLat e s.n (bits y 27 20)) (bits y 19 12))
        else if kind = 0xC then
          b.setUnit u (x.lperm (x.adjLat e s.n (bits y 43 36)) (bits y 35 28 + 1) (bits y 27 27) (bits y 26 21))
        else if kind = 0xD then
          b.setUnit u (x.lew (x.adjLat e s.n (bits y 43 36)) (bits y 35 28 + 1) (bits y 27 25))
        else
          let n := b.ctr
          ({ b with ctr := n + 8 }).setUnit u
            (x.lstat (x.adjLat e s.n (bits y 43 36)) (bits y 35 28 + 1) (adjSet e s.n (bits y 27 26))
              (fun k => (Config.freeWord (n + k)).toNat))

/-! ### Unit commands (R130 to R141) -/

/-- R106: a sequence aimed at a die that refuses compute. -/
def Blk.thermalRefuse (b : Blk) (u : Nat) (own : Option (Nat × Nat)) : Blk :=
  let known : Bool := match own with
    | some (q, seq) => ((b.job? q seq).map (fun j => j.errs.any (fun e => e.2 == stTHERMAL))).getD false
    | none => false
  let b := if known then b else b.incReg (bSC (unitStack u) + 0xB4)
  b.jobNote own u stTHERMAL

/-- Begins a sequence in a unit; it waits for a slot unless it keeps one. -/
def Blk.beginSeq (b : Blk) (u : Nat) (direct : Option Nat) (first last reps : Nat) (c : UCmd) : Blk :=
  let x := b.unit u
  if !x.inPim then b
  else if (b.die (unitDie u)).refused then b.thermalRefuse u c.own
  else
    let s : SeqSt :=
      { direct := direct, first := first, last := last, reps := reps, n := 0, i := first, inStep := false, begun := false
        age := b.cu.age, yielded := false, preempted := false, stop := 0, erred := 0, cmd := c }
    let b := (b.setUnit u { x with seq := some s }).wakeDie (unitDie u)
    (({ b with cu := { b.cu with age := b.cu.age + 1 } }).yieldIf u).grant (unitDie u)

/-- The step-list entry that a direct command stands for. -/
def UCmd.word (c : UCmd) : Nat := c.op * 2 ^ 60 + c.body % 2 ^ 44

/-- Whether a unit may hold a slot: eligible, not withdrawn (R401), and its die's slot_count is not zero. -/
def Blk.eligible (b : Blk) (u : Nat) : Bool :=
  (b.eligMask (unitDie u)).testBit (u % 32) && !b.sdg.withdrawn.contains u && b.slotCount (unitDie u) != 0

/-- R158, R185: the recheck when a unit's commands are issued for a BANK_GEMV or a BANK_ATTN; not inside a
block for which it keeps its slot (R99, R192). -/
def Blk.recheck (b : Blk) (own : Option (Nat × Nat)) (u : Nat) : Blk :=
  match own with
  | none => b
  | some (q, seq) =>
    let op := ((b.flight? q seq).map (fun f => eOpcode f.raw)).getD 0
    if (op == 0x10 || op == 0x11) && !b.eligible u && (b.unit u).keptFor != some (q, seq) then (b.jobNote own u stRANGE).jobSettle own else b

/-- PIM_MODE (R131, R121). A mode that R119 and R123 do not list is not entered: the unit reports
DESC_INVALID (log 66). -/
def Blk.pimUnit (b : Blk) (c : UCmd) (u : Nat) : Blk :=
  let enter := c.body.testBit 43
  let b := if enter then b.recheck c.own u else b
  let b := (b.closeBank (unitCh u) (unitBank u 0)).closeBank (unitCh u) (unitBank u 1)
  let x := b.unit u
  let nvec := bits c.body 42 41 + 1
  let wfmt := bits c.body 40 33
  let afmt := bits c.body 32 25
  if enter && !(pairOk wfmt afmt && decide (nvec ≤ nvecMax wfmt)) then
    ((b.setUnit u (x.error stDESC)).jobNote c.own u stDESC).jobSettle c.own
  else if enter then
    b.setUnit u { x with
      inPim := true
      nvec := nvec
      wfmt := wfmt
      afmt := afmt
      anchor := bits c.body 24 9
      acc := UnitSt.reset.acc
      score := []
      m := UnitSt.reset.m
      l := UnitSt.reset.l
      flags := 0
      err := 0
      cur := [none, none]
      pend := [none, none]
      pimFor := c.own }
  else
    (b.setUnit u { x with inPim := false
                          cur := [none, none]
                          pend := [none, none]
                          pimFor := none
                          slot := if c.hold then x.slot else none
                          keptFor := if c.hold then x.keptFor else none }).grant (unitDie u)

/-- Words `first` to `first + n − 1` of a table replaced by 32-byte pieces of the data. -/
def putWords (t : Tbl Bytes) (first limit : Nat) (d : Bytes) (n : Nat) : Tbl Bytes :=
  (List.range n).foldl (fun t i => if first + i < limit then tset (first + i) (bytesAt d (32 * i) 32) t else t) t

/-- OPL (R132). -/
def Blk.oplUnit (b : Blk) (c : UCmd) (u : Nat) : Blk :=
  let x := b.unit u
  let t := bits c.body 43 42
  let first := bits c.body 41 34
  let n := bits c.body 33 26 + 1
  b.setUnit u
    (if t = 0 then { x with latch := putWords x.latch first 256 c.data n }
     else if t = 1 then { x with scale := putWords x.scale first 8 c.data n }
     else if t = 2 then (if first = 0 then { x with s := (List.range 4).map (fun i => fld c.data (4 * i) 4) } else x)
     else if first = 0 then { x with mask := leNat (bytesAt c.data 0 32) } else x)

/-- TBL_WR (R139, R148). -/
def Blk.tblUnit (b : Blk) (c : UCmd) (u : Nat) : Blk :=
  let x := b.unit u
  let bank := bits c.body 43 43
  let count := fun (b : Blk) (ok : Bool) => match c.own with
    | none => b
    | some (q, seq) => b.updJob q seq (fun j =>
        if ok then { j with accepted := j.accepted + 1 } else { j with refused := j.refused + 1 })
  if bank = x.active then
    let b := b.setUnit u (x.error stTABLE)
    let rq := b.unitReq c.own
    count (b.logE kUNIT_TABACT { qp := rq.qp, status := stTABLE, path := rq.path, detail := u }) false
  else
    let t := x.idleTab
    let d := bytesAt c.data 0 32
    let t := if c.body.testBit 42 then { t with table := d, gen := bits c.body 41 34 } else { t with codebook := d, gen := bits c.body 41 34 }
    count (b.setUnit u (if bank = 0 then { x with tab0 := t } else { x with tab1 := t })) true

/-- STEP_LD (R140). -/
def Blk.stepLdUnit (b : Blk) (c : UCmd) (u : Nat) : Blk :=
  let x := b.unit u
  let first := bits c.body 43 40
  let n := bits c.body 39 36 + 1
  b.setUnit u { x with steps := (List.range n).foldl (fun t i =>
    if first + i < 16 then tset (first + i) (fld c.data (8 * i) 8) t else t) x.steps }

/-- R80 step 1: the status with which a new command is refused because it would use, on some side, a
current row whose segment is being converted or may not be used; `es` are the entries it runs, and a CACT
before them gives the side another row. -/
def Blk.aimRefused (b : Blk) (u : Nat) : List Nat → List Nat → Option (Nat × Nat × Nat)
  | [], _ => none
  | e :: t, fresh =>
    let y := eBody e
    let use := if eKind e = 4 then sides (bits y 40 39) else if eKind e = 5 then [bits y 43 43] else []
    let hit := (use.filter (fun s => !fresh.contains s)).findSome? (fun s =>
      match (b.unit u).cur.getD s none with
      | none => none
      | some row =>
        let st := b.rowStatus (unitCh u) (unitBank u s) row true
        if st = 0 then none else some (s, row, st))
    match hit with
    | some h => some h
    | none => b.aimRefused u t (if eKind e = 3 then sides (bits y 43 42) ++ fresh else fresh)

/-- Refuses a new command by R80. -/
def Blk.refuseAim (b : Blk) (u : Nat) (h : Nat × Nat × Nat) (own : Option (Nat × Nat)) : Blk :=
  ((b.refuseRow u h.1 h.2.1 h.2.2 own).jobNote own u h.2.2).jobSettle own

/-- STEP_GO (R141, R142, R148). -/
def Blk.stepGoUnit (b : Blk) (c : UCmd) (u : Nat) : Blk :=
  let x := b.unit u
  let first := bits c.body 43 40
  let last := bits c.body 39 36
  if !x.inPim then b
  else
    let want := bits c.body 19 12
    let useTbl := c.body.testBit 11
    let (x, ok) :=
      if !useTbl || x.tab.gen == want then (x, true)
      else if x.idleTab.gen == want then ({ x with active := 1 - x.active }, true)
      else (x, false)
    if !ok then
      let rq := b.unitReq c.own
      let b := (b.setUnit u (x.error stTABLE)).logE kUNIT_TABMISS { qp := rq.qp, status := stTABLE, path := rq.path, detail := u }
      (b.jobNote c.own u stTABLE).jobSettle c.own
    else
      let valid := decide (first ≤ last) && (List.range (last + 1 - first)).all (fun i => entryOk x.wfmt (tget 0 (first + i) x.steps))
      if !valid then ((b.setUnit u (x.error stDESC)).jobNote c.own u stDESC).jobSettle c.own
      else match b.aimRefused u ((List.range (last + 1 - first)).map (fun i => tget 0 (first + i) x.steps)) [] with
        | some h => (b.setUnit u x).refuseAim u h c.own
        | none => (b.setUnit u x).beginSeq u none first last (bits c.body 35 20 + 1) c

/-- A direct CACT, CRD, CWR or ACC_RD (R144). -/
def Blk.directUnit (b : Blk) (c : UCmd) (u : Nat) : Blk :=
  let x := b.unit u
  if !x.inPim then b
  else if !entryOk x.wfmt c.word then ((b.setUnit u (x.error stDESC)).jobNote c.own u stDESC).jobSettle c.own
  else match b.aimRefused u [c.word] [] with
    | some h => b.refuseAim u h c.own
    | none => (b.beginSeq u (some c.word) 0 0 1 c).runStep u c.op

/-- What a command does in each named unit, by opcode (R130). -/
def Blk.unitCmd (b : Blk) (c : UCmd) : Blk :=
  c.units.foldl (fun (b : Blk) u =>
    if c.op = 1 then b.pimUnit c u
    else if c.op = 2 then b.oplUnit c u
    else if c.op = 7 then b.tblUnit c u
    else if c.op = 8 then b.stepLdUnit c u
    else if c.op = 9 then b.stepGoUnit c u
    else b.directUnit c u) b

/-- Whether the command and an item of a program are one. -/
def UCmd.same (c d : UCmd) : Bool := c.ch == d.ch && c.op == d.op && c.mask == d.mask && c.body == d.body && c.data == d.data

/-- R176: the units of an item for the idle bank whose idle bank is the one that the command names. -/
def Blk.idleMask (b : Blk) (d : UCmd) (bank : Nat) : Nat :=
  (bitsSet d.mask 16).foldl (fun a m => if 1 - (b.unit (unitNo d.ch m)).active = bank then setBit a m else a) 0

/-- What a command takes from an item: the item as issued, and the item that remains. -/
def Blk.takeItem (b : Blk) (c d : UCmd) : Option (UCmd × Option UCmd) :=
  if d.idle then
    let bank := bits c.body 43 43
    let m := b.idleMask d bank
    if c.ch == d.ch && c.op == d.op && c.data == d.data && c.body == d.body % 2 ^ 43 + bank * 2 ^ 43 && c.mask == m && m != 0 then
      let rest := (bitsSet d.mask 16).foldl (fun a k => if m.testBit k then a else setBit a k) 0
      some ({ d with mask := m, body := c.body, idle := false }, if rest = 0 then none else some { d with mask := rest })
    else none
  else if c.same d then some (d, none) else none

/-- Replaces the first command of a channel in a program. -/
def dropFirst (ch : Nat) (rest : Option UCmd) : List UCmd → List UCmd
  | [] => []
  | c :: t => if c.ch = ch then (match rest with | some r => r :: t | none => t) else c :: dropFirst ch rest t

/-- R177: the operation whose next command on its channel this is: one for which no earlier operation
of the same pair still has commands for the channel, or will have. -/
def Blk.claim (b : Blk) (c : UCmd) (before : List Job) : List Job → Option (Job × UCmd × Option UCmd)
  | [] => none
  | j :: t =>
    match j.prog.find? (fun d => d.ch == c.ch) with
    | some d =>
      let first := before.all (fun k => k.q != j.q || (!k.chans.contains c.ch && k.prog.all (fun e => e.ch != c.ch)))
      match (if first then b.takeItem c d else none) with
      | some (i, r) => some (j, i, r)
      | none => b.claim c (before ++ [j]) t
    | none => b.claim c (before ++ [j]) t

/-- Half-slots of a unit command (R88, R130), with the PRE of the rows that a PIM_MODE closes first (R131). -/
def Blk.cmdCharge (b : Blk) (c : UCmd) : Nat :=
  2 + 3 * cdiv c.data.length 128
    + (if c.op = 1 && c.body.testBit 43 then
        2 * ((b.chan c.ch).rows.filter (fun p => c.mask.testBit (p.1 / 2))).length
      else 0)

/-- Whether a stack controller must hold a command: a named unit runs a sequence, an earlier command for it
is held (R148), the command ends compute mode while a transfer of the unit is in flight (R161), or it begins
a block and the unit has no slot yet (R194). A TBL_WR does not wait for a sequence (R176). -/
def Blk.holdsCmd (b : Blk) (earlier : List UCmd) (c : UCmd) : Bool :=
  c.units.any (fun u =>
    (c.op != 7 && (b.unit u).seq.isSome) || earlier.any (fun w => w.units.contains u)
      || (c.op == 1 && !c.body.testBit 43 && !(b.unit u).xfers.isEmpty)
      || (b.takesSlot c && (b.unit u).slot.isNone && b.eligible u && !(b.die (unitDie u)).refused))

/-- Runs the held commands of a channel whose units have become free, in order. -/
def Blk.runHeldCmds (b : Blk) (ch : Nat) : Blk :=
  b.cu.waiting.foldl (fun (b : Blk) c =>
    if c.ch != ch || !b.cu.waiting.contains c || b.holdsCmd (b.cu.waiting.takeWhile (fun w => w != c)) c then b
    else ({ b with cu := { b.cu with waiting := b.cu.waiting.erase c } }).unitCmd c) b

/-- A command is held; where it begins a block, its units ask for slots. -/
def Blk.holdCmd (b : Blk) (c : UCmd) : Blk :=
  let b := { b with cu := { b.cu with waiting := b.cu.waiting ++ [c] } }
  if !b.takesSlot c then b
  else
    let n := b.cu.age
    let b := c.units.foldl (fun (b : Blk) u => (b.setUnit u { b.unit u with wants := some n }).wakeDie (unitDie u)) b
    (({ b with cu := { b.cu with age := n + 1 } }).grant (c.ch / 2)).runHeldCmds c.ch

/-- A command takes effect, or is held. -/
def Blk.passCmd (b : Blk) (c : UCmd) : Blk := if b.holdsCmd b.cu.waiting c then b.holdCmd c else b.unitCmd c

/-- Issues a command on its channel. It changes nothing while it may not issue: its charge does not
fit, a named pair is urgent, or no reduction context is free for it. -/
def Blk.submit (b : Blk) (c : UCmd) : Blk :=
  if c.units.any (fun u => (b.pair c.ch (unitPair u)).urgent) then b
  else match b.pay c.ch cCompute (b.cmdCharge c) with
    | none => b
    | some b' =>
      match b.claim c [] b.cu.jobs with
      | none => b'.passCmd c
      | some (j, i, rest) =>
        match b'.attachCtx j i with
        | none => b
        | some b1 => (b1.updJob j.q j.seq (fun k => { k with prog := dropFirst c.ch rest k.prog })).passCmd i

/-- Ends a sequence: its slot and its operation are settled, and what waited goes on. -/
def Blk.endSeq (b : Blk) (u st : Nat) : Blk :=
  let own := (b.unit u).seq.bind (fun s => s.cmd.own)
  (((b.closeSeq u st).grant (unitDie u)).runHeldCmds (unitCh u)).jobSettle own

/-- R144: the boundary at which a step ends. -/
def Blk.stepDone (b : Blk) (u : Nat) : Blk :=
  let x := b.unit u
  match x.seq with
  | none => b
  | some s =>
    if !s.inStep then b
    else if s.erred != 0 then b.endSeq u s.erred
    else if s.stop != 0 then b.endSeq u s.stop
    else
      let lastEntry := s.direct.isSome || s.i == s.last
      if lastEntry && s.n + 1 == s.reps then b.endSeq u 0
      else
        let s' := if lastEntry then { s with inStep := false, n := s.n + 1, i := s.first } else { s with inStep := false, i := s.i + 1 }
        let b := b.setUnit u { x with seq := some s' }
        if (b.die (unitDie u)).refused then (b.thermalRefuse u s.cmd.own).endSeq u stTHERMAL
        else if (b.pair (unitCh u) (unitPair u)).urgent then
          (b.setUnit u { x with seq := some { s' with preempted := true } }).notePreempt u s'
        else (b.yieldIf u).grant (unitDie u)

/-- R153: a sequence of which an error was set between two steps, as by a refused TBL_WR, ends there. -/
def Blk.settleErred (b : Blk) (c : UCmd) : Blk :=
  c.units.foldl (fun (b : Blk) u =>
    match (b.unit u).seq with
    | some s => if s.erred != 0 && !s.inStep then b.endSeq u s.erred else b
    | none => b) b

/-- The command that a step command's direct form stands for. -/
def directCmd (ch op mask body : Nat) : UCmd := ⟨ch, op, mask % 65536, body % 2 ^ 44, [], none, none, 0, false, false, false⟩

/-- A unit command with its data. -/
def unitCmdOf (ch op mask body : Nat) (data : Bytes) : UCmd :=
  ⟨ch, op, mask % 65536, body % 2 ^ 44, data, none, none, 0, false, false, false⟩

/-- A step command: a direct command is issued; a unit runs the step at which it stands. -/
def Blk.stepCmd (b : Blk) (kind : Nat) : StepTarget → Blk
  | .direct ch mask body => b.submit (directCmd ch kind mask body)
  | .unit u => b.runStep u kind

end Sys2Proof.Machine
end

