-- ==== Sys2Proof/Machine/Fab.lean ====
section
/-! DEFINITION. The fabric's shared operations: links and their state (R324, R330), credits (R329),
routes (R340 to R342), requests and transaction numbers (R335), link loss (R344) and reports (R343). -/

namespace Sys2Proof.Machine
open Sys2Proof

/-! ### Links -/

def Blk.link (b : Blk) (l : Nat) : LinkSt := tget .reset l b.fab.links
def Blk.setLink (b : Blk) (l : Nat) (x : LinkSt) : Blk := { b with fab := { b.fab with links := tset l x b.fab.links } }

/-- The LINK entry of a link; a module without LINK has every link disabled (R24). -/
def Blk.linkEnt (b : Blk) (l : Nat) : LinkEnt := b.struc.links.getD l ⟨0xFF, 0, 0, 0, 0⟩

/-- A link that the structure enables (R324) and RECOVERY does not hold off (R418). -/
def Blk.linkOn (b : Blk) (l : Nat) : Bool := (b.linkEnt l).bundle != 0xFF && b.mode != .recovery

/-- R353: FAB_CTRL isolate. -/
def Blk.isolated (b : Blk) : Bool := (b.reg (bFABRIC + 4)).testBit 1

/-- R343: every enabled link of the bundle is DOWN or MISMATCH. -/
def Blk.bundleDead (b : Blk) (k : Nat) : Bool :=
  (List.range 32).all (fun l =>
    (b.linkEnt l).bundle != k || (b.link l).st == .down || (b.link l).st == .mismatch)

def Blk.bundles (b : Blk) : List Nat := (((List.range 32).map (fun l => (b.linkEnt l).bundle)).filter (· != 0xFF)).eraseDups

/-- Units of a packet: two for the header and its payload's (R331). -/
def pktUnits (p : Packet) : Nat := 2 + cdiv p.payload.length 16

/-- The 32-byte header and the payload, padded to whole units (R331). -/
def pktBytes (p : Packet) : Bytes :=
  leBytes 1 p.typ ++ leBytes 1 p.flags ++ leBytes 2 (cdiv p.payload.length 16) ++ leBytes 2 p.src ++ leBytes 2 p.dst
    ++ leBytes 2 p.txn ++ leBytes 1 p.qs ++ leBytes 1 p.hops ++ leBytes 1 p.sub ++ leBytes 3 p.rsv
    ++ leBytes 8 p.addr ++ leBytes 8 p.arg
    ++ p.payload ++ zeros (cdiv p.payload.length 16 * 16 - p.payload.length)

/-- Reads a packet from its units (R331). -/
def pktOf (d : Bytes) : Packet where
  typ := fld d 0 1
  flags := fld d 1 1
  src := fld d 4 2
  dst := fld d 6 2
  txn := fld d 8 2
  qs := fld d 0xA 1
  hops := fld d 0xB 1
  sub := fld d 0xC 1
  rsv := fld d 0xD 3
  addr := fld d 0x10 8
  arg := fld d 0x18 8
  payload := bytesAt d 32 (16 * fld d 2 2)

def pktIsRsp (p : Packet) : Bool := decide (0x80 ≤ p.typ)

/-- Whether the type is listed in R332. -/
def typListed (t : Nat) : Bool :=
  [0x01, 0x02, 0x03, 0x04, 0x05, 0x06, 0x10, 0x81, 0x82, 0x83, 0x84, 0x85, 0x86, 0x8F].contains t

/-- The virtual channel of a packet (R329, R340, R343). -/
def pktVc (p : Packet) : Nat :=
  if p.typ = 0x10 then 3
  else (if pktIsRsp p then 2 else 0) + b2n (p.flags.testBit 3)

/-- Cuts a packet's bytes into flit payloads of 39 units. -/
def flitChunks (p : Packet) : List Bytes := chunk 624 (pktUnits p / 39 + 1) (pktBytes p)

/-- Puts a packet's flits into the retry buffer; the credits are deducted (R329, R330). -/
def LinkSt.put (x : LinkSt) (vc : Nat) (p : Packet) : LinkSt :=
  (flitChunks p).foldl (fun y c =>
    { y with txSeq := (y.txSeq + 1) % 65536
             retry := y.retry ++ [⟨(y.txSeq + 1) % 65536, 1, c, [p], 0⟩] })
    { x with credits := x.credits.set vc (x.credits.getD vc 0 - pktUnits p) }

/-- R329, R330: a packet may start when its credits are held and the retry buffer has room. -/
def LinkSt.canSend (x : LinkSt) (vc : Nat) (p : Packet) : Bool :=
  decide (pktUnits p ≤ x.credits.getD vc 0) && decide (x.retry.length + (flitChunks p).length ≤ 512)

/-- Sends a packet on a link that is UP, or queues it behind the link's credits. -/
def Blk.sendOn (b : Blk) (l : Nat) (p : Packet) : Blk :=
  let x := b.link l
  let vc := pktVc p
  if x.waiting.all (fun w => w.1 != vc) && x.canSend vc p then (b.setLink l (x.put vc p)).send (.packet l p)
  else b.setLink l { x with waiting := x.waiting ++ [(vc, p)] }

/-- Sends what waited on a link and can now go; each virtual channel keeps its order. -/
def Blk.drainWaiting (b : Blk) (l : Nat) : Blk :=
  let x := b.link l
  let start := b.setLink l { x with waiting := [] }
  x.waiting.foldl (fun y w => y.sendOn l w.2) start

/-! ### Routes -/

def Blk.rout (b : Blk) : Rout := b.struc.rout.getD ⟨0, 1, [1, 1, 1], 0, [0, 0, 0], [0, 1, 2], []⟩

/-- Coordinates of a module number (R37). -/
def Rout.coordOf (r : Rout) (m : Nat) : List Nat :=
  let s0 := r.size.getD 0 1
  let s1 := r.size.getD 1 1
  [m % s0, m / s0 % s1, m / s0 / s1]

/-- Module number of coordinates (R37). -/
def Rout.modOf (r : Rout) (c : List Nat) : Nat :=
  c.getD 0 0 + r.size.getD 0 1 * (c.getD 1 0 + r.size.getD 1 1 * c.getD 2 0)

/-- R340 clear: none of the `n` modules that the walk leaves has its bundle dead. -/
def Blk.clear (b : Blk) (r : Rout) (d : Nat) (minus : Bool) : Nat → List Nat → Bool
  | 0, _ => true
  | n + 1, c =>
    let s := r.size.getD d 1
    let k := 2 * d + b2n minus
    if b.fab.dead.contains (r.modOf c, k) then false
    else
      let v := c.getD d 0
      b.clear r d minus n (c.set d (if minus then (v + s - 1) % s else (v + 1) % s))

/-- R340: the direction flags toward a destination, dimension by dimension; none when a dimension
has no clear way. -/
def Blk.dirs (b : Blk) (r : Rout) (dst : List Nat) : List Nat → List Nat → Nat → Option Nat
  | [], _, fl => some fl
  | d :: t, cur, fl =>
    let c := cur.getD d 0
    let e := dst.getD d 0
    let s := r.size.getD d 1
    if c = e then b.dirs r dst t cur fl
    else
      let plus := (e + s - c) % s
      let minus := s - plus
      let wrap := r.wrap.testBit d
      let okp := (wrap || decide (c < e)) && b.clear r d false plus cur
      let okm := (wrap || decide (e < c)) && b.clear r d true minus cur
      let next := cur.set d e
      if okp && (decide (plus ≤ minus) || !okm) then b.dirs r dst t next fl
      else if okm then b.dirs r dst t next (fl ||| 2 ^ d)
      else none

/-- The hash of R342. -/
def routeHash (dst addr : Nat) : Nat := dst ^^^ (addr / 256 % 65536) ^^^ (addr / 2 ^ 24 % 65536)

/-- Links of the next hop of a packet with its flags there: the bundle of the next dimension in mode
0 (with the dateline rule), or the table's links in mode 1. -/
def Blk.nextHop (b : Blk) (p : Packet) (fromDim : Option Nat) : List Nat × Nat :=
  let r := b.rout
  if r.mode = 1 then
    let m := r.table.getD p.dst 0
    ((List.range 32).filter (fun l => m.testBit l && (b.link l).st == .up), p.flags &&& 7)
  else
    let me := r.coord
    let e := r.coordOf p.dst
    match (r.order.take r.dims).find? (fun d => me.getD d 0 != e.getD d 0) with
    | none => ([], p.flags)
    | some d =>
      let minus := p.flags.testBit d
      let c := me.getD d 0
      let s := r.size.getD d 1
      let cross := if minus then c == 0 else c + 1 == s
      let same := fromDim == some d
      let high := cross || (same && p.flags.testBit 3)
      ((List.range 32).filter (fun l => (b.linkEnt l).bundle == 2 * d + b2n minus && (b.link l).st == .up),
        (p.flags &&& 7) + 8 * b2n high)

/-- The member of the live links that R342 picks. -/
def pickLink (ls : List Nat) (p : Packet) : Option Nat :=
  if ls.isEmpty then none else ls[routeHash p.dst p.addr % ls.length]?

/-- Sends a packet on along its route; none where no link lives. -/
def Blk.forward (b : Blk) (p : Packet) (fromDim : Option Nat) : Option Blk :=
  let (ls, fl) := b.nextHop p fromDim
  match pickLink ls p with
  | none => none
  | some l => some (b.sendOn l { p with flags := fl })

/-- The flags of R340 for a packet that starts here; none when no path is clear. -/
def Blk.routeFor (b : Blk) (dst : Nat) : Option Nat :=
  let r := b.rout
  if b.struc.rout.isNone then none
  else if r.mode = 1 then (if b.fab.marks.contains dst || r.table.getD dst 0 == 0 then none else some 0)
  else b.dirs r (r.coordOf dst) (r.order.take r.dims) r.coord 0

/-- Sends a packet that starts at this module. -/
def Blk.originate (b : Blk) (p : Packet) : Option Blk :=
  match b.routeFor p.dst with
  | none => none
  | some fl => b.forward { p with flags := fl, src := b.struc.modNum, hops := 0 } none

/-- Sends a response; a response without a way back is lost. -/
def Blk.respond (b : Blk) (req : Packet) (typ st : Nat) (data : Bytes) : Blk :=
  let p : Packet :=
    { typ := typ, flags := 0, src := b.struc.modNum, dst := req.src, txn := req.txn, qs := st, hops := 0, sub := req.sub
      rsv := 0, addr := req.addr, arg := 0, payload := data }
  (b.originate p).getD b

/-! ### Requests of entries (R335) -/

def oFAB_UNREACH : Nat := bFABRIC + 0x14
def oFAB_TIMEOUT : Nat := bFABRIC + 0x18
def oFAB_RCHG : Nat := bFABRIC + 0x1C
def oFAB_BADPKT : Nat := bFABRIC + 0x20

/-- The lowest transaction number that is not outstanding. -/
def freeTxn (ts : List Txn) : Nat → Nat → Option Nat
  | 0, _ => none
  | fuel + 1, k => if ts.any (fun t => t.num == k) then freeTxn ts fuel (k + 1) else some k

/-- What became of a request: sent, no path, or no transaction number is free. -/
inductive ReqRes where
  | sent (b : Blk)
  | noPath (b : Blk)
  | noTxn
  deriving DecidableEq, Repr

/-- Sends a request for an entry; it holds a transaction number until its response. -/
def Blk.request (b : Blk) (q seq typ dst addr arg sub : Nat) (data : Bytes) : ReqRes :=
  match freeTxn b.fab.txns 4096 0 with
  | none => .noTxn
  | some n =>
    let p : Packet :=
      { typ := typ, flags := 0, src := b.struc.modNum, dst := dst, txn := n, qs := q, hops := 0, sub := sub, rsv := 0
        addr := addr, arg := arg, payload := data }
    match b.originate p with
    | none => .noPath (b.incReg oFAB_UNREACH)
    | some b =>
      let t : Txn := ⟨n, typ, dst, addr, arg, q, seq⟩
      let b := { b with fab := { b.fab with txns := b.fab.txns ++ [t] } }
      .sent (b.updFlight q seq (fun f => { f with txns := f.txns ++ [n] }))

def haModule (a : Nat) : Nat := a / 2 ^ 40 % 8192

/-- Sends the waiting writes of an entry while transaction numbers are free; a write without a path ends
them (R279). -/
def Blk.sendOut (b : Blk) (q seq : Nat) : List (Nat × Bytes) → Blk
  | [] => b.updFlight q seq (fun f => { f with out := [] })
  | (a, d) :: t =>
    match b.request q seq 0x02 (haModule a) a d.length 0 d with
    | .sent b => (b.updFlight q seq (fun f => { f with homes := (haModule a :: f.homes).eraseDups })).sendOut q seq t
    | .noPath b => b.updFlight q seq (fun f => { f with out := [], status := if isErr f.status then f.status else stUNREACH })
    | .noTxn => b.updFlight q seq (fun f => { f with out := (a, d) :: t })

/-- Ends an outstanding request and takes its number from the entry it serves; the oldest entry whose
writes wait for a number goes on. -/
def Blk.endTxn (b : Blk) (t : Txn) : Blk :=
  let b := { b with fab := { b.fab with txns := b.fab.txns.filter (fun x => x.num != t.num) } }
  let b := b.updFlight t.q t.seq (fun f => { f with txns := f.txns.filter (· != t.num) })
  match b.flights.find? (fun f => !f.out.isEmpty) with
  | none => b
  | some f => b.sendOut f.q f.seq f.out

/-- A request failed: the entry takes the status of its first failure, and sends no more. -/
def Blk.failTxn (b : Blk) (t : Txn) (st : Nat) : Blk :=
  (b.updFlight t.q t.seq (fun f => { f with out := [], status := if isErr f.status then f.status else st })).endTxn t

/-! ### Link loss and reports (R343, R344) -/

/-- Sends a packet on every UP link except one. -/
def Blk.flood (b : Blk) (p : Packet) (except : Option Nat) : Blk :=
  (List.range 32).foldl (fun (y : Blk) l => if (y.link l).st == .up && except != some l then y.sendOn l p else y) b

/-- R343: reports a bundle dead or live. -/
def Blk.report (b : Blk) (k : Nat) (live : Bool) : Blk :=
  let n := b.fab.repSeq + 1
  let me := b.struc.modNum
  let code := if b.rout.mode = 1 then 0xFE else k
  let b := { b with fab := { b.fab with repSeq := n
                                        dead := if live then b.fab.dead.filter (· != (me, k)) else (me, k) :: b.fab.dead.filter (· != (me, k)) } }
  b.flood { typ := 0x10, flags := 8, src := me, dst := 0xFFFF, txn := 0, qs := 0, hops := 0, sub := 0, rsv := 0, addr := 0, arg := 0
            payload := leBytes 2 me ++ leBytes 1 code ++ leBytes 1 (b2n live) ++ leBytes 4 n ++ zeros 8 } none

/-- A link of the bundle is UP. -/
def Blk.bundleUp (b : Blk) (k : Nat) : Bool :=
  (List.range 32).any (fun l => (b.linkEnt l).bundle == k && (b.link l).st == .up)

/-- Compares the bundles with what was last reported, and reports each change (R343). A dead bundle is live again
when a link of it goes UP (R324 step 5), not already while one is trained. -/
def Blk.checkBundles (b : Blk) : Blk :=
  b.bundles.foldl (fun (y : Blk) k =>
    let was := y.fab.ownDead.contains k
    if !was && y.bundleDead k then
      (({ y with fab := { y.fab with ownDead := k :: y.fab.ownDead } }).report k false).fabEvent 3
    else if was && y.bundleUp k then
      ({ y with fab := { y.fab with ownDead := y.fab.ownDead.filter (· != k) } }).report k true
    else y) b

/-- A request that was in flight is dropped on its way: it completes with ROUTE_CHANGED (R18, R344). R344
names no status for sub 2; R18 allows a request in flight no REMOTE_UNREACHABLE (log 69). -/
def Blk.naked (b : Blk) (t : Txn) : Blk := (b.failTxn t stROUTE).incReg oFAB_RCHG

/-- R344: a request dropped here is answered with ROUTE_NAK; at its own origin it completes. -/
def Blk.routeNak (b : Blk) (p : Packet) (sub : Nat) : Blk :=
  if p.src = b.struc.modNum then
    match b.fab.txns.find? (fun t => t.num == p.txn) with
    | none => b
    | some t => b.naked t
  else
    let n : Packet := { p with typ := 0x8F, src := b.struc.modNum, dst := p.src, qs := 0, sub := sub, hops := 0, arg := 0, payload := [] }
    (b.originate n).getD b

/-- Sends a packet that left on link `l` again, on the route that is left; a packet in transit stays in its
dimension and on its virtual channel. A report is not sent again: every other link carried it (R343). -/
def Blk.again (b : Blk) (l : Nat) (p : Packet) : Option Blk :=
  if p.typ = 0x10 then some b
  else if p.src = b.struc.modNum then b.originate p
  else b.forward p (some ((b.linkEnt l).bundle / 2))

/-- R344: what becomes of a packet that had units unacknowledged on a lost link. -/
def Blk.afterLoss (l : Nat) (b : Blk) (p : Packet) : Blk :=
  if pktIsRsp p || p.typ = 0x10 then (b.again l p).getD b else b.routeNak p 1

/-- R344: traffic that still waited for a lost link moves to the other links; a request that finds none is
dropped. -/
def Blk.move (l : Nat) (b : Blk) (p : Packet) : Blk :=
  match b.again l p with
  | some c => c
  | none => if pktIsRsp p then b else b.routeNak p 2

/-- A link goes DOWN (R324, R330, R344). -/
def Blk.linkDown (b : Blk) (l : Nat) : Blk :=
  let x := b.link l
  if x.st = .disabled || x.st = .down then b
  else
    let wasUp := x.st == .up
    let lost := ((x.retry.map TxFlit.pkts).flatten).eraseDups
    let b := b.setLink l { x with st := .down, step := 0, attempt := 0, retry := [], waiting := [], part := [], frags := []
                                  partner := [], proofSent := false, credits := [0, 0, 0, 0], naked := false
                                  owed := [0, 0, 0, 0] }
    let b := (if wasUp then b.fabEvent 0 else b).checkBundles
    (x.waiting.map (fun w => w.2)).foldl (Blk.move l) (lost.foldl (Blk.afterLoss l) b)

/-- R324 step 1: bring-up begins. -/
def Blk.linkStart (b : Blk) (l : Nat) : Blk :=
  if !b.linkOn l || b.isolated then b
  else b.setLink l { b.link l with st := .training, step := 1, attempt := 0, txSeq := 0, rxSeq := 0 }

/-- Retrains a link: it is DOWN for the retrain and begins again (R324, R353). -/
def Blk.retrain (b : Blk) (l : Nat) : Blk :=
  let b := b.linkDown l
  let x := b.link l
  (b.setLink l { x with retrains := min (x.retrains + 1) 255 }).linkStart l

end Sys2Proof.Machine
end

