-- ==== Sys2Proof/Machine/Tensor.lean ====
section
/-! DEFINITION. Descriptors (R249 to R259), element positions and addresses, out-of-bounds reads
(R267, R268), and the reading and writing of elements on this module or another (R279). -/

namespace Sys2Proof.Machine
open Sys2Proof

/-! ### The descriptor -/

namespace Dsc

/-- R249: bit 0 of flags. -/
def write (d : Desc) : Bool := d.flags.testBit 0
/-- 0 REJECT, 1 LAST, 2 EXACT_SUM, 3 FIXED_SUM. -/
def collide (d : Desc) : Nat := bits d.flags 2 1
/-- 0 plain, 1 indexed, 2 window. -/
def kind (d : Desc) : Nat := bits d.flags 4 3
def owner (d : Desc) : Bool := d.flags.testBit 5

def dim (d : Desc) (k : Nat) : Nat := d.dims.getD k 0
def str (d : Desc) (k : Nat) : Int := d.stride.getD k 0

/-- Number of elements (R252). -/
def count (d : Desc) : Nat := (d.dims.take d.rank).foldl (· * ·) 1

/-- The index tuple of element number e (R250). -/
def tuple : List Nat → Nat → List Nat
  | [], _ => []
  | n :: t, e => e % n :: tuple t (e / n)

/-- R257, R272: the range of source positions along dimension k, lowest and highest. -/
def range (d : Desc) (k : Nat) : Int × Int :=
  if kind d = 1 && k = d.ixDim then (0, (d.srcLen : Int) - 1)
  else if kind d = 2 && k = d.ixDim then (0, 0)
  else if kind d = 2 && k + 1 = d.ixDim then
    let cl := fun (x : Int) => max 0 (min x ((d.srcLen : Int) - 1))
    (cl d.winStart,
     cl (d.winStart + ((dim d d.ixDim : Int) - 1) * d.winStep + ((dim d k : Int) - 1) * d.winDil))
  else (0, (dim d k : Int) - 1)

/-- The extents n_d of R257. -/
def extent (d : Desc) (k : Nat) : Nat :=
  if kind d = 1 && k = d.ixDim then d.srcLen
  else if kind d = 2 && k = d.ixDim then 1
  else if kind d = 2 && k + 1 = d.ixDim then d.srcLen
  else dim d k

/-- Lowest and highest position (R257). -/
def posRange (d : Desc) : Int × Int :=
  (List.range d.rank).foldl (fun (a : Int × Int) k =>
    let (x, y) := range d k
    let s := str d k
    (a.1 + min (x * s) (y * s), a.2 + max (x * s) (y * s))) (0, 0)

/-- R251: byte offset of position p from its base. -/
def byteOff (fmt : Nat) (p : Int) : Int :=
  if isBlock fmt then (p / (blkElems fmt : Int)) * (blkBytes fmt : Int)
  else if fmtBits fmt = 4 then p / 2
  else p * ((fmtBits fmt / 8 : Nat) : Int)

/-- Bytes of the storage unit at a position: a block, a byte of two nibbles, or an element. -/
def unitBytes (fmt : Nat) : Nat := if isBlock fmt then blkBytes fmt else if fmtBits fmt = 4 then 1 else fmtBits fmt / 8

/-- R257: the span of a base, as first byte (may be negative) and length; none without elements. -/
def spanAt (d : Desc) (base : Nat) : Option (Int × Nat) :=
  if count d = 0 then none
  else
    let (lo, hi) := posRange d
    let a := (base : Int) + byteOff d.fmt lo
    let z := (base : Int) + byteOff d.fmt hi + (unitBytes d.fmt : Int)
    some (a, (z - a).toNat)

/-- A descriptor for one entry of an owner table (R278). -/
def piece (d : Desc) (o : Nat × Nat × Nat) : Desc :=
  { d with dims := d.dims.set (d.rank - 1) o.2.1, base := o.2.2, owners := [] }

/-- The pieces of a descriptor: itself, or one per owner entry. -/
def pieces (d : Desc) : List Desc := if owner d then d.owners.map (piece d) else [d]

/-- R258: the conservative test that positions are distinct. -/
def distinct (d : Desc) : Bool :=
  let ds := ((List.range d.rank).filter (fun k => decide (1 < extent d k) && !(kind d == 2 && k == d.ixDim))).map
    (fun k => ((str d k).natAbs, extent d k))
  let sorted := ds.mergeSort (fun a b => decide (a.1 ≤ b.1))
  let rec go : List (Nat × Nat) → Nat → Bool
    | [], _ => true
    | (s, n) :: t, reach => if s ≤ reach then false else go t (reach + s * (n - 1))
  go sorted 0

end Dsc

/-! ### Herd addresses (R62) -/

def haMpa (a : Nat) : Nat := a % 2 ^ 40
/-- R62: bits 63:53 zero and a module of the herd. -/
def Blk.haOk (b : Blk) (a : Nat) : Bool := decide (a < 2 ^ 53) && decide (haModule a < b.struc.herdSize)
def Blk.haLocal (b : Blk) (a : Nat) : Bool := haModule a == b.struc.modNum

/-- R257: a local range lies inside one region, owned by the pair, with no retired segment. -/
def Blk.rangeOk (b : Blk) (q mpa len : Nat) : Bool :=
  match b.struc.rangeIn mpa len with
  | some r => r.owners.testBit q
  | none => false

/-- Check 6 of R256 for one piece; a span on another module is not checked beyond its base (R257). -/
def Blk.pieceOk (b : Blk) (q : Nat) (d : Desc) : Bool :=
  b.haOk d.base &&
  match Dsc.spanAt d d.base with
  | none => true
  | some (a, n) =>
    if b.haLocal d.base then
      decide ((haModule d.base * 2 ^ 40 : Nat) ≤ a) && b.rangeOk q (a - (haModule d.base * 2 ^ 40 : Nat)).toNat n
    else true

/-- Check 6 of R256. -/
def Blk.spansOk (b : Blk) (q : Nat) (d : Desc) : Bool := (Dsc.pieces d).all (fun p => b.pieceOk q p)

/-- The local spans of a descriptor (R309). -/
def Blk.localSpans (b : Blk) (d : Desc) : List Span :=
  (Dsc.pieces d).filterMap (fun p =>
    if b.haLocal p.base then (Dsc.spanAt p p.base).map (fun (x : Int × Nat) => ((x.1 - ((haModule p.base * 2 ^ 40 : Nat) : Int)).toNat, x.2)) else none)

/-- All spans of a descriptor as herd addresses. -/
def herdSpans (d : Desc) : List Span :=
  (Dsc.pieces d).filterMap (fun p => (Dsc.spanAt p p.base).map (fun x => (x.1.toNat, x.2)))

def spansMeet (a b : List Span) : Bool := a.any (fun x => b.any (fun y => overlap x.1 x.2 y.1 y.2))

/-! ### Handles (R255, R259) -/

def handleOf (q x : Nat) : Nat := 0x80000000 + q * 0x1000 + x
def descKey (h : Nat) : Nat := h % 2 ^ 18

/-- R259: the descriptor that a handle names for an entry of pair q. -/
def Blk.desc? (b : Blk) (q h : Nat) : Option Desc :=
  if h / 2 ^ 18 = 0x2000 && h / 0x1000 % 64 = q then
    match b.descs.find? (fun p => p.1 == descKey h) with
    | some (_, x) => if x.phase = .inUse then some x.d else none
    | none => none
  else none

/-- The descriptor a started entry uses: still usable after a drop (R260). -/
def Blk.descOf (b : Blk) (q h : Nat) : Option Desc :=
  if h / 2 ^ 18 = 0x2000 && h / 0x1000 % 64 = q then
    match b.descs.find? (fun p => p.1 == descKey h) with
    | some (_, x) => if x.phase = .invalid then none else some x.d
    | none => none
  else none

/-! ### Work on tensors -/

/-- The progress of an entry's command: the block so far, the first failure, flags, remote bytes it
still needs, and whether it must wait. -/
structure Wk where
  b : Blk
  /-- the channels as the command found them, whose counters say whether an access may begin (R90) -/
  chans0 : Tbl ChanSt
  q : Nat
  seq : Nat
  rq : Req
  st : Nat
  flags : Nat
  need : List (Nat × Nat)
  stall : Bool
  normal : Bool
  fetched : List (Nat × Bytes)
  /-- bytes that the run writes on other modules, newest first -/
  out : List (Nat × Bytes)
  /-- elements that the run has stored -/
  stored : Nat
  /-- under LAST: the highest element number stored at an address (R264) -/
  tops : Tbl Nat
  deriving DecidableEq, Repr

/-- R89: the layout engine's class for an entry, by its poster. -/
def entryCls (f : Flight) : Nat := if f.path == pFAB || f.path == pNET then cRemote else cHub

/-- Begins the work of an entry on a port. -/
def Wk.start (b : Blk) (f : Flight) (port : Nat) : Wk :=
  { b := b, chans0 := b.chans, q := f.q, seq := f.seq
    rq := ⟨port, if port = 4 then entryCls f else cHub, some f.q, f.path⟩
    st := if isErr f.status then f.status else stOK, flags := 0, need := []
    stall := false, normal := f.mode == 1, fetched := f.fetched, out := [], stored := 0, tops := f.burst.tops }

/-- Whether an access of the entry must wait. Its own earlier accesses do not make it wait for a charge:
what the counters of one period do not hold is spread over later ones (log 7). -/
def Wk.mustWait (w : Wk) (mpa len : Nat) : Bool := ({ w.b with chans := w.chans0 }).mustWait w.rq.cls mpa len

/-- The first failure stays. -/
def Wk.fail (w : Wk) (st : Nat) : Wk := if w.st = stOK then { w with st := st } else w
def Wk.flag (w : Wk) (f : Nat) : Wk := { w with flags := w.flags ||| f }
def Wk.bad (w : Wk) : Bool := w.st != stOK

/-- Bytes of a range that pieces hold, piece after piece. -/
def lookPieces : Nat → List (Nat × Bytes) → Nat → Nat → Option Bytes
  | _, _, _, 0 => some []
  | 0, _, _, _ => none
  | fuel + 1, l, a, len =>
    match l.find? (fun p => decide (p.1 ≤ a) && decide (a < p.1 + p.2.length)) with
    | none => none
    | some p =>
      let n := min len (p.1 + p.2.length - a)
      (lookPieces fuel l (a + n) (len - n)).map (bytesAt p.2 (a - p.1) n ++ ·)

/-- Remote bytes that have arrived and cover a range. -/
def lookFetched (l : List (Nat × Bytes)) (a len : Nat) : Option Bytes := lookPieces (len / 64 + 8) l a len

/-- Remote bytes as the entry sees them: those that the run has written itself, else those that arrived. -/
def Wk.remote (w : Wk) (a len : Nat) : Option Bytes :=
  if w.out.any (fun p => overlap a len p.1 p.2.length) then
    (List.range len).foldr (fun i (r : Option Bytes) => match r, lookPieces 1 (w.out ++ w.fetched) (a + i) 1 with
      | some t, some x => some (x ++ t)
      | _, _ => none) (some [])
  else lookFetched w.fetched a len

/-- Reads bytes at a herd address (R279); bytes past the herd are out of range (R62). -/
def Wk.read (w : Wk) (a len : Nat) : Wk × Bytes :=
  if w.bad then (w, zeros len)
  else if w.b.haLocal a then
    let m := haMpa a
    if w.mustWait m len then ({ w with stall := true, b := w.b.askExit m len }, zeros len)
    else
      let r := readRange w.b w.rq m len
      let w := { w with b := r.b }
      if r.st != stOK then (w.fail r.st, zeros len)
      else (if r.corr then w.flag flagCorrected else w, r.data)
  else if !(w.b.haOk a && w.b.haOk (a + len - 1)) then (w.fail stRANGE, zeros len)
  else match w.remote a len with
    | some d => (w, d)
    | none => ({ w with need := (a, len) :: w.need.filter (· != (a, len)) }, zeros len)

/-- R294: the highest payload offset that an entry wrote in each slot it touches. -/
def Blk.noteSlots (b : Blk) (q seq mpa len : Nat) : Blk :=
  match b.flight? q seq with
  | none => b
  | some f =>
    f.slots.foldl (fun (b : Blk) i =>
      let a := b.slotBase i + 0x40
      if overlap mpa len a (b.slotSize - 0x40) then
        let top := min (mpa + len - a) (b.slotSize - 0x40)
        { b with win := { b.win with written := tset i (max top (tget 0 i b.win.written)) b.win.written } }
      else b) b

/-- Splits a remote range at 4 KiB boundaries (R332, R336). -/
def split4k : Nat → Nat → Nat → List (Nat × Nat)
  | 0, _, _ => []
  | fuel + 1, a, len =>
    if len = 0 then []
    else
      let n := min len (4096 - a % 4096)
      (a, n) :: split4k fuel (a + n) (len - n)

/-- Adds a write on another module to those of the run; what follows the newest joins it. -/
def joinOut (a : Nat) (d : Bytes) : List (Nat × Bytes) → List (Nat × Bytes)
  | [] => [(a, d)]
  | (x, e) :: t => if x + e.length = a then (x, e ++ d) :: t else (a, d) :: (x, e) :: t

/-- Writes the bytes of n elements at a herd address (R279). -/
def Wk.writeN (w : Wk) (a : Nat) (d : Bytes) (n : Nat) : Wk :=
  if w.bad || !w.need.isEmpty || w.stall then w
  else if w.b.haLocal a then
    let m := haMpa a
    if w.mustWait m d.length then { w with stall := true, b := w.b.askExit m d.length }
    else
      let (b, s) := w.b.otherWrite w.rq m d
      let k := if s = stOK then d.length else writtenBytes (d.length / 64 + 2) w.b w.rq m d
      let w := { w with
        b := if s = stOK || k != 0 then (b.noteScope w.q w.seq 2).noteSlots w.q w.seq m d.length else b
        stored := w.stored + n * k / max 1 d.length }
      if s != stOK then w.fail s else w
  else if !(w.b.haOk a && w.b.haOk (a + d.length - 1)) then w.fail stRANGE
  else { w with out := joinOut a d w.out, stored := w.stored + n }

/-- Writes bytes at a herd address. -/
def Wk.write (w : Wk) (a : Nat) (d : Bytes) : Wk := w.writeN a d 0

/-- What the run wrote on other modules leaves as WRITE requests of at most 4 KiB (R279, R332), and what
LAST remembers is kept. Nothing of a run that must wait stands. -/
def Wk.sent (w : Wk) : Wk :=
  if !w.need.isEmpty || w.stall then w
  else
    let ps := w.out.reverse.flatMap (fun p =>
      (split4k (p.2.length / 4096 + 2) p.1 p.2.length).map (fun x => (x.1, bytesAt p.2 (x.1 - p.1) x.2)))
    let b := if w.tops.isEmpty then w.b else w.b.updFlight w.q w.seq (fun f => { f with burst := { f.burst with tops := w.tops } })
    if ps.isEmpty then { w with b := b }
    else
      let b := match b.flight? w.q w.seq with
        | none => b
        | some f => if f.out.isEmpty then b.sendOut w.q w.seq ps else b.updFlight w.q w.seq (fun f => { f with out := f.out ++ ps })
      let w := { w with b := b, out := [] }
      match b.flight? w.q w.seq with
      | none => w
      | some f => if isErr f.status then w.fail f.status else w

/-- Asks for the remote bytes that an entry needs; a piece without a path fails the entry. -/
def Blk.askRemote (b : Blk) (q seq : Nat) : List (Nat × Nat) → Blk × Nat
  | [] => (b, stOK)
  | (a, len) :: t =>
    let r := (split4k (len / 4096 + 2) a len).foldl (fun (x : Blk × Nat) p =>
      if x.2 != stOK then x
      else if x.1.fab.txns.any (fun k => k.q == q && k.seq == seq && k.addr == p.1 && k.len == p.2) then x
      else match x.1.request q seq 0x01 (haModule p.1) p.1 p.2 0 [] with
        | .sent b => (b, stOK)
        | .noPath b => (b, stUNREACH)
        | .noTxn => x) (b, stOK)
    if r.2 != stOK then r else r.1.askRemote q seq t

/-- What a wait does to the block: the exits from self-refresh and the remote reads it asked for. -/
def Wk.waits (w : Wk) (b0 : Blk) : Option Blk :=
  if w.stall then some { b0 with dies := w.b.dies, cu := { b0.cu with units := w.b.cu.units } }
  else if w.need.isEmpty then none
  else
    let (b, s) := b0.askRemote w.q w.seq w.need
    some (if s != stOK then b.finish w.q w.seq s 0 0 else b)

/-- The same for work that is a part of an operation: the block of a wait, or the work with its writes sent.
A piece without a path is a failure of the work. -/
def Wk.asks (w : Wk) (b0 : Blk) : Option Blk × Wk :=
  if w.stall then (w.waits b0, w)
  else if w.need.isEmpty then (none, w.sent)
  else
    let (b, s) := b0.askRemote w.q w.seq w.need
    if s != stOK then (none, { w with b := b, st := s, need := [], out := [] }) else (some b, w)

/-- Ends a command's work on its entry. While an access must wait or remote bytes are missing it asks for
them and changes nothing else; else its effect stands and the entry is finished. -/
def Wk.done (w : Wk) (b0 : Blk) (result : Nat) : Blk :=
  match w.waits b0 with
  | some b => b
  | none => let w := w.sent
            w.b.finish w.q w.seq w.st w.flags result

/-! ### Elements -/

/-- Where an element lies: the address of its storage unit and its number inside it; or nowhere. -/
structure Loc where
  addr : Nat
  sub : Nat
  /-- 0 inside; 1 below, 2 above (R267, R268) -/
  oob : Nat
  deriving DecidableEq, Repr

/-- R250, R278: the base and the outermost index that an index tuple uses. -/
def Dsc.basing (d : Desc) (outer : Int) : Nat × Int :=
  if Dsc.owner d then
    match d.owners.find? (fun o => decide ((o.1 : Int) ≤ outer) && decide (outer < (o.1 + o.2.1 : Nat))) with
    | some o => (o.2.2, outer - o.1)
    | none => (d.base, outer)
  else (d.base, outer)

/-- The location of element e. `clamp` brings an out-of-bounds position to the nearest end. -/
def Dsc.loc (d : Desc) (ixs : List Int) (clamp : Bool) (e : Nat) : Loc :=
  let i := Dsc.tuple (d.dims.take d.rank) e
  let raw := fun (k : Nat) =>
    let ik : Int := (i.getD k 0 : Nat)
    if Dsc.kind d = 1 && k = d.ixDim then ixs.getD (i.getD k 0) 0
    else if Dsc.kind d = 2 && k = d.ixDim then 0
    else if Dsc.kind d = 2 && k + 1 = d.ixDim then
      d.winStart + (i.getD d.ixDim 0 : Nat) * (d.winStep : Int) + ik * (d.winDil : Int)
    else ik
  let moved := fun (k : Nat) => (Dsc.kind d = 1 && k = d.ixDim) || (Dsc.kind d = 2 && k + 1 = d.ixDim)
  let below := (List.range d.rank).any (fun k => moved k && decide (raw k < 0))
  let above := (List.range d.rank).any (fun k => moved k && decide ((d.srcLen : Int) ≤ raw k))
  let src := fun (k : Nat) => if moved k && clamp then max 0 (min (raw k) ((d.srcLen : Int) - 1)) else raw k
  let (base, outer) := Dsc.basing d (src (d.rank - 1))
  let p := (List.range d.rank).foldl (fun (a : Int) k =>
    a + (if k + 1 = d.rank then outer else src k) * Dsc.str d k) 0
  let sub := if isBlock d.fmt then (p % (blkElems d.fmt : Int)).toNat else if fmtBits d.fmt = 4 then (p % 2).toNat else 0
  ⟨(((base : Int) + Dsc.byteOff d.fmt p) % 2 ^ 64).toNat, sub, if below then 1 else if above then 2 else 0⟩

/-- Raw bits of element `sub` in the bytes of its storage unit (R251). -/
def subRaw (fmt : Nat) (u : Bytes) (sub : Nat) : Nat :=
  let n := fmtBits fmt
  if isBlock fmt then (leNat u) / 2 ^ (n * sub) % 2 ^ n
  else if n = 4 then (u.getD 0 0).toNat / 16 ^ sub % 16
  else leNat u

/-- The exact value of raw bits in the storage unit they come from (R122). -/
def subVal (fmt : Nat) (u : Bytes) (raw : Nat) : Ex :=
  if isMX fmt then Ex.mul (decElem fmt raw) (decScale (fld u (blkBytes fmt - 1) 1))
  else if fmt = cCB4 then decF fbf16 (fld u (128 + 2 * (raw % 16)) 2)
  else decElem fmt raw

/-- A fill value's storage unit for block formats: the code in every element, scale 1 or a zero
codebook (R267, R274). -/
def fillBlock (fmt code : Nat) : Bytes :=
  let n := fmtBits fmt
  let m := (List.range (blkElems fmt)).foldl (fun a k => a + (code % 2 ^ n) * 2 ^ (n * k)) 0
  leBytes (blkElems fmt * n / 8) m ++ (if fmt = cCB4 then zeros 32 else [0x7F])

/-- Whether addresses ascend. -/
def ascends : List Nat → Bool
  | a :: c :: t => decide (a ≤ c) && ascends (c :: t)
  | _ => true

/-- Merges two ascending lists. -/
def mergeUp : Nat → List Nat → List Nat → List Nat
  | 0, l, r => l ++ r
  | _, [], r => r
  | _, l, [] => l
  | fuel + 1, a :: l, c :: r => if a ≤ c then a :: mergeUp fuel l (c :: r) else c :: mergeUp fuel (a :: l) r

/-- Sorts addresses; the fuel bounds the depth of the halves. -/
def sortUp : Nat → List Nat → List Nat
  | 0, l => l
  | fuel + 1, l =>
    if ascends l then l
    else
      let h := l.length / 2
      mergeUp l.length (sortUp fuel (l.take h)) (sortUp fuel (l.drop h))

/-- The ranges that reads of units of n bytes at ascending addresses take: each unit is in one range, units
that touch, or that lie in one half-group of this module, share one. -/
def readRuns (near : Nat → Bool) (n : Nat) : List Nat → List (Nat × Nat)
  | [] => []
  | a :: t =>
    match readRuns near n t with
    | (c, k) :: r =>
      if c ≤ a + n || (near c && (a + n - 1) / 64 == c / 64) then (a, max (a + n) (c + k) - a) :: r else (a, n) :: (c, k) :: r
    | [] => [(a, n)]

/-- Reads storage units of n bytes: every distinct one once (R263, R270). -/
def Wk.units (w : Wk) (n : Nat) (as : List Nat) : Wk × List Bytes :=
  let runs := readRuns w.b.haLocal n (sortUp 64 as)
  let (w, got) := runs.foldl (fun (s : Wk × List (Nat × Bytes)) r =>
    let (w, d) := s.1.read r.1 r.2
    (w, s.2 ++ [(r.1, d)])) (w, [])
  (w, as.map (fun a => match got.find? (fun g => decide (g.1 ≤ a) && decide (a + n ≤ g.1 + g.2.length)) with
    | some g => bytesAt g.2 (a - g.1) n
    | none => zeros n))

/-- R267: the flags of a read at a location. -/
def Wk.readFlags (w : Wk) (l : Loc) : Wk :=
  let w := if l.oob = 1 then w.flag flagNegIndex else w
  if l.oob = 0 then w else w.flag (if w.normal then flagFill else flagClamp)

/-- The fill element of a descriptor (R254, R267). -/
def fillElem (d : Desc) : Elem :=
  if isBlock d.fmt then ⟨d.fill, fillBlock d.fmt d.fill⟩
  else ⟨d.fill % 2 ^ fmtBits d.fmt, leBytes (Dsc.unitBytes d.fmt) d.fill⟩

/-- Reads elements, in order; a position that repeats is read once (R263, R267). -/
def Wk.elems (w : Wk) (d : Desc) (ixs : List Int) (es : List Nat) : Wk × List Elem :=
  let ls := es.map (Dsc.loc d ixs (!w.normal))
  let w := ls.foldl Wk.readFlags w
  let fill := fun (l : Loc) => l.oob != 0 && w.normal
  let (w, us) := w.units (Dsc.unitBytes d.fmt) ((ls.filter (fun l => !fill l)).map Loc.addr)
  let rec place : List Loc → List Bytes → List Elem
    | [], _ => []
    | l :: t, u => if fill l then fillElem d :: place t u else ⟨subRaw d.fmt (u.headD []) l.sub, u.headD []⟩ :: place t u.tail
  (w, place ls us)

/-- R267: reads element e of a descriptor. -/
def Wk.elem (w : Wk) (d : Desc) (ixs : List Int) (e : Nat) : Wk × Elem :=
  let (w, xs) := w.elems d ixs [e]
  (w, xs.headD ⟨0, []⟩)

/-- The exact value of an element. -/
def Elem.val (x : Elem) (fmt : Nat) : Ex := subVal fmt x.unit x.raw

/-- R269: the index tensor of a descriptor, in its element order. -/
def Wk.indices (w : Wk) (d : Desc) : Wk × List Int :=
  if Dsc.kind d = 1 then
    match w.b.descOf w.q d.ixHandle with
    | none => (w.fail stDESC, [])
    | some ix =>
      let (w, xs) := w.elems ix [] (List.range (Dsc.count ix))
      (w, xs.map (fun x => sext 32 x.raw))
  else (w, [])

/-- The descriptor of a handle that a started entry named (R259, R260). -/
def Blk.fdesc (b : Blk) (f : Flight) (h : Nat) : Option Desc := if f.used.contains h then b.descOf f.q h else none

/-- The index tuple's elements of a whole tensor, in its element order. -/
def Wk.tensor (w : Wk) (d : Desc) : Wk × List Elem :=
  let (w, ixs) := w.indices d
  w.elems d ixs (List.range (Dsc.count d))

/-- Pieces of memory with the elements they hold; those that follow each other join. -/
def joinRuns : List (Nat × Bytes × Nat) → List (Nat × Bytes × Nat)
  | [] => []
  | (a, d, n) :: t =>
    match joinRuns t with
    | (c, e, m) :: r => if a + d.length = c then (a, d ++ e, n + m) :: r else (a, d, n) :: (c, e, m) :: r
    | [] => [(a, d, n)]

/-- Writes runs of bytes in order. -/
def Wk.writeRuns (w : Wk) : List (Nat × Bytes × Nat) → Wk
  | [] => w
  | (a, d, n) :: t => (w.writeN a d n).writeRuns t

/-- What an address is known by in the table of LAST. -/
def Loc.key (l : Loc) : Nat := l.addr * 256 + l.sub

/-- Stores element e at a location: a scatter position outside the source is discarded with its flag (R268),
and so is, under LAST, a value that a higher element number has passed (R264). -/
def Wk.lands (w : Wk) (d : Desc) (l : Loc) (e : Nat) : Wk × Bool :=
  if l.oob = 1 then (w.flag flagNegIndex, false)
  else if l.oob = 2 then (w.flag flagFill, false)
  else if Dsc.collide d = 1 && !Dsc.distinct d then
    (if e < tget 0 l.key w.tops then (w, false) else ({ w with tops := tset l.key e w.tops }, true))
  else (w, true)

/-- The elements that land, with their places, in order. -/
def Wk.landing (w : Wk) (d : Desc) (ixs : List Int) (es : List (Nat × Nat)) : Wk × List (Loc × Nat) :=
  es.foldl (fun (s : Wk × List (Loc × Nat)) e =>
    let l := Dsc.loc d ixs false e.1
    let (w, ok) := s.1.lands d l e.1
    (w, if ok then s.2 ++ [(l, e.2)] else s.2)) (w, [])

/-- Nibbles that share a byte, in order of address: the address, which halves are stored, their bits and how
many elements they are; of two stores of one nibble the later one stands. -/
def nibbles (l : List (Loc × Nat)) : List (Nat × Nat × Nat × Nat) :=
  let keys := (List.range l.length).zipWith (fun i (p : Loc × Nat) => (p.1.addr * 2 ^ 48 + i) * 32 + p.1.sub * 16 + p.2 % 16) l
  (sortUp 64 keys).foldr (fun x (r : List (Nat × Nat × Nat × Nat)) =>
    let a := x / 2 ^ 53
    let m := if x / 16 % 2 = 0 then 0xF else 0xF0
    let v := x % 16 * (if x / 16 % 2 = 0 then 1 else 16)
    match r with
    | (c, k, y, n) :: t => if c = a then (c, k ||| m, if k &&& m == 0 then y + v else y, n + 1) :: t else (a, m, v, 1) :: r
    | [] => [(a, m, v, 1)]) []

/-- Stores one element of a block format: its block is read, changed and written. -/
def Wk.putInBlock (w : Wk) (fmt : Nat) (p : Loc × Nat) : Wk :=
  let n := fmtBits fmt
  let (w, u) := w.read p.1.addr (blkBytes fmt)
  let m := leNat u
  let at' := 2 ^ (n * p.1.sub)
  w.writeN p.1.addr (leBytes (blkBytes fmt) (m - m / at' % 2 ^ n * at' + p.2 % 2 ^ n * at')) 1

/-- Stores raw element values at element numbers, in order. What follows each other in memory goes as one
write; a byte of which only one nibble is stored is read first. -/
def Wk.putAt (w : Wk) (d : Desc) (ixs : List Int) (es : List (Nat × Nat)) : Wk :=
  let (w, ls) := w.landing d ixs es
  if isBlock d.fmt then ls.foldl (fun (w : Wk) p => w.putInBlock d.fmt p) w
  else if fmtBits d.fmt = 4 then
    let ns := nibbles ls
    let (w, us) := w.units 1 ((ns.filter (fun n => n.2.1 != 0xFF)).map (fun n => n.1))
    let rec fill : List (Nat × Nat × Nat × Nat) → List Bytes → List (Nat × Bytes × Nat)
      | [], _ => []
      | (a, k, x, n) :: t, u =>
        if k = 0xFF then (a, leBytes 1 x, n) :: fill t u
        else (a, leBytes 1 ((leNat (u.headD []) &&& (0xFF ^^^ k)) + x), n) :: fill t u.tail
    w.writeRuns (joinRuns (fill ns us))
  else w.writeRuns (joinRuns (ls.map (fun p => (p.1.addr, leBytes (fmtBits d.fmt / 8) p.2, 1))))

/-- Stores one whole block whose first element is e. -/
def Wk.putBlock (w : Wk) (d : Desc) (ixs : List Int) (e : Nat) (u : Bytes) : Wk :=
  let l := Dsc.loc d ixs false e
  let (w, ok) := w.lands d l e
  if ok then w.writeN l.addr u (blkElems d.fmt) else w

/-- Stores raw element values from element number e0 on. -/
def Wk.putRaws (w : Wk) (d : Desc) (ixs : List Int) (e0 : Nat) (raws : List Nat) : Wk :=
  w.putAt d ixs ((List.range raws.length).map (fun i => (e0 + i, raws.getD i 0)))

/-- Rounds exact values into a descriptor's format and stores them from element number e0 on. -/
def Wk.putVals (w : Wk) (d : Desc) (ixs : List Int) (e0 : Nat) (xs : List Ex) : Wk :=
  let rs := xs.map (encElem d.fmt)
  let w := rs.foldl (fun (a : Wk) r => a.flag r.2) w
  w.putRaws d ixs e0 (rs.map (fun r => r.1))

/-- Stores bytes that the spec leaves undefined at a herd address of this module: memory changes and
nothing else is noted. -/
def Blk.smear (b : Blk) (rq : Req) (a : Nat) (d : Bytes) : Blk :=
  if b.haLocal a then { b with mem := (writeRange b rq (haMpa a) d).1.mem } else b

/-- The elements from e0 on, `n` of them, hold free values: what an operation that ended with an error
left undefined. -/
def Blk.scramble (b : Blk) (rq : Req) (d : Desc) (ixs : List Int) (e0 n : Nat) : Blk :=
  (List.range n).foldl (fun (b : Blk) i =>
    let l := Dsc.loc d ixs false (e0 + i)
    if l.oob != 0 then b
    else
      let b := b.smear rq l.addr ((List.range (Dsc.unitBytes d.fmt)).map (Config.freeByte b.ctr))
      { b with ctr := b.ctr + 1 }) b

/-- R271: a REJECT scatter names no position twice, and at most 2²⁴ indices. -/
def Wk.scatterOk (w : Wk) (d : Desc) (ixs : List Int) : Wk :=
  if Dsc.kind d = 1 && Dsc.collide d = 0 && Dsc.write d then
    let live := (ixs.filter (fun i => decide (0 ≤ i) && decide (i < (d.srcLen : Int)))).map Int.toNat
    if 2 ^ 24 < ixs.length then w.fail stDESC
    else if noDup live then w else w.fail stALIAS
  else w

/-- The index reads and the checks of R271 of the outputs of an entry. -/
def Wk.outsOk (w : Wk) (ds : List Desc) : Wk :=
  ds.foldl (fun (w : Wk) d =>
    let (w, ixs) := w.indices d
    w.scatterOk d ixs) w

end Sys2Proof.Machine
end

