-- ==== Sys2Proof/Machine/Bank.lean ====
section
/-! DEFINITION. The bank sequencer: the checks of R154, the plan (R155 to R158), and the programs of
unit commands that BANK_GEMV, BANK_EWISE, BANK_NORM and BANK_TABLE expand into (R159 to R179). -/

namespace Sys2Proof.Machine
open Sys2Proof

/-! ### Shared checks -/

/-- R177: an earlier bank operation of the queue pair has not begun its work. -/
def Blk.bankBefore (b : Blk) (q seq : Nat) : Bool :=
  (b.flights.takeWhile (fun g => !g.is q seq)).any (fun g =>
    g.q == q && g.stage != .done && decide (0x10 ≤ eOpcode g.raw) && decide (eOpcode g.raw ≤ 0x14) && (b.job? g.q g.seq).isNone)

/-- The started entry of an operation that has not begun its work; bank operations of a pair begin in queue
order (R177). -/
def Blk.fresh? (b : Blk) (q seq op : Nat) : Option Flight :=
  match b.running? q seq with
  | some f => if eOpcode f.raw = op && (b.job? q seq).isNone && !b.bankBefore q seq then some f else none
  | none => none

/-- The first nonzero status of a list of checks. -/
def firstBad : List Nat → Nat
  | [] => stOK
  | s :: t => if s != stOK then s else firstBad t

def need (c : Bool) (st : Nat) : Nat := if c then stOK else st

/-- Whether a handle names a descriptor with a format, that may be written where `write`. -/
def Blk.handleOk (b : Blk) (f : Flight) (h fmt : Nat) (write : Bool) : Bool :=
  match b.fdesc f h with
  | some d => d.fmt == fmt && (!write || Dsc.write d)
  | none => false

/-- Number of elements of a handle's tensor. -/
def Blk.countOf (b : Blk) (f : Flight) (h : Nat) : Nat := ((b.fdesc f h).map Dsc.count).getD 0

/-- An output descriptor without an accumulating mode (R265). -/
def Blk.plainOut (b : Blk) (f : Flight) (h : Nat) : Bool := ((b.fdesc f h).map (fun d => decide (Dsc.collide d < 2))).getD false

/-- The local span of a descriptor: first MPA and length. -/
def Blk.spanOf (b : Blk) (d : Desc) : Option Span :=
  if !b.haLocal d.base || Dsc.owner d then none
  else match Dsc.spanAt d d.base with
    | some (a, n) =>
      let base : Int := ((haModule d.base * 2 ^ 40 : Nat) : Int)
      if a < base then none else some ((a - base).toNat, n)
    | none => none

/-- The bank-local region that holds a tensor of the units. -/
def Blk.unitRegion (b : Blk) (d : Desc) : Option Region :=
  match b.spanOf d with
  | none => none
  | some (a, n) =>
    match b.struc.regionAt a with
    | some r => if r.isLocal && decide (a + n ≤ r.base + r.len) then some r else none
    | none => none

/-- Segments of a span. -/
def segsOf (s : Span) : List Nat :=
  let first := s.1 / 0x200000
  (List.range ((s.1 + s.2 + 0x1FFFFF) / 0x200000 - first)).map (first + ·)

/-- Checks 4 to 6 of R154 over the tensors of the units; `layer` where layer residency is required. -/
def Blk.unitTensors (b : Blk) (ds : List (Desc × Bool)) : Nat :=
  let place := ds.all (fun p => match b.unitRegion p.1 with | some r => !p.2 || r.isLayer | none => false)
  let segs := ds.flatMap (fun p => ((b.spanOf p.1).map segsOf).getD [])
  firstBad [need place stDESC, need (segs.all (fun s => (b.seg s).isOpen)) stCLASS,
    need (segs.all (fun s => b.struc.mapped s)) stRANGE]

/-- Starts work of the bank sequencer: port 8, class compute (R33, R89). -/
def Wk.bank (b : Blk) (f : Flight) : Wk :=
  let w := Wk.start b f 8
  { w with rq := { w.rq with cls := cCompute } }

/-- A unit command of an operation. -/
def ucmd (f : Flight) (ch op mask body : Nat) (data : Bytes) : UCmd :=
  ⟨ch, op, mask, body, data, some (f.q, f.seq), none, 0, false, false, false⟩

/-! ### Command bodies (R131 to R141) -/

def bodyPim (enter : Bool) (nvec wfmt afmt anchor : Nat) : Nat :=
  if enter then 2 ^ 43 + (nvec - 1) * 2 ^ 41 + wfmt * 2 ^ 33 + afmt * 2 ^ 25 + (anchor % 65536) * 2 ^ 9 else 0
def bodyOpl (target first count : Nat) : Nat := target * 2 ^ 42 + first * 2 ^ 34 + (count - 1) * 2 ^ 26
def bodyCact (banks : Nat) (pend : Bool) (row0 row1 : Nat) : Nat :=
  banks * 2 ^ 42 + b2n pend * 2 ^ 41 + row0 * 2 ^ 26 + row1 * 2 ^ 11
def bodyCrd (op banks gf gc set : Nat) (clear stream : Bool) (step lat seg : Nat) : Nat :=
  op * 2 ^ 41 + banks * 2 ^ 39 + gf * 2 ^ 36 + (gc - 1) * 2 ^ 33 + set * 2 ^ 31 + b2n clear * 2 ^ 30
    + b2n stream * 2 ^ 29 + step * 2 ^ 25 + lat * 2 ^ 17 + seg * 2 ^ 14
def bodyCwr (bank gf gc lat : Nat) : Nat := bank * 2 ^ 43 + gf * 2 ^ 40 + (gc - 1) * 2 ^ 37 + lat * 2 ^ 29
def bodyAcc (set count tag : Nat) : Nat := set * 2 ^ 40 + (count - 1) * 2 ^ 38 + tag * 2 ^ 14
def bodyTbl (bank part gen : Nat) : Nat := bank * 2 ^ 43 + part * 2 ^ 42 + gen * 2 ^ 34
def bodyLd (first count : Nat) : Nat := first * 2 ^ 40 + (count - 1) * 2 ^ 36
def bodyGo (first last reps gen : Nat) (useTbl : Bool) : Nat :=
  first * 2 ^ 40 + last * 2 ^ 36 + (reps - 1) * 2 ^ 20 + gen * 2 ^ 12 + b2n useTbl * 2 ^ 11
def bodyLew (lat count op : Nat) : Nat := lat * 2 ^ 36 + (count - 1) * 2 ^ 28 + op * 2 ^ 25
def bodyLstat (lat count set : Nat) : Nat := lat * 2 ^ 36 + (count - 1) * 2 ^ 28 + set * 2 ^ 26
/-- A step-list entry: kind, body and repetition controls (R142). -/
def entry (kind body : Nat) (repSet repTag repAdv : Bool) : Nat :=
  kind * 2 ^ 60 + b2n repSet * 2 ^ 59 + b2n repTag * 2 ^ 58 + b2n repAdv * 2 ^ 57 + body
/-- The data of a STEP_LD. -/
def entries (l : List Nat) : Bytes := l.flatMap (leBytes 8)
/-- The scalar word of an OPL. -/
def scalars (l : List Nat) : Bytes := bytesAt (l.flatMap (leBytes 4)) 0 32

/-! ### The GEMV plan -/

/-- E of R155. -/
def sliceLen (w : Nat) : Nat :=
  if w = cMXFP4 then 3840 else if isMX w then 1984 else if laneFour w then 4096 else if w = cBF16 then 1024 else 2048
/-- Elements per group (R155). -/
def groupLen (w : Nat) : Nat := if laneFour w then 512 else if w = cBF16 then 128 else 256
/-- What K must be a multiple of (R155). -/
def kMult (w : Nat) : Nat := if isMX w then 32 else groupLen w
def sliceCount (w k : Nat) : Nat := cdiv k (sliceLen w)
/-- Groups that a slice reads. -/
def sliceGroups (w k s : Nat) : Nat :=
  if isMX w || s + 1 < sliceCount w k then 8 else (k - (sliceCount w k - 1) * sliceLen w) / groupLen w
/-- Elements of a slice. -/
def sliceElems (w k s : Nat) : Nat := if s + 1 < sliceCount w k then sliceLen w else k - (sliceCount w k - 1) * sliceLen w

/-- A plan record (R156). -/
structure PRec where
  unit : Nat
  slice : Nat
  out : Nat
  row : Nat
  pairs : Nat
  rsv : Nat
  deriving DecidableEq, Repr

def recOf (d : Bytes) : PRec := ⟨fld d 0 2, fld d 2 2, fld d 4 4, fld d 8 2, fld d 0xA 2, fld d 0xC 4⟩
def recsOf (p : Bytes) : List PRec := (chunk 16 (p.length / 16) p).map recOf

/-- Whether half-open intervals, sorted by start, cover 0 to n without gap or overlap. -/
def tiles : List (Nat × Nat) → Nat → Nat → Bool
  | [], at', n => decide (n ≤ at')
  | (a, z) :: t, at', n => a == at' && tiles t z n

/-- R157, with the field rules of R156. -/
def Blk.planOk (b : Blk) (p : Bytes) (n k w : Nat) (wd : Desc) : Bool :=
  let rs := recsOf p
  let s := sliceCount w k
  let even := 2 * cdiv n 2
  let fields := rs.all (fun r =>
    decide (r.unit < 6144) && decide (r.slice < s) && r.out % 2 == 0 && decide (r.out + 2 * r.pairs ≤ even)
      && decide (1 ≤ r.pairs) && decide (r.row + r.pairs ≤ 32768) && r.rsv == 0)
  let cover := (List.range s).all (fun i =>
    let iv := ((rs.filter (fun r => r.slice == i)).map (fun r => (r.out, r.out + 2 * r.pairs))).mergeSort (fun a c => decide (a.1 ≤ c.1))
    tiles iv 0 n)
  let rows := match b.unitRegion wd with
    | none => false
    | some g => rs.all (fun r => (List.range r.pairs).all (fun j =>
        [0, 1].all (fun side => g.names (unitCh r.unit) (unitBank r.unit side) (r.row + j))))
  let bf := w != cBF16 || rs.all (fun r =>
    decide ((rs.filter (fun t => unitStack t.unit == unitStack r.unit && decide (t.out ≤ r.out) && decide (r.out < t.out + 2 * t.pairs))).length ≤ 32))
  p.length % 16 == 0 && decide (1 ≤ rs.length) && decide (rs.length ≤ 65536) && fields && cover && rows
    && rs.all (fun r => b.eligible r.unit) && bf

/-- The copy that the plan store holds for a handle (R158, R185, R256). -/
def Blk.planOf (b : Blk) (h kind : Nat) : Option Bytes :=
  (b.plans.find? (fun p => p.handle == h && p.kind == kind)).map PlanCopy.data

/-- Free bytes of the 16 MiB plan store. -/
def Blk.planRoom (b : Blk) : Nat := 16 * 2 ^ 20 - b.plans.foldl (fun a p => a + p.data.length) 0

def Blk.keepPlan (b : Blk) (h kind : Nat) (d : Bytes) : Blk :=
  { b with plans := b.plans.filter (fun p => !(p.handle == h && p.kind == kind)) ++ [⟨h, kind, d, [], []⟩] }

/-! ### BANK_GEMV (R159 to R168) -/

namespace Gemv

def wfmt (e : Bytes) : Nat := fld e 0x20 1
def afmt (e : Bytes) : Nat := fld e 0x21 1
def ofmt (e : Bytes) : Nat := fld e 0x22 1
def batch (e : Bytes) : Nat := fld e 0x23 1
def anchor (e : Bytes) : Nat := fld e 0x24 2
def flags (e : Bytes) : Nat := fld e 0x26 1
def select (e : Bytes) : Bool := (flags e).testBit 0
def expand (e : Bytes) : Bool := (flags e).testBit 1
def destBank (e : Bytes) : Bool := (flags e).testBit 2
def scaled (e : Bytes) : Bool := (flags e).testBit 3
def gen (e : Bytes) : Nat := fld e 0x27 1
def n (e : Bytes) : Nat := fld e 0x28 4
def k (e : Bytes) : Nat := fld e 0x2C 4
def scale (e : Bytes) : Nat := fld e 0x30 4
def sel (e : Bytes) : Nat := fld e 0x34 4

/-- Passes and vectors of a pass (R160). -/
def passes (e : Bytes) : Nat := cdiv (batch e) (nvecMax (wfmt e))
def nvec (e : Bytes) (p : Nat) : Nat := min (nvecMax (wfmt e)) (batch e - p * nvecMax (wfmt e))
/-- Outputs per tag window (R162). -/
def winLen (e : Bytes) (p : Nat) : Nat := 65536 / nvec e p / 2 * 2
def wins (e : Bytes) (p : Nat) : Nat := cdiv (n e) (winLen e p)
/-- The number of a window across passes. -/
def winNo (p w : Nat) : Nat := (p * 2048 + w) * 2 ^ 20

def outFmts : List Nat := [cFP32, cBF16, cFP16, cE4M3, cE5M2, cINT8, cUINT8, cINT32, cWIDE96]

/-- Whether outputs 2j and 2j + 1 are computed (R167). -/
def picked (e mask : Bytes) (j : Nat) : Bool := !select e || ((mask.getD (j / 8) 0).toNat).testBit (j % 8)
/-- Outputs computed (R168). -/
def computed (e mask : Bytes) : Nat := ((List.range (n e)).filter (fun i => picked e mask (i / 2))).length

end Gemv

/-- Checks 1 to 6 of R154 for a BANK_GEMV. -/
def Blk.gemvCheck (b : Blk) (f : Flight) : Nat :=
  let e := f.raw
  let h := eHandle e
  let w := Gemv.wfmt e
  let valid := (b.fdesc f (h 0)).isSome && (b.fdesc f (h 1)).isSome && (b.fdesc f (h 2)).isSome && (b.fdesc f (h 3)).isSome
    && (!Gemv.select e || (b.fdesc f (Gemv.sel e)).isSome) && fmtListed w && fmtListed (Gemv.afmt e) && fmtListed (Gemv.ofmt e)
  let combo := pairOk w (Gemv.afmt e) && Gemv.outFmts.contains (Gemv.ofmt e)
    && !(Gemv.ofmt e == cWIDE96 && (w == cBF16 || Gemv.scaled e))
  let shapes := decide (1 ≤ Gemv.batch e) && decide (Gemv.batch e ≤ 16) && (isWindow w || Gemv.anchor e == 0)
    && decide (Gemv.flags e < 16) && (w == cCB4 || Gemv.gen e == 0)
    && decide (1 ≤ Gemv.n e) && decide (Gemv.n e ≤ 16777216)
    && decide (1 ≤ Gemv.k e) && multOf (Gemv.k e) (kMult w) && (w == cBF16 || decide (Gemv.k e ≤ 1048576))
    && (Gemv.select e || Gemv.sel e == 0) && zeroAt e 0x38 72
    && b.handleOk f (h 0) w false && b.handleOk f (h 1) (Gemv.afmt e) false && b.handleOk f (h 2) (Gemv.ofmt e) true
    && b.handleOk f (h 3) cUINT8 false && (!Gemv.select e || b.handleOk f (Gemv.sel e) cUINT8 false)
    && b.countOf f (h 1) == Gemv.batch e * Gemv.k e && b.countOf f (h 2) == Gemv.batch e * Gemv.n e
    && (!Gemv.select e || b.countOf f (Gemv.sel e) == cdiv (Gemv.n e) 16) && b.plainOut f (h 2)
  let st := firstBad [need valid stDESC, need combo stDESC, need shapes stDESC]
  if st != stOK then st
  else match b.fdesc f (h 0), b.fdesc f (h 2) with
    | some wd, some yd => b.unitTensors ((wd, false) :: (if Gemv.destBank e then [(yd, true)] else []))
    | _, _ => stDESC

/-- R179: every record lies in the stack that holds Y, and Y ends on group boundaries. -/
def Blk.oneStack (b : Blk) (d : Desc) (units : List Nat) : Bool :=
  match b.unitRegion d, b.spanOf d with
  | some r, some (a, n) =>
    let s := unitStack (units.getD 0 0)
    units.all (fun u => unitStack u == s)
      && (List.range (cdiv n 256 + 1)).all (fun i =>
        let o := a + 256 * i
        decide (a + n ≤ o) || gidCh (r.place o).1 / 24 == s)
      && a % 256 == 0 && n % 256 == 0
  | _, _ => false

/-- The latch words of one vector for a slice: element bytes, padded to whole words (R161). -/
def latchData (afmt : Nat) (els : List (Nat × Nat)) (words : Nat) : Bytes :=
  bytesAt (els.flatMap (fun x => leBytes (if afmt = cBF16 then 2 else 1) x.1)) 0 (32 * words)

/-- Splits a record at window boundaries and keeps only runs of selected pairs (R162, R167): window,
first output, first row, pairs. -/
def runsOf (e mask : Bytes) (p : Nat) (r : PRec) : List (Nat × Nat × Nat × Nat) :=
  let m := Gemv.winLen e p
  (List.range r.pairs).foldl (fun (l : List (Nat × Nat × Nat × Nat)) j =>
    let out := r.out + 2 * j
    let w := out / m
    if !Gemv.picked e mask (out / 2) then l
    else match l.reverse with
      | (w', o', row', n') :: t =>
        if w' = w && o' + 2 * n' = out then (t.reverse) ++ [(w, o', row', n' + 1)] else l ++ [(w, out, r.row + j, 1)]
      | [] => [(w, out, r.row + j, 1)]) []

/-- The operands of X, element by element, as raw value and scale byte; kept packed in the job. -/
def xPairs (x : Bytes) : List (Nat × Nat) := (chunk 3 (x.length / 3) x).map (fun c => (fld c 0 2, fld c 2 1))

/-- Commands of one record of a pass: its step list, rows and STEP_GOs (R161). -/
def recCmds (f : Flight) (p item : Nat) (r : PRec) (runs : List (Nat × Nat × Nat × Nat)) : List UCmd :=
  let e := f.raw
  let w := Gemv.wfmt e
  let nv := Gemv.nvec e p
  let ch := unitCh r.unit
  let mask := 2 ^ unitPair r.unit
  let g := sliceGroups w (Gemv.k e) r.slice
  let cb := w == cCB4
  runs.flatMap (fun (x : Nat × Nat × Nat × Nat) =>
    let (win, out, row, n) := x
    let t := ((out - win * Gemv.winLen e p) * nv) % 65536
    let wn := some (Gemv.winNo p win)
    let set := (n - 1) % 4
    let list :=
      [entry 4 (bodyCrd 0 3 0 g 0 true true 1 0 0) true false false, entry 6 (bodyAcc 0 1 t) true true false,
       entry 4 (bodyCrd 0 3 0 g set true true 0 0 0) false false false,
       entry 6 (bodyAcc set 1 ((t + (n - 1) * 2 * nv) % 65536)) false false false]
    let c := ucmd f ch
    [c 8 mask (bodyLd 0 4) (entries list), { c 3 mask (bodyCact 3 false row row) [] with hold := true }]
      ++ (if 1 < n then [{ c 9 mask (bodyGo 0 1 (n - 1) (Gemv.gen e) cb) [] with win := wn, item := item, hold := true }] else [])
      ++ [{ c 9 mask (bodyGo 2 3 1 (Gemv.gen e) cb) [] with win := wn, item := item, fin := true }])

/-- A record, or the part of it in one window, of a pass (R162): window, record number, record. -/
abbrev WRec := Nat × Nat × PRec

/-- Groups the records of a pass that share channel and slice, with no unit twice (R161). -/
def shareRecs : List WRec → List (List WRec) → List (List WRec)
  | [], acc => acc
  | x :: t, acc =>
    let fits := fun (g : List WRec) =>
      g.all (fun y => y.2.2.slice == x.2.2.slice && unitCh y.2.2.unit == unitCh x.2.2.unit && y.2.2.unit != x.2.2.unit)
    -- a unit's records stay in order: only the last group that names it or a later one may take it
    let after := (acc.reverse.takeWhile (fun g => g.all (fun y => y.2.2.unit != x.2.2.unit))).reverse
    let k := acc.length - after.length
    match after.findIdx? fits with
    | some i => shareRecs t (acc.set (k + i) ((acc.getD (k + i) []) ++ [x]))
    | none => shareRecs t (acc ++ [[x]])

/-- The pairs of a set of records of one channel, as a mask. -/
def recMask (g : List WRec) : Nat := g.foldl (fun a y => setBit a (unitPair y.2.2.unit)) 0

/-- Steps 1 and 2 of R161 for the records that share a slice: compute mode and operands. -/
def groupHead (f : Flight) (xs : List (Nat × Nat)) (p : Nat) (g : List WRec) : List UCmd :=
  match g with
  | [] => []
  | (_, _, r0) :: _ =>
    let e := f.raw
    let w := Gemv.wfmt e
    let k := Gemv.k e
    let nv := Gemv.nvec e p
    let m := recMask g
    let gr := sliceGroups w k r0.slice
    let words := (if laneFour w then 16 else 8) * gr
    let len := sliceElems w k r0.slice
    let base := r0.slice * sliceLen w
    let els := fun (v : Nat) => (xs.drop ((p * nvecMax w + v) * k + base)).take len
    let c := ucmd f (unitCh r0.unit)
    let opls := (List.range nv).map (fun v =>
      c 2 m (bodyOpl 0 (areaWords w * v) words) (latchData (Gemv.afmt e) (els v) words))
    let sc := (List.range nv).flatMap (fun v =>
      bytesAt (((List.range (len / 32)).map (fun j => BitVec.ofNat 8 ((els v).getD (32 * j) (0, 0)).2))) 0 (areaWords w))
    let scs := if isMX w then [c 2 m (bodyOpl 1 0 (cdiv sc.length 32)) sc] else []
    [c 1 m (bodyPim true nv w (Gemv.afmt e) (Gemv.anchor e)) []] ++ opls ++ scs

/-- The program of one pass (R160 to R162): records window by window; those that share a slice enter compute
mode and take their operands together, and those of one window leave it together. -/
def gemvPass (f : Flight) (plan x mask : Bytes) (p : Nat) : List UCmd :=
  let e := f.raw
  let xs := xPairs x
  let rs := recsOf plan
  let wins := List.range (Gemv.wins e p)
  let all : List WRec := wins.flatMap (fun win =>
    (((List.range rs.length).zip rs).filter (fun y => (runsOf e mask p y.2).any (fun z => z.1 == win))).map (fun y => (win, y.1, y.2)))
  let gs := shareRecs all []
  wins.flatMap (fun win => gs.flatMap (fun g =>
    let mine := g.filter (fun y => y.1 == win)
    match mine, g with
    | (_, _, r) :: _, first :: _ =>
      (if first.1 = win then groupHead f xs p g else [])
        ++ mine.flatMap (fun y => recCmds f p y.2.1 y.2.2 ((runsOf e mask p y.2.2).filter (fun z => z.1 == win)))
        ++ [ucmd f (unitCh r.unit) 1 (recMask mine) 0 []]
    | _, _ => []))

/-- The windows that a pass waits for, with the stacks that deliver to each. -/
def winsOf (e : Bytes) (p : Nat) (prog : List UCmd) : List WinSum :=
  (List.range (Gemv.wins e p)).map (fun w =>
    let wn := Gemv.winNo p w
    ⟨wn, ((prog.filter (fun c => c.fin && c.win == some wn)).map (fun c => stackOfCh c.ch)).eraseDups, []⟩)

/-- A job with nothing in it. -/
def Job.blank (q seq : Nat) : Job where
  q := q
  seq := seq
  prog := []
  errs := []
  flags := 0
  wins := []
  combined := []
  pass := 0
  accepted := 0
  refused := 0
  result := 0
  x := []
  kv := []
  sel := []
  plan := []
  heads := []
  rows := []
  failed := false
  chans := []
  anchors := []
  lists := []
  stacksHeld := []
  spoil := []
  ybuf := []

/-- The inline result of R168: outputs computed, passes begun, windows of the first pass. -/
def gemvResult (outs pass : Nat) (e : Bytes) : Nat := outs + (pass + 1) * 2 ^ 32 + (Gemv.wins e 0 % 65536) * 2 ^ 48

/-- Once the plan is at hand: its check, the select mask, X, and the first pass. -/
def Blk.gemvGo (b : Blk) (f : Flight) (plan : Bytes) : Blk :=
  let e := f.raw
  let h := eHandle e
  match b.fdesc f (h 0), b.fdesc f (h 1), b.fdesc f (h 2) with
  | some wd, some xd, some yd =>
    if !b.planOk plan (Gemv.n e) (Gemv.k e) (Gemv.wfmt e) wd then b.finish f.q f.seq stDESC 0 0
    else if Gemv.destBank e && !b.oneStack yd ((recsOf plan).map PRec.unit) then b.finish f.q f.seq stDESC 0 0
    else
      let w := Wk.bank b f
      let (w, ms) := match b.fdesc f (Gemv.sel e) with
        | some md => if Gemv.select e then w.tensor md else (w, [])
        | none => (w, [])
      let (w, xs) := w.tensor xd
      match w.waits b with
      | some b => b
      | none =>
        let w := w.outsOk [yd]
        if (w.waits b).isSome then (w.waits b).getD b
        else if w.bad then w.b.finish f.q f.seq w.st w.flags 0
        else
          let x := xs.flatMap (fun y => leBytes 2 y.raw ++ leBytes 1 (if isMX xd.fmt then fld y.unit (blkBytes xd.fmt - 1) 1 else 0))
          let mask := ms.flatMap (fun y => leBytes 1 y.raw)
          let prog := gemvPass f plan x mask 0
          let j := { Job.blank f.q f.seq with
            result := gemvResult (Gemv.computed e mask) 0 e
            prog := prog
            wins := winsOf e 0 prog
            flags := w.flags
            x := x
            sel := mask
            plan := plan
            chans := if Gemv.passes e ≤ 1 then [] else ((recsOf plan).map (fun r => unitCh r.unit)).eraseDups }
          w.b.setJobs (w.b.cu.jobs ++ [j])
  | _, _, _ => b.finish f.q f.seq stDESC 0 0

/-- BANK_GEMV (R159): the checks; a plan that the store does not hold is read first. -/
def Blk.gemvStart (b : Blk) (q seq : Nat) : Blk :=
  match b.fresh? q seq 0x10 with
  | none => b
  | some f =>
    let st := b.gemvCheck f
    if st != stOK then b.finish q seq st 0 0
    else match b.planOf (eHandle f.raw 3) 0 with
      | some p => b.gemvGo f p
      | none => b.updFlight q seq (fun f => { f with progress := 1 })


/-- R163: the sum of one stack's FP32 partials of a tag, by record within a die, then by die_order. -/
def stackFp (order : List Nat) (stack : Nat) (a : TagAcc) : Option Nat :=
  let die := fun (d : Nat) => match (a.fps.filter (fun p => p.2.1 == 12 * stack + d)).map (fun p => p.2.2) with
    | [] => none
    | x :: t => some (t.foldl f32add x)
  match order.filterMap die with
  | [] => none
  | x :: t => some (t.foldl f32add x)

/-- R166, R30: the hub's sum for one tag over the delivered stacks; exact units, or FP32. -/
def Blk.hubSum (b : Blk) (bf : Bool) (got : List TreeCtx) (tag : Nat) : Ex :=
  if bf then
    let one := fun (s : Nat) => match got.find? (fun t => t.stack == s) with
      | some t => stackFp (b.struc.dieOrder.getD s []) s (tget .zero tag t.tags)
      | none => none
    match b.struc.hubOrder.filterMap one with
    | [] => .zero
    | x :: t => f32 (t.foldl f32add x)
  else exSum (got.map (fun t => decWide (tget TagAcc.zero tag t.tags).wide))

/-- The value of output n, vector v of a window before its one rounding (R166). -/
def Blk.gemvVal (b : Blk) (e : Bytes) (got : List TreeCtx) (tag : Nat) : Ex :=
  let s := b.hubSum (Gemv.wfmt e == cBF16) got tag
  let s := if Gemv.wfmt e == cBF16 || Gemv.ofmt e == cWIDE96 then s
    else s.scale (wideExp (Gemv.wfmt e) (Gemv.afmt e) (Gemv.anchor e))
  plusZero (if Gemv.scaled e then Ex.mul s (f32 (Gemv.scale e)) else s)

/-- The outputs of a window with their element numbers (R166, R167): those that are not selected are +0, or
are left out where Y keeps them. -/
def Blk.gemvVals (b : Blk) (e mask : Bytes) (p win : Nat) (got : List TreeCtx) : List (Nat × Ex) :=
  let nv := Gemv.nvec e p
  let m := Gemv.winLen e p
  let len := min m (Gemv.n e - win * m)
  (List.range nv).flatMap (fun v =>
    let row := (p * nvecMax (Gemv.wfmt e) + v) * Gemv.n e + win * m
    (List.range len).filterMap (fun i =>
      if Gemv.picked e mask ((win * m + i) / 2) then some (row + i, b.gemvVal e got (i * nv + v))
      else if Gemv.expand e then none else some (row + i, .zero)))

/-- Pieces of memory in order of address, those that touch joined; of two pieces for one address the later
one stands last. -/
def sortRuns (l : List (Nat × Bytes)) : List (Nat × Bytes × Nat) :=
  let arr := l.toArray
  let keys := (List.range l.length).map (fun i => (arr.getD i (0, [])).1 * 2 ^ 48 + i)
  joinRuns ((sortUp 64 keys).map (fun k => let x := arr.getD (k % 2 ^ 48) (0, []); (x.1, x.2, 0)))

/-- The whole groups of a run of bytes, and what is left at its ends. -/
def wholeGroups (a : Nat) (d : Bytes) : List (Nat × Bytes × Nat) × List (Nat × Bytes) :=
  let lo := (a + 255) / 256 * 256
  let hi := (a + d.length) / 256 * 256
  if hi ≤ lo then ([], [(a, d)])
  else ([(lo, bytesAt d (lo - a) (hi - lo), 0)],
    [(a, d.take (lo - a)), (hi, d.drop (hi - a))].filter (fun p => !p.2.isEmpty))

/-- R179: the base die writes whole groups; bytes of groups that are not whole wait, and go as they are with
the operation's last window. -/
def Wk.bankOut (w : Wk) (yd : Desc) (old : List (Nat × Bytes)) (rs : List (Nat × Nat)) (last : Bool) : Wk × List (Nat × Bytes) :=
  let n := fmtBits yd.fmt / 8
  let new := rs.map (fun r => ((Dsc.loc yd [] false r.1).addr, leBytes n r.2))
  let ps := (sortRuns (old ++ new)).map (fun r => wholeGroups r.1 r.2.1)
  let w := w.writeRuns (ps.flatMap (fun p => p.1))
  let rest := ps.flatMap (fun p => p.2)
  if last then (w.writeRuns (rest.map (fun p => (p.1, p.2, 0))), []) else (w, rest)

/-- The outputs of a window of a BANK_GEMV go to Y (R166, R167, R179): the work, and the bytes that wait for
their groups. -/
def Blk.gemvStore (b : Blk) (f : Flight) (j : Job) (ws : WinSum) (yd : Desc) : Wk × List (Nat × Bytes) :=
  let e := f.raw
  let p := ws.win / 2 ^ 20 / 2048
  let last := decide (Gemv.passes e ≤ p + 1) && j.wins.all (fun x => x.win == ws.win || j.combined.contains x.win)
  let rs := (b.gemvVals e j.sel p (ws.win / 2 ^ 20 % 2048) ws.got).map (fun x => (x.1, encElem yd.fmt x.2))
  let (w, ixs) := (Wk.bank b f).indices yd
  let w := rs.foldl (fun (w : Wk) r => w.flag r.2.2) w
  let raws := rs.map (fun r => (r.1, r.2.1))
  if Gemv.destBank e then w.bankOut yd j.ybuf raws last else (w.putAt yd ixs raws, [])

/-- HUB_WINDOW_COMBINE of a BANK_GEMV (R166, R160). -/
def Blk.gemvCombine (b : Blk) (f : Flight) (j : Job) (ws : WinSum) : Blk :=
  match b.fdesc f (eHandle f.raw 2) with
  | none => b
  | some yd =>
    let (w, rest) := b.gemvStore f j ws yd
    match w.asks b with
    | (some b, _) => b
    | (none, w) =>
      let b := w.b.updJob f.q f.seq (fun k => { k with combined := ws.win :: k.combined, flags := k.flags ||| w.flags, ybuf := rest })
      if w.bad then
        (b.updJob f.q f.seq (fun k => { k with errs := (6144, w.st) :: k.errs, prog := [], chans := [], failed := true })).jobSettle (some (f.q, f.seq))
      else b

/-- R160: the next pass begins, or the operation ends, once every window of the pass is combined and
nothing works for it any more. -/
def Blk.gemvAdvance (b : Blk) (f : Flight) (j : Job) : Blk :=
  let e := f.raw
  if !j.wins.all (fun x => j.combined.contains x.win) then b
  else if j.pass + 1 < Gemv.passes e then
    let prog := gemvPass f j.plan j.x j.sel (j.pass + 1)
    b.updJob f.q f.seq (fun k => { k with
      pass := k.pass + 1
      result := gemvResult (Gemv.computed e j.sel) (k.pass + 1) e
      prog := prog
      wins := winsOf e (k.pass + 1) prog
      chans := if Gemv.passes e ≤ k.pass + 2 then [] else k.chans
      combined := [] })
  else b.jobEnd j stOK j.flags j.result

/-! ### Row sets of in-bank tensors (R170, R171) -/

/-- Where the first byte of an element lies: unit, bank side, row, byte in the row. -/
structure Spot where
  unit : Nat
  side : Nat
  row : Nat
  byte : Nat
  deriving DecidableEq, Repr

def Blk.spot (b : Blk) (d : Desc) (e : Nat) : Option Spot :=
  let m := haMpa (Dsc.loc d [] false e).addr
  match b.struc.regionAt m with
  | none => none
  | some r =>
    let (g, i) := r.place m
    let ch := gidCh g
    some ⟨unitNo ch (gidBank g / 2), gidBank g % 2, gidRow g, 256 * gidGrp g + i⟩

/-- A set of rows, one per tensor, with the run of groups concerned (R171). -/
structure RowSet where
  unit : Nat
  /-- side and row of each tensor, in the order of the operation -/
  places : List (Nat × Nat)
  gf : Nat
  gc : Nat
  deriving DecidableEq, Repr

/-- Whether every spot lies in the unit and at the byte of the first (R170). -/
def spotsAgree (l : List Spot) : Bool :=
  match l with
  | [] => true
  | s :: t => t.all (fun x => x.unit == s.unit && x.byte == s.byte)

/-- Adds element spots to the row sets: consecutive bytes of the same rows join. -/
def addSpots (acc : List (Nat × List (Nat × Nat) × List Nat)) (l : List Spot) : List (Nat × List (Nat × Nat) × List Nat) :=
  match l with
  | [] => acc
  | s :: _ =>
    let key := l.map (fun x => (x.side, x.row))
    match acc.find? (fun a => a.1 == s.unit && a.2.1 == key) with
    | some _ => acc.map (fun a => if a.1 == s.unit && a.2.1 == key then (a.1, a.2.1, a.2.2 ++ [s.byte]) else a)
    | none => acc ++ [(s.unit, key, [s.byte])]

/-- Runs of consecutive numbers in a sorted list: first and count. -/
def runsNat : List Nat → List (Nat × Nat)
  | [] => []
  | a :: t =>
    match runsNat t with
    | (c, n) :: r => if a + 1 = c then (a, n + 1) :: r else (a, 1) :: (c, n) :: r
    | [] => [(a, 1)]

/-- The row sets of tensors over element numbers; none where R170 does not hold. `els` gives, for
each index, the element number of each tensor. -/
def Blk.rowSets (b : Blk) (ds : List Desc) (bytes : Nat) (els : List (List Nat)) : Option (List RowSet) :=
  let spots := els.map (fun es => (ds.zip es).map (fun p => b.spot p.1 p.2))
  if spots.any (fun l => l.any Option.isNone) then none
  else
    let ls := spots.map (fun l => l.filterMap id)
    if !ls.all spotsAgree then none
    else
      let sets := ls.foldl addSpots []
      -- every group that a set touches is touched whole
      let groups := fun (bs : List Nat) => ((bs.map (· / 256)).eraseDups).mergeSort (fun a c => decide (a ≤ c))
      let whole := sets.all (fun s => (groups s.2.2).all (fun g => (s.2.2.filter (fun x => x / 256 == g)).length * bytes == 256))
      if !whole then none
      else some (sets.flatMap (fun s => (runsNat (groups s.2.2)).map (fun r => ⟨s.1, s.2.1, r.1, r.2⟩)))

/-- A step-list entry run at once: STEP_LD over entry 0 and STEP_GO of it. -/
def localStep (c : Nat → Nat → Nat → Bytes → UCmd) (mask e : Nat) : List UCmd :=
  [c 8 mask (bodyLd 0 1) (entries [e]), { c 9 mask (bodyGo 0 0 1 0 false) [] with hold := true }]

/-- A row's place in a unit: bank side and row. -/
abbrev Place := Nat × Nat

/-- CACT of a row, unless the unit's program has it current; and the current rows after it (R171). -/
def openSet (c : Nat → Nat → Nat → Bytes → UCmd) (mask : Nat) (p : Place) (cur : List (Option Nat)) : List UCmd × List (Option Nat) :=
  if cur.getD p.1 none = some p.2 then ([], cur)
  else ([{ c 3 mask (bodyCact (2 ^ p.1) false (if p.1 = 0 then p.2 else 0) (if p.1 = 0 then 0 else p.2)) [] with hold := true }],
    setRow cur p.1 (some p.2))

/-- A CRD over groups of a current row, pairing with latch words from 0 (R171). -/
def readCols (c : Nat → Nat → Nat → Bytes → UCmd) (mask op : Nat) (p : Place) (gf gc : Nat) : UCmd :=
  { c 4 mask (bodyCrd op (2 ^ p.1) gf gc 0 false false 0 ((64 - 8 * gf) % 64) 0) [] with hold := true }

/-- A CWR over groups of a current row. -/
def writeCols (c : Nat → Nat → Nat → Bytes → UCmd) (mask : Nat) (p : Place) (gf gc : Nat) : UCmd :=
  { c 5 mask (bodyCwr p.1 gf gc 0) [] with hold := true }

/-- Frees the slot at the last step of a unit's part. -/
def dropHold : List UCmd → List UCmd
  | [] => []
  | [c] => [{ c with hold := false }]
  | c :: t => c :: dropHold t

/-! ### BANK_EWISE (R169 to R171) -/

def ewPair (i o : Nat) : Bool :=
  (i == cBF16 && o == cBF16) || ((i == cE4M3 || i == cE5M2) && (o == cE4M3 || o == cE5M2))
    || ((i == cINT8 || i == cUINT8) && (o == cINT8 || o == cUINT8))

/-- The program of a BANK_EWISE over its row sets, whose places are a, b where present, out. -/
def ewProg (f : Flight) (sets : List RowSet) : List UCmd :=
  let e := f.raw
  let op := fld e 0x20 1
  let sops := fld e 0x23 1
  let units := (sets.map RowSet.unit).eraseDups
  units.flatMap (fun u =>
    let c := ucmd f (unitCh u)
    let m := 2 ^ unitPair u
    let body := (sets.filter (fun s => s.unit == u)).flatMap (fun s =>
      let lew := fun (bit sOff k : Nat) =>
        if sops.testBit bit then
          [c 2 m (bodyOpl 2 0 1) (scalars [fld e sOff 4])] ++ localStep c m (entry 0xD (bodyLew 0 (8 * s.gc) k) false false false)
        else []
      let pa := s.places.getD 0 (0, 0)
      let pb := s.places.getD 1 (0, 0)
      let po := s.places.getLastD (0, 0)
      let (openA, cur) := openSet c m pa [none, none]
      let (openB, cur) := if op = 3 then ([], cur) else openSet c m pb cur
      let (openO, _) := openSet c m po cur
      [c 2 m (bodyOpl 0 0 (8 * s.gc)) (zeros (256 * s.gc))] ++ openA ++ [readCols c m 2 pa s.gf s.gc]
        ++ (if op = 3 then [] else openB ++ [readCols c m (op + 2) pb s.gf s.gc])
        ++ lew 0 0x24 0 ++ lew 1 0x28 1 ++ lew 2 0x2C 2
        ++ openO ++ [writeCols c m po s.gf s.gc])
    [c 1 m (bodyPim true 1 (fld e 0x21 1) (fld e 0x22 1) 0) []] ++ dropHold body ++ [c 1 m 0 []])

/-- BANK_EWISE (R169): its checks and its program. -/
def Blk.ewStart (b : Blk) (q seq : Nat) : Blk :=
  match b.fresh? q seq 0x12 with
  | none => b
  | some f =>
    let e := f.raw
    let h := eHandle e
    let op := fld e 0x20 1
    let fi := fld e 0x21 1
    let fo := fld e 0x22 1
    let two := h 1 != 0
    let valid := (b.fdesc f (h 0)).isSome && (!two || (b.fdesc f (h 1)).isSome) && (b.fdesc f (h 2)).isSome && fmtListed fi && fmtListed fo
    let shapes := h 3 == 0 && decide (op ≤ 3) && (if op = 3 then !two else two) && decide (fld e 0x23 1 < 8) && zeroAt e 0x30 80
      && b.handleOk f (h 0) fi false && (!two || b.handleOk f (h 1) fi false) && b.handleOk f (h 2) fo true
      && b.countOf f (h 0) == b.countOf f (h 2) && (!two || b.countOf f (h 1) == b.countOf f (h 2)) && b.plainOut f (h 2)
    let st := firstBad [need valid stDESC, need (ewPair fi fo) stDESC, need shapes stDESC]
    if st != stOK then b.finish q seq st 0 0
    else
      let ds := (b.fdesc f (h 0)).toList ++ (if two then (b.fdesc f (h 1)).toList else []) ++ (b.fdesc f (h 2)).toList
      let n := b.countOf f (h 2)
      let sets := b.rowSets ds (fmtBits fi / 8) ((List.range n).map (fun i => ds.map (fun _ => i)))
      let st := b.unitTensors (ds.map (fun d => (d, true)))
      if st = stDESC || sets.isNone then b.finish q seq stDESC 0 0
      else if st != stOK then b.finish q seq st 0 0
      else
        let prog := ewProg f (sets.getD [])
        if prog.isEmpty then b.finish q seq stOK 0 0
        else b.setJobs (b.cu.jobs ++ [{ Job.blank q seq with prog := prog }])

/-! ### BANK_NORM (R172 to R174) -/

namespace Norm

def kind (e : Bytes) : Nat := fld e 0x20 1
def fmt (e : Bytes) : Nat := fld e 0x21 1
def rows (e : Bytes) : Nat := fld e 0x24 4
def d (e : Bytes) : Nat := fld e 0x28 4
def eps (e : Bytes) : Nat := fld e 0x2C 4
def hasBeta (e : Bytes) : Bool := eHandle e 3 != 0

end Norm

/-- The tensors of a BANK_NORM in the order x, gamma, out and beta. -/
def Blk.normDescs (b : Blk) (f : Flight) : List Desc :=
  let h := eHandle f.raw
  (b.fdesc f (h 0)).toList ++ (b.fdesc f (h 1)).toList ++ (b.fdesc f (h 2)).toList
    ++ (if Norm.hasBeta f.raw then (b.fdesc f (h 3)).toList else [])

/-- The row sets of row r. -/
def Blk.normSets (b : Blk) (f : Flight) (r : Nat) : Option (List RowSet) :=
  let e := f.raw
  let ds := b.normDescs f
  let n := Norm.d e
  b.rowSets ds (fmtBits (Norm.fmt e) / 8) ((List.range n).map (fun i => [r * n + i, i, r * n + i] ++ (if Norm.hasBeta e then [i] else [])))

/-- Loads x of one row set into the latch. -/
def normLoad (c : Nat → Nat → Nat → Bytes → UCmd) (m : Nat) (s : RowSet) : List UCmd :=
  let p := s.places.getD 0 (0, 0)
  [c 2 m (bodyOpl 0 0 (8 * s.gc)) (zeros (256 * s.gc))] ++ (openSet c m p [none, none]).1 ++ [readCols c m 2 p s.gf s.gc]

/-- Steps 1 and 2 of R174 for row r: each unit's partials go to the tree. -/
def normHead (f : Flight) (sets : List RowSet) (r : Nat) : List UCmd :=
  let e := f.raw
  let units := (sets.map RowSet.unit).eraseDups
  units.flatMap (fun u =>
    let c := ucmd f (unitCh u)
    let m := 2 ^ unitPair u
    let mine := sets.filter (fun s => s.unit == u)
    [c 1 m (bodyPim true 1 (Norm.fmt e) (Norm.fmt e) 0) []]
      ++ ((List.range mine.length).zip mine).flatMap (fun (x : Nat × RowSet) =>
        normLoad c m x.2 ++ localStep c m (entry 0xE (bodyLstat 0 (8 * x.2.gc) 0) false false false)
          ++ [{ c 6 m (bodyAcc 0 1 ((2 * r) % 65536)) [] with win := some r, item := u * 65536 + x.1, fin := true, hold := true }]))

/-- Steps 4 to 6 of R174 with the row's m and r. -/
def normTail (f : Flight) (sets : List RowSet) (mean rs : Nat) : List UCmd :=
  let e := f.raw
  let units := (sets.map RowSet.unit).eraseDups
  let neg := if mean ≥ 2 ^ 31 then mean - 2 ^ 31 else mean + 2 ^ 31
  units.flatMap (fun u =>
    let c := ucmd f (unitCh u)
    let m := 2 ^ unitPair u
    let mine := sets.filter (fun s => s.unit == u)
    let body := mine.flatMap (fun s =>
      let lew := fun (v k : Nat) =>
        [c 2 m (bodyOpl 2 0 1) (scalars [v])] ++ localStep c m (entry 0xD (bodyLew 0 (8 * s.gc) k) false false false)
      let px := s.places.getD 0 (0, 0)
      let pg := s.places.getD 1 (0, 0)
      let po := s.places.getD 2 (0, 0)
      let pb := s.places.getD 3 (0, 0)
      let (openG, cur) := openSet c m pg (setRow [none, none] px.1 (some px.2))
      let (openB, cur) := if Norm.hasBeta e then openSet c m pb cur else ([], cur)
      let (openO, _) := openSet c m po cur
      (if mine.length = 1 then [] else normLoad c m s)
        ++ (if Norm.kind e = 1 then lew neg 1 else []) ++ lew rs 0
        ++ openG ++ [readCols c m 3 pg s.gf s.gc]
        ++ (if Norm.hasBeta e then openB ++ [readCols c m 2 pb s.gf s.gc] else [])
        ++ openO ++ [writeCols c m po s.gf s.gc])
    dropHold body ++ [c 1 m 0 []])

/-- BANK_NORM (R172): its checks and the first row. -/
def Blk.normStart (b : Blk) (q seq : Nat) : Blk :=
  match b.fresh? q seq 0x13 with
  | none => b
  | some f =>
    let e := f.raw
    let h := eHandle e
    let fm := Norm.fmt e
    let beta := Norm.hasBeta e
    let valid := (b.fdesc f (h 0)).isSome && (b.fdesc f (h 1)).isSome && (b.fdesc f (h 2)).isSome
      && (!beta || (b.fdesc f (h 3)).isSome) && fmtListed fm
    let n := Norm.d e
    let eps := f32 (Norm.eps e)
    let shapes := decide (Norm.kind e ≤ 1) && zeroAt e 0x22 2 && decide (1 ≤ Norm.rows e) && decide (Norm.rows e ≤ 4096)
      && decide (1 ≤ n) && multOf n (groupLen fm) && decide (n ≤ 1048576) && eps.isFin && !eps.isNeg && zeroAt e 0x30 80
      && b.handleOk f (h 0) fm false && b.handleOk f (h 1) fm false && b.handleOk f (h 2) fm true && (!beta || b.handleOk f (h 3) fm false)
      && b.countOf f (h 0) == Norm.rows e * n && b.countOf f (h 1) == n && b.countOf f (h 2) == Norm.rows e * n
      && (!beta || b.countOf f (h 3) == n) && b.plainOut f (h 2)
    let st := firstBad [need valid stDESC, need (fm == cBF16 || fm == cE4M3 || fm == cE5M2) stDESC, need shapes stDESC]
    if st != stOK then b.finish q seq st 0 0
    else
      let ds := b.normDescs f
      let all := (List.range (Norm.rows e)).map (fun r => b.normSets f r)
      let st := b.unitTensors (ds.map (fun d => (d, true)))
      let stack := (((all.getD 0 none).getD []).map (fun s => unitStack s.unit)).getD 0 0
      let one := all.all (fun s => (s.getD []).all (fun x => unitStack x.unit == stack))
      if st = stDESC || all.any Option.isNone || !one then b.finish q seq stDESC 0 0
      else if st != stOK then b.finish q seq st 0 0
      else
        b.setJobs (b.cu.jobs ++ [{ Job.blank q seq with
            prog := normHead f ((all.getD 0 none).getD []) 0
            rows := [(0, [])]
            chans := (all.flatMap (fun s => (s.getD []).map (fun x => unitCh x.unit))).eraseDups }])

/-- R173: the statistics m and r of a row from its sums S1 and S2. -/
def normStats (kind fmt n eps : Nat) (s1 s2 : Ex) : Nat × Nat :=
  let d := Ex.ofNat n
  let ep := f32 eps
  let rsq := fun (x : Ex) => sfu32 7 (fl32 (plusZero x))
  if s1.isNan || s2.isNan then (f32NaN, f32NaN)
  else if kind = 0 then (0, rsq (Ex.add (Ex.div s2 d) ep))
  else
    let m := fl32 (plusZero (Ex.div s1 d))
    if fmt = cBF16 then
      let v := Ex.max2 .zero (fl (Ex.sub (fl (Ex.div s2 d)) (fl (Ex.mul (f32 m) (f32 m)))))
      (m, rsq (Ex.add v ep))
    else
      let v := Ex.div (Ex.sub (Ex.mul d s2) (Ex.mul s1 s1)) (Ex.mul d d)
      (m, rsq (Ex.add v ep))

/-- R173: the FP32 partials of a tag, summed within each unit, then in ascending unit number within a die,
then by die_order; a unit with several row sets sends one partial for each, and they are added in order
(log 71). -/
def normFp (order : List Nat) (stack : Nat) (a : TagAcc) : Nat :=
  let sum := fun (l : List Nat) => match l with
    | [] => none
    | x :: t => some (t.foldl f32add x)
  let die := fun (d : Nat) =>
    let mine := a.fps.filter (fun p => p.2.1 == 12 * stack + d)
    sum (((mine.map (fun p => p.1 / 65536)).eraseDups).filterMap (fun u =>
      sum ((mine.filter (fun p => p.1 / 65536 == u)).map (fun p => p.2.2))))
  (sum (order.filterMap die)).getD 0

/-- NORM_STATS_READY (R174 steps 3 to 6): the base die's statistics let the row go on, and the next
row begins. -/
def Blk.normReady (b : Blk) (q seq row : Nat) : Blk :=
  match b.running? q seq, b.job? q seq with
  | some f, some j =>
    let e := f.raw
    match b.cu.trees.find? (fun t => t.q == q && t.seq == seq && t.win == row) with
    | none => b
    | some t =>
      if eOpcode e != 0x13 || j.failed || t.left != 0 || (t.err.isSome) || !j.rows.any (fun r => r.1 == row) then b
      else
        let fm := Norm.fmt e
        let sum := fun (k : Nat) =>
          let a := tget TagAcc.zero ((2 * row + k) % 65536) t.tags
          if fm = cBF16 then f32 (normFp (b.struc.dieOrder.getD t.stack []) t.stack a)
          else (decWide a.wide).scale (wideExp fm fm 0)
        let (m, r) := normStats (Norm.kind e) fm (Norm.d e) (Norm.eps e) (sum 0) (sum 1)
        let nan := if m = f32NaN && r = f32NaN then flagNan else 0
        let sets := (b.normSets f row).getD []
        let next := if row + 1 < Norm.rows e then normHead f ((b.normSets f (row + 1)).getD []) (row + 1) else []
        let b := b.setTrees (b.cu.trees.filter (fun x => x != t))
        b.updJob q seq (fun k => { k with
          prog := k.prog ++ normTail f sets m r ++ next
          flags := k.flags ||| t.flags ||| nan
          rows := if row + 1 < Norm.rows e then [(row + 1, [])] else []
          chans := if row + 1 < Norm.rows e then k.chans else [] })
  | _, _ => b

/-! ### BANK_TABLE (R175, R176) -/

/-- The TBL_WRs of one table entry (R40, R175): one per channel and target bank. -/
def tableCmds (f : Flight) (e : Bytes) : List UCmd :=
  let u := fld e 0 2
  let kind := fld e 2 1
  let bank := fld e 3 1
  let gen := fld e 4 1
  let chans := if u = 0xFFFF then List.range 384 else [unitCh u]
  let mask := if u = 0xFFFF then 0xFFFF else 2 ^ unitPair u
  chans.map (fun ch =>
    { ucmd f ch 7 mask (bodyTbl (if bank = 2 then 0 else bank) kind gen) (bytesAt e 8 32) with idle := bank == 2 })

/-- Whether a table entry is in the layout of R40 with bank 2 allowed. -/
def tableEntryOk (e : Bytes) : Bool :=
  (decide (fld e 0 2 < 6144) || fld e 0 2 == 0xFFFF) && decide (fld e 2 1 ≤ 1) && decide (fld e 3 1 ≤ 2) && zeroAt e 5 3

/-- BANK_TABLE (R175, R298): its checks and its program. -/
def Blk.tableStart (b : Blk) (q seq : Nat) : Blk :=
  match b.fresh? q seq 0x14 with
  | none => b
  | some f =>
    let e := f.raw
    let h := eHandle e 0
    let n := fld e 0x20 4
    let ok := zeroAt e 0x14 12 && b.handleOk f h cUINT8 false && decide (1 ≤ n) && decide (n ≤ 65536) && b.countOf f h == 40 * n && zeroAt e 0x24 92
    if !ok then b.finish q seq stDESC 0 0
    else match b.fdesc f h with
      | none => b.finish q seq stDESC 0 0
      | some d =>
        let w := Wk.bank b f
        let (w, xs) := w.tensor d
        match w.waits b with
        | some b => b
        | none =>
          if w.bad then w.b.finish q seq w.st w.flags 0
          else
            let es := chunk 40 n (xs.flatMap (fun x => leBytes 1 x.raw))
            if !es.all tableEntryOk then w.b.finish q seq stDESC w.flags 0
            else w.b.setJobs (w.b.cu.jobs ++ [{ Job.blank q seq with prog := es.flatMap (tableCmds f), flags := w.flags }])

/-! ### Operations that end with their program -/

/-- BANK_EWISE, BANK_NORM and BANK_TABLE end once their program has run (R171, R174, R176); a
BANK_GEMV goes on to its next pass or ends (R160). -/
def Blk.progEnd (b : Blk) (own : Option (Nat × Nat)) : Blk :=
  match own with
  | none => b
  | some (q, seq) =>
    match b.job? q seq, b.flight? q seq with
    | some j, some f =>
      let op := eOpcode f.raw
      if j.failed || !j.prog.isEmpty || !j.rows.isEmpty || b.jobBusy q seq then b
      else if op = 0x14 then
        b.jobEnd j (if j.refused = 0 then stOK else stTABLE) j.flags (j.accepted + j.refused * 2 ^ 32)
      else if op = 0x12 || op = 0x13 then b.jobEnd j stOK j.flags 0
      else if op = 0x10 then b.gemvAdvance f j
      else b
    | _, _ => b

/-- PLAN_READ_DONE of a BANK_GEMV (R158): the plan is read, kept and checked. -/
def Blk.planRead (b : Blk) (f : Flight) : Blk :=
  let h := eHandle f.raw 3
  match b.planOf h 0 with
  | some p => b.gemvGo f p
  | none =>
  match b.fdesc f h with
  | none => b.finish f.q f.seq stDESC 0 0
  | some d =>
    let w := Wk.bank b f
    let (w, xs) := w.tensor d
    match w.waits b with
    | some b => b
    | none =>
      if w.bad then w.b.finish f.q f.seq w.st w.flags 0
      else
        let p := xs.flatMap (fun x => leBytes 1 x.raw)
        if w.b.planRoom < p.length then w.b.finish f.q f.seq stRANGE w.flags 0
        else (w.b.keepPlan h 0 p).gemvGo f p

end Sys2Proof.Machine
end

