-- ==== Sys2Proof/Machine/Attn.lean ====
section
/-! DEFINITION. BANK_ATTN (07_attention): the block table, the blocks' programs, the shared
reference, both modes, appends, and the output. -/

namespace Sys2Proof.Machine
open Sys2Proof

namespace Attn

def mode (e : Bytes) : Nat := fld e 0x20 1
def kvfmt (e : Bytes) : Nat := fld e 0x21 1
def qfmt (e : Bytes) : Nat := fld e 0x22 1
def ofmt (e : Bytes) : Nat := fld e 0x23 1
def H (e : Bytes) : Nat := fld e 0x24 2
def nq (e : Bytes) : Nat := fld e 0x26 1
def flags (e : Bytes) : Nat := fld e 0x27 1
def causal (e : Bytes) : Bool := (flags e).testBit 0
def maskEn (e : Bytes) : Bool := (flags e).testBit 1
def append (e : Bytes) : Bool := (flags e).testBit 2
def refWb (e : Bytes) : Bool := (flags e).testBit 3
def destBank (e : Bytes) : Bool := (flags e).testBit 4
def heads (e : Bytes) : Nat := fld e 0x28 2
def length (e : Bytes) : Nat := fld e 0x2C 4
def sigma (e : Bytes) : Nat := fld e 0x30 4
def vscale (e : Bytes) : Nat := fld e 0x34 4
def refH (e : Bytes) : Nat := fld e 0x38 4
def kvH (e : Bytes) : Nat := fld e 0x3C 4
def maskH (e : Bytes) : Nat := fld e 0x40 4

/-- Blocks per head, and records that an entry uses (R184). -/
def blocks (e : Bytes) : Nat := cdiv (length e) 256
def records (e : Bytes) : Nat := heads e * blocks e

/-- T_h of R200. -/
def tagBase (e : Bytes) (h : Nat) : Nat := h * nq e * (H e + 4)

/-- R188. -/
def masked (e sel : Bytes) (v t : Nat) : Bool :=
  decide (length e ≤ t) || (causal e && decide (length e - nq e + v < t))
    || (maskEn e && ((sel.getD (v * cdiv (length e) 8 + t / 8) 0).toNat).testBit (t % 8))

/-- R190: every token is masked for the query. -/
def fully (e sel : Bytes) (v : Nat) : Bool := (List.range (length e)).all (fun t => masked e sel v t)

/-- Queries that are not fully masked. -/
def live (e sel : Bytes) : List Nat := (List.range (nq e)).filter (fun v => !fully e sel v)

/-- The mask register of sub-chunk k of block n (R189). -/
def maskBits (e sel : Bytes) (n k : Nat) : Nat :=
  (List.range (nq e)).foldl (fun a v => (List.range 64).foldl (fun a i =>
    if masked e sel v (256 * n + 64 * k + i) then setBit a (64 * v + i) else a) a) 0

/-- The window number of a head's run: run 0 is the one-pass run, 1 to 3 are runs of pass 1, 4 is
pass 2. -/
def win (run h : Nat) : Nat := run * 1024 + h

end Attn

/-- A block's place (R184): unit, first row, and its region's anchor row. -/
structure ABlk where
  unit : Nat
  row : Nat
  anchor : Nat
  deriving DecidableEq, Repr

/-- R181: the cache region in which a slot starts at a row of the unit's pair. -/
def Blk.cacheRegion (b : Blk) (u row hd : Nat) : Option Region :=
  b.struc.regions.find? (fun r =>
    r.names (unitCh u) (unitBank u 0) row && r.isOpen && r.rowCount % (hd / 8) == 1
      && (row - r.rowFirst) % (hd / 8) == 0 && decide (row + hd / 8 < r.rowFirst + r.rowCount))

/-- The block of record i of a table copy. -/
def Blk.ablk (b : Blk) (table : Bytes) (hd i : Nat) : Option ABlk :=
  let u := fld table (8 * i) 2
  let row := fld table (8 * i + 2) 2
  if 6144 ≤ u then none
  else (b.cacheRegion u row hd).map (fun r => ⟨u, row, r.rowFirst + r.rowCount - 1⟩)

/-- R185: the check of a table of n records of which the first `old` were copied earlier. What a record names
is checked for all of them; whether its unit is eligible, for the additional ones. -/
def Blk.tableOk (b : Blk) (table : Bytes) (hd heads old n : Nat) : Bool :=
  let rs := (List.range n).map (fun i => (fld table (8 * i) 2, fld table (8 * i + 2) 2))
  (List.range n).all (fun i =>
    fld table (8 * i + 4) 2 == i % heads && fld table (8 * i + 6) 2 == i / heads
      && (b.ablk table hd i).isSome && (decide (i < old) || b.eligible (fld table (8 * i) 2)))
    && rs.eraseDups.length == n

/-- The status of checks 5 and 6 of R154 over the rows of the blocks. -/
def Blk.blocksStatus (b : Blk) (bs : List ABlk) (hd : Nat) : Nat :=
  let sts := bs.flatMap (fun a => (List.range (hd / 8)).flatMap (fun j =>
    [0, 1].map (fun s => b.rowStatus (unitCh a.unit) (unitBank a.unit s) (a.row + j) true)))
  firstBad [need (sts.all (· != stCLASS)) stCLASS, need (sts.all (· != stRANGE)) stRANGE]

/-! ### Programs -/

/-- A command of the operation that keeps the slot. -/
def kept (f : Flight) (ch op mask body : Nat) (data : Bytes) : UCmd := { ucmd f ch op mask body data with hold := true }

/-- 1.0 in an FP8 format. -/
def fp8One (fmt : Nat) : Nat := if fmt = cE4M3 then 0x38 else 0x3C

/-- R183: writes the anchor of one unit's anchor row. -/
def anchorCmds (f : Flight) (u row : Nat) : List UCmd :=
  let k := Attn.kvfmt f.raw
  let ch := unitCh u
  let m := 2 ^ unitPair u
  [kept f ch 1 m (bodyPim true 1 k k 0) [], kept f ch 2 m (bodyOpl 0 0 8) (leBytes 1 (fp8One k) ++ zeros 255),
   kept f ch 3 m (bodyCact 1 false row 0) [], ucmd f ch 5 m (bodyCwr 0 0 1 0) [], ucmd f ch 1 m 0 []]

/-- The query bytes of head h, vector v. -/
def queryOf (e x : Bytes) (h v : Nat) : Bytes := bytesAt x ((h * Attn.nq e + v) * Attn.H e) (Attn.H e)

/-- Log₂ of the words of one key. -/
def keyLog (hd : Nat) : Nat := if hd = 64 then 1 else if hd = 128 then 2 else 3

/-- R191 steps 1 to 3: plants references. `words` is the number of latch words written per vector. -/
def plantCmds (f : Flight) (x : Bytes) (h : Nat) (a : ABlk) (refs : List Nat) (words : Nat) : List UCmd :=
  let e := f.raw
  let c := kept f (unitCh a.unit)
  let m := 2 ^ unitPair a.unit
  [c 2 m (bodyOpl 3 0 1) zeroWord]
    ++ (List.range (Attn.nq e)).map (fun v =>
      c 2 m (bodyOpl 0 (64 * v) words)
        (bytesAt (leBytes 1 (fp8One (Attn.qfmt e)) ++ zeros 31 ++ (queryOf e x h v).drop 32) 0 (32 * words)))
    ++ [c 2 m (bodyOpl 2 0 1) (scalars refs), c 3 m (bodyCact 1 false a.anchor 0) [],
        c 4 m (bodyCrd 1 1 0 1 0 false false 0 0 (keyLog (Attn.H e))) [], c 9 m (bodyGo 0 0 1 0 false) []]

/-- R191: latch word 0 and the scalars are restored, and the first key row opens. -/
def restoreCmds (f : Flight) (x : Bytes) (h : Nat) (a : ABlk) : List UCmd :=
  let e := f.raw
  let c := kept f (unitCh a.unit)
  let m := 2 ^ unitPair a.unit
  (List.range (Attn.nq e)).map (fun v => c 2 m (bodyOpl 0 (64 * v) 1) ((queryOf e x h v).take 32))
    ++ [c 2 m (bodyOpl 2 0 1) (scalars (List.replicate (Attn.nq e) (Attn.sigma e))), c 3 m (bodyCact 3 false a.row a.row) []]

/-- SDOT entries of a sub-chunk (R193). -/
def sdotEntries (hd : Nat) : List Nat :=
  (List.range (hd / 64)).map (fun i => entry 4 (bodyCrd 1 3 0 8 0 false true 1 (i * (4096 / hd)) (keyLog hd)) false false false)

def smaxEntry (count : Nat) : Nat := entry 0xA ((count - 1) * 2 ^ 28) false false false
def sexpEntry (count lat out : Nat) (adv : Bool) : Nat :=
  entry 0xB ((count - 1) * 2 ^ 28 + lat * 2 ^ 20 + out * 2 ^ 12) false false adv
def lstatEntry (lat count : Nat) : Nat := entry 0xE (bodyLstat lat count 0) false false false

/-- The step list of R193. -/
def onePassList (e : Bytes) (h : Nat) : List Nat :=
  let hd := Attn.H e
  let t := Attn.tagBase e h
  let dot := fun (g : Nat) => entry 4 (bodyCrd 0 3 g 1 (g % 4) true (g == 0) (if g = 0 then 1 else 0) ((72 - 8 * g) % 64) 0) false false false
  let acc := fun (tag : Nat) => entry 6 (bodyAcc 0 4 (tag % 65536)) false true false
  [smaxEntry 1] ++ sdotEntries hd ++ [sexpEntry 64 8 (Attn.qfmt e) true]
    ++ (List.range 4).map dot ++ [acc t] ++ (List.range 4).map (fun g => dot (g + 4)) ++ [acc (t + hd * Attn.nq e / 2)]
    ++ (if hd = 256 then [] else [lstatEntry 8 8])

/-- The step list of pass 1 (R196). -/
def passOneList (e : Bytes) : List Nat :=
  [smaxEntry 1] ++ sdotEntries (Attn.H e) ++ [smaxEntry 64, sexpEntry 1 16 cBF16 false, lstatEntry 16 1]

/-- The first sub-chunk in which some token is masked, if any (R189). -/
def firstMasked (e sel : Bytes) (n : Nat) : Nat := ((List.range 4).find? (fun k => Attn.maskBits e sel n k != 0)).getD 4

/-- Runs the sub-chunks of a block: those before the first masked one together, the rest singly. -/
def chunkCmds (f : Flight) (sel : Bytes) (n : Nat) (a : ABlk) (sexp : Bool) : List UCmd :=
  let e := f.raw
  let c := kept f (unitCh a.unit)
  let m := 2 ^ unitPair a.unit
  let last := Attn.H e / 64 + 1
  let k0 := firstMasked e sel n
  (if k0 = 0 then [] else [c 9 m (bodyGo 1 last k0 0 false) []])
    ++ (List.range (4 - k0)).flatMap (fun i =>
      let k := k0 + i
      [c 2 m (bodyOpl 3 0 1) (leBytes 32 (Attn.maskBits e sel n k))]
        ++ (if sexp then [c 8 m (bodyLd last 1) (entries [sexpEntry 64 (8 + 2 * k) (Attn.qfmt e) false])] else [])
        ++ [c 9 m (bodyGo 1 last 1 0 false) []])

/-- Loads the whole step list of a run. -/
def loadList (f : Flight) (a : ABlk) (l : List Nat) : List UCmd :=
  [kept f (unitCh a.unit) 8 (2 ^ unitPair a.unit) (bodyLd 0 l.length) (entries l)]

/-- R193: the step list of a run, loaded when the unit first runs a block of it; later only the entries that
differ from what the list holds are written. -/
def listCmds (f : Flight) (a : ABlk) (old : List Nat) (l : List Nat) : List UCmd :=
  if old.length != l.length then loadList f a l
  else (List.range l.length).filterMap (fun i =>
    if old.getD i 0 = l.getD i 0 then none
    else some (kept f (unitCh a.unit) 8 (2 ^ unitPair a.unit) (bodyLd i 1) (entries [l.getD i 0])))

/-- R203: appends token i of head h to its block. -/
def appendCmds (f : Flight) (kv : Bytes) (h i : Nat) (a : ABlk) (last : Bool) : List UCmd :=
  let e := f.raw
  let hd := Attn.H e
  let k := Attn.kvfmt e
  let c := kept f (unitCh a.unit)
  let m := 2 ^ unitPair a.unit
  let tau := (Attn.length e - Attn.nq e + i) % 256
  let per := 2048 / hd
  let at' := (h * Attn.nq e + i) * 2 * hd
  let key := bytesAt kv at' hd
  let val := bytesAt kv (at' + hd) hd
  let bank := tau % (2 * per) / per
  let word := tau % per * (hd / 32)
  let krow := a.row + tau / (2 * per)
  let keyWords := zeros (32 * (word % 8)) ++ key ++ zeros (256 - 32 * (word % 8) - hd)
  let cact := fun (b row : Nat) => c 3 m (bodyCact (2 ^ b) false (if b = 0 then row else 0) (if b = 0 then 0 else row)) []
  let keyPart :=
    [c 1 m (bodyPim true 1 k k 0) [], c 2 m (bodyOpl 0 0 8) keyWords, cact bank krow,
     c 4 m (bodyCrd 2 (2 ^ bank) (word / 8) 1 0 false false 0 ((64 - 8 * (word / 8)) % 64) 0) [],
     c 5 m (bodyCwr bank (word / 8) 1 0) []]
  let valPart := (List.range (hd / 16)).flatMap (fun j => [0, 1].flatMap (fun b =>
    let words := (List.range 64).flatMap (fun w =>
      let g := w / 8
      if w % 8 = tau / 32 then putAt zeroWord (tau % 32) [val.getD (16 * j + 8 * b + g) 0] else zeroWord)
    [c 2 m (bodyOpl 0 0 64) words, cact b (a.row + hd / 16 + j), c 4 m (bodyCrd 2 (2 ^ b) 0 8 0 false false 0 0 0) [],
     c 5 m (bodyCwr b 0 8 0) []]))
  let all := keyPart ++ valPart
  (if last then dropHold all else all) ++ [if last then ucmd f (unitCh a.unit) 1 m 0 [] else c 1 m 0 []]

/-- The appends that fall into block n of head h; `alone` where no scoring follows. -/
def blockAppends (f : Flight) (kv : Bytes) (h n : Nat) (a : ABlk) (alone : Bool) : List UCmd :=
  let e := f.raw
  if !Attn.append e then []
  else
    let is := (List.range (Attn.nq e)).filter (fun i => (Attn.length e - Attn.nq e + i) / 256 == n)
    is.flatMap (fun i => appendCmds f kv h i a (alone && is.getLast? == some i))

/-- What the step list of a unit holds after block n of a one-pass run (R193, R194). -/
def listAfter (e sel : Bytes) (h n : Nat) : List Nat :=
  let hd := Attn.H e
  let l := onePassList e h
  let l := if firstMasked e sel n < 4 then l.set (hd / 64 + 1) (sexpEntry 64 14 (Attn.qfmt e) false) else l
  if hd = 256 then l.set 0 (lstatEntry 8 8) else l

/-- One block of a one-pass run or of pass 2 (R194, R198). -/
def blockCmds (f : Flight) (x sel : Bytes) (run h n : Nat) (a : ABlk) (refs old : List Nat) : List UCmd :=
  let e := f.raw
  let hd := Attn.H e
  let c := kept f (unitCh a.unit)
  let m := 2 ^ unitPair a.unit
  let w := some (Attn.win run h)
  let s := hd / 64
  let lst := s + 12
  [c 1 m (bodyPim true (Attn.nq e) (Attn.kvfmt e) (Attn.qfmt e) 0) []] ++ listCmds f a old (onePassList e h)
    ++ plantCmds f x h a refs (hd / 32) ++ restoreCmds f x h a ++ chunkCmds f sel n a true
    ++ [{ c 9 m (bodyGo (s + 2) (s + 11) (hd / 16) 0 false) [] with win := w, item := n }]
    ++ (if hd = 256 then [c 8 m (bodyLd 0 1) (entries [lstatEntry 8 8]), c 9 m (bodyGo 0 0 1 0 false) []]
        else [c 9 m (bodyGo lst lst 1 0 false) []])
    ++ [{ c 6 m (bodyAcc 0 1 ((Attn.tagBase e h + hd * Attn.nq e) % 65536)) [] with win := w, item := n, fin := true }]
    ++ [ucmd f (unitCh a.unit) 1 m 0 []]

/-- One block of pass 1 (R196). -/
def probeCmds (f : Flight) (x sel : Bytes) (run h n : Nat) (a : ABlk) (refs old : List Nat) : List UCmd :=
  let e := f.raw
  let hd := Attn.H e
  let nq := Attn.nq e
  let c := kept f (unitCh a.unit)
  let m := 2 ^ unitPair a.unit
  let w := some (Attn.win run h)
  let s := hd / 64
  [c 1 m (bodyPim true nq (Attn.kvfmt e) (Attn.qfmt e) 0) []] ++ listCmds f a old (passOneList e)
    ++ plantCmds f x h a refs (hd / 32) ++ restoreCmds f x h a ++ chunkCmds f sel n a false
    ++ plantCmds f x h a refs 1
    ++ (List.range nq).map (fun v => c 2 m (bodyOpl 0 (64 * v + 16) 1) zeroWord)
    ++ [c 9 m (bodyGo (s + 2) (s + 2) 1 0 false) [], c 1 m 0 [], c 1 m (bodyPim true nq cBF16 cBF16 0) [],
        c 9 m (bodyGo (s + 3) (s + 3) 1 0 false) []]
    ++ [{ c 6 m (bodyAcc 0 1 ((Attn.tagBase e h + hd * nq + 2 * nq) % 65536)) [] with win := w, item := n, fin := true }]
    ++ [ucmd f (unitCh a.unit) 1 m 0 []]

/-- The blocks of a head that hold tokens of the entry. -/
def Blk.headBlocks (b : Blk) (f : Flight) (table : Bytes) (h : Nat) : List (Nat × ABlk) :=
  let e := f.raw
  (List.range (Attn.blocks e)).filterMap (fun n => (b.ablk table (Attn.H e) (n * Attn.heads e + h)).map (fun a => (n, a)))

/-- The window of a head's run, with the stacks that deliver. -/
def Blk.headWin (b : Blk) (f : Flight) (table : Bytes) (run h : Nat) : WinSum :=
  ⟨Attn.win run h, ((b.headBlocks f table h).map (fun p => unitStack p.2.unit)).eraseDups, []⟩

/-- The program of one run of a head, and what the units' step lists hold after it; `appends` in its first
run. -/
def Blk.headProg (b : Blk) (f : Flight) (table x kv sel : Bytes) (run h : Nat) (refs : List Nat) (appends : Bool)
    (lists : Tbl (List Nat)) : List UCmd × Tbl (List Nat) :=
  (b.headBlocks f table h).foldl (fun (s : List UCmd × Tbl (List Nat)) p =>
    let old := tget [] p.2.unit s.2
    let one := run = 0 || run = 4
    (s.1 ++ (if appends then blockAppends f kv h p.1 p.2 false else [])
      ++ (if one then blockCmds f x sel run h p.1 p.2 refs old else probeCmds f x sel run h p.1 p.2 refs old),
     tset p.2.unit (if one then listAfter f.raw sel h p.1 else passOneList f.raw) s.2)) ([], lists)

/-- A job with the program of one more run of a head. -/
def Blk.addRun (b : Blk) (f : Flight) (j : Job) (run h : Nat) (refs : List Nat) (appends : Bool) : Job :=
  let r := b.headProg f j.plan j.x j.kv j.sel run h refs appends j.lists
  { j with prog := j.prog ++ r.1, lists := r.2, wins := j.wins ++ [b.headWin f j.plan run h] }

/-- R182: where the key of token τ lies: bank side, row in the block, first byte. -/
def keyPlace (hd t : Nat) : Nat × Nat × Nat := let K := 2048 / hd; (t % (2 * K) / K, t / (2 * K), t % K * hd)
/-- R182: where dimension d of a value lies: bank side, row in the block, first byte of its group. -/
def valPlace (hd d : Nat) : Nat × Nat × Nat := (d % 16 / 8, hd / 16 + d / 16, 256 * (d % 8))

/-- R204: the memory of the appended positions: first MPA and length of each key and of each value byte. -/
def Blk.appendSpans (b : Blk) (e table : Bytes) : List (Nat × Nat) :=
  let hd := Attn.H e
  if !Attn.append e then []
  else (List.range (Attn.heads e)).flatMap (fun h => (List.range (Attn.nq e)).flatMap (fun i =>
    let t := Attn.length e - Attn.nq e + i
    match b.ablk table hd (t / 256 * Attn.heads e + h) with
    | none => []
    | some a =>
      let at' := fun (x : Nat × Nat × Nat) (off len : Nat) =>
        (b.struc.rowMpa (unitCh a.unit) (unitBank a.unit x.1) (a.row + x.2.1)).map (fun m => (m + x.2.2 + off, len))
      ((at' (keyPlace hd (t % 256)) 0 hd).toList)
        ++ (List.range hd).filterMap (fun d => at' (valPlace hd d) (t % 256) 1)))

/-- Only the appends of a head whose queries are all fully masked (R190). -/
def Blk.headAppends (b : Blk) (f : Flight) (table kv : Bytes) (h : Nat) : List UCmd :=
  (b.headBlocks f table h).flatMap (fun p => blockAppends f kv h p.1 p.2 true)

/-! ### The entry -/

/-- Checks 1 to 3 of R154 for a BANK_ATTN (R186, R187). -/
def Blk.attnCheck (b : Blk) (f : Flight) : Nat :=
  let e := f.raw
  let h := eHandle e
  let fp8 := fun (k : Nat) => k == cE4M3 || k == cE5M2
  let hd := Attn.H e
  let nq := Attn.nq e
  let hs := Attn.heads e
  let len := Attn.length e
  let some' := fun (k : Nat) => (b.fdesc f k).isSome
  let valid := some' (h 0) && some' (h 1) && some' (h 2) && some' (Attn.refH e) && (!Attn.append e || some' (Attn.kvH e))
    && (!Attn.maskEn e || some' (Attn.maskH e)) && fmtListed (Attn.kvfmt e) && fmtListed (Attn.qfmt e) && fmtListed (Attn.ofmt e)
  let combo := fp8 (Attn.kvfmt e) && fp8 (Attn.qfmt e) && [cFP32, cBF16, cFP16, cE4M3, cE5M2].contains (Attn.ofmt e)
  let fin := fun (r : Nat) => (f32 r).isFin
  let shapes := h 3 == 0 && decide (Attn.mode e ≤ 1) && [64, 128, 256].contains hd && decide (1 ≤ nq) && decide (nq ≤ 4)
    && decide (Attn.flags e < 32) && decide (1 ≤ hs) && decide (hs * nq * (hd + 4) ≤ 65536) && zeroAt e 0x2A 2
    && decide (nq ≤ len) && decide (len ≤ 1048576) && fin (Attn.sigma e) && !(f32 (Attn.sigma e)).isZero && fin (Attn.vscale e)
    && Attn.refH e != 0 && (Attn.append e || Attn.kvH e == 0) && (Attn.maskEn e || Attn.maskH e == 0) && zeroAt e 0x44 60
    && b.handleOk f (h 0) (Attn.qfmt e) false && b.handleOk f (h 1) cUINT8 false && b.handleOk f (h 2) (Attn.ofmt e) true
    && b.handleOk f (Attn.refH e) cFP32 (Attn.refWb e) && (!Attn.append e || b.handleOk f (Attn.kvH e) (Attn.kvfmt e) false)
    && (!Attn.maskEn e || b.handleOk f (Attn.maskH e) cUINT8 false)
    && b.countOf f (h 0) == hs * nq * hd && decide (8 * Attn.records e ≤ b.countOf f (h 1)) && b.countOf f (h 2) == hs * nq * hd
    && b.countOf f (Attn.refH e) == hs * nq && (!Attn.append e || b.countOf f (Attn.kvH e) == hs * nq * 2 * hd)
    && (!Attn.maskEn e || b.countOf f (Attn.maskH e) == nq * cdiv len 8)
    && b.plainOut f (h 2) && (!Attn.refWb e || b.plainOut f (Attn.refH e))
  firstBad [need valid stDESC, need combo stDESC, need shapes stDESC]

/-- Reads a tensor's raw bytes, or nothing where it is not named. -/
def Wk.rawBytes (w : Wk) (d : Option Desc) : Wk × Bytes :=
  match d with
  | none => (w, [])
  | some d =>
    let (w, xs) := w.tensor d
    (w, xs.flatMap (fun y => leBytes (fmtBits d.fmt / 8) y.raw))

/-- Whether the store's copy of a block table serves an entry: present with its kvfmt and long enough. -/
def Blk.tableCopy (b : Blk) (f : Flight) : Option PlanCopy :=
  b.plans.find? (fun p => p.handle == eHandle f.raw 1 && p.kind == 1)

/-- R202: the inline result: heads that fell back, fully masked queries, repeated runs of pass 1. -/
def attnResult (e : Bytes) (j : Job) : Nat :=
  let masked := (Attn.nq e - (Attn.live e j.sel).length) * j.heads.length
  let again := j.heads.foldl (fun a x => a + (x.runs - 1)) 0
  (j.heads.filter HeadSt.fell).length + masked % 65536 * 2 ^ 32 + min again 65535 * 2 ^ 48

/-- A job with its result so far, and with no channel on which commands follow once no head may run again. -/
def Job.noted (j : Job) (e : Bytes) : Job :=
  { j with result := attnResult e j, chans := if j.heads.any (fun x => decide (x.phase < 2)) then j.chans else [] }

/-- Checks 4 to 6 of R154 over the blocks and the output (R185, R186). -/
def Blk.attnPlaces (b : Blk) (f : Flight) (bs : List ABlk) : Nat :=
  let e := f.raw
  let st := b.blocksStatus bs (Attn.H e)
  if !Attn.destBank e then st
  else match b.fdesc f (eHandle e 2) with
    | none => stDESC
    | some d =>
      let so := b.unitTensors [(d, true)]
      firstBad [need (so != stDESC && b.oneStack d (bs.map ABlk.unit)) stDESC,
        need (so != stCLASS && st != stCLASS) stCLASS, need (so != stRANGE && st != stRANGE) stRANGE]

/-- Once the table copy holds every record: the checks of the blocks, the operands, and the first
run of every head, with the anchors that are still to be written (R183). -/
def Blk.attnGo (b : Blk) (f : Flight) (table : Bytes) : Blk :=
  let e := f.raw
  let n := Attn.records e
  let bs := (List.range n).filterMap (fun i => b.ablk table (Attn.H e) i)
  let st := if b.tableOk table (Attn.H e) (Attn.heads e) n n then b.attnPlaces f bs else stDESC
  if st != stOK then b.finish f.q f.seq st 0 0
  else
    let w := Wk.bank b f
    let (w, x) := w.rawBytes (b.fdesc f (eHandle e 0))
    let (w, kv) := w.rawBytes (if Attn.append e then b.fdesc f (Attn.kvH e) else none)
    let (w, sel) := w.rawBytes (if Attn.maskEn e then b.fdesc f (Attn.maskH e) else none)
    let (w, rf) := w.rawBytes (if Attn.mode e = 0 then b.fdesc f (Attn.refH e) else none)
    let w := w.outsOk ((b.fdesc f (eHandle e 2)).toList ++ (if Attn.refWb e then (b.fdesc f (Attn.refH e)).toList else []))
    match w.waits b with
    | some b => b
    | none =>
      if w.bad then w.b.finish f.q f.seq w.st w.flags 0
      else
        let nq := Attn.nq e
        let live := Attn.live e sel
        let run := if Attn.mode e = 0 then 0 else 1
        let refs := fun (h : Nat) => (List.range nq).map (fun v =>
          if run = 1 then 0xC2800000 else
            let r := fld rf (4 * (h * nq + v)) 4
            if f32Finite r then r else 0)
        let hs := List.range (Attn.heads e)
        let b := w.b
        let todo := ((b.tableCopy f).map PlanCopy.todo).getD []
        let heads := hs.map (fun h => HeadSt.mk (if live.isEmpty then 3 else run) run (refs h) (if run = 1 then live else []) false 0 [])
        let j := { Job.blank f.q f.seq with
          prog := todo.flatMap (fun a => anchorCmds f a.1 a.2)
          x := x
          kv := kv
          sel := sel
          plan := table
          heads := heads
          flags := w.flags
          anchors := todo
          spoil := b.appendSpans e table
          chans := (bs.map (fun a => unitCh a.unit)).eraseDups }
        let j := hs.foldl (fun (j : Job) h =>
          if live.isEmpty then { j with prog := j.prog ++ b.headAppends f table kv h } else b.addRun f j run h (refs h) true) j
        let b := { b with plans := b.plans.map (fun (p : PlanCopy) =>
          if p.handle == eHandle e 1 && p.kind == 1 then { p with todo := [] } else p) }
        b.setJobs (b.cu.jobs ++ [j.noted e])

/-- BANK_ATTN (R186): the checks; records that the store does not hold are read first. -/
def Blk.attnStart (b : Blk) (q seq : Nat) : Blk :=
  match b.fresh? q seq 0x11 with
  | none => b
  | some f =>
    let st := b.attnCheck f
    if st != stOK then b.finish q seq st 0 0
    else match b.tableCopy f with
      | some p =>
        if p.key != [Attn.kvfmt f.raw] then b.finish q seq stDESC 0 0
        else if 8 * Attn.records f.raw ≤ p.data.length then b.attnGo f p.data
        else b.updFlight q seq (fun f => { f with progress := 1 })
      | none => b.updFlight q seq (fun f => { f with progress := 1 })

/-- Anchors of the records of a table: unit and anchor row. -/
def Blk.anchorsOf (b : Blk) (e table : Bytes) (n : Nat) : List (Nat × Nat) :=
  ((List.range n).filterMap (fun i => (b.ablk table (Attn.H e) i).map (fun a => (a.unit, a.anchor)))).eraseDups

/-- PLAN_READ_DONE of a BANK_ATTN (R185): the additional records are read, checked and kept. -/
def Blk.tableRead (b : Blk) (f : Flight) : Blk :=
  let e := f.raw
  let h := eHandle e 1
  let n := Attn.records e
  let old := ((b.tableCopy f).map PlanCopy.data).getD []
  if 8 * n ≤ old.length then b.attnGo f old
  else match b.fdesc f h with
    | none => b.finish f.q f.seq stDESC 0 0
    | some d =>
      let w := Wk.bank b f
      let (w, ixs) := w.indices d
      let (w, xs) := w.elems d ixs ((List.range (8 * n - old.length)).map (old.length + ·))
      match w.waits b with
      | some b => b
      | none =>
        if w.bad then w.b.finish f.q f.seq w.st w.flags 0
        else
          let more := xs.flatMap (fun x => leBytes 1 x.raw)
          let table := old ++ more
          if w.b.planRoom < more.length then w.b.finish f.q f.seq stRANGE w.flags 0
          else if !w.b.tableOk table (Attn.H e) (Attn.heads e) (old.length / 8) n then w.b.finish f.q f.seq stDESC w.flags 0
          else
            let b := w.b
            let had := b.anchorsOf e old (old.length / 8)
            let todo := ((b.tableCopy f).map PlanCopy.todo).getD [] ++ (b.anchorsOf e table n).filter (fun a => !had.contains a)
            let b := b.keepPlan h 1 table
            { b with plans := b.plans.map (fun (p : PlanCopy) =>
                if p.handle == h && p.kind == 1 then { p with key := [Attn.kvfmt e], todo := todo } else p) }.attnGo f table

/-! ### Results -/

/-- The exact sum of a tag over the delivered stacks. -/
def tagSum (got : List TreeCtx) (tag : Nat) : Nat := (encWide (exSum (got.map (fun t => decWide (tget TagAcc.zero (tag % 65536) t.tags).wide)))).1

/-- O and Λ of a head, vector by vector: H sums and then Λ. -/
def headSums (e : Bytes) (h : Nat) (got : List TreeCtx) : List Nat :=
  let hd := Attn.H e
  let nq := Attn.nq e
  let t := Attn.tagBase e h
  (List.range nq).flatMap (fun v =>
    (List.range hd).map (fun d =>
      let j := d / 16
      let s := d % 16 / 8
      let g := d % 8
      tagSum got (t + nq * (hd / 2 * (g / 4) + 8 * j + 2 * (g % 4) + s) + v))
    ++ [tagSum got (t + hd * nq + v)])

/-- The Λ of a query of a head, as a value. -/
def lambdaOf (e : Bytes) (hs : HeadSt) (v : Nat) : Ex :=
  (decWide (hs.sums.getD (v * (Attn.H e + 1) + Attn.H e) 0)).scale (wideExp (Attn.kvfmt e) (Attn.qfmt e) 0)

/-- out_d before its rounding (R180, R201). -/
def outVal (e : Bytes) (hs : HeadSt) (v d : Nat) : Ex :=
  let o := decWide (hs.sums.getD (v * (Attn.H e + 1) + d) 0)
  let l := decWide (hs.sums.getD (v * (Attn.H e + 1) + Attn.H e) 0)
  if !o.isFin || !l.isFin then .nan else plusZero (Ex.div (Ex.mul (f32 (Attn.vscale e)) o) l)

def ctxFlags (got : List TreeCtx) : Flags := got.foldl (fun a t => a ||| t.flags) 0

def setHead (j : Job) (h : Nat) (g : HeadSt → HeadSt) : Job :=
  { j with heads := (List.range j.heads.length).map (fun k =>
    match j.heads[k]? with
    | some x => if k = h then g x else x
    | none => HeadSt.mk 3 0 [] [] false 0 []) }

def Job.win? (j : Job) (w : Nat) : Option WinSum := j.wins.find? (fun x => x.win == w)

/-- Starts pass 1 of a head, with new probe levels. -/
def Blk.startProbe (b : Blk) (f : Flight) (j : Job) (h : Nat) (run : Nat) (z : List Nat) (open' : List Nat) (fell : Bool) (fl : Flags) (appends : Bool) : Job :=
  b.addRun f (setHead j h (fun x => { x with phase := 1, runs := run, refs := z, open' := open', fell := fell, flags := fl })) run h z appends

/-- ATTN_FALLBACK_CHECK (R195): heads whose one-pass blocks reported SAT, or with a Λ below 1/8, go to
two-pass mode; the others are done. -/
def Blk.attnFallback (b : Blk) (q seq : Nat) : Blk :=
  match b.running? q seq, b.job? q seq with
  | some f, some j =>
    let e := f.raw
    let hs := (List.range j.heads.length).filter (fun h => (j.heads[h]?.map HeadSt.phase).getD 3 == 0)
    if eOpcode e != 0x11 || j.failed || hs.isEmpty
      || !hs.all (fun h => ((j.win? (Attn.win 0 h)).map (fun w => w.due.isEmpty)).getD false) then b
    else
      let live := Attn.live e j.sel
      let j' := hs.foldl (fun (j : Job) h =>
        let got := ((j.win? (Attn.win 0 h)).map WinSum.got).getD []
        let fl := ctxFlags got
        let j := setHead j h (fun x => { x with sums := headSums e h got })
        let x := j.heads.getD h (HeadSt.mk 3 0 [] [] false 0 [])
        let low := live.any (fun v => Ex.lt (lambdaOf e x v) (.q false 1 8 0))
        if fl &&& flagSat != 0 || low then
          b.startProbe f j h 1 (List.replicate (Attn.nq e) 0xC2800000) live true (fl &&& (flagNan ||| flagMaskedRow)) false
        else setHead j h (fun x => { x with phase := 3, flags := fl })) j
      b.updJob q seq (fun _ => j'.noted e)
  | _, _ => b

/-- R197: what the hub makes of c* for a query at probe level z: the reference, or the next level. -/
def probe (c : Ex) (z : Nat) : Nat × Bool :=
  if c.isZero then (f32add z 0x42F00000, false)
  else if Ex.eqv c (Ex.ofNat 1) then (f32add z 0xC2F00000, false)
  else match c with
    | .q _ _ _ _ => (fl32 (plusZero (Ex.add (Ex.sub (f32 z) (Ex.ofInt (Ex.ilog2 c))) (Ex.ofNat 1))), true)
    | _ => ((Config.freeRef (fl32 c) z).toNat, true)

/-- The minimum of the c_v partials of a tag (R197, R201). -/
def minPart (got : List TreeCtx) (tag : Nat) : Ex :=
  match got.flatMap (fun t => (tget TagAcc.zero (tag % 65536) t.tags).fps) with
  | [] => .nan
  | p :: t => t.foldl (fun a x => Ex.min2 a (f32 x.2.2)) (f32 p.2.2)

/-- ATTN_PROBE_RESOLVE (R197, R198). -/
def Blk.attnResolve (b : Blk) (q seq h : Nat) : Blk :=
  match b.running? q seq, b.job? q seq with
  | some f, some j =>
    let e := f.raw
    match j.heads[h]? with
    | none => b
    | some x =>
      match j.win? (Attn.win x.runs h) with
      | none => b
      | some w =>
        if eOpcode e != 0x11 || j.failed || x.phase != 1 || !w.due.isEmpty then b
        else
          let nq := Attn.nq e
          let tag := Attn.tagBase e h + Attn.H e * nq + 2 * nq
          let fl := x.flags ||| (ctxFlags w.got &&& (flagNan ||| flagMaskedRow ||| flagSat))
          let res := (List.range nq).map (fun v =>
            if x.open'.contains v then probe (minPart w.got (tag + v)) (x.refs.getD v 0)
            else (x.refs.getD v 0, true))
          let z := res.map (fun r => r.1)
          let left := x.open'.filter (fun v => !((res.getD v (0, true)).2))
          if left.isEmpty then
            let j := setHead j h (fun x => { x with phase := 2, refs := z, open' := [], flags := fl })
            b.updJob q seq (fun _ => (b.addRun f j 4 h z false).noted e)
          else if x.runs = 3 then
            (b.updJob q seq (fun j => { j with errs := (6144, stRANGE) :: j.errs, prog := [], chans := [], failed := true })).jobSettle (some (q, seq))
          else b.updJob q seq (fun _ => (b.startProbe f j h (x.runs + 1) z left x.fell fl false).noted e)
  | _, _ => b

/-- HUB_WINDOW_COMBINE of a head's pass 2 (R201). -/
def Blk.attnCombine (b : Blk) (f : Flight) (j : Job) (w : WinSum) : Blk :=
  let h := w.win % 1024
  if w.win / 1024 != 4 || ((j.heads[h]?.map HeadSt.phase).getD 3) != 2 then b
  else
    b.updJob f.q f.seq (fun j => setHead j h (fun x => { x with
      phase := 3
      sums := headSums f.raw h w.got
      flags := x.flags ||| ctxFlags w.got }))

/-- R201, R195, R202: writes the output and the references, and ends the entry. -/
def Blk.attnFinish (b : Blk) (f : Flight) (j : Job) : Blk :=
  let e := f.raw
  match b.fdesc f (eHandle e 2), b.fdesc f (Attn.refH e) with
  | some od, some rd =>
    let nq := Attn.nq e
    let hd := Attn.H e
    let live := Attn.live e j.sel
    let hs := (List.range j.heads.length).zip j.heads
    let vals := hs.flatMap (fun p => (List.range nq).flatMap (fun v => (List.range hd).map (fun d =>
      if live.contains v then outVal e p.2 v d else .zero)))
    let (w, ixs) := (Wk.bank b f).indices od
    let w := w.putVals od ixs 0 vals
    let newRef := fun (x : HeadSt) (v : Nat) =>
      let r := x.refs.getD v 0
      let free := (Config.freeRef (x.sums.getD (v * (hd + 1) + hd) 0) r).toNat
      if x.fell || Attn.mode e = 1 then r
      else match lambdaOf e x v with
        | .q s n d k => if n = 0 then free else fl32 (plusZero (Ex.add (f32 r) (Ex.ofInt (Ex.ilog2 (.q s n d k) + 1))))
        | _ => free
    let (w, rixs) := if Attn.refWb e then w.indices rd else (w, [])
    let w := if !Attn.refWb e then w
      else w.putAt rd rixs (hs.flatMap (fun p => live.map (fun v => (p.1 * nq + v, newRef p.2 v))))
    match w.asks b with
    | (some b, _) => b
    | (none, w) =>
      let fl := j.heads.foldl (fun a x => a ||| x.flags) 0 ||| w.flags ||| (if live.length < nq then flagMaskedRow else 0)
      w.b.jobEnd j w.st fl (attnResult e j)
  | _, _ => b.jobEnd j stDESC 0 0

/-- A BANK_ATTN ends once every head is done and its program has run. -/
def Blk.attnEnd (b : Blk) (own : Nat × Nat) : Blk :=
  match b.job? own.1 own.2, b.flight? own.1 own.2 with
  | some j, some f =>
    if eOpcode f.raw = 0x11 && !j.failed && j.prog.isEmpty && !b.jobBusy own.1 own.2 && j.heads.all (fun x => x.phase == 3)
    then b.attnFinish f j else b
  | _, _ => b

/-- After a unit command, a transfer, a grant or a combined window: held unit commands that may go on go on,
and every operation is looked at. -/
def Blk.sweep (b : Blk) : Blk :=
  let b := ((b.cu.waiting.map UCmd.ch).eraseDups).foldl Blk.runHeldCmds b
  b.cu.jobs.foldl (fun (b : Blk) j =>
    ((b.progEnd (some (j.q, j.seq))).attnEnd (j.q, j.seq)).jobSettle (some (j.q, j.seq))) b

/-! ### Trees and hub -/

/-- TREE_WINDOW_COMPLETE (R165, R201): the tree hands a complete window to the hub and frees its
context. -/
def Blk.treeComplete (b : Blk) (q seq stack win : Nat) : Blk :=
  match b.ctx? q seq stack win, b.flight? q seq with
  | some t, some f =>
    if t.left != 0 || eOpcode f.raw == 0x13 then b
    else
      let b := b.setTrees (b.cu.trees.filter (fun x => x != t))
      let b := b.updJob q seq (fun j => { j with wins := j.wins.map (fun w =>
        if w.win == win then { w with due := w.due.filter (· != stack), got := w.got ++ [t] } else w) })
      match t.err with
      | some (u, e) => (b.jobNote (some (q, seq)) u e).jobSettle (some (q, seq))
      | none => b
  | _, _ => b

/-- HUB_WINDOW_COMBINE (R166, R201). -/
def Blk.hubCombine (b : Blk) (q seq win : Nat) : Blk :=
  match b.running? q seq, b.job? q seq with
  | some f, some j =>
    match j.win? win with
    | none => b
    | some w =>
      if j.failed || !w.due.isEmpty || j.combined.contains win then b
      else if eOpcode f.raw = 0x10 then (b.gemvCombine f j w).sweep
      else if eOpcode f.raw = 0x11 then (b.attnCombine f j w).sweep
      else b
  | _, _ => b

/-- PLAN_READ_DONE (R158, R185). -/
def Blk.planReadDone (b : Blk) (q seq : Nat) : Blk :=
  match b.running? q seq with
  | none => b
  | some f =>
    if f.progress != 1 || (b.job? q seq).isSome then b
    else if eOpcode f.raw = 0x10 then b.planRead f
    else if eOpcode f.raw = 0x11 then b.tableRead f
    else b

/-! ### The commands of chapters 5 to 7 -/

def execPimMode (ch mask body : Nat) (s : State) : Out := hubAct s (fun b => (b.submit (unitCmdOf ch 1 mask body [])).sweep)
def execOpl (ch mask body : Nat) (data : Bytes) (s : State) : Out := hubAct s (fun b => (b.submit (unitCmdOf ch 2 mask body data)).sweep)
def execTblWr (ch mask body : Nat) (data : Bytes) (s : State) : Out := hubAct s (fun b => ((b.submit (unitCmdOf ch 7 mask body data)).settleErred (unitCmdOf ch 7 mask body data)).sweep)
def execStepLd (ch mask body : Nat) (data : Bytes) (s : State) : Out := hubAct s (fun b => (b.submit (unitCmdOf ch 8 mask body data)).sweep)
def execStepGo (ch mask body : Nat) (s : State) : Out := hubAct s (fun b => (b.submit (unitCmdOf ch 9 mask body [])).sweep)
def execCact (t : StepTarget) (s : State) : Out := hubAct s (fun b => (b.stepCmd 3 t).sweep)
def execCrd (t : StepTarget) (s : State) : Out := hubAct s (fun b => (b.stepCmd 4 t).sweep)
def execCwr (t : StepTarget) (s : State) : Out := hubAct s (fun b => (b.stepCmd 5 t).sweep)
def execAccRd (t : StepTarget) (s : State) : Out := hubAct s (fun b => (b.stepCmd 6 t).sweep)
def execSmax (u : Nat) (s : State) : Out := hubAct s (fun b => b.runStep u 0xA)
def execSexp (u : Nat) (s : State) : Out := hubAct s (fun b => b.runStep u 0xB)
def execLperm (u : Nat) (s : State) : Out := hubAct s (fun b => b.runStep u 0xC)
def execLew (u : Nat) (s : State) : Out := hubAct s (fun b => b.runStep u 0xD)
def execLstat (u : Nat) (s : State) : Out := hubAct s (fun b => b.runStep u 0xE)

/-- The first transfer of a unit that carries a set ends: its partials reach the tree (R144). -/
def Blk.transferDone (b : Blk) (u set : Nat) : Blk :=
  let x := b.unit u
  match x.xfers.find? (fun t => t.sets.contains set) with
  | none => b
  | some t => ((b.setUnit u { x with xfers := x.xfers.erase t }).deliver u t).runHeldCmds (unitCh u)

def execAccRdTransferDone (u set : Nat) (s : State) : Out := hubAct s (fun b => (b.transferDone u set).sweep)
def execBankGemv (q seq : Nat) (s : State) : Out := hubAct s (fun b => b.gemvStart q seq)
def execBankEwise (q seq : Nat) (s : State) : Out := hubAct s (fun b => b.ewStart q seq)
def execBankNorm (q seq : Nat) (s : State) : Out := hubAct s (fun b => b.normStart q seq)
def execBankTable (q seq : Nat) (s : State) : Out := hubAct s (fun b => b.tableStart q seq)
def execBankAttn (q seq : Nat) (s : State) : Out := hubAct s (fun b => b.attnStart q seq)
def execPlanReadDone (q seq : Nat) (s : State) : Out := hubAct s (fun b => b.planReadDone q seq)
def execTreeWindowComplete (q seq stack win : Nat) (s : State) : Out := hubAct s (fun b => (b.treeComplete q seq stack win).sweep)
def execHubWindowCombine (q seq win : Nat) (s : State) : Out := hubAct s (fun b => b.hubCombine q seq win)
def execNormStatsReady (q seq row : Nat) (s : State) : Out := hubAct s (fun b => b.normReady q seq row)
def execAttnFallbackCheck (q seq : Nat) (s : State) : Out := hubAct s (fun b => (b.attnFallback q seq).sweep)
def execAttnProbeResolve (q seq head : Nat) (s : State) : Out := hubAct s (fun b => b.attnResolve q seq head)

end Sys2Proof.Machine
end

