-- ==== Sys2Proof/Machine/Hub.lean ====
section
/-! DEFINITION. Ox 0 to 3, the finished-tile queue and TILE_MM (R206 to R214). -/

namespace Sys2Proof.Machine
open Sys2Proof

def Blk.setHub (b : Blk) (h : HubSt) : Blk := { b with hub := h }

/-- The work of a hub engine: its port and the hub-traffic class (R89). -/
def Wk.hub (b : Blk) (f : Flight) (port : Nat) : Wk :=
  let w := Wk.start b f port
  { w with rq := { w.rq with cls := cHub } }

/-! ### Vector-engine programs (R216 to R220) -/

/-- Names of the opcodes of R218. -/
def veOps : List Nat :=
  [1, 2, 3, 4, 5, 6, 7, 8, 9, 0xA, 0xB, 0xC, 0xD, 0xE, 0x10, 0x11, 0x12, 0x18, 0x19, 0x1A, 0x1B, 0x1C, 0x1D, 0x1E, 0x20, 0x21,
   0x28, 0x29, 0x2A, 0x30]

/-- Fields of an instruction (R217). -/
structure VIns where
  op : Nat
  d : Nat
  a : Nat
  b : Nat
  c : Nat
  k : Nat
  z : Bool
  bs : Bool
  sub : Nat
  s : Nat
  fn : Nat
  low : Nat
  imm : Nat
  deriving DecidableEq, Repr

def vIns (w : Nat) : VIns where
  op := bits w 63 56
  d := bits w 55 51
  a := bits w 50 46
  b := bits w 45 41
  c := bits w 40 36
  k := bits w 35 33
  z := w.testBit 32
  bs := w.testBit 31
  sub := bits w 30 28
  s := bits w 27 24
  fn := bits w 23 16
  low := bits w 15 0
  imm := w % 2 ^ 32

/-- R229: the native codes of VFN, and the CRL1 variants. -/
def sfuCode (fn : Nat) : Bool := decide (1 ≤ fn) && decide (fn ≤ 0x10)
def hasCrl1 (fn : Nat) : Bool := [1, 2, 5, 7, 8, 9, 0xA, 0xB].contains fn

/-- Opcodes that read a second source which may be a scalar. -/
def opB (op : Nat) : Bool := [1, 2, 3, 4, 5, 6, 9, 0xA, 0xB, 0x10].contains op

/-- R217, R218: an instruction uses only its own fields, and names registers that exist. -/
def VIns.ok (i : VIns) (vfmt : Nat) : Bool :=
  let int := vfmt == cINT32
  let vec := veOps.contains i.op && decide (i.op < 0x13)
  let usesD := i.op != 0x19 && i.op != 0x1B && i.op != 0x1E
  let dMax := if i.op = 0xA || i.op = 0x1A || i.op = 0x2A then 8
    else if i.op = 0x1D || i.op = 0x21 || i.op = 0x28 || i.op = 0x29 then 16
    else if i.op = 0x20 then 4 else 32
  let usesA := !([0xE, 0x18, 0x1A, 0x1C, 0x1D, 0x28].contains i.op)
  let aMax := if i.op = 0xD || i.op = 0x1E || i.op = 0x29 then 16 else if i.op = 0x2A then 8 else if i.op = 0x21 then 4 else 32
  let usesB := opB i.op || i.op == 0x29 || i.op == 0x2A
  let bMax := if i.bs || i.op = 0x29 then 16 else if i.op = 0x2A then 8 else 32
  let cMax := if i.op = 4 then 32 else if i.op = 0x11 then 16 else 1
  let usesK := vec || [0x18, 0x19, 0x1B, 0x1C, 0x20, 0x30].contains i.op
  let usesZ := (vec && i.op != 0xA && i.op != 0xB && i.op != 0x11) || [0x18, 0x1C, 0x30].contains i.op
  let subMax := if i.op = 9 then 6 else if i.op = 0xA then 7 else if i.op = 0x1E then 2 else if i.op = 0x20 then 7
    else if i.op = 0x29 then 5 else if i.op = 0x2A then 4 else 1
  let usesS := [0x18, 0x19, 0x1A, 0x1B, 0x1C, 0x1D, 0x1E].contains i.op
  veOps.contains i.op
    && (if usesD then decide (i.d < dMax) else i.d == 0) && (if usesA then decide (i.a < aMax) else i.a == 0)
    && (if usesB then decide (i.b < bMax) else i.b == 0) && decide (i.c < cMax) && (usesK || i.k == 0) && (usesZ || !i.z)
    && (if i.op = 0x28 then true
        else (opB i.op || !i.bs) && decide (i.sub < subMax) && (if usesS then decide (i.s < 4) else i.s == 0) && i.low == 0
          && (if i.op = 0x30 then !int && (sfuCode i.fn || (decide (0x80 ≤ i.fn) && hasCrl1 (i.fn - 0x80))) else i.fn == 0))
    && (i.op != 9 || int) && !(i.op == 0x20 && i.sub == 6 && int)

/-- The lanes of a vector register (R215). -/
def vlMax (vfmt : Nat) : Nat := if vfmt = cFP32 || vfmt = cINT32 then 64 else 128

/-- Reads a header (R216); none where it breaks a rule. -/
def vHeader (h : Bytes) : Option VProg :=
  let vf := fld h 0 1
  let n := fld h 1 1 + fld h 2 1 + fld h 3 1
  if (vf == cFP32 || vf == cBF16 || vf == cFP16 || vf == cINT32) && decide (n ≤ 512) && zeroAt h 0x14 4 then
    some ⟨vf, fld h 1 1, fld h 2 1, fld h 3 1, [fld h 4 4, fld h 8 4, fld h 0xC 4, fld h 0x10 4], []⟩
  else none

def VProg.len (p : VProg) : Nat := p.pre + p.body + p.post

/-- Whether instruction number n lies in BODY. -/
def VProg.inBody (p : VProg) (n : Nat) : Bool := decide (p.pre ≤ n) && decide (n < p.pre + p.body)

/-- Streams that the program uses through some opcodes. -/
def VProg.streams (p : VProg) (ops : List Nat) : List Nat :=
  ((p.code.map vIns).filter (fun i => ops.contains i.op)).map VIns.s

def opsRead : List Nat := [0x18, 0x1A, 0x1C, 0x1D]
def opsWrite : List Nat := [0x19, 0x1B, 0x1E]

/-- R220: the first instruction that breaks a rule. -/
def VProg.firstBad (p : VProg) (epi : Bool) : Option Nat :=
  (List.range p.code.length).find? (fun n =>
    let i := vIns (p.code.getD n 0)
    let place := if [0x18, 0x19, 0x1A, 0x1B, 0x1C, 0x20].contains i.op then p.inBody n
      else if [0x1D, 0x1E, 0x21].contains i.op then !p.inBody n else true
    let one := i.op != 0x20 || (List.range n).all (fun m =>
      let j := vIns (p.code.getD m 0)
      j.op != 0x20 || j.d != i.d || j.sub == i.sub)
    let tail := !epi || !([0x1A, 0x1B, 0x1C, 0x1D, 0x1E, 0x20, 0x21].contains i.op)
    !(i.ok p.vfmt && place && one && tail))

/-- R220: formats of streams. -/
def streamFmt (c : Nat) : Bool := [cFP32, cBF16, cFP16, cE4M3, cE5M2, cINT8, cUINT8, cINT4, cFP4, cINT32].contains c

/-- R214, R220: the rules of an epilogue beside those of its instructions. -/
def VProg.epiOk (p : VProg) (aux : Bool) : Bool :=
  let rd := p.streams opsRead
  let wr := p.streams opsWrite
  rd.all (fun s => s == 0 || (s == 1 && aux)) && wr.all (· == 3)
    && (List.range p.code.length).any (fun n => p.inBody n && (vIns (p.code.getD n 0)).op == 0x19 && (vIns (p.code.getD n 0)).s == 3)

/-- A byte string that a UINT8 tensor holds, from element e0 on. -/
def Wk.bytes (w : Wk) (d : Desc) (e0 n : Nat) : Wk × Bytes :=
  let (w, ixs) := w.indices d
  let (w, xs) := w.elems d ixs ((List.range n).map (e0 + ·))
  (w, xs.map (fun x => BitVec.ofNat 8 x.raw))

/-- Reads a program from its tensor (R216, R226): the header, then the instructions it counts. A
tensor too short for them breaks the header's rule. -/
def Wk.program (w : Wk) (d : Desc) : Wk × Option VProg :=
  if d.fmt != cUINT8 || decide (Dsc.count d < 24) then (w, none)
  else
    let (w, h) := w.bytes d 0 24
    match vHeader h with
    | none => (w, none)
    | some p =>
      if Dsc.count d < 24 + 8 * p.len then (w, none)
      else
        let (w, c) := w.bytes d 24 (8 * p.len)
        (w, some { p with code := (List.range p.len).map (fun n => fld c (8 * n) 8) })

/-! ### TILE_MM (R206 to R208) -/

namespace Tmm
def wfmt (e : Bytes) : Nat := fld e 0x20 1
def afmt (e : Bytes) : Nat := fld e 0x21 1
def ofmt (e : Bytes) : Nat := fld e 0x22 1
def scaled (e : Bytes) : Bool := (fld e 0x23 1).testBit 0
def epi (e : Bytes) : Bool := (fld e 0x23 1).testBit 1
def anchor (e : Bytes) : Nat := fld e 0x24 2
def n (e : Bytes) : Nat := fld e 0x28 4
def k (e : Bytes) : Nat := fld e 0x2C 4
def batch (e : Bytes) : Nat := fld e 0x30 4
def scale (e : Bytes) : Nat := fld e 0x34 4
def epiH (e : Bytes) : Nat := fld e 0x38 4

/-- R210: blocks of 128 outputs, and tiles. -/
def nBlocks (e : Bytes) : Nat := cdiv (n e) 128
def total (e : Bytes) : Nat := cdiv (batch e) 128 * nBlocks e
/-- First vector and first output of a tile, its vector count and its width. -/
def b0 (e : Bytes) (t : Nat) : Nat := t / nBlocks e * 128
def n0 (e : Bytes) (t : Nat) : Nat := t % nBlocks e * 128
def v (e : Bytes) (t : Nat) : Nat := min 128 (batch e - b0 e t)
def w (e : Bytes) (t : Nat) : Nat := min 128 (n e - n0 e t)

/-- R207. -/
def pair (w a : Nat) : Bool :=
  let fp8 := fun (x : Nat) => x == cE4M3 || x == cE5M2
  let mx5 := fun (x : Nat) => decide (cMXE4M3 ≤ x) && decide (x ≤ cMXFP4)
  if fp8 w || w == cFP4 || w == cCB4 then fp8 a
  else if w == cINT8 || w == cUINT8 || w == cINT4 then a == cINT8 || a == cUINT8
  else if w == cBF16 || w == cFP16 then a == w
  else if w == cMXINT8 then a == cMXINT8
  else mx5 w && mx5 a

def fp (e : Bytes) : Bool := wfmt e == cBF16 || wfmt e == cFP16

/-- K is a multiple of this (R206). -/
def kMult (w : Nat) : Nat := if isMX w then 32 else if w = cCB4 then 256 else if fmtBits w = 4 then 2 else 1
end Tmm

/-- R206, R207. -/
def Blk.tmmOk (b : Blk) (f : Flight) : Bool :=
  let e := f.raw
  let h := eHandle e
  let w := Tmm.wfmt e
  Tmm.pair w (Tmm.afmt e) && Gemv.outFmts.contains (Tmm.ofmt e) && decide (fld e 0x23 1 < 4)
    && (isWindow w || Tmm.anchor e == 0) && zeroAt e 0x26 2 && decide (1 ≤ Tmm.n e) && decide (Tmm.n e ≤ 16777216)
    && decide (1 ≤ Tmm.k e) && decide (Tmm.k e ≤ if Tmm.fp e then 16777216 else 1048576) && multOf (Tmm.k e) (Tmm.kMult w)
    && decide (1 ≤ Tmm.batch e) && decide (Tmm.batch e ≤ 16777216) && (Tmm.epi e || Tmm.epiH e == 0) && zeroAt e 0x3C 68
    && !(Tmm.ofmt e == cWIDE96 && (Tmm.fp e || w == cCB4 || Tmm.scaled e || Tmm.epi e)) && (h 3 == 0 || Tmm.epi e)
    && b.handleOk f (h 0) w false && b.handleOk f (h 1) (Tmm.afmt e) false && b.handleOk f (h 2) (Tmm.ofmt e) true
    && (h 3 == 0 || ((b.fdesc f (h 3)).map (fun d => streamFmt d.fmt && Dsc.count d == Tmm.batch e * Tmm.n e)).getD false)
    && b.countOf f (h 0) == Tmm.n e * Tmm.k e && b.countOf f (h 1) == Tmm.batch e * Tmm.k e
    && b.countOf f (h 2) == Tmm.batch e * Tmm.n e && b.plainOut f (h 2)
    && (!Tmm.epi e || (b.fdesc f (Tmm.epiH e)).isSome)

/-- Cuts a list into pieces of n. -/
def pieces {α : Type} (n : Nat) : Nat → List α → List (List α)
  | 0, _ => []
  | _, [] => []
  | fuel + 1, l => l.take n :: pieces n fuel (l.drop n)

/-- R208: the sum of one output, as a WIDE96 partial or an FP32 word. -/
def tmmSum (wfmt afmt anchor : Nat) (ws as : List Elem) : Nat × Flags :=
  let w := ws.map (fun x => plusZero (x.val wfmt))
  let a := as.map (fun x => plusZero (x.val afmt))
  let fl := nanFlags w ||| nanFlags a
  let ps := products w a
  if wfmt == cBF16 || wfmt == cFP16 then
    (pieces 16 ps.length ps).foldl (fun (x : Nat × Flags) g =>
      let (y, f) := fpRes (Ex.add (f32 x.1) (exSum g))
      (y, x.2 ||| f)) (0, fl)
  else if isMX wfmt then
    (pieces 32 ps.length ps).foldl (fun (x : Nat × Flags) g =>
      let (y, f) := enterWindow (sext 16 anchor) 80 (exSum g)
      let (r, h) := addWide x.1 y
      (r, x.2 ||| f ||| h)) (0, fl)
  else if wfmt = cCB4 then
    let (y, f) := enterAll (sext 16 anchor) 75 ps
    let (r, h) := addWide 0 y
    (r, fl ||| f ||| h)
  else
    let (r, h) := addWide 0 ((exSum ps).scale (-(wideExp wfmt afmt anchor)))
    (r, fl ||| h)

/-- R209: the result of an output before its rounding. -/
def tmmVal (e : Bytes) (sum : Nat) : Ex :=
  let x := if Tmm.fp e then f32 sum else (decWide sum).scale (wideExp (Tmm.wfmt e) (Tmm.afmt e) (Tmm.anchor e))
  plusZero (if Tmm.scaled e then Ex.mul x (f32 (Tmm.scale e)) else x)

/-- The elements of `len` rows of K from row r0 on. -/
def Wk.rowsOf (w : Wk) (d : Desc) (ixs : List Int) (k r0 : Nat) : Nat → Wk × List (List Elem)
  | 0 => (w, [])
  | len + 1 =>
    let (w, x) := w.elems d ixs ((List.range k).map (fun i => r0 * k + i))
    let (w, t) := w.rowsOf d ixs k (r0 + 1) len
    (w, x :: t)

/-- The sums of a tile, vector by vector (R208, R210). -/
def Wk.tileSums (w : Wk) (e : Bytes) (wd xd : Desc) (t : Nat) : Wk × List (List (Nat × Flags)) :=
  let (w, wi) := w.indices wd
  let (w, xi) := w.indices xd
  let (w, ws) := w.rowsOf wd wi (Tmm.k e) (Tmm.n0 e t) (Tmm.w e t)
  let (w, xs) := w.rowsOf xd xi (Tmm.k e) (Tmm.b0 e t) (Tmm.v e t)
  (w, xs.map (fun x => ws.map (fun r => tmmSum (Tmm.wfmt e) (Tmm.afmt e) (Tmm.anchor e) r x)))

def Blk.tileJob? (b : Blk) (q seq : Nat) : Option TileJob := b.hub.tiles.find? (fun j => j.q == q && j.seq == seq)
def Blk.updTile (b : Blk) (q seq : Nat) (g : TileJob → TileJob) : Blk :=
  b.setHub { b.hub with tiles := b.hub.tiles.map (fun j => if j.q == q && j.seq == seq then g j else j) }

def OxSt.reset : OxSt := ⟨none, []⟩
def Blk.oxSt (b : Blk) (k : Nat) : OxSt := tget .reset k b.hub.ox
def Blk.setOx (b : Blk) (k : Nat) (x : OxSt) : Blk := b.setHub { b.hub with ox := tset k x b.hub.ox }

/-- R211: free Ox take the lowest tile that none has taken of the oldest entry that has one. -/
def Blk.oxTake (b : Blk) : Blk :=
  (List.range 4).foldl (fun (b : Blk) k =>
    let x := b.oxSt k
    if x.run.isSome || 1 < x.kept.length then b
    else match b.hub.tiles.find? (fun j => decide (j.next < j.total)) with
      | none => b
      | some j => (b.updTile j.q j.seq (fun y => { y with next := y.next + 1 })).setOx k { x with run := some (j.q, j.seq, j.next) }) b

/-- Completion words of R212. -/
def TileJob.result (j : TileJob) : Nat := j.written % 2 ^ 32 + min j.waited (2 ^ 32 - 1) * 2 ^ 32

/-- Takes an entry from the Ox and the queue; its tiles are discarded (R228). A tile in the queue keeps its
entry of the queue until that is freed. -/
def Blk.tileDrop (b : Blk) (q seq : Nat) : Blk :=
  let mine := fun (t : Tile) => t.q == q && t.seq == seq
  let onTile := match b.hub.tile with | some r => r.q == q && r.seq == seq | none => false
  b.setHub { b.hub with
    tiles := b.hub.tiles.filter (fun j => !(j.q == q && j.seq == seq))
    ox := b.hub.ox.map (fun (p : Nat × OxSt) =>
      (p.1, { run := if p.2.run.any (fun r => r.1 == q && r.2.1 == seq) then none else p.2.run, kept := p.2.kept.filter (fun t => !mine t) }))
    ftq := b.hub.ftq.map (fun t => if mine t then { t with stored := true, vals := [] } else t)
    tile := if onTile then none else b.hub.tile
    active := if onTile && b.hub.active == 1 then 0 else b.hub.active }

/-- Ends a TILE_MM (R212); after an error Y is undefined. Ox that become free take the next tiles (R211). -/
def Blk.tileEnd (b : Blk) (j : TileJob) (st flags : Nat) : Blk :=
  match b.flight? j.q j.seq with
  | none => (b.tileDrop j.q j.seq).oxTake
  | some f =>
    let b := b.tileDrop j.q j.seq
    let b := if isErr st then (match b.fdesc f (eHandle f.raw 2) with
      | some d => let (w, ixs) := (Wk.hub b f 5).indices d
                  b.scramble w.rq d ixs 0 (Dsc.count d)
      | none => b) else b
    (b.finish j.q j.seq st flags j.result).oxTake

/-- A tile boundary: the entry completes when its last tile is written (R213), or ends with what stopped
it (R212, R228). -/
def Blk.tileSettle (b : Blk) (q seq : Nat) : Blk :=
  match b.tileJob? q seq with
  | none => b
  | some j =>
    if j.written = j.total then b.tileEnd j stOK j.flags
    else if j.stop != stOK then b.tileEnd j j.stop j.flags
    else b

/-- A TILE_MM ends with a status at its next tile boundary: at once where no tile of it is in work. -/
def Blk.tileStop (b : Blk) (j : TileJob) (st : Nat) : Blk :=
  let busy := (b.hub.ox.any (fun p => p.2.run.any (fun r => r.1 == j.q && r.2.1 == j.seq)))
    || b.hub.tile.any (fun r => r.q == j.q && r.seq == j.seq)
  if busy then b.updTile j.q j.seq (fun k => { k with stop := if k.stop = stOK then st else k.stop }) else b.tileEnd j st j.flags

/-- Inserts a job by the order in which the hub received it (R211). -/
def insTile (j : TileJob) : List TileJob → List TileJob
  | [] => [j]
  | a :: t => if j.order < a.order then j :: a :: t else a :: insTile j t

/-- The started entry with an opcode that no engine holds yet. -/
def Blk.unserved (b : Blk) (q seq op : Nat) : Option Flight :=
  match b.running? q seq with
  | some f =>
    if eOpcode f.raw = op && (b.tileJob? q seq).isNone
      && !((b.hub.run.toList ++ b.hub.queue).any (fun r => r.q == q && r.seq == seq)) then some f else none
  | none => none

/-- TILE_MM (R206, R207, R220): the checks, then the entry joins those the Ox serve. -/
def Blk.tileStart (b : Blk) (q seq : Nat) : Blk :=
  match b.unserved q seq 0x20 with
  | none => b
  | some f =>
    let e := f.raw
    if !b.tmmOk f then b.finish q seq stDESC 0 0
    else
      let w := Wk.hub b f 5
      let (w, p) := match Tmm.epi e, b.fdesc f (Tmm.epiH e) with
        | true, some d => w.program d
        | _, _ => (w, none)
      let w := w.outsOk (b.fdesc f (eHandle e 2)).toList
      match w.waits b with
      | some b => b
      | none =>
        let good := !Tmm.epi e || ((p.map (fun p => (p.firstBad true).isNone && p.epiOk (eHandle e 3 != 0))).getD false)
        if w.bad then w.b.finish q seq w.st w.flags 0
        else if !good then w.b.finish q seq stDESC w.flags 0
        else
          let j : TileJob := ⟨q, seq, f.order, 0, Tmm.total e, 0, 0, w.flags, p, stOK, []⟩
          (w.b.setHub { w.b.hub with tiles := insTile j w.b.hub.tiles }).oxTake

/-- Puts waiting tiles into the queue while it has room; Ox in order of number. -/
def Blk.ftqPush (b : Blk) : Blk :=
  (List.range 4).foldl (fun (b : Blk) k =>
    let x := b.oxSt k
    let room := 64 - b.hub.ftq.length
    let go := x.kept.take room
    (b.setOx k { x with kept := x.kept.drop room }) |> fun b => b.setHub { b.hub with ftq := b.hub.ftq ++ go }) b

/-- TILE_DONE (R209): the tile is written, or pushed for its epilogue. -/
def Blk.tileDone (b : Blk) (k : Nat) : Blk :=
  let x := b.oxSt k
  match x.run with
  | none => b
  | some (q, seq, t) =>
    match b.tileJob? q seq, b.flight? q seq with
    | some j, some f =>
      let e := f.raw
      match b.fdesc f (eHandle e 0), b.fdesc f (eHandle e 1), b.fdesc f (eHandle e 2) with
      | some wd, some xd, some yd =>
        if j.epi.isSome && decide (1 < x.kept.length) then b
        else
          let (w, rows) := (Wk.hub b f 5).tileSums e wd xd t
          let fl := rows.foldl (fun a r => r.foldl (fun c p => c ||| p.2) a) 0
          if j.epi.isSome then
            match w.asks b with
            | (some b, _) => b
            | (none, w) =>
              if w.bad then w.b.tileEnd j (if j.stop = stOK then w.st else j.stop) (j.flags ||| w.flags ||| fl)
              else
                let vs := (rows.map (fun r => r.map (fun p => fpRes (tmmVal e p.1)))).flatten
                let fl := vs.foldl (fun a p => a ||| p.2) (fl ||| w.flags)
                let b := w.b.updTile q seq (fun j => { j with flags := j.flags ||| fl })
                (((b.setOx k { run := none, kept := x.kept ++ [⟨q, seq, t, vs.map (fun p => p.1), false⟩] }).ftqPush).oxTake).tileSettle q seq
          else
            let (w, ixs) := w.indices yd
            let w := ((List.range (Tmm.v e t)).foldl (fun (w : Wk) i =>
              let row := rows.getD i []
              let e0 := (Tmm.b0 e t + i) * Tmm.n e + Tmm.n0 e t
              if Tmm.ofmt e = cWIDE96 then w.putRaws yd ixs e0 (row.map (fun p => p.1))
              else w.putVals yd ixs e0 (row.map (fun p => tmmVal e p.1))) w).flag fl
            match w.asks b with
            | (some b, _) => b
            | (none, w) =>
              if w.bad then w.b.tileEnd j (if j.stop = stOK then w.st else j.stop) (j.flags ||| w.flags)
              else
                let b := w.b.updTile q seq (fun j => { j with flags := j.flags ||| w.flags, written := j.written + 1 })
                (b.setOx k { x with run := none }).oxTake.tileSettle q seq
      | _, _, _ => b
    | _, _ => b.setOx k { x with run := none }

/-- FTQ_ENTRY_FREED (R213): the queue entry of a tile that is stored, or discarded, is freed and waiting Ox
push. `periods`: for each Ox, the periods of 1,024 hub cycles, not counted before, in which it waited for
the entry (R212). -/
def Blk.ftqFreed (b : Blk) (periods : List Nat) : Blk :=
  match b.hub.ftq.find? Tile.stored with
  | none => b
  | some t =>
    let waits := (List.range 4).flatMap (fun k => (b.oxSt k).kept.map (fun t => (t.q, t.seq, periods.getD k 0)))
    let b := b.setHub { b.hub with
      ftq := b.hub.ftq.erase t
      tiles := b.hub.tiles.map (fun j => { j with
        waited := j.waited + waits.foldl (fun n w => if w.1 == j.q && w.2.1 == j.seq then max n w.2.2 else n) 0 }) }
    b.ftqPush.oxTake

end Sys2Proof.Machine
end

