-- ==== Sys2Proof/Machine/Vec.lean ====
section
/-! DEFINITION. The vector engine (R215 to R227): its instructions, its rows and its work order. -/

namespace Sys2Proof.Machine
open Sys2Proof

/-! ### Values -/

/-- Width of a lane. -/
def vBits (vf : Nat) : Nat := fmtBits vf

/-- A lane's value. -/
def vDec (vf raw : Nat) : Ex := decElem vf raw

/-- R219: one rounding into vfmt. -/
def vEnc (vf : Nat) (x : Ex) : Nat × Flags := encElem vf x

/-- The scalar type of a program: INT32, or FP32. -/
def sFmt (vf : Nat) : Nat := if vf = cINT32 then cINT32 else cFP32

/-- Lane i of a vector register, in lanes of vfmt's width (R215). -/
def VeCtx.lane (c : VeCtx) (vf r i : Nat) : Nat := tget 0 r c.v / 2 ^ (vBits vf * i) % 2 ^ vBits vf
def VeCtx.xreg (c : VeCtx) (r : Nat) : Nat := tget 0 r c.x
def VeCtx.setX (c : VeCtx) (r v : Nat) : VeCtx := { c with x := tset r (v % 2 ^ 32) c.x }

/-- R215: k0 reads as all ones. -/
def VeCtx.kreg (c : VeCtx) (r : Nat) : Nat := if r = 0 then 2 ^ 128 - 1 else tget 0 r c.k

/-- R215: k0 cannot be written. -/
def VeCtx.setK (c : VeCtx) (r v : Nat) : VeCtx := if r = 0 then c else { c with k := tset r (v % 2 ^ 128) c.k }

/-- R218: active lanes. -/
def VeCtx.active (c : VeCtx) (k i : Nat) : Bool := decide (i < c.vl) && (c.kreg k).testBit i

/-- R217, R218: writes a vector destination. -/
def VeCtx.setV (c : VeCtx) (vf : Nat) (i : VIns) (f : Nat → Nat) : VeCtx :=
  let lanes := (List.range (vlMax vf)).map (fun n =>
    if c.vl ≤ n then 0 else if c.active i.k n then f n % 2 ^ vBits vf else if i.z then 0 else c.lane vf i.d n)
  { c with v := tset i.d (lanes.foldr (fun x a => x + a * 2 ^ vBits vf) 0) c.v }

/-- Lane n of source b: the vector, or the scalar's value (R217). -/
def VeCtx.srcB (c : VeCtx) (vf : Nat) (i : VIns) (n : Nat) : Ex :=
  if i.bs then vDec (sFmt vf) (c.xreg i.b) else vDec vf (c.lane vf i.b n)

/-- The raw lane of source b; a scalar is converted into vfmt by R129. -/
def VeCtx.rawB (c : VeCtx) (vf : Nat) (i : VIns) (n : Nat) : Nat :=
  if i.bs then (vEnc vf (vDec (sFmt vf) (c.xreg i.b))).1 else c.lane vf i.b n

/-- The lanes that are active. -/
def VeCtx.lanes (c : VeCtx) (k : Nat) : List Nat := (List.range c.vl).filter (fun n => c.active k n)

/-- NAN_SEEN for the inputs of active lanes (R219). -/
def VeCtx.nans (c : VeCtx) (k : Nat) (f : Nat → Ex) : Flags := nanFlags ((c.lanes k).map f)

/-- An instruction whose lane n is the rounded value of f n, reading the values that `rd` lists. -/
def VeCtx.arith (c : VeCtx) (vf : Nat) (i : VIns) (f : Nat → Ex) (rd : Nat → List Ex) : VeCtx × Flags :=
  (c.setV vf i (fun n => (vEnc vf (f n)).1),
   (c.lanes i.k).foldl (fun a n => a ||| (vEnc vf (f n)).2 ||| nanFlags (rd n)) 0)

/-- R218 VLOGIC. -/
def vLogic (sub a b : Nat) : Nat :=
  if sub = 0 then a &&& b else if sub = 1 then a ||| b else if sub = 2 then a ^^^ b
  else if sub = 3 then (a * 2 ^ (b % 32)) % 2 ^ 32
  else if sub = 4 then a / 2 ^ (b % 32)
  else wrap 32 (sext 32 a / (2 ^ (b % 32) : Nat))

/-- R218 VCMP. -/
def vCmp (sub : Nat) (a b : Ex) : Bool :=
  if sub = 0 then Ex.eqv a b else if sub = 1 then !Ex.eqv a b else if sub = 2 then Ex.lt a b
  else if sub = 3 then Ex.le a b else if sub = 4 then Ex.lt b a else if sub = 5 then Ex.le b a
  else a.isNan || b.isNan

/-! ### CRL1 (R247) -/

/-- Subnormals become zeros of their sign. -/
def flush32 (raw : Nat) : Nat := if raw / 2 ^ 23 % 256 = 0 then raw / 2 ^ 31 * 2 ^ 31 else raw

/-- FP32 bits of a number that rises with its value; zero takes a sign. -/
def keyBits (neg : Bool) (k : Int) : Nat :=
  if k < 0 then 2 ^ 31 + k.natAbs else if k = 0 && neg then 2 ^ 31 else k.toNat

/-- The FP32 values within 2 ulp of a real value, around a result y, as rising numbers. -/
def within2 (lo hi : Ex) (y : Nat) : List Int :=
  let two := Ex.ofDyadic 1 (ulpExp ffp32 lo + 1)
  let near := fun (k : Int) =>
    let v := f32 (keyBits false k)
    v.isFin && Ex.le (Ex.abs (Ex.sub v lo)) two && Ex.le (Ex.abs (Ex.sub v hi)) two
  ((List.range 7).map (fun i => f32Key y + ((i : Nat) : Int) - 3)).filter near

/-- R247: the CRL1 unit's FP32 result. Which value within 2 ulp it is, the spec does not give: a free
choice among them (log 13). -/
def crl1 (fn raw : Nat) : Nat × Flags :=
  if (f32 raw).isNan then (raw ||| 0x400000, flagNan)
  else
    let x := flush32 raw
    let (y, fl) := sfuNative fn cFP32 x
    if !f32Finite y || (f32 y).isZero || !f32Finite x || (f32 x).isZero then (y, fl)
    else
      let (lo, hi) := fnBounds fn (f32 x)
      let ks := within2 lo hi y
      let k := ks.getD (Config.crl1 fn x % max 1 ks.length) (f32Key y)
      (flush32 (keyBits (f32 y).isNeg k), fl)

/-- R247: a CRL1 FP32 result in an output format; a NaN keeps its payload in 16-bit formats. -/
def crl1Out (fmt raw : Nat) : Nat × Flags :=
  if (f32 raw).isNan && fmt = cBF16 then (raw / 2 ^ 16, flagNan)
  else if (f32 raw).isNan && fmt = cFP16 then (raw / 2 ^ 31 * 2 ^ 15 + 0x7C00 + raw / 2 ^ 13 % 2 ^ 10, flagNan)
  else if fmt = cFP32 then (raw, nanFlags [f32 raw])
  else encElem fmt (f32 raw)

/-- Raw FP32 bits of an element, exactly widened; a NaN keeps its payload. -/
def widen32 (fmt raw : Nat) : Nat :=
  if fmt = cFP32 then raw
  else if fmt = cBF16 then raw * 2 ^ 16
  else if fmt = cFP16 && (decElem fmt raw).isNan then raw / 2 ^ 15 * 2 ^ 31 + 0x7F800000 + raw % 2 ^ 10 * 2 ^ 13
  else fl32 (decElem fmt raw)

/-- R229, R230: function `fn` of an element, into an output format. -/
def sfuFn (fn ofmt raw32 : Nat) : Nat × Flags :=
  if 0x80 ≤ fn then
    let (y, f) := crl1 (fn - 0x80) raw32
    let (z, g) := crl1Out ofmt y
    (z, f ||| g)
  else sfuNative fn ofmt raw32

/-! ### Reductions (R223) -/

/-- A node of the tree: a value and its index. -/
abbrev Node := Option (Nat × Nat)

/-- One operation of RED on FP32 or INT32 values: sub 0 sum, 1 product, 2 max, 3 min, 4 argmax, 5
argmin, 6 mean. The left input has the lower index. -/
def redOp (sf sub : Nat) (a b : Nat × Nat) : (Nat × Nat) × Flags :=
  let x := vDec sf a.1
  let y := vDec sf b.1
  if sub = 0 || sub = 6 then let (r, f) := vEnc sf (Ex.add x y); ((r, a.2), f)
  else if sub = 1 then let (r, f) := vEnc sf (Ex.mul x y); ((r, a.2), f)
  else if sub = 2 then let (r, f) := vEnc sf (Ex.max2 x y); ((r, a.2), f)
  else if sub = 3 then let (r, f) := vEnc sf (Ex.min2 x y); ((r, a.2), f)
  else if x.isNan then (a, flagNan)
  else if y.isNan then (b, flagNan)
  else if sub = 4 then (if Ex.lt x y then b else a, 0)
  else (if Ex.lt y x then b else a, 0)

def redNode (sf sub : Nat) : Node → Node → Node × Flags
  | none, b => (b, 0)
  | a, none => (a, 0)
  | some a, some b => let (r, f) := redOp sf sub a b; (some r, f)

/-- One level of the tree: lanes 2i and 2i + 1 meet. -/
def redLevel (sf sub : Nat) : List Node → List Node × Flags
  | a :: b :: t =>
    let (r, f) := redNode sf sub a b
    let (l, g) := redLevel sf sub t
    (r :: l, f ||| g)
  | l => (l, 0)

/-- The tree over at most 2^n lanes. -/
def redTree (sf sub : Nat) : Nat → List Node → Node × Flags
  | 0, l => (l.getD 0 none, 0)
  | n + 1, l =>
    let (l, f) := redLevel sf sub l
    let (r, g) := redTree sf sub n l
    (r, f ||| g)

def RowAcc.empty : RowAcc := ⟨false, 0, 0, 0⟩

/-- A chunk's result joins a row accumulator. -/
def RowAcc.add (a : RowAcc) (sf sub cnt : Nat) (n : Node) : RowAcc × Flags :=
  match n with
  | none => (a, 0)
  | some x =>
    if a.used then
      let (r, f) := redOp sf sub (a.val, a.idx) x
      (⟨true, r.1, r.2, a.cnt + cnt⟩, f)
    else (⟨true, x.1, x.2, cnt⟩, 0)

/-- RGET's value (R223); an accumulator that no RED of the program names has no stated value. -/
def RowAcc.get (a : RowAcc) (sf : Nat) (sub : Option Nat) (free : Nat) : Nat × Flags :=
  let int := sf == cINT32
  match sub with
  | none => (free, 0)
  | some s =>
    if a.used then
      if s = 4 || s = 5 then (a.idx, 0)
      else if s = 6 then vEnc sf (Ex.div (vDec sf a.val) (Ex.ofNat a.cnt))
      else (a.val, 0)
    else if s = 0 then (0, 0)
    else if s = 1 then (if int then 1 else f32One, 0)
    else if s = 2 then (if int then 2 ^ 31 else f32NInf, 0)
    else if s = 3 then (if int then 2 ^ 31 - 1 else f32PInf, 0)
    else if s = 6 then (f32NaN, flagEmptyReduce)
    else (0xFFFFFFFF, flagEmptyReduce)

/-- The RED sub-operation with which a program uses an accumulator. -/
def VProg.redSub (p : VProg) (r : Nat) : Option Nat :=
  ((p.code.map vIns).find? (fun i => i.op == 0x20 && i.d == r)).map VIns.sub

/-! ### Register instructions (R218, R221, R222) -/

/-- XALU in the scalar type; an INT32 result outside its range has no stated value. -/
def xAlu (sf sub : Nat) (a b free : Nat) : Nat × Flags :=
  let x := vDec sf a
  let y := vDec sf b
  let z := if sub = 0 then Ex.add x y else if sub = 1 then Ex.sub x y else if sub = 2 then Ex.mul x y
    else if sub = 3 then Ex.min2 x y else Ex.max2 x y
  if sf = cINT32 && (Ex.lt z (Ex.ofInt (-2147483648)) || Ex.lt (Ex.ofInt 2147483647) z) then (free, 0)
  else
    let (r, f) := vEnc sf z
    (r, f ||| nanFlags [x, y])

/-- Instructions that touch only the context. `base` is the row's index of lane 0. -/
def VeCtx.exec (c : VeCtx) (p : VProg) (i : VIns) (base free : Nat) : VeCtx × Flags :=
  let vf := p.vfmt
  let sf := sFmt vf
  let A := fun (n : Nat) => vDec vf (c.lane vf i.a n)
  let B := fun (n : Nat) => c.srcB vf i n
  let C := fun (n : Nat) => vDec vf (c.lane vf i.c n)
  if i.op = 1 then c.arith vf i (fun n => Ex.add (A n) (B n)) (fun n => [A n, B n])
  else if i.op = 2 then c.arith vf i (fun n => Ex.sub (A n) (B n)) (fun n => [A n, B n])
  else if i.op = 3 then c.arith vf i (fun n => Ex.mul (A n) (B n)) (fun n => [A n, B n])
  else if i.op = 4 then c.arith vf i (fun n => Ex.add (Ex.mul (A n) (B n)) (C n)) (fun n => [A n, B n, C n])
  else if i.op = 5 then c.arith vf i (fun n => Ex.min2 (A n) (B n)) (fun n => [A n, B n])
  else if i.op = 6 then c.arith vf i (fun n => Ex.max2 (A n) (B n)) (fun n => [A n, B n])
  else if i.op = 7 then c.arith vf i (fun n => Ex.abs (A n)) (fun n => [A n])
  else if i.op = 8 then c.arith vf i (fun n => Ex.neg (A n)) (fun n => [A n])
  else if i.op = 9 then (c.setV vf i (fun n => vLogic i.sub (c.lane vf i.a n) (c.rawB vf i n)), 0)
  else if i.op = 0xA then
    (c.setK i.d ((c.lanes i.k).foldl (fun m n => if vCmp i.sub (A n) (B n) then setBit m n else m) 0),
      (c.lanes i.k).foldl (fun a n => a ||| nanFlags [A n, B n]) 0)
  else if i.op = 0xB then
    let pick := fun (n : Nat) => if (c.kreg i.k).testBit n then c.lane vf i.a n else c.rawB vf i n
    (c.setV vf { i with k := 0 } pick, c.nans 0 (fun n => vDec vf (pick n)))
  else if i.op = 0xC then (c.setV vf i (fun n => c.lane vf i.a n), c.nans i.k A)
  else if i.op = 0xD then
    let (r, f) := vEnc vf (vDec sf (c.xreg i.a))
    (c.setV vf i (fun _ => r), if (c.lanes i.k).isEmpty then 0 else f)
  else if i.op = 0xE then (c.setV vf i (fun n => n), 0)
  else if i.op = 0x10 then
    let idx := fun (n : Nat) => if i.bs then c.xreg i.b else c.lane vf i.b n
    let get := fun (n : Nat) => if idx n < c.vl then c.lane vf i.a (idx n) else 0
    (c.setV vf i get, (c.lanes i.k).foldl (fun a n =>
      a ||| (if idx n < c.vl then 0 else flagPermOor) ||| nanFlags [vDec vf (get n)]) 0)
  else if i.op = 0x11 then
    let l := (c.lanes i.k).map (fun n => c.lane vf i.a n)
    ((c.setV vf { i with k := 0 } (fun n => l.getD n 0)).setX i.c l.length, nanFlags (l.map (vDec vf)))
  else if i.op = 0x12 then
    let l := c.lanes i.k
    let get := fun (n : Nat) => c.lane vf i.a ((indexIn l n).getD 0)
    (c.setV vf i get, c.nans i.k (fun n => vDec vf (get n)))
  else if i.op = 0x20 then
    let conv := fun (n : Nat) => if vf = cINT32 then c.lane vf i.a n else fl32 (A n)
    let leaves := (List.range (vlMax vf)).map (fun n => if c.active i.k n then some (conv n, base + n) else none)
    let (r, f) := redTree sf i.sub 7 leaves
    let (acc, g) := (tget .empty i.d c.ra).add sf i.sub (c.lanes i.k).length r
    ({ c with ra := tset i.d acc c.ra }, f ||| g ||| c.nans i.k A)
  else if i.op = 0x21 then
    let (r, f) := (tget .empty i.a c.ra).get sf (p.redSub i.a) free
    (c.setX i.d r, f)
  else if i.op = 0x28 then (c.setX i.d i.imm, 0)
  else if i.op = 0x29 then
    let (r, f) := xAlu sf i.sub (c.xreg i.a) (c.xreg i.b) free
    (c.setX i.d r, f)
  else if i.op = 0x2A then
    let a := c.kreg i.a
    let b := c.kreg i.b
    (c.setK i.d (if i.sub = 0 then a &&& b else if i.sub = 1 then a ||| b else if i.sub = 2 then a ^^^ b
      else a &&& ((2 ^ 128 - 1) ^^^ b)), 0)
  else if i.op = 0x30 then
    let f := fun (n : Nat) => sfuFn i.fn vf (widen32 vf (c.lane vf i.a n))
    (c.setV vf i (fun n => (f n).1), (c.lanes i.k).foldl (fun a n => a ||| (f n).2) 0)
  else (c, 0)

/-! ### The cursor (R220) -/

/-- Chunks of a row. -/
def VeRun.chunks (r : VeRun) : Nat := cdiv r.len (vlMax r.prog.vfmt)

/-- The vector length at the cursor. -/
def VeRun.vl (r : VeRun) : Nat :=
  if r.phase = 1 then min (vlMax r.prog.vfmt) (r.len - r.chunk * vlMax r.prog.vfmt) else vlMax r.prog.vfmt

/-- POST, or the row's end where POST is empty. -/
def VeRun.toPost (r : VeRun) : VeRun := { r with phase := if r.prog.post = 0 then 3 else 2, chunk := 0, pc := 0 }

/-- BODY from chunk c on, or POST where nothing is left. -/
def VeRun.toBody (r : VeRun) (c : Nat) : VeRun :=
  if r.prog.body = 0 || r.chunks ≤ c then r.toPost else { r with phase := 1, chunk := c, pc := 0 }

/-- The cursor at the start of a row. -/
def VeRun.startRow (r : VeRun) : VeRun :=
  let r := { r with rowPos := r.pos }
  if r.prog.pre = 0 then r.toBody 0 else { r with phase := 0, chunk := 0, pc := 0 }

/-- The cursor after an instruction. -/
def VeRun.next (r : VeRun) : VeRun :=
  let n := r.pc + 1
  if r.phase = 0 then (if n < r.prog.pre then { r with pc := n } else r.toBody 0)
  else if r.phase = 1 then (if n < r.prog.body then { r with pc := n } else r.toBody (r.chunk + 1))
  else if n < r.prog.post then { r with pc := n } else { r with phase := 3, pc := 0 }

/-- The instruction at the cursor. -/
def VeRun.ins (r : VeRun) : VIns :=
  let off := if r.phase = 0 then 0 else if r.phase = 1 then r.prog.pre else r.prog.pre + r.prog.body
  vIns (r.prog.code.getD (off + r.pc) 0)

/-- The work in hand and its context. -/
def HubSt.current (h : HubSt) : Option (VeRun × VeCtx) :=
  if h.active = 1 then h.tile.map (fun r => (r, h.epi)) else if h.active = 2 then h.run.map (fun r => (r, h.prog)) else none

def Blk.setVe (b : Blk) (r : VeRun) (c : VeCtx) : Blk :=
  if b.hub.active = 1 then b.setHub { b.hub with tile := some r, epi := c }
  else b.setHub { b.hub with run := some r, prog := c }

/-! ### Streams (R214, R221) -/

/-- The descriptor of a stream; stream 0 of an epilogue is the tile. -/
def Blk.stream (b : Blk) (f : Flight) (epi : Bool) (s : Nat) : Option Desc :=
  if epi then b.fdesc f (eHandle f.raw (if s = 3 then 2 else 3)) else b.fdesc f (eHandle f.raw s)

/-- Element number of lane 0 of the chunk, in a stream of rows. -/
def VeRun.elem0 (r : VeRun) (e : Bytes) (epi : Bool) : Nat :=
  let at' := r.chunk * vlMax r.prog.vfmt
  if epi then (Tmm.b0 e r.tile + r.row) * Tmm.n e + Tmm.n0 e r.tile + at' else r.row * r.len + at'

/-- The tile that the engine works on. -/
def Blk.veTile (b : Blk) (r : VeRun) : List Nat :=
  ((b.hub.ftq.find? (fun t => !t.stored && t.q == r.q && t.seq == r.seq && t.no == r.tile)).map Tile.vals).getD []

/-- R221: whether a stream repeats one row of at most 16 KiB, which is fetched once for the entry. -/
def Dsc.repeats (d : Desc) (len : Nat) : Bool :=
  decide (2 ≤ d.rank) && Dsc.dim d 0 == len && (List.range d.rank).all (fun k => k == 0 || Dsc.str d k == 0)
    && (Dsc.kind d == 0 || (Dsc.kind d == 1 && d.ixDim == 0)) && decide (cdiv (len * fmtBits d.fmt) 8 ≤ 16384)

/-- R221: the values of lanes 0 to n − 1 of an LD. -/
def Wk.vLoad (w : Wk) (d : Desc) (e0 n : Nat) : Wk × List Ex :=
  let (w, ixs) := w.indices d
  if Dsc.str d 0 = 0 then
    let (w, x) := w.elem d ixs e0
    (w, List.replicate n (x.val d.fmt))
  else
    let (w, xs) := w.elems d ixs ((List.range n).map (e0 + ·))
    (w, xs.map (fun x => x.val d.fmt))

/-- The row of a stream that repeats: as it was fetched, or fetched now. -/
def Wk.vRow (w : Wk) (d : Desc) (old : List Elem) (len : Nat) : Wk × List Elem :=
  if old.length = len then (w, old)
  else
    let (w, ixs) := w.indices d
    w.elems d ixs (List.range len)

/-- Ends a memory instruction: it waits and nothing changes, or its effect stands. A failed access
stops the entry at the row's end (R227). -/
def Blk.veCommit (b : Blk) (w : Wk) (r : VeRun) (c : VeCtx) (fl : Flags) : Blk :=
  match w.asks b with
  | (some b, _) => b
  | (none, w) => w.b.setVe { r.next with st := if r.st = stOK then w.st else r.st, flags := r.flags ||| w.flags ||| fl } c

/-- LD of a stream that repeats one row (R221): the row is kept for the entry. -/
def Blk.veRepeat (b : Blk) (w : Wk) (r : VeRun) (d : Desc) (s at' n : Nat) (epi : Bool) : Wk × List Ex × VeRun :=
  let len := Dsc.dim d 0
  let old := if epi then ((b.tileJob? r.q r.seq).map TileJob.bias).getD [] else tget [] s r.held
  let (w, row) := w.vRow d old len
  let xs := ((row.drop at').take n).map (fun x => x.val d.fmt)
  if w.bad || !w.need.isEmpty || w.stall then (w, xs, r)
  else if epi then ({ w with b := w.b.updTile r.q r.seq (fun j => { j with bias := row }) }, xs, r)
  else (w, xs, { r with held := tset s row r.held })

/-- What an LD reads for lanes 0 to n − 1 of its chunk, and the run with the row that it keeps (R221). -/
def Blk.ldRead (b : Blk) (f : Flight) (r : VeRun) (d : Desc) (n : Nat) : Wk × List Ex × VeRun :=
  let epi := b.hub.active == 1
  let w := Wk.hub b f 6
  let at' := r.chunk * vlMax r.prog.vfmt
  if epi && Dsc.repeats d (Tmm.n f.raw) then b.veRepeat w r d r.ins.s (Tmm.n0 f.raw r.tile + at') n epi
  else if !epi && Dsc.repeats d r.len then b.veRepeat w r d r.ins.s at' n epi
  else
    let (w, xs) := w.vLoad d (r.elem0 f.raw epi) n
    (w, xs, r)

/-- Lanes read from a stream: converted into vfmt, or free words where the read failed. -/
def VeCtx.take (c : VeCtx) (vf : Nat) (i : VIns) (w : Wk) (xs : List Ex) (at' : Nat → Nat) : VeCtx × Flags :=
  if w.bad then (c.setV vf i (fun n => (Config.freeWord (w.b.ctr + n)).toNat), 0)
  else (c.setV vf i (fun n => (vEnc vf (xs.getD (at' n) .zero)).1),
    (c.lanes i.k).foldl (fun a n => a ||| (vEnc vf (xs.getD (at' n) .zero)).2) 0)

/-- LD, ST, LDK, SCMP, LDX, LDS and STS (R218, R221). -/
def Blk.veMem (b : Blk) (f : Flight) (r : VeRun) (c : VeCtx) (i : VIns) : Blk :=
  let epi := b.hub.active == 1
  let vf := r.prog.vfmt
  let e0 := r.elem0 f.raw epi
  let w := Wk.hub b f 6
  let A := fun (n : Nat) => vDec vf (c.lane vf i.a n)
  let act := c.lanes i.k
  let pos := r.pos.getD i.s 0
  if i.op = 0x18 && epi && i.s = 0 then
    let l := b.veTile r
    let w0 := Tmm.w f.raw r.tile
    let xs := (List.range c.vl).map (fun n => f32 (l.getD (r.row * w0 + r.chunk * vlMax vf + n) 0))
    let (c, fl) := c.take vf i w xs (fun n => n)
    b.veCommit w r c fl
  else match b.stream f epi i.s with
    | none => b.setVe { r.next with st := if r.st = stOK then stDESC else r.st } c
    | some d =>
      if i.op = 0x18 then
        let (w, xs, r) := b.ldRead f r d c.vl
        let (c', fl) := c.take vf i w xs (fun n => n)
        b.veCommit { w with b := { w.b with ctr := w.b.ctr + (if w.bad then 128 else 0) } } r c' fl
      else if i.op = 0x19 then
        let (w, ixs) := w.indices d
        let vals := fun (l : List Nat) => l.map A
        let w := if act.length = c.vl then w.putVals d ixs e0 (vals act)
          else act.foldl (fun (w : Wk) n => w.putVals d ixs (e0 + n) [A n]) w
        b.veCommit w r c (nanFlags (vals act))
      else if i.op = 0x1A then
        let (w, l) := w.bytes d (e0 / 8) ((e0 % 8 + c.vl + 7) / 8)
        let m := leNat l / 2 ^ (e0 % 8) % 2 ^ c.vl
        let m := if w.bad then (leNat ((List.range 16).map (Config.freeByte w.b.ctr))) % 2 ^ c.vl else m
        b.veCommit { w with b := { w.b with ctr := w.b.ctr + 1 } } r (c.setK i.d m) 0
      else if i.op = 0x1B then
        let (w, ixs) := w.indices d
        let room := Dsc.count d - pos
        let l := act.take room
        let w := w.putVals d ixs pos (l.map A)
        let w := if l.length < act.length then w.fail stRANGE else w
        let r := { r with pos := r.pos.set i.s (pos + l.length), stored := r.stored + l.length }
        b.veCommit w r c (nanFlags (act.map A))
      else if i.op = 0x1C then
        let (w, ixs) := w.indices d
        let l := act.take (Dsc.count d - pos)
        let (w, xs) := w.elems d ixs ((List.range l.length).map (pos + ·))
        let w := if l.length < act.length then w.flag flagFill else w
        let (c', fl) := c.take vf i w (xs.map (fun x => x.val d.fmt)) (fun n => (indexIn act n).getD 0)
        let r := { r with pos := r.pos.set i.s (pos + l.length) }
        b.veCommit { w with b := { w.b with ctr := w.b.ctr + (if w.bad then 128 else 0) } } r c' fl
      else if i.op = 0x1D then
        let (w, ixs) := w.indices d
        let (w, x) := w.elem d ixs r.row
        let (v, fl) := if w.bad then ((Config.freeWord w.b.ctr).toNat, 0) else vEnc (sFmt vf) (x.val d.fmt)
        b.veCommit { w with b := { w.b with ctr := w.b.ctr + (if w.bad then 1 else 0) } } r (c.setX i.d v) fl
      else
        let (w, ixs) := w.indices d
        let x := c.xreg i.a
        let w := if i.sub = 1 then w.putRaws d ixs r.row [x] else w.putVals d ixs r.row [vDec (sFmt vf) x]
        b.veCommit w r c (if i.sub = 1 then 0 else nanFlags [vDec (sFmt vf) x])

/-- The instruction at the cursor runs, where it is the one named. -/
def Blk.veStep (b : Blk) (op : Nat) : Blk :=
  match b.hub.current with
  | none => b
  | some (r, c) =>
    match b.flight? r.q r.seq with
    | none => b
    | some f =>
      if r.phase = 3 || r.ins.op != op then b
      else
        let c := { c with vl := r.vl }
        if [0x18, 0x19, 0x1A, 0x1B, 0x1C, 0x1D, 0x1E].contains op then b.veMem f r c r.ins
        else
          let (c, fl) := c.exec r.prog r.ins (r.chunk * vlMax r.prog.vfmt) (Config.freeWord b.ctr).toNat
          ({ b with ctr := b.ctr + 1 }).setVe { r.next with flags := r.flags ||| fl } c

/-! ### VEC_PROG (R220, R226, R227) -/

namespace Vpg
def progH (e : Bytes) : Nat := fld e 0x20 4
def rows (e : Bytes) : Nat := fld e 0x24 4
def len (e : Bytes) : Nat := fld e 0x28 4
end Vpg

/-- The inline program of an entry (R226). -/
def inlineProg (e : Bytes) : Option VProg :=
  match vHeader (bytesAt e 0x30 24) with
  | none => none
  | some p =>
    if p.len ≤ 7 && eInline e == 24 + 8 * p.len && zeroAt e (0x48 + 8 * p.len) (56 - 8 * p.len) then
      some { p with code := (List.range p.len).map (fun n => fld e (0x48 + 8 * n) 8) }
    else none

/-- R220: the streams of a VEC_PROG. -/
def Blk.streamsOk (b : Blk) (f : Flight) (p : VProg) : Bool :=
  let e := f.raw
  let rd := p.streams opsRead
  let wr := p.streams opsWrite
  let elems := Vpg.rows e * Vpg.len e
  (List.range 4).all (fun s =>
    let h := eHandle e s
    let used := rd.contains s || wr.contains s
    !(rd.contains s && wr.contains s) && (h == 0 || (b.fdesc f h).isSome) &&
    (!used || match b.fdesc f h with
      | none => false
      | some d =>
        let has := fun (ops : List Nat) => (p.streams ops).contains s
        streamFmt d.fmt && (!wr.contains s || (Dsc.write d && decide (Dsc.collide d < 2)))
          && (!has [0x18, 0x19] || Dsc.count d == elems)
          && (!has [0x1A] || (Dsc.count d == cdiv elems 8 && d.fmt == cUINT8))
          && (!has [0x1D, 0x1E] || Dsc.count d == Vpg.rows e)
          && (d.fmt == cFP32 || d.fmt == cINT32 || !((p.code.map vIns).any (fun i => i.op == 0x1E && i.sub == 1 && i.s == s)))))

/-- A context that begins a program: x0 to x3 from the header (R216). -/
def VeCtx.begin (c : VeCtx) (p : VProg) : VeCtx :=
  (List.range 4).foldl (fun c n => c.setX n (p.x0.getD n 0)) c

/-- The entry of a pair that is next in queue order: the one that was pre-empted, else its first (R225). -/
def pairNext (l : List VeRun) (q : Nat) : Option VeRun :=
  (l.find? (fun y => y.q == q && y.saved.isSome)).or (l.find? (fun y => y.q == q))

/-- The entry that has waited longest, of those whose pair has none in work before it. -/
def nextVec (run : Option VeRun) (l : List VeRun) : Option VeRun :=
  l.find? (fun r => !run.any (fun y => y.q == r.q) && (pairNext l r.q).any (fun y => y.seq == r.seq))

/-- A VEC_PROG begins or resumes. -/
def Blk.veResume (b : Blk) (r : VeRun) : Blk :=
  let h := b.hub
  let q := h.queue.filter (fun y => !(y.q == r.q && y.seq == r.seq))
  b.setHub { h with active := 2, queue := q, prog := r.saved.getD { h.prog.begin r.prog with ra := [] }, run := some { r with saved := none } }

/-- R225: the engine takes its next work. `turn`: the running entry has had its 16,384 cycles. -/
def Blk.vePick (b : Blk) (turn : Bool) : Blk :=
  let h := b.hub
  match h.tile with
  | some _ => b.setHub { h with active := 1 }
  | none =>
    match h.ftq.find? (fun t => !t.stored) with
    | some t =>
      match b.tileJob? t.q t.seq, b.flight? t.q t.seq with
      | some j, some f =>
        let p := j.epi.getD ⟨cFP32, 0, 0, 0, [], []⟩
        let r : VeRun :=
          { q := t.q, seq := t.seq, prog := p, rows := Tmm.v f.raw t.no, len := Tmm.w f.raw t.no, row := 0, phase := 0, chunk := 0, pc := 0
            pos := [0, 0, 0, 0], rowPos := [0, 0, 0, 0], stored := 0, st := stOK, flags := 0, tile := t.no, saved := none
            stop := stOK, held := [] }
        b.setHub { h with active := 1, tile := some r.startRow, epi := VeCtx.reset.begin p }
      | _, _ => b
    | none =>
      match h.run with
      | none =>
        match nextVec none h.queue with
        | some r => b.veResume r
        | none => b.setHub { h with active := 0 }
      | some cur =>
        match (if turn then nextVec (some cur) h.queue else none) with
        | some r => (b.setHub { h with run := none, queue := h.queue ++ [{ cur with saved := some h.prog }] }).veResume r
        | none => b.setHub { h with active := 2 }

/-- The engine takes work where it has none. -/
def Blk.veIdle (b : Blk) : Blk := if b.hub.active = 0 then b.vePick false else b

/-- Ends a VEC_PROG (R227); after an error its later rows are undefined. -/
def Blk.vecEnd (b : Blk) (r : VeRun) (st : Nat) : Blk :=
  let mine := fun (y : VeRun) => y.q == r.q && y.seq == r.seq
  let onRun := b.hub.run.any mine
  let b := b.setHub { b.hub with
    run := if onRun then none else b.hub.run
    queue := b.hub.queue.filter (fun y => !mine y)
    active := if onRun && b.hub.active == 2 then 0 else b.hub.active }
  let b := match b.flight? r.q r.seq with
    | none => b
    | some f =>
      if !isErr st || (r.row = 0 && r.phase = 0 && r.pc = 0) then b
      else (List.range 4).foldl (fun (b : Blk) s =>
        match b.fdesc f (eHandle f.raw s) with
        | none => b
        | some d =>
          let (w, ixs) := (Wk.hub b f 6).indices d
          let span := fun (ops : List Nat) (e0 : Nat) => fun (b : Blk) =>
            if (r.prog.streams ops).contains s then b.scramble w.rq d ixs e0 (Dsc.count d - e0) else b
          span [0x1E] r.row (span [0x1B] (r.rowPos.getD s 0) (span [0x19] (r.row * r.len) b))) b
  b.finish r.q r.seq st r.flags (r.row % 2 ^ 32 + r.stored % 2 ^ 32 * 2 ^ 32)

/-- A VEC_PROG ends with a status at its next row boundary (R228): at once where no row of it is in work. -/
def Blk.vecStop (b : Blk) (r : VeRun) (st : Nat) : Blk :=
  if b.hub.active == 2 && b.hub.run.any (fun y => y.q == r.q && y.seq == r.seq) then
    b.setHub { b.hub with run := b.hub.run.map (fun y => { y with stop := if y.stop = stOK then st else y.stop }) }
  else b.vecEnd r st

/-- VEC_PROG (R220, R226). -/
def Blk.vecStart (b : Blk) (q seq : Nat) : Blk :=
  match b.unserved q seq 0x21 with
  | none => b
  | some f =>
    if b.flights.any (fun g => g.q == q && decide (g.order < f.order) && (b.unserved q g.seq 0x21).isSome) then b else
    let e := f.raw
    let head := decide (Vpg.len e ≤ 2147483647) && zeroAt e 0x2C 4
      && (Vpg.progH e == 0 || (zeroAt e 0x30 80 && eInline e == 0 && (b.fdesc f (Vpg.progH e)).isSome))
    let w := Wk.hub b f 6
    let (w, p) := if !head then (w, none) else if Vpg.progH e = 0 then (w, inlineProg e)
      else match b.fdesc f (Vpg.progH e) with
        | some d => w.program d
        | none => (w, none)
    let w := match p with
      | none => w
      | some p => w.outsOk ((p.streams opsWrite).eraseDups.filterMap (fun s => b.fdesc f (eHandle e s)))
    match w.waits b with
    | some b => b
    | none =>
      if w.bad && w.st != stDESC then w.b.finish q seq w.st w.flags 0
      else match p with
        | none => w.b.finish q seq stDESC w.flags 0xFFFFFFFF
        | some p =>
          match p.firstBad false with
          | some n => w.b.finish q seq stDESC w.flags n
          | none =>
            if w.bad || !b.streamsOk f p then w.b.finish q seq stDESC w.flags 0xFFFFFFFF
            else if Vpg.rows e = 0 then w.b.finish q seq stOK w.flags 0
            else
              let r : VeRun :=
                { q := q, seq := seq, prog := p, rows := Vpg.rows e, len := Vpg.len e, row := 0, phase := 0, chunk := 0, pc := 0
                  pos := [0, 0, 0, 0], rowPos := [0, 0, 0, 0], stored := 0, st := stOK, flags := w.flags, tile := 0, saved := none
                  stop := stOK, held := [] }
              (w.b.setHub { w.b.hub with queue := w.b.hub.queue ++ [r.startRow] }).veIdle

/-- An epilogue's row ends; after the last, its tile is written (R213, R214). A failed access ends the
entry at the tile's end (R212). -/
def Blk.veTileRow (b : Blk) (r : VeRun) : Blk :=
  let b := b.updTile r.q r.seq (fun j => { j with
    flags := j.flags ||| r.flags
    stop := if j.stop = stOK then r.st else j.stop })
  if r.row + 1 < r.rows then
    b.setHub { b.hub with tile := some ({ r with row := r.row + 1 }).startRow, epi := { b.hub.epi with ra := [] } }
  else
    let b := b.setHub { b.hub with
      tile := none
      ftq := b.hub.ftq.map (fun t => if t.q == r.q && t.seq == r.seq && t.no == r.tile then { t with stored := true } else t) }
    let b := if r.st = stOK then b.updTile r.q r.seq (fun j => { j with written := j.written + 1 }) else b
    b.tileSettle r.q r.seq

/-- The row of a VEC_PROG ends. -/
def Blk.veProgRow (b : Blk) (r : VeRun) : Blk :=
  if r.st != stOK then b.vecEnd r r.st
  else
    let r := ({ r with row := r.row + 1 }).startRow
    if r.rows ≤ r.row then b.vecEnd r stOK
    else if r.stop != stOK then b.vecEnd r r.stop
    else b.setHub { b.hub with run := some r, prog := { b.hub.prog with ra := [] } }

/-- VE_ROW_BOUNDARY (R225). -/
def Blk.veBoundary (b : Blk) (turn : Bool) : Blk :=
  match b.hub.current with
  | none => b.vePick turn
  | some (r, _) =>
    if r.phase != 3 then b
    else (if b.hub.active = 1 then b.veTileRow r else b.veProgRow r).vePick turn

/-! ### Meanings -/

def execTileMm (q seq : Nat) (s : State) : Out := hubAct s (fun b => b.tileStart q seq)
def execTileDone (ox : Nat) (s : State) : Out := hubAct s (fun b => (b.tileDone ox).veIdle)
def execFtqEntryFreed (periods : List Nat) (s : State) : Out := hubAct s (fun b => (b.ftqFreed periods).veIdle)
def execVecProg (q seq : Nat) (s : State) : Out := hubAct s (fun b => b.vecStart q seq)
def execVeRowBoundary (turn : Bool) (s : State) : Out := hubAct s (fun b => b.veBoundary turn)
def execVadd (s : State) : Out := hubAct s (fun b => b.veStep 0x01)
def execVsub (s : State) : Out := hubAct s (fun b => b.veStep 0x02)
def execVmul (s : State) : Out := hubAct s (fun b => b.veStep 0x03)
def execVfma (s : State) : Out := hubAct s (fun b => b.veStep 0x04)
def execVmin (s : State) : Out := hubAct s (fun b => b.veStep 0x05)
def execVmax (s : State) : Out := hubAct s (fun b => b.veStep 0x06)
def execVabs (s : State) : Out := hubAct s (fun b => b.veStep 0x07)
def execVneg (s : State) : Out := hubAct s (fun b => b.veStep 0x08)
def execVlogic (s : State) : Out := hubAct s (fun b => b.veStep 0x09)
def execVcmp (s : State) : Out := hubAct s (fun b => b.veStep 0x0A)
def execVsel (s : State) : Out := hubAct s (fun b => b.veStep 0x0B)
def execVmov (s : State) : Out := hubAct s (fun b => b.veStep 0x0C)
def execVsplat (s : State) : Out := hubAct s (fun b => b.veStep 0x0D)
def execViota (s : State) : Out := hubAct s (fun b => b.veStep 0x0E)
def execVperm (s : State) : Out := hubAct s (fun b => b.veStep 0x10)
def execVcompress (s : State) : Out := hubAct s (fun b => b.veStep 0x11)
def execVexpand (s : State) : Out := hubAct s (fun b => b.veStep 0x12)
def execLd (s : State) : Out := hubAct s (fun b => b.veStep 0x18)
def execSt (s : State) : Out := hubAct s (fun b => b.veStep 0x19)
def execLdk (s : State) : Out := hubAct s (fun b => b.veStep 0x1A)
def execScmp (s : State) : Out := hubAct s (fun b => b.veStep 0x1B)
def execLdx (s : State) : Out := hubAct s (fun b => b.veStep 0x1C)
def execLds (s : State) : Out := hubAct s (fun b => b.veStep 0x1D)
def execSts (s : State) : Out := hubAct s (fun b => b.veStep 0x1E)
def execRed (s : State) : Out := hubAct s (fun b => b.veStep 0x20)
def execRget (s : State) : Out := hubAct s (fun b => b.veStep 0x21)
def execXset (s : State) : Out := hubAct s (fun b => b.veStep 0x28)
def execXalu (s : State) : Out := hubAct s (fun b => b.veStep 0x29)
def execKop (s : State) : Out := hubAct s (fun b => b.veStep 0x2A)
def execVfn (s : State) : Out := hubAct s (fun b => b.veStep 0x30)

end Sys2Proof.Machine
end

