-- ==== Sys2Proof/Machine/Sfu.lean ====
section
/-! DEFINITION. SFU_ROW (R235 to R247): maps, soft maximum, normalisation and USER tables. -/

namespace Sys2Proof.Machine
open Sys2Proof

namespace Sfu
def op (e : Bytes) : Nat := fld e 0x20 1
def fn (e : Bytes) : Nat := fld e 0x21 1
def inF (e : Bytes) : Nat := fld e 0x22 1
def outF (e : Bytes) : Nat := fld e 0x23 1
def rows (e : Bytes) : Nat := fld e 0x24 4
def len (e : Bytes) : Nat := fld e 0x28 4
def flags (e : Bytes) : Nat := fld e 0x2C 1
def scaled (e : Bytes) : Bool := (flags e).testBit 0
def maskEn (e : Bytes) : Bool := (flags e).testBit 1
def causal (e : Bytes) : Bool := (flags e).testBit 2
def stats (e : Bytes) : Bool := (flags e).testBit 3
def crl (e : Bytes) : Bool := (flags e).testBit 4
def base2 (e : Bytes) : Bool := (flags e).testBit 5
def gen (e : Bytes) : Nat := fld e 0x2D 1
def scale (e : Bytes) : Nat := fld e 0x30 4
def eps (e : Bytes) : Nat := fld e 0x34 4
def maskH (e : Bytes) : Nat := fld e 0x38 4
def statsH (e : Bytes) : Nat := fld e 0x3C 4
def offset (e : Bytes) : Nat := fld e 0x40 4
def soft (e : Bytes) : Bool := op e == 1 || op e == 2
def norm (e : Bytes) : Bool := op e == 3 || op e == 4
def user (e : Bytes) : Bool := fn e == 0x20 || fn e == 0x21
end Sfu

def sfuFmt (c : Nat) : Bool := [cFP32, cBF16, cFP16, cE4M3, cE5M2].contains c

/-- R235: the fields. -/
def sfuFields (e : Bytes) : Bool :=
  let op := Sfu.op e
  let fnOk := if op = 0 then sfuCode (Sfu.fn e) || Sfu.user e else if op = 5 then Sfu.user e else Sfu.fn e == 0
  let genOk := op == 5 || (op == 0 && Sfu.user e) || Sfu.gen e == 0
  decide (op ≤ 5) && fnOk && genOk && sfuFmt (Sfu.inF e) && (if op = 5 then Sfu.outF e == 0 else sfuFmt (Sfu.outF e))
    && decide (Sfu.len e ≤ 2147483647) && decide (Sfu.flags e < 64) && zeroAt e 0x2E 2 && zeroAt e 0x44 60
    && (!Sfu.scaled e || decide (op ≤ 2)) && f32Finite (Sfu.scale e)
    && (if Sfu.norm e then decide (Sfu.eps e < 0x7F800000) else Sfu.eps e == 0)
    && (Sfu.maskEn e || Sfu.maskH e == 0) && (Sfu.stats e || Sfu.statsH e == 0)
    && (Sfu.soft e || !(Sfu.maskEn e || Sfu.causal e || Sfu.base2 e))
    && (Sfu.norm e || (eHandle e 1 == 0 && eHandle e 3 == 0))
    && !(op == 0 && Sfu.crl e && !hasCrl1 (Sfu.fn e))

/-- R235, R236: the tensors. -/
def Blk.sfuTensors (b : Blk) (f : Flight) : Bool :=
  let e := f.raw
  let h := eHandle e
  let n := Sfu.rows e * Sfu.len e
  if Sfu.op e = 5 then b.handleOk f (h 0) cUINT8 false && b.countOf f (h 0) == 1040 && (h 2 == 0 || (b.fdesc f (h 2)).isSome)
  else b.handleOk f (h 0) (Sfu.inF e) false && b.countOf f (h 0) == n && b.handleOk f (h 2) (Sfu.outF e) true
    && b.countOf f (h 2) == n && b.plainOut f (h 2)
    && (h 1 == 0 || (b.handleOk f (h 1) (Sfu.inF e) false && b.countOf f (h 1) == Sfu.len e))
    && (h 3 == 0 || (b.handleOk f (h 3) (Sfu.inF e) false && b.countOf f (h 3) == Sfu.len e))
    && (!Sfu.maskEn e || (b.handleOk f (Sfu.maskH e) cUINT8 false && b.countOf f (Sfu.maskH e) == Sfu.rows e * cdiv (Sfu.len e) 8))
    && (!Sfu.stats e || (b.handleOk f (Sfu.statsH e) cFP32 true && b.countOf f (Sfu.statsH e) == 2 * Sfu.rows e
      && b.plainOut f (Sfu.statsH e)))

/-- Addresses of the storage units that an entry reads, or stores, of a tensor. -/
def Wk.places (w : Wk) (d : Desc) (reads : Bool) : Wk × List Nat :=
  let (w, ixs) := w.indices d
  (w, (List.range (Dsc.count d)).filterMap (fun e =>
    let l := Dsc.loc d ixs (reads && !w.normal) e
    if l.oob != 0 && (!reads || w.normal) then none else some l.addr))

/-- Whether units of n bytes and units of m bytes at ascending addresses share a byte. -/
def unitsMeet (n m : Nat) : Nat → List Nat → List Nat → Bool
  | 0, _, _ => false
  | _, [], _ => false
  | _, _, [] => false
  | fuel + 1, a :: l, c :: r =>
    if a + n ≤ c then unitsMeet n m fuel l (c :: r) else if c + m ≤ a then unitsMeet n m fuel (a :: l) r else true

/-- R236: y shares no byte with another tensor of the entry. -/
def Wk.sfuAlias (w : Wk) (f : Flight) : Wk :=
  let e := f.raw
  match w.b.fdesc f (eHandle e 2) with
  | none => w
  | some y =>
    [(eHandle e 0, true), (eHandle e 1, true), (eHandle e 3, true), (Sfu.statsH e, false)].foldl (fun (w : Wk) h =>
      match w.b.fdesc f h.1 with
      | none => w
      | some d =>
        if !spansMeet (herdSpans y) (herdSpans d) then w
        else
          let (w, a) := w.places y false
          let (w, c) := w.places d h.2
          if w.stall || !w.need.isEmpty then w
          else if unitsMeet (Dsc.unitBytes y.fmt) (Dsc.unitBytes d.fmt) (a.length + c.length) (sortUp 64 a) (sortUp 64 c) then w.fail stALIAS
          else w) w

/-! ### Row arithmetic -/

/-- One FP32 rounding; CRL1 replaces subnormals by zero. -/
def sfl (crl : Bool) (x : Ex) : Nat × Flags := let (r, f) := encF ffp32 x; (if crl then flush32 r else r, f)

/-- The FP32 sum of the given lanes over chunks of 64 (R223, R238), or strictly ascending (R247). -/
def rowSum (asc : Bool) (l : List (Option Nat)) : Nat × Flags :=
  if asc then
    l.foldl (fun (a : Nat × Flags) x => match x with
      | some v => let (r, f) := sfl true (Ex.add (f32 a.1) (f32 v)); (r, a.2 ||| f)
      | none => a) (0, 0)
  else
    let (acc, fl) := (pieces 64 l.length l).foldl (fun (a : RowAcc × Flags) c =>
      let (n, f) := redTree cFP32 0 6 (c.map (fun x => x.map (fun v => (v, 0))))
      let (r, g) := a.1.add cFP32 0 1 n
      (r, a.2 ||| f ||| g)) (RowAcc.empty, 0)
    (if acc.used then acc.val else 0, fl)

/-- The row's results: y as raw words, two statistics, flags, and whether the row was fully masked or
empty. -/
structure SfuRow where
  y : List Nat
  s0 : Nat
  s1 : Nat
  flags : Flags
  empty : Bool
  deriving DecidableEq, Repr

/-- −∞ in an output format, without SAT (R238). -/
def negInfOut (fmt : Nat) : Nat := (encElem fmt (.inf true)).1
/-- The quiet NaN of a format. -/
def nanOut (fmt : Nat) : Nat := (encElem fmt .nan).1

/-- Rounds into the output format; CRL1 goes through FP32 (R247). -/
def sfuOut (crl : Bool) (fmt : Nat) (x : Ex) : Nat × Flags :=
  if crl then let (r, f) := sfl true x; let (y, g) := crl1Out fmt r; (y, f ||| g) else encElem fmt x

/-- Collects a list of results. -/
def gather (l : List (Nat × Flags)) (fl : Flags) : List Nat × Flags := (l.map (fun p => p.1), l.foldl (fun a p => a ||| p.2) fl)

/-- The first NaN of a list with its quiet bit set, or the NaN that is produced (R247). -/
def firstNan (l : List Nat) : Nat := ((l.find? (fun x => (f32 x).isNan)).map (· ||| 0x400000)).getD f32NaN

/-- The NaN of a row, as FP32 and in the output format: the format's own, or in CRL1 mode the first input
NaN (log 13). -/
def rowNan (crl : Bool) (fmt : Nat) (l : List Nat) : Nat × Nat :=
  if crl then (firstNan l, (crl1Out fmt (firstNan l)).1) else (f32NaN, nanOut fmt)

/-- z_i of R237. -/
def sfuZ (e : Bytes) (raw : Nat) : Nat × Flags :=
  let crl := Sfu.crl e
  if crl && (f32 raw).isNan then (raw ||| 0x400000, flagNan)
  else if Sfu.scaled e then sfl crl (Ex.mul (f32 (Sfu.scale e)) (f32 (if crl then flush32 raw else raw)))
  else if crl && !(f32 raw).isNan then (flush32 raw, 0) else (raw, 0)

/-- R243: a USER table at an FP32 input. -/
def userFn (t : Bytes) (z : Nat) : Nat × Flags :=
  match f32 z with
  | .nan => (f32NaN, flagNan)
  | .inf s => (fld t (if s then 8 else 0xC) 4, 0)
  | x =>
    let lo := f32 (fld t 0 4)
    let w := sext 8 (fld t 4 1)
    let k := (max 0 (min (Ex.floor ((Ex.sub x lo).scale (-w))) 63)).toNat
    let c := fun (i : Nat) => f32 (fld t (0x10 + 16 * k + 4 * i) 4)
    let t1 := fl (Ex.sub x (fl (Ex.add lo ((Ex.ofNat k).scale w))))
    let s1 := encF ffp32 (Ex.add (Ex.mul (c 3) t1) (c 2))
    let s2 := encF ffp32 (Ex.add (Ex.mul (f32 s1.1) t1) (c 1))
    let s3 := encF ffp32 (Ex.add (Ex.mul (f32 s2.1) t1) (c 0))
    (s3.1, s1.2 ||| s2.2 ||| s3.2)

/-- A MAP row (R237). -/
def mapRow (e table : Bytes) (xs : List Nat) : SfuRow :=
  let zs := xs.map (sfuZ e)
  let ys := zs.map (fun z =>
    if Sfu.user e then
      let (r, f) := userFn table z.1
      let (y, g) := encElem (Sfu.outF e) (f32 r)
      (y, z.2 ||| f ||| g)
    else
      let (y, f) := sfuFn (Sfu.fn e + if Sfu.crl e then 0x80 else 0) (Sfu.outF e) z.1
      (y, z.2 ||| f))
  let (y, fl) := gather ys 0
  ⟨y, 0, 0, fl, false⟩

/-- −log k rounded once (R239); CRL1 goes through FP32. -/
def negLog (e : Bytes) (k : Nat) : Nat × Flags :=
  let fmt := Sfu.outF e
  if k = 1 then (0, 0)
  else
    let (lo, hi) := fnBounds (if Sfu.base2 e then 3 else 4) (Ex.ofNat k)
    let a := sfuOut (Sfu.crl e) fmt lo.neg
    let c := sfuOut (Sfu.crl e) fmt hi.neg
    if a = c then a else if Config.roundsUp 0x84 fmt k then c else a

/-- A SOFTMAX or LOG_SOFTMAX row (R238, R239); `masked` by element. -/
def softRow (e : Bytes) (xs : List Nat) (masked : List Bool) : SfuRow :=
  let fmt := Sfu.outF e
  let crl := Sfu.crl e
  let log := Sfu.op e == 2
  let zf := xs.map (sfuZ e)
  let zs := List.zipWith (fun (z : Nat × Flags) (m : Bool) => if m then none else some z.1) zf masked
  let live := zs.filterMap id
  let fz := (List.zipWith (fun (z : Nat × Flags) (m : Bool) => if m then 0 else z.2) zf masked).foldl (· ||| ·) 0
  let off := if log then negInfOut fmt else 0
  let infs := (live.filter (· == f32PInf)).length
  if live.any (fun z => (f32 z).isNan) then
    let nan := rowNan crl fmt live
    ⟨xs.map (fun _ => nan.2), nan.1, nan.1, flagNan, false⟩
  else if live.all (· == f32NInf) then ⟨xs.map (fun _ => off), f32NInf, 0, fz ||| flagMaskedRow, true⟩
  else if infs != 0 then
    let (top, f) := if log then negLog e infs else encElem fmt (Ex.div (Ex.ofNat 1) (Ex.ofNat infs))
    ⟨zs.map (fun z => if z == some f32PInf then top else off), f32PInf, fl32 (Ex.ofNat infs), fz ||| f ||| flagSat, false⟩
  else
    -- an unmasked −∞ behaves as a masked element (R239)
    let zs := zs.map (fun z => if z == some f32NInf then none else z)
    let m := (encF ffp32 (live.foldl (fun a z => Ex.max2 a (f32 z)) (.inf true))).1
    let efn := (if Sfu.base2 e then 1 else 2) + if crl then 0x80 else 0
    let ds := zs.map (fun z => z.map (fun z => sfl crl (Ex.sub (f32 z) (f32 m))))
    let ps := ds.map (fun d => d.map (fun d => sfuFn efn cFP32 d.1))
    let (lam, fs) := rowSum crl (ps.map (fun p => p.map (fun p => p.1)))
    let fl := ds.foldl (fun a d => a ||| (d.map (fun d => d.2)).getD 0) (fz ||| fs)
    let fl := ps.foldl (fun a p => a ||| (p.map (fun p => p.2)).getD 0) fl
    let lfn := if Sfu.base2 e then 3 else 4
    let (l, g) := if crl then crl1 lfn lam else sfuNative lfn cFP32 lam
    let (rc, _) := crl1 5 lam
    let outs := List.zipWith (fun (d p : Option (Nat × Flags)) => match d, p with
      | some d, some p =>
        if log then sfuOut crl fmt (Ex.sub (f32 d.1) (f32 l))
        else if crl then sfuOut true fmt (Ex.mul (f32 p.1) (f32 rc))
        else encElem fmt (Ex.div (f32 p.1) (f32 lam))
      | _, _ => (off, 0)) ds ps
    let (y, fl) := gather outs (fl ||| if log then g else 0)
    ⟨y, m, lam, fl, false⟩

/-- A normalisation row (R240, R241). -/
def normRow (e : Bytes) (xs gs bs : List Nat) : SfuRow :=
  let fmt := Sfu.outF e
  let crl := Sfu.crl e
  let layer := Sfu.op e == 3
  let D := xs.length
  if D = 0 then ⟨[], 0, 0, flagEmptyReduce, true⟩
  else
    let inp := fun (l : List Nat) => if crl then l.map (fun x => if (f32 x).isNan then x else flush32 x) else l
    let xs := inp xs
    let gs := inp gs
    let bs := inp bs
    let sum := fun (l : List Nat) => rowSum (crl && layer) (l.map some)
    let (s, f0) := if layer then sum xs else (0, 0)
    let (m, f1) := if layer then sfl crl (Ex.div (f32 s) (Ex.ofNat D)) else (0, 0)
    let sq := fun (x : Nat) => sfl crl (Ex.mul (f32 x) (f32 x))
    let dev := fun (x : Nat) => if layer && !crl then (sfl crl (Ex.sub (f32 x) (f32 m))).1 else x
    let (t0, f2) := sum (xs.map (fun x => (sq (dev x)).1))
    let t := if layer && crl then
        let c := (sfl true (Ex.sub (f32 t0) (f32 (sfl true (Ex.mul (Ex.ofNat D) (Ex.mul (f32 m) (f32 m)))).1))).1
        if (f32 c).isNeg then 0 else c
      else t0
    let bad := (xs ++ gs ++ bs).any (fun x => !f32Finite x) || !f32Finite t
    if bad then
      let nan := rowNan crl fmt (xs ++ gs ++ bs)
      ⟨xs.map (fun _ => nan.2), nan.1, nan.1, flagNan, false⟩
    else
      let (v, f3) := sfl crl (Ex.div (f32 t) (Ex.ofNat D))
      let (ve, f4) := sfl crl (Ex.add (f32 v) (f32 (Sfu.eps e)))
      let zero := (f32 ve).isZero
      let (r, f5) := if zero then (f32PInf, flagSat) else sfuFn (7 + if crl then 0x80 else 0) cFP32 ve
      let g := fun (i : Nat) => f32 (gs.getD i f32One)
      let bt := fun (i : Nat) => f32 (bs.getD i 0)
      let step := fun (x : Ex) => f32 (sfl true x).1
      let outs := (List.range D).map (fun i =>
        let x := f32 (xs.getD i 0)
        let d := if layer then Ex.sub x (f32 m) else x
        if zero then sfuOut crl fmt (bt i)
        else if crl then
          sfuOut true fmt (Ex.add (step (Ex.mul (step (Ex.mul (if layer then step d else d) (f32 r))) (g i))) (bt i))
        else encElem fmt (Ex.add (Ex.mul (Ex.mul d (f32 r)) (g i)) (bt i)))
      let (y, fl) := gather outs (f0 ||| f1 ||| f2 ||| f3 ||| f4 ||| f5)
      ⟨y, m, r, fl, false⟩

/-! ### Entries -/

/-- R244: the table of a USER code with the generation that an entry requires; the idle bank becomes
active where it holds it. -/
def UserFn.require (u : UserFn) (gen : Nat) : Option UserFn :=
  let act := if u.active = 0 then u.bank0 else u.bank1
  let idle := if u.active = 0 then u.bank1 else u.bank0
  if act.gen = gen then some u else if idle.gen = gen then some { u with active := 1 - u.active } else none

def UserFn.table (u : UserFn) : Bytes := if u.active = 0 then u.bank0.table else u.bank1.table

def HubSt.user (h : HubSt) (fn : Nat) : UserFn := if fn = 0x20 then h.user0 else h.user1
def HubSt.setUser (h : HubSt) (fn : Nat) (u : UserFn) : HubSt := if fn = 0x20 then { h with user0 := u } else { h with user1 := u }

/-- The elements of a tensor's piece as FP32 words, exactly widened. -/
def Wk.row32 (w : Wk) (d : Option Desc) (e0 n : Nat) : Wk × List Nat :=
  match d with
  | none => (w, [])
  | some d =>
    let (w, ixs) := w.indices d
    let (w, xs) := w.elems d ixs ((List.range n).map (e0 + ·))
    (w, xs.map (fun x => widen32 d.fmt x.raw))

/-- Masked elements of row r (R236). -/
def sfuMasked (e m : Bytes) (r : Nat) : List Bool :=
  (List.range (Sfu.len e)).map (fun i =>
    (Sfu.maskEn e && ((m.getD (i / 8) 0).toNat).testBit (i % 8)) || (Sfu.causal e && decide (r + Sfu.offset e < i)))

/-- Passes of a row that load x (R245): one, where the row buffer holds it. -/
def Sfu.passes (e : Bytes) : Nat :=
  if Sfu.len e * fmtBits (Sfu.inF e) ≤ 131072 || Sfu.op e = 0 then 1 else if Sfu.op e = 4 then 2 else 3

/-- One row of an entry: its reads, its result and its stores. -/
def Wk.sfuRow (w : Wk) (f : Flight) (table : Bytes) (r : Nat) : Wk × Bool :=
  let e := f.raw
  let n := Sfu.len e
  let b := w.b
  let (w, xs) := (List.range (Sfu.passes e)).foldl (fun (x : Wk × List Nat) _ =>
    x.1.row32 (b.fdesc f (eHandle e 0)) (r * n) n) (w, [])
  let (w, gs) := if eHandle e 1 = 0 then (w, []) else w.row32 (b.fdesc f (eHandle e 1)) 0 n
  let (w, bs) := if eHandle e 3 = 0 then (w, []) else w.row32 (b.fdesc f (eHandle e 3)) 0 n
  let (w, m) := match Sfu.maskEn e, b.fdesc f (Sfu.maskH e) with
    | true, some d => w.bytes d (r * cdiv n 8) (cdiv n 8)
    | _, _ => (w, [])
  if w.bad then (w, false)
  else
    let o := if Sfu.op e = 0 then mapRow e table xs
      else if Sfu.soft e then softRow e xs (sfuMasked e m r) else normRow e xs gs bs
    let w := w.flag o.flags
    let w := match b.fdesc f (eHandle e 2) with
      | some d => let (x, ixs) := w.indices d
                  x.putRaws d ixs (r * n) o.y
      | none => w
    let w := match Sfu.stats e && Sfu.op e != 0, b.fdesc f (Sfu.statsH e) with
      | true, some d => let (x, ixs) := w.indices d
                        x.putRaws d ixs (2 * r) [o.s0, o.s1]
      | _, _ => w
    (w, o.empty)

/-- R246: what an error leaves undefined: the rows from r on. -/
def Blk.sfuUndefined (b : Blk) (f : Flight) (r : Nat) : Blk :=
  let e := f.raw
  let one := fun (h per : Nat) (b : Blk) => match b.fdesc f h with
    | some d => let (w, ixs) := (Wk.hub b f 6).indices d
                b.scramble w.rq d ixs (r * per) (Dsc.count d - r * per)
    | none => b
  one (if Sfu.stats e then Sfu.statsH e else 0) 2 (one (eHandle e 2) (Sfu.len e) b)

/-- R245: entries run one at a time in the order in which the hub received them. -/
def Blk.sfuTurn (b : Blk) (f : Flight) : Bool :=
  b.flights.all (fun g => !(g.stage == .running && eOpcode g.raw == 0x22 && decide (g.order < f.order)))

/-- LOAD_TABLE (R244). -/
def Blk.sfuLoad (b : Blk) (f : Flight) : Blk :=
  let e := f.raw
  match b.fdesc f (eHandle e 0) with
  | none => b
  | some d =>
    let (w, t) := (Wk.hub b f 6).bytes d 0 1040
    match w.waits b with
    | some b => b
    | none =>
      if w.bad then w.b.finish f.q f.seq w.st w.flags 0
      else if !(zeroAt t 5 3) || !f32Finite (fld t 0 4) then w.b.finish f.q f.seq stDESC w.flags 0
      else
        let u := w.b.hub.user (Sfu.fn e)
        let k : UserBank := ⟨t, Sfu.gen e⟩
        let u := if u.active = 0 then { u with bank1 := k } else { u with bank0 := k }
        (w.b.setHub (w.b.hub.setUser (Sfu.fn e) u)).finish f.q f.seq stOK w.flags 0

/-- A row of an entry: the entry waits, ends, or stands before its next row (R246, R281). -/
def Blk.sfuStep (b : Blk) (f : Flight) (w : Wk) (table : Bytes) : Blk :=
  let e := f.raw
  let (w, em) := w.sfuRow f table f.progress
  match w.asks b with
  | (some b, _) => b
  | (none, w) =>
    let done := f.result + (if w.bad then 0 else 1 + b2n em * 2 ^ 32)
    if w.bad then (w.b.sfuUndefined f f.progress).finish f.q f.seq w.st w.flags done
    else if Sfu.rows e ≤ f.progress + 1 then w.b.finish f.q f.seq stOK w.flags done
    else w.b.updFlight f.q f.seq (fun g => { g with
      progress := f.progress + 1
      fetched := []
      result := done
      flags := g.flags ||| w.flags })

/-- The checks of aliasing and of the scatters that an entry stores (R236, R271). -/
def Blk.sfuOuts (b : Blk) (f : Flight) : Wk :=
  ((Wk.hub b f 6).sfuAlias f).outsOk
    ([eHandle f.raw 2, if Sfu.stats f.raw then Sfu.statsH f.raw else 0].filterMap (b.fdesc f))

/-- Before the first row: aliasing, the scatters, and the table of a USER code, whose bank becomes active
(R236, R244, R271). -/
def Blk.sfuFirst (b : Blk) (f : Flight) : Blk :=
  let e := f.raw
  let w := b.sfuOuts f
  match w.waits b with
  | some b => b
  | none =>
    if w.bad then w.b.finish f.q f.seq w.st w.flags 0
    else if Sfu.op e = 0 && Sfu.user e then
      match (w.b.hub.user (Sfu.fn e)).require (Sfu.gen e) with
      | none => w.b.finish f.q f.seq stTABLE w.flags 0
      | some u => b.sfuStep f { w with b := w.b.setHub (w.b.hub.setUser (Sfu.fn e) u) } u.table
    else b.sfuStep f w []

/-- The next row of an entry, with the checks before the first one (R235 to R246). -/
def Blk.sfuRun (b : Blk) (q seq op : Nat) : Blk :=
  match b.running? q seq with
  | none => b
  | some f =>
    let e := f.raw
    if eOpcode e != 0x22 || !(Sfu.op e == op || (op == 0 && decide (5 < Sfu.op e))) || !b.sfuTurn f then b
    else if f.progress != 0 then b.sfuStep f (Wk.hub b f 6) (b.hub.user (Sfu.fn e)).table
    else if !sfuFields e then b.finish q seq stDESC 0 0
    else if op != 5 && Sfu.rows e == 0 then b.finish q seq stOK 0 0
    else if !b.sfuTensors f then b.finish q seq stDESC 0 0
    else if op = 5 then b.sfuLoad f
    else b.sfuFirst f

def execSfuMap (q seq : Nat) (s : State) : Out := hubAct s (fun b => b.sfuRun q seq 0)
def execSfuSoftmax (q seq : Nat) (s : State) : Out := hubAct s (fun b => b.sfuRun q seq 1)
def execSfuLogSoftmax (q seq : Nat) (s : State) : Out := hubAct s (fun b => b.sfuRun q seq 2)
def execSfuLayerNorm (q seq : Nat) (s : State) : Out := hubAct s (fun b => b.sfuRun q seq 3)
def execSfuRmsNorm (q seq : Nat) (s : State) : Out := hubAct s (fun b => b.sfuRun q seq 4)
def execSfuLoadTable (q seq : Nat) (s : State) : Out := hubAct s (fun b => b.sfuRun q seq 5)

end Sys2Proof.Machine
end

