-- ==== Sys2Proof/Machine/Copy.lean ====
section
/-! DEFINITION. The layout engine's entries (R249 to R281): COPY, FILL, RELAY, DESC_CREATE, DESC_DROP;
and the queue engine's NOP and FENCE (R297, R311). -/

namespace Sys2Proof.Machine
open Sys2Proof

/-- The started entry whose command has not finished, where it carries an opcode. -/
def Blk.running (b : Blk) (q seq op : Nat) : Option Flight :=
  match b.running? q seq with
  | some f => if eOpcode f.raw = op then some f else none
  | none => none

/-! ### COPY (R264 to R273, R299) -/

/-- Bytes that an inline source of `n` elements takes (R299). -/
def inlineBytes (fmt n : Nat) : Option Nat :=
  if isBlock fmt then (if multOf n (blkElems fmt) then some (n / blkElems fmt * blkBytes fmt) else none)
  else if fmtBits fmt = 4 then some (cdiv n 2)
  else some (n * (fmtBits fmt / 8))

/-- Element e of an inline source: its bits and its storage unit. -/
def inlineElem (fmt : Nat) (raw : Bytes) (e : Nat) : Elem :=
  if isBlock fmt then
    let u := bytesAt raw (0x20 + e / blkElems fmt * blkBytes fmt) (blkBytes fmt)
    ⟨subRaw fmt u (e % blkElems fmt), u⟩
  else if fmtBits fmt = 4 then
    let u := bytesAt raw (0x20 + e / 2) 1
    ⟨subRaw fmt u (e % 2), u⟩
  else
    let u := bytesAt raw (0x20 + e * (fmtBits fmt / 8)) (fmtBits fmt / 8)
    ⟨leNat u, u⟩

/-- Formats that copy only into themselves (R273). -/
def whole (fmt : Nat) : Bool := isBlock fmt || fmt == cWIDE96

/-! ### Bursts (R263, R273, R281) -/

/-- The dimension along which bursts run: ix_dim, or the outermost one whose extent exceeds 1. -/
def Dsc.burstDim (d : Desc) : Nat :=
  if Dsc.kind d != 0 then d.ixDim
  else ((List.range d.rank).filter (fun k => decide (1 < Dsc.dim d k))).getLast?.getD 0

/-- The number of bursts; one where nothing is to be done. -/
def Dsc.bursts (d : Desc) : Nat := max 1 (cdiv (Dsc.dim d (Dsc.burstDim d)) 256)

/-- The number of elements for one value of the burst's index, with the outer indices fixed. -/
def Dsc.inner (d : Desc) : Nat := (d.dims.take (Dsc.burstDim d)).foldl (· * ·) 1

/-- The burst of an element. -/
def Dsc.burstOf (d : Desc) (e : Nat) : Nat := e / Dsc.inner d % Dsc.dim d (Dsc.burstDim d) / 256

/-- The element numbers of a burst, ascending. -/
def Dsc.burst (d : Desc) (k : Nat) : List Nat :=
  let n := Dsc.dim d (Dsc.burstDim d)
  let len := (min n (256 * k + 256) - 256 * k) * Dsc.inner d
  (List.range (Dsc.count d / max 1 (n * Dsc.inner d))).flatMap (fun o =>
    (List.range len).map (fun i => (o * n + 256 * k) * Dsc.inner d + i))

/-- The indices that a burst uses, read at that burst (R270, R281). -/
def Wk.burstIxs (w : Wk) (d : Desc) (k : Nat) : Wk × List Int :=
  if Dsc.kind d = 1 then
    match w.b.descOf w.q d.ixHandle with
    | none => (w.fail stDESC, [])
    | some ix =>
      let (w, xs) := w.elems ix [] ((List.range (min (Dsc.count ix) (256 * k + 256) - 256 * k)).map (256 * k + ·))
      (w, List.replicate (256 * k) 0 ++ xs.map (fun x => sext 32 x.raw))
  else (w, [])

/-- The indices of a burst of a destination; a REJECT scatter reads them all before it writes (R271). -/
def Wk.destIxs (w : Wk) (d : Desc) (k : Nat) : Wk × List Int :=
  if k = 0 && Dsc.kind d = 1 && Dsc.collide d = 0 then
    if 2 ^ 24 < Dsc.dim d d.ixDim then (w.fail stDESC, [])
    else
      let (w, ixs) := w.indices d
      (w.scatterOk d ixs, ixs)
  else w.burstIxs d k

/-- Reads bursts of the source until it holds n elements of burst k of the destination (R273). -/
def Wk.fillSource (w : Wk) (s d : Desc) (k n : Nat) : Nat → BurstSt → Wk × BurstSt
  | 0, y => (w, y)
  | fuel + 1, y =>
    if n ≤ (y.source.filter (fun p => Dsc.burstOf d p.1 == k)).length || Dsc.bursts s ≤ y.next then (w, y)
    else
      let es := Dsc.burst s y.next
      let (w, ixs) := w.burstIxs s y.next
      let (w, xs) := w.elems s ixs es
      w.fillSource s d k n fuel { y with next := y.next + 1, source := y.source ++ List.zip es xs }

/-- The held elements of burst k in ascending element number, and what stays held. -/
def BurstSt.take (y : BurstSt) (d : Desc) (k : Nat) : List (Nat × Elem) × BurstSt :=
  let (now, later) := y.source.partition (fun p => Dsc.burstOf d p.1 == k)
  let es := now.map (fun p => p.1)
  (if ascends es then now else (sortUp 64 es).filterMap (fun e => now.find? (fun p => p.1 == e)), { y with source := later })

/-! ### Accumulating stores (R264, R266) -/

/-- One value joins an accumulator: exactly, or by one FP32 rounding, whose saturation is noted (R129). -/
def accAdd (single : Bool) (a : Ex × Flags) (v : Ex) : Ex × Flags :=
  if single then
    let (r, fl) := encElem cFP32 (Ex.add a.1 v)
    (f32 r, a.2 ||| (fl &&& flagSat))
  else (Ex.add a.1 v, a.2)

/-- Whether a FIXED_SUM sums in FP32: in the floating formats. -/
def singleSum (mode fmt : Nat) : Bool := mode == 3 && fmt != cINT8 && fmt != cUINT8 && fmt != cINT32 && fmt != cWIDE96

/-- What an accumulating store leaves at an address: the content, the accumulator and the flags. While no
other party has changed the content that this entry stored last, the sum goes on from the accumulator, so
that it is rounded once; else from the content (log 70). -/
def accStore (mode fmt : Nat) (old : Option AccSum) (addr prior : Nat) (vs : List Ex) : Nat × AccSum × Flags :=
  let single := singleSum mode fmt
  let p := decElem fmt prior
  let start := match old with
    | some a => if a.last = prior then a.acc else p
    | none => p
  let (acc, f1) := vs.foldl (accAdd single) (if single then (f32 (fl32 start), 0) else (start, 0))
  let (raw, f2) := encElem fmt acc
  (raw, ⟨addr, raw, acc⟩, f1 ||| f2)

/-- Values by the address that they reach, in ascending element number. -/
def groupByAddr (l : List (Nat × Ex)) : Tbl (List Ex) :=
  l.foldr (fun p t => tset p.1 (p.2 :: tget [] p.1 t) t) []

/-- Stores the values of a burst through EXACT_SUM or FIXED_SUM (R264, R266, R268). -/
def Wk.accumulate (w : Wk) (d : Desc) (ixs : List Int) (y : BurstSt) (vs : List (Nat × Ex)) : Wk × BurstSt :=
  let locs := vs.map (fun v => Dsc.loc d ixs false v.1)
  let w := locs.foldl (fun (w : Wk) l => if l.oob = 1 then w.flag flagNegIndex else if l.oob = 2 then w.flag flagFill else w) w
  let gs := groupByAddr (((List.zip locs vs).filter (fun p => p.1.oob == 0)).map (fun p => (p.1.addr, p.2.2)))
  let n := Dsc.unitBytes d.fmt
  let (w, us) := w.units n (gs.map (fun g => g.1))
  let outs := List.zipWith (fun (g : Nat × List Ex) u =>
    (g, accStore (Dsc.collide d) d.fmt (y.sums.find? (fun a => a.addr == g.1)) g.1 (leNat u) g.2)) gs us
  let w := outs.foldl (fun (w : Wk) o => w.flag o.2.2.2) w
  let w := w.writeRuns (joinRuns (outs.map (fun o => (o.1.1, leBytes n o.2.1, o.1.2.length))))
  (w, { y with sums := outs.map (fun o => o.2.2.1) ++ y.sums.filter (fun a => gs.all (fun g => g.1 != a.addr)) })

/-- R266: another entry holds remote targets of an accumulating store between its reads and its writes. -/
def Blk.accHeld (b : Blk) (f : Flight) (d : Desc) : Bool :=
  let far := fun (x : Desc) => (herdSpans x).filter (fun s => !b.haLocal s.1)
  f.fetched.isEmpty && f.txns.isEmpty && b.flights.any (fun g =>
    !g.is f.q f.seq && g.stage != .accepted && eOpcode g.raw == 3 && !(g.fetched.isEmpty && g.txns.isEmpty && g.out.isEmpty)
      && match b.fdesc g (eHandle g.raw 2) with
        | some x => decide (2 ≤ Dsc.collide x) && spansMeet (far x) (far d)
        | none => false)

/-! ### COPY -/

/-- Stores the elements of a burst: whole blocks, equal bits, or converted values. -/
def Wk.copyBurst (w : Wk) (d : Desc) (ixs : List Int) (sfmt : Nat) (xs : List (Nat × Elem)) : Wk :=
  if isBlock d.fmt then
    (xs.filter (fun x => x.1 % blkElems d.fmt == 0)).foldl (fun (w : Wk) x => w.putBlock d ixs x.1 x.2.unit) w
  else if sfmt = d.fmt then w.putAt d ixs (xs.map (fun x => (x.1, x.2.raw)))
  else
    let rs := xs.map (fun x => (x.1, encElem d.fmt (x.2.val sfmt)))
    (rs.foldl (fun (w : Wk) r => w.flag r.2.2) w).putAt d ixs (rs.map (fun r => (r.1, r.2.1)))

/-- Ends a burst or record: the entry waits, ends, or stands before the next one (R281). -/
def Wk.stepDone (w : Wk) (b0 : Blk) (f : Flight) (y : BurstSt) (last : Bool) (count : Nat) : Blk :=
  match w.waits b0 with
  | some b => b
  | none =>
    let w := w.sent
    if w.bad || last then w.b.finish w.q w.seq w.st w.flags (min count (2 ^ 32 - 1))
    else w.b.updFlight w.q w.seq (fun g =>
      { g with progress := f.progress + 1, fetched := [], result := count, flags := g.flags ||| w.flags
               burst := { y with tops := g.burst.tops } })

/-- R273 and R299: the checks of a COPY beside aliasing. -/
def Blk.copyOk (b : Blk) (f : Flight) : Bool :=
  let e := f.raw
  let h := eHandle e
  h 1 == 0 && h 3 == 0 &&
  match b.fdesc f (h 2) with
  | none => false
  | some d =>
    Dsc.write d &&
    if h 0 = 0 then
      zeroAt e (0x20 + eInline e) (96 - eInline e) && inlineBytes d.fmt (Dsc.count d) == some (eInline e) && decide (eInline e ≤ 96)
    else match b.fdesc f (h 0) with
      | none => false
      | some s =>
        eInline e == 0 && zeroAt e 0x20 96 && Dsc.count s == Dsc.count d && (s.fmt == d.fmt || !(whole s.fmt || whole d.fmt))

/-- The work of one burst of a COPY between tensors that passed its checks, and what it holds for the next. -/
def Blk.copyPart (b : Blk) (f : Flight) (src : Option Desc) (d : Desc) : Wk × BurstSt :=
  let k := f.progress
  let es := Dsc.burst d k
  let (w, ixs) := (Wk.start b f 4).destIxs d k
  let (w, y) := match src with
    | some s => w.fillSource s d k es.length (Dsc.bursts s) f.burst
    | none => (w, { f.burst with source := es.map (fun e => (e, inlineElem d.fmt f.raw e)) })
  let (xs, y) := y.take d k
  let sfmt := (src.map Desc.fmt).getD d.fmt
  if w.bad || (w.waits b).isSome then (w, y)
  else if 2 ≤ Dsc.collide d then w.accumulate d ixs y (xs.map (fun x => (x.1, x.2.val sfmt)))
  else (w.copyBurst d ixs sfmt xs, y)

/-- COPY (R273): its checks and its next burst. -/
def Blk.copyRun (b : Blk) (q seq : Nat) : Blk :=
  match b.running q seq 3 with
  | none => b
  | some f =>
    let e := f.raw
    if !b.copyOk f then b.finish q seq stDESC 0 0
    else match b.fdesc f (eHandle e 2) with
      | none => b
      | some d =>
        let src := b.fdesc f (eHandle e 0)
        if (src.map (fun s => spansMeet (herdSpans s) (herdSpans d))).getD false then b.finish q seq stALIAS 0 0
        else if 2 ≤ Dsc.collide d && b.accHeld f d then b
        else
          let p := b.copyPart f src d
          p.1.stepDone b f p.2 (decide (Dsc.bursts d ≤ f.progress + 1)) (f.result + p.1.stored)

/-! ### FILL (R274) -/

/-- R254, R274: the value in the layout of the fill field. -/
def fillOk (fmt v : Nat) : Bool :=
  if isMX fmt || fmt == cWIDE96 then v == 0 else decide (v < 2 ^ (fmtBits fmt))

/-- The work of one burst of a FILL; the value is stored plainly under every mode (R265). -/
def Blk.fillPart (b : Blk) (f : Flight) (d : Desc) : Wk :=
  let v := fld f.raw 0x20 4
  let (w, ixs) := (Wk.start b f 4).destIxs d f.progress
  let x : Elem := ⟨v, if isBlock d.fmt then fillBlock d.fmt v else leBytes (Dsc.unitBytes d.fmt) v⟩
  if w.bad || (w.waits b).isSome then w
  else w.copyBurst { d with flags := d.flags - 2 * Dsc.collide d } ixs d.fmt ((Dsc.burst d f.progress).map (fun e => (e, x)))

/-- FILL (R274): its checks and its next burst. -/
def Blk.fillRun (b : Blk) (q seq : Nat) : Blk :=
  match b.running q seq 5 with
  | none => b
  | some f =>
    let e := f.raw
    let v := fld e 0x20 4
    let h := eHandle e
    match b.fdesc f (h 2) with
    | none => b.finish q seq stDESC 0 0
    | some d =>
      if !(h 0 == 0 && h 1 == 0 && h 3 == 0 && zeroAt e 0x24 92 && Dsc.write d && fillOk d.fmt v) then b.finish q seq stDESC 0 0
      else
        (b.fillPart f d).stepDone b f f.burst (decide (Dsc.bursts d ≤ f.progress + 1)) 0

/-! ### RELAY (R275 to R277) -/

namespace Rly
def kind (e : Bytes) : Nat := fld e 0x20 1
def wfmt (e : Bytes) : Nat := fld e 0x21 1
def H (e : Bytes) : Nat := fld e 0x22 2
def n (e : Bytes) : Nat := fld e 0x24 4
def k (e : Bytes) : Nat := fld e 0x28 4
def count (e : Bytes) : Nat := fld e 0x2C 4
def intoBanks (e : Bytes) : Bool := kind e % 2 == 0
/-- Records of the block table that the entry uses. -/
def records (e : Bytes) : Nat := n e * cdiv (k e + count e) 256
end Rly

/-- Weight formats that bank units hold (R155). -/
def bankFmt (w : Nat) : Bool :=
  [cE4M3, cE5M2, cINT8, cUINT8, cINT4, cFP4, cCB4, cBF16, cMXE4M3, cMXE5M2, cMXINT8, cMXFP4].contains w

/-- R275. -/
def Blk.relayOk (b : Blk) (f : Flight) : Bool :=
  let e := f.raw
  let h := eHandle e
  let w := Rly.wfmt e
  match b.fdesc f (h 0), b.fdesc f (h 1), b.fdesc f (h 2) with
  | some p, some t, some d =>
    decide (Rly.kind e < 4) && h 3 == 0 && zeroAt e 0x30 80 && t.fmt == cUINT8 && Dsc.kind p == 0 && Dsc.kind d == 0 && !Dsc.owner d && d.fmt == w
      && (b.unitRegion d).isSome && (if isBlock w then p.fmt == w else !isBlock p.fmt)
      && (if Rly.intoBanks e then Dsc.write d && decide (Dsc.collide d < 2) else Dsc.write p && decide (Dsc.collide p < 2))
      && (if Rly.kind e < 2 then
          bankFmt w && Rly.H e == 0 && Rly.count e == 0 && decide (1 ≤ Rly.n e) && decide (Rly.n e ≤ 16777216) && decide (1 ≤ Rly.k e)
            && multOf (Rly.k e) (kMult w) && (w == cBF16 || decide (Rly.k e ≤ 1048576)) && Dsc.count p == Rly.n e * Rly.k e
        else
          (w == cE4M3 || w == cE5M2) && [64, 128, 256].contains (Rly.H e)
            && decide (1 ≤ Rly.count e) && decide (Rly.k e + Rly.count e ≤ 1048576)
            && Dsc.count p == Rly.n e * Rly.count e * 2 * Rly.H e)
  | _, _, _ => false

/-- The herd address of a row's first byte. -/
def Blk.rowHa (b : Blk) (u side row : Nat) : Option Nat :=
  (b.struc.rowMpa (unitCh u) (unitBank u side) row).map (b.struc.modNum * 2 ^ 40 + ·)

/-- Packs raw elements as a row's data bytes. -/
def packRow (fmt : Nat) (l : List Nat) : Bytes :=
  if fmtBits fmt = 4 then (pieces 2 l.length l).map (fun p => BitVec.ofNat 8 (p.getD 0 0 % 16 + p.getD 1 0 % 16 * 16))
  else l.flatMap (leBytes (fmtBits fmt / 8))

/-- The raw elements of a row's data bytes. -/
def unpackRow (fmt : Nat) (d : Bytes) : List Nat := rawsOf (fmtBits fmt) d |> fun l =>
  if fmtBits fmt = 16 then (List.range (d.length / 2)).map (fun i => fld d (2 * i) 2) else l

/-- Element numbers of slice s of an output in the plain tensor. -/
def sliceAt (e : Bytes) (o s : Nat) : Nat := o * Rly.k e + s * sliceLen (Rly.wfmt e)

/-- The bytes that kind 0 writes into the row of output o, slice s (R276). -/
def Wk.rowInto (w : Wk) (e : Bytes) (p : Desc) (ixs : List Int) (o s : Nat) : Wk × Bytes :=
  let wf := Rly.wfmt e
  let n := sliceElems wf (Rly.k e) s
  let bytes := 256 * sliceGroups wf (Rly.k e) s
  if Rly.n e ≤ o then (w, zeros bytes)
  else if isMX wf then
    let (w, xs) := w.elems p ixs ((List.range (n / 32)).map (fun j => sliceAt e o s + 32 * j))
    let per := blkBytes wf - 1
    let data := xs.flatMap (fun x => bytesAt x.unit 0 per)
    let sc := xs.map (fun x => x.unit.getD per 0)
    let at' := if wf = cMXFP4 then 1920 else 1984
    (w, bytesAt (bytesAt data 0 at' ++ sc) 0 2048)
  else if wf = cCB4 then
    let (w, xs) := w.elems p ixs ((List.range (n / 256)).map (fun j => sliceAt e o s + 256 * j))
    (w, bytesAt (xs.flatMap (fun x => bytesAt x.unit 0 128)) 0 bytes)
  else
    let (w, xs) := w.elems p ixs ((List.range n).map (sliceAt e o s + ·))
    if p.fmt = wf then (w, bytesAt (packRow wf (xs.map Elem.raw)) 0 bytes)
    else
      let rs := xs.map (fun x => encElem wf (x.val p.fmt))
      (rs.foldl (fun (w : Wk) r => w.flag r.2) w, bytesAt (packRow wf (rs.map (fun r => r.1))) 0 bytes)

/-- Stores what kind 1 reads from a row (R276). -/
def Wk.rowOutOf (w : Wk) (e : Bytes) (p : Desc) (ixs : List Int) (o s : Nat) (row : Bytes) : Wk :=
  let wf := Rly.wfmt e
  let n := sliceElems wf (Rly.k e) s
  if Rly.n e ≤ o then w
  else if isMX wf then
    let per := blkBytes wf - 1
    let at' := if wf = cMXFP4 then 1920 else 1984
    (List.range (n / 32)).foldl (fun (w : Wk) j =>
      w.putBlock p ixs (sliceAt e o s + 32 * j) (bytesAt row (per * j) per ++ bytesAt row (at' + j) 1)) w
  else if wf = cCB4 then
    (List.range (n / 256)).foldl (fun (w : Wk) j =>
      w.putBlock p ixs (sliceAt e o s + 256 * j) (bytesAt row (128 * j) 128 ++ zeros 32)) w
  else
    let raws := (unpackRow wf row).take n
    if p.fmt = wf then w.putRaws p ixs (sliceAt e o s) raws else w.putVals p ixs (sliceAt e o s) (raws.map (decElem wf))

/-- Rows of a record of a plan: unit, side, row, output and slice. -/
def recRows (r : PRec) : List (Nat × Nat × Nat × Nat × Nat) :=
  (List.range r.pairs).flatMap (fun j => [0, 1].map (fun s => (r.unit, s, r.row + j, r.out + 2 * j + s, r.slice)))

/-- One record of kinds 0 and 1. -/
def Wk.relayRec (w : Wk) (e : Bytes) (p : Desc) (r : PRec) : Wk :=
  (recRows r).foldl (fun (w : Wk) r =>
    if w.bad then w
    else match w.b.rowHa r.1 r.2.1 r.2.2.1 with
      | none => w.fail stRANGE
      | some a =>
        if Rly.intoBanks e then
          let (w, d) := w.rowInto e p [] r.2.2.2.1 r.2.2.2.2
          w.write a d
        else
          let (w, d) := w.read a (256 * sliceGroups (Rly.wfmt e) (Rly.k e) r.2.2.2.2)
          if w.bad then w else w.rowOutOf e p [] r.2.2.2.1 r.2.2.2.2 d) w

/-- One block of kinds 2 and 3: tokens i0 to i0 + n − 1 of the entry, from token τ0 of the block on. -/
def Wk.relayBlock (w : Wk) (e : Bytes) (p : Desc) (ixs : List Int) (h : Nat) (a : ABlk) (i0 n t0 : Nat) : Wk :=
  let hd := Rly.H e
  let wf := Rly.wfmt e
  let base := fun (i : Nat) => (h * Rly.count e + i) * 2 * hd
  let addr := fun (x : Nat × Nat × Nat) (off : Nat) =>
    (w.b.rowHa a.unit x.1 (a.row + x.2.1)).map (· + x.2.2 + off)
  if Rly.intoBanks e then
    let (w, toks) := (List.range n).foldl (fun (s : Wk × List Bytes) i =>
      let (w, xs) := s.1.elems p ixs ((List.range (2 * hd)).map (base (i0 + i) + ·))
      let rs := xs.map (fun x => if p.fmt = wf then (x.raw, 0) else encElem wf (x.val p.fmt))
      (rs.foldl (fun (w : Wk) r => w.flag r.2) w, s.2 ++ [rs.flatMap (fun r => leBytes 1 r.1)])) (w, [])
    let keys := (List.range n).filterMap (fun i => (addr (keyPlace hd (t0 + i)) 0).map (fun x => (x, bytesAt (toks.getD i []) 0 hd, 0)))
    let vals := (List.range hd).filterMap (fun d =>
      (addr (valPlace hd d) t0).map (fun x => (x, toks.map (fun k => k.getD (hd + d) 0), 0)))
    if keys.length < n || vals.length < hd then w.fail stRANGE else w.writeRuns (joinRuns (keys ++ vals))
  else
    let (w, vs) := (List.range hd).foldl (fun (s : Wk × List Bytes) d =>
      match addr (valPlace hd d) t0 with
      | none => (s.1.fail stRANGE, s.2 ++ [[]])
      | some x => let (w, v) := s.1.read x n
                  (w, s.2 ++ [v])) (w, [])
    (List.range n).foldl (fun (w : Wk) i =>
      match addr (keyPlace hd (t0 + i)) 0 with
      | none => w.fail stRANGE
      | some x =>
        let (w, k) := w.read x hd
        if w.bad then w
        else
          let raws := k.map BitVec.toNat ++ vs.map (fun v => (v.getD i 0).toNat)
          if p.fmt = wf then w.putRaws p ixs (base (i0 + i)) raws else w.putVals p ixs (base (i0 + i)) (raws.map (decElem wf))) w

/-- Record i of kinds 2 and 3 (R277). -/
def Wk.relayBlk (w : Wk) (e table : Bytes) (p : Desc) (i : Nat) : Wk :=
  let first := Rly.k e
  let n := i / Rly.n e
  let lo := max first (256 * n)
  let hi := min (first + Rly.count e) (256 * n + 256)
  if w.bad || hi ≤ lo then w
  else match w.b.ablk table (Rly.H e) i with
    | none => w.fail stDESC
    | some a => w.relayBlock e p [] (i % Rly.n e) a (lo - first) (hi - lo) (lo - 256 * n)

/-- The plan or table of a RELAY: the copy that the plan store holds, or its memory. -/
def Wk.relayTable (w : Wk) (f : Flight) (kind len : Nat) : Wk × Bytes :=
  let h := eHandle f.raw 1
  let old := (w.b.planOf h kind).getD []
  if old.length != 0 && (kind == 0 || len ≤ old.length) then (w, old)
  else match w.b.fdesc f h with
    | none => (w.fail stDESC, [])
    | some d => if Dsc.count d < len then (w.fail stDESC, []) else w.bytes d 0 (if kind = 0 then Dsc.count d else len)

/-- Rows that a relay into banks has reached with records 0 to k. -/
def Blk.relayRows (b : Blk) (e table : Bytes) (k : Nat) : List Nat :=
  (if Rly.kind e < 2 then ((recsOf table).take (k + 1)).flatMap (fun r => (recRows r).map (fun x => (x.1, x.2.1, x.2.2.1)))
   else (List.range (min (k + 1) (Rly.records e))).flatMap (fun i => match b.ablk table (Rly.H e) i with
     | none => []
     | some a => (List.range (Rly.H e / 8)).flatMap (fun j => [0, 1].map (fun s => (a.unit, s, a.row + j))))).filterMap
    (fun r => b.rowHa r.1 r.2.1 r.2.2)

/-- R277: the rows that a failed relay reached hold undefined data. -/
def Blk.relayUndone (b : Blk) (rq : Req) (e table : Bytes) (k : Nat) : Blk :=
  (b.relayRows e table k).foldl (fun (b : Blk) a =>
    let b := b.smear rq a ((List.range 2048).map (Config.freeByte b.ctr))
    { b with ctr := b.ctr + 1 }) b

/-- The table of a RELAY, with its check; a later record finds it where the first one left it. -/
def Wk.relayChecked (w : Wk) (f : Flight) (d : Desc) : Wk × Bytes :=
  let e := f.raw
  let plan := decide (Rly.kind e < 2)
  if f.progress != 0 then (w, f.burst.table)
  else
    let (w, t) := w.relayTable f (if plan then 0 else 1) (if plan then 16 else 8 * Rly.records e)
    let ok := if plan then w.b.planOk t (Rly.n e) (Rly.k e) (Rly.wfmt e) d else w.b.tableOk t (Rly.H e) (Rly.n e) 0 (Rly.records e)
    (if w.stall || !w.need.isEmpty || ok then w else w.fail stDESC, t)

/-- The number of records of a RELAY. -/
def relayCount (e table : Bytes) : Nat := if Rly.kind e < 2 then (recsOf table).length else Rly.records e

/-- The work of the next record of a RELAY. -/
def Wk.relayPart (w : Wk) (e table : Bytes) (p : Desc) (k : Nat) : Wk :=
  if Rly.kind e < 2 then (match (recsOf table)[k]? with
    | some r => w.relayRec e p r
    | none => w)
  else w.relayBlk e table p k

/-- RELAY (R275 to R277): its checks and its next record. -/
def Blk.relayRun (b : Blk) (q seq : Nat) : Blk :=
  match b.running q seq 4 with
  | none => b
  | some f =>
    let e := f.raw
    if !b.relayOk f then b.finish q seq stDESC 0 0
    else match b.fdesc f (eHandle e 0), b.fdesc f (eHandle e 2) with
      | some p, some d =>
        let k := f.progress
        let (w0, t) := (Wk.start b f 4).relayChecked f d
        if (w0.waits b).isSome then w0.stepDone b f f.burst true 0
        else if w0.bad then
          (if k != 0 && Rly.intoBanks e then { w0 with b := w0.b.relayUndone w0.rq e t (k - 1) } else w0).stepDone b f f.burst true 0
        else
          let w := w0.relayPart e t p k
          let w := if w.bad && (w.waits b).isNone && Rly.intoBanks e then { w with b := w.b.relayUndone w.rq e t k } else w
          w.stepDone b f { f.burst with table := t } (decide (relayCount e t ≤ k + 1)) 0
      | _, _ => b

/-! ### Descriptors (R254 to R262, R278) -/

/-- The descriptor that a DESC_CREATE carries, without an owner table. -/
def descIn (e : Bytes) : Desc where
  fmt := fld e 0x20 1
  rank := fld e 0x21 1
  flags := fld e 0x22 1
  dims := (List.range 6).map (fun k => fld e (0x24 + 4 * k) 4)
  stride := (List.range 6).map (fun k => sext 48 (fld e (0x3C + 6 * k) 6))
  base := fld e 0x60 8
  fill := fld e 0x68 4
  ixHandle := fld e 0x6C 4
  srcLen := fld e 0x70 4
  winStart := sext 32 (fld e 0x74 4)
  winStep := fld e 0x78 2
  winDil := fld e 0x7A 2
  ixDim := fld e 0x7E 1
  owners := []

def descIndex (e : Bytes) : Nat := fld e 0x7C 2

/-- Check 2 of R256. -/
def descForm (e : Bytes) : Bool :=
  let d := descIn e
  fmtListed d.fmt && decide (1 ≤ d.rank) && decide (d.rank ≤ 6) && zeroAt e 0x23 1 && zeroAt e 0x7F 1 && decide (d.flags < 64)
    && Dsc.kind d != 3 && (List.range 6).all (fun k => decide (k < d.rank) || (Dsc.dim d k == 0 && Dsc.str d k == 0))
    && zeroAt e 0x10 16 && decide (descIndex e < 4096)

/-- Check 3 of R256 (R251, R252, R254, R269, R272, R278). -/
def descRules (e : Bytes) : Bool :=
  let d := descIn e
  let B := blkElems d.fmt
  let blk := isBlock d.fmt
  let kind := Dsc.kind d
  (!blk || (Dsc.str d 0 == 1 && multOf (Dsc.dim d 0) B
      && (List.range d.rank).all (fun k => k == 0 || Dsc.str d k % (B : Int) == 0)))
    && decide (Dsc.count d ≤ 2 ^ 40) && !(kind == 2 && Dsc.write d)
    && (Dsc.collide d < 2 || (Dsc.write d
        && [cFP32, cBF16, cFP16, cE4M3, cE5M2, cINT8, cUINT8, cINT32, cWIDE96].contains d.fmt))
    && fillOk d.fmt d.fill
    && (if kind = 1 then
          decide (1 ≤ d.srcLen) && decide (d.ixDim < d.rank) && !(blk && d.ixDim == 0) && d.winStart == 0 && d.winStep == 0 && d.winDil == 0
        else if kind = 2 then
          d.ixHandle == 0 && decide (1 ≤ d.srcLen) && decide (1 ≤ d.winStep) && decide (1 ≤ d.winDil) && decide (d.ixDim < d.rank)
            && decide ((if blk then 2 else 1) ≤ d.ixDim) && Dsc.str d d.ixDim == 0
        else d.ixHandle == 0 && d.srcLen == 0 && d.winStart == 0 && d.winStep == 0 && d.winDil == 0 && d.ixDim == 0)
    && (!Dsc.owner d || (decide (d.base < 2 ^ 32) && !(kind != 0 && d.ixDim + 1 == d.rank)))

/-- R269: the index tensor of a descriptor. -/
def Blk.ixOk (b : Blk) (q : Nat) (d : Desc) : Bool :=
  Dsc.kind d != 1 || match b.desc? q d.ixHandle with
    | none => false
    | some x => Dsc.kind x == 0 && !Dsc.owner x && x.fmt == cINT32 && Dsc.count x == Dsc.dim d d.ixDim && b.haLocal x.base

/-- The entries of an owner table. -/
def ownersOf (t : Bytes) : List (Nat × Nat × Nat) :=
  (chunk 16 (t.length / 16) t).map (fun r => (fld r 0 4, fld r 4 4, fld r 8 8))

/-- R278: the entries cover the outermost dimension once, in ascending order. -/
def ownersCover : List (Nat × Nat × Nat) → Nat → Nat → Bool
  | [], at', n => at' == n
  | o :: t, at', n => o.1 == at' && ownersCover t (at' + o.2.1) n

/-- DESC_CREATE (R254 to R258). -/
def Blk.createRun (b : Blk) (q seq : Nat) : Blk :=
  match b.running q seq 8 with
  | none => b
  | some f =>
    let e := f.raw
    let d := descIn e
    let x := descIndex e
    let h := handleOf q x
    let free := b.descs.all (fun p => p.1 != descKey h)
    if !(free && descForm e && descRules e && b.ixOk q d) then b.finish q seq stDESC 0 0
    else
      let w := Wk.start b f 4
      let (w, t) := if !Dsc.owner d then (w, [])
        else match b.desc? q d.base with
          | none => (w.fail stDESC, [])
          | some o =>
            let n := Dsc.count o
            if Dsc.kind o == 0 && !Dsc.owner o && o.fmt == cUINT8 && b.haLocal o.base && multOf n 16 && decide (16 ≤ n) && decide (n ≤ 65536)
              then w.bytes o 0 n else (w.fail stDESC, [])
      match w.waits b with
      | some b => b
      | none =>
        let d := { d with owners := ownersOf t, base := if Dsc.owner d then 0 else d.base }
        if w.bad then w.b.finish q seq w.st w.flags 0
        else if Dsc.owner d && !ownersCover d.owners 0 (Dsc.dim d (d.rank - 1)) then w.b.finish q seq stDESC w.flags 0
        else if w.b.planRoom < t.length then w.b.finish q seq stRANGE w.flags 0
        else if !w.b.spansOk q d then w.b.finish q seq stRANGE w.flags 0
        else if Dsc.write d && Dsc.collide d = 0 && !Dsc.distinct d then w.b.finish q seq stALIAS w.flags 0
        else
          let b := { w.b with descs := tset (descKey h) ⟨d, Dsc.distinct d, .inUse⟩ w.b.descs }
          let b := if t.isEmpty then b else b.keepPlan h 2 t
          b.finish q seq stOK w.flags (h + b2n (Dsc.distinct d) * 2 ^ 32)

/-- Frees an index and its copies (R260). -/
def Blk.freeDesc (b : Blk) (k : Nat) : Blk :=
  { b with descs := tdel k b.descs, plans := b.plans.filter (fun p => descKey p.handle != k) }

/-- R260: whether a started entry still uses a descriptor. -/
def Blk.descUsed (b : Blk) (k q seq : Nat) : Bool :=
  b.flights.any (fun g => g.stage != .accepted && !g.is q seq && g.used.any (fun h => descKey h == k))

/-- R260: dropped descriptors that nothing uses any more are freed. -/
def Blk.freeDropped (b : Blk) : Blk :=
  (b.descs.filter (fun p => p.2.phase == .dropped)).foldl (fun (b : Blk) p =>
    if b.flights.any (fun g => g.stage != .accepted && g.used.any (fun h => descKey h == p.1)) then b else b.freeDesc p.1) b

/-- DESC_DROP (R260). -/
def Blk.dropRun (b : Blk) (q seq : Nat) : Blk :=
  match b.running q seq 9 with
  | none => b
  | some f =>
    let e := f.raw
    let h := eHandle e 0
    let k := descKey h
    let good := h / 2 ^ 18 == 0x2000 && h / 0x1000 % 64 == q && zeroAt e 0x14 108
    match (if good then (b.descs.find? (fun p => p.1 == k)).map (fun p => p.2) else none) with
    | none => b.finish q seq stDESC 0 0
    | some x =>
      if x.phase = .dropped then b.finish q seq stDESC 0 0
      else
        let b := if b.descUsed k q seq then { b with descs := tset k { x with phase := .dropped } b.descs } else b.freeDesc k
        b.finish q seq stOK 0 0

/-- R262: after an apply every descriptor is checked again by check 6 of R256. -/
def Blk.recheckDescs (b : Blk) : Blk :=
  { b with descs := b.descs.map (fun (p : Nat × DescSt) =>
      if p.2.phase == .inUse && !b.spansOk (p.1 / 0x1000) p.2.d then (p.1, { p.2 with phase := .invalid }) else p) }

/-! ### NOP and FENCE (R297, R311) -/

/-- NOP (R297). -/
def Blk.nopRun (b : Blk) (q seq : Nat) : Blk :=
  match b.running q seq 1 with
  | none => b
  | some f => b.finish q seq (if zeroAt f.raw 0x10 112 then stOK else stDESC) 0 0

/-- FENCE (R311): it ends once every entry that it captured has completed. -/
def Blk.fenceRun (b : Blk) (q seq : Nat) : Blk :=
  match b.running q seq 2 with
  | none => b
  | some f =>
    if !(zeroAt f.raw 0x10 16 && zeroAt f.raw 0x28 88) then b.finish q seq stDESC 0 0
    else if f.waits.any (fun p => (b.flight? p.1 p.2).isSome) then b
    else b.finish q seq stOK 0 0

def execCopy (q seq : Nat) (s : State) : Out := hubAct s (fun b => b.copyRun q seq)
def execFill (q seq : Nat) (s : State) : Out := hubAct s (fun b => b.fillRun q seq)
def execRelay (q seq : Nat) (s : State) : Out := hubAct s (fun b => b.relayRun q seq)
def execDescCreate (q seq : Nat) (s : State) : Out := hubAct s (fun b => b.createRun q seq)
def execDescDrop (q seq : Nat) (s : State) : Out := hubAct s (fun b => b.dropRun q seq)
def execNop (q seq : Nat) (s : State) : Out := hubAct s (fun b => b.nopRun q seq)
def execFence (q seq : Nat) (s : State) : Out := hubAct s (fun b => b.fenceRun q seq)

end Sys2Proof.Machine
end

