-- ==== Sys2Proof/Machine/MlDsa.lean ====
section
/-! DEFINITION. ML-DSA-65 in its pure form, as FIPS 204 defines it: key generation from a seed (R424),
signing (R325, R426, R431) and verification (R41, R325, R383, R420, R428). The standard is no part of the
spec, which names it: PRESUMED, log 14. Names follow FIPS 204. -/

namespace Sys2Proof.Machine
open Sys2Proof

/-! ### Parameters and the ring -/

def dsaQ : Nat := 8380417
def dsaGamma1 : Nat := 524288
def dsaGamma2 : Nat := 261888
/-- β = τ η. -/
def dsaBeta : Nat := 196
/-- The number of rows k, of columns ℓ, the weight τ of a challenge, and the most hints ω. -/
def dsaK : Nat := 6
def dsaL : Nat := 5
def dsaTau : Nat := 49
def dsaOmega : Nat := 55

/-- 256 coefficients below q. -/
abbrev Poly := List Nat

def addQ (a b : Nat) : Nat := (a + b) % dsaQ
def subQ (a b : Nat) : Nat := (a + dsaQ - b % dsaQ) % dsaQ
def polyAdd (a b : Poly) : Poly := List.zipWith addQ a b
def polySub (a b : Poly) : Poly := List.zipWith subQ a b
/-- The product in the transformed domain. -/
def polyMul (a b : Poly) : Poly := List.zipWith (fun x y => x * y % dsaQ) a b
def polyZero : Poly := List.replicate 256 0

/-- `a` to the power `n` modulo q, by the bits of `n`; `fuel` bounds their number. -/
def powQ : Nat → Nat → Nat → Nat
  | 0, _, _ => 1
  | fuel + 1, a, n => (if n % 2 = 1 then a else 1) * powQ fuel (a * a % dsaQ) (n / 2) % dsaQ

/-- The 8 bits of a number in the opposite order. -/
def bitRev8 (n : Nat) : Nat := (List.range 8).foldl (fun a i => 2 * a + n / 2 ^ i % 2) 0

/-- The transform of FIPS 204, as a recursion on the two halves of a polynomial: node `k` of the tree
multiplies by ζ to the bit-reversed `k`, ζ = 1753, and its children are 2k and 2k + 1. -/
def nttNode : Nat → Nat → Poly → Poly
  | 0, _, p => p
  | d + 1, k, p =>
    let z := powQ 10 1753 (bitRev8 k)
    let a := p.take (2 ^ d)
    let b := (p.drop (2 ^ d)).map (fun x => z * x % dsaQ)
    nttNode d (2 * k) (polyAdd a b) ++ nttNode d (2 * k + 1) (polySub a b)

def ntt (p : Poly) : Poly := nttNode 8 1 p

/-- The inverse of `nttNode`, but for the factor 2 of each level. -/
def nttBack : Nat → Nat → Poly → Poly
  | 0, _, p => p
  | d + 1, k, p =>
    let a := nttBack d (2 * k) (p.take (2 ^ d))
    let b := nttBack d (2 * k + 1) (p.drop (2 ^ d))
    let z := powQ 10 1753 (512 - bitRev8 k)
    polyAdd a b ++ (polySub a b).map (fun x => z * x % dsaQ)

/-- The factor 8347681 is the inverse of 256. -/
def nttInv (p : Poly) : Poly := (nttBack 8 1 p).map (fun x => 8347681 * x % dsaQ)

/-- A matrix of transformed polynomials, by rows, times a vector. -/
def matVec (m : List (List Poly)) (v : List Poly) : List Poly :=
  m.map (fun row => (List.zipWith polyMul row v).foldl polyAdd polyZero)

/-! ### Rounding -/

/-- The residue of `r` modulo an even `m`, centred: above -m/2, at most m/2. -/
def centred (r m : Nat) : Int := if 2 * (r % m) ≤ m then ((r % m : Nat) : Int) else ((r % m : Nat) : Int) - m

/-- The magnitude of a residue modulo q. -/
def magQ (r : Nat) : Nat := min (r % dsaQ) (dsaQ - r % dsaQ)

/-- The residue modulo q of an integer. -/
def ofInt (x : Int) : Nat := (x % dsaQ).toNat

/-- Decompose: the high and low part of a residue, by 2γ2. -/
def decompose (r : Nat) : Nat × Int :=
  let r := r % dsaQ
  let r0 := centred r (2 * dsaGamma2)
  if (r : Int) - r0 = dsaQ - 1 then (0, r0 - 1) else ((((r : Int) - r0) / (2 * dsaGamma2)).toNat, r0)

def highBits (r : Nat) : Nat := (decompose r).1

/-- UseHint. -/
def useHint (h : Bool) (r : Nat) : Nat :=
  let (r1, r0) := decompose r
  if !h then r1 else if 0 < r0 then (r1 + 1) % 16 else (r1 + 15) % 16

/-- MakeHint. -/
def makeHint (z r : Nat) : Bool := highBits r != highBits (addQ r z)

/-! ### Bit packing -/

/-- Numbers of `w` bits each, packed least significant bit first. -/
def packBits (w : Nat) (l : List Nat) : Bytes :=
  leBytes (l.length * w / 8) (l.foldr (fun x a => x % 2 ^ w + 2 ^ w * a) 0)

/-- `n` numbers of `w` bits each out of a number. -/
def splitBits (w : Nat) : Nat → Nat → List Nat
  | 0, _ => []
  | n + 1, x => x % 2 ^ w :: splitBits w n (x / 2 ^ w)

/-- 256 numbers of `w` bits each from the bytes at `off`. -/
def unpackBits (w : Nat) (b : Bytes) (off : Nat) : Poly := splitBits w 256 (fld b off (32 * w))

/-- Coefficients stored as their distance below γ1, in 20 bits. -/
def packZ (p : Poly) : Bytes := packBits 20 (p.map (fun x => subQ dsaGamma1 x))
def unpackZ (b : Bytes) (off : Nat) : Poly := (unpackBits 20 b off).map (fun x => subQ dsaGamma1 x)

/-- HintBitPack. -/
def packHints (h : List (List Bool)) : Bytes :=
  let at' := h.map (fun p => (p.zipIdx.filter (fun x => x.1)).map (fun x => x.2))
  let pos := at'.flatten
  (pos.map (BitVec.ofNat 8)) ++ zeros (dsaOmega - pos.length)
    ++ (List.range dsaK).map (fun i => BitVec.ofNat 8 ((at'.take (i + 1)).flatten.length))

/-- HintBitUnpack; none for a string that no HintBitPack answers. -/
def unpackHints (y : Bytes) : Option (List (List Bool)) :=
  let byte := fun (i : Nat) => (y.getD i 0).toNat
  let ends := (List.range dsaK).map (fun i => byte (dsaOmega + i))
  let part := fun (i : Nat) =>
    let a := if i = 0 then 0 else ends.getD (i - 1) 0
    ((List.range (ends.getD i 0 - a)).map (fun j => byte (a + j)))
  let last := ends.getD (dsaK - 1) 0
  let okEnds := (List.range dsaK).all (fun i => decide (ends.getD i 0 ≤ dsaOmega)
    && (i == 0 || decide (ends.getD (i - 1) 0 ≤ ends.getD i 0)))
  if okEnds && (List.range dsaK).all (fun i => rising (part i)) && zeroAt y last (dsaOmega - last) then
    some ((List.range dsaK).map (fun i => (List.range 256).map (fun j => (part i).contains j)))
  else none

/-! ### Sampling -/

/-- Coefficients below q out of triples of bytes (RejNTTPoly). -/
def threes : Bytes → List Nat
  | a :: b :: c :: t =>
    let z := a.toNat + 256 * b.toNat + 65536 * (c.toNat % 128)
    if z < dsaQ then z :: threes t else threes t
  | _ => []

/-- RejNTTPoly. FIPS 204 lets an implementation read no more than 894 bytes. -/
def rejNtt (seed : Bytes) : Poly := (threes (shake128 seed 894)).take 256

/-- RejBoundedPoly with η = 4: each half byte below 9 gives 4 less it. FIPS 204 lets an implementation read
no more than 481 bytes. -/
def rejBounded (seed : Bytes) : Poly :=
  (((shake256 seed 481).flatMap (fun b => [b.toNat % 16, b.toNat / 16])).filter (fun z => decide (z < 9))
    |>.map (fun z => subQ 4 z)).take 256

/-- ExpandA: the matrix, by rows. -/
def expandA (rho : Bytes) : List (List Poly) :=
  (List.range dsaK).map (fun r => (List.range dsaL).map (fun s => rejNtt (rho ++ leBytes 1 s ++ leBytes 1 r)))

/-- ExpandMask. -/
def expandMask (rho : Bytes) (kappa : Nat) : List Poly :=
  (List.range dsaL).map (fun r => unpackZ (shake256 (rho ++ leBytes 2 (kappa + r)) 640) 0)

/-- One draw of SampleInBall for coefficient `i`: the bytes that are left, and the polynomial. -/
def ballStep (signs : Nat) (x : Bytes × Poly) (i : Nat) : Bytes × Poly :=
  match x.1.dropWhile (fun b => decide (i < b.toNat)) with
  | b :: t => (t, (x.2.set i (x.2.getD b.toNat 0)).set b.toNat
      (if signs.testBit (i + dsaTau - 256) then dsaQ - 1 else 1))
  | [] => x

/-- SampleInBall. FIPS 204 lets an implementation read no more than 221 bytes. -/
def sampleInBall (rho : Bytes) : Poly :=
  let s := shake256 rho 221
  ((List.range dsaTau).foldl (fun x n => ballStep (fld s 0 8) x (256 - dsaTau + n)) (s.drop 8, polyZero)).2

/-! ### Keys -/

/-- What key generation derives: ρ, K, tr, s1, s2, t0, t1. -/
structure DsaKey where
  rho : Bytes
  k : Bytes
  tr : Bytes
  s1 : List Poly
  s2 : List Poly
  t0 : List Poly
  t1 : List Poly
  deriving DecidableEq, Repr

/-- pkEncode. -/
def pkEncode (rho : Bytes) (t1 : List Poly) : Bytes := rho ++ (t1.map (packBits 10)).flatten

/-- ML-DSA.KeyGen_internal. -/
def dsaKeyGen (seed : Bytes) : DsaKey :=
  let h := shake256 (seed ++ leBytes 1 dsaK ++ leBytes 1 dsaL) 128
  let rho := h.take 32
  let short := fun (r : Nat) => rejBounded (bytesAt h 32 64 ++ leBytes 2 r)
  let s1 := (List.range dsaL).map short
  let s2 := (List.range dsaK).map (fun r => short (dsaL + r))
  let t := List.zipWith polyAdd ((matVec (expandA rho) (s1.map ntt)).map nttInv) s2
  let t0 := t.map (fun p => p.map (fun x => ofInt (centred x 8192)))
  let t1 := t.map (fun p => p.map (fun (x : Nat) => (((x : Int) - centred x 8192) / 8192).toNat))
  ⟨rho, h.drop 96, shake256 (pkEncode rho t1) 64, s1, s2, t0, t1⟩

/-- R424 step 4: the public key generated from a seed. -/
def mldsaPublic (seed : Bytes) : Bytes :=
  let k := dsaKeyGen seed
  pkEncode k.rho k.t1

/-! ### Signing and verifying -/

/-- The message representative: the pure form's prefix, the context and the message, after tr. -/
def dsaMu (tr ctx msg : Bytes) : Bytes := shake256 (tr ++ leBytes 1 0 ++ leBytes 1 ctx.length ++ ctx ++ msg) 64

/-- The challenge's seed over the high parts of w. -/
def dsaChallenge (mu : Bytes) (w1 : List Poly) : Bytes := shake256 (mu ++ (w1.map (packBits 4)).flatten) 48

/-- One pass of the signing loop; none where it starts again. -/
def signOnce (k : DsaKey) (a : List (List Poly)) (mu rho : Bytes) (kappa : Nat) : Option Bytes :=
  let y := expandMask rho kappa
  let w := (matVec a (y.map ntt)).map nttInv
  let ct := dsaChallenge mu (w.map (fun p => p.map highBits))
  let c := ntt (sampleInBall ct)
  let times := fun (p : Poly) => nttInv (polyMul c (ntt p))
  let z := List.zipWith polyAdd y (k.s1.map times)
  let r := List.zipWith polySub w (k.s2.map times)
  let ct0 := k.t0.map times
  let hints := List.zipWith (fun r x => List.zipWith (fun r x => makeHint (subQ 0 x) (addQ r x)) r x) r ct0
  let small := fun (l : List Poly) (n : Nat) => l.all (fun p => p.all (fun x => decide (magQ x < n)))
  if small z (dsaGamma1 - dsaBeta) && r.all (fun p => p.all (fun x => decide ((decompose x).2.natAbs < dsaGamma2 - dsaBeta)))
      && small ct0 dsaGamma2 && decide ((hints.map (fun h => h.countP id)).sum ≤ dsaOmega) then
    some (ct ++ (z.map packZ).flatten ++ packHints hints)
  else none

/-- The signing loop, which FIPS 204 lets an implementation end after 814 passes. -/
def signLoop (k : DsaKey) (a : List (List Poly)) (mu rho : Bytes) : Nat → Nat → Bytes
  | 0, _ => zeros 3309
  | fuel + 1, kappa => match signOnce k a mu rho kappa with
    | some s => s
    | none => signLoop k a mu rho fuel (kappa + dsaL)

/-- ML-DSA.Sign by the key of a seed. The 32 bytes that FIPS 204 draws at random are free. -/
def mldsaSign (seed ctx msg : Bytes) : Bytes :=
  let k := dsaKeyGen seed
  let mu := dsaMu k.tr ctx msg
  signLoop k (expandA k.rho) mu (shake256 (k.k ++ bytesAt (Config.signRandom ctx msg) 0 32 ++ mu) 64) 814 0

/-- ML-DSA.Verify. -/
def mldsaVerify (pub ctx msg sig : Bytes) : Bool :=
  let z := (List.range dsaL).map (fun i => unpackZ sig (48 + 640 * i))
  let t1 := (List.range dsaK).map (fun i => unpackBits 10 pub (32 + 320 * i))
  pub.length == 1952 && sig.length == 3309
    && match unpackHints (sig.drop 3248) with
      | none => false
      | some h =>
        let mu := dsaMu (shake256 pub 64) ctx msg
        let c := ntt (sampleInBall (sig.take 48))
        let az := matVec (expandA (pub.take 32)) (z.map ntt)
        let ct1 := t1.map (fun p => polyMul c (ntt (p.map (fun x => 8192 * x % dsaQ))))
        let w := (List.zipWith polySub az ct1).map nttInv
        z.all (fun p => p.all (fun x => decide (magQ x < dsaGamma1 - dsaBeta)))
          && dsaChallenge mu (List.zipWith (List.zipWith useHint) h w) == sig.take 48

end Sys2Proof.Machine
end

