-- ==== Sys2Proof/Machine/Image.lean ====
section
/-! DEFINITION. Layout images (R22 to R42): reading the container, the checks in the order of R42 with
the offset of the failing field, and the structure that an accepted image defines. -/

namespace Sys2Proof.Machine
open Sys2Proof

/-- Why an image is refused (R42): reason, directory index of the section, offset in the image. -/
structure Rej where
  reason : Nat
  sec : Nat
  off : Nat
  deriving DecidableEq, Repr

/-- The refusal that names no field (R42). -/
def Rej.plain (reason : Nat) : Rej := ⟨reason, 0xFF, 0xFFFFFFFF⟩

/-- A directory entry (R23): tag, offset, length. -/
structure DirEnt where
  tag : Nat
  off : Nat
  len : Nat
  deriving DecidableEq, Repr

/-- A list of tests in field order: whether the test fails, and the offset it concerns. -/
abbrev Tests := List (Bool × Nat)

/-- The offset of the first failing test. -/
def firstFail (t : Tests) : Option Nat := (t.find? (fun p => p.1)).map (fun p => p.2)

/-- The numeric tag of four ASCII characters. -/
def tagOf (s : String) : Nat := leNat (ascii s)

def tHEAD : Nat := tagOf "HEAD"
def tREGN : Nat := tagOf "REGN"
def tUNIT : Nat := tagOf "UNIT"
def tBUDG : Nat := tagOf "BUDG"
def tPRIO : Nat := tagOf "PRIO"
def tLINK : Nat := tagOf "LINK"
def tROUT : Nat := tagOf "ROUT"
def tPOWR : Nat := tagOf "POWR"
def tTABL : Nat := tagOf "TABL"
def tSIGN : Nat := tagOf "SIGN"

def imageDir (img : Bytes) : List DirEnt :=
  (List.range (fld img 6 2)).map (fun i => ⟨fld img (16 + 16 * i) 4, fld img (20 + 16 * i) 4, fld img (24 + 16 * i) 4⟩)

/-- The bytes of a section, and its directory index. -/
def secOf (img : Bytes) (tag : Nat) : Option (Nat × DirEnt × Bytes) :=
  let d := imageDir img
  match d.findIdx? (fun e => e.tag == tag) with
  | none => none
  | some i =>
    let e := d.getD i ⟨0, 0, 0⟩
    some (i, e, bytesAt img e.off e.len)

def secBytes (img : Bytes) (tag : Nat) : Bytes := ((secOf img tag).map (fun p => p.2.2)).getD []

/-- Check 2 of R42. -/
def chkContainer (img : Bytes) (len : Nat) : Tests :=
  let t := fld img 8 4
  [(img.take 4 != ascii "RLGI", 0), (fld img 4 2 != 2, 4),
   (t != len || t % 64 != 0 || decide (0x400000 < t), 8), (fld img 12 4 != 0, 12)]

/-- Positions of the nonzero bytes of a string, from position `i`. -/
def nonzeroFrom (i : Nat) : Bytes → List Nat
  | [] => []
  | v :: t => if v = 0 then nonzeroFrom (i + 1) t else i :: nonzeroFrom (i + 1) t

/-- Check 3 of R42: the directory by R22 to R24. A section count outside 7 to 10, and mandatory or paired sections
that are missing, are reported at offset 6: DESIGN CHOICE, log 72. -/
def chkDirectory (img : Bytes) : Tests :=
  let n := fld img 6 2
  let total := fld img 8 4
  let d := imageDir img
  let tags := d.map DirEnt.tag
  let known := [tHEAD, tREGN, tUNIT, tBUDG, tPRIO, tLINK, tROUT, tPOWR, tTABL, tSIGN]
  let ends := 16 + 16 * n
  let entry := fun (i : Nat) =>
    let e := d.getD i ⟨0, 0, 0⟩
    let o := 16 + 16 * i
    let before := d.take i
    [ (!known.contains e.tag || (before.map DirEnt.tag).contains e.tag, o),
      (e.tag == tSIGN && i + 1 != n, o),
      (e.off % 64 != 0 || decide (e.off < ends) || before.any (fun f => overlap e.off e.len f.off f.len), o + 4),
      (decide (total < e.off + e.len) || (e.tag == tHEAD && e.len != 64) || (e.tag == tSIGN && e.len != 3392)
        || (e.tag == tSIGN && e.off + e.len != total), o + 8),
      (fld img (o + 12) 4 != 0, o + 12) ]
  let missing := [tHEAD, tREGN, tUNIT, tBUDG, tPRIO, tPOWR, tSIGN].any (fun t => !tags.contains t)
  let stray := (nonzeroFrom 0 img).filter (fun i => decide (ends ≤ i) && d.all (fun e => !inside i 1 e.off e.len))
  [(decide (n < 7) || decide (10 < n), 6)] ++ ((List.range n).map entry).flatten
    ++ [(missing || tags.contains tLINK != tags.contains tROUT, 6)] ++ stray.map (fun i => (true, i))

/-- Check 4 of R42. -/
def chkTarget (h : Bytes) : Tests :=
  [(bytesAt h 8 16 != ascii "CRL2-768-L" ++ zeros 6, 8), (fld h 0x18 1 != 0xB0, 0x18), (fld h 0x19 1 != 0x43, 0x19)]

/-- A run of bytes that must be zero, as one test at its first nonzero byte. -/
def zeroRun (b : Bytes) (off len : Nat) : Bool × Nat :=
  match nonzeroFrom off ((b.drop off).take len) with
  | [] => (false, off)
  | i :: _ => (true, i)

/-- Check 10 of R42: the fields that the tables mark reserved, section by section. -/
def chkReserved (tag : Nat) (s : Bytes) : Tests :=
  if tag = tHEAD then [zeroRun s 0 4, zeroRun s 0x24 28]
  else if tag = tREGN then
    [zeroRun s 2 2, zeroRun s 8 8] ++ ((List.range (fld s 0 2)).map (fun i =>
      [zeroRun s (16 + 48 * i + 3) 5, zeroRun s (16 + 48 * i + 0x27) 1, zeroRun s (16 + 48 * i + 0x2C) 4])).flatten
  else if tag = tUNIT then (List.range 192).map (fun i => zeroRun s (0xD0 + 8 * i + 5) 3)
  else if tag = tBUDG then (List.range 16).map (fun i => zeroRun s (16 * i + 12) 4)
  else if tag = tLINK then (List.range 32).map (fun i => zeroRun s (16 * i + 5) 3)
  else if tag = tROUT then [zeroRun s 2 2, zeroRun s 0xB 1, zeroRun s 0x15 11]
  else if tag = tPOWR then
    [((fld s 8 4) / 16 != 0, 8), zeroRun s 0xC 4, zeroRun s 0x38 8]
  else if tag = tTABL then
    zeroRun s 4 4 :: (List.range (fld s 0 4)).map (fun i => zeroRun s (8 + 40 * i + 5) 3)
  else if tag = tSIGN then [zeroRun s 3381 11]
  else []

/-! ### Reading the sections -/

def regionAt (s : Bytes) (i : Nat) : Region :=
  let o := 16 + 48 * i
  { id := fld s o 2, flags := fld s (o + 2) 1, owners := fld s (o + 8) 8, base := fld s (o + 0x10) 8,
    len := fld s (o + 0x18) 8, stackSet := fld s (o + 0x20) 2, dies := fld s (o + 0x22) 2,
    chans := fld s (o + 0x24) 1, pairFirst := fld s (o + 0x25) 1, pairCount := fld s (o + 0x26) 1,
    rowFirst := fld s (o + 0x28) 2, rowCount := fld s (o + 0x2A) 2 }

def linkAt (s : Bytes) (i : Nat) : LinkEnt :=
  let o := 16 * i
  ⟨fld s o 1, fld s (o + 1) 1, fld s (o + 2) 2, fld s (o + 4) 1, fld s (o + 8) 8⟩

def routOf (s : Bytes) (herd : Nat) : Rout where
  mode := fld s 0 1
  dims := fld s 1 1
  size := [fld s 4 2, fld s 6 2, fld s 8 2]
  wrap := fld s 0xA 1
  coord := [fld s 0xC 2, fld s 0xE 2, fld s 0x10 2]
  order := [fld s 0x12 1, fld s 0x13 1, fld s 0x14 1]
  table := if fld s 0 1 = 1 then (List.range herd).map (fun i => fld s (0x20 + 4 * i) 4) else []

def tablAt (s : Bytes) (i : Nat) : TablEnt :=
  let o := 8 + 40 * i
  ⟨fld s o 2, fld s (o + 2) 1, fld s (o + 3) 1, fld s (o + 4) 1, bytesAt s (o + 8) 32⟩

/-- The structure that an image's sections define. -/
def strucOf (img : Bytes) : Struc :=
  let h := secBytes img tHEAD
  let r := secBytes img tREGN
  let u := secBytes img tUNIT
  let bu := secBytes img tBUDG
  let pr := secBytes img tPRIO
  let pw := secBytes img tPOWR
  let sg := secBytes img tSIGN
  let tb := secBytes img tTABL
  let nR := fld r 0 2
  { gen := fld h 4 4, modNum := fld h 0x1C 2, herdSize := fld h 0x1E 2, toolId := fld h 0x20 4
    regions := (List.range nR).map (regionAt r)
    retired := (List.range (fld r 4 4)).map (fun i => fld r (16 + 48 * nR + 4 * i) 4)
    hubOrder := (List.range 16).map (fun i => fld u i 1)
    dieOrder := (List.range 16).map (fun s => (List.range 12).map (fun d => fld u (0x10 + 12 * s + d) 1))
    slots := (List.range 192).map (fun i => (fld u (0xD0 + 8 * i) 4, fld u (0xD0 + 8 * i + 4) 1))
    budgets := (List.range 16).map (fun s => (List.range 6).map (fun c => fld bu (16 * s + 2 * c) 2))
    prio := (List.range 12).map (fun p => (List.range 6).map (fun c => fld pr (6 * p + c) 1))
    links := match secOf img tLINK with
      | some (_, _, s) => (List.range 32).map (linkAt s)
      | none => []
    rout := (secOf img tROUT).map (fun p => routOf p.2.2 (fld h 0x1E 2))
    runDoze := fld pw 0 4, dozeWatch := fld pw 4 4, wakeSrc := fld pw 8 4
    groups := (List.range 16).map (fun i => fld pw (0x10 + i) 1)
    retain := fld pw 0x20 24
    tabl := if tb.isEmpty then [] else (List.range (fld tb 0 4)).map (tablAt tb)
    keyFp := fld sg 0 8, digest := bytesAt sg 8 64 }

/-! ### Section checks 11 to 17 -/

/-- The bank-local product of R27. -/
def Region.localBytes (r : Region) : Nat :=
  popc r.stackSet 16 * popc r.dies 12 * popc r.chans 2 * r.pairCount * 2 * r.rowCount * 2048

/-- R27: two bank-local regions name the same row of the same bank. -/
def Region.sameRow (a c : Region) : Bool :=
  a.isLocal && c.isLocal && (a.stackSet &&& c.stackSet) != 0 && (a.dies &&& c.dies) != 0 && (a.chans &&& c.chans) != 0
    && overlap a.pairFirst a.pairCount c.pairFirst c.pairCount && overlap a.rowFirst a.rowCount c.rowFirst c.rowCount

/-- R65: an interleaved region holds a segment whose rows a bank-local region names. -/
def Region.clashes (i l : Region) : Bool :=
  if i.isLocal || !l.isLocal then false
  else
    let chs := (List.range 384).filter (fun n =>
      l.stackSet.testBit (n / 24) && l.dies.testBit (n % 24 / 2) && l.chans.testBit (n % 2))
    let thirds := (chs.map (· / 128)).eraseDups
    let banks8 := ((List.range l.pairCount).map (fun p => (l.pairFirst + p) / 4)).eraseDups
    (List.range l.rowCount).any (fun k =>
      let row := l.rowFirst + k
      banks8.any (fun b8 => thirds.any (fun s =>
        let t := row * 4 + (b8 ^^^ (row % 32 / 8))
        overlap ((3 * t + s) * 0x200000) 0x200000 i.base i.len)))

/-- Check 11 of R42. Bits of die_mask above bit 11 and of channel_mask above bit 1 must be zero: DESIGN CHOICE,
log 77. -/
def chkRegn (s : Bytes) : Tests :=
  let n := fld s 0 2
  let m := fld s 4 4
  if decide (n < 1) || decide (4096 < n) then [(true, 0)]
  else if decide (65536 < m) || decide (s.length < 16 + 48 * n + 4 * m) then [(true, 4)]
  else
    let rs := (List.range n).map (regionAt s)
    let one := fun (i : Nat) =>
      let r := rs.getD i ⟨0, 0, 0, 0, 0, 0, 0, 0, 0, 0, 0, 0⟩
      let o := 16 + 48 * i
      let before := rs.take i
      [ ((before.map Region.id).contains r.id, o),
        (decide (15 < r.flags) || (!r.isOpen && r.isLayer), o + 2),
        (r.owners == 0, o + 8),
        (r.base % 0x200000 != 0 || before.any (fun q => overlap q.base q.len r.base r.len)
          || rs.any (fun q => Region.clashes r q), o + 0x10),
        (r.len % 0x200000 != 0 || r.len == 0 || decide (dramBytes < r.base + r.len)
          || (r.isLocal && r.len != r.localBytes), o + 0x18) ]
      ++ (if r.isLocal then
          [ (r.stackSet == 0, o + 0x20), (r.dies == 0 || decide (4095 < r.dies), o + 0x22),
            (r.chans == 0 || decide (3 < r.chans), o + 0x24), (decide (15 < r.pairFirst), o + 0x25),
            (r.pairCount == 0 || decide (16 < r.pairFirst + r.pairCount), o + 0x26),
            (decide (32767 < r.rowFirst) || before.any (fun q => q.sameRow r), o + 0x28),
            (r.rowCount == 0 || decide (32768 < r.rowFirst + r.rowCount), o + 0x2A) ]
        else [zeroRun s (o + 0x20) 16])
    let rets := (List.range m).map (fun i => fld s (16 + 48 * n + 4 * i) 4)
    let retOne := fun (i : Nat) =>
      let v := rets.getD i 0
      (decide (2 ^ 29 ≤ v) || decide (11 < bits v 24 21) || (decide (0 < i) && decide (v ≤ rets.getD (i - 1) 0)),
        16 + 48 * n + 4 * i)
    ((List.range n).map one).flatten ++ (List.range m).map retOne ++ [zeroRun s (16 + 48 * n + 4 * m) s.length]

/-- Check 12 of R42. -/
def chkUnit (s : Bytes) : Tests :=
  if s.length < 0xD0 + 1536 then [(true, 0)]
  else
    [(!isPerm ((List.range 16).map (fun i => fld s i 1)) 16, 0)]
    ++ (List.range 16).map (fun k => (!isPerm ((List.range 12).map (fun d => fld s (0x10 + 12 * k + d) 1)) 12, 0x10 + 12 * k))
    ++ (List.range 192).map (fun i =>
        let c := fld s (0xD0 + 8 * i + 4) 1
        (decide (16 < c) || decide (popc (fld s (0xD0 + 8 * i) 4) 32 < c), 0xD0 + 8 * i + 4))
    ++ [zeroRun s (0xD0 + 1536) s.length]

/-- R32 on six budgets in class order. -/
def budgetsOk (l : List Nat) : Bool := decide (l.foldl (· + ·) 0 ≤ 1024) && decide (32 ≤ l.getD 0 0)

/-- Check 13 of R42. A section may be longer than its content, here and in REGN, UNIT, PRIO, LINK, ROUT and TABL; a
byte that is not zero after the content is refused with the section's own reason: DESIGN CHOICE, log 74. -/
def chkBudg (s : Bytes) : Tests :=
  if s.length < 256 then [(true, 0)]
  else (List.range 16).map (fun k => (!budgetsOk ((List.range 6).map (fun c => fld s (16 * k + 2 * c) 2)), 16 * k))
    ++ [zeroRun s 256 s.length]

/-- Check 14 of R42. -/
def chkPrio (s : Bytes) : Tests :=
  if s.length < 96 then [(true, 0)]
  else (List.range 72).map (fun i => (decide (7 < fld s i 1), i)) ++ [zeroRun s 72 24, zeroRun s 96 s.length]

/-- Check 15 of R42, HEAD part (R25). -/
def chkHead (h : Bytes) : Tests :=
  let m := fld h 0x1C 2
  let n := fld h 0x1E 2
  [(decide (8191 < m) || decide (n ≤ m), 0x1C), (decide (n < 1) || decide (8192 < n), 0x1E)]

/-- Check 15 of R42, LINK part (R34, R35). The ranges of neighbour_module and neighbour_link are checked for enabled
links only: DESIGN CHOICE, log 76. -/
def chkLink (s : Bytes) (modNum : Nat) : Tests :=
  if s.length < 512 then [(true, 0)]
  else
    let ls := (List.range 32).map (linkAt s)
    ((List.range 32).map (fun i =>
      let l := ls.getD i ⟨0xFF, 0, 0, 0, 0⟩
      let o := 16 * i
      let on := l.bundle != 0xFF
      [ (decide (5 < l.bundle) && l.bundle != 0xFE && on, o), (decide (1 < l.flags), o + 1),
        (on && (l.nbModule == modNum || decide (8191 < l.nbModule)), o + 2),
        (on && (decide (31 < l.nbLink)
          || (ls.take i).any (fun k => k.bundle != 0xFF && k.nbModule == l.nbModule && k.nbLink == l.nbLink)), o + 4) ])).flatten
    ++ [zeroRun s 512 s.length]

/-- Check 15 of R42, ROUT part (R36, R37). Wrap bits at or above dims are refused: DESIGN CHOICE, log 75. -/
def chkRout (s links : Bytes) (modNum herd : Nat) : Tests :=
  let r := routOf s herd
  let ls := (List.range 32).map (linkAt links)
  let bundleOn := fun (d : Nat) => ls.any (fun l => l.bundle == d)
  let sz := fun (d : Nat) => r.size.getD d 1
  let co := fun (d : Nat) => r.coord.getD d 0
  if s.length < 0x20 then [(true, 0)]
  else if r.mode = 0 then
    [ (decide (r.dims < 1) || decide (3 < r.dims), 1) ]
    ++ (List.range 3).map (fun d => (sz d == 0 || (decide (r.dims ≤ d) && sz d != 1), 4 + 2 * d))
    ++ [ (sz 0 * sz 1 * sz 2 != herd, 4), (decide (2 ^ r.dims ≤ r.wrap), 0xA) ]
    ++ (List.range 3).map (fun d => (decide (sz d ≤ co d), 0xC + 2 * d))
    ++ [ (modNum != co 0 + sz 0 * (co 1 + sz 1 * co 2), 0xC),
         (!isPerm (r.order.take r.dims) r.dims, 0x12) ]
    ++ (List.range r.dims).map (fun d =>
        -- a dimension of more than one module needs a link each way that has a neighbour
        let plus := decide (1 < sz d) && (r.wrap.testBit d || decide (co d + 1 < sz d))
        let minus := decide (1 < sz d) && (r.wrap.testBit d || decide (0 < co d))
        ((plus && !bundleOn (2 * d)) || (minus && !bundleOn (2 * d + 1)), 1))
    ++ [zeroRun s 0x20 s.length]
  else if r.mode = 1 then
    if s.length < 0x20 + 4 * herd then [(true, 0)]
    else
      (List.range herd).map (fun i =>
        let m := r.table.getD i 0
        (if i = modNum then m != 0
         else (List.range 32).any (fun k => m.testBit k && (ls.getD k ⟨0xFF, 0, 0, 0, 0⟩).bundle == 0xFF), 0x20 + 4 * i))
      ++ [zeroRun s (0x20 + 4 * herd) s.length]
  else [(true, 0)]

/-- R38: the ranges of the two timers. -/
def runDozeOk (v : Nat) : Bool := decide (20 ≤ v) && decide (v ≤ 1000000)
def dozeWatchOk (v : Nat) : Bool := v == 0 || (decide (10 ≤ v) && decide (v ≤ 86400000))

/-- Check 16 of R42. -/
def chkPowr (s : Bytes) : Tests :=
  if s.length != 64 then [(true, 0)]
  else [(!runDozeOk (fld s 0 4), 0), (!dozeWatchOk (fld s 4 4), 4)]
    ++ (List.range 16).map (fun i => (decide (3 < fld s (0x10 + i) 1), 0x10 + i))
    ++ [(decide (16 < popc (fld s 0x20 24) 192), 0x20)]

/-- Check 17 of R42. -/
def chkTabl (s : Bytes) : Tests :=
  let n := fld s 0 4
  if decide (s.length < 8) || decide (s.length < 8 + 40 * n) then [(true, 0)]
  else ((List.range n).map (fun i =>
      let e := tablAt s i
      let o := 8 + 40 * i
      [(decide (6143 < e.unit) && e.unit != 0xFFFF, o), (decide (1 < e.kind), o + 2), (decide (1 < e.bank), o + 3)])).flatten
    ++ [zeroRun s (8 + 40 * n) s.length]

/-! ### The whole check -/

/-- R41: the first 8 bytes of the SHAKE256 digest of a public key, as a number. -/
def keyFp (pub : Bytes) : Nat := leNat (shake256 pub 8)

/-- Applies a section's tests; a failure names the section and the offset in the image. -/
def secFail (img : Bytes) (tag reason : Nat) (f : Bytes → Tests) : Option Rej :=
  match secOf img tag with
  | none => none
  | some (i, e, s) => (firstFail (f s)).map (fun o => ⟨reason, i, e.off + o⟩)

/-- The first failure of a list of checks. -/
def firstRej : List (Option Rej) → Option Rej
  | [] => none
  | some r :: _ => some r
  | none :: t => firstRej t

/-- What R42 compares an image with: enrolled keys, generation and digest in effect, floor, and the
running firmware version. -/
structure ImgCtx where
  keys : List Bytes
  gen : Nat
  digest : Bytes
  floor : Nat
  fw : Nat
  /-- whether check 8 applies; at start-up it does not (R49) -/
  useGen : Bool
  deriving DecidableEq, Repr

/-- Checks 2 to 17 of R42 in order. Check 10 visits the sections in the order of their tags, HEAD first and SIGN last,
which decides the offset that is reported where several fail: DESIGN CHOICE, log 73. -/
def imageCheck (c : ImgCtx) (img : Bytes) (len : Nat) : Option Rej :=
  match firstFail (chkContainer img len) with
  | some o => some ⟨1, 0xFF, o⟩
  | none =>
  match firstFail (chkDirectory img) with
  | some o => some ⟨2, 0xFF, o⟩
  | none =>
  let sg := secBytes img tSIGN
  let signOff := img.length - 3392
  let h := secBytes img tHEAD
  let pub := c.keys.find? (fun k => keyFp k == fld sg 0 8)
  let gen := fld h 4 4
  let fabric := firstRej [secFail img tHEAD 0x14 chkHead,
    secFail img tLINK 0x14 (fun s => chkLink s (fld h 0x1C 2)),
    secFail img tROUT 0x14 (fun s => chkRout s (secBytes img tLINK) (fld h 0x1C 2) (fld h 0x1E 2))]
  firstRej [
    secFail img tHEAD 3 chkTarget,
    (match pub with
      | none => secFail img tSIGN 4 (fun _ => [(true, 0)])
      | some _ => none),
    (if shake256 (img.take signOff) 64 != bytesAt sg 8 64 then secFail img tSIGN 5 (fun _ => [(true, 8)]) else none),
    (if mldsaVerify (pub.getD []) (ascii "CRL2-LAYOUT") (bytesAt sg 8 64) (bytesAt sg 0x48 3309) then none
      else secFail img tSIGN 6 (fun _ => [(true, 0x48)])),
    (if c.useGen && !((decide (c.gen < gen) && decide (c.floor < gen)) || (gen == c.gen && bytesAt sg 8 64 == c.digest))
      then secFail img tHEAD 7 (fun _ => [(true, 4)])
      else if gen = 0 then secFail img tHEAD 7 (fun _ => [(true, 4)]) else none),
    (if c.fw < fld h 0x1A 2 then secFail img tHEAD 8 (fun _ => [(true, 0x1A)]) else none),
    firstRej ([tHEAD, tREGN, tUNIT, tBUDG, tPRIO, tLINK, tROUT, tPOWR, tTABL, tSIGN].map
      (fun t => secFail img t 9 (chkReserved t))),
    secFail img tREGN 0x10 chkRegn, secFail img tUNIT 0x11 chkUnit, secFail img tBUDG 0x12 chkBudg,
    secFail img tPRIO 0x13 chkPrio, fabric, secFail img tPOWR 0x15 chkPowr, secFail img tTABL 0x16 chkTabl ]

/-! ### The registers that a structure sets -/

/-- Six priorities of a port packed as SC_PRIO (R116). -/
def packPrio (l : List Nat) : Nat :=
  (List.range 6).foldl (fun a c => a + l.getD c 0 * 2 ^ (3 * c)) 0

/-- Every RWC register of STACKCTL and POWER with the value a structure gives it, and the three
that return to their reset values (R56, R116, R378). -/
def strucRegs (st : Struc) : List (Nat × Nat) :=
  ((List.range 16).map (fun s =>
    let o := bSC s
    let bd := st.budgets.getD s []
    let n := fun i => bd.getD i 0
    [(o + 0x10, n 0 + n 1 * 65536), (o + 0x14, n 2 + n 3 * 65536), (o + 0x18, n 4 + n 5 * 65536),
     (o + 0x90, 0x3010), (o + 0x94, 0x20), (o + 0x98, 0x5A0)]
    ++ (List.range 12).map (fun p => (o + 0x20 + 4 * p, packPrio (st.prio.getD p [])))
    ++ (List.range 12).map (fun d => (o + 0x50 + 4 * d, (st.slots.getD (12 * s + d) (0, 0)).1))
    ++ (List.range 3).map (fun i => (o + 0x80 + 4 * i,
        (List.range 4).foldl (fun a k => a + (st.slots.getD (12 * s + 4 * i + k) (0, 0)).2 * 2 ^ (8 * k)) 0)))).flatten
  ++ [(bPOWER + 0x10, st.runDoze), (bPOWER + 0x14, st.dozeWatch), (bPOWER + 0x18, st.wakeSrc),
      (bPOWER + 0x1C, (List.range 16).foldl (fun a s => a + st.groups.getD s 0 * 2 ^ (2 * s)) 0)]
  ++ (List.range 6).map (fun i => (bPOWER + 0x20 + 4 * i, bits st.retain (32 * i + 31) (32 * i)))

/-- Sets shadow and value in effect of every structure register. -/
def Blk.loadStruc (b : Blk) (st : Struc) : Blk :=
  (strucRegs st).foldl (fun x p => (x.setReg p.1 p.2).setReg (p.1 + 0x800) p.2) { b with struc := st }

end Sys2Proof.Machine
end

