-- ==== Sys2Proof/Machine/Entry.lean ====
section
/-! DEFINITION. The window and its slots (R285 to R294), the start and completion of entries (R302,
R309 to R313), doorbells and rings (R300, R301, R306, R307), and the host attachment (R317 to R320). -/

namespace Sys2Proof.Machine
open Sys2Proof

/-! ### Slots (R291 to R294) -/

/-- The window's accesses: port 0, hub traffic (R285). -/
def rqWin : Req := ⟨0, cHub, none, pHOST⟩
/-- The module's own accesses to slot headers. -/
def rqSlot : Req := ⟨0, cHub, none, pINT⟩

/-- R290: a slot's owner: the mirror, or the owner byte in memory. -/
def Blk.slotOwner (b : Blk) (i : Nat) : Blk × Nat :=
  match b.win.mirror.find? (fun p => p.1 == i) with
  | some p => (b, p.2)
  | none =>
    let r := readRange b rqSlot (b.slotBase i) 1
    let o := (r.data.getD 0 0).toNat
    ({ r.b with win := { r.b.win with mirror := tset i o r.b.win.mirror } }, o)

/-- R292: a new owner, with the generation advanced in the same write. -/
def Blk.setOwner (b : Blk) (i new : Nat) : Blk :=
  let a := b.slotBase i
  let r := readRange b rqSlot a 8
  let g := leBytes 4 (fld r.data 4 4 + 1)
  let b := (writeRange r.b rqSlot a (leBytes 1 new ++ bytesAt r.data 1 3 ++ g)).1
  { b with win := { b.win with
      mirror := tset i new b.win.mirror
      violated := b.win.violated.filter (· != i)
      verified := b.win.verified.filter (· != i)
      written := tdel i b.win.written } }

/-! ### SRAM errors (R87, R410) -/

/-- R410: 24 h in ticks of 1.024 µs. -/
def ticksDay : Nat := 84375000000

/-- R87, R410: an operation meets a double-bit error of a buffer; the third within one 4 KiB of the buffer in
24 h is a module fault. -/
def Blk.sramHit (b : Blk) (qp : Option Nat) (path buf off : Nat) : Blk :=
  let now := b.time.toNat
  let log := (buf, off / 4096, now) :: b.mem.sramLog.filter (fun x => decide (now < x.2.2 + ticksDay))
  let b := { b with mem := { b.mem with sramBad := none, sramLog := log } }
  let b := b.logE kSRAM { qp := qp, status := stUNCORR, path := path, addr := some off, detail := buf }
  if 3 ≤ (log.filter (fun x => x.1 == buf && x.2.1 == off / 4096)).length then b.moduleFault (kSRAM % 256) else b

/-- Slots whose payload a span of module memory touches (R294). -/
def Blk.slotsTouched (b : Blk) (spans : List Span) : List Nat :=
  if !b.slotsOn then []
  else (List.range b.winSlots).filter (fun i => spans.any (fun s => overlap s.1 s.2 (b.slotBase i + 0x40) (b.slotSize - 0x40)))

/-- R294 checksum of a MODULE slot. -/
def Blk.slotGood (b : Blk) (i : Nat) : Blk × Bool :=
  let h := readRange b rqSlot (b.slotBase i) 0x40
  if !((h.data.getD 1 0).toNat.testBit 0) then (h.b, true)
  else
    let n := min (fld h.data 8 4) (b.slotSize - 0x40)
    let p := readRange h.b rqSlot (b.slotBase i + 0x40) n
    (p.b, p.st == stOK && crc32c p.data == fld h.data 0xC 4)

/-- R294 start: 0, RANGE or CHECK_FAIL for an entry that touches slots. -/
def Blk.slotCheck (b : Blk) (f : Flight) : List Nat → Blk × Nat
  | [] => (b, stOK)
  | i :: t =>
    let (b, o) := b.slotOwner i
    let peer := f.path == pFAB || f.path == pNET
    if !(o == 2 || (peer && o == 3)) then (b, stRANGE)
    else
      let touches := b.slotsTouched f.reads
      if o == 2 && touches.contains i && !b.win.verified.contains i then
        let (b, good) := b.slotGood i
        let b := { b with win := { b.win with verified := i :: b.win.verified } }
        if good then b.slotCheck f t else (b, stCHECK)
      else b.slotCheck f t

/-- R294 release of one slot. -/
def Blk.slotRelease (b : Blk) (i : Nat) : Blk :=
  let (b, o) := b.slotOwner i
  if o != 2 then b
  else
    let w := tget 0 i b.win.written
    let b := if w = 0 then b
      else
        let h := readRange b rqSlot (b.slotBase i) 0x40
        let p := readRange h.b rqSlot (b.slotBase i + 0x40) w
        let sum := if (h.data.getD 1 0).toNat.testBit 0 then leBytes 4 (crc32c p.data) else bytesAt h.data 0xC 4
        (writeRange p.b rqSlot (b.slotBase i + 8) (leBytes 4 w ++ sum)).1
    b.setOwner i (if b.att.phase = .detached then 0 else 1)

/-- R294: releases the slots that no other entry in flight touches. -/
def Blk.slotsDone (b : Blk) (f : Flight) : Blk :=
  (f.slots.filter (fun i => b.flights.all (fun g => g.is f.q f.seq || g.stage == .accepted || !g.slots.contains i))).foldl
    Blk.slotRelease b

/-! ### The window (R285 to R288, R293) -/

/-- A range access outside every region, in a retired segment or above the last MPA (R286). -/
def Blk.winRange (b : Blk) (mpa : Nat) : Blk :=
  ((b.logE kWIN_RANGE { port := some 0, path := pHOST, addr := some mpa }).incReg (bWINDOW + 0x18)).winEvent 0

/-- The pieces of a range: those that reach cells, quarter by quarter or group by group, and others. -/
def winPieces (b : Blk) : Nat → Nat → Nat → List (Nat × Nat × Bool)
  | 0, _, _ => []
  | fuel + 1, mpa, len =>
    if len = 0 then []
    else
      let r := (b.reach mpa).isSome
      let n := min len (if r then pieceLen b mpa else 64 - mpa % 64)
      (mpa, n, r) :: winPieces b fuel (mpa + n) (len - n)

/-- R286: a window read: data, and the offsets of refused bytes. -/
def Blk.winReadNow (b : Blk) (off len base : Nat) : Blk :=
  let ps := winPieces b (len / 64 + 2) (base + off) len
  let b := b.chargeRange cHub (base + off) len false
  let (b, d, bad) := ps.foldl (fun (a : Blk × Bytes × List Nat) p =>
    if !p.2.2 then (a.1, a.2.1 ++ List.replicate p.2.1 0xFF, a.2.2)
    else
      let r := readPiece a.1 rqWin p.1 p.2.1
      if r.st != stOK then
        (r.b, a.2.1 ++ List.replicate p.2.1 0xFF, a.2.2 ++ (List.range p.2.1).map (a.2.1.length + ·))
      else (r.b, a.2.1 ++ r.data, a.2.2)) (b, [], [])
  let b := match ps.find? (fun p => !p.2.2) with | some p => b.winRange p.1 | none => b
  -- R87: a double-bit error of the buffers fails the whole read
  let (b, d, bad) := match b.mem.sramBad with
    | some (buf, o) => (b.sramHit none pHOST buf o, List.replicate len 0xFF, List.range len)
    | none => (b, d, bad)
  let b := if bad.isEmpty then b else b.winEvent 2
  b.send (.winRead off d bad)

/-- Whether an access to window bytes waits, and why (R81, R101, R108, R457). -/
def Blk.winWaits (b : Blk) (mpa len : Nat) : Bool := b.mustWait cHub mpa len

/-- Whether a write through the window waits: for its bytes, or for the header of a slot that it touches. -/
def Blk.winWriteWaits (b : Blk) (off len base : Nat) : Bool :=
  b.winWaits (base + off) len
    || (b.slotsOn && (List.range b.winSlots).any (fun i =>
      overlap (base + off) len (b.slotBase i) b.slotSize && b.mustWait cHub (b.slotBase i) 8))

def Blk.hold (b : Blk) (r : HeldReq) : Blk := { b with held := b.held ++ [r] }

def Blk.winRead (b : Blk) (off len base : Nat) : Blk :=
  if b.winWaits (base + off) len then (b.askExit (base + off) len).hold (.winRead off len base) else b.winReadNow off len base

/-- The slot and the offset in it of a window offset. -/
def Blk.slotAt (b : Blk) (off : Nat) : Option (Nat × Nat) :=
  if b.slotsOn && decide (b.slotArea ≤ off) && decide (off < b.slotArea + b.winSlots * b.slotSize)
  then some ((off - b.slotArea) / b.slotSize, (off - b.slotArea) % b.slotSize) else none

/-- R293: one discarded write to a slot. -/
def Blk.slotViolation (b : Blk) (i mpa : Nat) : Blk :=
  let b := (b.incReg (bWINDOW + 0x14)).winEvent 1
  if b.win.violated.contains i then b
  else
    let b := b.logE kWIN_SLOT { port := some 0, path := pHOST, addr := some mpa }
    { b with win := { b.win with violated := i :: b.win.violated } }

/-- R292: owner changes that the host may make. -/
def hostMay (o n : Nat) : Bool := (o == 0 && n == 1) || (o == 1 && (n == 2 || n == 3 || n == 0 || n == 1))

/-- Cuts a write at slot boundaries. -/
def slotCuts (b : Blk) : Nat → Nat → Bytes → List (Nat × Bytes)
  | 0, _, _ => []
  | fuel + 1, off, d =>
    if d.isEmpty then []
    else
      let edge := match b.slotAt off with
        | some (_, x) => b.slotSize - x
        | none => if b.slotsOn && decide (off < b.slotArea) then b.slotArea - off else d.length
      (off, d.take edge) :: slotCuts b fuel (off + edge) (d.drop edge)

/-- Writes bytes through the window, outside the rules of slots (R286). -/
def Blk.winPut (b : Blk) (mpa : Nat) (d : Bytes) : Blk :=
  let ps := winPieces b (d.length / 64 + 2) mpa d.length
  let b := b.chargeRange cHub mpa d.length true
  let b := ps.foldl (fun (b : Blk) p => if p.2.2 then (writePiece b rqWin p.1 (bytesAt d (p.1 - mpa) p.2.1)).1 else b) b
  match ps.find? (fun p => !p.2.2) with | some p => b.winRange p.1 | none => b

/-- One cut of a write that lies in slot i from slot offset x on (R292, R293). -/
def Blk.winSlotWrite (b : Blk) (i x mpa : Nat) (d : Bytes) : Blk :=
  let (b, o) := b.slotOwner i
  let own := decide (x = 0)
  let new := (d.getD 0 0).toNat
  -- bytes beside the owner byte; the generation is the module's (R292)
  let rest := if own then d.drop 1 else d
  let at' := if own then 1 else x
  let low := bytesAt rest 0 (min rest.length (4 - at'))
  let skip := min rest.length (8 - at')
  let high := rest.drop skip
  let okOwn := !own || hostMay o new
  let b := if (!rest.isEmpty && o != 1) || !okOwn then b.slotViolation i mpa else b
  let b := if o = 1 then
      let b := if low.isEmpty then b else b.winPut (b.slotBase i + at') low
      if high.isEmpty then b else b.winPut (b.slotBase i + at' + skip) high
    else b
  if own && okOwn && new != o then b.setOwner i new else b

def Blk.winWriteNow (b : Blk) (off : Nat) (d : Bytes) (base : Nat) : Blk :=
  (slotCuts b (b.winSlots + d.length + 2) off d).foldl (fun (b : Blk) p =>
    match b.slotAt p.1 with
    | some (i, x) => b.winSlotWrite i x (base + p.1) p.2
    | none => b.winPut (base + p.1) p.2) b

def Blk.winWrite (b : Blk) (off : Nat) (d : Bytes) (base : Nat) : Blk :=
  if b.winWriteWaits off d.length base then (b.askExit (base + off) d.length).hold (.winWrite off d base)
  else b.winWriteNow off d base

/-! ### Starting an entry (R302, R309, R310, R294, R297 to R299) -/

/-- Opcodes of R297. -/
def opcodes : List Nat :=
  [1, 2, 3, 4, 5, 8, 9, 0x10, 0x11, 0x12, 0x13, 0x14, 0x20, 0x21, 0x22, 0x30, 0x31, 0x32, 0x38, 0x40, 0x41, 0x60]

/-- R297 to R299: rules that hold for every opcode. -/
def entryForm (e : Bytes) : Bool :=
  opcodes.contains (eOpcode e) && decide (eCtl e < 32) && decide (eScope e < 3)
    && (eInline e == 0 || eOpcode e == 3 || eOpcode e == 0x21)

/-- Handles that an entry names in its parameters. -/
def paramHandles (e : Bytes) : List Nat :=
  let o := eOpcode e
  if o = 0x10 then [fld e 0x34 4]
  else if o = 0x11 then [fld e 0x38 4, fld e 0x3C 4, fld e 0x40 4]
  else if o = 0x20 then [fld e 0x38 4]
  else if o = 0x21 then [fld e 0x20 4]
  else if o = 0x22 then [fld e 0x38 4, fld e 0x3C 4]
  else if o = 8 then [fld e 0x6C 4, fld e 0x60 4]
  else []

def entryHandles (e : Bytes) : List Nat := (List.range 4).map (eHandle e) ++ paramHandles e

/-- The places among `entryHandles` through which an opcode writes. -/
def writePlaces (e : Bytes) : List Nat :=
  let o := eOpcode e
  if o = 4 then [if fld e 0x20 1 % 2 = 0 then 2 else 0]
  else if o = 0x11 then [2, 4]
  else if o = 0x21 then [0, 1, 2, 3]
  else if o = 0x22 then [2, 5]
  else if o = 0x30 || o = 0x14 || o = 9 then []
  else [2]

/-- Handles through which an opcode writes. -/
def writeHandles (e : Bytes) : List Nat := (writePlaces e).map (fun i => (entryHandles e).getD i 0)

/-- Handles through which an opcode reads: all others, and every stream of a VEC_PROG. -/
def readHandles (e : Bytes) : List Nat :=
  ((entryHandles e).zipIdx.filter (fun x => eOpcode e == 0x21 || !(writePlaces e).contains x.2)).map (fun x => x.1)

/-- R309: the spans of the descriptors that an entry reads and writes, by herd address. A stream of a
VEC_PROG that may be written counts as both, and so does a tensor that takes sums (R266); an index tensor is
read. -/
def Blk.entrySpans (b : Blk) (q : Nat) (e : Bytes) : List Span × List Span :=
  let d := fun (h : Nat) => b.desc? q h
  let wr := (writeHandles e).filterMap d |>.filter Dsc.write
  let rd := (readHandles e).filterMap d ++ wr.filter (fun x => decide (2 ≤ Dsc.collide x))
  let ix := ((entryHandles e).filterMap d).filterMap (fun x => if Dsc.kind x = 1 then d x.ixHandle else none)
  (((rd ++ ix).map herdSpans).flatten, (wr.map herdSpans).flatten)

/-- Local spans as ranges of module memory. -/
def Blk.localOf (b : Blk) (l : List Span) : List Span :=
  (l.filter (fun s => b.haLocal s.1)).map (fun s => (haMpa s.1, s.2))

/-- Local ranges that an entry names without a descriptor, read and written (R336, R351). They may
touch slots (R294); R309 orders spans of descriptors only. -/
def paramSpans (e : Bytes) : List Span × List Span :=
  let o := eOpcode e
  let x : Span := (fld e 0x20 8, min (fld e 0x30 8) (2 ^ 30))
  let n : Span := (fld e 0x28 8, min (fld e 0x24 4) (2 ^ 31))
  if o = 0x30 then ([x], [])
  else if o = 0x31 then ([], [x])
  else if o = 0x38 then (if fld e 0x22 1 % 2 = 0 then ([n], []) else ([], [n]))
  else ([], [])

/-- R259, R260: the handles of an entry that are valid when it starts, with their index tensors. -/
def Blk.usedHandles (b : Blk) (q : Nat) (e : Bytes) : List Nat :=
  let hs := (entryHandles e).filter (fun h => (b.desc? q h).isSome)
  (hs ++ hs.filterMap (fun h => match b.desc? q h with
    | some d => if Dsc.kind d = 1 then some d.ixHandle else none
    | none => none)).eraseDups

/-- R261, R309 to R311: whether earlier entries of the pair hold an entry back. -/
def Blk.entryWaits (b : Blk) (f : Flight) : Bool :=
  let early := b.flights.filter (fun g => g.q == f.q && g.stage != .accepted)
  let (rd, wr) := b.entrySpans f.q f.raw
  (eFenceBefore f.raw && !early.isEmpty)
    || early.any (fun g => eFenceAfter g.raw || eOpcode g.raw == 2 || eOpcode g.raw == 8 || eOpcode g.raw == 9
        || spansMeet rd g.writes || spansMeet wr g.writes || spansMeet wr g.reads)

/-- R302: whether nothing but the bound on completions keeps the queue engine from starting an entry, which is
the pair's next. -/
def Blk.startsBut (b : Blk) (f : Flight) : Bool :=
  f.stage == .accepted
    && ((b.flights.find? (fun g => g.q == f.q && g.stage == .accepted)).map (fun g => g.seq)) == some f.seq
    && decide (b.inflight f.q < 64) && !(b.qp f.q).compFail && b.lay.phase != .applying && !b.restarting
    && (b.pwr.state == .run || b.pwr.state == .doze) && !b.entryWaits f

/-- R302: whether the queue engine may start the next accepted entry of a pair. -/
def Blk.mayStart (b : Blk) (f : Flight) : Bool := b.startsBut f && b.cqRoom f.q

/-- QP_STATUS (R307). -/
def Blk.qpStatus (b : Blk) (q : Nat) : Nat :=
  let x := b.qp q
  let full := b.flights.any (fun f => f.q == q && b.startsBut f && !b.cqRoom q)
  b2n x.enabled + 2 * b2n (b.quiesced q) + 4 * b2n x.staleWait + 8 * b2n full
    + 16 * b2n x.fetchError + 256 * b.inflight q

/-- Entries that a FENCE captures (R311). -/
def Blk.captured (b : Blk) (f : Flight) : List (Nat × Nat) :=
  let m := fld f.raw 0x20 8
  (b.flights.filter (fun g => g.stage != .accepted && !g.is f.q f.seq && (g.q == f.q || m.testBit g.q))).map (fun g => (g.q, g.seq))

/-- The state changes that R360 makes when an entry starts in DOZE. -/
def Blk.toRun (b : Blk) : Blk :=
  if b.pwr.state = .doze then
    ({ b with pwr := { b.pwr with state := .run, prev := .doze } }.pwrEvent 0).orReg (bPOWER + 8) 0x40
  else b

/-- R87: opcodes whose data passes through the hub store or the staging SRAM: all but NOP, FENCE, DESC_DROP
and POWER_HINT. -/
def readsSram (op : Nat) : Bool := !([1, 2, 9, 0x60] : List Nat).contains op

/-- R87: an entry meets a double-bit error of a buffer. -/
def Blk.sramFail (b : Blk) (q seq buf off : Nat) : Blk := (b.sramHit (some q) pINT buf off).finish q seq stUNCORR 0 0

/-- Whether an entry's start must wait for a slot header that it is to read. -/
def Blk.slotsWait (b : Blk) (slots : List Nat) : Bool := slots.any (fun i => b.mustWait cHub (b.slotBase i) 0x40)

/-- What waits for slot headers asks for what they wait for (R101, R108). -/
def Blk.askSlots (b : Blk) (slots : List Nat) : Blk := slots.foldl (fun (b : Blk) i => b.askExit (b.slotBase i) 0x40) b

/-- ENTRY_START (R302). -/
def Blk.startEntry (b : Blk) (q seq : Nat) : Blk :=
  match b.flight? q seq with
  | none => b
  | some f =>
    let (rd, wr) := b.entrySpans q f.raw
    let (pr, pw) := paramSpans f.raw
    let slots := b.slotsTouched (b.localOf rd ++ b.localOf wr ++ pr ++ pw)
    if !b.mayStart f then b
    else if b.slotsWait slots then b.askSlots slots
    else
      let b := b.toRun
      let g : Flight := { f with
        stage := .running
        order := b.hub.order
        mode := b.mode.code
        reads := rd
        writes := wr
        slots := slots
        used := b.usedHandles q f.raw
        waits := if eOpcode f.raw = 2 then b.captured f else [] }
      let b := (b.setHub { b.hub with order := b.hub.order + 1 }).updFlight q seq (fun _ => g)
      if !entryForm f.raw then b.finish q seq stDESC 0 0
      else
        let (b, st) := b.slotCheck { g with reads := b.localOf rd ++ pr } slots
        if st != stOK then b.finish q seq st 0 0
        else match b.mem.sramBad with
          | some (buf, off) => if readsSram (eOpcode f.raw) then b.sramFail q seq buf off else b
          | none => b

/-! ### Completing an entry (R303, R311 to R313) -/

/-- Asks every home that an entry wrote for a fence (R339). -/
def Blk.askFences (b : Blk) (q seq : Nat) : List Nat → Blk
  | [] => b.updFlight q seq (fun f => { f with homes := [] })
  | m :: t =>
    match b.request q seq 0x04 m 0 0 0 [] with
    | .sent b => b.askFences q seq t
    | .noPath b => (b.updFlight q seq (fun f => if isErr f.status then f else { f with status := stUNREACH })).askFences q seq t
    | .noTxn => b.updFlight q seq (fun f => { f with homes := m :: t })

/-- R313: the scope byte. A success reports the scope requested; a failure that wrote nothing, 0, and one whose
writes on other modules no fence has covered, at most MODULE. A NET_POST that wrote remote bytes reports PATH
(R351). -/
def Flight.scopeByte (f : Flight) : Nat :=
  if isErr f.status && f.scope = 0 && f.homes.isEmpty then 0
  else if isErr f.status && !f.homes.isEmpty then min 2 (eScope f.raw + 1)
  else if eOpcode f.raw = 0x38 && fld f.raw 0x22 1 % 2 = 0 then 1
  else eScope f.raw + 1

/-- Removes a flight; fences that captured it take over the homes it wrote. -/
def Blk.dropFlight (b : Blk) (f : Flight) : Blk :=
  { b with flights := (b.flights.filter (fun g => !g.is f.q f.seq)).map (fun g =>
      if g.waits.contains (f.q, f.seq) then { g with homes := (g.homes ++ f.homes).eraseDups } else g) }

/-- The completion of a finished entry, with everything that precedes it (R294, R303, R313). -/
def Blk.completeNow (b : Blk) (f : Flight) : Blk :=
  let b := b.slotsDone f
  let b := b.dropFlight f
  (b.writeComp f.q { f.comp with scope := f.scopeByte }).freeDropped

/-- Whether the write of a completion, or of a slot header before it, must wait (R81, R101, R108, R457). -/
def Blk.compWaits (b : Blk) (f : Flight) : Bool :=
  b.slotsWait f.slots || (b.cqLocal f.q && !b.holdsComp f.q && b.mustWait cHub (b.compAt f.q) 32)

/-- Whether the scope of an entry needs fences at the homes that it wrote: HERD, and MODULE, which is served as
HERD for bytes homed elsewhere; a FENCE sends them for HERD only (R339). -/
def Flight.fences (f : Flight) : Bool :=
  !f.homes.isEmpty && !isErr f.status && (eScope f.raw == 2 || (eScope f.raw == 1 && eOpcode f.raw != 2))

/-- ENTRY_COMPLETE (R313), but for what a power hint or the end of an attachment waits for. -/
def Blk.completeEntry (b : Blk) (q seq : Nat) : Blk :=
  match b.flight? q seq with
  | none => b
  | some f =>
    if f.stage != .done || !f.txns.isEmpty || !f.out.isEmpty || b.restarting then b
    else if f.fences then b.askFences q seq f.homes
    else if b.compWaits f then (b.askSlots f.slots).askExit (b.compAt f.q) 32
    else b.completeNow f

/-! ### Rings (R301, R306, R307) -/

/-- RING_FETCH_DONE (R301): the entries that a read of host memory returned, or an error. -/
def Blk.fetchDone (b : Blk) (q : Nat) (host : List Bytes) (err : Bool) : Blk :=
  let x := b.qp q
  let n := x.fetching
  if n = 0 then b
  else if !x.enabled || b.fetchStopped then b.setQp q { x with fetching := 0 }
  else if b.sqLocal q then
    let a := b.sqBase q + 128 * (x.head.toNat % 2 ^ b.sqLog q)
    if b.mustWait cHub a (128 * n) then b.askExit a (128 * n)
    else
      let r := readRange b (rqQueue q) a (128 * n)
      if r.st != stOK then r.b.fetchFailed q r.st
      else ((r.b.setQp q { x with fetching := 0 }).acceptAll q ((List.range n).map (fun i => bytesAt r.data (128 * i) 128))).startFetch q
  else if err then b.fetchFailed q 0
  else ((b.setQp q { x with fetching := 0 }).acceptAll q ((List.range n).map (fun i => bytesAt (host.getD i []) 0 128))).startFetch q

/-- STALE_REREAD (R301). -/
def Blk.reread (b : Blk) (q : Nat) (host : Bytes) : Blk :=
  let x := b.qp q
  if !x.staleWait || !x.enabled || b.fetchStopped then b
  else
    let a := b.sqBase q + 128 * (x.head.toNat % 2 ^ b.sqLog q)
    if b.sqLocal q && b.mustWait cHub a 128 then b.askExit a 128
    else
    let r : Acc := if b.sqLocal q then readRange b (rqQueue q) a 128 else ⟨b, stOK, bytesAt host 0 128, false⟩
    if r.st != stOK then r.b.fetchFailed q r.st
    else if r.b.entryValid q r.data then
      ((r.b.setQp q { r.b.qp q with staleWait := false }).accept q r.data).startFetch q
    else r.b

/-- STALE_DOORBELL (R301). -/
def Blk.staleEnd (b : Blk) (q : Nat) : Blk :=
  let x := b.qp q
  if !x.staleWait then b
  else
    ((b.setQp q { x with staleWait := false, posted := none, posters := [] }).logE kSTALE_DB { qp := some q }).incReg (bQP q + 0x34) |>.qpEvent q 0

/-- CQ_HEAD_WRITE (R306). -/
def Blk.cqHeadWrite (b : Blk) (q path : Nat) (v : W32) : Blk :=
  let x := b.qp q
  if (x.cqTail - x.cqHead).toNat < (v - x.cqHead).toNat then (b.logE kQP_BADCQH { qp := some q, path := path }).qpEvent q 2
  else b.setQp q { x with cqHead := v }

/-- QP_CTRL enable (R307, R319). -/
def Blk.qpEnable (b : Blk) (q : Nat) (on : Bool) : Blk :=
  let x := b.qp q
  if on then
    if !x.everCommitted || (b.hostBound q && b.att.phase == .detached) || x.ending || x.enabled then b
    else
      let held := x.held
      let b := b.setQp q { x with enabled := true, held := [] }
      ((b.writeComps q held)).startFetch q
  else b.setQp q { x with enabled := false, staleWait := false, fetching := 0 }

/-- A pair's counts as QP_CTRL reset leaves them (R307). -/
def QpSt.zeroed (x : QpSt) : QpSt :=
  { x with head := 0, cqHead := 0, cqTail := 0, fetchError := false, compFail := false, posted := none, posters := [], staleWait := false, fetching := 0 }

def Blk.qpReset (b : Blk) (q : Nat) : Blk := if b.quiesced q then b.setQp q (b.qp q).zeroed else b

def Blk.qpDrop (b : Blk) (q : Nat) : Blk := b.setQp q { b.qp q with held := [] }

/-- COALESCE_DELAY_EXPIRY (R315). -/
def Blk.coalesced (b : Blk) (v : Nat) : Blk :=
  if tget 0 v b.ev.pend = 0 || bits (b.reg (oEV_COAL v)) 23 8 = 0 then b
  else ({ b with ev := { b.ev with pend := tset v 0 b.ev.pend } }).msix v

/-! ### The host attachment (R317 to R320) -/

/-- Ticks of 1.024 µs in a number of milliseconds, rounded up (R13). -/
def ticksMs (ms : Nat) : Nat := cdiv (ms * 1000000) 1024

def Blk.hostPairs (b : Blk) : List Nat := (List.range 64).filter (fun q => b.hostBound q)

/-- Stops and disables every host-bound pair (R318). -/
def Blk.stopHostPairs (b : Blk) : Blk := b.hostPairs.foldl (fun b q => b.qpEnable q false) b

/-- The last acts of R320: the host-bound pairs, their descriptors, the slots, the token. -/
def Blk.attFinal (b : Blk) : Blk :=
  let ps := b.hostPairs
  let b := ps.foldl (fun (b : Blk) q =>
    b.setQp q { (b.qp q).zeroed with enabled := false, held := [], recorded := [], ending := false }) b
  let b := (b.descs.filter (fun p => ps.contains (p.1 / 0x1000))).foldl (fun (b : Blk) p => b.freeDesc p.1) b
  let b := if !b.slotsOn then b else (List.range b.winSlots).foldl (fun (b : Blk) i =>
    let (b, o) := b.slotOwner i
    if o = 1 || (o = 2 && b.flights.all (fun g => !g.slots.contains i)) then b.setOwner i 0 else b) b
  let b := { b with att := { b.att with phase := .detached, token := 0, holdEnd := 0, badTokens := 0, ending := false } }
  (b.logE kATT_ENDED { detail := b.att.cause }).attEvent 2

/-- R320 ends once no entry of a host-bound pair is in flight. -/
def Blk.attSettle (b : Blk) : Blk :=
  if b.att.ending && b.flights.all (fun f => !b.hostBound f.q) then b.attFinal else b

/-- R320: expiry, detach or function-level reset begins; entries that have not started are discarded. -/
def Blk.attEnd (b : Blk) (cause : Nat) : Blk :=
  if b.att.phase = .detached || b.att.ending then b
  else
    let b := b.stopHostPairs
    let b := b.hostPairs.foldl (fun (b : Blk) q => b.setQp q { b.qp q with ending := true, held := [] }) b
    let b := { b with
      flights := b.flights.filter (fun (f : Flight) => !(b.hostBound f.q && f.stage == Stage.accepted))
      att := { b.att with cause := cause, ending := true } }
    b.attSettle

/-- R317, R318: the attachment is orphaned. -/
def Blk.orphan (b : Blk) (cause : Nat) : Blk :=
  if b.att.phase != .attached || b.att.ending then b
  else
    let secs := min (b.reg (bATTACH + 0x10)) 3600
    let b := b.stopHostPairs
    let b := { b with att := { b.att with phase := .orphan, cause := cause, badTokens := 0
                                          holdEnd := b.time.toNat + ticksMs (1000 * secs) } }.attEvent 0
    if secs = 0 then b.attEnd 6 else b

/-- ATT_CTRL attach (R317): a new token, nonzero. -/
def Blk.attach (b : Blk) : Blk :=
  if b.att.phase != .detached then b
  else
    let (b, n) := b.fresh
    let t := Config.freeWord n
    { b with att := { b.att with phase := .attached, token := if t = 0 then 1 else t, beats := b.time.toNat } }

/-- ATT_REATTACH (R319). -/
def Blk.reattach (b : Blk) (v : W32) : Blk :=
  if b.att.phase = .orphan && !b.att.ending && v = b.att.token then
    { b with att := { b.att with phase := .attached, holdEnd := 0, badTokens := 0, beats := b.time.toNat } }.attEvent 1
  else
    let b := (b.incReg (bATTACH + 0x28)).attEvent 3
    if b.att.phase = .orphan then
      let b := { b with att := { b.att with badTokens := b.att.badTokens + 1 } }
      if b.att.badTokens = 16 then b.attEnd 7 else b
    else b

end Sys2Proof.Machine
end

