-- ==== Sys2Proof/Machine/Stack.lean ====
section
/-! DEFINITION. The stack controllers (04_stack_controllers): channel commands, refresh,
self-refresh, scrubbing (R83), training; and SEAL, UNSEAL and their segments (R78 to R82). -/

namespace Sys2Proof.Machine
open Sys2Proof

/-! ### Channel commands (R88, R93 to R97) -/

/-- The segment of a row, where a region maps it and it is not retired (R84). -/
def Blk.rowSeg (b : Blk) (ch bank row : Nat) : Option Nat :=
  match b.struc.rowMpa ch bank row with
  | none => none
  | some a => if b.struc.isRetired (a / 0x200000) then none else some (a / 0x200000)

/-- The port is the one last granted in its class (R93). -/
def Blk.granted (b : Blk) (ch cls port : Nat) : Blk :=
  let c := b.chan ch
  b.setChan ch { c with last := c.last.set cls port }

/-- Whether channel, port, class, bank and row are in range, and the port makes requests of the class (R89). -/
def chanArgs (ch port cls bank row : Nat) : Bool :=
  decide (ch < 384) && classOk port cls && decide (bank < 32) && decide (row < 32768)

/-- A bank takes an explicit command of a class now. -/
def Blk.bankNow (b : Blk) (ch bank cls : Nat) : Bool := b.bankFree ch bank cls (b.askedAt ch bank)

/-- ACT: opens a row of a precharged bank; rows of unmapped or retired segments are not activated. -/
def Blk.chAct (b : Blk) (ch port cls bank row : Nat) : Blk :=
  if !chanArgs ch port cls bank row || !b.bankNow ch bank cls || (b.openRowOf ch bank).isSome || (b.rowSeg ch bank row).isNone then b
  else match b.pay ch cls 2 with
    | none => b
    | some b => (b.openBank ch bank row cls).granted ch cls port

/-- PRE: closes the open row of a bank. -/
def Blk.chPre (b : Blk) (ch port cls bank : Nat) : Blk :=
  if !chanArgs ch port cls bank 0 || !b.bankNow ch bank cls then b
  else match b.pay ch cls 2 with
    | none => b
    | some b => (b.closeBank ch bank).granted ch cls port

/-- Whether the margin of a row's groups is that of the open class. -/
def Blk.groupOpen (b : Blk) (ch bank row : Nat) : Bool :=
  match b.rowSeg ch bank row with
  | some s => (b.seg s).isOpen
  | none => false

/-- The 144 bytes of a half-group: column words 4k to 4k + 3 and their margin bytes (R88). -/
def Blk.halfBytes (b : Blk) (ch bank row grp half : Nat) : Bytes :=
  let g := gidOf ch bank row grp
  bytesAt (groupData b.mem.cells g) (128 * half) 128
    ++ bytesAt (groupMargin b.mem.cells g (b.groupOpen ch bank row)) (16 * half) 16

/-- Whether the row's segment is fresh (R67). -/
def Blk.rowFresh (b : Blk) (ch bank row : Nat) : Bool := ((b.rowSeg ch bank row).map (fun s => (b.seg s).fresh)).getD false

/-- Whether the row's segment is being converted (R81). -/
def Blk.rowConv (b : Blk) (ch bank row : Nat) : Bool :=
  (b.rowSeg ch bank row).any (fun s => b.mem.convs.any (fun c => c.now.contains s))

/-- Initialises the row's segment where it is fresh (R67), in the class of what writes it. -/
def Blk.rowInit (b : Blk) (cls ch bank row : Nat) : Blk :=
  match b.rowSeg ch bank row with
  | some s => if (b.seg s).fresh then initSeg b cls s else b
  | none => b

/-- Whether two requests name the same half-group, or both the training buffer. -/
def HalfReq.sameHalf (a c : HalfReq) : Bool :=
  (a.cls == cTrain) == (c.cls == cTrain)
    && (a.cls == cTrain || (a.bank == c.bank && a.row == c.row && a.grp == c.grp && a.half == c.half))

def Blk.moved (b : Blk) (ch : Nat) (d : Bytes) : Blk := b.setChan ch { b.chan ch with moved := d }

/-- The classes whose requests move half-groups (R88). -/
def portClass (cls : Nat) : Bool := cls == cHub || cls == cRemote || cls == cTrain

/-- A precharge of a bank, at once where its class can pay, and else when it can (R90, R97). -/
def Blk.precharge (b : Blk) (ch bank cls : Nat) : Blk :=
  match b.pay ch cls 2 with
  | some b => b.closeBank ch bank
  | none =>
    let c := b.chan ch
    b.setChan ch { c with closing := c.closing.filter (fun p => p.1 != bank) ++ [(bank, cls)] }

/-- After a column command: a hint of close precharges the bank at once (R97). -/
def Blk.afterColumn (b : Blk) (ch port cls bank : Nat) (keep : Bool) : Blk :=
  let b := b.granted ch cls port
  let idle := bits (b.eff (bSC (stackOfCh ch) + 0x94)) 9 0
  if keep && idle != 0 then b else b.precharge ch bank cls

/-- Stores the 144 bytes of a half-group. -/
def Blk.putHalf (b : Blk) (ch bank row grp half : Nat) (d : Bytes) : Blk :=
  let g := gidOf ch bank row grp
  b.setCells (cellsPut b.mem.cells
    (dataCells g (128 * half) (bytesAt d 0 128) ++ marginCells g (b.groupOpen ch bank row) (16 * half) (bytesAt d 128 16)))

/-! #### The queues (R93 to R96) -/

/-- R96: write drain begins at wr_hi entries and ends at wr_lo. -/
def Blk.setDrain (b : Blk) (ch : Nat) : Blk :=
  let c := b.chan ch
  let w := b.eff (bSC (stackOfCh ch) + 0x90)
  let d := if bits w 13 8 ≤ c.writeQ.length then true else c.drain && decide (bits w 5 0 < c.writeQ.length)
  if d = c.drain then b else b.setChan ch { c with drain := d }

/-- A request enters its queue, or, a read that finds its half-group in the write queue or in a fresh
segment, is answered; none where the queue is full (R67, R95). -/
def Blk.acceptHalf (b : Blk) (ch : Nat) (write : Bool) (r : HalfReq) : Option Blk :=
  let c := b.chan ch
  if write then (if 64 ≤ c.writeQ.length then none else some ((b.setChan ch { c with writeQ := c.writeQ ++ [r] }).setDrain ch))
  else match c.writeQ.reverse.find? (fun w => w.sameHalf r) with
    | some w => some (b.moved ch w.data)
    | none =>
      if r.cls != cTrain && b.rowFresh ch r.bank r.row then some (b.moved ch (zeros 144))
      else if 64 ≤ c.readQ.length then none
      else some (b.setChan ch { c with readQ := c.readQ ++ [r] })

/-- The requests at the ports enter the queues, each port's in order; requests for a die that goes into or
is in self-refresh are held (R107). -/
def Blk.acceptHalves (b : Blk) (ch : Nat) : Blk :=
  if (b.die (dieOfCh ch)).sr != .awake then b
  else
    let (b, rest, _) := (b.chan ch).portQ.foldl (fun (a : Blk × List (Bool × HalfReq) × List Nat) p =>
      if a.2.2.contains p.2.port then (a.1, a.2.1 ++ [p], a.2.2)
      else match a.1.acceptHalf ch p.1 p.2 with
        | some b => (b, a.2.1, a.2.2)
        | none => (a.1, a.2.1 ++ [p], p.2.port :: a.2.2)) (b, [], [])
    b.setChan ch { b.chan ch with portQ := rest }

/-- What a queued request would issue next: its half-slots, 3 for the column command and 2 for the PRE
of another row of its bank (R97); none where its bank is held or its row must be activated first. -/
def Blk.reqCharge (b : Blk) (ch : Nat) (r : HalfReq) : Option Nat :=
  if r.cls = cTrain then (if b.dieTakes (dieOfCh ch) then some 3 else none)
  else if (b.rowSeg ch r.bank r.row).isNone then some 0
  else if !b.bankFree ch r.bank r.cls r.since || b.rowConv ch r.bank r.row then none
  else match b.openRowOf ch r.bank with
    | some row => some (if row = r.row then 3 else 2)
    | none => none

/-- A request is ready, and its charge fits (R93). -/
def Blk.reqReady (b : Blk) (ch : Nat) (r : HalfReq) : Bool :=
  match b.reqCharge ch r with
  | some h => b.canPay ch r.cls h
  | none => false

/-- R93: the place of a request in the order of classes, priorities and the round robin after the port last
granted. -/
def Blk.reqRank (b : Blk) (ch : Nat) (r : HalfReq) : Nat :=
  let order := if r.cls = cHub then cRemote else if r.cls = cRemote then cHub else r.cls
  let prio := bits (b.eff (bSC (stackOfCh ch) + 0x20 + 4 * r.port)) (3 * r.cls + 2) (3 * r.cls)
  let far := (r.port + 23 - (b.chan ch).last.getD r.cls 11) % 12
  (order * 8 + (7 - prio)) * 12 + far

/-- The request of a queue that is served first: requests of one port for one half-group keep their order
(R95); `older` are the requests that go before all of this queue's. -/
def Blk.pick (b : Blk) (ch : Nat) (older : List HalfReq) (l : List HalfReq) : Option HalfReq :=
  (l.foldl (fun (a : List HalfReq × Option HalfReq) r =>
    let free := !(older ++ a.1).any (fun o => o.port == r.port && o.sameHalf r)
    let best := if free && b.reqReady ch r then
        (match a.2 with
          | some x => if b.reqRank ch r < b.reqRank ch x then some r else some x
          | none => some r)
      else a.2
    (a.1 ++ [r], best)) ([], none)).2

/-- The request that the channel serves next, and whether it is a write: reads first, but writes in write
drain (R96). -/
def Blk.nextReq (b : Blk) (ch : Nat) : Option (Bool × HalfReq) :=
  let c := b.chan ch
  let rd := (b.pick ch [] c.readQ).map (fun r => (false, r))
  let wr := (b.pick ch c.readQ c.writeQ).map (fun r => (true, r))
  if c.drain then wr.orElse (fun _ => rd) else rd.orElse (fun _ => wr)

/-- A request leaves its queue. -/
def Blk.dequeue (b : Blk) (ch : Nat) (write : Bool) (r : HalfReq) : Blk :=
  let c := b.chan ch
  (b.setChan ch (if write then { c with writeQ := c.writeQ.erase r } else { c with readQ := c.readQ.erase r })).setDrain ch

/-- Issues the next command of a queued request. -/
def Blk.issueReq (b : Blk) (ch : Nat) (write : Bool) (r : HalfReq) : Blk :=
  match b.reqCharge ch r with
  | some 3 =>
    let b := (b.dequeue ch write r).take ch r.cls 3
    if r.cls = cTrain then
      (if write then (b.setChan ch { b.chan ch with train := bytesAt r.data 0 72, moved := r.data })
        else b.moved ch (bytesAt (b.chan ch).train 0 72)).granted ch r.cls r.port
    else if write then
      (((b.rowInit r.cls ch r.bank r.row).putHalf ch r.bank r.row r.grp r.half r.data).moved ch r.data).afterColumn ch r.port r.cls r.bank r.keep
    else (b.moved ch (b.halfBytes ch r.bank r.row r.grp r.half)).afterColumn ch r.port r.cls r.bank r.keep
  | some 2 => ((b.take ch r.cls 2).closeBank ch r.bank).granted ch r.cls r.port
  | _ => b.dequeue ch write r

/-- The precharges that waited for their charge. -/
def Blk.closeLate (b : Blk) (ch : Nat) : Blk :=
  (b.chan ch).closing.foldl (fun (b : Blk) p =>
    if b.bankNow ch p.1 p.2 && b.canPay ch p.2 2 then (b.take ch p.2 2).closeBank ch p.1 else b) b

/-- Accepts and issues until nothing more can go. -/
def Blk.pumpN (b : Blk) (ch : Nat) : Nat → Blk
  | 0 => b
  | fuel + 1 =>
    let b := b.acceptHalves ch
    match b.nextReq ch with
    | none => b
    | some (w, r) => (b.issueReq ch w r).pumpN ch fuel

/-- A channel serves what waits in its queues. -/
def Blk.pump (b : Blk) (ch : Nat) : Blk :=
  let c := b.chan ch
  if c.readQ.isEmpty && c.writeQ.isEmpty && c.portQ.isEmpty && c.closing.isEmpty then b
  else ((b.setDrain ch).closeLate ch).pumpN ch (2 * (c.readQ.length + c.writeQ.length + c.portQ.length) + 1)

/-- Every channel serves what waits in its queues. -/
def Blk.pumpAll (b : Blk) : Blk := (b.chans.map (fun p => p.1)).foldl Blk.pump b

/-- A half-group request comes to a channel (R95); one that waits for a die in self-refresh asks for its exit
(R108). -/
def Blk.request1 (b : Blk) (ch : Nat) (write : Bool) (r : HalfReq) : Blk :=
  let c := b.chan ch
  ((b.setChan ch { c with portQ := c.portQ ++ [(write, r)] }).wakeDie (dieOfCh ch)).pump ch

/-- Whether a half-group request is one that a port makes. -/
def Blk.halfArgs (b : Blk) (ch port cls bank row grp half : Nat) : Bool :=
  chanArgs ch port cls bank row && decide (grp < 8) && decide (half < 2) && portClass cls
    && (cls == cTrain || (b.rowSeg ch bank row).isSome)

/-- RDH (R88, R95, R96). -/
def Blk.chRdh (b : Blk) (ch port cls bank row grp half : Nat) (keep : Bool) : Blk :=
  if b.halfArgs ch port cls bank row grp half then
    b.request1 ch false ⟨port, cls, bank, row, grp, half, keep, b.time.toNat, []⟩
  else b

/-- WRH (R88, R95, R96). -/
def Blk.chWrh (b : Blk) (ch port cls bank row grp half : Nat) (keep : Bool) (d : Bytes) : Blk :=
  if b.halfArgs ch port cls bank row grp half then
    b.request1 ch true ⟨port, cls, bank, row, grp, half, keep, b.time.toNat, bytesAt d 0 144⟩
  else b

/-- Whether a column word command may issue: its row is open and its bank free. -/
def Blk.wordArgs (b : Blk) (ch port cls bank row word : Nat) : Bool :=
  chanArgs ch port cls bank row && decide (word < 64) && b.bankNow ch bank cls && b.openRowOf ch bank == some row

/-- RDW: one column word and its four margin bytes (R88); zeros of a fresh segment, whose cells are not
touched (R67). -/
def Blk.chRdw (b : Blk) (ch port cls bank row word : Nat) (keep : Bool) : Blk :=
  if !b.wordArgs ch port cls bank row word then b
  else if b.rowFresh ch bank row then b.moved ch (zeros 36)
  else match b.pay ch cls 2 with
    | none => b
    | some b =>
      let g := gidOf ch bank row (word / 8)
      (b.moved ch (bytesAt (groupData b.mem.cells g) (32 * (word % 8)) 32
        ++ bytesAt (groupMargin b.mem.cells g (b.groupOpen ch bank row)) (4 * (word % 8)) 4)).afterColumn ch port cls bank keep

/-- WRW: one column word and its four margin bytes (R88). -/
def Blk.chWrw (b : Blk) (ch port cls bank row word : Nat) (keep : Bool) (d : Bytes) : Blk :=
  if !b.wordArgs ch port cls bank row word then b
  else match b.pay ch cls 2 with
    | none => b
    | some b =>
      let b := b.rowInit cls ch bank row
      let g := gidOf ch bank row (word / 8)
      let b := b.setCells (cellsPut b.mem.cells
        (dataCells g (32 * (word % 8)) (bytesAt d 0 32) ++ marginCells g (b.groupOpen ch bank row) (4 * (word % 8)) (bytesAt d 32 4)))
      (b.moved ch (bytesAt d 0 36)).afterColumn ch port cls bank keep

/-- ROW_IDLE_TIMEOUT (R97): a PRE for the class that last used the row; an urgent pair starts no command, and
its refresh closes the row (R103). -/
def Blk.rowIdle (b : Blk) (ch bank : Nat) : Blk :=
  match (b.chan ch).rows.find? (fun p => p.1 == bank) with
  | none => b
  | some p => if (b.pair ch (bank / 2)).urgent then b else b.precharge ch bank p.2.cls

/-! ### Refresh (R103, R104) -/

/-- A pair that a compute sequence holds: its unit computes, or keeps its slot between the parts of a block
(R192). -/
def Blk.pairHeld (b : Blk) (ch pair : Nat) : Bool :=
  (b.unit (unitNo ch pair)).inPim || (b.unit (unitNo ch pair)).keptFor.isSome

def Blk.inStepAt (b : Blk) (ch pair : Nat) : Bool := ((b.unit (unitNo ch pair)).seq.map SeqSt.inStep).getD false

/-- One REFPR: the rows of the pair close, the debt falls by one, and at debt 0 urgency ends. -/
def Blk.refresh (b : Blk) (ch pair : Nat) : Blk :=
  let p := b.pair ch pair
  let d := p.debt - 1
  ((b.closeBank ch (2 * pair)).closeBank ch (2 * pair + 1)).setPair ch pair ⟨d, p.urgent && decide (0 < d)⟩

/-- REFPR with the PRE of the pair's open rows (R103): issued for a debt of 1 or more, at a step boundary where the pair is urgent, and
postponed while a sequence holds the pair. -/
def Blk.chRefpr (b : Blk) (ch pair : Nat) : Blk :=
  let p := b.pair ch pair
  if 384 ≤ ch || 16 ≤ pair || p.debt < 1 || (b.pairHeld ch pair && !p.urgent) || b.inStepAt ch pair then b
  else if (b.die (dieOfCh ch)).sr != .awake && (b.die (dieOfCh ch)).sr != .entering then b
  else (b.payRefresh ch (12 + 2 * ((b.chan ch).rows.filter (fun p => p.1 / 2 == pair)).length)).refresh ch pair

/-- REFRESH_PULL_IN (R103). -/
def Blk.chPullIn (b : Blk) (ch pair : Nat) : Blk :=
  let p := b.pair ch pair
  if 384 ≤ ch || 16 ≤ pair || 0 < p.debt || p.debt ≤ -8 || b.pairHeld ch pair || (b.die (dieOfCh ch)).sr != .awake then b
  else match b.pay ch cRefresh 12 with
    | none => b
    | some b => b.refresh ch pair

/-- Raises SC_MAX_DEBT to a debt (R116). -/
def Blk.maxDebt (b : Blk) (s : Nat) (d : Int) : Blk :=
  let o := bSC s + 0xBC
  b.setReg o (max (b.reg o) d.toNat)

/-- A sequence between steps on a pair that became urgent is pre-empted there (R103, R105). -/
def Blk.preemptIdle (b : Blk) (u : Nat) : Blk :=
  let x := b.unit u
  match x.seq with
  | some s =>
    if s.inStep || !s.begun || s.preempted then b
    else (b.setUnit u { x with seq := some { s with preempted := true } }).notePreempt u s
  | none =>
    match x.keptFor, x.slot with
    | some (q, seq), some _ =>
      (b.incReg (bSC (unitStack u) + 0xB0)).updFlight q seq (fun f => { f with preempted := true })
    | _, _ => b

/-- REFRESH_DUE (R103): the debt rises, also while urgent; at 9 the pair becomes urgent. -/
def Blk.refreshDue (b : Blk) (ch pair : Nat) : Blk :=
  if 384 ≤ ch || 16 ≤ pair || !((b.die (dieOfCh ch)).sr == .awake || (b.die (dieOfCh ch)).sr == .entering) then b
  else
    let p := b.pair ch pair
    let d := min (p.debt + 1) 11
    let b := (b.setPair ch pair ⟨d, p.urgent || decide (p.debt = 8)⟩).maxDebt (stackOfCh ch) d
    if !p.urgent && p.debt = 8 then b.preemptIdle (unitNo ch pair) else b

/-- R104, R144: a unit that is stopped in the middle of a step loses its state; what its latch,
accumulators and scores then hold is undefined. -/
def UnitSt.discard (x : UnitSt) (n : Nat) : UnitSt :=
  { UnitSt.reset.undefine n with steps := x.steps, tab0 := x.tab0, tab1 := x.tab1, active := x.active }

/-- Stops a unit at once with a status. -/
def Blk.forceStop (b : Blk) (u st : Nat) : Blk :=
  let x := b.unit u
  let own := match x.seq with
    | some s => s.cmd.own
    | none => x.keptFor
  let b := (b.setUnit u (x.discard b.ctr)).jobNote own u st
  (({ b with ctr := b.ctr + 512 }).grant (unitDie u)).jobSettle own

/-- REFRESH_LATE (R104, R410). -/
def Blk.refreshLate (b : Blk) (ch pair : Nat) : Blk :=
  let p := b.pair ch pair
  if 384 ≤ ch || 16 ≤ pair || !p.urgent || p.debt < 9 then b
  else
    let u := unitNo ch pair
    let own := match (b.unit u).seq with
      | some s => s.cmd.own
      | none => (b.unit u).keptFor
    let b := b.forceStop u stINTERNAL
    let b := b.logE kSC_REFLATE { qp := own.map (fun o => o.1), status := stINTERNAL, cga := some (cgaOf (gidOf ch (2 * pair) 0 0)) }
    (b.scEvent (stackOfCh ch) 6).moduleFault (kSC_REFLATE % 256)

/-! ### Self-refresh (R107 to R109) -/

/-- R107 step 1: power control asks for entry. -/
def Blk.sleepDie (b : Blk) (d : Nat) : Blk :=
  let x := b.die d
  if x.sr = .awake then b.setDie d { x with sr := .entering } else b

/-- Whether a sequence runs or waits on a die. -/
def Blk.dieBusy (b : Blk) (d : Nat) : Bool :=
  b.cu.units.any (fun p => unitDie p.1 == d && (p.2.seq.isSome || p.2.keptFor.isSome))

def Blk.queuesEmpty (b : Blk) (d : Nat) : Bool :=
  [2 * d, 2 * d + 1].all (fun ch => (b.chan ch).readQ.isEmpty && (b.chan ch).writeQ.isEmpty)

def Blk.debtsPaid (b : Blk) (d : Nat) : Bool :=
  [2 * d, 2 * d + 1].all (fun ch => (List.range 16).all (fun m => decide ((b.pair ch m).debt ≤ 0)))

/-- R109, R121: what a unit keeps through self-refresh. -/
def UnitSt.asleep (x : UnitSt) : UnitSt :=
  { UnitSt.reset with
    inPim := x.inPim, pimFor := x.pimFor, nvec := x.nvec, wfmt := x.wfmt, afmt := x.afmt, anchor := x.anchor, steps := x.steps
    tab0 := x.tab0, tab1 := x.tab1, active := x.active }

/-- Pays a slot of the refresh class on both channels of a die. -/
def Blk.payDie (b : Blk) (d : Nat) : Option Blk := (b.pay (2 * d) cRefresh 2).bind (fun b => b.pay (2 * d + 1) cRefresh 2)

/-- SRE (R107 steps 4 and 5). -/
def Blk.dieSre (b : Blk) (d : Nat) : Blk :=
  let x := b.die d
  if 192 ≤ d || x.sr != .entering || b.dieBusy d || !b.queuesEmpty d || !b.debtsPaid d then b
  else match b.payDie d with
    | none => b
    | some b =>
      let b := [2 * d, 2 * d + 1].foldl (fun (b : Blk) ch => b.setChan ch { b.chan ch with rows := [] }) b
      let b := { b with cu := { b.cu with units := b.cu.units.map (fun (p : Nat × UnitSt) =>
        if unitDie p.1 = d then (p.1, p.2.asleep) else p) } }
      b.setDie d { x with sr := .asleep }

/-- SR_EXIT_PHY_LOCKED (R108 step 2): SRX follows as soon as it can pay. -/
def Blk.phyLocked (b : Blk) (d : Nat) : Blk :=
  let x := b.die d
  match x.sr with
  | .exitPhy _ =>
    match b.payDie d with
    | some b => b.setDie d { x with sr := .exitTxs }
    | none => b.setDie d { x with sr := .locked }
  | _ => b

/-- SRX (R108 step 2). -/
def Blk.dieSrx (b : Blk) (d : Nat) : Blk :=
  let x := b.die d
  if x.sr = .locked then
    match b.payDie d with
    | some b => b.setDie d { x with sr := .exitTxs }
    | none => b
  else b

/-- SR_EXIT_TXS_ELAPSED (R108 steps 3 and 4), but for the held requests. -/
def Blk.txsElapsed (b : Blk) (d : Nat) : Blk :=
  let x := b.die d
  if x.sr = .exitTxs then
    let b := (List.range 32).foldl (fun (b : Blk) k => b.setPair (2 * d + k / 16) (k % 16) .reset) b
    (b.setDie d { x with sr := .awake }).grant d
  else b

/-- SR_EXIT_PHY_TIMEOUT (R108, R410): two retries, then the failure is reported. -/
def Blk.phyTimeout (b : Blk) (d : Nat) : Blk :=
  let x := b.die d
  match x.sr with
  | .exitPhy n =>
    if n < 2 then b.setDie d { x with sr := .exitPhy (n + 1) }
    else
      let b := b.setDie d { x with sr := .failed }
      (b.logE kSC_SREXIT { cga := some (cgaOf (gidOf (2 * d) 0 0 0)) }).moduleFault (kSC_SREXIT % 256)
  | _ => b

/-- SR_ENTRY_TIMEOUT (R107 step 2): sequences of the die stop at their next step boundary. -/
def Blk.srEntryTimeout (b : Blk) (d : Nat) : Blk :=
  if (b.die d).sr != .entering then b
  else b.cu.units.foldl (fun (b : Blk) p =>
    if unitDie p.1 != d then b
    else
      let x := b.unit p.1
      match x.seq with
      | none => match x.keptFor with
        | some own => ((b.setUnit p.1 { x with slot := none, keptFor := none }).jobNote (some own) p.1 stPOWER).jobSettle (some own)
        | none => b
      | some s =>
        if s.inStep then b.setUnit p.1 { x with seq := some { s with stop := stPOWER } }
        else b.endSeq p.1 stPOWER) b

/-! ### Counters and training -/

/-- CORR_WINDOW_EXPIRY (R112). -/
def Blk.corrExpiry (b : Blk) (ch : Nat) : Blk := b.setChan ch { b.chan ch with corrWin := 0, corrSaid := false }

/-- Training takes what its class's counter holds of the half-slots that it still needs (R113, R115). -/
def ChanSt.train1 (c : ChanSt) : ChanSt :=
  let n := min c.trainDue (c.cnt.getD cTrain 0)
  { c with cnt := c.cnt.set cTrain (c.cnt.getD cTrain 0 - n), trainDue := c.trainDue - n, spent := c.spent + n }

/-- Half-slots that training needs on a channel; it uses the class's slots until it has had them. -/
def Blk.trainFor (b : Blk) (ch half : Nat) : Blk :=
  let c := b.chan ch
  b.setChan ch ({ c with trainDue := c.trainDue + half }).train1

/-- R112: training finds a failing lane pair on a channel. -/
def Blk.laneFails (b : Blk) (ch : Nat) : Blk :=
  (b.logE kSC_LANE { port := some 11, cga := some (cgaOf (gidOf ch 0 0 0)) }).scEvent (stackOfCh ch) 5

/-- RETRAIN_TIMER (R113): a retraining uses 2,048 slots of the training class on each channel; a failing lane
pair is logged per channel (R112). -/
def Blk.retrainAll (b : Blk) (bad : List Nat) : Blk :=
  let b := (List.range 384).foldl (fun (b : Blk) ch =>
    if (b.die (dieOfCh ch)).sr != .awake then b else b.trainFor ch 4096) b
  bad.foldl (fun (b : Blk) ch =>
    if ch < 384 && (b.die (dieOfCh ch)).sr == .awake then b.laneFails ch else b) b

/-- A write of SC_CTRL: its RW fields, and clr_counters (R116). -/
def Blk.scCtrl (b : Blk) (s val : Nat) : Blk :=
  let o := bSC s
  let b := b.putReg (o + 4) 5 val
  if val.testBit 1 then
    let b := (List.range 24).foldl (fun (b : Blk) i => b.setReg (o + 0x100 + 4 * i) 0) b
    ((b.setReg (o + 0xB0) 0).setReg (o + 0xB4) 0).setReg (o + 0xBC) 0
  else b

/-- The channel that TRN_TARGET names (R118). -/
def Blk.trnChan (b : Blk) : Nat :=
  let w := b.reg (bTRAIN + 8)
  24 * bits w 3 0 + 2 * bits w 7 4 + bits w 8 8

/-- Whether a start begins a run: none is in progress, the target die exists (R118), and it is not in
self-refresh (R109; log 67). -/
def Blk.trnStarts (b : Blk) : Bool :=
  !(b.reg bTRAIN).testBit 0 && decide (bits (b.reg (bTRAIN + 8)) 7 4 ≤ 11) && b.dieTakes (dieOfCh b.trnChan)

/-- Half-slots that a run's bursts use (R88, R115). -/
def Blk.trnHalf (b : Blk) : Nat := 3 * max 1 (bits (b.reg (bTRAIN + 0x18)) 23 0)

/-- The bursts of a run that ends before its end (R115, R401). -/
def Blk.trnStop (b : Blk) : Blk :=
  let c := b.chan b.trnChan
  b.setChan b.trnChan { c with trainDue := c.trainDue - b.trnHalf }

/-- A write of TRN_CTRL (R114, R115). A run's bursts use the training class. -/
def Blk.trnCtrl (b : Blk) (path val : Nat) : Blk :=
  if path = pHOST && b.mode != .test then b.logE kTRAIN_REF { path := path, addr := none }
  else
    let b := b.putReg (bTRAIN + 4) 0xE val
    if val.testBit 0 && b.trnStarts then
      (b.setReg bTRAIN 1).trainFor b.trnChan b.trnHalf
    else b

/-- TRN_RUN_DONE (R115): the mismatch counts of the 72 lane pairs, once the run's bursts have had their slots. A
write run leaves the training buffer with the pattern as the lanes took it, which the spec does not state:
free bytes (log 67). -/
def Blk.trnDone (b : Blk) (errs : List Nat) : Blk :=
  let ch := b.trnChan
  if !(b.reg bTRAIN).testBit 0 || (b.chan ch).trainDue != 0 then b
  else
    let n := fun (i : Nat) => min (errs.getD i 0) 0xFFFF
    let bad := (List.range 72).any (fun i => n i != 0)
    let b := if (b.reg (bTRAIN + 4)).testBit 1 then
        { (b.setChan ch { b.chan ch with train := (List.range 72).map (Config.freeByte b.ctr) }) with ctr := b.ctr + 1 }
      else b
    let b := (List.range 36).foldl (fun (b : Blk) k => b.setReg (bTRAIN + 0x100 + 4 * k) (n (2 * k) + n (2 * k + 1) * 65536)) b
    let fail := fun (w : Nat) => (List.range 32).foldl (fun a i => if 32 * w + i < 72 && n (32 * w + i) != 0 then setBit a i else a) 0
    let b := [0, 1, 2].foldl (fun (b : Blk) w => b.setReg (bTRAIN + 0x40 + 4 * w) (fail w)) b
    let b := b.setReg bTRAIN 2
    if bad then b.laneFails ch else b

/-- TRN_RUN_TIMEOUT (R115). -/
def Blk.trnTimeout (b : Blk) : Blk := if (b.reg bTRAIN).testBit 0 then b.trnStop.setReg bTRAIN 4 else b

/-! ### Scrubbing (R83, R110) -/

def rqScrub : Req := ⟨9, cScrub, none, 0⟩

/-- R83: a finding that is only counted. -/
def Blk.scrubNote (b : Blk) (ch : Nat) : Blk :=
  { b with mem := { b.mem with scrubSeen := tset ch (tget 0 ch b.mem.scrubSeen + 1) b.mem.scrubSeen } }

/-- What the scrubber does to one quarter of a guarded group; making it tag 11 takes two WRW. -/
def Blk.scrubQuarter (b : Blk) (g q mpa : Nat) : Blk :=
  let raw := bytesAt (groupData b.mem.cells g) (64 * q) 64
  let f := b.findQuarter g q
  let b := (readQuarter b rqScrub g q mpa).b
  if f.row = 7 then (logMem (putQuarter b g q raw 0x5A) kMEM_POISON rqScrub g (some mpa) 0).take (gidCh g) cScrub 4
  else if f.row = 6 then b.scrubNote (gidCh g)
  else b

/-- What the scrubber does to one group; a new tag in its four slices takes four WRW. -/
def Blk.scrubGroup (b : Blk) (g mpa : Nat) (isOpen : Bool) : Blk :=
  if isOpen then
    let row := gFind g (groupData b.mem.cells g) (groupMargin b.mem.cells g true)
    let b := (readOpen b rqScrub g (some mpa)).b
    if row = 2 then (logMem (poisonOpen b g) kMEM_POISON rqScrub g (some mpa) 0).take (gidCh g) cScrub 8
    else if row = 4 then b.scrubNote (gidCh g)
    else b
  else (List.range 4).foldl (fun (b : Blk) q => b.scrubQuarter g q (mpa + 64 * q)) b

/-- Groups of a channel, in the order of a pass: row, bank, group. -/
def scrubLen : Nat := 32768 * 256

/-- Half-slots of a scrub step: eight RDW, and ACT before a row's first group and PRE after its last, unless a
sequence holds the row open (R101, R110); PRE too where the bank has another row open. -/
def Blk.scrubCost (b : Blk) (ch bank row grp : Nat) : Nat :=
  if (b.unit (unitNo ch (bank / 2))).cur.getD (bank % 2) none == some row then 16
  else
    16 + (if grp = 0 then 2 else 0) + (if grp = 7 then 2 else 0)
      + (if (b.openRowOf ch bank).any (· != row) then 2 else 0)

/-- The row, bank and group at which a channel's pass stands. -/
def Blk.scrubAt (b : Blk) (ch : Nat) : Nat × Nat × Nat :=
  let p := tget 0 ch b.mem.scrubPos % scrubLen
  (p / 256, p % 256 / 8, p % 8)

/-- The segment that the scrubber comes to, where it is mapped and neither fresh nor retired. -/
def Blk.scrubSeg (b : Blk) (ch : Nat) : Option Nat :=
  let (row, bank, _) := b.scrubAt ch
  (b.rowSeg ch bank row).filter (fun k => !(b.seg k).fresh)

/-- SCRUB_STEP: the next group of a channel's pass. It waits for its charge, for an urgent pair (R103), for the
end of a unit's step (R101) and for a conversion of the segment. -/
def Blk.scrubStep (b : Blk) (ch : Nat) : Blk :=
  let s := stackOfCh ch
  let (row, bank, grp) := b.scrubAt ch
  if 384 ≤ ch || !(b.reg (bSC s + 4)).testBit 0 || (b.die (dieOfCh ch)).sr != .awake then b
  else
    let done := match b.scrubSeg ch with
      | none => some b
      | some k =>
        if !b.bankFree ch bank cScrub 0 || b.rowConv ch bank row then none
        else (b.pay ch cScrub (b.scrubCost ch bank row grp)).map (fun (c : Blk) =>
          let c := if (c.openRowOf ch bank).any (· != row) then c.closeBank ch bank else c
          match b.struc.groupMpa? (gidOf ch bank row grp) with
          | some mpa => c.scrubGroup (gidOf ch bank row grp) mpa (b.seg k).isOpen
          | none => c)
    match done with
    | none => b
    | some b =>
      let next := (tget 0 ch b.mem.scrubPos % scrubLen + 1) % scrubLen
      let b := { b with mem := { b.mem with scrubPos := tset ch next b.mem.scrubPos } }
      if next = 0 then
        let b := { b with mem := { b.mem with scrubFrom := tset ch b.time.toNat b.mem.scrubFrom, scrubLate := b.mem.scrubLate.filter (· != ch) } }
        b.setReg (bSC s + 0xB8) ((b.reg (bSC s + 0xB8) + 1) % 2 ^ 32)
      else b

/-- Budget periods per minute: 60 s of 1.024 µs. -/
def ticksPerMin : Nat := 58593750

/-- R110: passes that run more than 10 % past pass_min. -/
def Blk.scrubLates (b : Blk) : Blk :=
  (List.range 384).foldl (fun (b : Blk) ch =>
    let s := stackOfCh ch
    let el := b.time.toNat - tget 0 ch b.mem.scrubFrom
    if (b.reg (bSC s + 4)).testBit 0 && !b.mem.scrubLate.contains ch
        && decide (11 * bits (b.eff (bSC s + 0x98)) 15 0 * ticksPerMin < 10 * el) then
      let b := { b with mem := { b.mem with scrubLate := ch :: b.mem.scrubLate } }
      (b.logE kSC_SCRUBLATE { port := some 9 }).scEvent s 3
    else b) b

/-! ### Conversion (R78 to R82) -/

/-- Groups of a segment that hold a listed cell. -/
def Blk.listedGroups (b : Blk) (seg : Nat) : List Nat :=
  (b.mem.cells.filterMap (fun c =>
    let g := keyGroup c.1
    match b.struc.groupMpa? g with
    | some a => if a / 0x200000 = seg then some g else none
    | none => none)).eraseDups

/-- Margin cells of the class that a segment leaves. -/
def Blk.dropMargins (b : Blk) (gs : List Nat) (isOpen : Bool) : Blk :=
  b.setCells (cellsDrop b.mem.cells (fun k =>
    decide (dramBytes ≤ k) && (k - dramBytes) % 2 == b2n isOpen && gs.contains (keyGroup k)))

/-- Four guarded quarters with one tag symbol. -/
def putGuarded (b : Blk) (g : Nat) (data : Bytes) (v : Nat) : Blk :=
  (List.range 4).foldl (fun (b : Blk) q => putQuarter b g q (bytesAt data (64 * q) 64) v) b

/-- SEAL of one group: the block and what it adds to failed (R80 step 2). -/
def Blk.sealGroup (b : Blk) (rq : Req) (g : Nat) : Blk × Nat :=
  let d := groupData b.mem.cells g
  let mpa := b.struc.groupMpa? g
  let row := gFind g d (groupMargin b.mem.cells g true)
  if row = 5 then (putGuarded b g d 0, 0)
  else if row = 3 then (putGuarded b g (zeros 256) 0xA5, 0)
  else
    let b := if row = 4 then b else logMem b kMEM_CHECK rq g mpa stCHECK
    (logMem (putGuarded b g d 0x5A) kMEM_POISON rq g mpa 0, 1)

/-- UNSEAL of one group: the block, and what it adds to failed and corrected (R80 step 3). -/
def Blk.unsealGroup (b : Blk) (rq : Req) (g : Nat) : Blk × Nat × Nat :=
  let d := groupData b.mem.cells g
  let m := groupMargin b.mem.cells g false
  let mpa := b.struc.groupMpa? g
  let fs := (List.range 4).map (fun q => qFindPlain (bytesAt d (64 * q) 64) (bytesAt m (8 * q) 8))
  let fixed := (fs.filter (fun f => f.row == 4)).length
  let bad := (fs.filter (fun f => f.row == 6 || f.row == 7)).length
  let b := (List.range fixed).foldl (fun (b : Blk) _ => b.corrected (gidCh g)) b
  let b := fs.foldl (fun (b : Blk) f => if f.row = 7 then logMem b kMEM_UNCORR rq g mpa stUNCORR else b) b
  if bad != 0 then (logMem (putOpen b g d 3 0) kMEM_POISON rq g mpa 0, bad, fixed)
  else if fs.all (fun f => f.row == 5) then (putOpen b g (zeros 256) 2 0, 0, fixed)
  else (putOpen b g ((fs.map QFind.data).flatten) 1 0, 0, fixed)

/-- Treats one segment whole: every group, the class bit, and the counts. -/
def Blk.convertSeg (b : Blk) (c : Conv) (seg : Nat) (path : Nat) : Blk × Conv :=
  let gs := b.listedGroups seg
  let rq : Req := ⟨7, cHub, some c.q, path⟩
  let (b, fl, co) := gs.foldl (fun (a : Blk × Nat × Nat) g =>
    if c.toGuarded then let (x, n) := a.1.sealGroup rq g; (x, a.2.1 + n, a.2.2)
    else let (x, n, k) := a.1.unsealGroup rq g; (x, a.2.1 + n, a.2.2 + k)) (b, 0, 0)
  let b := b.dropMargins gs c.toGuarded
  let b := b.setSeg seg { b.seg seg with isOpen := !c.toGuarded }
  (b, { c with now := c.now.filter (· != seg), failed := c.failed + fl, corrected := c.corrected + co })

/-- Takes further segments into treatment: up to three in different thirds, in ascending order. A
segment already in the target class is left; a fresh one changes class at once (R79, R80). -/
def Blk.convNext (b : Blk) : Nat → Conv → Blk × Conv
  | 0, c => (b, c)
  | fuel + 1, c =>
    match c.rest with
    | [] => (b, c)
    | s :: t =>
      let x := b.seg s
      if c.stop != 0 then (b, c)
      else if x.isOpen != c.toGuarded then b.convNext fuel { c with rest := t }
      else if x.fresh then (b.setSeg s { x with isOpen := !c.toGuarded }).convNext fuel { c with rest := t }
      else if 3 ≤ c.now.length || c.now.any (fun k => (b.struc.segThirds k).any (b.struc.segThirds s).contains) then (b, c)
      else b.convNext fuel { c with now := c.now ++ [s], rest := t }

/-- The status with which a conversion ends (R82). -/
def Conv.status (c : Conv) : Nat :=
  if c.stop != 0 then c.stop else if c.failed != 0 then (if c.toGuarded then stCHECK else stUNCORR) else stOK

/-- Stores a conversion's progress; it ends when nothing is left to treat. -/
def Blk.convKeep (b : Blk) (c : Conv) : Blk :=
  let others := b.mem.convs.filter (fun k => !(k.q == c.q && k.seq == c.seq))
  if c.now.isEmpty && (c.rest.isEmpty || c.stop != 0) then
    let b := { b with mem := { b.mem with convs := others } }
    b.finish c.q c.seq c.status (if c.corrected != 0 && c.failed = 0 then flagCorrected else 0) (c.failed + c.corrected * 2 ^ 32)
  else { b with mem := { b.mem with convs := others ++ [c] } }

/-- SEAL and UNSEAL (R78, R79): the checks, and the first segments. -/
def Blk.convStart (b : Blk) (q seq op : Nat) (toGuarded : Bool) : Blk :=
  match b.fresh? q seq op with
  | none => b
  | some f =>
    let e := f.raw
    let base := fld e 0x20 8
    let len := fld e 0x28 8
    if b.mem.convs.any (fun c => c.q == q && c.seq == seq) then b
    else if base % 0x200000 != 0 || len % 0x200000 != 0 || len = 0 || !zeroAt e 0x30 80 then b.finish q seq stDESC 0 0
    else
      let ok := match b.struc.rangeIn base len with
        | some r => r.convertible && r.owners.testBit q
        | none => false
      if !ok then b.finish q seq stRANGE 0 0
      else
        let segs := (List.range (len / 0x200000)).map (base / 0x200000 + ·)
        let b := b.updFlight q seq (fun f => { f with writes := [(base, len)], scope := max f.scope 2 })
        let (b, c) := b.convNext segs.length ⟨q, seq, toGuarded, [], segs, 0, 0, 0⟩
        b.convKeep c

/-- R80 step 1: whether a sequence in a unit still touches a segment. -/
def Blk.segTouched (b : Blk) (seg : Nat) : Bool :=
  b.cu.units.any (fun p =>
    (p.2.seq.isSome || p.2.slot.isSome) && [0, 1].any (fun s =>
      [p.2.cur.getD s none, p.2.pend.getD s none].any (fun r => match r with
        | some row => b.rowSeg (unitCh p.1) (unitBank p.1 s) row == some seg
        | none => false)))

/-- CONVERSION_SEGMENT_DONE (R80, R81), but for the accesses that waited. Each row costs 132 slots of the
hub-traffic class. -/
def Blk.convSegDone (b : Blk) (seg : Nat) : Blk :=
  match b.mem.convs.find? (fun c => c.now.contains seg) with
  | none => b
  | some c =>
    if (c.toGuarded && b.segTouched seg) || !b.segPays cHub seg then b
    else
      let path := ((b.flight? c.q c.seq).map Flight.path).getD 0
      let (b, c) := (b.chargeSeg cHub seg 264).convertSeg c seg path
      let (b, c) := b.convNext c.rest.length c
      b.convKeep c

/-- SEGMENT_INIT_DONE (R67), for an access of a class. -/
def Blk.segInit (b : Blk) (seg cls : Nat) : Blk :=
  if b.struc.mapped seg && (b.seg seg).fresh && decide (cls < 6) && b.segPays cls seg then initSeg b cls seg else b

/-! ### The commands -/

def execSegmentInitDone (init : SegInit) (s : State) : Out := hubAct s (fun b => b.segInit init.seg init.cls)
def execSealSegs (q seq : Nat) (s : State) : Out := hubAct s (fun b => b.convStart q seq 0x40 true)
def execUnsealSegs (q seq : Nat) (s : State) : Out := hubAct s (fun b => b.convStart q seq 0x41 false)
def execScrubStep (ch : Nat) (s : State) : Out := hubAct s (fun b => b.scrubStep ch)
def execAct (ch port cls bank row : Nat) (s : State) : Out := hubAct s (fun b => (b.chAct ch port cls bank row).pump ch)
def execPre (ch port cls bank : Nat) (s : State) : Out := hubAct s (fun b => (b.chPre ch port cls bank).pump ch)
def execRdh (ch port cls bank row grp half : Nat) (keep : Bool) (s : State) : Out :=
  hubAct s (fun b => b.chRdh ch port cls bank row grp half keep)
def execWrh (ch port cls bank row grp half : Nat) (keep : Bool) (data : Bytes) (s : State) : Out :=
  hubAct s (fun b => b.chWrh ch port cls bank row grp half keep data)
def execRdw (ch : Nat) (ask : ColAsk) (bank row word : Nat) (s : State) : Out :=
  hubAct s (fun b => b.chRdw ch ask.port ask.cls bank row word ask.keep)
def execWrw (ch : Nat) (ask : ColAsk) (bank row word : Nat) (data : Bytes) (s : State) : Out :=
  hubAct s (fun b => b.chWrw ch ask.port ask.cls bank row word ask.keep data)
def execRefpr (ch pair : Nat) (s : State) : Out := hubAct s (fun b => b.chRefpr ch pair)
def execRefreshDue (ch pair : Nat) (s : State) : Out := hubAct s (fun b => b.refreshDue ch pair)
def execRefreshLate (ch pair : Nat) (s : State) : Out := hubAct s (fun b => b.refreshLate ch pair)
def execRefreshPullIn (ch pair : Nat) (s : State) : Out := hubAct s (fun b => b.chPullIn ch pair)
def execRowIdleTimeout (ch bank : Nat) (s : State) : Out := hubAct s (fun b => b.rowIdle ch bank)
def execSre (die : Nat) (s : State) : Out := hubAct s (fun b => b.dieSre die)
def execSrx (die : Nat) (s : State) : Out := hubAct s (fun b => b.dieSrx die)
def execSrEntryTimeout (die : Nat) (s : State) : Out := hubAct s (fun b => b.srEntryTimeout die)
def execSrExitPhyLocked (die : Nat) (s : State) : Out := hubAct s (fun b => b.phyLocked die)
def execCorrWindowExpiry (ch : Nat) (s : State) : Out := hubAct s (fun b => b.corrExpiry ch)
def execRetrainTimer (bad : List Nat) (s : State) : Out := hubAct s (fun b => b.retrainAll bad)
def execTrnRunDone (errs : List Nat) (s : State) : Out := hubAct s (fun b => b.trnDone errs)
def execTrnRunTimeout (s : State) : Out := hubAct s (fun b => b.trnTimeout)

end Sys2Proof.Machine
end

