-- ==== Sys2Proof/Machine/Abort.lean ====
section
/-! DEFINITION. Ending entries before their work is complete: a layout drain that aborts (R45), a
power entry (R363), a trip (R397). -/

namespace Sys2Proof.Machine
open Sys2Proof

/-- Sequences of an operation stop at their next step boundary, and it ends with a status. -/
def Blk.stopJob (b : Blk) (q seq st : Nat) : Blk :=
  let own := fun (p : Nat × UnitSt) => p.2.seq.any (fun s => s.cmd.ownedBy q seq)
  let us := (b.cu.units.filter own).map (fun p => p.1)
  let b := { b with cu := { b.cu with waiting := b.cu.waiting.filter (fun c => !c.ownedBy q seq) } }
  let b := b.updJob q seq (fun j => { j with errs := [(0, st)], prog := [], rows := [], chans := [], failed := true })
  let b := us.foldl (fun (b : Blk) u =>
    let x := b.unit u
    match x.seq with
    | none => b
    | some s => if s.inStep then b.setUnit u { x with seq := some { s with stop := st } } else b.endSeq u st) b
  b.jobSettle (some (q, seq))

/-- The units of an operation stop at once, with their state undefined, and it ends with a status. -/
def Blk.killJob (b : Blk) (q seq st : Nat) : Blk :=
  match b.job? q seq with
  | none => b
  | some j =>
    let n := b.ctr
    let hit := fun (x : UnitSt) => x.keptFor == some (q, seq) || x.seq.any (fun s => s.cmd.ownedBy q seq)
      || x.xfers.any (fun t => t.cmd.ownedBy q seq)
    let b := { b with
      ctr := n + 512
      cu := { b.cu with
        waiting := b.cu.waiting.filter (fun c => !c.ownedBy q seq)
        units := b.cu.units.map (fun (p : Nat × UnitSt) => if hit p.2 then (p.1, p.2.discard n) else p) } }
    b.jobEnd j st j.flags j.result

/-- Forgets an entry's outstanding requests. -/
def Blk.dropTxns (b : Blk) (q seq : Nat) : Blk :=
  let b := { b with fab := { b.fab with txns := b.fab.txns.filter (fun t => !(t.q == q && t.seq == seq)) } }
  b.updFlight q seq (fun f => { f with txns := [], out := [] })

/-- How an entry is ended. -/
inductive EndKind where
  /-- in-bank sequences stop at their next step boundary, a conversion after its present segments, TILE_MM at
  its next tile and VEC_PROG at its next row -/
  | boundary
  /-- everything stops at once -/
  | now
  deriving DecidableEq, Repr

/-- Ends a conversion with a status (R82, R363, R397). -/
def Blk.endConv (b : Blk) (c : Conv) (st : Nat) (k : EndKind) : Blk :=
  match k with
  | .boundary => b.convKeep { c with stop := st }
  | .now =>
    let b := { b with mem := { b.mem with convs := b.mem.convs.filter (fun x => !(x.q == c.q && x.seq == c.seq)) } }
    b.finish c.q c.seq st 0 (c.failed + c.corrected * 2 ^ 32)

/-- Ends an entry that is accepted and not complete, with a status. An entry that has not started
executes nothing. -/
def Blk.endEntry (b : Blk) (f : Flight) (st : Nat) (k : EndKind) : Blk :=
  if f.stage = .done then b
  else if f.stage = .accepted then b.finish f.q f.seq st 0 0
  else if (b.job? f.q f.seq).isSome then (if k = .now then b.killJob f.q f.seq st else b.stopJob f.q f.seq st)
  else match b.tileJob? f.q f.seq, (b.hub.run.toList ++ b.hub.queue).find? (fun r => r.q == f.q && r.seq == f.seq),
      b.mem.convs.find? (fun c => c.q == f.q && c.seq == f.seq) with
    | some j, _, _ => if k = .now then b.tileEnd j st j.flags else b.tileStop j st
    | none, some r, _ => if k = .now then b.vecEnd r st else b.vecStop r st
    | none, none, some c => b.endConv c st k
    | none, none, none =>
      let b := b.dropTxns f.q f.seq
      let b := if eOpcode f.raw = 0x22 && f.progress != 0 then b.sfuUndefined f f.progress else b
      b.finish f.q f.seq st 0 f.result

/-- Ends every accepted entry that is not complete. -/
def Blk.endAll (b : Blk) (st : Nat) (k : EndKind) : Blk :=
  (b.flights.foldl (fun (b : Blk) f => b.endEntry f st k) b).veIdle

end Sys2Proof.Machine
end

