-- ==== Sys2Proof/Machine/Sec.lean ====
section
/-! DEFINITION. Firmware objects, operator keys, the identity, measurements, reports and operating
modes (R418 to R435). -/

namespace Sys2Proof.Machine
open Sys2Proof

/-! ### Reason codes of ID_OBJ_STS (R433) -/

def oCONTAINER : Nat := 1
def oTARGET : Nat := 2
def oMODULE : Nat := 3
def oKEY : Nat := 4
def oDIGEST : Nat := 5
def oSIGNATURE : Nat := 6
def oOLD : Nat := 7
def oRESERVED : Nat := 8
def oLAST : Nat := 0xA
def oINUSE : Nat := 0xB
def oNOTPERM : Nat := 0xC
def oSOURCE : Nat := 0x21
def oBUSY : Nat := 0x30

/-- The first failing check's reason; 0 where all pass. -/
def firstReason : List (Bool × Nat) → Nat
  | [] => 0
  | (bad, r) :: t => if bad then r else firstReason t

def orderCode : Bytes := ascii "CRL2-768-L" ++ zeros 6

/-- The first 8 bytes of the SHAKE256 digest of a key (R41, R423). -/
def fpOf (pub : Bytes) : Nat := leNat (shake256 pub 8)

/-! ### Measurement (R430) -/

/-- Extends measurement register n with a 64-byte item. -/
def Blk.measure (b : Blk) (n : Nat) (d : Bytes) : Blk :=
  { b with sec := { b.sec with
      m := b.sec.m.set n (extend (b.sec.m.getD n []) d)
      counts := b.sec.counts.set n (min (b.sec.counts.getD n 0 + 1) 65535) } }

/-! ### Identity (R423 to R426) -/

/-- R424: the seed of the identity key. -/
def idSeed : Bytes := shake256 (Config.pufSecret ++ ascii "CRL2-ID") 32
def idPublic : Bytes := mldsaPublic idSeed

/-- ID_IDFP (R439). -/
def Blk.idFp (b : Blk) : Nat := if b.sec.ident then fpOf idPublic else 0

/-- The device certificate (R426). -/
def certificate : Bytes :=
  ascii "RLIC" ++ leBytes 2 1 ++ zeros 2 ++ orderCode ++ bytesAt Config.serial 0 16 ++ bytesAt idPublic 0 1952
    ++ leBytes 8 Config.devKeyFp ++ bytesAt Config.certSig 0 3309 ++ zeros 3

/-! ### Operator keys (R427 to R429) -/

/-- The enrolled keys. -/
def Blk.opKeys (b : Blk) : List Bytes := b.sec.keys.slots.filter (fun k => !k.isEmpty)

/-- R427: the valid copy with the higher counter; copy 0 on a tie. -/
def newerKeys (a c : Option KeyTbl) : Option KeyTbl :=
  match a, c with
  | some x, some y => if x.counter < y.counter then some y else some x
  | some x, none => some x
  | none, y => y

/-- Checks of an enrolment record (R428, R429), by reason. -/
def Blk.enrolReason (b : Blk) (r : Bytes) (len path : Nat) : Nat :=
  let t := b.sec.keys
  let act := fld r 6 1
  let slot := fld r 7 1
  let none' := t.slots.all List.isEmpty
  let first := none' && act == 1 && zeroAt r 0x18 8 && zeroAt r 0x800 3309
  let signer := b.opKeys.find? (fun k => fpOf k == fld r 0x18 8)
  let dig := shake256 (r.take 0x7C0) 64
  let after := t.slots.set slot []
  firstReason [
    (len != 5376 || r.take 4 != ascii "RLKE" || fld r 4 2 != 1 || !(act == 1 || act == 2) || decide (3 < slot), oCONTAINER),
    (fld r 0x10 8 != 0 && fld r 0x10 8 != b.idFp, oMODULE),
    (first && path != pSIDE, oNOTPERM),
    (!first && signer.isNone, oKEY),
    (bytesAt r 0x7C0 64 != dig, oDIGEST),
    (!first && !mldsaVerify (signer.getD []) (ascii "CRL2-ENROL") dig (bytesAt r 0x800 3309), oSIGNATURE),
    (decide (fld r 8 4 ≤ t.counter), oOLD),
    (fld r 0xC 4 != 0 || !zeroAt r 0x14ED 19 || (act == 2 && !zeroAt r 0x20 1952), oRESERVED),
    (act == 1 && !(t.slots.getD slot []).isEmpty, oINUSE),
    (act == 2 && after.all List.isEmpty, oLAST)]

/-- Applies a record: the older copy is written and M2 extended (R429). -/
def Blk.enrol (b : Blk) (r : Bytes) (len path : Nat) : Blk × Nat :=
  let why := b.enrolReason r len path
  if why != 0 then (b, why)
  else
    let t := b.sec.keys
    let k := if fld r 6 1 = 1 then bytesAt r 0x20 1952 else []
    let n : KeyTbl := ⟨t.slots.set (fld r 7 1) k, fld r 8 4⟩
    let old0 := match b.sec.key0, b.sec.key1 with
      | none, _ => true
      | some _, none => false
      | some x, some y => decide (x.counter ≤ y.counter)
    let b := { b with sec := { b.sec with
      keys := n
      key0 := if old0 then some n else b.sec.key0
      key1 := if old0 then b.sec.key1 else some n } }
    (b.measure 2 n.item, 0)

/-! ### Firmware (R420 to R422) -/

def fwBodyMax (c : Nat) : Nat := if c = 0 then 512 * 1024 else if c = 1 then 8 * 2 ^ 20 else 64 * 1024

def Blk.fwOf (b : Blk) (c : Nat) : FwSt := b.sec.fw.getD c .factory

/-- Checks of a firmware image (R420, R421), by reason. -/
def Blk.fwReason (b : Blk) (r : Bytes) (len : Nat) : Nat :=
  let c := fld r 6 1
  let n := fld r 0xC 4
  let key := [Config.romKey 0, Config.romKey 1].find? (fun k => fpOf k == fld r 0x20 8)
  let dig := shake256 (r.take 0x40 ++ bytesAt r 0xDC0 n) 64
  firstReason [
    (r.take 4 != ascii "RLGF" || fld r 4 2 != 1 || decide (2 < c) || decide (fwBodyMax c < n) || len != 0xDC0 + n, oCONTAINER),
    (bytesAt r 0x10 16 != orderCode, oTARGET),
    (key.isNone, oKEY),
    (bytesAt r 0x40 64 != dig, oDIGEST),
    (!mldsaVerify (key.getD []) (ascii "CRL2-FIRMWARE") dig (bytesAt r 0x80 3309), oSIGNATURE),
    (decide (fld r 0xA 2 < (b.fwOf c).floor), oOLD),
    (fld r 7 1 != 0 || !zeroAt r 0x28 24 || !zeroAt r 0xD6D 83, oRESERVED)]

def fwCopyOf (r : Bytes) : FwCopy := ⟨fld r 8 2, fld r 0xA 2, bytesAt r 0x40 64, r⟩

/-- Stages an image over the copy of its component that is not running (R422). -/
def Blk.stage (b : Blk) (r : Bytes) (len : Nat) : Blk × Nat :=
  let why := b.fwReason r len
  if why != 0 then (b, why)
  else
    let c := fld r 6 1
    let x := b.fwOf c
    let x := if x.runsB then { x with a := some (fwCopyOf r) } else { x with b := some (fwCopyOf r) }
    (({ b with sec := { b.sec with fw := b.sec.fw.set c x } }).measure 6 (bytesAt r 0x40 64), 0)

/-- The copy that R415 and R421 choose: higher security version, then version, then A; whether it is
B. A copy below the floor is not valid. -/
def FwSt.choose (x : FwSt) : Option (FwCopy × Bool) :=
  let ok := fun (c : Option FwCopy) => match c with
    | some k => if k.secVer < x.floor then none else some k
    | none => none
  match ok x.a, ok x.b with
  | some a, some c =>
    if a.secVer < c.secVer || (a.secVer == c.secVer && decide (a.version < c.version)) then some (c, true) else some (a, false)
  | some a, none => some (a, false)
  | none, some c => some (c, true)
  | none, none => none

/-- Starts the chosen copy of a component. -/
def FwSt.run (x : FwSt) (k : FwCopy) (isB : Bool) : FwSt := { x with runsB := isB, version := k.version, digest := k.digest }

/-- The security version of the running copy becomes the floor (R421). -/
def FwSt.raise (x : FwSt) : FwSt :=
  match (if x.runsB then x.b else x.a) with
  | some k => { x with floor := max x.floor k.secVer }
  | none => x

/-! ### Reports (R431) -/

def Blk.report4032 (b : Blk) (nonce : Bytes) : Bytes :=
  let signed := b.sec.ident
  let flags := b.reg bSDG % 2 + 2 * b2n ((b.reg oSDG_STATUS).testBit 2) + 4 * b2n (!signed) + 8 * b2n (!b.lay.active)
  let head := ascii "RLAR" ++ leBytes 2 1 ++ zeros 2 ++ bytesAt nonce 0 32 ++ orderCode ++ [0xB0, 0x43]
    ++ leBytes 1 b.mode.code ++ leBytes 1 flags ++ leBytes 4 b.sdg.startups ++ leBytes 8 b.idFp ++ leBytes 4 b.time32
    ++ leBytes 4 b.struc.gen ++ leBytes 4 (b.reg (bSDG + 0x28)) ++ leBytes 2 (b.fwOf 1).version ++ leBytes 2 (b.fwOf 0).version
    ++ leBytes 2 b.struc.modNum ++ zeros 6 ++ (b.sec.counts.map (leBytes 2)).flatten ++ zeros 16
    ++ (b.sec.m.map (fun (m : Bytes) => bytesAt m 0 64)).flatten
  let dig := shake256 head 64
  head ++ dig ++ (if signed then bytesAt (mldsaSign idSeed (ascii "CRL2-ATTEST") dig) 0 3309 else zeros 3309) ++ zeros 19

/-! ### Objects over the host (R433) -/

def oOBJ_STS : Nat := bIDENT + 0x114
def Blk.objDone (b : Blk) (why : Nat) : Blk := b.setReg oOBJ_STS (why + 256 * (if why = 0 then 2 else 3))

/-- The module's own accesses to objects that the host placed. -/
def rqObj : Req := ⟨7, cHub, none, pHOST⟩

def Blk.objSrc (b : Blk) : Nat := b.reg64 (bIDENT + 0x108) % 2 ^ 40
def Blk.objLen (b : Blk) : Nat := b.reg (bIDENT + 0x110) % 2 ^ 24

/-- Whether the object range may be used: aligned, and wholly inside one guarded region. -/
def Blk.objPlace (b : Blk) (len : Nat) : Bool := b.objSrc % 64 == 0 && decide (0 < len) && b.struc.inGuarded b.objSrc len

/-- ID_OBJ kind 0 and kind 1: the object is copied and checked. -/
def Blk.objLoad (b : Blk) (f : Blk → Bytes → Nat → Blk × Nat) : Blk :=
  let n := b.objLen
  if !b.objPlace n then b.objDone oSOURCE
  else
    let r := readRange b rqObj b.objSrc n
    if r.st != stOK then r.b.objDone oSOURCE
    else let (b, why) := f r.b r.data n; b.objDone why

/-- Writes an object back to the host's place. -/
def Blk.objPut (b : Blk) (d : Bytes) : Blk :=
  let (b, st) := writeRange b rqObj b.objSrc d
  b.objDone (if st = stOK then 0 else oSOURCE)

/-- ID_OBJ kind 2. -/
def Blk.objReport (b : Blk) : Blk :=
  if b.objLen != 4032 then b.objDone oCONTAINER
  else if !b.objPlace 4032 then b.objDone oSOURCE
  else
    let r := readRange b rqObj b.objSrc 32
    if r.st != stOK then r.b.objDone oSOURCE else r.b.objPut (r.b.report4032 r.data)

/-- ID_OBJ kind 3. -/
def Blk.objCert (b : Blk) : Blk :=
  if b.objLen != 5312 then b.objDone oCONTAINER
  else if !b.objPlace 5312 then b.objDone oSOURCE
  else b.objPut certificate

/-! ### Operating modes (R418, R419) -/

/-- A link stays DISABLED (R324, R418). -/
def Blk.linkOff (b : Blk) (l : Nat) : Blk :=
  let b := b.linkDown l
  b.setLink l { b.link l with st := .disabled }

/-- Enters a mode; M5 is extended with its code. -/
def Blk.enterMode (b : Blk) (m : OpMode) (reason : Nat) : Blk :=
  let b := ({ b with mode := m, sec := { b.sec with reason := reason } }).measure 5 (leBytes 1 m.code ++ zeros 63)
  if m = .recovery then
    let b := (List.range 32).foldl Blk.linkOff b
    { b with net := { b.net with linkUp := 0 } }
  else b

/-- A write of ID_MODE (R419, R433). A request field of 0 asks for nothing (DEDUCED, log 20). -/
def Blk.modeReq (b : Blk) (val : Nat) : Blk :=
  let b := if val.testBit 8 then b.clrReg (bIDENT + 0x100) 0x100 else b
  let r := bits val 5 4
  if r = 0 then b
  else if r = 1 && b.mode = .startup then b.enterMode .normal 1
  else b.orReg (bIDENT + 0x100) 0x100

/-- SET_MODE over the sideband (R418): the status of its response. -/
def Blk.sideMode (b : Blk) (m : Nat) : Blk × Nat :=
  if m = 3 then (if b.mode = .recovery then b else b.enterMode .recovery 3, 0)
  else if m = 2 && (b.mode = .startup || b.mode = .normal) then (b.enterMode .test 3, 0)
  else if m = 1 && b.mode = .startup then (b.enterMode .normal 3, 0)
  else (b, oNOTPERM)

/-! ### Sideband responses (R434, R406) -/

def Blk.resp (b : Blk) (d : Bytes) : Blk := { b with sec := { b.sec with resps := b.sec.resps ++ [d] } }

/-- MCTP_RESPONSE_TIMEOUT (R406): the oldest response that was not collected is discarded. -/
def Blk.respLost (b : Blk) : Blk := { b with sec := { b.sec with resps := b.sec.resps.drop 1 } }

end Sys2Proof.Machine
end

