-- ==== Sys2Proof/Machine/Layout.lean ====
section
/-! DEFINITION. Commits (R51 to R56, with the groups of R117, R290, R308, R355, R379) and layout loads
(R42 to R50). -/

namespace Sys2Proof.Machine
open Sys2Proof

/-! ### Blocks with a commit register -/

/-- A block's place in the table of commit states. -/
def commitKey : CBlk → Nat
  | .window => 0
  | .power => 1
  | .net => 2
  | .stack s => 3 + s
  | .queue q => 19 + q

def commitBase : CBlk → Nat
  | .window => bWINDOW
  | .power => bPOWER
  | .net => bNET
  | .stack s => bSC s
  | .queue q => bQP q

/-- The offsets of each committed group, by group bit. -/
def commitGroups : CBlk → List (List Nat)
  | .window => [[0, 4], [8]]
  | .power => [[0x10, 0x14], [0x18], [0x1C, 0x20, 0x24, 0x28, 0x2C, 0x30, 0x34]]
  | .net => [[0x20, 0x24, 0x28, 0x2C, 0x30], (List.range 8).map (fun i => 0x40 + 4 * i)]
  | .stack _ => [[0x10, 0x14, 0x18], (List.range 12).map (fun i => 0x20 + 4 * i),
      (List.range 12).map (fun i => 0x50 + 4 * i) ++ [0x80, 0x84, 0x88], [0x90], [0x94], [0x98]]
  | .queue _ => [[0, 4, 8, 0xC, 0x10]]

def commitBlocks : List CBlk :=
  [.window, .power, .net] ++ (List.range 16).map CBlk.stack ++ (List.range 64).map CBlk.queue

def Blk.commitSt (b : Blk) (c : CBlk) : CommitSt := tget .reset (commitKey c) b.commits
def Blk.setCommit (b : Blk) (c : CBlk) (x : CommitSt) : Blk := { b with commits := tset (commitKey c) x b.commits }

/-- R56: a commit status register. -/
def CommitSt.word (x : CommitSt) : Nat := x.gen.toNat * 65536 + x.result * 16384 + x.reason * 256

/-- Offsets of the groups that a mask names. -/
def groupOffs (c : CBlk) (mask : Nat) : List Nat :=
  (((commitGroups c).zipIdx.filter (fun p => mask.testBit p.2)).map (fun p => p.1)).flatten

/-- The value that a commit would leave in a register: the shadow of a named group, or the value in
effect (R52). -/
def Blk.after (b : Blk) (c : CBlk) (mask off : Nat) : Nat :=
  if (groupOffs c mask).contains off then b.reg (commitBase c + off) else b.eff (commitBase c + off)

/-- R295: a ring in module memory. -/
def Blk.ringOk (b : Blk) (q base bytes : Nat) : Bool :=
  match b.struc.regionAt base with
  | none => false
  | some r => !r.isOpen && decide (base + bytes ≤ r.base + r.len) && r.owners.testBit q

/-- The check of one group (R117, R290, R308, R355, R379). -/
def Blk.groupOk (b : Blk) (c : CBlk) (mask g : Nat) : Bool :=
  let v := b.after c mask
  match c with
  | .window =>
    if g = 0 then decide ((v 0 + 2 ^ 32 * v 4) / 2 ^ 21 * 2 ^ 21 + 2 ^ 28 ≤ dramBytes)
    else
      let w := v 8
      let size := 2 ^ bits w 30 26
      let area := bits w 15 0 * 4096
      decide (12 ≤ bits w 30 26) && decide (bits w 30 26 ≤ 21) && multOf area size
        && decide (area + (bits w 25 16 + 1) * size ≤ 2 ^ 28)
  | .power =>
    if g = 0 then runDozeOk (v 0x10) && dozeWatchOk (v 0x14)
    else if g = 1 then decide (v 0x18 < 16)
    else decide ((List.range 6).foldl (fun a i => a + popc (v (0x20 + 4 * i)) 32) 0 ≤ 16)
  | .net =>
    if g = 0 then
      let cfg := v 0x30
      decide (bits cfg 3 0 ≤ 12) && decide (bits cfg 7 4 ≤ 10)
        && b.struc.inGuarded (v 0x20 + 2 ^ 32 * v 0x24) (128 * 2 ^ bits cfg 3 0)
        && b.struc.inGuarded (v 0x28 + 2 ^ 32 * v 0x2C) (32 * 2 ^ bits cfg 7 4)
        && b.net.qpcs.all (fun p => p.2.phase != .ready)
    else true
  | .stack _ =>
    if g = 0 then
      budgetsOk [bits (v 0x10) 15 0, bits (v 0x10) 31 16, bits (v 0x14) 15 0, bits (v 0x14) 31 16, bits (v 0x18) 15 0, bits (v 0x18) 31 16]
    else if g = 2 then
      (List.range 12).all (fun d =>
        let n := bits (v (0x80 + 4 * (d / 4))) (8 * (d % 4) + 4) (8 * (d % 4))
        decide (n ≤ 16) && decide (n ≤ popc (v (0x50 + 4 * d)) 32))
    else if g = 3 then
      let w := v 0x90
      decide (1 ≤ bits w 5 0) && decide (bits w 5 0 < bits w 13 8) && decide (bits w 13 8 ≤ 60)
    else if g = 5 then decide (1 ≤ v 0x98)
    else true
  | .queue q =>
    let cfg := v 0x10
    let sq := bits cfg 4 0
    let cq := bits cfg 12 8
    b.quiesced q && decide (4 ≤ sq) && decide (sq ≤ 16) && decide (4 ≤ cq) && decide (cq ≤ 16)
      && (!cfg.testBit 16 || b.ringOk q (v 0 + 2 ^ 32 * v 4) (128 * 2 ^ sq))
      && (!cfg.testBit 17 || b.ringOk q (v 8 + 2 ^ 32 * v 0xC) (32 * 2 ^ cq))

/-- R52: why a commit write is refused; 0 where it is accepted. In step 4 of a load the reason is IMAGE_BUSY
(R44); which of the others is reported where several hold is a DESIGN CHOICE, log 64. -/
def Blk.commitReason (b : Blk) (c : CBlk) (gen mask : Nat) : Nat :=
  let x := b.commitSt c
  let n := (commitGroups c).length
  if b.lay.phase = .applying then 4
  else if gen != (x.gen.toNat + 1) % 65536 then 1
  else if x.pend.isSome then 2
  else if 2 ^ n ≤ mask then 5
  else if (List.range n).any (fun g => mask.testBit g && !b.groupOk c mask g) then 3
  else 0

/-- COMMIT (R51 to R54): a commit write. -/
def Blk.commitWrite (b : Blk) (c : CBlk) (path val : Nat) : Blk :=
  let gen := bits val 31 16
  let mask := bits val 15 0
  let x := b.commitSt c
  let why := b.commitReason c gen mask
  if why != 0 then
    (b.setCommit c { x with result := 2, reason := why }).logE kCOMMIT_REF { path := path, detail := why }
  else
    b.setCommit c { x with
      captured := (groupOffs c mask).map (fun o => (o, BitVec.ofNat 32 (b.reg (commitBase c + o))))
      pend := some (BitVec.ofNat 16 gen)
      groups := mask
      result := 1
      reason := 0 }

/-- What a commit changes besides its registers, when it takes effect (R98, R290, R307). -/
def Blk.commitMore (b : Blk) (c : CBlk) (mask : Nat) : Blk :=
  match c with
  | .window => { b with win := { b.win with mirror := [], violated := [], verified := [] } }
  | .queue q => if mask.testBit 0 then b.setQp q { b.qp q with everCommitted := true } else b
  | .stack s =>
    if mask.testBit 2 then (List.range 12).foldl (fun (b : Blk) d => b.setDie (12 * s + d) { b.die (12 * s + d) with frac := 0 }) b else b
  | _ => b

/-- R53: a pending commit takes effect. -/
def Blk.commitLand (b : Blk) (c : CBlk) : Blk :=
  let x := b.commitSt c
  match x.pend with
  | none => b
  | some g =>
    let b := x.captured.foldl (fun (b : Blk) p => b.setReg (commitBase c + p.1 + 0x800) p.2.toNat) b
    let b := b.setCommit c { x with captured := [], gen := g, pend := none, groups := 0, result := 0, reason := 0 }
    b.commitMore c x.groups

/-- Every pending commit takes effect at a budget-period boundary. -/
def Blk.commitAll (b : Blk) : Blk := commitBlocks.foldl Blk.commitLand b

/-! ### Loading an image (R42 to R44) -/

def oLAY_CTRL : Nat := bLAYOUT + 0xC

/-- R42, R43: a refusal. -/
def Blk.layReject (b : Blk) (r : Rej) : Blk :=
  let b := (b.setReg (bLAYOUT + 0x20) (r.reason + 256 * (r.sec % 256))).setReg (bLAYOUT + 0x24) r.off
  (b.layEvent 1).logE kLAYOUT_REJ { detail := r.reason }

/-- Source of a load. -/
def Blk.laySrc (b : Blk) : Nat := b.reg64 (bLAYOUT + 0x10) % 2 ^ 40
def Blk.layLen (b : Blk) : Nat := b.reg (bLAYOUT + 0x18) % 2 ^ 23

/-- The layout engine's own accesses. -/
def rqLay : Req := ⟨4, cHub, none, 0⟩

/-- LAY_LOAD (R44 step 1): a write of LAY_CTRL; a load returns the module to RUN (R360). The write sets persist and
drain_abort even where its load is refused BUSY, and the load in progress then uses them: DESIGN CHOICE, log 78. -/
def Blk.layCtrl (b : Blk) (val : Nat) : Blk :=
  let b := b.putReg oLAY_CTRL 6 val
  if !val.testBit 0 then b
  else if b.lay.phase != .idle then b.layReject (.plain 0x30)
  else if b.laySrc % 64 != 0 || b.layLen < 64 || 4194304 < b.layLen || !b.struc.inGuarded b.laySrc b.layLen then b.layReject (.plain 0x21)
  else
    let b := b.toRun
    { b with lay := { b.lay with phase := .copying, keys := b.opKeys, cand := none, drained := false } }

/-- LAY_COPY_DONE (R44 step 1). -/
def Blk.layCopied (b : Blk) : Blk :=
  if b.lay.phase != .copying then b
  else if b.mustWait cHub b.laySrc b.layLen then b.askExit b.laySrc b.layLen
  else
    let r := readRange b rqLay b.laySrc b.layLen
    let b := r.b
    if r.st != stOK then ({ b with lay := { b.lay with phase := .idle } }).layReject (.plain 0x22)
    else { b with lay := { b.lay with phase := .verifying, buf := r.data } }

/-- What an image is compared with (R42, R48). -/
def Blk.imgCtx (b : Blk) (keys : List Bytes) (useGen : Bool) : ImgCtx :=
  ⟨keys, b.struc.gen, b.struc.digest, b.lay.floorGen, (b.fwOf 1).version, useGen⟩

/-- LAY_VERIFY_DONE (R44 steps 2 and 3). -/
def Blk.layVerified (b : Blk) : Blk :=
  if b.lay.phase != .verifying then b
  else match imageCheck (b.imgCtx b.lay.keys true) b.lay.buf b.lay.buf.length with
    | some r => ({ b with lay := { b.lay with phase := .idle, buf := [] } }).layReject r
    | none => { b with lay := { b.lay with phase := .draining, cand := some (strucOf b.lay.buf), drained := false } }

/-- LAY_DRAIN_DONE (R44 step 4): no accepted entry remains uncompleted. -/
def Blk.layDrained (b : Blk) : Blk :=
  if b.lay.phase = .draining && b.flights.isEmpty then { b with lay := { b.lay with drained := true } } else b

/-- LAY_DRAIN_TIMEOUT (R45). -/
def Blk.layTimeout (b : Blk) : Blk :=
  if b.lay.phase != .draining || b.flights.isEmpty then b
  else if (b.reg oLAY_CTRL).testBit 1 then b.endAll stABORT .boundary
  else (({ b with lay := { b.lay with phase := .idle, buf := [], cand := none } }).layReject (.plain 0x31)).resumeFetch

/-! ### Applying a structure (R44 step 4, R47, R40) -/

/-- R47: whether a segment keeps its contents, fresh state and class. Two regions have the same placement where every
group of the segment lies in the same cells: DESIGN CHOICE, log 80. -/
def keepsSeg (old new : Struc) (seg : Nat) : Bool :=
  let a := seg * 0x200000
  match old.regionAt a, new.regionAt a with
  | some r, some t =>
    !old.isRetired seg && !new.isRetired seg && r.isOpen == t.isOpen
      && ((!r.isLocal && !t.isLocal)
        || (List.range 8192).all (fun k => (r.place (a + 256 * k)).1 == (t.place (a + 256 * k)).1))
  | _, _ => false

/-- One TABL entry in a unit (R40, R121). -/
def UnitSt.tabl (x : UnitSt) (e : TablEnt) : UnitSt :=
  let f := fun (t : TabBank) => if e.kind = 0 then { t with codebook := e.payload, gen := e.gen } else { t with table := e.payload, gen := e.gen }
  if e.bank = 0 then { x with tab0 := f x.tab0 } else { x with tab1 := f x.tab1 }

/-- What a unit keeps through an apply (R121). -/
def UnitSt.applied (x : UnitSt) : UnitSt :=
  { UnitSt.reset with
    nvec := x.nvec, wfmt := x.wfmt, afmt := x.afmt, anchor := x.anchor, steps := x.steps, tab0 := x.tab0, tab1 := x.tab1 }

/-- Unit tables of a structure (R40). -/
def Blk.applyTabl (b : Blk) (es : List TablEnt) : Blk :=
  es.foldl (fun (b : Blk) e =>
    if e.unit = 0xFFFF then (List.range 6144).foldl (fun (b : Blk) u => b.setUnit u ((b.unit u).tabl e)) b
    else b.setUnit e.unit ((b.unit e.unit).tabl e)) b

/-- The shadow of every RWC register of a block returns to the value in effect. The values in effect of the WINDOW,
QUEUES and NET blocks, which no image section carries, survive a load: DESIGN CHOICE, log 81. -/
def Blk.resetShadows (b : Blk) : Blk :=
  commitBlocks.foldl (fun (b : Blk) c => ((commitGroups c).flatten).foldl (fun (b : Blk) o =>
    if b.reg (commitBase c + o) = b.eff (commitBase c + o) then b else b.setReg (commitBase c + o) (b.eff (commitBase c + o))) b) b

/-- Links whose LINK entry two structures give differently (R44 step 5). -/
def linksChanged (a c : Struc) : List Nat :=
  let off : LinkEnt := ⟨0xFF, 0, 0, 0, 0⟩
  (List.range 32).filter (fun l => a.links.getD l off != c.links.getD l off)

/-- A structure takes effect in every block, as at an apply or a start-up. -/
def Blk.takeStruc (b : Blk) (st : Struc) (active : Bool) : Blk :=
  let routed := b.struc.rout != st.rout
  let b := b.loadStruc st
  let b := { b with
    cu := { b.cu with units := b.cu.units.map (fun (p : Nat × UnitSt) => (p.1, p.2.applied)) }
    hub := { b.hub with user0 := .reset, user1 := .reset }
    sdg := { b.sdg with withdrawn := [] }
    fab := if routed then { b.fab with dead := [], marks := [], reports := [] } else b.fab
    lay := { b.lay with active := active } }
  b.applyTabl st.tabl

/-- R44 step 4: the apply of a verified image. -/
def Blk.layApply (b : Blk) : Blk :=
  match b.lay.cand with
  | none => b
  | some st =>
    let old := b.struc
    let segs := b.mem.segs.filter (fun p => keepsSeg old st p.1)
    let b := { b with lay := { b.lay with phase := .applying, drained := false, changedLinks := linksChanged old st } }
    let b := ((b.takeStruc st true).resetShadows).recheckDescs
    let b := { b with mem := { b.mem with segs := segs } }
    let b := commitBlocks.foldl (fun (b : Blk) c => let x := b.commitSt c; b.setCommit c { x with gen := x.gen + 1 }) b
    b.measure 3 st.digest

/-- R44 step 5: links whose LINK entry an apply has changed retrain in the background. -/
def Blk.layRelink (b : Blk) : Blk :=
  if b.lay.phase != .idle then b
  else
    let ls := b.lay.changedLinks
    let b := { b with lay := { b.lay with changedLinks := [] } }
    ls.foldl (fun (b : Blk) l => if b.linkOn l then b.retrain l else b.linkOff l) b

/-- LAY_APPLY_DONE (R44 steps 5 and 6), but for the requests that waited and the links that retrain. -/
def Blk.layDone (b : Blk) : Blk :=
  if b.lay.phase != .applying then b
  else
    let persist := (b.reg oLAY_CTRL).testBit 2
    let b := { b with lay := { b.lay with
      phase := .idle, cand := none
      persisting := if persist then some (b.struc.gen, b.lay.buf) else b.lay.persisting } }
    (b.layEvent 0).resumeFetch

/-- R49: the valid copies. -/
def LaySt.valid0 (l : LaySt) : Option (Nat × Bytes) := if l.ok0 then l.copy0 else none
def LaySt.valid1 (l : LaySt) : Option (Nat × Bytes) := if l.ok1 then l.copy1 else none

/-- R49: the older copy. Where neither copy is valid it is copy 0: DESIGN CHOICE, log 79. -/
def LaySt.olderIs0 (l : LaySt) : Bool :=
  match l.valid0, l.valid1 with
  | none, _ => true
  | some _, none => false
  | some a, some c => decide (a.1 ≤ c.1)

/-- LAY_PERSIST_DONE (R49). -/
def Blk.layPersist (b : Blk) (ok : Bool) : Blk :=
  match b.lay.persisting with
  | none => b
  | some (g, img) =>
    let l := { b.lay with persisting := none }
    if !ok then ({ b with lay := l }).layEvent 3
    else
      ({ b with lay := { l with
        copy0 := if l.olderIs0 then some (g, img) else l.copy0
        copy1 := if l.olderIs0 then l.copy1 else some (g, img)
        ok0 := l.olderIs0 || l.ok0
        ok1 := !l.olderIs0 || l.ok1
        floorGen := max l.floorGen g } }).layEvent 2

/-- R417: a start-up checks both flash copies. -/
def Blk.judgeCopies (b : Blk) : Blk :=
  let ok := fun (c : Option (Nat × Bytes)) => match c with
    | some (_, img) => (imageCheck (b.imgCtx b.opKeys false) img img.length).isNone
    | none => false
  { b with lay := { b.lay with ok0 := ok b.lay.copy0, ok1 := ok b.lay.copy1 } }

/-- R49: the image that a start-up applies. -/
def LaySt.bootImage (l : LaySt) : Option Bytes :=
  match l.valid0, l.valid1 with
  | some a, some c => some (if a.1 < c.1 then c.2 else a.2)
  | some a, none => some a.2
  | none, some c => some c.2
  | none, none => none

/-- R39, R387: whether Sheepdog holds a slot count or a timer below its value in effect. -/
def Blk.holdsBelow (b : Blk) : Bool :=
  let slotMax := b.reg (bSDG + 0x58) % 32
  let t0 := b.reg (bSDG + 0x5C)
  let t1 := b.reg (bSDG + 0x60)
  let w := b.eff (bPOWER + 0x14)
  (List.range 192).any (fun d =>
      decide (slotMax < bits (b.eff (bSC (d / 12) + 0x80 + 4 * (d % 12 / 4))) (8 * (d % 4) + 4) (8 * (d % 4))))
    || decide (t0 < b.eff (bPOWER + 0x10)) || (t1 != 0 && (w == 0 || decide (t1 < w)))

/-- LAY_STATUS (R57). -/
def Blk.layStatus (b : Blk) : Nat :=
  let st := match b.lay.phase with
    | .idle => b2n b.lay.active
    | .copying => 2
    | .verifying => 3
    | .draining => 4
    | .applying => 5
  st + 256 * b2n b.lay.valid0.isSome + 512 * b2n b.lay.valid1.isSome + 2048 * b2n b.holdsBelow

end Sys2Proof.Machine
end

