-- ==== Sys2Proof/Machine/Sdg.lean ====
section
/-! DEFINITION. Sheepdog: sensors and estimates (R388 to R391), throttle factors (R392 to R395), the
temperatures that the stack controllers use (R106), the limits capsule (R383 to R387), leases (R400
to R402) and the restart of the control cluster (R403, R404). -/

namespace Sys2Proof.Machine
open Sys2Proof

/-! ### Sensors -/

def Blk.setSdg (b : Blk) (x : SdgSt) : Blk := { b with sdg := x }
def Blk.sensor (b : Blk) (n : Nat) : SensorSt := tget .reset n b.sdg.sensors
def Blk.setSensor (b : Blk) (n : Nat) (x : SensorSt) : Blk := b.setSdg { b.sdg with sensors := tset n x b.sdg.sensors }

/-- Neighbours of a sensor (R388). -/
def neighbours (n : Nat) : List Nat :=
  if n < 384 then
    let d := n % 24 / 2
    [n ^^^ 1] ++ (if d = 0 then [] else [n - 2]) ++ (if d = 11 then [] else [n + 2]) ++ [384 + 4 * (n / 24) + d / 3]
  else if n < 448 then
    let s := (n - 384) / 4
    let q := (n - 384) % 4
    ((List.range 4).filter (· != q)).map (384 + 4 * s + ·) ++ (List.range 6).map (24 * s + 6 * q + ·)
  else if n < 480 then ((List.range 8).map (n / 8 * 8 + ·)).filter (· != n)
  else if n < 484 then [n ^^^ 1]
  else if n < 500 then []
  else if n = 500 then [501, 502]
  else if n = 511 then [510, 509]
  else [n - 1, n + 1]

/-- The part a sensor measures: 0 DRAM, 1 base die, 2 hub, 3 coolant inlet, 4 regulators, 5 coolant
outlet, 6 board. -/
def partOf (n : Nat) : Nat :=
  if n < 384 then 0 else if n < 448 then 1 else if n < 480 then 2 else if n < 482 then 3 else if n < 484 then 5
  else if n < 500 then 4 else 6

/-- Sensors that are converted while the HUB domain is off (R381). -/
def aonSensor (n : Nat) : Bool := (decide (480 ≤ n) && decide (n < 484)) || decide (500 ≤ n)

/-- Whether a sensor is powered: all of them with the HUB rail, else those of the AON domain. -/
def Blk.sensorOn (b : Blk) (n : Nat) : Bool := (b.pwr.rails.testBit 2 || aonSensor n) && b.pwr.state != .unpowered

/-- R389: a valid conversion, in 1/16 °C. -/
def convOk (prev : Option Int) (t : Int) : Bool :=
  decide (-640 ≤ t) && decide (t ≤ 2400) && (match prev with
    | some p => decide (t - p ≤ 320) && decide (p - t ≤ 320)
    | none => true)

/-- Twice the median of a list: of an even count, the sum of the middle two. -/
def median2 (l : List Int) : Int :=
  let s := l.mergeSort (fun a c => decide (a ≤ c))
  let n := s.length
  s.getD ((n - 1) / 2) 0 + s.getD (n / 2) 0

/-- Samples in 10 s of 262.144 µs, rounded up. -/
def samples10s : Nat := 38147

/-- R390 for one sensor's sample: the valid conversion, if any, and its neighbours' valid ones. -/
def SensorSt.sample (x : SensorSt) (n : Nat) (v : Option Int) (near : List Int) : SensorSt :=
  let two := decide (2 ≤ near.length)
  let md := median2 near
  let same := match v, x.prev with
    | some t, some p => if t = p && !near.isEmpty then x.same + 1 else 0
    | _, _ => 0
  let lo := if same = 0 then md else min x.medLo md
  let hi := if same = 0 then md else max x.medHi md
  let far := match v with
    | some t =>
      let lim : Int := if partOf n = 2 || partOf n = 6 then 480 else 256
      two && (decide (lim < 2 * t - md) || decide (lim < md - 2 * t))
    | none => false
  let stuck := decide (samples10s ≤ same) && decide (96 < hi - lo)
  let bad := v.isNone || far || stuck
  let sus := if bad then x.suspect + 1 else 0
  let good := if bad then 0 else if x.excluded then x.good + 1 else 0
  let excl := if x.excluded then decide (good < samples10s) else decide (3 ≤ sus)
  { x with
    prev := if v.isSome then v else x.prev
    usable := if v.isSome then v else x.usable
    suspect := sus
    excluded := excl
    good := if excl then good else 0
    same := same
    medLo := lo
    medHi := hi }

/-- Entries and the event for a sensor that is excluded or restored. -/
def Blk.noteExcl (b : Blk) (n : Nat) (was now : Bool) : Blk :=
  if now && !was then (b.logE kSDG_EXCL { detail := n % 256 * 256 }).sdgEvent 1
  else if was && !now then b.logE kSDG_REST { detail := n % 256 * 256 }
  else b

/-- One update's conversions, in sensor order (R389, R390); regulators take part by their reads. -/
def Blk.sampleAll (b : Blk) (temps : List (Option Int)) : Blk :=
  let ns := (List.range 512).filter (fun n => b.sensorOn n && partOf n != 4)
  let vals : Tbl (Option Int) := ns.map (fun n => (n, match temps.getD n none with
    | some t => if convOk (b.sensor n).prev t then some t else none
    | none => none))
  vals.foldl (fun (b : Blk) p =>
    let near := (neighbours p.1).filterMap (fun k => tget none k vals)
    let x := b.sensor p.1
    let y := x.sample p.1 p.2 near
    (b.setSensor p.1 y).noteExcl p.1 x.excluded y.excluded) b

/-- REGULATOR_READ (R389, R390, R396): readings for use from the next update; an invalid one keeps the last. -/
def Blk.regRead (b : Blk) (temps : List (Option Int)) : Blk :=
  (List.range 16).foldl (fun (b : Blk) i =>
    let n := 484 + i
    let x := b.sensor n
    let ok := match temps.getD i none with
      | some t => convOk x.prev t
      | none => false
    let bad := if ok then 0 else tget 0 i b.sdg.regBad + 1
    let good := if ok then tget 0 i b.sdg.regGood + 1 else 0
    let excl := if x.excluded then decide (good < 10) else decide (3 ≤ bad)
    let t := (temps.getD i none).getD 0
    let trip := 16 * bits (b.reg (bSDG + 0x54)) 23 16
    let last := if ok then some t else x.prev
    let y := { x with
      prev := last
      excluded := excl
      hot := if last.any (fun t => decide ((trip : Int) ≤ t)) then x.hot + 1 else 0 }
    let b := b.setSdg { b.sdg with
      regs := if ok then tset i t b.sdg.regs else b.sdg.regs
      regBad := tset i bad b.sdg.regBad
      regGood := tset i good b.sdg.regGood }
    (b.setSensor n y).noteExcl n x.excluded excl) b

/-- Regulator readings taken since the last update come into use. -/
def Blk.useRegs (b : Blk) : Blk :=
  b.sdg.regs.foldl (fun (b : Blk) p => b.setSensor (484 + p.1) { b.sensor (484 + p.1) with usable := some p.2 }) b

/-- R391: the reading of a sensor, or its estimate (true), in 1/16 °C. -/
def Blk.reading (b : Blk) (n : Nat) : Option (Int × Bool) :=
  let x := b.sensor n
  if !x.excluded then x.usable.map (fun t => (t, false))
  else
    let l := (neighbours n).filterMap (fun k => if (b.sensor k).excluded then none else (b.sensor k).usable)
    match l with
    | [] => none
    | a :: t => some (t.foldl max a + 48, true)

/-- Start, full and trip of SDG_TLIMITk, in °C. -/
def Blk.tlimit (b : Blk) (k : Nat) : Nat × Nat × Nat :=
  let w := b.reg (bSDG + 0x44 + 4 * k)
  (bits w 7 0, bits w 15 8, bits w 23 16)

/-- The highest reading or estimate of a part's sensors; the full temperature without any (R391). -/
def Blk.partTemp (b : Blk) (kind : Nat) (ns : List Nat) : Int :=
  match ns.filterMap (fun n => (b.reading n).map (fun p => p.1)) with
  | [] => 16 * ((b.tlimit kind).2.1 : Int)
  | a :: t => t.foldl max a

/-! ### Throttle factors (R392 to R395) -/

/-- 256 − ⌈230 num ÷ den⌉, with the quotient clamped to 0 to 1. -/
def factorOf (num : Int) (den : Nat) : Nat :=
  if num ≤ 0 then 256 else if (den : Int) ≤ num then 26 else 256 - cdiv (230 * num.toNat) den

/-- R392 for a temperature between start and full, in °C. -/
def tempFactor (start full : Nat) (t : Int) : Nat := factorOf (t - 16 * (start : Int)) (16 * (full - start))

/-- R392 for the input power. -/
def powerFactor (watts limit : Nat) : Nat := factorOf (20 * (watts : Int) - 19 * (limit : Int)) limit

/-- The factor of a part. -/
def Blk.partFactor (b : Blk) (kind : Nat) (ns : List Nat) : Nat :=
  let l := b.tlimit kind
  tempFactor l.1 l.2.1 (b.partTemp kind ns)

/-- The board sensors' factor: R385 lists no limits for them, so theirs are free (log 21). -/
def Blk.boardFactor (b : Blk) : Nat :=
  match (List.range 12).filterMap (fun i => (b.reading (500 + i)).map (fun p => p.1)) with
  | [] => 256
  | a :: t => tempFactor Config.boardStart Config.boardFull (t.foldl max a)

/-- The sources of the global factor, each with its cause code (R393, R412). The codes of the board
and of an AVSBus failure are not listed, and are free (log 21). -/
def Blk.globalSources (b : Blk) : List (Nat × Nat) :=
  let hub := b.pwr.rails.testBit 2
  (if hub then [(b.partFactor 2 ((List.range 32).map (448 + ·)), 3)] else [])
    ++ [(b.partFactor 3 [480, 481], 4)]
    ++ (if hub then [(b.partFactor 4 ((List.range 16).map (484 + ·)), 5)] else [])
    ++ [(b.boardFactor, (Config.otherCause 0).toNat),
        (powerFactor (b.reg (bSDG + 0xC) % 65536) (b.reg (bSDG + 0x40) % 65536), 6),
        (if !b.pins.thermN && !b.pins.thermOut then 26 else 256, 7),
        (if b.sdg.inExcluded then 200 else 256, 8),
        (if b.sdg.avsHeld then 200 else 256, (Config.otherCause 1).toNat)]

/-- The lowest factor of a list, and the code of the first source that has it. -/
def lowest (l : List (Nat × Nat)) : Nat × Nat := l.foldl (fun a p => if p.1 < a.1 then p else a) (256, 0)

/-- The lowest factor from the DRAM and base-die sensors of a stack. -/
def Blk.stackOwn (b : Blk) (s : Nat) : Nat :=
  if !b.pwr.rails.testBit 2 then 256
  else (List.range 12).foldl (fun a d => min a (b.partFactor 0 [24 * s + 2 * d, 24 * s + 2 * d + 1]))
    (b.partFactor 1 ((List.range 4).map (384 + 4 * s + ·)))

/-- R394: the hub-clock ceiling in MHz. -/
def ceilingOf (g clkMax : Nat) : Nat := min clkMax ((475 * 230 + 1825 * (g - 26)) / 230 / 25 * 25)

def Blk.ceiling (b : Blk) : Nat := ceilingOf b.sdg.global (b.reg (bSDG + 0x64) % 4096)

/-- R382, R393: puts factors into effect. -/
def Blk.setFactors (b : Blk) (g : Nat) (ss : List Nat) (cause : Nat) : Blk :=
  let old := b.sdg.global :: b.sdg.stackFactors
  let new := g :: ss
  let b := b.setSdg { b.sdg with global := g, stackFactors := ss }
  let b := ss.zipIdx.foldl (fun (b : Blk) p =>
    if b.reg (bSC p.2 + 8) = p.1 then b else b.setReg (bSC p.2 + 8) p.1) b
  let b := b.setReg (bSDG + 8) (g + b.ceiling * 65536 + cause * 2 ^ 28)
  let b := if new.any (fun f => f != 256) then b.orReg oSDG_STATUS 8 else b.clrReg oSDG_STATUS 8
  if old = new then b
  else
    let b := b.sdgEvent 0
    if (List.zipWith (fun (a c : Nat) => (a == 26) != (c == 26)) old new).any id then b.logE kSDG_THROTTLE {} else b

/-- Cause of the global factor, as shown by SDG_THROTTLE. -/
def Blk.throttleCause (b : Blk) : Nat := bits (b.reg (bSDG + 8)) 31 28

/-- At a budget-period boundary: lower factors take effect (R393). -/
def Blk.lowerFactors (b : Blk) : Blk :=
  match b.sdg.lower with
  | none => b
  | some l =>
    let b := b.setSdg { b.sdg with lower := none }
    b.setFactors (min b.sdg.global (l.getD 0 256)) (b.sdg.stackFactors.zipIdx.map (fun p => min p.1 (l.getD (p.2 + 1) 256))) b.throttleCause

/-- R393: higher factors rise by at most 8; lower ones wait for the boundary, with those that already wait. -/
def Blk.newFactors (b : Blk) : Blk :=
  let (g, cause) := lowest b.globalSources
  let ss := (List.range 16).map (fun s => min g (b.stackOwn s))
  let up := fun (a t : Nat) => if a < t then min t (a + 8) else a
  let b := b.setFactors (up b.sdg.global g) (b.sdg.stackFactors.zipIdx.map (fun p => up p.1 (ss.getD p.2 256))) cause
  b.setSdg { b.sdg with
    lower := some (match b.sdg.lower with
      | some l => List.zipWith min l (g :: ss)
      | none => g :: ss) }

/-- R395: the input current over 16 periods exceeds 1.05 times the limit. -/
def Blk.currentCheck (b : Blk) (ma mv : Nat) : Blk :=
  if ma * mv ≤ 1050000 * (b.reg (bSDG + 0x40) % 65536) then b
  else
    let b := b.setReg (bSDG + 8) (b.reg (bSDG + 8) % 2 ^ 28 + 6 * 2 ^ 28)
    b.setSdg { b.sdg with lower := some (List.replicate 17 26) }

/-- R390, R395: the input converter's telemetry; its exclusion is by three invalid samples. -/
def Blk.telemetry (b : Blk) (mv watts : Nat) (ok : Bool) : Blk :=
  let x := b.sdg
  let b := if ok then b.setReg (bSDG + 0xC) (mv % 65536 * 65536 + watts % 65536) else b
  if x.inExcluded then
    let n := if ok then x.inBad + 1 else 0
    b.setSdg { b.sdg with inBad := if samples10s ≤ n then 0 else n, inExcluded := decide (n < samples10s) }
  else
    let n := if ok then 0 else x.inBad + 1
    if n < 3 then b.setSdg { b.sdg with inBad := n }
    else (b.setSdg { b.sdg with inBad := 0, inExcluded := true }).logE kSDG_INPUT {}

/-! ### What an update shows and passes on -/

/-- SDG_TEMPn, SDG_EXCLi and the count of SDG_STATUS (R412). -/
def Blk.showTemps (b : Blk) : Blk :=
  let b := (List.range 512).foldl (fun (b : Blk) n =>
    if !b.sensorOn n then b
    else
      let e := b2n (b.sensor n).excluded * 2 ^ 16
      let v := match b.reading n with
        | some (t, est) => wrap 16 t + e + b2n est * 2 ^ 17
        | none => e + 2 ^ 18
      if b.reg (bSDG + 0x1000 + 4 * n) = v then b else b.setReg (bSDG + 0x1000 + 4 * n) v) b
  let ex := (b.sdg.sensors.filter (fun p => p.2.excluded)).map (fun p => p.1)
  let b := (List.range 16).foldl (fun (b : Blk) i =>
    let w := (ex.filter (fun n => n / 32 == i)).foldl (fun a n => setBit a (n % 32)) 0
    if b.reg (bSDG + 0x200 + 4 * i) = w then b else b.setReg (bSDG + 0x200 + 4 * i) w) b
  b.putReg oSDG_STATUS (0x3FF * 256) (ex.length * 256)

/-- R106: a die's temperature, as Sheepdog reports it. -/
def Blk.dieHeat (b : Blk) (d : Nat) (t : Int) : Blk :=
  let x := b.die d
  let hot := if 85 * 16 < t then true else if t ≤ 83 * 16 then false else x.hot
  let ref := if 95 * 16 < t then true else if t ≤ 93 * 16 then false else x.refused
  if hot = x.hot && ref = x.refused then b
  else
    let b := b.setDie d { x with hot := hot, refused := ref }
    if ref && !x.refused then
      let b := (b.logE kSC_THERMREF { status := stTHERMAL, cga := some (cgaOf (gidOf (2 * d) 0 0 0)) }).scEvent (stackOfDie d) 4
      let us := (b.cu.units.filter (fun p => unitDie p.1 == d && p.2.seq.isSome)).map (fun p => p.1)
      us.foldl (fun (b : Blk) u =>
        let y := b.unit u
        match y.seq with
        | none => b
        | some s => if s.inStep then b.setUnit u { y with seq := some { s with stop := stTHERMAL } } else b.endSeq u stTHERMAL) b
    else b

def Blk.heatAll (b : Blk) : Blk :=
  if !b.pwr.rails.testBit 2 then b
  else (List.range 192).foldl (fun (b : Blk) d => b.dieHeat d (b.partTemp 0 [2 * d, 2 * d + 1])) b

/-- R405: whether some temperature gives a factor below 256. -/
def Blk.tempLow (b : Blk) : Bool :=
  b.globalSources.any (fun p => decide (p.1 < 256) && (p.2 == 3 || p.2 == 4 || p.2 == 5)) || decide (b.boardFactor < 256)
    || (List.range 16).any (fun s => decide (b.stackOwn s < 256))

/-- R405: THERM_N as Sheepdog drives it. -/
def Blk.driveTherm (b : Blk) : Blk :=
  let low := b.tempLow || (b.reg oSDG_STATUS).testBit 1
  let b' := { b with pins := { b.pins with thermOut := low } }
  if b.pins.thermOut && !low && !b.pins.thermN then b'.sdgEvent 6 else b'

/-- THERM_N_EXTERNAL (R405): the filtered level that another party gives. -/
def Blk.thermExt (b : Blk) (low : Bool) : Blk :=
  let b' := { b with pins := { b.pins with thermN := !low } }
  if low && b.pins.thermN && !b.pins.thermOut then b'.sdgEvent 6 else b'

/-- R396: counts conversions at or above trip; the first sensor with two in a row. -/
def Blk.tripCheck (b : Blk) : Blk × Option Nat :=
  let b := (List.range 482).foldl (fun (b : Blk) n =>
    if !b.sensorOn n then b
    else
      let x := b.sensor n
      let hot := match b.reading n with
        | some (t, _) => decide (16 * ((b.tlimit (partOf n)).2.2 : Int) ≤ t)
        | none => false
      if !hot && x.hot = 0 then b else b.setSensor n { x with hot := if hot then x.hot + 1 else 0 }) b
  (b, (List.range 500).find? (fun n => b.sensorOn n && partOf n != 5 && decide (2 ≤ (b.sensor n).hot)
    && (partOf n != 4 || !(b.sensor n).excluded)))

/-- SENSOR_UPDATE (R389 to R396), but for the trip and the hub clock. -/
def Blk.update (b : Blk) (temps : List (Option Int)) (mv watts : Nat) (telem : Bool) : Blk × Option Nat :=
  let b := ((b.sampleAll temps).useRegs).telemetry mv watts telem
  let b := ((b.newFactors).showTemps).heatAll.driveTherm
  b.tripCheck

/-! ### The limits capsule (R383 to R387) -/

def oCAP_CTRL : Nat := bSDG + 0x14
def oCAP_STS : Nat := bSDG + 0x24

/-- Limit i of a capsule. -/
def capLimit (r : Bytes) (i : Nat) : Nat := fld r (0x28 + 4 * i) 4

/-- Reserved bits of the limits (R383, R412). -/
def capReserved (r : Bytes) : Bool :=
  fld r 6 2 != 0 || fld r 0xC 4 != 0 || !zeroAt r 0x54 44 || !zeroAt r 0xDB5 11
    || decide (65536 ≤ capLimit r 0) || (List.range 5).any (fun i => decide (2 ^ 24 ≤ capLimit r (1 + i)))
    || decide (32 ≤ capLimit r 6) || decide (4096 ≤ capLimit r 9) || bits (capLimit r 10) 30 28 != 0

/-- Factory start, full and trip, and the least value (R385). -/
def capTemps : List (Nat × Nat × Nat × Nat) :=
  [(88, 94, 98, 40), (95, 103, 110, 40), (100, 108, 115, 40), (46, 52, 55, 20), (105, 115, 125, 40)]

def tempOk (w : Nat) (f : Nat × Nat × Nat × Nat) : Bool :=
  let s := bits w 7 0
  let u := bits w 15 8
  let t := bits w 23 16
  decide (f.2.2.2 ≤ s) && decide (s ≤ f.1) && decide (f.2.2.2 ≤ u) && decide (u ≤ f.2.1) && decide (f.2.2.2 ≤ t)
    && decide (t ≤ f.2.2.1) && decide (s + 2 ≤ u) && decide (u + 2 ≤ t)

/-- R385: every limit within its range. -/
def capBounds (r : Bytes) : Bool :=
  let inR := fun (v lo hi : Nat) => decide (lo ≤ v) && decide (v ≤ hi)
  let t1 := capLimit r 8
  let rs := capLimit r 10
  inR (capLimit r 0) 400 1650
    && (List.range 5).all (fun i => tempOk (capLimit r (1 + i)) (capTemps.getD i (0, 0, 0, 0)))
    && inR (capLimit r 6) 1 16 && inR (capLimit r 7) 20 1000000 && (t1 == 0 || inR t1 10 86400000)
    && inR (capLimit r 9) 1900 2300
    && inR (bits rs 27 24) 0 3 && inR (bits rs 23 16) 20 40 && inR (bits rs 15 0) 60 3600

/-- Checks 2 to 10 of R384, by reason; without the comparison of generations at a start-up, as R49 has
it for images. -/
def Blk.capReason (b : Blk) (useGen : Bool) (r : Bytes) (len : Nat) : Nat :=
  let gen := fld r 8 4
  let cur := b.reg (bSDG + 0x28)
  let key := b.opKeys.find? (fun k => fpOf k == fld r 0x80 8)
  let dig := shake256 (r.take 0x80) 64
  firstReason [
    (r.take 4 != ascii "RLCP" || fld r 4 2 != 1 || len != 3520, oCONTAINER),
    (bytesAt r 0x10 16 != orderCode, oTARGET),
    (fld r 0x20 8 != 0 && fld r 0x20 8 != b.idFp, oMODULE),
    (key.isNone, oKEY),
    (bytesAt r 0x88 64 != dig, oDIGEST),
    (!mldsaVerify (key.getD []) (ascii "CRL2-LIMITS") dig (bytesAt r 0xC8 3309), oSIGNATURE),
    (gen = 0 || (useGen && !((decide (cur < gen) && decide (b.sdg.capFloor < gen)) || (gen == cur && bytesAt r 0x88 64 == b.sdg.capDigest))), oOLD),
    (capReserved r, oRESERVED),
    (!capBounds r, 9)]

/-- R384: the outcome of a load. -/
def Blk.capDone (b : Blk) (why : Nat) : Blk :=
  let b := b.setReg oCAP_STS (why + 256 * (if why = 0 then 2 else 3))
  let b := b.sdgEvent 4
  if why = 0 then b.logE kSDG_CAPOK {} else b.logE kSDG_CAPREJ { detail := why }

/-- Checks a capsule that has been copied, and accepts it, which extends M4 (R384, R386, R430); the
reason. -/
def Blk.capsule (b : Blk) (r : Bytes) (len : Nat) : Blk × Nat :=
  let why := if b.sdg.capNext.isSome then oBUSY else b.capReason true r len
  if why != 0 then (b.capDone why, why)
  else
    let persist := (b.reg oCAP_CTRL).testBit 1
    let b := b.setSdg { b.sdg with capNext := some r, capSave := if persist then some r else b.sdg.capSave }
    ((b.capDone 0).measure 4 (bytesAt r 0x88 64), 0)

/-- CAPSULE_LOAD (R384): a write of SDG_CAP_CTRL; `late` says that the copy took more than 2 ms. -/
def Blk.capCtrl (b : Blk) (val : Nat) (late : Bool) : Blk :=
  let b := b.putReg oCAP_CTRL 2 val
  if !val.testBit 0 then b
  else if b.sdg.capNext.isSome then b.capDone oBUSY
  else
    let src := b.reg64 (bSDG + 0x18) % 2 ^ 40
    let n := b.reg (bSDG + 0x20) % 4096
    if src % 64 != 0 || n = 0 || late || !b.struc.inGuarded src n then b.capDone oSOURCE
    else
      let r := readRange b rqObj src n
      if r.st != stOK then r.b.capDone oSOURCE else (r.b.capsule r.data n).1

/-- The limits of a capsule come into effect. -/
def Blk.capApply (b : Blk) (r : Bytes) : Blk :=
  let b := (List.range 11).foldl (fun (b : Blk) i => b.setReg (bSDG + 0x40 + 4 * i) (capLimit r i)) b
  let b := (b.setReg (bSDG + 0x28) (fld r 8 4)).orReg oSDG_STATUS 1
  b.setSdg { b.sdg with capDigest := bytesAt r 0x88 64 }

/-- At a budget-period boundary: an accepted capsule takes effect (R386). -/
def Blk.capLand (b : Blk) : Blk :=
  match b.sdg.capNext with
  | none => b
  | some r => (b.setSdg { b.sdg with capNext := none }).capApply r

def SdgSt.valid0 (x : SdgSt) : Option Bytes := if x.capOk0 then x.cap0 else none
def SdgSt.valid1 (x : SdgSt) : Option Bytes := if x.capOk1 then x.cap1 else none

/-- CAPSULE_PERSIST_DONE (R386, R49). -/
def Blk.capPersist (b : Blk) (ok : Bool) : Blk :=
  match b.sdg.capSave with
  | none => b
  | some r =>
    let x := { b.sdg with capSave := none }
    if !ok then b.setSdg x
    else
      let old0 := match x.valid0, x.valid1 with
        | none, _ => true
        | some _, none => false
        | some a, some c => decide (fld a 8 4 ≤ fld c 8 4)
      b.setSdg { x with
        cap0 := if old0 then some r else x.cap0
        cap1 := if old0 then x.cap1 else some r
        capOk0 := old0 || x.capOk0
        capOk1 := !old0 || x.capOk1
        capFloor := max x.capFloor (fld r 8 4) }

/-- The limits at a start-up (R386): the valid copy with the higher generation, or the factory's. -/
def Blk.capBoot (b : Blk) : Blk :=
  let b := (List.range 11).foldl (fun (b : Blk) i => b.setReg (bSDG + 0x40 + 4 * i) (regReset (bSDG + 0x40 + 4 * i))) b
  let b := ((b.setReg (bSDG + 0x28) 0).clrReg oSDG_STATUS 1)
  let b := b.setSdg { b.sdg with capDigest := [], capNext := none, capSave := none }
  let ok := fun (c : Option Bytes) => match c with
    | some r => decide (b.capReason false r r.length = 0)
    | none => false
  let b := b.setSdg { b.sdg with capOk0 := ok b.sdg.cap0, capOk1 := ok b.sdg.cap1 }
  match b.sdg.valid0, b.sdg.valid1 with
  | some a, some c => b.capApply (if fld a 8 4 < fld c 8 4 then c else a)
  | some a, none => b.capApply a
  | none, some c => b.capApply c
  | none, none => b

/-! ### Leases (R400 to R402) -/

/-- Length of a lease in budget periods (R401). -/
def leaseLen (n : Nat) : Nat := [131072, 16384, 1024, 4, 1048576].getD n 0

/-- R401: holders that a resource may have. -/
def Blk.leaseMay (b : Blk) (h n : Nat) : Bool :=
  let core := decide (2 ≤ h) && decide (h ≤ 9)
  if n = 0 then h == 1 || core || h == 11
  else if n = 1 then core || (h == 10 && b.mode == .test)
  else if n = 2 then core
  else if n = 4 then h == 10 || h == 11
  else false

def Blk.lease? (b : Blk) (n : Nat) : Option LeaseSt := (b.sdg.leases.find? (fun p => p.1 == n)).map (fun p => p.2)
def Blk.setLease (b : Blk) (n : Nat) (x : LeaseSt) : Blk := b.setSdg { b.sdg with leases := tset n x b.sdg.leases }
def Blk.freeLease (b : Blk) (n : Nat) : Blk := b.setSdg { b.sdg with leases := tdel n b.sdg.leases }

def Blk.leaseHeld (b : Blk) (n h : Nat) : Bool := ((b.lease? n).map LeaseSt.holder) == some h

def Blk.leaseAcquire (b : Blk) (h n : Nat) : Blk :=
  if b.leaseMay h n && (b.lease? n).isNone then b.setLease n ⟨h, b.time.toNat + leaseLen n⟩ else b

def Blk.leaseRenew (b : Blk) (h n : Nat) : Blk :=
  if b.leaseHeld n h then b.setLease n ⟨h, b.time.toNat + leaseLen n⟩ else b

def Blk.leaseRelease (b : Blk) (h n : Nat) : Blk := if b.leaseHeld n h then b.freeLease n else b

/-- A write of SDG_LEASEn by a holder (R400, R412). -/
def Blk.leaseOp (b : Blk) (h n op : Nat) : Blk :=
  if op = 1 then b.leaseAcquire h n else if op = 2 then b.leaseRenew h n else if op = 3 then b.leaseRelease h n else b

/-- The entry, count and event of a revocation (R402). -/
def Blk.noteRevoke (b : Blk) (n h : Nat) : Blk :=
  ((b.logE kSDG_LEASE { detail := n * 256 + h }).incReg (bSDG + 0xB0)).sdgEvent 2

/-- Revokes a lease that a path holds, with its effect (R401). -/
def Blk.revoke (b : Blk) (n : Nat) : Blk :=
  match b.lease? n with
  | none => b
  | some l =>
    let b := (b.freeLease n).noteRevoke n l.holder
    if n = 0 then { b with pwr := { b.pwr with pmbus := 0 } }
    else if n = 1 then (if (b.reg bTRAIN).testBit 0 then b.trnStop.setReg bTRAIN 0 else b)
    else b

/-- R401: the compute slot of a unit is taken back. -/
def Blk.revokeUnit (b : Blk) (u : Nat) : Blk :=
  if (b.unit u).slot.isNone then b
  else
    let b := b.setSdg { b.sdg with withdrawn := u :: b.sdg.withdrawn.filter (· != u) }
    ((b.forceStop u stINTERNAL).noteRevoke 3 12).moduleFault (kSDG_LEASE % 256)

/-- LEASE_EXPIRY (R402): lease n ends; for a compute slot, that of unit u. -/
def Blk.leaseExpiry (b : Blk) (n u : Nat) : Blk :=
  if n = 3 then b.revokeUnit u
  else match b.lease? n with
    | some l => if l.ends ≤ b.time.toNat then b.revoke n else b
    | none => b

/-- Revokes every lease whose holder satisfies a test. -/
def Blk.revokeIf (b : Blk) (p : Nat → Bool) : Blk :=
  [0, 1, 2, 4].foldl (fun (b : Blk) n => if (b.lease? n).any (fun l => p l.holder) then b.revoke n else b) b

/-- R318, R402: the attachment is orphaned, and the host's leases are revoked. -/
def Blk.orphaned (b : Blk) (cause : Nat) : Blk :=
  let c := b.orphan cause
  if b.att.phase = .attached && c.att.phase != .attached then c.revokeIf (· == 10) else c

/-! ### The control cluster (R403, R404) -/

/-- Ticks of 1.024 µs in 10 s. -/
def ticks10s : Nat := 9765625

def Blk.halted (b : Blk) : Bool := (b.reg oSDG_STATUS).testBit 4

/-- WATCHDOG_EXPIRY and CORE_PARITY_ERROR: the cluster is restarted, or left halted. -/
def Blk.clusterRestart (b : Blk) (core : Nat) : Blk :=
  if b.restarting || 8 ≤ core || !b.pwr.rails.testBit 2 then b
  else
    let now := b.time.toNat
    let past := b.sdg.coreRestarts.filter (fun t => decide (now < t + ticks10s))
    let b := { b with restarting := true }.revokeIf (fun h => decide (2 ≤ h) && decide (h ≤ 9))
    let b := b.setSdg { b.sdg with coreRestarts := past ++ [now] }
    let b := b.setReg (bSDG + 0xA0) (2 ^ core * 256)
    let b := ((b.logE kSDG_CORE { detail := core * 256 }).incReg (bSDG + 0xAC)).sdgEvent 3
    if 2 ≤ past.length then (b.orReg oSDG_STATUS 16).moduleFault (kSDG_CORE % 256) else b

/-- CLUSTER_RESTART_READY (R403 step 4). -/
def Blk.clusterReady (b : Blk) : Blk :=
  if b.restarting && !b.halted then ({ b with restarting := false }).resumeFetch else b

/-- EL_TAIL_WRITE (R409). -/
def Blk.tailWrite (b : Blk) (path v : Nat) : Blk :=
  let h := if path = pHOST then 10 else if path = pSIDE then 11 else 0
  let w : W32 := BitVec.ofNat 32 v
  if !b.leaseHeld 4 h || (b.log.head - b.log.tail).toNat < (w - b.log.tail).toNat then b
  else { b with log := { b.log with tail := w } }

/-! ### The commands -/

def execRegulatorRead (temps : List (Option Int)) (s : State) : Out := act s (fun b => b.regRead temps)
def execInputCurrentCheck (ma mv : Nat) (s : State) : Out := act s (fun b => b.currentCheck ma mv)
def execThermNExternal (low : Bool) (s : State) : Out := act s (fun b => b.thermExt low)
def execCapsulePersistDone (ok : Bool) (s : State) : Out := act s (fun b => b.capPersist ok)
def execLeaseExpiry (n u : Nat) (s : State) : Out := act s (fun b => b.leaseExpiry n u)
def execWatchdogExpiry (core : Nat) (s : State) : Out := act s (fun b => b.clusterRestart core)
def execCoreParityError (core : Nat) (s : State) : Out := act s (fun b => b.clusterRestart core)
def execClusterRestartReady (s : State) : Out := act s (fun b => b.clusterReady)

end Sys2Proof.Machine
end

