-- ==== Sys2Proof/Machine/Power.lean ====
section
/-! DEFINITION. Power states (R356 to R380), start-up (R415 to R417), the thermal trip and restart
(R396 to R399), and the input (R444, R446). -/

namespace Sys2Proof.Machine
open Sys2Proof

/-! ### Registers and pins -/

def oWAKE_CAUSE : Nat := bPOWER + 8
def oSTUCK_CODE : Nat := bPOWER + 0xC

def Blk.setPwr (b : Blk) (x : PwrSt) : Blk := { b with pwr := x }

/-- A change of the power state (R378 event 0). -/
def Blk.goState (b : Blk) (st : PState) : Blk := (b.setPwr { b.pwr with state := st }).pwrEvent 0

/-- R372, R409: whether the error log can be reached: the RET rail is up. -/
def Blk.logUp (b : Blk) : Bool := b.pwr.rails.testBit 1

/-- FAULT_N (R371, R398, R405, R410). -/
def Blk.faultPin (b : Blk) : Blk :=
  let st := b.reg oSDG_STATUS
  { b with pins := { b.pins with faultN := !(b.pwr.state == .stuck || st.testBit 1 || st.testBit 2 || b.sdg.faultHeld) } }

/-- R361, R392: Sheepdog holds the module down after a trip. -/
def Blk.heldDown (b : Blk) : Bool := (b.reg oSDG_STATUS).testBit 1

/-- run_doze_us and doze_watch_ms as Sheepdog holds them (R387). -/
def Blk.runDozeHeld (b : Blk) : Nat := min (b.eff (bPOWER + 0x10)) (b.reg (bSDG + 0x5C))
def Blk.dozeWatchHeld (b : Blk) : Nat :=
  let v := b.eff (bPOWER + 0x14)
  let m := b.reg (bSDG + 0x60)
  if m != 0 && (v = 0 || m < v) then m else v

/-! ### What a power state keeps (R68, R356, R358, R374) -/

def Blk.retainedDie (b : Blk) (d : Nat) : Bool := (b.eff (bPOWER + 0x20 + 4 * (d / 32))).testBit (d % 32)
def Blk.groupOf (b : Blk) (s : Nat) : Nat := bits (b.eff (bPOWER + 0x1C)) (2 * s + 1) (2 * s)

/-- R374: stack groups that stay powered in HOLD. -/
def Blk.holdGroups (b : Blk) : List Nat :=
  (List.range 4).filter (fun g => (List.range 192).any (fun d => b.retainedDie d && b.groupOf (d / 12) == g))

/-- Rails in WATCH and in HOLD (R358, R378). -/
def railsAll : Nat := 0xFFFF
def railsWatch : Nat := 0xFF9B
def railsOff : Nat := 0x8001
def Blk.railsHold (b : Blk) : Nat := b.holdGroups.foldl (fun a g => setBit (setBit a (7 + g)) (11 + g)) 0x8003

/-- R68: every row of a segment lies in a retained die. -/
def Blk.segRetained (b : Blk) (seg : Nat) : Bool :=
  let a := seg * 0x200000
  match b.struc.regionAt a with
  | none => false
  | some r => r.isLocal && !b.struc.isRetired seg
    && (List.range 8192).all (fun k => b.retainedDie (gidCh (r.place (a + 256 * k)).1 / 2))

/-- Registers that outlive the hub: Gander's and Sheepdog's; in HOLD also the other POWER registers. -/
def keepsReg (hold : Bool) (off : Nat) : Bool :=
  off == oWAKE_CAUSE || off == oSTUCK_CODE || (decide (bSDG ≤ off) && decide (off < bSDG + 0x1000) && off != bSDG + 8)
    || (hold && decide (bPOWER ≤ off) && decide (off < bPOWER + 0x1000))
    || (decide (bSDG + 0x1000 ≤ off) && aonSensor ((off - bSDG - 0x1000) / 4))

/-- The block when the hub loses its power: HOLD keeps the retained dies, the error log and what the
always-on island holds; OFF keeps the always-on island alone. -/
def Blk.lose (b : Blk) (hold : Bool) : Blk :=
  { Blk.reset with
    regs := b.regs.filter (fun p => keepsReg hold p.1)
    time := b.time
    sent := b.sent
    ctr := b.ctr
    struc := if hold then b.struc else .factory
    lay := { LaySt.reset with copy0 := b.lay.copy0, copy1 := b.lay.copy1, ok0 := b.lay.ok0, ok1 := b.lay.ok1, floorGen := b.lay.floorGen }
    log := if hold then b.log else .reset
    mem := if hold then { MemSt.reset with
        cells := cellsDrop b.mem.cells (fun k => !b.retainedDie (gidCh (keyGroup k) / 2))
        retained := b.mem.retained
        sramLog := b.mem.sramLog } else .reset
    dies := if hold then ((List.range 192).filter b.retainedDie).map (fun d =>
        (d, { DieSt.reset with sr := if (b.die d).sr = .failed then SrPhase.failed else SrPhase.asleep })) else []
    commits := if hold then b.commits.filter (fun p => p.1 == commitKey .power) else []
    pins := b.pins
    att := { AttSt.reset with linkUp := false, link := 0 }
    pwr := b.pwr
    mode := b.mode
    restarting := hold && b.halted
    sdg := { b.sdg with
      sensors := b.sdg.sensors.filter (fun p => aonSensor p.1)
      regs := [], regBad := [], regGood := [], inBad := 0, inExcluded := false
      global := 256, stackFactors := List.replicate 16 256, lower := none, avsHeld := false, leases := [], withdrawn := []
      capSave := none
      coreRestarts := if hold then b.sdg.coreRestarts else [] }
    sec := { b.sec with ident := false, frags := none } }

/-- The state that a transition counts as left (R378 prev). -/
def PwrSt.left (x : PwrSt) : PState := if x.state = .entering || x.state = .waking then x.source else x.state

/-- The module is in OFF (R356, R361). -/
def Blk.goOff (b : Blk) : Blk :=
  let prev := b.pwr.left
  let hs := b.pwr.hotSwap
  let ok := b.pwr.inputOk
  let b := b.lose false
  let b := b.setPwr { PwrSt.reset with
    state := .off, prev := prev, source := prev, target := .off, rails := railsOff, padsHeld := 0xFF, hotSwap := hs, inputOk := ok }
  (({ b with pins := { b.pins with pwrGood := false, wakeOutN := true, thermOut := b.heldDown } }).faultPin).pwrEvent 0

/-! ### Links, ports and the host port around a transition -/

def Blk.linksOff (b : Blk) : Blk :=
  let b := (List.range 32).foldl Blk.linkDown b
  { b with net := { b.net with linkUp := 0 } }

/-- Every enabled link that is down begins R324. -/
def Blk.linksOn (b : Blk) : Blk :=
  (List.range 32).foldl (fun (b : Blk) l =>
    if b.linkOn l && ((b.link l).st == .down || (b.link l).st == .disabled) then b.linkStart l else b) b

/-- ATT_LINK of a trained link (R282): x16, x8 or x4 at 64, 32 or 16 GT/s, in flit mode at 64 GT/s. Which of them the
host's port allows is outside the machine: a free choice (log 82). -/
def trainedLink (n : Nat) : Nat :=
  let rate := [64, 32, 16].getD (n / 3 % 3) 64
  (if rate = 64 then 1 else n / 9 % 2) * 65536 + [16, 8, 4].getD (n % 3) 16 * 256 + rate

/-- The host port trains when PERST_N is high and HOSTIO has power (R450; log 17). -/
def Blk.hostPort (b : Blk) : Blk :=
  let up := b.pins.perstN && b.pwr.rails.testBit 4
  { b with ctr := b.ctr + 1
           att := { b.att with linkUp := up, ready := up, link := if up then trainedLink (Config.freeWord b.ctr).toNat else 0 } }

/-- Every die that sleeps begins its exit (R108 step 1). -/
def Blk.wakeDies (b : Blk) : Blk :=
  b.dies.foldl (fun (b : Blk) p =>
    if p.2.sr = .asleep || p.2.sr = .failed then b.setDie p.1 { p.2 with sr := .exitPhy 0 } else b) b

/-! ### RUN and DOZE (R359, R360, R362) -/

/-- R359, for entries other than one. -/
def Blk.busyBut (b : Blk) (q seq : Nat) : Bool :=
  b.flights.any (fun f => !f.is q seq) || b.lay.phase != .idle || b.pwr.keepEnd.isSome

def Blk.busy (b : Blk) : Bool := !b.flights.isEmpty || b.lay.phase != .idle || b.pwr.keepEnd.isSome

/-- RUN to DOZE. -/
def Blk.toDoze (b : Blk) : Blk :=
  if b.pwr.state != .run then b
  else
    let b := (b.setPwr { b.pwr with prev := .run }).goState .doze
    (List.range 192).foldl Blk.sleepDie b

/-- Fields of a POWER_HINT (R362): target, keep_ms, wait_ms. -/
def hintOk (e : Bytes) : Bool :=
  let t := fld e 0x20 1
  decide (t ≤ 2) && zeroAt e 0x21 3 && zeroAt e 0x2C 84
    && (if t = 0 then zeroAt e 0x28 4 else zeroAt e 0x24 4 && decide (fld e 0x28 4 ≤ 60000))

/-- POWER_HINT (R362). -/
def Blk.hintRun (b : Blk) (q seq : Nat) : Blk :=
  match b.running q seq 0x60 with
  | none => b
  | some f =>
    let e := f.raw
    let t := fld e 0x20 1
    if !hintOk e || !zeroAt e 0x10 16 then b.finish q seq stDESC 0 0
    else if t = 0 then
      let ms := fld e 0x24 4
      let b := b.setPwr { b.pwr with keepEnd := if ms = 0 then none else some (b.time.toNat + ticksMs ms) }
      b.finish q seq stOK 0 0
    else if b.busyBut q seq then b
    else (b.setPwr { b.pwr with after := some (q, seq, if t = 1 then PState.doze else PState.watch) }).finish q seq stOK 0 0

/-- POWER_HINT_WAIT_TIMEOUT (R362). -/
def Blk.hintTimeout (b : Blk) (q seq : Nat) : Blk :=
  match b.running q seq 0x60 with
  | none => b
  | some f => if hintOk f.raw && fld f.raw 0x20 1 != 0 && zeroAt f.raw 0x10 16 then b.finish q seq stABORT 0 0 else b

/-- KEEP_EXPIRY (R359). -/
def Blk.keepExpiry (b : Blk) : Blk :=
  match b.pwr.keepEnd with
  | some t => if t ≤ b.time.toNat then b.setPwr { b.pwr with keepEnd := none } else b
  | none => b

/-- DIE_IDLE_TIMER (R360). -/
def Blk.dieIdle (b : Blk) (d : Nat) : Blk := if b.pwr.state = .doze && d < 192 then b.sleepDie d else b

/-! ### Entry into WATCH, HOLD and OFF (R363, R364) -/

def Blk.beginEntry (b : Blk) (target : PState) (side : Bool) : Blk :=
  let src := b.pwr.left
  (b.setPwr { b.pwr with
    prev := src, source := src, target := target, step := 1, attempt := 0, viaSide := side, latched := 0, after := none
    retryWait := false }).goState .entering

/-- RUN_DOZE_TIMER (R359) and DOZE_WATCH_TIMER (R361). -/
def Blk.runDoze (b : Blk) : Blk := if b.busy then b else b.toDoze
def Blk.dozeWatch (b : Blk) : Blk :=
  if b.pwr.state = .doze && !b.busy && b.dozeWatchHeld != 0 then b.beginEntry .watch false else b

/-- The transition that a hint asked for, once its completion is written (R362). -/
def Blk.hintAfter (b : Blk) (q seq : Nat) : Blk :=
  match b.pwr.after with
  | some (q', seq', t) =>
    if q' = q && seq' = seq && (b.flight? q seq).isNone then
      let b := b.setPwr { b.pwr with after := none }
      if !(b.pwr.state == .run || b.pwr.state == .doze) then b
      else if t = .doze then b.toDoze else b.beginEntry .watch false
    else b
  | none => b

/-- QUIESCE_TIMEOUT (R363 step 1, R380). -/
def Blk.quiesceTimeout (b : Blk) : Blk :=
  if b.pwr.state = .entering && b.pwr.step = 1 && b.pwr.viaSide && b.lay.phase = .idle then b.endAll stPOWER .boundary else b

/-- The action with which an entry step begins (R363). -/
def Blk.entryAct (b : Blk) (k : Nat) : Blk :=
  let t := b.pwr.target
  if k = 2 then
    if t = .watch then (List.range 192).foldl Blk.sleepDie b
    else if t = .hold then ((List.range 192).filter b.retainedDie).foldl Blk.sleepDie b
    else b
  else if k = 3 then
    let b := b.linksOff
    if t = .watch then b
    else let b := b.attEnd 4; { b with att := { b.att with linkUp := false, link := 0 } }
  else if k = 4 then
    if t = .hold then
      let b := b.setPwr { b.pwr with saved := (b.struc.gen, b.struc.digest) }
      { b with mem := { b.mem with retained := b.mem.segs.filter (fun p => b.segRetained p.1) } }
    else b
  else if k = 5 then b.setPwr { b.pwr with padsHeld := b.pwr.padsHeld ||| (if t = .watch then 0xD else 0xFF) }
  else b

/-- Whether a die has reached self-refresh, or cannot. -/
def DieSt.down (x : DieSt) : Bool := x.sr == .asleep || x.sr == .failed

/-- Whether an entry step is done (R363). What was accepted while WATCH was being entered waits there: the state of
the pairs survives WATCH (R358). -/
def Blk.entryReady (b : Blk) (k : Nat) : Bool :=
  if k = 1 then
    b.lay.phase == .idle
      && (if b.pwr.target = .watch then b.flights.all (fun f => f.stage == .accepted) && b.qps.all (fun p => p.2.fetching == 0)
          else b.flights.isEmpty || b.pwr.source == .watch)
  else if k = 2 then
    if b.pwr.target = .watch then (List.range 192).all (fun d => (b.die d).down)
    else if b.pwr.target = .hold then (List.range 192).all (fun d => !b.retainedDie d || (b.die d).down)
    else true
  else if k = 3 then !b.att.ending
  else true

/-! ### Wakes (R367, R370) -/

/-- Records a wake cause; the link of the first link wake (R378). -/
def Blk.noteCause (b : Blk) (i link : Nat) : Blk :=
  let first := i = 1 && !(b.reg oWAKE_CAUSE).testBit 1
  let b := b.orReg oWAKE_CAUSE (2 ^ i)
  if first then b.putReg oWAKE_CAUSE 0xFF00 (link * 256) else b

/-- R416 step 1: what a start-up from OFF sets at once. -/
def Blk.beginStartup (b : Blk) (path : Nat) : Blk :=
  let b := b.clrReg oSDG_STATUS 0x14
  ({ b with
    time := 0
    mode := .startup
    sdg := { b.sdg with startups := b.sdg.startups + 1, faultHeld := false }
    sec := { b.sec with path := path, recover := false } }).faultPin

/-- A wake begins (R370). -/
def Blk.startWake (b : Blk) (w : WakePath) (causes link path : Nat) : Blk :=
  let src := b.pwr.state
  let b := b.setPwr { b.pwr with
    prev := src, source := src, target := .run, step := 1, attempt := 0, wake := w, retryWait := false, latched := 0
    listening := false }
  let b := (b.goState .waking)
  let b := { b with pins := { b.pins with wakeOutN := false } }
  let b := (bitsSet causes 7).foldl (fun (b : Blk) i => b.noteCause i link) b
  if w = .startup then b.beginStartup path else b

/-- R367: whether a source acts in a state. -/
def sourceActs (st : PState) (i : Nat) : Bool :=
  if st = .watch then decide (i ≤ 3) else if st = .hold then decide (1 ≤ i) && decide (i ≤ 3)
  else if st = .off then i == 2 else false

/-- A wake, or a start-up, by the causes given, in the state that the module is in. -/
def Blk.wakeFrom (b : Blk) (causes link : Nat) : Blk :=
  match b.pwr.state with
  | .watch => b.startWake .fromWatch causes link 0
  | .hold => { b with sec := { b.sec with path := 2 } }.startWake .fromHold causes link 2
  | .off => if b.heldDown then b.incReg (bSDG + 0xA8) else if b.pins.pwrEn then b.startWake .startup causes link 1 else b
  | _ => b

/-- R364: the entry is abandoned. -/
def Blk.abandon (b : Blk) : Blk :=
  let src := b.pwr.source
  let b := ((b.setPwr { b.pwr with step := 0, padsHeld := if src = .watch then 0xD else if src = .hold then 0xFF else 0 }).goState src).pwrEvent 3
  if src = .run || src = .doze then
    let b := if src = .run then b.wakeDies else b
    let b := b.linksOn
    (if b.att.linkUp then b else b.hostPort).resumeFetch
  else b

/-- R364, R367: a wake source arrives. None acts in an OFF that holds FAULT_N low (R398, R446). -/
def Blk.wakeSource (b : Blk) (i link : Nat) : Blk :=
  let x := b.pwr
  if !(b.eff (bPOWER + 0x18)).testBit i then b
  else match x.state with
    | .watch => if sourceActs .watch i then b.wakeFrom (2 ^ i) link else b
    | .hold => if sourceActs .hold i then b.wakeFrom (2 ^ i) link else b
    | .off => if sourceActs .off i && !b.sdg.faultHeld then b.wakeFrom (2 ^ i) link else b
    | .waking => if sourceActs x.source i then b.noteCause i link else b
    | .entering =>
      if !sourceActs x.target i then b
      else if x.step = 6 then b.setPwr { x with latched := setBit x.latched i, latchedLink := link }
      else
        let b := b.abandon
        if sourceActs b.pwr.state i then b.wakeFrom (2 ^ i) link else b
    | _ => b

/-- The requests held in the receivers of ports whose rails go off are lost with them (R46, R358). -/
def Blk.dropHeldPackets (b : Blk) : Blk :=
  { b with held := b.held.filter (fun h => match h with
    | .packet _ _ => false
    | .rdma _ _ => false
    | _ => true) }

/-- The state that an entry reaches when step 6 ends (R363, R364). -/
def Blk.entered (b : Blk) : Blk :=
  let x := b.pwr
  let b := if x.target = .off then
      let b := b.goOff
      b.setPwr { b.pwr with prev := x.prev }
    else
      let rails := if x.target = .watch then railsWatch else b.railsHold
      let b := if x.target = .hold then b.lose true else b.dropHeldPackets
      (b.setPwr { b.pwr with step := 0, rails := rails, latched := 0 }).goState x.target
  if x.latched = 0 then b else b.wakeFrom x.latched x.latchedLink

/-- ENTRY_STEP_DONE (R363). -/
def Blk.entryStep (b : Blk) : Blk :=
  let k := b.pwr.step
  if b.pwr.state != .entering || !b.entryReady k then b
  else if k = 6 then b.entered
  else (b.setPwr { b.pwr with step := k + 1 }).entryAct (k + 1)

/-! ### Start-up (R416, R417, R421, R430) -/

/-- R430: registers and counts are zero, but for M0. -/
def Blk.zeroMeasures (b : Blk) : Blk :=
  { b with sec := { b.sec with m := b.sec.m.take 1 ++ List.replicate 7 (zeros 64), counts := b.sec.counts.take 1 ++ List.replicate 7 0 } }

/-- R424, R425: the identity is derived, or the module has none. -/
def Blk.bootIdent (b : Blk) (ok : Bool) : Blk :=
  let good := ok && fpOf idPublic == Config.recordedFp
  { b with sec := { b.sec with ident := good, recover := b.sec.recover || !good } }

/-- R421: starts a component's copy, and extends M1; none where no copy is valid. -/
def Blk.bootFw (b : Blk) (c : Nat) : Option Blk :=
  match (b.fwOf c).choose with
  | none => none
  | some (k, isB) => some (({ b with sec := { b.sec with fw := b.sec.fw.set c ((b.fwOf c).run k isB) } }).measure 1 k.digest)

/-- R416 step 6: key table, layout image and limits capsule. -/
def Blk.bootObjects (b : Blk) : Blk :=
  let ks := newerKeys b.sec.key0 b.sec.key1
  let b := { b with sec := { b.sec with keys := ks.getD .empty, recover := b.sec.recover || ks.isNone } }
  let b := b.measure 2 b.sec.keys.item
  let b := b.judgeCopies
  let b := match b.lay.bootImage with
    | some img => (b.takeStruc (strucOf img) true).measure 3 (strucOf img).digest
    | none => (b.takeStruc .factory false).measure 3 (zeros 64)
  let b := b.capBoot
  b.measure 4 (bytesAt b.sdg.capDigest 0 64)

/-- R421: floors rise to the security versions that run. -/
def Blk.raiseFloors (b : Blk) : Blk := { b with sec := { b.sec with fw := b.sec.fw.map FwSt.raise } }

/-- R371: STUCK. -/
def Blk.stuck (b : Blk) (step index cause : Nat) : Blk :=
  let x := b.pwr
  let code := step * 2 ^ 28 + x.source.code * 2 ^ 24 + index % 256 * 65536 + cause % 256 * 256
  let keep := if x.wake = .startup then 0x8003 &&& x.rails else b.railsHold &&& x.rails
  let b := (b.setReg oSTUCK_CODE code).setPwr { x with step := 0, attempt := 0, retryWait := false, rails := keep }
  let b := b.goState .stuck
  let b := ({ b with
    pins := { b.pins with pwrGood := false }
    att := { b.att with linkUp := false, ready := false, link := 0 } }).faultPin
  if b.logUp then b.logE kPWR_STUCK { detail := cause % 256 } else b

/-- R370 step 5, R416 step 7: pads are released, RUN is entered, and fetching resumes. -/
def Blk.reachRun (b : Blk) (ms : Nat) : Blk :=
  let w := b.pwr.wake
  let b := (b.setPwr { b.pwr with step := 0, attempt := 0, padsHeld := 0, rails := railsAll, latched := 0 }).goState .run
  let b := { b with pins := { b.pins with pwrGood := true } }
  let b := if w = .fromWatch then b
    else
      let b := { b with sec := { b.sec with reason := 0, ms := min ms 65535 } }
      let b := if b.sec.recover then b.enterMode .recovery 2 else b
      let b := if b.sdg.nvFail then (b.logE kSDG_NV {}).setSdg { b.sdg with nvFail := false } else b
      b.raiseFloors.hostPort
  ((b.faultPin.linksOn).lateEvents).resumeFetch

/-- The retained segments of R68 and R374 after a HOLD wake. -/
def Blk.keepRetained (b : Blk) : Blk :=
  let same := b.pwr.saved == (b.struc.gen, b.struc.digest)
  let segs := if same then b.mem.retained.filter (fun p => b.struc.mapped p.1) else []
  { b with mem := { b.mem with segs := segs, retained := [] } }

/-- The LOGIC step of a HOLD wake: steps 3, 4 and 6 of R416. -/
def Blk.holdLogic (b : Blk) (ident : Bool) (elapsed : Nat) : Blk :=
  let b := { b with mode := .startup, time := 0, commits := [], sec := { b.sec with recover := false } }
  let b := (b.zeroMeasures).bootIdent ident
  match b.bootFw 1 with
  | none => b.stuck 4 1 8
  | some b =>
    match b.bootFw 2 with
    | none => b.stuck 4 2 8
    | some b => ((b.bootObjects).keepRetained).reachRun elapsed

/-- The action with which a wake step begins (R370, R416). -/
def Blk.wakeAct (b : Blk) (k : Nat) : Blk :=
  if k != 3 then b
  else match b.pwr.wake with
    | .startup => b
    | _ => b.wakeDies

/-- Whether the dies are ready in wake step 3. -/
def Blk.diesReady (b : Blk) : Bool := b.dies.all (fun p => p.2.sr == .awake)

/-- The entry of an automatic restart, once the log can be reached (R398). -/
def Blk.noteRestart (b : Blk) : Blk :=
  if b.sec.path = 3 && b.pwr.wake = .startup then b.logE kSDG_RESTART {} else b

/-- WAKE_STEP_READY (R370): `elapsed` is the time spent in WATCH in ticks (R440), or the duration of
a HOLD wake in ms; `ident` says whether the identity was reconstructed. -/
def Blk.wakeReady (b : Blk) (elapsed : Nat) (ident : Bool) : Blk :=
  let x := b.pwr
  let next := (b.setPwr { x with step := x.step + 1, attempt := 0 })
  if x.state != .waking || x.retryWait then b
  else if x.step = 1 then (next.setPwr { next.pwr with rails := railsAll }).noteRestart
  else if x.step = 2 then
    if x.wake = .startup then b.setPwr { x with step := 13, attempt := 0 } else next.wakeAct 3
  else if x.step = 3 then (if b.diesReady then next else b)
  else if x.step = 4 then
    if x.wake = .fromWatch then ({ b with time := b.time + BitVec.ofNat 64 elapsed }).reachRun 0
    else b.holdLogic ident elapsed
  else b

/-- The wake step that PWR_STATE and PWR_STUCK_CODE show for a step of R416 (DEDUCED, log 24): 13 to 16 are its
steps 3 to 6. -/
def wakeStepNo (k : Nat) : Nat := if k = 15 then 3 else if 13 ≤ k then 4 else k

/-- R371: a wake step fails. -/
def Blk.wakeFail (b : Blk) (index cause : Nat) : Blk :=
  let x := b.pwr
  if x.state != .waking || x.retryWait then b
  else if x.attempt = 2 then b.stuck (wakeStepNo x.step) index cause
  else (b.setPwr { x with attempt := x.attempt + 1, retryWait := true }).pwrEvent 1

/-- WAKE_RETRY_DELAY (R371): the step runs again. -/
def Blk.wakeRetry (b : Blk) : Blk :=
  if b.pwr.state = .waking && b.pwr.retryWait then
    let b := b.setPwr { b.pwr with retryWait := false }
    b.wakeAct b.pwr.step
  else b

/-- STARTUP_STEP_DONE (R416, R417): `ok` says in step 3 whether the identity was reconstructed, `bad` names in
step 5 the channels whose training found a failing lane pair (R112, R113). -/
def Blk.startupStep (b : Blk) (ok : Bool) (ms : Nat) (bad : List Nat) : Blk :=
  let x := b.pwr
  if x.state != .waking || x.wake != .startup || x.retryWait then b
  else if x.step = 13 then
    let b := ((b.zeroMeasures).bootIdent ok).setPwr { x with step := 14, attempt := 0 }
    match b.bootFw 1 with
    | none => b.stuck 4 1 8
    | some b =>
      match b.bootFw 2 with
      | none => b.stuck 4 2 8
      | some b => b
  else if x.step = 14 then b.setPwr { x with step := 15, attempt := 0 }
  else if x.step = 15 then
    bad.foldl (fun (b : Blk) ch => if ch < 384 then b.laneFails ch else b) (b.setPwr { x with step := 16, attempt := 0 })
  else if x.step = 16 then (b.bootObjects).reachRun ms
  else b

/-- CLUSTER_READY_TIMEOUT (R417): step 4 is retried twice; the index that STUCK then shows is free. -/
def Blk.clusterLate (b : Blk) : Blk :=
  let x := b.pwr
  if x.state != .waking || x.wake != .startup || x.step != 14 then b
  else if x.attempt < 2 then (b.setPwr { x with attempt := x.attempt + 1 }).pwrEvent 1
  else
    let (b, n) := b.fresh
    b.stuck 4 (Config.freeWord n).toNat 8

/-! ### Commands over the sideband (R372) -/

/-- A refused PWR_CMD (R372, R378, R407). -/
def Blk.cmdRefused (b : Blk) (path code : Nat) : Blk :=
  if b.logUp then b.logE kPWR_CMD { path := path, addr := some (bPOWER + 4), detail := code } else b

def Blk.cmdHold (b : Blk) (path : Nat) : Blk :=
  let st := b.pwr.state
  if path = pSIDE && (st = .run || st = .doze || st = .watch) then b.beginEntry .hold true else b.cmdRefused path 1

def Blk.cmdOff (b : Blk) (path : Nat) : Blk :=
  let st := b.pwr.state
  if path != pSIDE || st = .stuck || st = .unpowered then b.cmdRefused path 2
  else if st = .off || (st = .entering && b.pwr.target = .off) then b
  else b.beginEntry .off true

def Blk.cmdWake (b : Blk) (path : Nat) : Blk :=
  let st := b.pwr.state
  if path = pSIDE && (st = .watch || st = .hold || (st = .off && (b.pins.pwrEn || b.heldDown))) then b.wakeFrom 16 0
  else b.cmdRefused path 3

def Blk.cmdClear (b : Blk) (path : Nat) : Blk :=
  if path = pSIDE && b.pwr.state != .stuck then b.setReg oSTUCK_CODE 0 else b.cmdRefused path 4

def Blk.cmdCycle (b : Blk) (path : Nat) : Blk :=
  if path = pSIDE && b.pwr.state = .stuck && !b.sec.romOnly then
    let b := b.goOff
    b.setPwr { b.pwr with padsHeld := 0 }
  else b.cmdRefused path 5

/-- A write of PWR_CMD (R372, R378). -/
def Blk.pwrCmd (b : Blk) (path val : Nat) : Blk :=
  let c := val % 16
  if c = 1 then b.cmdHold path else if c = 2 then b.cmdOff path else if c = 3 then b.cmdWake path
  else if c = 4 then b.cmdClear path else if c = 5 then b.cmdCycle path else b.cmdRefused path c

/-! ### PWR_EN, wake pins, pads, link wake -/

/-- PWR_EN_ASSERT (R361, R416): the filtered pin is high; SLOT_ID is latched on leaving OFF (R405). -/
def Blk.enHigh (b : Blk) (slot : Nat) : Blk :=
  let b := { b with pins := { b.pins with pwrEn := true } }
  if b.pwr.state = .off && !b.heldDown then
    ({ b with pins := { b.pins with slotId := slot % 8 } }).startWake .startup 32 0 0
  else b

/-- PWR_EN_DEASSERT (R361). -/
def Blk.enLow (b : Blk) : Blk :=
  let b := { b with pins := { b.pins with pwrEn := false } }
  if b.pwr.state = .off || b.pwr.state = .unpowered || b.sec.romOnly then b else b.goOff

/-- WAKE_IN_N_LOW (R367): the filtered level. -/
def Blk.wakeIn (b : Blk) (low : Bool) : Blk :=
  let b := { b with pins := { b.pins with wakeInN := !low } }
  if low then b.wakeSource 2 0 else b

/-- ALARM_EXPIRY (R367). -/
def Blk.alarm (b : Blk) : Blk :=
  if b.reg (bPOWER + 0x48) = 0 || !(b.pwr.state == .watch || b.pwr.state == .hold) then b else b.wakeSource 3 0

/-- LISTEN_WINDOW (R365). -/
def Blk.listen (b : Blk) (opens : Bool) : Blk :=
  if b.pwr.state = .watch || b.pwr.state = .hold then b.setPwr { b.pwr with listening := opens } else b

/-- LINK_WAKE_DETECT (R367, R368). -/
def Blk.linkWake (b : Blk) (l : Nat) : Blk :=
  if l < 32 && b.pwr.listening && b.linkOn l then b.wakeSource 1 l else b

/-- PWR_PADREL (R373). -/
def Blk.padRel (b : Blk) (path val : Nat) : Blk :=
  let rel := bits val 15 8
  let railOf := fun (i : Nat) => [0, 4, 5, 6, 7, 8, 9, 10].getD i 0
  if rel = 0 then b
  else if (b.mode = .test || b.mode = .recovery) && (bitsSet rel 8).all (fun i => b.pwr.rails.testBit (railOf i)) then
    b.setPwr { b.pwr with padsHeld := (bitsSet rel 8).foldl clrBit b.pwr.padsHeld }
  else b.logE kPWR_PADREL { path := path }

/-- PWR_LINKWAKE (R368). -/
def Blk.linkPattern (b : Blk) (val : Nat) : Blk :=
  if !b.pwr.rails.testBit 6 then b
  else (bitsSet val 32).foldl (fun (b : Blk) l =>
    if (b.link l).st = .down && !b.pwr.pattern.testBit l then
      (b.setPwr { b.pwr with pattern := setBit b.pwr.pattern l }).send (.wakePattern l)
    else b) b

/-- LINKWAKE_PATTERN_END (R368). -/
def Blk.patternEnd (b : Blk) (l : Nat) : Blk :=
  if !b.pwr.pattern.testBit l then b
  else
    let b := b.setPwr { b.pwr with pattern := clrBit b.pwr.pattern l }
    if (b.link l).st = .down then b.linkStart l else b

/-! ### Regulators and the hub clock (R375, R376, R394) -/

/-- PMBUS_TRANSACTION_DONE (R375). -/
def Blk.pmbusDone (b : Blk) (ok : Bool) : Blk :=
  if ok then b.setPwr { b.pwr with pmbus := 0 }
  else if b.pwr.pmbus < 2 then b.setPwr { b.pwr with pmbus := b.pwr.pmbus + 1 }
  else (b.setPwr { b.pwr with pmbus := 0 }).pwrEvent 4

/-- R376: voltage of a clock point in the characterisation table that runs. -/
def Blk.pointMv (b : Blk) (mhz : Nat) : Nat := (Config.pointMv (b.fwOf 2).digest mhz).toNat

/-- AVS_ACKNOWLEDGED (R375, R376, R394). -/
def Blk.avsOk (b : Blk) : Blk :=
  match b.pwr.avs with
  | none => b
  | some r => (b.setPwr { b.pwr with avs := none, mv := r.mv }).setSdg { b.sdg with avsHeld := false }

/-- The highest point up to the present one that a voltage supports. -/
def Blk.supported (b : Blk) (mv cur : Nat) : Nat :=
  (List.range 93).foldl (fun a i => let p := 25 * i; if p ≤ cur && b.pointMv p ≤ mv then p else a) 0

/-- AVS_ACK_TIMEOUT (R375, R376, R394): `mv` is the voltage last read back. -/
def Blk.avsLate (b : Blk) (mv : Nat) : Blk :=
  match b.pwr.avs with
  | none => b
  | some r =>
    if r.attempt < 2 then b.setPwr { b.pwr with avs := some { r with attempt := r.attempt + 1 } }
    else
      let p := b.supported mv b.pwr.mhz
      let b := b.setPwr { b.pwr with avs := none, mhz := p }
      let b := if p < 1900 then b.setSdg { b.sdg with avsHeld := true } else b
      ((b.incReg (bPOWER + 0x58)).logE kPWR_AVS {}).pwrEvent 2

/-- At a budget-period boundary in RUN: the clock moves by one point at most (R376). `margin` is the
highest point for which the critical-path monitors report margin. -/
def Blk.clockStep (b : Blk) (margin : Nat) : Blk :=
  let x := b.pwr
  let top := min b.ceiling margin
  if x.state != .run then b
  else if x.mhz = 0 then b.setPwr { x with mhz := min Config.bootMhz.toNat b.ceiling, mv := Config.bootMv.toNat }
  else if top < x.mhz then b.setPwr { x with mhz := x.mhz - 25, avs := some ⟨b.pointMv (x.mhz - 25), 0⟩ }
  else if top < x.mhz + 25 then b
  else if b.pointMv (x.mhz + 25) ≤ x.mv then b.setPwr { x with mhz := x.mhz + 25 }
  else if x.avs.isNone then b.setPwr { x with avs := some ⟨b.pointMv (x.mhz + 25), 0⟩ }
  else b

/-! ### Trips, restarts and rail faults (R396 to R399, R446) -/

/-- R397 step 2, R446: everything ends, and completions are written where the path still works. -/
def Blk.endForRails (b : Blk) : Blk :=
  let b := b.endAll stTHERMAL .now
  b.flights.foldl (fun (b : Blk) f =>
    if f.stage = .done && (b.cqLocal f.q || b.att.linkUp) then b.completeNow { f with txns := [] } else b) b

/-- The record of a shutdown (R399). -/
def Blk.tripRecord (b : Blk) (n secs : Nat) : Bytes :=
  let t := ((b.reading n).map (fun p => p.1)).getD 0
  let r := leBytes 1 1 ++ leBytes 1 (partOf n + 1) ++ leBytes 2 n ++ leBytes 2 (wrap 16 t)
    ++ leBytes 2 (16 * (b.tlimit (partOf n)).2.2) ++ leBytes 2 (wrap 16 (((b.reading 480).map (fun p => p.1)).getD 0))
    ++ leBytes 2 b.sdg.global ++ leBytes 4 (b.sdg.shutdowns + 1) ++ leBytes 4 b.sdg.startups ++ leBytes 4 secs ++ zeros 4
  r ++ leBytes 4 (crc32c r)

/-- R361: states in which a trip acts. -/
def tripActs (st : PState) : Bool :=
  st == .run || st == .doze || st == .watch || st == .hold || st == .entering || st == .waking

/-- R397: a trip by sensor n; `nvOk` says whether the record is written within its bound (R406). -/
def Blk.trip (b : Blk) (n secs : Nat) (nvOk : Bool) : Blk :=
  if !tripActs b.pwr.state then b
  else
    let r := b.tripRecord n secs
    let b := b.endForRails
    let b := if (b.lease? 0).any (fun l => l.holder != 1) then b.revoke 0 else b
    let b := (b.incReg (bSDG + 0xA4)).orReg oSDG_STATUS 2
    (b.setSdg { b.sdg with records := if nvOk then (r :: b.sdg.records).take 64 else b.sdg.records, nvFail := !nvOk, shutdowns := b.sdg.shutdowns + 1 }).goOff

/-- SENSOR_UPDATE (R389 to R397); `secs` is the always-on clock's count since the last start-up. -/
def Blk.sensorUpdate (b : Blk) (temps : List (Option Int)) (mv watts : Nat) (telem : Bool) (secs : Nat)
    (nvOk : Bool) : Blk :=
  if b.pwr.state = .unpowered then b
  else match b.update temps mv watts telem with
    | (b, none) => b
    | (b, some n) => b.trip n secs nvOk

/-- HOLDDOWN_END (R398): `secs` is the always-on time in seconds. -/
def Blk.holdEnd (b : Blk) (secs : Nat) : Blk :=
  if !b.heldDown || b.pwr.state != .off then b
  else
    let w := b.reg (bSDG + 0x68)
    let b := b.clrReg oSDG_STATUS 2
    let b := { b with pins := { b.pins with thermOut := false } }
    let past := b.sdg.restarts.filter (fun t => decide (secs < t + 3600))
    if w.testBit 31 && decide (past.length < bits w 27 24) && b.pins.pwrEn then
      let b := b.setSdg { b.sdg with restarts := past ++ [secs] }
      b.startWake .startup 0 0 3
    else (b.setSdg { b.sdg with restarts := past, faultHeld := true }).faultPin

/-- RAIL_POWER_GOOD_LOST (R371, R446). -/
def Blk.railLost (b : Blk) (rail : Nat) : Blk :=
  let st := b.pwr.state
  if !b.pwr.rails.testBit rail then (if st = .waking then b.wakeFail rail 2 else b)
  else if st = .waking then (b.setPwr { b.pwr with rails := clrBit b.pwr.rails rail }).wakeFail rail 2
  else if st = .run || st = .doze || st = .watch || st = .hold then
    let b := b.endForRails
    (b.setSdg { b.sdg with faultHeld := true }).goOff
  else b.setPwr { b.pwr with rails := clrBit b.pwr.rails rail }

/-! ### The input (R415, R444) -/

/-- Every rail has lost its power. What remains is in flash. -/
def Blk.unpower (b : Blk) : Blk :=
  let l := b.lose false
  { l with
    regs := []
    pwr := { PwrSt.reset with state := .unpowered, prev := .off, rails := 0, hotSwap := false, inputOk := false }
    pins := { b.pins with pwrGood := false, wakeOutN := true, faultN := true, thermOut := false }
    sdg := { SdgSt.reset with
      capFloor := b.sdg.capFloor, cap0 := b.sdg.cap0, cap1 := b.sdg.cap1, capOk0 := b.sdg.capOk0, capOk1 := b.sdg.capOk1, records := b.sdg.records
      shutdowns := b.sdg.shutdowns, startups := b.sdg.startups }
    sec := { b.sec with
      m := List.replicate 8 (zeros 64), counts := List.replicate 8 0, ident := false, frags := none, resps := []
      reason := 0, path := 0, ms := 0, romOnly := false, recover := false } }

/-- HOLDUP_EXHAUSTED (R444): the hold-up bank drains only while the switch is open. -/
def Blk.holdupOut (b : Blk) : Blk := if b.pwr.hotSwap || b.pwr.state = .unpowered then b else b.unpower

/-- INPUT_UNDERVOLTAGE and INPUT_OVERVOLTAGE (R444). -/
def Blk.inputBad (b : Blk) : Blk := b.setPwr { b.pwr with hotSwap := false, inputOk := false }

/-- INPUT_RESTORED (R444). -/
def Blk.inputGood (b : Blk) : Blk :=
  if b.pwr.state = .unpowered then b else b.setPwr { b.pwr with hotSwap := true, inputOk := true }

/-- The ROM starts the always-on firmware, and the module enters OFF (R415). -/
def Blk.romStart (b : Blk) : Blk :=
  let b := b.setPwr { b.pwr with state := .off, prev := .off, rails := railsOff, padsHeld := 0xFF, hotSwap := true, inputOk := true }
  let b := b.setReg (bSDG + 0xA4) (min b.sdg.shutdowns (2 ^ 32 - 1))
  match (b.fwOf 0).choose with
  | none =>
    let b := (b.setPwr { b.pwr with state := .stuck }).setReg oSTUCK_CODE (4 * 2 ^ 28 + 4 * 2 ^ 24 + 8 * 256)
    ({ b with sec := { b.sec with romOnly := true } }).faultPin
  | some (k, isB) =>
    let b := { b with sec := { b.sec with romOnly := false, fw := b.sec.fw.set 0 ((b.fwOf 0).run k isB) } }
    let b := (b.measure 0 k.digest).faultPin
    if b.pins.pwrEn then b.startWake .startup 32 0 0 else b

/-- INPUT_POWER_APPLIED (R415, R445). -/
def Blk.inputOn (b : Blk) : Blk := if b.pwr.state = .unpowered then b.romStart else b

/-- R415: without valid firmware, an accepted component 0 image goes to copy A, and the ROM restarts. -/
def Blk.romLoad (b : Blk) (r : Bytes) (len : Nat) : Blk × Nat :=
  let why := if fld r 6 1 = 0 then b.fwReason r len else oCONTAINER
  if why != 0 then (b, why)
  else
    let x := b.fwOf 0
    let b := { b with sec := { b.sec with fw := b.sec.fw.set 0 { x with a := some (fwCopyOf r) } } }
    ((b.setReg oSTUCK_CODE 0).romStart, 0)

/-! ### The commands -/

def execPowerHint (q seq : Nat) (s : State) : Out := act s (fun b => b.hintRun q seq)
def execPowerHintWaitTimeout (q seq : Nat) (s : State) : Out := act s (fun b => b.hintTimeout q seq)
def execKeepExpiry (s : State) : Out := act s (fun b => b.keepExpiry)
def execRunDozeTimer (s : State) : Out := act s (fun b => b.runDoze)
def execDieIdleTimer (die : Nat) (s : State) : Out := act s (fun b => b.dieIdle die)
def execDozeWatchTimer (s : State) : Out := act s (fun b => b.dozeWatch)
def execQuiesceTimeout (s : State) : Out := act s (fun b => b.quiesceTimeout)
def execListenWindow (opens : Bool) (s : State) : Out := act s (fun b => b.listen opens)
def execWakeStepTimeout (index cause : Nat) (s : State) : Out := act s (fun b => b.wakeFail index cause)
def execWakeRetryDelay (s : State) : Out := act s (fun b => b.wakeRetry)
def execLinkWakeDetect (link : Nat) (s : State) : Out := act s (fun b => b.linkWake link)
def execAlarmExpiry (s : State) : Out := act s (fun b => b.alarm)
def execPmbusTransactionDone (ok : Bool) (s : State) : Out := act s (fun b => b.pmbusDone ok)
def execAvsAckTimeout (mv : Nat) (s : State) : Out := act s (fun b => b.avsLate mv)
def execAvsAcknowledged (s : State) : Out := act s (fun b => b.avsOk)
def execPwrEnAssert (slot : Nat) (s : State) : Out := act s (fun b => b.enHigh slot)
def execPwrEnDeassert (s : State) : Out := act s (fun b => b.enLow)
def execRailPowerGoodLost (rail : Nat) (s : State) : Out := act s (fun b => b.railLost rail)
def execSensorUpdate (temps : List (Option Int)) (mv watts : Nat) (telem : Bool) (secs : Nat) (nvOk : Bool) (s : State) : Out :=
  act s (fun b => b.sensorUpdate temps mv watts telem secs nvOk)
def execHolddownEnd (secs : Nat) (s : State) : Out := act s (fun b => b.holdEnd secs)
def execInputPowerApplied (s : State) : Out := act s (fun b => b.inputOn)
def execClusterReadyTimeout (s : State) : Out := act s (fun b => b.clusterLate)
def execInputUndervoltage (s : State) : Out := act s (fun b => b.inputBad)
def execInputOvervoltage (s : State) : Out := act s (fun b => b.inputBad)
def execInputRestored (s : State) : Out := act s (fun b => b.inputGood)
def execHoldupExhausted (s : State) : Out := act s (fun b => b.holdupOut)
def execWakeOutNRelease (s : State) : Out := act s (fun b => { b with pins := { b.pins with wakeOutN := true } })

end Sys2Proof.Machine
end

