-- ==== Sys2Proof/Machine/Fabric.lean ====
section
/-! DEFINITION. The herd fabric (R323 to R345, R352, R353): link bring-up, flits, packets at their
home, at a transit module and at their origin, and the remote operations of queue entries. -/

namespace Sys2Proof.Machine
open Sys2Proof

/-! ### Bring-up (R324 to R326, R369) -/

/-- Links run in RUN and DOZE only (R356). -/
def Blk.linksLive (b : Blk) : Bool := b.pwr.state == .run || b.pwr.state == .doze

/-- Cuts a control message into its flits (R325). -/
def ctlChunks (m : Bytes) : List Bytes :=
  let cs := chunk 620 (m.length / 620 + 1) m
  (List.range cs.length).map (fun i => leBytes 1 (fld m 0 1) ++ leBytes 1 i ++ leBytes 2 m.length ++ cs.getD i [])

/-- Puts a control message's flits into the retry buffer (R330). -/
def LinkSt.putCtl (x : LinkSt) (m : Bytes) : LinkSt :=
  (ctlChunks m).foldl (fun y c =>
    { y with txSeq := (y.txSeq + 1) % 65536, retry := y.retry ++ [⟨(y.txSeq + 1) % 65536, 3, c, [], 0⟩] }) x

def Blk.sendCtl (b : Blk) (l : Nat) (m : Bytes) : Blk := (b.setLink l ((b.link l).putCtl m)).send (.control l m)

/-- The IDENT message (R325). -/
def Blk.identMsg (b : Blk) (l : Nat) (nonce : Bytes) : Bytes :=
  let e := b.linkEnt l
  leBytes 1 1 ++ leBytes 1 l ++ leBytes 2 b.struc.modNum ++ leBytes 4 b.struc.gen ++ nonce ++ leBytes 2 e.nbModule
    ++ leBytes 1 e.nbLink ++ zeros 5 ++ bytesAt idPublic 0 1952

/-- What a PROOF signs: the partner's nonce, then bytes 0x00 to 0x2F of the signer's IDENT (R325). -/
def proofDigest (nonce ident : Bytes) : Bytes := shake256 (nonce ++ bytesAt ident 0 0x30) 64

/-- The PROOF message (R325). -/
def proofMsg (dig : Bytes) : Bytes :=
  leBytes 1 2 ++ zeros 7 ++ bytesAt (mldsaSign idSeed (ascii "CRL2-LINK") dig) 0 3309

/-- Step 4 begins: a new nonce, and the own IDENT leaves. -/
def Blk.startIdent (b : Blk) (l : Nat) : Blk :=
  let (b, n) := b.fresh
  let nonce := (List.range 32).map (Config.freeByte n)
  let b := b.setLink l { b.link l with st := .ident, step := 4, nonce := nonce, partner := [], proofSent := false }
  b.sendCtl l (b.identMsg l nonce)

/-- LINK_SIGNAL_DETECT (R324, R369). -/
def Blk.signalDetect (b : Blk) (l : Nat) : Blk :=
  let x := b.link l
  if x.st = .training && x.step = 1 then b.setLink l { x with step := 2, attempt := 0 }
  else if x.st = .down && b.linksLive then b.linkStart l
  else b

/-- LINK_TRAINING_DONE (R324 steps 2 and 3): step 4 begins. -/
def Blk.trainingDone (b : Blk) (l : Nat) : Blk :=
  let x := b.link l
  if x.st = .training && x.step = 2 && !b.restarting then b.startIdent l else b

/-- LINK_BRINGUP_TIMEOUT (R324): step 2 is retried twice; any other step fails at once. -/
def Blk.bringupLate (b : Blk) (l : Nat) : Blk :=
  let x := b.link l
  if x.st = .training && x.step = 2 && x.attempt < 2 then b.setLink l { x with attempt := x.attempt + 1 }
  else if x.st = .training || x.st = .ident then b.linkDown l
  else b

/-- LINK_RETRY_TIMER (R324). -/
def Blk.retryTimer (b : Blk) (l : Nat) : Blk := if (b.link l).st = .down && b.linksLive then b.linkStart l else b

/-- IDENT received whole (R325). -/
def Blk.identIn (b : Blk) (l : Nat) (m : Bytes) : Blk :=
  let x := b.link l
  if x.st != .ident || !x.partner.isEmpty || m.length != 2000 || fld m 0 1 != 1 || b.restarting then b
  else
    let own := b.identMsg l x.nonce
    let b := b.setLink l { x with partner := m, proofSent := true, rxSeq := (x.rxSeq + 4) % 65536 }
    b.sendCtl l (proofMsg (proofDigest (bytesAt m 8 32) own))

/-- R326: what a link needs of its partner. -/
def Blk.partnerOk (b : Blk) (l : Nat) (x : LinkSt) (m : Bytes) : Bool :=
  let e := b.linkEnt l
  let p := x.partner
  let pub := bytesAt p 0x30 1952
  fpOf pub == e.nbFp && fld p 2 2 == e.nbModule && fld p 1 1 == e.nbLink
    && fld p 0x28 2 == b.struc.modNum && fld p 0x2A 1 == l
    && mldsaVerify pub (ascii "CRL2-LINK") (proofDigest x.nonce p) (bytesAt m 8 3309)

/-- PROOF received whole (R326, R324 step 5). -/
def Blk.proofIn (b : Blk) (l : Nat) (m : Bytes) : Blk :=
  let x := b.link l
  if x.st != .ident || x.partner.isEmpty || m.length != 3317 || fld m 0 1 != 2 || b.restarting then b
  else
    let x := { x with rxSeq := (x.rxSeq + 6) % 65536 }
    if b.partnerOk l x m then
      ((b.setLink l { x with st := .up, step := 5, credits := [4096, 4096, 4096, 4096], part := [] }).fabEvent 1).checkBundles
    else
      let p := x.partner
      let b := b.setLink l { x with st := .mismatch, retry := [], partner := [], proofSent := false }
      ((b.logE kFAB_MISMATCH { path := pFAB, addr := some (fpOf (bytesAt p 0x30 1952)), cga := some (fld p 2 2 + 65536 * fld p 1 1) }).fabEvent 2).checkBundles

/-- LINK_MISMATCH_RETRY (R326). -/
def Blk.mismatchRetry (b : Blk) (l : Nat) : Blk :=
  if (b.link l).st = .mismatch && b.linksLive && !b.restarting then b.startIdent l else b

/-- LINK_FEC_RATE_CHECK (R324): corrected and received symbols of the last second. -/
def Blk.fecRate (b : Blk) (l bad total : Nat) : Blk :=
  if (b.link l).st = .up && total < bad * 100000 then b.retrain l else b

/-! ### Acks and credits (R327 to R330) -/

/-- Whether sequence number `a` is at or before `c`, modulo 65,536. -/
def seqLe (a c : Nat) : Bool := decide ((c + 65536 - a) % 65536 < 32768)

/-- An ack frees the flits it covers; credits return to a virtual channel; what waited may go. -/
def Blk.ackIn (b : Blk) (l ack cvc ccount : Nat) : Blk :=
  let x := b.link l
  let x := { x with retry := x.retry.filter (fun f => !seqLe f.seq ack)
                    credits := x.credits.set cvc (min 4096 (x.credits.getD cvc 0 + ccount)) }
  (b.setLink l x).drainWaiting l

/-- IDLE_FLIT (R328). -/
def Blk.idleFlit (b : Blk) (l ack cvc ccount : Nat) : Blk :=
  let x := b.link l
  if x.st = .up then b.ackIn l ack cvc ccount
  else if x.st = .ident then b.setLink l { x with retry := x.retry.filter (fun f => !seqLe f.seq ack) }
  else b

/-- NAK_FLIT (R330): everything after the ack is sent again; the eighth resend of a flit ends the link. -/
def Blk.nakFlit (b : Blk) (l ack : Nat) : Blk :=
  let x := b.link l
  if x.st != .up && x.st != .ident then b
  else
    let kept := x.retry.filter (fun f => !seqLe f.seq ack)
    let again := kept.map (fun f => { f with resent := f.resent + 1 })
    let b := b.setLink l { x with retry := again, resends := min (x.resends + kept.length) 65535 }
    if again.any (fun f => decide (8 ≤ f.resent)) then b.linkDown l
    else if again.isEmpty then b
    else b.send (.resend l ((ack + 1) % 65536))

/-- FLIT_ACK_TIMEOUT (R330). -/
def Blk.ackLate (b : Blk) (l : Nat) : Blk :=
  let x := b.link l
  if (x.st = .up || x.st = .ident) && !x.retry.isEmpty then b.linkDown l else b

/-- FEC_LOCK_LOSS (R330). -/
def Blk.fecLost (b : Blk) (l : Nat) : Blk :=
  let x := b.link l
  if x.st = .up || x.st = .ident then b.linkDown l else b

/-! ### Requests at their home (R332, R333, R337, R338) -/

/-- The class, port and path of fabric traffic (R33, R89, R407). -/
def rqFab (q : Nat) : Req := ⟨3, cRemote, some q, pFAB⟩

/-- R333 for an address range: bits above the herd address, one region, its owners, no retired segment. -/
def Blk.homeOk (b : Blk) (addr len q : Nat) : Bool :=
  decide (addr < 2 ^ 53) && decide (0 < len) && decide (len ≤ 4096) && b.rangeOk q (haMpa addr) len

/-- A fabric write (R292, R333): the owner byte of a slot changes only from PEER to FREE or HOST, and
the generation is the module's. -/
def Blk.fabWrite (b : Blk) (rq : Req) (a : Nat) (d : Bytes) : Blk × Nat :=
  let heads := b.slotHeads a d.length
  if heads.isEmpty then writeRange b rq a d
  else
    let r := b.otherWrite rq a d
    let b := heads.foldl (fun (b : Blk) i =>
      if b.slotBase i < a then b
      else
        let new := (d.getD (b.slotBase i - a) 0).toNat
        let (b, o) := b.slotOwner i
        if o = 3 && new < 2 then b.setOwner i new else b) r.1
    (b, r.2)

/-- R337: the new value of an atomic operation. -/
def atomicNew (op old x y : Nat) : Nat :=
  if op = 0 then (old + x) % 2 ^ 64
  else if op = 1 then x
  else if op = 2 then (if old = y then x else old)
  else if op = 3 then (if sext 64 old < sext 64 x then x else old)
  else f32add old (x % 2 ^ 32)

def atomicLen (op : Nat) : Nat := if op = 4 then 4 else 8

/-- R337: a listed operation on an aligned target. -/
def atomicOk (op addr : Nat) : Bool := decide (op ≤ 4) && addr % atomicLen op == 0

/-- One indivisible read and write (R337): the status and the old value. -/
def Blk.atomicAt (b : Blk) (rq : Req) (mpa op x y : Nat) : Blk × Nat × Nat :=
  let n := atomicLen op
  let r := readRange b rq mpa n
  if r.st != stOK then (r.b, r.st, 0)
  else
    let old := leNat r.data
    let (b, s) := r.b.otherWrite rq mpa (leBytes n (atomicNew op old x y))
    (b, if s != stOK then s else if r.corr then stFLAGGED else stOK, old)

/-- R346 and R330: earlier requests of the origin that are still held and must go first (R332 FENCE, R334). -/
def Blk.heldBefore (b : Blk) (p : Packet) : Bool :=
  b.held.any (fun h => match h with
    | .packet _ x => x.src == p.src && (x.typ == 2 || x.typ == 3 || (p.typ != 4 && x.typ == 1))
        && (p.typ == 4 || (decide (p.typ ≤ 3) && x.addr / 256 == p.addr / 256))
    | _ => false)

/-- R46, R363: fabric and RoCE requests are held. -/
def Blk.remoteHeld (b : Blk) : Bool := b.lay.phase == .applying || b.pwr.state == .entering

/-- The bytes of module memory that a request touches. -/
def Blk.reqRange (b : Blk) (p : Packet) : Nat × Nat :=
  if p.typ = 1 || p.typ = 2 then (haMpa p.addr, p.arg)
  else if p.typ = 3 then (haMpa p.addr, atomicLen p.sub)
  else if p.typ = 6 then (b.sqBase (p.addr % 64) + 128 * (p.arg % 2 ^ b.sqLog (p.addr % 64)), 128)
  else (0, 0)

/-- R333 for DOORBELL and FWD_ENTRY. -/
def Blk.pairOk (b : Blk) (p : Packet) : Bool :=
  let t := p.addr % 64
  let mask := match b.struc.regionAt (b.sqBase t) with | some r => r.owners.testBit p.qs | none => false
  decide (p.addr < 64) && (!b.sqLocal t || mask) && (b.qp t).enabled && b.mayRing t pFAB

/-- READ at its home (R332); its data pass through the staging SRAM (R87). -/
def Blk.homeRead (b : Blk) (p : Packet) : Blk :=
  if !b.homeOk p.addr p.arg p.qs then b.respond p 0x81 stRANGE []
  else
    match b.mem.sramBad with
    | some (buf, o) => (b.sramHit (some p.qs) pFAB buf o).respond p 0x81 stUNCORR []
    | none =>
    let r := readRange b (rqFab p.qs) (haMpa p.addr) p.arg
    if r.st != stOK then r.b.respond p 0x81 r.st []
    else r.b.respond p 0x81 (if r.corr then stFLAGGED else stOK) r.data

def Blk.homeWrite (b : Blk) (p : Packet) : Blk :=
  if !b.homeOk p.addr p.arg p.qs || p.payload.length < p.arg then b.respond p 0x82 stRANGE []
  else
    let (b, s) := b.fabWrite (rqFab p.qs) (haMpa p.addr) (p.payload.take p.arg)
    b.respond p 0x82 s []

def Blk.homeAtomic (b : Blk) (p : Packet) : Blk :=
  if !atomicOk p.sub p.addr then b.respond p 0x83 stDESC (zeros 16)
  else if !b.homeOk p.addr (atomicLen p.sub) p.qs then b.respond p 0x83 stRANGE (zeros 16)
  else
    let (b, s, old) := b.atomicAt (rqFab p.qs) (haMpa p.addr) p.sub p.arg (fld p.payload 0 8)
    b.respond p 0x83 s (leBytes 16 old)

def Blk.homeDoorbell (b : Blk) (p : Packet) : Blk :=
  let ok := b.pairOk p
  let b := if p.addr < 64 && (ok || !(b.qp (p.addr % 64)).enabled || !b.mayRing (p.addr % 64) pFAB)
    then b.ring (p.addr % 64) pFAB (BitVec.ofNat 32 p.arg) else b
  b.respond p 0x85 (if ok then stOK else stRANGE) []

def Blk.homeEntry (b : Blk) (p : Packet) : Blk :=
  let t := p.addr % 64
  if !b.pairOk p || !b.sqLocal t then b.respond p 0x86 stRANGE []
  else
    let (b, s) := b.otherWrite (rqFab p.qs) (b.reqRange p).1 (bytesAt p.payload 0 128)
    if s != stOK then b.respond p 0x86 s []
    else (b.ring t pFAB (BitVec.ofNat 32 (p.arg + 1))).respond p 0x86 stOK []

/-- A request at its home, once it need not be held (R81, R46, R108, R457). -/
def Blk.homeReq (b : Blk) (l : Nat) (p : Packet) : Blk :=
  let (a, n) := b.reqRange p
  if b.remoteHeld || b.heldBefore p then b.hold (.packet l p)
  else if n != 0 && n ≤ 4096 && b.mustWait cRemote a n then (b.askExit a n).hold (.packet l p)
  else if p.typ = 1 then b.homeRead p
  else if p.typ = 2 then b.homeWrite p
  else if p.typ = 3 then b.homeAtomic p
  else if p.typ = 4 then b.respond p 0x84 stOK []
  else if p.typ = 5 then b.homeDoorbell p
  else b.homeEntry p

/-! ### Responses at their origin (R332, R335, R344) -/

/-- What an entry takes from a response. -/
def Flight.took (f : Flight) (t : Txn) (p : Packet) : Flight :=
  let f := if p.qs = stFLAGGED then { f with flags := f.flags ||| flagCorrected } else f
  if p.typ = 0x81 then { f with fetched := f.fetched ++ [(t.addr, bytesAt p.payload 0 t.len)] }
  else if p.typ = 0x83 then { f with fetched := f.fetched ++ [(t.addr, bytesAt p.payload 0 8)] }
  else if p.typ = 0x82 && eOpcode f.raw = 0x30 then { f with result := f.result + t.len }
  else f

/-- A response: discarded unless its transaction is outstanding and of its kind. -/
def Blk.responseIn (b : Blk) (p : Packet) : Blk :=
  match b.fab.txns.find? (fun t => t.num == p.txn) with
  | none => b
  | some t =>
    if p.typ = 0x8F then
      let b := if b.rout.mode = 1 && p.sub = 2 then
          { b with fab := { b.fab with marks := (t.dst :: b.fab.marks).eraseDups } } else b
      b.naked t
    else if p.typ != 0x80 + t.typ then b
    else if isErr p.qs then b.failTxn t p.qs
    else (b.endTxn t).updFlight t.q t.seq (fun f => f.took t p)

/-- REMOTE_TIMEOUT (R335). -/
def Blk.remoteLate (b : Blk) (n : Nat) : Blk :=
  match b.fab.txns.find? (fun t => t.num == n) with
  | none => b
  | some t => (b.failTxn t stRTIMEOUT).incReg oFAB_TIMEOUT

/-- UNREACHABLE_MARK_EXPIRY (R344). -/
def Blk.markEnd (b : Blk) (dst : Nat) : Blk := { b with fab := { b.fab with marks := b.fab.marks.filter (· != dst) } }

/-! ### Routing (R342 to R344) -/

/-- LINK_STATE (R343): a newer report of another module. -/
def Blk.linkState (b : Blk) (l : Nat) (p : Packet) : Blk :=
  let m := fld p.payload 0 2
  let k := fld p.payload 2 1
  let n := fld p.payload 4 4
  let old := b.fab.reports.any (fun r => r.1 == m && decide (n ≤ r.2))
  if old || m = b.struc.modNum then b
  else
    let dead := b.fab.dead.filter (· != (m, k))
    let fab := if b.rout.mode = 1 then { b.fab with marks := [] }
      else { b.fab with dead := if fld p.payload 3 1 = 1 then dead else (m, k) :: dead }
    ({ b with fab := { fab with reports := tset m n fab.reports } }).flood { p with hops := p.hops + 1 } (some l)

/-- A packet for another module (R340 to R344). -/
def Blk.transit (b : Blk) (l : Nat) (p : Packet) : Blk :=
  let p := { p with hops := p.hops + 1 }
  if !pktIsRsp p && b.remoteHeld then b.hold (.packet l { p with hops := p.hops - 1 })
  else match b.forward p (some ((b.linkEnt l).bundle / 2)) with
    | some b => b
    | none => if pktIsRsp p then b else b.routeNak p 2

/-- R331, R332, R342: whether a packet's reserved fields and type are as listed, and it has crossed fewer than
64 links with the one that brought it. -/
def pktForm (p : Packet) : Bool :=
  typListed p.typ && p.rsv == 0 && decide (p.flags < 16) && decide (p.payload.length ≤ 4096) && decide (p.txn < 4096)
    && decide (p.hops < 63)

/-- What a packet that came on a link does: one that is not of that form is discarded and counted. -/
def Blk.packetDo (b : Blk) (l : Nat) (p : Packet) : Blk :=
  if !pktForm p then b.incReg oFAB_BADPKT
  else if p.typ = 0x10 then b.linkState l p
  else if p.dst != b.struc.modNum then b.transit l p
  else if pktIsRsp p then b.responseIn p
  else b.homeReq l p

/-- A packet has arrived on a link. -/
def Blk.packetIn (b : Blk) (l : Nat) (p : Packet) : Blk := if (b.link l).st != .up then b else b.packetDo l p

/-- The credits of freed units return with a flit (R329). -/
def Blk.giveBack (b : Blk) (l vc n : Nat) : Blk := if n = 0 then b else b.send (.idle l (b.link l).rxSeq vc n)

/-- A packet of a data flit: one that is held keeps its units in the receiver (R46, R329). -/
def Blk.flitPacket (x : Blk × List Packet) (l : Nat) (p : Packet) : Blk × List Packet :=
  let c := x.1.packetIn l p
  if x.1.held.length < c.held.length then
    let k := c.link l
    let vc := pktVc p
    (c.setLink l { k with owed := k.owed.set vc (k.owed.getD vc 0 + pktUnits p) }, x.2)
  else (c, x.2 ++ [p])

/-- A held packet goes on, or is held again; the link that brought it may have gone down since. Its units
are then free, and the credits that were withheld for them return. -/
def Blk.packetGo (b : Blk) (l : Nat) (p : Packet) : Blk :=
  let c := b.packetDo l p
  if b.held.length < c.held.length then c
  else
    let k := c.link l
    let vc := pktVc p
    let n := min (k.owed.getD vc 0) (pktUnits p)
    (c.setLink l { k with owed := k.owed.set vc (k.owed.getD vc 0 - n) }).giveBack l vc n

/-! ### Data flits (R327 to R330) -/

/-- The whole packets at the head of a stream of units, and the rest. An all-zero unit where a header
is due fills the flit. -/
def takePackets : Nat → Bytes → List Packet × Bytes
  | 0, d => ([], d)
  | fuel + 1, d =>
    if d.length < 16 then ([], d)
    else if zeroAt d 0 16 then takePackets fuel (d.drop 16)
    else
      let n := 32 + 16 * fld d 2 2
      if d.length < 32 || d.length < n then ([], d)
      else
        let (ps, r) := takePackets fuel (d.drop n)
        (pktOf d :: ps, r)

/-- R330: a flit that fails, or comes out of order, is discarded; one NAK names the last good flit. -/
def Blk.badFlit (b : Blk) (l : Nat) (uncorr failed : Bool) : Blk :=
  let x := b.link l
  let b := b.setLink l { x with uncorrected := if uncorr then min (x.uncorrected + 1) 65535 else x.uncorrected, naked := true }
  if failed || !x.naked then b.send (.nakFlit l x.rxSeq) else b

/-- The units of a virtual channel that a list of packets frees. -/
def freedUnits (ps : List Packet) (vc : Nat) : Nat := ((ps.filter (fun p => pktVc p == vc)).map pktUnits).foldl (· + ·) 0

/-- DATA_FLIT (R330): 640 bytes, and whether FEC delivered them. -/
def Blk.dataFlit (b : Blk) (l : Nat) (raw : Bytes) (fecOk : Bool) : Blk :=
  let x := b.link l
  let f := bytesAt raw 0 640
  if x.st != .up then b
  else if !fecOk then b.badFlit l true true
  else if crc32c (bytesAt f 0 0x278) != fld f 0x278 4 then b.badFlit l false true
  else if fld f 4 1 != 1 then b
  else if fld f 0 2 != (x.rxSeq + 1) % 65536 then b.badFlit l false false
  else
    let (ps, part) := takePackets 80 (x.part ++ bytesAt f 8 624)
    let b := b.setLink l { x with rxSeq := fld f 0 2, part := part, naked := false }
    let b := b.ackIn l (fld f 2 2) (fld f 5 1 % 4) (fld f 6 2)
    let (b, done) := ps.foldl (fun (y : Blk × List Packet) p => Blk.flitPacket y l p) (b, [])
    (List.range 4).foldl (fun (b : Blk) vc => b.giveBack l vc (freedUnits done vc)) b

/-! ### Remote operations of entries (R336, R337) -/

/-- Parameters of REMOTE_PUT and REMOTE_GET. -/
def rLocal (e : Bytes) : Nat := fld e 0x20 8
def rRemote (e : Bytes) : Nat := fld e 0x28 8
def rLen (e : Bytes) : Nat := fld e 0x30 8

def noHandles (e : Bytes) : Bool := zeroAt e 0x10 16

/-- R336: 0, DESC_INVALID or RANGE. -/
def Blk.moveCheck (b : Blk) (f : Flight) : Nat :=
  let e := f.raw
  if !(noHandles e && zeroAt e 0x38 72) then stDESC
  else if rLen e = 0 || 2 ^ 30 < rLen e || !b.rangeOk f.q (rLocal e) (rLen e) || !b.haOk (rRemote e)
      || !b.haOk (rRemote e + rLen e - 1) then stRANGE
  else stOK

/-- A remote range that is homed here obeys R333 as well. -/
def Wk.remoteHere (w : Wk) (a n : Nat) : Wk :=
  if w.b.haLocal a && !w.b.rangeOk w.q (haMpa a) n then w.fail stRANGE else w

/-- Copies the pieces of a PUT that can go now; the count is of bytes whose piece was taken. -/
def Wk.putPieces (w : Wk) (e : Bytes) : List (Nat × Nat) → Nat → Nat → Wk × Nat × Nat
  | [], done, here => (w, done, here)
  | (a, n) :: t, done, here =>
    let w := w.remoteHere a n
    let loc := haModule (rRemote e) == haModule a && w.b.haLocal a
    let (w, d) := w.read (w.b.struc.modNum * 2 ^ 40 + rLocal e + done) n
    let w := w.write a d
    if w.bad || w.stall then (w, done, here)
    else w.putPieces e t (done + n) (if loc then here + n else here)

/-- Copies the pieces of a GET whose bytes are here; the rest is needed. -/
def Wk.getPieces (w : Wk) (e : Bytes) : List (Nat × Nat) → Nat → Wk × Nat
  | [], done => (w, done)
  | (a, n) :: t, done =>
    let w := w.remoteHere a n
    let (w, d) := w.read a n
    let w := w.write (w.b.struc.modNum * 2 ^ 40 + rLocal e + done) d
    if w.bad || w.stall || !w.need.isEmpty then (w, done) else w.getPieces e t (done + n)

/-- Work whose local side goes through the fabric port (R33, R89). -/
def Wk.onFabric (b : Blk) (f : Flight) : Wk := { Wk.start b f 3 with rq := ⟨3, cRemote, some f.q, f.path⟩ }

/-- What the pieces so far wrote on other modules leaves, also where a later one must wait: pieces already done
stay done. -/
def Wk.flushed (w : Wk) : Wk :=
  let x := ({ w with need := [], stall := false }).sent
  { x with need := w.need, stall := w.stall }

/-- REMOTE_PUT (R336). -/
def Blk.putRun (b : Blk) (q seq : Nat) : Blk :=
  match b.running q seq 0x30 with
  | none => b
  | some f =>
    let e := f.raw
    let st := b.moveCheck f
    if st != stOK && f.progress = 0 then b.finish q seq st 0 0
    else
      let ps := split4k (rLen e / 4096 + 2) (rRemote e + f.progress) (rLen e - f.progress)
      let (w, done, here) := (Wk.onFabric b f).putPieces e ps f.progress 0
      let w := w.flushed
      let moved := ((w.b.flight? q seq).map Flight.result).getD 0 + here
      if w.bad || !w.stall then w.b.finish q seq w.st w.flags moved
      else w.b.updFlight q seq (fun g => { g with progress := done, result := moved, flags := g.flags ||| w.flags })

/-- REMOTE_GET (R336). -/
def Blk.getRun (b : Blk) (q seq : Nat) : Blk :=
  match b.running q seq 0x31 with
  | none => b
  | some f =>
    let e := f.raw
    let st := b.moveCheck f
    if st != stOK && f.progress = 0 then b.finish q seq st 0 0
    else
      let ps := split4k (rLen e / 4096 + 2) (rRemote e + f.progress) (rLen e - f.progress)
      let (w, done) := (Wk.onFabric b f).getPieces e ps f.progress
      if w.bad || (!w.stall && w.need.isEmpty) then w.b.finish q seq w.st w.flags done
      else
        let b := w.b.updFlight q seq (fun g =>
          { g with progress := done, flags := g.flags ||| w.flags
                   fetched := g.fetched.filter (fun p => decide (rRemote e + done ≤ p.1)) })
        if w.need.isEmpty then b
        else
          let (b, s) := b.askRemote q seq (split4k (rLen e / 4096 + 2) (rRemote e + done) (rLen e - done)
            |>.filter (fun p => (lookFetched f.fetched p.1 p.2).isNone && !b.haLocal p.1))
          if s != stOK then b.finish q seq s 0 done else b

/-- REMOTE_ATOMIC (R337). -/
def Blk.atomicRun (b : Blk) (q seq : Nat) : Blk :=
  match b.running q seq 0x32 with
  | none => b
  | some f =>
    let e := f.raw
    let a := fld e 0x20 8
    let op := fld e 0x28 1
    let x := fld e 0x30 8
    let y := fld e 0x38 8
    if isErr f.status then b.finish q seq f.status 0 0
    else if !(noHandles e && zeroAt e 0x29 7 && zeroAt e 0x40 64 && atomicOk op a) then b.finish q seq stDESC 0 0
    else if !b.haOk a then b.finish q seq stRANGE 0 0
    else if b.haLocal a then
      let m := haMpa a
      let n := atomicLen op
      if !b.rangeOk q m n then b.finish q seq stRANGE 0 0
      else if b.mustWait cRemote m n then b.askExit m n
      else
        let (b, s, old) := b.atomicAt ⟨3, cRemote, some q, f.path⟩ m op x y
        let b := if isErr s then b else (b.noteScope q seq 2).noteSlots q seq m n
        b.finish q seq s (if s = stFLAGGED then flagCorrected else 0) old
    else match lookFetched f.fetched a 8 with
      | some d => b.finish q seq stOK 0 (leNat d)
      | none =>
        if !f.txns.isEmpty then b
        else match b.request q seq 0x03 (haModule a) a x op (leBytes 16 y) with
          | .sent b => b.updFlight q seq (fun g => { g with homes := [haModule a] })
          | .noPath b => b.finish q seq stUNREACH 0 0
          | .noTxn => b

/-! ### FAB_CTRL (R353) -/

/-- R6, R436: whether a path reaches a register of the control space. -/
def reaches (path off : Nat) : Bool :=
  path == pHOST || path == pINT
    || (path == pSIDE && (decide (off < 0x1000) || (decide (bPOWER ≤ off) && decide (off < bFABRIC))
          || (decide (bSDG ≤ off) && decide (off < 0x190000))))

/-- A write of FAB_CTRL: isolate takes every link DOWN; retrain retrains every enabled link. -/
def Blk.fabCtrl (b : Blk) (path val : Nat) : Blk :=
  if !reaches path (bFABRIC + 4) then b
  else
    let b := b.setReg (bFABRIC + 4) (val % 4 / 2 * 2)
    if b.isolated then (List.range 32).foldl (fun (b : Blk) l => if b.linkOn l then b.linkDown l else b) b
    else if val.testBit 0 && b.linksLive then
      (List.range 32).foldl (fun (b : Blk) l => if b.linkOn l then b.retrain l else b) b
    else b

/-! ### Commands -/

def execLinkSignalDetect (link : Nat) (s : State) : Out := hubAct s (fun b => b.signalDetect link)
def execLinkTrainingDone (link : Nat) (s : State) : Out := hubAct s (fun b => b.trainingDone link)
def execLinkBringupTimeout (link : Nat) (s : State) : Out := hubAct s (fun b => b.bringupLate link)
def execLinkRetryTimer (link : Nat) (s : State) : Out := hubAct s (fun b => b.retryTimer link)
def execIdent (link : Nat) (msg : Bytes) (s : State) : Out := hubAct s (fun b => b.identIn link msg)
def execProof (link : Nat) (msg : Bytes) (s : State) : Out := hubAct s (fun b => b.proofIn link msg)
def execLinkMismatchRetry (link : Nat) (s : State) : Out := hubAct s (fun b => b.mismatchRetry link)
def execLinkFecRateCheck (link bad total : Nat) (s : State) : Out := hubAct s (fun b => b.fecRate link bad total)
def execDataFlit (link : Nat) (raw : Bytes) (fecOk : Bool) (s : State) : Out := hubAct s (fun b => b.dataFlit link raw fecOk)
def execNakFlit (link ack : Nat) (s : State) : Out := hubAct s (fun b => b.nakFlit link ack)
def execIdleFlit (link ack cvc ccount : Nat) (s : State) : Out := hubAct s (fun b => b.idleFlit link ack (cvc % 4) ccount)
def execFlitAckTimeout (link : Nat) (s : State) : Out := hubAct s (fun b => b.ackLate link)
def execFecLockLoss (link : Nat) (s : State) : Out := hubAct s (fun b => b.fecLost link)

/-- A packet of a row's type for this module (R332). -/
def Blk.typedIn (b : Blk) (l typ : Nat) (p : Packet) : Blk := b.packetIn l { p with typ := typ, dst := b.struc.modNum }

def execFabRead (link : Nat) (p : Packet) (s : State) : Out := hubAct s (fun b => b.typedIn link 0x01 p)
def execFabWrite (link : Nat) (p : Packet) (s : State) : Out := hubAct s (fun b => b.typedIn link 0x02 p)
def execFabAtomic (link : Nat) (p : Packet) (s : State) : Out := hubAct s (fun b => b.typedIn link 0x03 p)
def execFabFence (link : Nat) (p : Packet) (s : State) : Out := hubAct s (fun b => b.typedIn link 0x04 p)
def execFabDoorbell (link : Nat) (p : Packet) (s : State) : Out := hubAct s (fun b => b.typedIn link 0x05 p)
def execFwdEntry (link : Nat) (p : Packet) (s : State) : Out := hubAct s (fun b => b.typedIn link 0x06 p)
def execLinkState (link : Nat) (p : Packet) (s : State) : Out := hubAct s (fun b => b.packetIn link { p with typ := 0x10 })
def execReadRsp (link : Nat) (p : Packet) (s : State) : Out := hubAct s (fun b => b.typedIn link 0x81 p)
def execWriteAck (link : Nat) (p : Packet) (s : State) : Out := hubAct s (fun b => b.typedIn link 0x82 p)
def execAtomicRsp (link : Nat) (p : Packet) (s : State) : Out := hubAct s (fun b => b.typedIn link 0x83 p)
def execFenceAck (link : Nat) (p : Packet) (s : State) : Out := hubAct s (fun b => b.typedIn link 0x84 p)
def execDoorbellAck (link : Nat) (p : Packet) (s : State) : Out := hubAct s (fun b => b.typedIn link 0x85 p)
def execFwdAck (link : Nat) (p : Packet) (s : State) : Out := hubAct s (fun b => b.typedIn link 0x86 p)
def execRouteNak (link : Nat) (p : Packet) (s : State) : Out := hubAct s (fun b => b.typedIn link 0x8F p)
/-- A packet whose destination is another module. -/
def execPacketTransit (link : Nat) (p : Packet) (s : State) : Out :=
  hubAct s (fun b => if p.dst = b.struc.modNum || p.typ = 0x10 then b else b.packetIn link p)
def execRemoteTimeout (txn : Nat) (s : State) : Out := hubAct s (fun b => b.remoteLate txn)
def execUnreachableMarkExpiry (dst : Nat) (s : State) : Out := hubAct s (fun b => b.markEnd dst)
def execRemotePut (q seq : Nat) (s : State) : Out := hubAct s (fun b => b.putRun q seq)
def execRemoteGet (q seq : Nat) (s : State) : Out := hubAct s (fun b => b.getRun q seq)
def execRemoteAtomic (q seq : Nat) (s : State) : Out := hubAct s (fun b => b.atomicRun q seq)

end Sys2Proof.Machine
end

