-- ==== Sys2Proof/Machine/Net.lean ====
section
/-! DEFINITION. The network ports (R346 to R351, R354): RoCE v2 contexts, inbound requests, NET_POST
and its answers. -/

namespace Sys2Proof.Machine
open Sys2Proof

/-! ### Contexts and keys (R348, R354) -/

def Blk.qpc (b : Blk) (n : Nat) : QpcSt := tget .reset n b.net.qpcs
def Blk.setQpc (b : Blk) (n : Nat) (x : QpcSt) : Blk := { b with net := { b.net with qpcs := tset n x b.net.qpcs } }

def QpcSt.port (x : QpcSt) : Nat := fld x.ctx 0 1
def QpcSt.owner (x : QpcSt) : Nat := fld x.ctx 1 1
def QpcSt.doorbell (x : QpcSt) : Bool := (fld x.ctx 2 1).testBit 0
def QpcSt.allowRead (x : QpcSt) : Bool := (fld x.ctx 2 1).testBit 1
def QpcSt.allowWrite (x : QpcSt) : Bool := (fld x.ctx 2 1).testBit 2
/-- Path MTU in bytes. -/
def QpcSt.mtu (x : QpcSt) : Nat := 512 * 2 ^ (fld x.ctx 3 1)
def QpcSt.retryCnt (x : QpcSt) : Nat := fld x.ctx 0x26 1 % 8
def QpcSt.rnrRetry (x : QpcSt) : Nat := fld x.ctx 0x27 1 / 16
def QpcSt.dbQp (x : QpcSt) : Nat := fld x.ctx 0x29 1 % 64

def oNET_DROP : Nat := bNET + 0x60
def oNET_NAK : Nat := bNET + 0x64
def oNET_CFG : Nat := bNET + 0x30
def oQPCMD_STS : Nat := bNET + 0x74

/-- A port that is enabled and up, in a mode and power state in which it works (R418, R356). -/
def Blk.portUp (b : Blk) (p : Nat) : Bool :=
  b.net.linkUp.testBit p && (b.reg (bNET + 4)).testBit p && b.mode != .recovery
    && (b.pwr.state == .run || b.pwr.state == .doze || b.pwr.state == .entering)

/-- Requests of a network port (R33, R89, R407). -/
def rqNet (x : QpcSt) : Req := ⟨1 + x.port % 2, cRemote, some x.owner, pNET⟩

/-- Frames of a message of `n` bytes. -/
def QpcSt.frames (x : QpcSt) (n : Nat) : Nat := max 1 (cdiv n x.mtu)

def psnAdd (a n : Nat) : Nat := (a + n) % 2 ^ 24
/-- Whether a PSN is at or before another, modulo 2²⁴. -/
def psnLe (a c : Nat) : Bool := decide ((c + 2 ^ 24 - a) % 2 ^ 24 < 2 ^ 23)

/-! ### Posts -/

/-- Ends a NET_POST that is still running. -/
def Blk.netFinish (b : Blk) (p : NetPost) (st result : Nat) : Blk :=
  if (b.running p.q p.seq 0x38).isSome then b.finish p.q p.seq st 0 result else b

/-- A context enters ERROR (R349, R351): the oldest post takes a status, every other is aborted. -/
def Blk.qpcError (b : Blk) (n st : Nat) : Blk :=
  let x := b.qpc n
  let b := match x.posts with
    | [] => b
    | p :: t => t.foldl (fun (b : Blk) p => b.netFinish p stABORT 0) (b.netFinish p st 0)
  let b := x.recvs.foldl (fun (b : Blk) p => b.netFinish p stABORT 0) b
  (b.setQpc n { x with phase := .error, posts := [], recvs := [], sendBuf := [], left := 0 }).netEvent 1

/-- WRITE and SEND posts whose last frame is at or before a PSN are acknowledged. -/
def Blk.ackPosts (b : Blk) (n psn : Nat) : Blk :=
  let x := b.qpc n
  let hit := fun (p : NetPost) => p.op != 1 && psnLe p.endPsn psn
  let b := (x.posts.filter hit).foldl (fun (b : Blk) p => b.netFinish p stOK 0) b
  b.setQpc n { x with posts := x.posts.filter (fun p => !hit p), retries := 0, rnrRetries := 0 }

/-- ROCE_ACK (R351). -/
def Blk.roceAck (b : Blk) (n psn : Nat) : Blk := if (b.qpc n).phase = .ready then b.ackPosts n psn else b

/-- ROCE_NAK (R351): posts before it are acknowledged; the post it names ends with RANGE. -/
def Blk.roceNak (b : Blk) (n psn : Nat) : Blk :=
  if (b.qpc n).phase != .ready then b
  else
    let b := b.ackPosts n ((psn + 2 ^ 24 - 1) % 2 ^ 24)
    if (b.qpc n).posts.isEmpty then b else b.qpcError n stRANGE

/-- RNR_NAK (R347): what came before the SEND is acknowledged, and the SEND is tried again within rnr_retry. -/
def Blk.rnrNak (b : Blk) (n : Nat) : Blk :=
  let x := b.qpc n
  match x.posts.find? (fun p => p.op == 2) with
  | none => b
  | some p =>
    if x.phase != .ready then b
    else
      let b := if x.posts.head? = some p then b else b.ackPosts n ((p.psn + 2 ^ 24 - 1) % 2 ^ 24)
      let y := b.qpc n
      if x.rnrRetries < x.rnrRetry then (b.setQpc n { y with rnrRetries := x.rnrRetries + 1 }).send (.roceAgain n p.psn)
      else b.qpcError n stRTIMEOUT

/-- ROCE_RETRY_TIMEOUT (R351). -/
def Blk.retryLate (b : Blk) (n : Nat) : Blk :=
  let x := b.qpc n
  match x.posts with
  | [] => b
  | p :: _ =>
    if x.phase != .ready then b
    else if x.retries < x.retryCnt then (b.setQpc n { x with retries := x.retries + 1 }).send (.roceAgain n p.psn)
    else b.qpcError n stRTIMEOUT

/-- CNP (R347): half the rate, not below 1 Gb/s. -/
def Blk.cnp (b : Blk) (n : Nat) : Blk :=
  let x := b.qpc n
  if x.phase = .ready then b.setQpc n { x with rate := max 1000 (x.rate / 2) } else b

/-- CONGESTION_RECOVERY (R347): 5 % of line rate. -/
def Blk.regain (b : Blk) (n : Nat) : Blk :=
  let x := b.qpc n
  if x.phase = .ready then b.setQpc n { x with rate := min lineRate (x.rate + lineRate / 20) } else b

/-! ### NET_POST (R351) -/

def nQpn (e : Bytes) : Nat := fld e 0x20 2
def nOp (e : Bytes) : Nat := fld e 0x22 1
def nLen (e : Bytes) : Nat := fld e 0x24 4
def nLocal (e : Bytes) : Nat := fld e 0x28 8
def nVa (e : Bytes) : Nat := fld e 0x30 8
def nKey (e : Bytes) : Nat := fld e 0x38 4

def netForm (e : Bytes) : Bool :=
  noHandles e && decide (nQpn e < 4096) && decide (nOp e < 4) && zeroAt e 0x23 1 && decide (nLen e ≤ 2 ^ 31)
    && zeroAt e 0x3C 68 && (decide (nOp e < 2) || zeroAt e 0x30 12)

/-- R351: the posts of a context go on the wire in the order in which their entries started. -/
def Blk.postWaits (b : Blk) (f : Flight) : Bool :=
  b.flights.any (fun g => g.stage == .running && eOpcode g.raw == 0x38 && nQpn g.raw == nQpn f.raw
    && decide (g.order < f.order) && g.progress == 0)

/-- Records a post; its entry waits for the answer. -/
def Blk.posted (b : Blk) (f : Flight) (n : Nat) (x : QpcSt) : Blk :=
  (b.setQpc n x).updFlight f.q f.seq (fun g => { g with progress := 1 })

/-- A NET_POST whose operation is `k`. -/
def Blk.netPost (b : Blk) (q seq k : Nat) : Blk :=
  match b.running q seq 0x38 with
  | none => b
  | some f =>
    let e := f.raw
    let n := nQpn e
    let x := b.qpc n
    if f.progress != 0 || (nOp e != k && nOp e < 4) || b.postWaits f then b
    else if !netForm e then b.finish q seq stDESC 0 0
    else if x.phase = .error then b.finish q seq stABORT 0 0
    else if x.phase != .ready || x.owner != q then b.finish q seq stDESC 0 0
    else if nLen e != 0 && !b.rangeOk q (nLocal e) (nLen e) then b.finish q seq stRANGE 0 0
    else if k = 3 then b.posted f n { x with recvs := x.recvs ++ [⟨q, seq, 3, nLen e, nLocal e, 0, 0⟩] }
    else if !b.portUp x.port || b.net.paused.testBit x.port then b
    else
      let last := psnAdd x.sqPsn (x.frames (nLen e) - 1)
      let y := { x with sqPsn := psnAdd last 1, posts := x.posts ++ [⟨q, seq, k, nLen e, nLocal e, x.sqPsn, last⟩] }
      if k = 1 then
        (b.posted f n y).send (.roce n 1 x.sqPsn (leBytes 8 (nVa e) ++ leBytes 4 (nKey e) ++ leBytes 4 (nLen e)))
      else if nLen e != 0 && b.mustWait cRemote (nLocal e) (nLen e) then b.askExit (nLocal e) (nLen e)
      else
        let r := readRange b (rqNet x) (nLocal e) (nLen e)
        if r.st != stOK then r.b.finish q seq r.st 0 0
        else
          let b := if r.corr then r.b.updFlight q seq (fun g => { g with flags := g.flags ||| flagCorrected }) else r.b
          let head := if k = 0 then leBytes 8 (nVa e) ++ leBytes 4 (nKey e) else []
          (b.posted f n y).send (.roce n k x.sqPsn (head ++ r.data))

/-- RDMA_READ_RESPONSE (R351): the data of the oldest READ of a context. -/
def Blk.readReturn (b : Blk) (n : Nat) (d : Bytes) : Blk :=
  let x := b.qpc n
  match x.posts.find? (fun p => p.op == 1) with
  | none => b
  | some p =>
    if x.phase != .ready then b
    else if p.len != 0 && b.mustWait cRemote p.addr p.len then b.askExit p.addr p.len
    else
      let b := b.ackPosts n ((p.psn + 2 ^ 24 - 1) % 2 ^ 24)
      let y := b.qpc n
      let b := b.setQpc n { y with posts := y.posts.filter (fun (z : NetPost) => z != p), retries := 0 }
      if (b.running p.q p.seq 0x38).isNone then b
      else
        let (b, s) := b.otherWrite (rqNet x) p.addr (bytesAt d 0 p.len)
        ((b.noteScope p.q p.seq 2).noteSlots p.q p.seq p.addr p.len).netFinish p s 0

/-! ### Inbound requests (R349, R350) -/

/-- A frame of RoCE: the kinds 3 ACK, 4 NAK remote access, 5 NAK remote operational, 6 RNR NAK, 7 CNP,
8 READ response, 9 NAK sequence. -/
def Blk.frame (b : Blk) (n kind psn : Nat) (d : Bytes) : Blk := b.send (.roce n kind psn d)

/-- The 32-byte key that an rkey names (R348), read from the key table. -/
def Blk.mkey (b : Blk) (x : QpcSt) (rkey : Nat) : Option Bytes :=
  let i := rkey % 1024
  if 2 ^ (min 10 (bits (b.eff oNET_CFG) 7 4)) ≤ i then none
  else
    let r := readRange b (rqNet x) (b.eff64 (bNET + 0x28) / 4096 * 4096 + 32 * i) 32
    if r.st = stOK then some r.data else none

/-- R349: the checks of an RDMA WRITE or READ. -/
def Blk.rdmaOk (b : Blk) (x : QpcSt) (wr : Bool) (f : RFrame) : Bool :=
  (if wr then x.allowWrite else x.allowRead) &&
  match b.mkey x f.rkey with
  | none => false
  | some k =>
    fld k 0x10 4 / 1024 == f.rkey / 1024 && (fld k 0x14 1).testBit (b2n wr)
      && decide (fld k 0 8 ≤ f.va) && decide (f.va + f.len ≤ fld k 0 8 + fld k 8 8)
      && decide (f.va < 2 ^ 40) && (f.len == 0 || b.rangeOk x.owner f.va f.len)

/-- R349: a failed check. -/
def Blk.accessNak (b : Blk) (n psn : Nat) : Blk := ((b.frame n 4 psn []).qpcError n stABORT).incReg oNET_NAK

/-- The PSN that an answer to the last good frame carries, and the frame's acknowledgement. -/
def Blk.ackFrame (b : Blk) (n : Nat) (f : RFrame) : Blk :=
  if f.ackReq || f.pos = .last || f.pos = .only then b.frame n 3 f.psn [] else b

def RPos.starts (p : RPos) : Bool := p == .first || p == .only
def RPos.ends (p : RPos) : Bool := p == .last || p == .only

/-- R349 and R350 share this: a frame that is not next is answered, and a next one goes on. -/
def Blk.inOrder (b : Blk) (f : RFrame) (go : Blk → QpcSt → Blk) : Blk :=
  let x := b.qpc f.qpn
  let b := if f.ecn then b.frame f.qpn 7 0 [] else b
  if f.psn = x.rqPsn then go b x
  else if psnLe f.psn x.rqPsn then b.frame f.qpn 3 ((x.rqPsn + 2 ^ 24 - 1) % 2 ^ 24) []
  else b.frame f.qpn 9 x.rqPsn []

/-- RDMA_WRITE (R349). -/
def Blk.rdmaWrite (b : Blk) (f : RFrame) : Blk :=
  b.inOrder f (fun b x =>
    let bad := RPos.starts f.pos && !b.rdmaOk x true f
    let x := if RPos.starts f.pos then { x with va := f.va, left := f.len } else x
    let d := f.payload.take x.left
    if bad then b.accessNak f.qpn f.psn
    else
      let (b, s) := if d.isEmpty then (b, stOK) else b.fabWrite (rqNet x) x.va d
      if s != stOK then (b.setQpc f.qpn { x with left := 0 }).frame f.qpn 5 f.psn []
      else (b.setQpc f.qpn { x with va := x.va + d.length, left := x.left - d.length, rqPsn := psnAdd x.rqPsn 1 }).ackFrame f.qpn f)

/-- RDMA_READ (R349); its data pass through the staging SRAM (R87). -/
def Blk.rdmaRead (b : Blk) (f : RFrame) : Blk :=
  b.inOrder f (fun b x =>
    if !b.rdmaOk x false f then b.accessNak f.qpn f.psn
    else match b.mem.sramBad with
    | some (buf, o) => (b.sramHit (some x.owner) pNET buf o).frame f.qpn 5 f.psn []
    | none =>
      let r := readRange b (rqNet x) f.va f.len
      if r.st != stOK then r.b.frame f.qpn 5 f.psn []
      else (r.b.setQpc f.qpn { x with rqPsn := psnAdd x.rqPsn (x.frames f.len) }).frame f.qpn 8 f.psn r.data)

/-- The oldest RECV whose entry still waits. -/
def Blk.nextRecv (b : Blk) (x : QpcSt) : Option NetPost := x.recvs.find? (fun p => (b.running p.q p.seq 0x38).isSome)

/-- A SEND that is whole lands in a RECV (R350, R351). -/
def Blk.land (b : Blk) (f : RFrame) (x : QpcSt) (p : NetPost) (d : Bytes) : Blk :=
  let rest := x.recvs.filter (fun (z : NetPost) => z != p)
  if p.len < d.length then
    (((b.setQpc f.qpn { x with recvs := rest, sendBuf := [] }).netFinish p stRANGE d.length).frame f.qpn 4 f.psn []).qpcError f.qpn stABORT
  else
    let (b, s) := b.otherWrite (rqNet x) p.addr d
    let b := (b.noteScope p.q p.seq 2).noteSlots p.q p.seq p.addr d.length
    let b := b.setQpc f.qpn { x with recvs := rest, sendBuf := [], rqPsn := psnAdd x.rqPsn 1 }
    if s != stOK then (b.netFinish p s d.length).frame f.qpn 5 f.psn []
    else (b.netFinish p stOK d.length).ackFrame f.qpn f

/-- RDMA_SEND (R350). -/
def Blk.rdmaSend (b : Blk) (f : RFrame) : Blk :=
  b.inOrder f (fun b x =>
    let d := (if RPos.starts f.pos then [] else x.sendBuf) ++ f.payload
    let next := { x with sendBuf := d, rqPsn := psnAdd x.rqPsn 1 }
    if x.doorbell then
      if RPos.ends f.pos then
        (((b.setQpc f.qpn { next with sendBuf := [] })).ring x.dbQp pNET (BitVec.ofNat 32 (fld d 0 4))).ackFrame f.qpn f
      else (b.setQpc f.qpn next).ackFrame f.qpn f
    else match b.nextRecv x with
      | none => b.frame f.qpn 6 f.psn []
      | some p => if RPos.ends f.pos then b.land f x p d else (b.setQpc f.qpn next).ackFrame f.qpn f)

/-- The bytes of module memory that a frame touches when it is next. -/
def Blk.frameRange (b : Blk) (op : Nat) (f : RFrame) : Nat × Nat :=
  let x := b.qpc f.qpn
  if op = 0 then (if RPos.starts f.pos then f.va else x.va, f.payload.length)
  else if op = 1 then (f.va, f.len)
  else if x.doorbell || !RPos.ends f.pos then (0, 0)
  else match b.nextRecv x with
    | some p => (p.addr, (if RPos.starts f.pos then 0 else x.sendBuf.length) + f.payload.length)
    | none => (0, 0)

/-- Bytes of RoCE frames that wait in the receive buffer of a port (R346). -/
def Blk.rxHeld (b : Blk) (port : Nat) : Nat :=
  (b.held.map (fun h => match h with
    | .rdma _ g => if g.port = port then g.payload.length else 0
    | _ => 0)).sum

/-- A frame waits in the 4 MiB receive buffer of its port: past 3 MiB the port generates pause, and a frame
that does not fit is dropped with rx_overflow (R346, R354). -/
def Blk.holdFrame (b : Blk) (op : Nat) (f : RFrame) : Blk :=
  let n := b.rxHeld f.port
  let m := n + f.payload.length
  if 0x400000 < m then (b.incReg oNET_DROP).netEvent 2
  else
    let b := b.hold (.rdma op f)
    if n ≤ 0x300000 && 0x300000 < m then b.send (.pause f.port (bits (b.eff oNET_CFG) 10 8)) else b

/-- An inbound request: dropped by a context that is not READY on a port that is up; held as R46, R81
and R108 say; in order per context. -/
def Blk.rdmaIn (b : Blk) (op : Nat) (f : RFrame) : Blk :=
  let x := b.qpc f.qpn
  let (a, n) := b.frameRange op f
  let before := b.held.any (fun h => match h with
    | .rdma _ g => g.qpn == f.qpn
    | _ => false)
  if x.phase != .ready || x.port != f.port || !b.portUp f.port then b
  else if b.remoteHeld || before then b.holdFrame op f
  else if n != 0 && b.mustWait cRemote a n then (b.askExit a n).holdFrame op f
  else if op = 0 then b.rdmaWrite f
  else if op = 1 then b.rdmaRead f
  else b.rdmaSend f

/-! ### Ports and NET_QPCMD (R346, R354) -/

/-- PFC_PAUSE (R346). -/
def Blk.pfc (b : Blk) (port prio : Nat) (on : Bool) : Blk :=
  if prio != bits (b.eff oNET_CFG) 10 8 || 2 ≤ port then b
  else { b with net := { b.net with paused := if on then setBit b.net.paused port else clrBit b.net.paused port } }

/-- NON_ROCE_FRAME (R346). -/
def Blk.otherFrame (b : Blk) (port : Nat) : Blk := if b.portUp port then b.incReg oNET_DROP else b

/-- NET_LINK_CHANGE (R354). -/
def Blk.netLink (b : Blk) (port : Nat) (up : Bool) : Blk :=
  let may := (b.reg (bNET + 4)).testBit port && b.mode != .recovery && (b.pwr.state == .run || b.pwr.state == .doze)
  if 2 ≤ port || b.net.linkUp.testBit port == up || (up && !may) then b
  else { b with net := { b.net with linkUp := if up then setBit b.net.linkUp port else clrBit b.net.linkUp port } }.netEvent 0

/-- R354: contexts in the table. -/
def Blk.qpcCount (b : Blk) : Nat := 2 ^ (min 12 (bits (b.eff oNET_CFG) 3 0))

/-- Reserved fields and field ranges of a context entry (R348). -/
def ctxOk (c : Bytes) : Bool :=
  zeroAt c 0x2C 84 && decide (fld c 0 1 < 2) && decide (fld c 1 1 < 64) && decide (fld c 2 1 < 8) && decide (1 ≤ fld c 3 1)
    && decide (fld c 3 1 ≤ 3) && decide (fld c 4 4 < 2 ^ 24) && decide (fld c 8 4 < 2 ^ 24) && decide (fld c 0xC 4 < 2 ^ 24)
    && decide (fld c 0x26 1 < 8) && decide (fld c 0x29 1 < 64)

/-- Ends what a context had outstanding. -/
def Blk.qpcClear (b : Blk) (n : Nat) : Blk :=
  let x := b.qpc n
  (x.posts ++ x.recvs).foldl (fun (b : Blk) p => b.netFinish p stABORT 0) b

/-- A write of NET_QPCMD (R354). -/
def Blk.qpcCmd (b : Blk) (path val : Nat) : Blk :=
  let n := val % 4096
  let a := bits val 13 12
  let at' := b.eff64 (bNET + 0x20) / 4096 * 4096 + 128 * n
  if !reaches path (bNET + 0x70) then b
  else if b.qpcCount ≤ n || 2 ^ 14 ≤ val || a = 3 then b.setReg oQPCMD_STS 2
  else if a = 1 then ((b.qpcClear n).setQpc n .reset).setReg oQPCMD_STS 0
  else if a = 2 then (b.qpcError n stABORT).setReg oQPCMD_STS 0
  else
    let r := readRange b ⟨7, cHub, none, path⟩ at' 128
    if r.st != stOK || !ctxOk r.data then r.b.setReg oQPCMD_STS 2
    else
      let x := { QpcSt.reset with phase := .ready, ctx := r.data, sqPsn := fld r.data 8 4, rqPsn := fld r.data 0xC 4 }
      ((r.b.qpcClear n).setQpc n x).setReg oQPCMD_STS 0

/-- A row of NET_QPCMD acts on words with its own action. -/
def Blk.qpcRow (b : Blk) (path val a : Nat) : Blk := if bits val 13 12 = a || bits val 13 12 = 3 then b.qpcCmd path val else b

/-! ### Commands -/

def execRdmaWrite (f : RFrame) (s : State) : Out := hubAct s (fun b => b.rdmaIn 0 f)
def execRdmaRead (f : RFrame) (s : State) : Out := hubAct s (fun b => b.rdmaIn 1 f)
def execRdmaSend (f : RFrame) (s : State) : Out := hubAct s (fun b => b.rdmaIn 2 f)
def execRoceAck (qpn psn : Nat) (s : State) : Out := hubAct s (fun b => b.roceAck qpn psn)
def execRoceNak (qpn psn : Nat) (s : State) : Out := hubAct s (fun b => b.roceNak qpn psn)
def execRnrNak (qpn : Nat) (s : State) : Out := hubAct s (fun b => b.rnrNak qpn)
def execRoceRetryTimeout (qpn : Nat) (s : State) : Out := hubAct s (fun b => b.retryLate qpn)
def execCnp (qpn : Nat) (s : State) : Out := hubAct s (fun b => b.cnp qpn)
def execCongestionRecovery (qpn : Nat) (s : State) : Out := hubAct s (fun b => b.regain qpn)
def execPfcPause (port prio : Nat) (on : Bool) (s : State) : Out := hubAct s (fun b => b.pfc port prio on)
def execNonRoceFrame (port : Nat) (s : State) : Out := hubAct s (fun b => b.otherFrame port)
def execRdmaReadResponse (qpn : Nat) (data : Bytes) (s : State) : Out := hubAct s (fun b => b.readReturn qpn data)
def execNetLinkChange (port : Nat) (up : Bool) (s : State) : Out := hubAct s (fun b => b.netLink port up)
def execNetPostWrite (q seq : Nat) (s : State) : Out := hubAct s (fun b => b.netPost q seq 0)
def execNetPostRead (q seq : Nat) (s : State) : Out := hubAct s (fun b => b.netPost q seq 1)
def execNetPostSend (q seq : Nat) (s : State) : Out := hubAct s (fun b => b.netPost q seq 2)
def execNetPostRecv (q seq : Nat) (s : State) : Out := hubAct s (fun b => b.netPost q seq 3)

end Sys2Proof.Machine
end

