-- ==== Sys2Proof/Machine/Access.lean ====
section
/-! DEFINITION. Reads and writes of the control space (R5 to R9, R55, R387, R436, R441): what every
register reads as, and what a write of every register does. -/

namespace Sys2Proof.Machine
open Sys2Proof

/-! ### The function's identity (R283); no command of the table reads its configuration space -/

def pciDevice : Nat := 0x0C27
def pciRevision : Nat := 0xB0
/-- Processing accelerator. -/
def pciClass : Nat := 0x120000

/-! ### Reads -/

/-- The half of a 64-bit value that an offset reads (R5). -/
def half (v x : Nat) : Nat := if x % 8 = 0 then v % 2 ^ 32 else v / 2 ^ 32 % 2 ^ 32

/-- Milliseconds in a number of ticks, rounded up. -/
def msOf (ticks : Nat) : Nat := cdiv (ticks * 1024) 1000000

def AttPhase.code : AttPhase → Nat
  | .detached => 0
  | .attached => 1
  | .orphan => 2

def Blk.readIdent (b : Blk) (x : Nat) : Nat :=
  if x = 0 then pciDevice * 65536 + Config.vendorId.toNat
  else if x = 4 then 0x43B0
  else if x < 0x20 then fld orderCode (x - 0x10) 4
  else if x < 0x30 then fld (bytesAt Config.serial 0 16) (x - 0x20) 4
  else if x < 0x38 then half b.idFp x
  else if x = 0x38 then b.struc.herdSize * 65536 + b.struc.modNum
  else if x < 0x48 then half b.time.toNat x
  else if x = 0x100 then b.reg x + b.sec.reason % 4 * 4 + b.mode.code
  else if x = 0x118 then (b.fwOf 0).version % 65536 * 65536 + (b.fwOf 1).version % 65536
  else if x = 0x11C then b.sec.path % 16 * 65536 + b.sec.ms % 65536
  else if 0x120 ≤ x && x < 0x140 then
    let k := b.sec.keys.slots.getD ((x - 0x120) / 8) []
    half (if k.isEmpty then 0 else fpOf k) x
  else if x = 0x140 then b.sec.keys.counter
  else b.reg x

def Blk.readAttach (b : Blk) (x : Nat) : Nat :=
  if x = 0 then b.att.phase.code + b.att.cause * 16
  else if x = 8 then (if b.att.phase = .attached then b.att.token.toNat else 0)
  else if x = 0x1C then (if b.att.phase = .orphan then msOf (b.att.holdEnd - b.time.toNat) else 0)
  else if x = 0x20 then b.att.link
  else b.reg (bATTACH + x)

def Blk.readQueue (b : Blk) (q x : Nat) : Nat :=
  let s := b.qp q
  if x = 0x14 then b2n s.enabled
  else if x = 0x1C then s.head.toNat
  else if x = 0x20 then s.cqHead.toNat
  else if x = 0x24 then s.cqTail.toNat
  else if x = 0x28 then s.seqNext.toNat
  else if x = 0x2C then b.qpStatus q
  else if x = 0x184 then (b.commitSt (.queue q)).word
  else b.reg (bQP q + x)

def Blk.readLayout (b : Blk) (x : Nat) : Nat :=
  if x = 0 then b.layStatus
  else if x = 4 then b.struc.gen
  else if x = 8 then b.lay.floorGen
  else if x = 0x2C then b.struc.toolId
  else if x = 0x30 || x = 0x34 then half b.struc.keyFp x
  else if 0x40 ≤ x && x < 0x80 then fld (bytesAt b.struc.digest 0 64) (x - 0x40) 4
  else b.reg (bLAYOUT + x)

def Blk.readPower (b : Blk) (x : Nat) : Nat :=
  let p := b.pwr
  if x = 0 then p.prev.code * 2 ^ 20 + p.state.code * 65536 + wakeStepNo p.step * 4096 + p.attempt * 1024
  else if x = 0x40 then p.padsHeld
  else if x = 0x4C then
    if !b.hubUp then 0 else p.mv % 65536 * 65536 + (if p.state = .doze then 475 else p.mhz)
  else if x = 0x50 then p.rails
  else if x = 0x5C then (match p.keepEnd with | some t => msOf (t - b.time.toNat) | none => 0)
  else if x = 0x184 then (b.commitSt .power).word
  else b.reg (bPOWER + x)

def Blk.readErrlog (b : Blk) (x : Nat) : Nat :=
  let l := b.log
  if x = 0 then l.unread
  else if x = 4 then l.head.toNat
  else if x = 8 then l.tail.toNat
  else if x = 0xC then l.ovf.toNat
  else if l.unread = 0 then 0
  else fld (tget .zero (l.tail.toNat % 2048) l.entries).bytes (x - 0x20) 4

def Blk.readFabric (b : Blk) (x : Nat) : Nat :=
  if x = 0 then b.struc.modNum + b.rout.mode * 65536
  else if x = 0x10 then b.fab.txns.length
  else if 0x200 ≤ x then
    let k := b.link ((x - 0x200) / 4)
    k.uncorrected + k.resends * 65536
  else if 0x100 ≤ x then
    let k := b.link ((x - 0x100) / 4)
    k.st.code + k.retrains * 256
  else b.reg (bFABRIC + x)

def Blk.readNet (b : Blk) (x : Nat) : Nat :=
  if x = 0 then b.net.linkUp
  else if 8 ≤ x && x < 0x18 then half (Config.mac ((x - 8) / 8)).toNat x
  else if x = 0x184 then (b.commitSt .net).word
  else b.reg (bNET + x)

def Blk.readStack (b : Blk) (s x : Nat) : Nat :=
  if x = 0 then
    (List.range 12).foldl (fun a d =>
      let y := b.die (12 * s + d)
      a + b2n y.hot * 2 ^ d + b2n y.refused * 2 ^ (12 + d)) 0
  else if x = 0x184 then (b.commitSt (.stack s)).word
  else b.reg (bSC s + x)

/-- SDG_LEASEn (R412): the compute slots' lease 3 belongs to the stack controllers (log 22). -/
def Blk.readLease (b : Blk) (n : Nat) : Nat :=
  if n = 3 then
    (if b.cu.units.any (fun p => p.2.slot.isSome) then 12 * 2 ^ 24 + (Config.slotLeaseLeft b.time.toNat).toNat * 4 else 0)
  else match b.lease? n with
    | some l => l.holder * 2 ^ 24 + min (l.ends - b.time.toNat) (2 ^ 22 - 1) * 4
    | none => 0

/-- SDG_PINS (R412): the levels on the module's contacts. -/
def Blk.readPins (b : Blk) : Nat :=
  let p := b.pins
  p.slotId + 16 * b2n p.pwrEn + 32 * b2n p.wakeInN + 64 * b2n p.perstN + 128 * b2n (p.thermN && !p.thermOut)

def Blk.readSdg (b : Blk) (x : Nat) : Nat :=
  if x = 0x10 then b.readPins
  else if 0x80 ≤ x && x < 0x94 then b.readLease ((x - 0x80) / 4)
  else if x = 0xA0 then b.reg (bSDG + x) + (if b.hubUp then (Config.wdogAlive b.time.toNat).toNat else 0)
  else if x = 0xC4 then b.sdg.records.length
  else if 0xE0 ≤ x && x < 0x100 then fld (b.sdg.records.getD (b.reg (bSDG + 0xC0) % 64) []) (x - 0xE0) 4
  else if 0x1000 ≤ x && !b.sensorOn ((x - 0x1000) / 4) then 2 ^ 18
  else b.reg (bSDG + x)

/-- R387: whether a held value reads at an offset X + 0xC00 of a block, and of which X. -/
def heldOf (off : Nat) : Option Nat :=
  let x := off % 0x1000
  if 0x160000 ≤ off && off < 0x170000 && (x = 0xC80 || x = 0xC84 || x = 0xC88) then some (off - 0xC00)
  else if off = bPOWER + 0xC10 || off = bPOWER + 0xC14 then some (off - 0xC00)
  else none

/-- R387: the held value of the register at `off`. -/
def Blk.heldValue (b : Blk) (off : Nat) : Nat :=
  if off = bPOWER + 0x10 then b.runDozeHeld
  else if off = bPOWER + 0x14 then b.dozeWatchHeld
  else
    let m := b.reg (bSDG + 0x58) % 32
    let w := b.eff off
    (List.range 4).foldl (fun a i => a + min (bits w (8 * i + 4) (8 * i)) m * 2 ^ (8 * i)) 0

/-- The word that a 32-bit read of a control-space offset returns (R5 to R8). -/
def Blk.readWord (b : Blk) (off : Nat) : Nat :=
  if off % 4 != 0 then 0
  else if 0x120000 ≤ off && off < 0x130000 then
    let x := off - 0x120000
    if (x < 0x100 || 0x200 ≤ x) && (regInfo (bSDG + x)).isSome then b.readSdg x else 0
  else match regInfo off, mirrorOf off, heldOf off with
    | none, some _, _ => b.reg off
    | none, none, some x => b.heldValue x
    | none, none, none => 0
    | some _, _, _ =>
      if off < 0x1000 then b.readIdent off
      else if off < 0x2000 then b.readAttach (off - bATTACH)
      else if off = bWINDOW + 0x184 then (b.commitSt .window).word
      else if off < 0x3000 then b.reg off
      else if off = bEVENTS then b.evStatus
      else if off < 0x4000 then b.reg off
      else if off < 0x50000 then b.readQueue ((off - bQUEUES) / 0x1000) (off % 0x1000)
      else if off < bPOWER then b.readLayout (off - bLAYOUT)
      else if off < bTHERM then b.readPower (off - bPOWER)
      else if off < bFABRIC then b.readErrlog (off - bERRLOG)
      else if off < bNET then b.readFabric (off - bFABRIC)
      else if off < bSTACK then b.readNet (off - bNET)
      else if off < bTRAIN then b.readStack ((off - bSTACK) / 0x1000) (off % 0x1000)
      else if off < bSDG then b.reg off
      else b.readSdg (off - bSDG)

/-! ### Ordinary writes (R8) -/

/-- A write of the ordinary fields of a register: RW and RWC bits take the value, W1C bits written 1
clear, every other bit stays. -/
def Blk.plainWrite (b : Blk) (off val : Nat) : Blk :=
  match regInfo off with
  | none => b
  | some i =>
    if i.rw = 0 && i.w1c = 0 && i.rwc = 0 then b
    else
      let old := b.reg off
      let take := i.rw ||| i.rwc
      b.setReg off (((old &&& (all1 ^^^ take)) ||| (val &&& take)) &&& (all1 ^^^ (val &&& i.w1c)))

/-- A write to BAR4 (R283, R315): vector control masks and unmasks; address and data are stored. -/
def Blk.msixWrite (b : Blk) (x val : Nat) : Blk :=
  if 0x400 ≤ x then b
  else if x % 16 = 12 then
    let v := x / 16
    if val.testBit 0 then { b with ev := { b.ev with unmasked := clrBit b.ev.unmasked v } }
    else
      let b := { b with ev := { b.ev with unmasked := setBit b.ev.unmasked v } }
      if b.ev.pba.testBit v then ({ b with ev := { b.ev with pba := clrBit b.ev.pba v } }).msix v else b
  else { b with ev := { b.ev with table := tset x (BitVec.ofNat 32 val) b.ev.table } }

/-! ### Registers whose write is a command -/

/-- A write of ATT_CTRL (R317, R320): attach acts in DETACHED, detach else. -/
def Blk.attCtrl (b : Blk) (val : Nat) : Blk :=
  let b := if val.testBit 0 then b.attach else b
  if val.testBit 1 then b.attEnd 4 else b

/-- A write of ATT_HEARTBEAT (R317). -/
def Blk.heartbeat (b : Blk) : Blk := { b with att := { b.att with beats := b.time.toNat } }

/-- A write of QP_CTRL (R307): a disable comes first and an enable last. -/
def Blk.qpCtrl (b : Blk) (q val : Nat) : Blk :=
  let b := if val.testBit 0 then b else b.qpEnable q false
  let b := if val.testBit 1 then b.qpReset q else b
  let b := if val.testBit 2 then b.qpDrop q else b
  if val.testBit 0 then b.qpEnable q true else b

/-- A write of ID_OBJ_CTRL (R433). -/
def Blk.objCtrl (b : Blk) (val : Nat) : Blk :=
  let b := b.putReg (bIDENT + 0x104) 0x300 val
  let k := bits val 9 8
  if !val.testBit 0 then b
  else if k = 0 then b.objLoad Blk.stage
  else if k = 1 then b.objLoad (fun b r n => b.enrol r n pHOST)
  else if k = 2 then b.objReport
  else b.objCert

/-- R9: an SDG field is written over a bus. -/
def sdgField (off : Nat) : Bool := decide (bSDG + 0x40 ≤ off) && decide (off ≤ bSDG + 0x68)
def Blk.sdgRefused (b : Blk) (path off : Nat) : Blk := b.logE kSDG_WRITE { path := path, addr := some off }

/-- The lease holder that a path stands for (R400). -/
def holderOf (path : Nat) : Nat := if path = pHOST then 10 else if path = pSIDE then 11 else 0

/-- A write of NET_CTRL: a port that is disabled goes down. -/
def Blk.netCtrl (b : Blk) (val : Nat) : Blk :=
  let b := b.plainWrite (bNET + 4) val
  [0, 1].foldl (fun (b : Blk) p => if val.testBit p then b else b.netLink p false) b

/-- R114: a write that the TRAIN block refuses over a path. -/
def Blk.trnRefuses (b : Blk) (path off : Nat) : Bool :=
  path == pHOST && b.mode != .test && decide (bTRAIN ≤ off) && decide (off < bSDG)

/-- A 32-bit write of a control-space register over a path, and the status of a sideband response. -/
def Blk.writeWord (b : Blk) (path off val : Nat) : Blk × Nat :=
  let x := off % 0x1000
  if off % 4 != 0 then (b, 0)
  else if sdgField off && (reaches path off || path == pFAB) then (b.sdgRefused path off, 0)
  else if !reaches path off then (b, 0)
  else if path = pSIDE && 0x104 ≤ off && off < 0x114 then (b, oNOTPERM)
  else if off = bIDENT + 0x100 then (b.modeReq val, 0)
  else if off = bIDENT + 0x104 then (b.objCtrl val, 0)
  else if off = bATTACH + 4 then (b.attCtrl val, 0)
  else if off = bATTACH + 0xC then (b.reattach (BitVec.ofNat 32 val), 0)
  else if off = bATTACH + 0x18 then (b.heartbeat, 0)
  else if off = bWINDOW + 0x180 then (b.commitWrite .window path val, 0)
  else if bQUEUES ≤ off && off < 0x50000 then
    let q := (off - bQUEUES) / 0x1000
    if x = 0x14 then (b.qpCtrl q val, 0)
    else if x = 0x18 then (b.ring q path (BitVec.ofNat 32 val), 0)
    else if x = 0x20 then (b.cqHeadWrite q path (BitVec.ofNat 32 val), 0)
    else if x = 0x180 then (b.commitWrite (.queue q) path val, 0)
    else (b.plainWrite off val, 0)
  else if off = oLAY_CTRL then (b.layCtrl val, 0)
  else if off = bPOWER + 4 then (b.pwrCmd path val, 0)
  else if off = bPOWER + 0x40 then (b.padRel path val, 0)
  else if off = bPOWER + 0x44 then (b.linkPattern val, 0)
  else if off = bPOWER + 0x180 then (b.commitWrite .power path val, 0)
  else if off = bERRLOG + 8 then (b.tailWrite path val, 0)
  else if off = bFABRIC + 4 then (b.fabCtrl path val, 0)
  else if off = bNET + 4 then (b.netCtrl val, 0)
  else if off = bNET + 0x70 then (b.qpcCmd path val, 0)
  else if off = bNET + 0x180 then (b.commitWrite .net path val, 0)
  else if bSTACK ≤ off && off < bTRAIN then
    let s := (off - bSTACK) / 0x1000
    if x = 4 then (b.scCtrl s val, 0)
    else if x = 0x180 then (b.commitWrite (.stack s) path val, 0)
    else (b.plainWrite off val, 0)
  else if off = bTRAIN + 4 then (b.trnCtrl path val, 0)
  else if bTRAIN ≤ off && off < bSDG then
    (if b.trnRefuses path off then b.logE kTRAIN_REF { path := path } else b.plainWrite off val, 0)
  else if off = oCAP_CTRL then (b.capCtrl val false, 0)
  else if bSDG + 0x80 ≤ off && off < bSDG + 0x94 then (b.leaseOp (holderOf path) ((off - bSDG - 0x80) / 4) (val % 4), 0)
  else (b.plainWrite off val, 0)

/-- R6: whether a size and an offset are those of an access that the module carries out. -/
def accessOk (off size : Nat) : Bool :=
  (size == 4 && off % 4 == 0) || (size == 8 && off % 8 == 0 && isWide64 off)

/-- BAD_ACCESS (R6). -/
def Blk.badAccess (b : Blk) (path : Nat) (write : Bool) (off size : Nat) : Blk :=
  if accessOk off size || !reaches path off then b
  else
    let b := if write || path != pHOST then b else b.send (.regRead 0)
    b.logE kBAD_ACCESS { path := path, addr := some off }

/-- A write of one register, of 32 or 64 bits: a 64-bit write of a 64-bit register is one access, any other
size or alignment is a BAD_ACCESS (R5, R6). BAR4 lies from 0x100_0000 on. -/
def Blk.busWrite (b : Blk) (path off : Nat) (wide : Bool) (val : Nat) : Blk :=
  if 0x1000000 ≤ off then
    if path != pHOST then b
    else
      let b := b.msixWrite (off - 0x1000000) (val % 2 ^ 32)
      if wide then b.msixWrite (off - 0x1000000 + 4) (val / 2 ^ 32 % 2 ^ 32) else b
  else if !accessOk off (if wide then 8 else 4) then b.badAccess path true off (if wide then 8 else 4)
  else
    let c := (b.writeWord path off (val % 2 ^ 32)).1
    if wide && !b.trnRefuses path off then (c.writeWord path (off + 4) (val / 2 ^ 32 % 2 ^ 32)).1 else c

/-- A read of BAR4 (R283, R315): the MSI-X table, and the pending-bit array at 0x1000. -/
def Blk.msixRead (b : Blk) (x : Nat) : Nat :=
  if x < 0x400 then
    if x % 16 = 12 then b2n (!b.ev.unmasked.testBit (x / 16)) else (tget (0 : W32) x b.ev.table).toNat
  else if 0x1000 ≤ x && x < 0x1008 then b.ev.pba / 2 ^ (8 * (x - 0x1000)) % 2 ^ 32
  else 0

/-- What a read of 32 or 64 bits over BAR0 or BAR4 returns (R5, R283). -/
def Blk.busRead (b : Blk) (off : Nat) (wide : Bool) : Nat :=
  let rd := fun (x : Nat) => if 0x1000000 ≤ x then b.msixRead (x - 0x1000000) else b.readWord x
  if wide then rd off + 2 ^ 32 * rd (off + 4) else rd off

/-- A read by the host (R5, R6). -/
def Blk.hostRead (b : Blk) (off : Nat) (wide : Bool) : Blk :=
  if 0x1000000 ≤ off then
    b.send (.regRead (if off % (if wide then 8 else 4) = 0 then b.busRead off wide else 0))
  else if accessOk off (if wide then 8 else 4) then b.send (.regRead (b.busRead off wide))
  else b.badAccess pHOST false off (if wide then 8 else 4)

/-- COMMIT over a path (R52). -/
def Blk.commitOver (b : Blk) (c : CBlk) (path val : Nat) : Blk :=
  let live := match c with
    | .queue q => decide (q < 64)
    | .stack s => decide (s < 16)
    | _ => true
  if reaches path (commitBase c + 0x180) && live then b.commitWrite c path (val % 2 ^ 32) else b

/-! ### The sideband's commands (R434, R438) -/

/-- R438: the block that a code names. -/
def sideBase (code : Nat) : Option Nat := [bIDENT, bPOWER, bTHERM, bERRLOG, bSDG][code]?

/-- Whether an offset lies inside the block; beyond its end every offset is reserved (R436). -/
def inBlock (base off : Nat) : Bool := decide (off < (if base = bIDENT then 0x1000 else 0x10000))

/-- READ_REG (R434, R438). -/
def Blk.readRegs (b : Blk) (code off count : Nat) : Blk :=
  match sideBase code with
  | none => b.resp (leBytes 1 oCONTAINER)
  | some a =>
    if off % 4 != 0 || count = 0 || 16 < count then b.resp (leBytes 1 oCONTAINER)
    else b.resp (leBytes 1 0 ++ ((List.range count).map (fun i => leBytes 4 (if inBlock a (off + 4 * i) then b.readWord (a + off + 4 * i) else 0))).flatten)

/-- WRITE_REG (R434, R438). -/
def Blk.writeReg (b : Blk) (code off val : Nat) : Blk :=
  match sideBase code with
  | none => b.resp (leBytes 1 oCONTAINER)
  | some a =>
    if off % 4 != 0 then b.resp (leBytes 1 oCONTAINER)
    else
      let r := if a = bTHERM || !inBlock a off then (b, 0) else b.writeWord pSIDE (a + off) (val % 2 ^ 32)
      r.1.resp (leBytes 1 r.2)

/-- GET_STATUS (R434). -/
def Blk.getStatus (b : Blk) : Blk :=
  b.resp (leBytes 1 0 ++ leBytes 4 (b.readWord bPOWER) ++ leBytes 4 (b.readWord (bIDENT + 0x100)) ++ leBytes 4 (b.readWord bSDG))

/-- A whole object over the sideband: its status (R434, R415). -/
def Blk.sideObject (b : Blk) (kind : Nat) (d : Bytes) : Blk × Nat :=
  if b.sec.romOnly then b.romLoad d d.length
  else if kind = 0 then b.stage d d.length
  else if kind = 1 then b.enrol d d.length pSIDE
  else b.capsule d d.length

/-- LOAD_OBJECT (R434): a fragment with its byte offset; the checks run once the last has come. The ROM answers it
for firmware only (R415). -/
def Blk.loadObject (b : Blk) (kind off : Nat) (d : Bytes) (last : Bool) : Blk :=
  if b.sec.romOnly && kind != 0 then b
  else if !(kind = 0 || kind = 1 || kind = 4) then b.resp (leBytes 1 oCONTAINER)
  else
    let have' := match b.sec.frags with
      | some (k, x) => if k = kind && off != 0 then x else []
      | none => []
    if off != have'.length then ({ b with sec := { b.sec with frags := none } }).resp (leBytes 1 oCONTAINER)
    else if !last then { b with sec := { b.sec with frags := some (kind, have' ++ d) } }
    else
      let r := ({ b with sec := { b.sec with frags := none } }).sideObject kind (have' ++ d)
      r.1.resp (leBytes 1 r.2)

/-- SET_MODE (R418, R434). -/
def Blk.setModeCmd (b : Blk) (m : Nat) : Blk :=
  let r := b.sideMode m
  r.1.resp (leBytes 1 r.2)

end Sys2Proof.Machine
end

