-- ==== Sys2Proof/Machine/Host.lean ====
section
/-! DEFINITION. Accesses from outside: what the host port does with an access in each power state
(R366, R450), the accesses that wait, and the commands of the host, of the queue engine and of the
sideband (11_host_attachment, 15_start_up_and_security). -/

namespace Sys2Proof.Machine
open Sys2Proof

/-! ### The effect of each access -/

/-- What an access to the control space does once it is carried out. A command that is no such access
has no effect here. -/
def hostCmd (i : Instr) (b : Blk) : Blk :=
  match i with
  | .badAccess p w off n => b.badAccess p.code w off n
  | .sdgWriteRefused p off v => if sdgField off then b.busWrite p.code off false v else b
  | .registerWrite p off wide v => b.busWrite p.code off wide v
  | .commit p c v => b.commitOver c p.code v
  | .layLoad p v => if reaches p.code oLAY_CTRL then b.layCtrl v else b
  | .clrCounters p k v => if k < 16 && reaches p.code (bSC k) then b.scCtrl k v else b
  | .trnStart p v => if reaches p.code bTRAIN then b.trnCtrl p.code v else b
  | .pcieAtomicop _ => b.send .unsupported
  | .doorbell p q v =>
    if q < 64 && (p = .fabric || p = .network || reaches p.code (bQP q)) then b.ring q p.code (BitVec.ofNat 32 v) else b
  | .cqHeadWrite q v => if q < 64 then b.cqHeadWrite q pHOST (BitVec.ofNat 32 v) else b
  | .qpEnable q on => if q < 64 then b.qpEnable q on else b
  | .qpReset q => if q < 64 then b.qpReset q else b
  | .qpDropHeld q => if q < 64 then b.qpDrop q else b
  | .attach => b.attach
  | .detach => b.attEnd 4
  | .reattach v => b.reattach (BitVec.ofNat 32 v)
  | .heartbeat => b.heartbeat
  | .pwrCmdHold p => b.cmdHold p.code
  | .pwrCmdOff p => b.cmdOff p.code
  | .pwrCmdWake p => b.cmdWake p.code
  | .clearStuck p => b.cmdClear p.code
  | .powerCycle p => b.cmdCycle p.code
  | .pwrPadrel p v => if reaches p.code bPOWER then b.padRel p.code v else b
  | .pwrLinkwake p v => if reaches p.code bPOWER then b.linkPattern v else b
  | .capsuleLoad p v late => if reaches p.code bSDG then b.capCtrl v late else b
  | .elTailWrite p v => if reaches p.code bERRLOG then b.tailWrite p.code v else b
  | .modeRequest p v => if reaches p.code bIDENT then b.modeReq v else b
  | .idObjFirmware p => if p = .host || p = .internal then b.objLoad Blk.stage else b
  | .idObjEnrol p => if p = .host || p = .internal then b.objLoad (fun b r n => b.enrol r n p.code) else b
  | .idObjReport p => if p = .host || p = .internal then b.objReport else b
  | .idObjCert p => if p = .host || p = .internal then b.objCert else b
  | .leaseAcquire h n => b.leaseAcquire h n
  | .leaseRenew h n => b.leaseRenew h n
  | .leaseRelease h n => b.leaseRelease h n
  | .fabIsolate p v => b.fabCtrl p.code v
  | .fabRetrain p v => b.fabCtrl p.code v
  | .qpcLoad p v => b.qpcRow p.code v 0
  | .qpcReset p v => b.qpcRow p.code v 1
  | .qpcForceError p v => b.qpcRow p.code v 2
  | .hostWake r => b.hostRead r.off r.wide
  | _ => b

/-! ### Accesses that wait -/

/-- The module memory that a write of ID_OBJ_CTRL, of SDG_CAP_CTRL or of NET_QPCMD reads or writes: its
first address and its length, 0 for none (R433, R415, R354). -/
def Blk.cmdSpan (b : Blk) (off val : Nat) : Nat × Nat :=
  if off = bIDENT + 0x104 then (b.objSrc, if val.testBit 0 && b.objPlace b.objLen then b.objLen else 0)
  else if off = oCAP_CTRL then
    let n := b.reg (bSDG + 0x20) % 4096
    let a := b.reg64 (bSDG + 0x18) % 2 ^ 40
    (a, if val.testBit 0 && b.struc.inGuarded a n then n else 0)
  else if off = bNET + 0x70 then
    (b.eff64 (bNET + 0x20) / 4096 * 4096 + 128 * (val % 4096), if bits val 13 12 = 0 && decide (val % 4096 < b.qpcCount) then 128 else 0)
  else (0, 0)

/-- The register and the word that an access writes, for the registers of `Blk.cmdSpan`. -/
def cmdWord : Instr → Nat × Nat
  | .registerWrite _ off _ val => (off, val)
  | .idObjFirmware _ | .idObjEnrol _ | .idObjReport _ | .idObjCert _ => (bIDENT + 0x104, 1)
  | .capsuleLoad _ val _ => (oCAP_CTRL, val)
  | .qpcLoad _ val => (bNET + 0x70, val)
  | _ => (0, 0)

/-- The module memory that an access itself reads or writes. -/
def Blk.cmdReach (b : Blk) (i : Instr) : Nat × Nat := b.cmdSpan (cmdWord i).1 (cmdWord i).2

/-- An access whose memory must wait (R81, R101, R108, R457) is held; any other is carried out. -/
def Blk.carry (b : Blk) (i : Instr) : Blk :=
  let (a, n) := b.cmdReach i
  if n != 0 && b.mustWait cHub a n then (b.askExit a n).hold (.cmd i) else hostCmd i b

/-- Whether a held access is one behind which the host's later accesses wait (R287): a write or a
command. -/
def HeldReq.posted : HeldReq → Bool
  | .winWrite _ _ _ => true
  | .cmd _ => true
  | _ => false

/-- R287: a posted access of the host waits, so later ones wait too. -/
def Blk.postedHeld (b : Blk) : Bool := b.held.any HeldReq.posted

/-- Runs one held access; one that must still wait is held again. -/
def Blk.runHeld (b : Blk) (h : HeldReq) : Blk :=
  let live := b.pwr.state == .run || b.pwr.state == .doze
  let go := (live || b.pwr.step == 1) && !b.postedHeld
  match h with
  | .packet l p => b.packetGo l p
  | .rdma op f => b.rdmaIn op f
  | .winRead off len base => if go then b.winRead off len base else b.hold h
  | .winWrite off d base => if go then b.winWrite off d base else b.hold h
  | .cmd i => if live && !b.postedHeld then b.carry i else b.hold h

/-- Accesses that waited go on, in order, once what they waited for has ended. -/
def Blk.releaseHeld (b : Blk) : Blk :=
  if b.held.isEmpty || !(b.pwr.state == .run || b.pwr.state == .doze || b.pwr.state == .entering) then b
  else b.held.foldl Blk.runHeld { b with held := [] }

/-! ### The host port (R366, R450) -/

/-- R366: registers that HOSTIO itself serves in WATCH: IDENT, POWER and THERM_VIEW. -/
def watchReads (off : Nat) : Bool := decide (off < 0x1000) || (decide (bPOWER ≤ off) && decide (off < bERRLOG))

/-- Accesses that HOSTIO itself serves in WATCH (R366); one to BAR4 is no access to BAR0 or BAR2. -/
def watchServes : Instr → Bool
  | .heartbeat => true
  | .registerWrite _ off _ _ => off == bATTACH + 0x18 || decide (0x1000000 ≤ off)
  | .badAccess _ w off _ => !w && watchReads off
  | .hostWake r => watchReads r.off || decide (0x1000000 ≤ r.off)
  | .pcieAtomicop _ => true
  | _ => false

/-- An access arrives over a link in L0. -/
def Blk.linkSeen (b : Blk) : Blk := { b with att := { b.att with linkUp := true } }

/-- What the host port does with an access (R366): it runs, waits for RUN, or is lost where no port
answers. -/
def Blk.gate (b : Blk) (h : HeldReq) (served : Bool) (f : Blk → Blk) : Blk :=
  if !b.att.ready then b
  else
    let b := b.linkSeen
    match b.pwr.state with
    | .run | .doze => if b.postedHeld then b.hold h else f b
    | .watch => if served then f b else (b.hold h).wakeSource 0 0
    | .entering =>
      if b.pwr.target = .watch then
        if served then f b
        else
          let c := (b.wakeSource 0 0).releaseHeld
          if (c.pwr.state = .run || c.pwr.state = .doze) && !c.postedHeld then f c else c.hold h
      else if b.hubUp && decide (b.pwr.step ≤ 3) then (if b.postedHeld then b.hold h else f b)
      else b
    | .waking => if b.pwr.wake != .fromWatch then b else if served then f b else (b.wakeSource 0 0).hold h
    | _ => b

/-- Whether the sideband is served: the always-on core runs its firmware (R415, R438). -/
def Blk.sideLive (b : Blk) : Bool := b.pwr.state != .unpowered && !b.sec.romOnly

/-- An access by its path. -/
def Blk.access (b : Blk) (p : Path) (i : Instr) : Blk :=
  match p with
  | .host => b.gate (.cmd i) (watchServes i) (fun c => c.carry i)
  | .sideband => if b.sideLive then b.carry i else b
  | _ => if b.hubUp then b.carry i else b

/-- The frame of an access. -/
def busAct (p : Path) (i : Instr) (s : State) : Out := act s (fun b => b.access p i)

/-! ### Register rows -/

def execBadAccess (path : Path) (write : Bool) (off size : Nat) (s : State) : Out := busAct path (.badAccess path write off size) s
def execSdgWriteRefused (path : Path) (off val : Nat) (s : State) : Out := busAct path (.sdgWriteRefused path off val) s
def execRegisterWrite (path : Path) (off : Nat) (wide : Bool) (val : Nat) (s : State) : Out :=
  busAct path (.registerWrite path off wide val) s
def execCommit (path : Path) (blk : CBlk) (val : Nat) (s : State) : Out := busAct path (.commit path blk val) s
def execLayLoad (path : Path) (val : Nat) (s : State) : Out := busAct path (.layLoad path val) s
def execClrCounters (path : Path) (stack val : Nat) (s : State) : Out := busAct path (.clrCounters path stack val) s
def execTrnStart (path : Path) (val : Nat) (s : State) : Out := busAct path (.trnStart path val) s
def execPwrCmdHold (path : Path) (s : State) : Out := busAct path (.pwrCmdHold path) s
def execPwrCmdOff (path : Path) (s : State) : Out := busAct path (.pwrCmdOff path) s
def execPwrCmdWake (path : Path) (s : State) : Out := busAct path (.pwrCmdWake path) s
def execClearStuck (path : Path) (s : State) : Out := busAct path (.clearStuck path) s
def execPowerCycle (path : Path) (s : State) : Out := busAct path (.powerCycle path) s
def execPwrPadrel (path : Path) (val : Nat) (s : State) : Out := busAct path (.pwrPadrel path val) s
def execPwrLinkwake (path : Path) (val : Nat) (s : State) : Out := busAct path (.pwrLinkwake path val) s
def execCapsuleLoad (path : Path) (val : Nat) (late : Bool) (s : State) : Out := busAct path (.capsuleLoad path val late) s
def execElTailWrite (path : Path) (val : Nat) (s : State) : Out := busAct path (.elTailWrite path val) s
def execModeRequest (path : Path) (val : Nat) (s : State) : Out := busAct path (.modeRequest path val) s
def execIdObjFirmware (path : Path) (s : State) : Out := busAct path (.idObjFirmware path) s
def execIdObjEnrol (path : Path) (s : State) : Out := busAct path (.idObjEnrol path) s
def execIdObjReport (path : Path) (s : State) : Out := busAct path (.idObjReport path) s
def execIdObjCert (path : Path) (s : State) : Out := busAct path (.idObjCert path) s
def execFabIsolate (path : Path) (val : Nat) (s : State) : Out := busAct path (.fabIsolate path val) s
def execFabRetrain (path : Path) (val : Nat) (s : State) : Out := busAct path (.fabRetrain path val) s
def execQpcLoad (path : Path) (val : Nat) (s : State) : Out := busAct path (.qpcLoad path val) s
def execQpcReset (path : Path) (val : Nat) (s : State) : Out := busAct path (.qpcReset path val) s
def execQpcForceError (path : Path) (val : Nat) (s : State) : Out := busAct path (.qpcForceError path val) s

/-- The path by which a holder writes SDG_LEASEn (R400): cores and Sheepdog are internal. -/
def holderPath (h : Nat) : Path := if h = 10 then .host else if h = 11 then .sideband else .internal

def execLeaseAcquire (holder n : Nat) (s : State) : Out := busAct (holderPath holder) (.leaseAcquire holder n) s
def execLeaseRenew (holder n : Nat) (s : State) : Out := busAct (holderPath holder) (.leaseRenew holder n) s
def execLeaseRelease (holder n : Nat) (s : State) : Out := busAct (holderPath holder) (.leaseRelease holder n) s

/-! ### The window and the queue engine -/

/-- A window read (R285, R286, R288): mapped by the base in effect when it arrives. -/
def Blk.windowRead (b : Blk) (off len : Nat) : Blk :=
  let base := b.winBase
  if 2 ^ 28 < off + len then b else b.gate (.winRead off len base) false (fun b => b.winRead off len base)

/-- A window write (R285, R286, R288). -/
def Blk.windowWrite (b : Blk) (off : Nat) (d : Bytes) : Blk :=
  let base := b.winBase
  if 2 ^ 28 < off + d.length then b else b.gate (.winWrite off d base) false (fun b => b.winWrite off d base)

/-- ENTRY_COMPLETE (R313), with the end of an attachment (R320) and the transition of a hint (R362). -/
def Blk.entryDone (b : Blk) (q seq : Nat) : Blk := ((b.completeEntry q seq).attSettle).hintAfter q seq

def execWindowRead (off len : Nat) (s : State) : Out := act s (fun b => b.windowRead off len)
def execWindowWrite (off : Nat) (data : Bytes) (s : State) : Out := act s (fun b => b.windowWrite off data)
def execPcieAtomicop (bar : Nat) (s : State) : Out := busAct .host (.pcieAtomicop bar) s
def execDoorbell (path : Path) (q val : Nat) (s : State) : Out := busAct path (.doorbell path q val) s
def execRingFetchDone (q : Nat) (entries : List Bytes) (err : Bool) (s : State) : Out := hubAct s (fun b => b.fetchDone q entries err)
def execStaleReread (q : Nat) (entry : Bytes) (s : State) : Out := hubAct s (fun b => b.reread q entry)
def execStaleDoorbell (q : Nat) (s : State) : Out := hubAct s (fun b => b.staleEnd q)
def execEntryStart (q seq : Nat) (s : State) : Out := hubAct s (fun b => b.startEntry q seq)
def execEntryComplete (q seq : Nat) (s : State) : Out := hubAct s (fun b => b.entryDone q seq)
def execCqHeadWrite (q val : Nat) (s : State) : Out := busAct .host (.cqHeadWrite q val) s
def execQpEnable (q : Nat) (on : Bool) (s : State) : Out := busAct .host (.qpEnable q on) s
def execQpReset (q : Nat) (s : State) : Out := busAct .host (.qpReset q) s
def execQpDropHeld (q : Nat) (s : State) : Out := busAct .host (.qpDropHeld q) s
def execCoalesceDelayExpiry (v : Nat) (s : State) : Out := hubAct s (fun b => b.coalesced v)
/-- A read of the control space by the host (R366). -/
def execHostWake (read : HostRead) (s : State) : Out := busAct .host (.hostWake read) s

/-! ### The attachment (R317 to R320, R450) -/

/-- HEARTBEAT_TIMEOUT (R317). -/
def Blk.heartbeatLost (b : Blk) : Blk := if b.reg (bATTACH + 0x14) % 65536 = 0 then b else b.orphaned 3

/-- ORPHAN_EXPIRY (R320). ID_TIME stands in WATCH, where the hold runs on. -/
def Blk.orphanEnd (b : Blk) : Blk :=
  if b.att.phase = .orphan && (decide (b.att.holdEnd ≤ b.time.toNat) || b.pwr.state == .watch) then b.attEnd 6 else b

/-- PERST_N low (R317, R402): port and configuration space are reset, and the attachment is orphaned. -/
def Blk.perstAssert (b : Blk) : Blk :=
  { b with
    pins := { b.pins with perstN := false }
    ev := { b.ev with unmasked := 0, pba := 0, table := [] }
    att := { b.att with linkUp := false, ready := false, link := 0 } }.orphaned 1

/-- PERST_N high (R450 step 4). -/
def Blk.perstRelease (b : Blk) : Blk := ({ b with pins := { b.pins with perstN := true } }).hostPort

/-- Reads of host rings that were lost on a dead link are issued again (R317). -/
def Blk.readAgain (b : Blk) : Blk :=
  (List.range 64).foldl (fun (b : Blk) q =>
    let x := b.qp q
    if x.fetching = 0 || b.sqLocal q then b
    else b.send (.hostRead (b.sqBase q + 128 * (x.head.toNat % 2 ^ b.sqLog q)) (128 * x.fetching))) b

/-- PCIE_LINK_DOWN (R317): link_retrain is set. -/
def Blk.linkLost (b : Blk) : Blk :=
  if !b.att.linkUp then b
  else
    let b := { b with att := { b.att with linkUp := false } }.attEvent 4
    if b.att.phase = .orphan then b else b.readAgain

/-- PCIE_LINK_DOWN_1MS (R317). -/
def Blk.linkGone (b : Blk) : Blk := if b.att.linkUp then b else b.orphaned 2

def execAttach (s : State) : Out := busAct .host .attach s
def execDetach (s : State) : Out := busAct .host .detach s
def execReattach (val : Nat) (s : State) : Out := busAct .host (.reattach val) s
def execHeartbeat (s : State) : Out := busAct .host .heartbeat s
def execHeartbeatTimeout (s : State) : Out := act s (fun b => b.heartbeatLost)
def execOrphanExpiry (s : State) : Out := act s (fun b => b.orphanEnd)
def execPerstNAssert (s : State) : Out := act s (fun b => b.perstAssert)
def execPerstNDeassert (s : State) : Out := act s (fun b => b.perstRelease)
def execPcieLinkDown (s : State) : Out := act s (fun b => b.linkLost)
def execPcieLinkDown1ms (s : State) : Out := act s (fun b => b.linkGone)
def execFunctionLevelReset (s : State) : Out := act s (fun b => if b.att.ready then b.attEnd 5 else b)

/-! ### The sideband (R434, R438) -/

/-- The frame of an MCTP command. -/
def sideAct (s : State) (f : Blk → Blk) : Out := act s (fun b => if b.sideLive then f b else b)

def execReadReg (block off count : Nat) (s : State) : Out := sideAct s (fun b => b.readRegs block off count)
def execWriteReg (block off val : Nat) (s : State) : Out := sideAct s (fun b => b.writeReg block off val)
def execGetReport (nonce : Bytes) (s : State) : Out := sideAct s (fun b => b.resp (leBytes 1 0 ++ b.report4032 nonce))
def execGetCert (s : State) : Out := sideAct s (fun b => b.resp (leBytes 1 0 ++ certificate))
/-- In the ROM's own loop only this command is carried out (R415). -/
def execLoadObject (kind off : Nat) (data : Bytes) (last : Bool) (s : State) : Out :=
  act s (fun b => if b.pwr.state = .unpowered then b else b.loadObject kind off data last)
def execSetMode (m : Nat) (s : State) : Out := sideAct s (fun b => b.setModeCmd m)
def execGetStatus (s : State) : Out := sideAct s (fun b => b.getStatus)
def execMctpResponseTimeout (s : State) : Out := act s (fun b => b.respLost)

end Sys2Proof.Machine
end

