-- ==== Sys2Proof/Machine/Period.lean ====
section
/-! DEFINITION. The budget-period boundary (R13, R53, R90, R98, R99, R376, R386, R393), the layout
engine's steps (R44), the ends of waits in the stack controllers (R81, R94, R108, R111), and the steps
of power entries, wakes and start-ups (R363, R370, R416). -/

namespace Sys2Proof.Machine
open Sys2Proof

/-! ### The budget-period boundary -/

/-- R90: twice the budgets in effect of a stack, class by class. -/
def Blk.reload (b : Blk) (s : Nat) : List Nat := (List.range 6).map (fun k => 2 * b.budget s k)

/-- R90: a channel's counters at the start of a period, with what training that goes on takes (R113). -/
def ChanSt.loaded (c : ChanSt) (new : List Nat) : ChanSt := ({ c with cnt := new, spent := 0 }).train1

/-- R90: every counter is loaded. -/
def Blk.loadCounters (b : Blk) : Blk :=
  (List.range 16).foldl (fun (b : Blk) s =>
    let new := b.reload s
    (List.range 24).foldl (fun (b : Blk) i =>
      let c := b.chan (24 * s + i)
      if c.loaded new = c then b else b.setChan (24 * s + i) (c.loaded new)) b) b

/-- R98: the allowance of a die for the period, and the fraction it keeps, in 256ths. -/
def allowOf (frac slots factor : Nat) : Nat × Nat :=
  let total := frac + slots * factor
  (min 16 (total / 256), total % 256)

/-- R98 for every die, with the factor of SC_THROTTLE. -/
def Blk.allowAll (b : Blk) : Blk :=
  (List.range 192).foldl (fun (b : Blk) d =>
    let x := b.die d
    let r := allowOf x.frac (b.slotCount d) (b.reg (bSC (stackOfDie d) + 8) % 512)
    if x.allow = r.1 && x.frac = r.2 then b else b.setDie d { x with allow := r.1, frac := r.2 }) b

/-- R99: a unit whose sequence, which waits for a slot or has yielded, ends at the boundary. -/
def Blk.ineligible (b : Blk) (u : Nat) : Bool :=
  let x := b.unit u
  let d := unitDie u
  x.seq.any (fun s => s.needs && !s.inStep) && x.slot.isNone
    && (!(b.eligMask d).testBit (u % 32) || b.slotCount d == 0 || b.sdg.withdrawn.contains u)

/-- R99: whether a unit that holds a slot stands between two steps. -/
def Blk.betweenSteps (b : Blk) (u : Nat) : Bool := ((b.unit u).seq.map (fun s => !s.inStep)).getD false

/-- R99: the recheck, the yields, and the grants of the new allowance. -/
def Blk.slotRound (b : Blk) : Blk :=
  let us := b.cu.units.map (fun p => p.1)
  let b := us.foldl (fun (b : Blk) u => if b.ineligible u then b.endSeq u stRANGE else b) b
  let b := us.foldl (fun (b : Blk) u => if b.betweenSteps u then b.yieldIf u else b) b
  ((us.map unitDie).eraseDups).foldl Blk.grant b

/-- Whether the budget periods run: the hub and the local time run (R13, R440). -/
def Blk.ticking (b : Blk) : Bool :=
  match b.pwr.state with
  | .run | .doze => true
  | .entering => decide (b.pwr.step < 6) && b.hubUp
  | .waking => decide (3 ≤ b.pwr.step) && b.hubUp
  | _ => false

/-- BUDGET_PERIOD_BOUNDARY; `margin` is the highest clock point for which the critical-path monitors
report margin (R376). -/
def Blk.boundary (b : Blk) (margin : Nat) : Blk :=
  if !b.ticking then b
  else
    let b := { b with time := b.time + 1 }
    let b := ((b.commitAll).capLand).lowerFactors
    let b := if b.lay.phase = .draining && b.lay.drained then b.layApply else b
    let b := (((b.loadCounters).allowAll).slotRound).sweep
    ((((b.clockStep margin).scrubLates).writeBacks).pumpAll).releaseHeld

def execBudgetPeriodBoundary (margin : Nat) (s : State) : Out := act s (fun b => b.boundary margin)

/-! ### Layout loads (R44, R45, R49) -/

def execLayCopyDone (s : State) : Out := hubAct s (fun b => b.layCopied)
def execLayVerifyDone (s : State) : Out := hubAct s (fun b => b.layVerified)
def execLayDrainTimeout (s : State) : Out := hubAct s (fun b => b.layTimeout)
def execLayDrainDone (s : State) : Out := hubAct s (fun b => b.layDrained)
def execLayApplyDone (s : State) : Out := hubAct s (fun b => ((b.layDone).releaseHeld).layRelink)
def execLayPersistDone (ok : Bool) (s : State) : Out := hubAct s (fun b => b.layPersist ok)

/-! ### Requests that end in the stack controllers (R94, R111, R458) -/

/-- A window access that ends with refused bytes (R286, R458). -/
def Blk.winRefused (b : Blk) (off len : Nat) : Blk :=
  (b.send (.winRead off (List.replicate len 0xFF) (List.range len))).winEvent 2

/-- Takes the first held request that satisfies a test. -/
def takeHeld (p : HeldReq → Bool) (l : List HeldReq) : Option HeldReq × List HeldReq :=
  (l.find? p, l.eraseP p)

/-- The party that a stack-controller request serves takes the status with which it ended. -/
def Blk.ownerEnd (b : Blk) (o : Owner) (st : Nat) : Blk :=
  match o with
  | .entry q seq => match b.flight? q seq with
    | some f => if f.stage = .running then (b.endEntry f st .now).veIdle else b
    | none => b
  | .winRead off len =>
    let (_, l) := takeHeld (fun h => match h with
      | .winRead o n _ => o == off && n == len
      | _ => false) b.held
    ({ b with held := l }).winRefused off len
  | .winWrite off len =>
    let (_, l) := takeHeld (fun h => match h with
      | .winWrite o d _ => o == off && d.length == len
      | _ => false) b.held
    { b with held := l }
  | .fabric src txn =>
    match takeHeld (fun h => match h with
      | .packet _ p => p.src == src && p.txn == txn
      | _ => false) b.held with
    | (some (.packet _ p), l) => ({ b with held := l }).respond p (p.typ + 0x80) st []
    | _ => b
  | .rdma qpn =>
    match takeHeld (fun h => match h with
      | .rdma _ f => f.qpn == qpn
      | _ => false) b.held with
    | (some (.rdma _ f), l) =>
      ({ b with held := l.filter (fun h => match h with
          | .rdma _ g => g.qpn != qpn
          | _ => true) }).frame qpn 5 f.psn []
    | _ => b
  | .engine => b

/-- The oldest request of a list that satisfies a test. -/
def oldest (p : HalfReq → Bool) (l : List HalfReq) : Option HalfReq :=
  (l.filter p).foldl (fun a r => match a with
    | some x => if r.since < x.since then some r else some x
    | none => some r) none

/-- A request leaves a channel, wherever it waits. -/
def Blk.dropReq (b : Blk) (ch : Nat) (r : HalfReq) : Blk :=
  let c := b.chan ch
  b.setChan ch (
    if c.readQ.contains r then { c with readQ := c.readQ.erase r }
    else if c.writeQ.contains r then { c with writeQ := c.writeQ.erase r }
    else { c with portQ := c.portQ.eraseP (fun p => p.2 == r) })

/-- R94: the request of a port and class that has waited longest leaves the channel. -/
def Blk.dropQueued (b : Blk) (ch port cls : Nat) : Blk :=
  let c := b.chan ch
  match oldest (fun r => r.port == port && r.cls == cls) (c.readQ ++ c.writeQ ++ c.portQ.map (fun p => p.2)) with
  | some r => b.dropReq ch r
  | none => b

/-- SC_REQ_TIMEOUT (R94, R112): the entry's detail is the class (log 68). -/
def Blk.reqTimeout (b : Blk) (ch port cls : Nat) (o : Owner) : Blk :=
  if 384 ≤ ch || 12 ≤ port || 6 ≤ cls then b
  else
    let b := b.logE kSC_REQTO { port := some port, status := stINTERNAL, cga := some (cgaOf (gidOf ch 0 0 0)), detail := cls }
    (((b.scEvent (stackOfCh ch) 1).dropQueued ch port cls).ownerEnd o stINTERNAL)

/-- The ports from which a party's requests come (R33). -/
def Owner.ports : Owner → List Nat
  | .entry _ _ => [4, 5, 6, 8]
  | .winRead _ _ => [0]
  | .winWrite _ _ => [0]
  | .fabric _ _ => [3]
  | .rdma _ => [1, 2]
  | .engine => [7, 9, 10, 11]

/-- CMD_PARITY_FAIL (R111, R112): the third failing issue of a command ends its request, which leaves its
queue. -/
def Blk.parityFail (b : Blk) (ch : Nat) (o : Owner) : Blk :=
  if 384 ≤ ch then b
  else
    let c := b.chan ch
    if c.parity < 2 then b.setChan ch { c with parity := c.parity + 1 }
    else
      let b := match b.nextReq ch with
        | some (_, r) => if (Owner.ports o).contains r.port then b.dropReq ch r else b
        | none => b
      let b := b.setChan ch { b.chan ch with parity := 0 }
      let b := b.logE kSC_CMD { status := stUNCORR, cga := some (cgaOf (gidOf ch 0 0 0)) }
      (b.scEvent (stackOfCh ch) 2).ownerEnd o stUNCORR

/-- UNIT_STEP_DONE (R101, R144): the step ends, and at the boundary the pair serves the requests of other
classes that have waited for a period. -/
def Blk.stepEnd (b : Blk) (u : Nat) : Blk :=
  let asked := (b.unit u).asked.isSome
  let b := ((b.stepDone u).sweep).pump (unitCh u)
  if asked then b.releaseHeld else b

def execUnitStepDone (u : Nat) (s : State) : Out := hubAct s (fun b => b.stepEnd u)
def execScReqTimeout (ch port cls : Nat) (owner : Owner) (s : State) : Out := hubAct s (fun b => b.reqTimeout ch port cls owner)
def execCmdParityFail (ch : Nat) (owner : Owner) (s : State) : Out := hubAct s (fun b => b.parityFail ch owner)
def execConversionSegmentDone (seg : Nat) (s : State) : Out := hubAct s (fun b => (b.convSegDone seg).releaseHeld)
def execSrExitTxsElapsed (die : Nat) (s : State) : Out := hubAct s (fun b => ((b.txsElapsed die).sweep).releaseHeld)

/-- SR_EXIT_PHY_TIMEOUT (R108): a failure during wake step 3 fails the step (R371). -/
def Blk.exitLate (b : Blk) (d : Nat) : Blk :=
  let c := b.phyTimeout d
  if (c.die d).sr = .failed && (b.die d).sr != .failed && c.pwr.state = .waking && c.pwr.step = 3 then c.wakeFail d 6 else c

def execSrExitPhyTimeout (die : Nat) (s : State) : Out := hubAct s (fun b => b.exitLate die)

/-! ### Power entries, wakes and start-ups -/

def execEntryStepDone (s : State) : Out := act s (fun b => (b.entryStep).releaseHeld)
def execWakeStepReady (elapsed : Nat) (ident : Bool) (s : State) : Out := act s (fun b => (b.wakeReady elapsed ident).releaseHeld)
def execStartupStepDone (ok : Bool) (run : StepRun) (s : State) : Out :=
  act s (fun b => (b.startupStep ok run.ms run.bad).releaseHeld)
def execWakeInNLow (low : Bool) (s : State) : Out := act s (fun b => (b.wakeIn low).releaseHeld)
def execLinkwakePatternEnd (link : Nat) (s : State) : Out := hubAct s (fun b => b.patternEnd link)

end Sys2Proof.Machine
end

