-- ==== Sys2Proof/Machine/Dispatch.lean ====
section
/-! DEFINITION. One arm per command: the meaning that runs it. -/

namespace Sys2Proof.Machine
open Sys2Proof

def exec (i : Instr) (s : State) : Host.Outcome State Fault Refusal :=
  match i with
  | .badAccess path write off size => Sys2Proof.Machine.execBadAccess path write off size s
  | .sdgWriteRefused path off val => Sys2Proof.Machine.execSdgWriteRefused path off val s
  | .registerWrite path off wide val => Sys2Proof.Machine.execRegisterWrite path off wide val s
  | .budgetPeriodBoundary margin => Sys2Proof.Machine.execBudgetPeriodBoundary margin s
  | .commit path blk val => Sys2Proof.Machine.execCommit path blk val s
  | .layLoad path val => Sys2Proof.Machine.execLayLoad path val s
  | .layPersistDone ok => Sys2Proof.Machine.execLayPersistDone ok s
  | .segmentInitDone init => Sys2Proof.Machine.execSegmentInitDone init s
  | .sealSegs q seq => Sys2Proof.Machine.execSealSegs q seq s
  | .unsealSegs q seq => Sys2Proof.Machine.execUnsealSegs q seq s
  | .conversionSegmentDone seg => Sys2Proof.Machine.execConversionSegmentDone seg s
  | .scrubStep ch => Sys2Proof.Machine.execScrubStep ch s
  | .act ch port cls bank row => Sys2Proof.Machine.execAct ch port cls bank row s
  | .pre ch port cls bank => Sys2Proof.Machine.execPre ch port cls bank s
  | .rdh ch port cls bank row grp half keep => Sys2Proof.Machine.execRdh ch port cls bank row grp half keep s
  | .wrh ch port cls bank row grp half keep data => Sys2Proof.Machine.execWrh ch port cls bank row grp half keep data s
  | .rdw ch ask bank row word => Sys2Proof.Machine.execRdw ch ask bank row word s
  | .wrw ch ask bank row word data => Sys2Proof.Machine.execWrw ch ask bank row word data s
  | .refpr ch pair => Sys2Proof.Machine.execRefpr ch pair s
  | .sre die => Sys2Proof.Machine.execSre die s
  | .srx die => Sys2Proof.Machine.execSrx die s
  | .cmdParityFail ch owner => Sys2Proof.Machine.execCmdParityFail ch owner s
  | .refreshDue ch pair => Sys2Proof.Machine.execRefreshDue ch pair s
  | .refreshLate ch pair => Sys2Proof.Machine.execRefreshLate ch pair s
  | .refreshPullIn ch pair => Sys2Proof.Machine.execRefreshPullIn ch pair s
  | .rowIdleTimeout ch bank => Sys2Proof.Machine.execRowIdleTimeout ch bank s
  | .scReqTimeout ch port cls owner => Sys2Proof.Machine.execScReqTimeout ch port cls owner s
  | .srEntryTimeout die => Sys2Proof.Machine.execSrEntryTimeout die s
  | .srExitPhyLocked die => Sys2Proof.Machine.execSrExitPhyLocked die s
  | .srExitTxsElapsed die => Sys2Proof.Machine.execSrExitTxsElapsed die s
  | .srExitPhyTimeout die => Sys2Proof.Machine.execSrExitPhyTimeout die s
  | .corrWindowExpiry ch => Sys2Proof.Machine.execCorrWindowExpiry ch s
  | .retrainTimer bad => Sys2Proof.Machine.execRetrainTimer bad s
  | .clrCounters path stack val => Sys2Proof.Machine.execClrCounters path stack val s
  | .trnStart path val => Sys2Proof.Machine.execTrnStart path val s
  | .trnRunDone errs => Sys2Proof.Machine.execTrnRunDone errs s
  | .pimMode ch mask body => Sys2Proof.Machine.execPimMode ch mask body s
  | .opl ch mask body data => Sys2Proof.Machine.execOpl ch mask body data s
  | .cact t => Sys2Proof.Machine.execCact t s
  | .crd t => Sys2Proof.Machine.execCrd t s
  | .cwr t => Sys2Proof.Machine.execCwr t s
  | .accRd t => Sys2Proof.Machine.execAccRd t s
  | .accRdTransferDone u set => Sys2Proof.Machine.execAccRdTransferDone u set s
  | .tblWr ch mask body data => Sys2Proof.Machine.execTblWr ch mask body data s
  | .stepLd ch mask body data => Sys2Proof.Machine.execStepLd ch mask body data s
  | .stepGo ch mask body => Sys2Proof.Machine.execStepGo ch mask body s
  | .smax u => Sys2Proof.Machine.execSmax u s
  | .sexp u => Sys2Proof.Machine.execSexp u s
  | .lperm u => Sys2Proof.Machine.execLperm u s
  | .lew u => Sys2Proof.Machine.execLew u s
  | .lstat u => Sys2Proof.Machine.execLstat u s
  | .unitStepDone u => Sys2Proof.Machine.execUnitStepDone u s
  | .bankGemv q seq => Sys2Proof.Machine.execBankGemv q seq s
  | .planReadDone q seq => Sys2Proof.Machine.execPlanReadDone q seq s
  | .treeWindowComplete q seq stack win => Sys2Proof.Machine.execTreeWindowComplete q seq stack win s
  | .hubWindowCombine q seq win => Sys2Proof.Machine.execHubWindowCombine q seq win s
  | .bankEwise q seq => Sys2Proof.Machine.execBankEwise q seq s
  | .bankNorm q seq => Sys2Proof.Machine.execBankNorm q seq s
  | .normStatsReady q seq row => Sys2Proof.Machine.execNormStatsReady q seq row s
  | .bankTable q seq => Sys2Proof.Machine.execBankTable q seq s
  | .bankAttn q seq => Sys2Proof.Machine.execBankAttn q seq s
  | .attnFallbackCheck q seq => Sys2Proof.Machine.execAttnFallbackCheck q seq s
  | .attnProbeResolve q seq head => Sys2Proof.Machine.execAttnProbeResolve q seq head s
  | .tileMm q seq => Sys2Proof.Machine.execTileMm q seq s
  | .tileDone ox => Sys2Proof.Machine.execTileDone ox s
  | .ftqEntryFreed periods => Sys2Proof.Machine.execFtqEntryFreed periods s
  | .vecProg q seq => Sys2Proof.Machine.execVecProg q seq s
  | .veRowBoundary long => Sys2Proof.Machine.execVeRowBoundary long s
  | .sfuMap q seq => Sys2Proof.Machine.execSfuMap q seq s
  | .sfuSoftmax q seq => Sys2Proof.Machine.execSfuSoftmax q seq s
  | .sfuLogSoftmax q seq => Sys2Proof.Machine.execSfuLogSoftmax q seq s
  | .sfuLayerNorm q seq => Sys2Proof.Machine.execSfuLayerNorm q seq s
  | .sfuRmsNorm q seq => Sys2Proof.Machine.execSfuRmsNorm q seq s
  | .sfuLoadTable q seq => Sys2Proof.Machine.execSfuLoadTable q seq s
  | .copy q seq => Sys2Proof.Machine.execCopy q seq s
  | .fill q seq => Sys2Proof.Machine.execFill q seq s
  | .relay q seq => Sys2Proof.Machine.execRelay q seq s
  | .descCreate q seq => Sys2Proof.Machine.execDescCreate q seq s
  | .descDrop q seq => Sys2Proof.Machine.execDescDrop q seq s
  | .nop q seq => Sys2Proof.Machine.execNop q seq s
  | .fence q seq => Sys2Proof.Machine.execFence q seq s
  | .windowRead off len => Sys2Proof.Machine.execWindowRead off len s
  | .windowWrite off data => Sys2Proof.Machine.execWindowWrite off data s
  | .pcieAtomicop bar => Sys2Proof.Machine.execPcieAtomicop bar s
  | .doorbell path q val => Sys2Proof.Machine.execDoorbell path q val s
  | .ringFetchDone q entries err => Sys2Proof.Machine.execRingFetchDone q entries err s
  | .staleReread q entry => Sys2Proof.Machine.execStaleReread q entry s
  | .staleDoorbell q => Sys2Proof.Machine.execStaleDoorbell q s
  | .entryStart q seq => Sys2Proof.Machine.execEntryStart q seq s
  | .entryComplete q seq => Sys2Proof.Machine.execEntryComplete q seq s
  | .cqHeadWrite q val => Sys2Proof.Machine.execCqHeadWrite q val s
  | .qpEnable q on => Sys2Proof.Machine.execQpEnable q on s
  | .qpReset q => Sys2Proof.Machine.execQpReset q s
  | .qpDropHeld q => Sys2Proof.Machine.execQpDropHeld q s
  | .coalesceDelayExpiry v => Sys2Proof.Machine.execCoalesceDelayExpiry v s
  | .reattach val => Sys2Proof.Machine.execReattach val s
  | .linkSignalDetect link => Sys2Proof.Machine.execLinkSignalDetect link s
  | .linkTrainingDone link => Sys2Proof.Machine.execLinkTrainingDone link s
  | .linkBringupTimeout link => Sys2Proof.Machine.execLinkBringupTimeout link s
  | .linkRetryTimer link => Sys2Proof.Machine.execLinkRetryTimer link s
  | .ident link msg => Sys2Proof.Machine.execIdent link msg s
  | .proof link msg => Sys2Proof.Machine.execProof link msg s
  | .linkMismatchRetry link => Sys2Proof.Machine.execLinkMismatchRetry link s
  | .linkFecRateCheck link bad total => Sys2Proof.Machine.execLinkFecRateCheck link bad total s
  | .dataFlit link raw fecOk => Sys2Proof.Machine.execDataFlit link raw fecOk s
  | .nakFlit link ack => Sys2Proof.Machine.execNakFlit link ack s
  | .flitAckTimeout link => Sys2Proof.Machine.execFlitAckTimeout link s
  | .fecLockLoss link => Sys2Proof.Machine.execFecLockLoss link s
  | .fabRead link p => Sys2Proof.Machine.execFabRead link p s
  | .fabWrite link p => Sys2Proof.Machine.execFabWrite link p s
  | .fabAtomic link p => Sys2Proof.Machine.execFabAtomic link p s
  | .fabFence link p => Sys2Proof.Machine.execFabFence link p s
  | .fabDoorbell link p => Sys2Proof.Machine.execFabDoorbell link p s
  | .fwdEntry link p => Sys2Proof.Machine.execFwdEntry link p s
  | .linkState link p => Sys2Proof.Machine.execLinkState link p s
  | .readRsp link p => Sys2Proof.Machine.execReadRsp link p s
  | .writeAck link p => Sys2Proof.Machine.execWriteAck link p s
  | .atomicRsp link p => Sys2Proof.Machine.execAtomicRsp link p s
  | .fenceAck link p => Sys2Proof.Machine.execFenceAck link p s
  | .doorbellAck link p => Sys2Proof.Machine.execDoorbellAck link p s
  | .fwdAck link p => Sys2Proof.Machine.execFwdAck link p s
  | .routeNak link p => Sys2Proof.Machine.execRouteNak link p s
  | .packetTransit link p => Sys2Proof.Machine.execPacketTransit link p s
  | .remoteTimeout txn => Sys2Proof.Machine.execRemoteTimeout txn s
  | .unreachableMarkExpiry dst => Sys2Proof.Machine.execUnreachableMarkExpiry dst s
  | .remotePut q seq => Sys2Proof.Machine.execRemotePut q seq s
  | .remoteGet q seq => Sys2Proof.Machine.execRemoteGet q seq s
  | .remoteAtomic q seq => Sys2Proof.Machine.execRemoteAtomic q seq s
  | .fabIsolate path val => Sys2Proof.Machine.execFabIsolate path val s
  | .fabRetrain path val => Sys2Proof.Machine.execFabRetrain path val s
  | .rdmaWrite f => Sys2Proof.Machine.execRdmaWrite f s
  | .rdmaRead f => Sys2Proof.Machine.execRdmaRead f s
  | .rdmaSend f => Sys2Proof.Machine.execRdmaSend f s
  | .roceAck qpn psn => Sys2Proof.Machine.execRoceAck qpn psn s
  | .roceNak qpn psn => Sys2Proof.Machine.execRoceNak qpn psn s
  | .rnrNak qpn => Sys2Proof.Machine.execRnrNak qpn s
  | .roceRetryTimeout qpn => Sys2Proof.Machine.execRoceRetryTimeout qpn s
  | .cnp qpn => Sys2Proof.Machine.execCnp qpn s
  | .congestionRecovery qpn => Sys2Proof.Machine.execCongestionRecovery qpn s
  | .pfcPause port prio on => Sys2Proof.Machine.execPfcPause port prio on s
  | .nonRoceFrame port => Sys2Proof.Machine.execNonRoceFrame port s
  | .netPostWrite q seq => Sys2Proof.Machine.execNetPostWrite q seq s
  | .netPostRead q seq => Sys2Proof.Machine.execNetPostRead q seq s
  | .netPostSend q seq => Sys2Proof.Machine.execNetPostSend q seq s
  | .netPostRecv q seq => Sys2Proof.Machine.execNetPostRecv q seq s
  | .qpcLoad path val => Sys2Proof.Machine.execQpcLoad path val s
  | .qpcReset path val => Sys2Proof.Machine.execQpcReset path val s
  | .qpcForceError path val => Sys2Proof.Machine.execQpcForceError path val s
  | .powerHint q seq => Sys2Proof.Machine.execPowerHint q seq s
  | .powerHintWaitTimeout q seq => Sys2Proof.Machine.execPowerHintWaitTimeout q seq s
  | .dieIdleTimer die => Sys2Proof.Machine.execDieIdleTimer die s
  | .listenWindow opens => Sys2Proof.Machine.execListenWindow opens s
  | .linkWakeDetect link => Sys2Proof.Machine.execLinkWakeDetect link s
  | .wakeInNLow low => Sys2Proof.Machine.execWakeInNLow low s
  | .wakeStepReady elapsed ident => Sys2Proof.Machine.execWakeStepReady elapsed ident s
  | .wakeStepTimeout index cause => Sys2Proof.Machine.execWakeStepTimeout index cause s
  | .pwrCmdHold path => Sys2Proof.Machine.execPwrCmdHold path s
  | .pwrCmdOff path => Sys2Proof.Machine.execPwrCmdOff path s
  | .pwrCmdWake path => Sys2Proof.Machine.execPwrCmdWake path s
  | .clearStuck path => Sys2Proof.Machine.execClearStuck path s
  | .powerCycle path => Sys2Proof.Machine.execPowerCycle path s
  | .pwrPadrel path val => Sys2Proof.Machine.execPwrPadrel path val s
  | .pwrLinkwake path val => Sys2Proof.Machine.execPwrLinkwake path val s
  | .linkwakePatternEnd link => Sys2Proof.Machine.execLinkwakePatternEnd link s
  | .pmbusTransactionDone ok => Sys2Proof.Machine.execPmbusTransactionDone ok s
  | .avsAckTimeout mv => Sys2Proof.Machine.execAvsAckTimeout mv s
  | .pwrEnAssert slot => Sys2Proof.Machine.execPwrEnAssert slot s
  | .railPowerGoodLost rail => Sys2Proof.Machine.execRailPowerGoodLost rail s
  | .sensorUpdate temps mv watts telem secs nvOk => Sys2Proof.Machine.execSensorUpdate temps mv watts telem secs nvOk s
  | .regulatorRead temps => Sys2Proof.Machine.execRegulatorRead temps s
  | .inputCurrentCheck ma mv => Sys2Proof.Machine.execInputCurrentCheck ma mv s
  | .holddownEnd secs => Sys2Proof.Machine.execHolddownEnd secs s
  | .thermNExternal low => Sys2Proof.Machine.execThermNExternal low s
  | .capsuleLoad path val late => Sys2Proof.Machine.execCapsuleLoad path val late s
  | .capsulePersistDone ok => Sys2Proof.Machine.execCapsulePersistDone ok s
  | .leaseAcquire holder n => Sys2Proof.Machine.execLeaseAcquire holder n s
  | .leaseRenew holder n => Sys2Proof.Machine.execLeaseRenew holder n s
  | .leaseRelease holder n => Sys2Proof.Machine.execLeaseRelease holder n s
  | .leaseExpiry n u => Sys2Proof.Machine.execLeaseExpiry n u s
  | .watchdogExpiry core => Sys2Proof.Machine.execWatchdogExpiry core s
  | .coreParityError core => Sys2Proof.Machine.execCoreParityError core s
  | .elTailWrite path val => Sys2Proof.Machine.execElTailWrite path val s
  | .startupStepDone ok run => Sys2Proof.Machine.execStartupStepDone ok run s
  | .modeRequest path val => Sys2Proof.Machine.execModeRequest path val s
  | .idObjFirmware path => Sys2Proof.Machine.execIdObjFirmware path s
  | .idObjEnrol path => Sys2Proof.Machine.execIdObjEnrol path s
  | .idObjReport path => Sys2Proof.Machine.execIdObjReport path s
  | .idObjCert path => Sys2Proof.Machine.execIdObjCert path s
  | .readReg block off count => Sys2Proof.Machine.execReadReg block off count s
  | .writeReg block off val => Sys2Proof.Machine.execWriteReg block off val s
  | .getReport nonce => Sys2Proof.Machine.execGetReport nonce s
  | .loadObject kind off data last => Sys2Proof.Machine.execLoadObject kind off data last s
  | .setMode m => Sys2Proof.Machine.execSetMode m s
  | .hostWake read => Sys2Proof.Machine.execHostWake read s
  | .rdmaReadResponse qpn data => Sys2Proof.Machine.execRdmaReadResponse qpn data s
  | .netLinkChange port up => Sys2Proof.Machine.execNetLinkChange port up s
  | .idleFlit link ack cvc ccount => Sys2Proof.Machine.execIdleFlit link ack cvc ccount s
  | .layCopyDone => Sys2Proof.Machine.execLayCopyDone s
  | .layVerifyDone => Sys2Proof.Machine.execLayVerifyDone s
  | .layDrainTimeout => Sys2Proof.Machine.execLayDrainTimeout s
  | .layDrainDone => Sys2Proof.Machine.execLayDrainDone s
  | .layApplyDone => Sys2Proof.Machine.execLayApplyDone s
  | .trnRunTimeout => Sys2Proof.Machine.execTrnRunTimeout s
  | .vadd => Sys2Proof.Machine.execVadd s
  | .vsub => Sys2Proof.Machine.execVsub s
  | .vmul => Sys2Proof.Machine.execVmul s
  | .vfma => Sys2Proof.Machine.execVfma s
  | .vmin => Sys2Proof.Machine.execVmin s
  | .vmax => Sys2Proof.Machine.execVmax s
  | .vabs => Sys2Proof.Machine.execVabs s
  | .vneg => Sys2Proof.Machine.execVneg s
  | .vlogic => Sys2Proof.Machine.execVlogic s
  | .vcmp => Sys2Proof.Machine.execVcmp s
  | .vsel => Sys2Proof.Machine.execVsel s
  | .vmov => Sys2Proof.Machine.execVmov s
  | .vsplat => Sys2Proof.Machine.execVsplat s
  | .viota => Sys2Proof.Machine.execViota s
  | .vperm => Sys2Proof.Machine.execVperm s
  | .vcompress => Sys2Proof.Machine.execVcompress s
  | .vexpand => Sys2Proof.Machine.execVexpand s
  | .ld => Sys2Proof.Machine.execLd s
  | .st => Sys2Proof.Machine.execSt s
  | .ldk => Sys2Proof.Machine.execLdk s
  | .scmp => Sys2Proof.Machine.execScmp s
  | .ldx => Sys2Proof.Machine.execLdx s
  | .lds => Sys2Proof.Machine.execLds s
  | .sts => Sys2Proof.Machine.execSts s
  | .red => Sys2Proof.Machine.execRed s
  | .rget => Sys2Proof.Machine.execRget s
  | .xset => Sys2Proof.Machine.execXset s
  | .xalu => Sys2Proof.Machine.execXalu s
  | .kop => Sys2Proof.Machine.execKop s
  | .vfn => Sys2Proof.Machine.execVfn s
  | .attach => Sys2Proof.Machine.execAttach s
  | .detach => Sys2Proof.Machine.execDetach s
  | .heartbeat => Sys2Proof.Machine.execHeartbeat s
  | .heartbeatTimeout => Sys2Proof.Machine.execHeartbeatTimeout s
  | .orphanExpiry => Sys2Proof.Machine.execOrphanExpiry s
  | .perstNAssert => Sys2Proof.Machine.execPerstNAssert s
  | .perstNDeassert => Sys2Proof.Machine.execPerstNDeassert s
  | .pcieLinkDown => Sys2Proof.Machine.execPcieLinkDown s
  | .pcieLinkDown1ms => Sys2Proof.Machine.execPcieLinkDown1ms s
  | .functionLevelReset => Sys2Proof.Machine.execFunctionLevelReset s
  | .keepExpiry => Sys2Proof.Machine.execKeepExpiry s
  | .runDozeTimer => Sys2Proof.Machine.execRunDozeTimer s
  | .dozeWatchTimer => Sys2Proof.Machine.execDozeWatchTimer s
  | .quiesceTimeout => Sys2Proof.Machine.execQuiesceTimeout s
  | .entryStepDone => Sys2Proof.Machine.execEntryStepDone s
  | .alarmExpiry => Sys2Proof.Machine.execAlarmExpiry s
  | .wakeRetryDelay => Sys2Proof.Machine.execWakeRetryDelay s
  | .pwrEnDeassert => Sys2Proof.Machine.execPwrEnDeassert s
  | .inputPowerApplied => Sys2Proof.Machine.execInputPowerApplied s
  | .clusterReadyTimeout => Sys2Proof.Machine.execClusterReadyTimeout s
  | .getCert => Sys2Proof.Machine.execGetCert s
  | .getStatus => Sys2Proof.Machine.execGetStatus s
  | .mctpResponseTimeout => Sys2Proof.Machine.execMctpResponseTimeout s
  | .inputUndervoltage => Sys2Proof.Machine.execInputUndervoltage s
  | .inputOvervoltage => Sys2Proof.Machine.execInputOvervoltage s
  | .inputRestored => Sys2Proof.Machine.execInputRestored s
  | .holdupExhausted => Sys2Proof.Machine.execHoldupExhausted s
  | .clusterRestartReady => Sys2Proof.Machine.execClusterRestartReady s
  | .avsAcknowledged => Sys2Proof.Machine.execAvsAcknowledged s
  | .wakeOutNRelease => Sys2Proof.Machine.execWakeOutNRelease s

end Sys2Proof.Machine
end

