-- ==== Sys2Proof/WellFormed.lean ====
section
/-! DEFINITION. Well-formed commands: operands within the ranges that the spec gives the things they
name. A command that is not well formed names nothing of the machine. -/

namespace Sys2Proof

/-- A block with a commit register that exists (R436). -/
def CBlk.wf : CBlk → Bool
  | .queue q => decide (q < 64)
  | .stack s => decide (s < 16)
  | _ => true

def Owner.wf : Owner → Bool
  | .entry q seq => decide (q < 64) && decide (seq < 4294967296)
  | .winRead off len => decide (off + len ≤ 268435456)
  | .winWrite off len => decide (off + len ≤ 268435456)
  | .fabric src txn => decide (src < 8192) && decide (txn < 65536)
  | .rdma qpn => decide (qpn < 16777216)
  | .engine => true

def ColAsk.wf (a : ColAsk) : Bool := decide (a.port < 12) && decide (a.cls < 6)

def SegInit.wf (i : SegInit) : Bool := decide (i.seg < 393216) && decide (i.cls < 6)

def StepTarget.wf : StepTarget → Bool
  | .direct ch mask body => decide (ch < 384) && decide (mask < 65536) && decide (body < 17592186044416)
  | .unit u => decide (u < 6144)

/-- Field widths of a packet header (R331). -/
def Packet.wf (p : Packet) : Bool :=
  decide (p.typ < 256) && decide (p.flags < 256) && decide (p.src < 65536) && decide (p.dst < 65536) && decide (p.txn < 65536)
    && decide (p.qs < 256) && decide (p.hops < 256) && decide (p.sub < 256) && decide (p.addr < 18446744073709551616)

/-- Field widths of a RoCE v2 request (R347). -/
def RFrame.wf (f : RFrame) : Bool :=
  decide (f.port < 2) && decide (f.qpn < 16777216) && decide (f.psn < 16777216) && decide (f.va < 18446744073709551616)
    && decide (f.rkey < 4294967296) && decide (f.len < 4294967296) && decide (f.payload.length ≤ 4096)

/-- Whether a command's operands are within range. -/
def Instr.wf : Instr → Bool
  | .sdgWriteRefused _ _ val => decide (val < 4294967296)
  | .registerWrite _ _ wide val => decide (val < (if wide then 18446744073709551616 else 4294967296))
  | .commit _ blk val => blk.wf && decide (val < 4294967296)
  | .layLoad _ val => decide (val < 4294967296)
  | .segmentInitDone init => init.wf
  | .sealSegs q seq => decide (q < 64) && decide (seq < 4294967296)
  | .unsealSegs q seq => decide (q < 64) && decide (seq < 4294967296)
  | .conversionSegmentDone seg => decide (seg < 393216)
  | .scrubStep ch => decide (ch < 384)
  | .act ch port cls bank row => decide (ch < 384) && decide (port < 12) && decide (cls < 6) && decide (bank < 32) && decide (row < 32768)
  | .pre ch port cls bank => decide (ch < 384) && decide (port < 12) && decide (cls < 6) && decide (bank < 32)
  | .rdh ch port cls bank row grp half _ => decide (ch < 384) && decide (port < 12) && decide (cls < 6) && decide (bank < 32) && decide (row < 32768) && decide (grp < 8) && decide (half < 2)
  | .wrh ch port cls bank row grp half _ data => decide (ch < 384) && decide (port < 12) && decide (cls < 6) && decide (bank < 32) && decide (row < 32768) && decide (grp < 8) && decide (half < 2) && decide (data.length = 144)
  | .rdw ch ask bank row word => decide (ch < 384) && ask.wf && decide (bank < 32) && decide (row < 32768) && decide (word < 64)
  | .wrw ch ask bank row word data => decide (ch < 384) && ask.wf && decide (bank < 32) && decide (row < 32768) && decide (word < 64) && decide (data.length = 36)
  | .refpr ch pair => decide (ch < 384) && decide (pair < 16)
  | .sre die => decide (die < 192)
  | .srx die => decide (die < 192)
  | .cmdParityFail ch owner => decide (ch < 384) && owner.wf
  | .refreshDue ch pair => decide (ch < 384) && decide (pair < 16)
  | .refreshLate ch pair => decide (ch < 384) && decide (pair < 16)
  | .refreshPullIn ch pair => decide (ch < 384) && decide (pair < 16)
  | .rowIdleTimeout ch bank => decide (ch < 384) && decide (bank < 32)
  | .scReqTimeout ch port cls owner => decide (ch < 384) && decide (port < 12) && decide (cls < 6) && owner.wf
  | .srEntryTimeout die => decide (die < 192)
  | .srExitPhyLocked die => decide (die < 192)
  | .srExitTxsElapsed die => decide (die < 192)
  | .srExitPhyTimeout die => decide (die < 192)
  | .corrWindowExpiry ch => decide (ch < 384)
  | .clrCounters _ stack val => decide (stack < 16) && decide (val < 4294967296)
  | .trnStart _ val => decide (val < 4294967296)
  | .pimMode ch mask body => decide (ch < 384) && decide (mask < 65536) && decide (body < 17592186044416)
  | .opl ch mask body _ => decide (ch < 384) && decide (mask < 65536) && decide (body < 17592186044416)
  | .cact t => t.wf
  | .crd t => t.wf
  | .cwr t => t.wf
  | .accRd t => t.wf
  | .accRdTransferDone u set => decide (u < 6144) && decide (set < 4)
  | .tblWr ch mask body _ => decide (ch < 384) && decide (mask < 65536) && decide (body < 17592186044416)
  | .stepLd ch mask body _ => decide (ch < 384) && decide (mask < 65536) && decide (body < 17592186044416)
  | .stepGo ch mask body => decide (ch < 384) && decide (mask < 65536) && decide (body < 17592186044416)
  | .smax u => decide (u < 6144)
  | .sexp u => decide (u < 6144)
  | .lperm u => decide (u < 6144)
  | .lew u => decide (u < 6144)
  | .lstat u => decide (u < 6144)
  | .unitStepDone u => decide (u < 6144)
  | .bankGemv q seq => decide (q < 64) && decide (seq < 4294967296)
  | .planReadDone q seq => decide (q < 64) && decide (seq < 4294967296)
  | .treeWindowComplete q seq stack _ => decide (q < 64) && decide (seq < 4294967296) && decide (stack < 16)
  | .hubWindowCombine q seq _ => decide (q < 64) && decide (seq < 4294967296)
  | .bankEwise q seq => decide (q < 64) && decide (seq < 4294967296)
  | .bankNorm q seq => decide (q < 64) && decide (seq < 4294967296)
  | .normStatsReady q seq _ => decide (q < 64) && decide (seq < 4294967296)
  | .bankTable q seq => decide (q < 64) && decide (seq < 4294967296)
  | .bankAttn q seq => decide (q < 64) && decide (seq < 4294967296)
  | .attnFallbackCheck q seq => decide (q < 64) && decide (seq < 4294967296)
  | .attnProbeResolve q seq _ => decide (q < 64) && decide (seq < 4294967296)
  | .tileMm q seq => decide (q < 64) && decide (seq < 4294967296)
  | .tileDone ox => decide (ox < 4)
  | .ftqEntryFreed periods => decide (periods.length = 4)
  | .vecProg q seq => decide (q < 64) && decide (seq < 4294967296)
  | .sfuMap q seq => decide (q < 64) && decide (seq < 4294967296)
  | .sfuSoftmax q seq => decide (q < 64) && decide (seq < 4294967296)
  | .sfuLogSoftmax q seq => decide (q < 64) && decide (seq < 4294967296)
  | .sfuLayerNorm q seq => decide (q < 64) && decide (seq < 4294967296)
  | .sfuRmsNorm q seq => decide (q < 64) && decide (seq < 4294967296)
  | .sfuLoadTable q seq => decide (q < 64) && decide (seq < 4294967296)
  | .copy q seq => decide (q < 64) && decide (seq < 4294967296)
  | .fill q seq => decide (q < 64) && decide (seq < 4294967296)
  | .relay q seq => decide (q < 64) && decide (seq < 4294967296)
  | .descCreate q seq => decide (q < 64) && decide (seq < 4294967296)
  | .descDrop q seq => decide (q < 64) && decide (seq < 4294967296)
  | .nop q seq => decide (q < 64) && decide (seq < 4294967296)
  | .fence q seq => decide (q < 64) && decide (seq < 4294967296)
  | .pcieAtomicop bar => decide (bar < 6)
  | .doorbell _ q val => decide (q < 64) && decide (val < 4294967296)
  | .ringFetchDone q entries _ => decide (q < 64) && entries.all (fun e => decide (e.length = 128))
  | .staleReread q entry => decide (q < 64) && decide (entry.length = 128)
  | .staleDoorbell q => decide (q < 64)
  | .entryStart q seq => decide (q < 64) && decide (seq < 4294967296)
  | .entryComplete q seq => decide (q < 64) && decide (seq < 4294967296)
  | .cqHeadWrite q val => decide (q < 64) && decide (val < 4294967296)
  | .qpEnable q _ => decide (q < 64)
  | .qpReset q => decide (q < 64)
  | .qpDropHeld q => decide (q < 64)
  | .coalesceDelayExpiry v => decide (v < 64)
  | .reattach val => decide (val < 4294967296)
  | .linkSignalDetect link => decide (link < 32)
  | .linkTrainingDone link => decide (link < 32)
  | .linkBringupTimeout link => decide (link < 32)
  | .linkRetryTimer link => decide (link < 32)
  | .ident link _ => decide (link < 32)
  | .proof link _ => decide (link < 32)
  | .linkMismatchRetry link => decide (link < 32)
  | .linkFecRateCheck link _ _ => decide (link < 32)
  | .dataFlit link raw _ => decide (link < 32) && decide (raw.length = 640)
  | .nakFlit link _ => decide (link < 32)
  | .flitAckTimeout link => decide (link < 32)
  | .fecLockLoss link => decide (link < 32)
  | .fabRead link p => decide (link < 32) && p.wf
  | .fabWrite link p => decide (link < 32) && p.wf
  | .fabAtomic link p => decide (link < 32) && p.wf
  | .fabFence link p => decide (link < 32) && p.wf
  | .fabDoorbell link p => decide (link < 32) && p.wf
  | .fwdEntry link p => decide (link < 32) && p.wf
  | .linkState link p => decide (link < 32) && p.wf
  | .readRsp link p => decide (link < 32) && p.wf
  | .writeAck link p => decide (link < 32) && p.wf
  | .atomicRsp link p => decide (link < 32) && p.wf
  | .fenceAck link p => decide (link < 32) && p.wf
  | .doorbellAck link p => decide (link < 32) && p.wf
  | .fwdAck link p => decide (link < 32) && p.wf
  | .routeNak link p => decide (link < 32) && p.wf
  | .packetTransit link p => decide (link < 32) && p.wf
  | .remoteTimeout txn => decide (txn < 65536)
  | .unreachableMarkExpiry dst => decide (dst < 8192)
  | .remotePut q seq => decide (q < 64) && decide (seq < 4294967296)
  | .remoteGet q seq => decide (q < 64) && decide (seq < 4294967296)
  | .remoteAtomic q seq => decide (q < 64) && decide (seq < 4294967296)
  | .fabIsolate _ val => decide (val < 4294967296)
  | .fabRetrain _ val => decide (val < 4294967296)
  | .rdmaWrite f => f.wf
  | .rdmaRead f => f.wf
  | .rdmaSend f => f.wf
  | .roceAck qpn psn => decide (qpn < 16777216) && decide (psn < 16777216)
  | .roceNak qpn psn => decide (qpn < 16777216) && decide (psn < 16777216)
  | .rnrNak qpn => decide (qpn < 16777216)
  | .roceRetryTimeout qpn => decide (qpn < 16777216)
  | .cnp qpn => decide (qpn < 16777216)
  | .congestionRecovery qpn => decide (qpn < 16777216)
  | .pfcPause port prio _ => decide (port < 2) && decide (prio < 8)
  | .nonRoceFrame port => decide (port < 2)
  | .netPostWrite q seq => decide (q < 64) && decide (seq < 4294967296)
  | .netPostRead q seq => decide (q < 64) && decide (seq < 4294967296)
  | .netPostSend q seq => decide (q < 64) && decide (seq < 4294967296)
  | .netPostRecv q seq => decide (q < 64) && decide (seq < 4294967296)
  | .qpcLoad _ val => decide (val < 4294967296)
  | .qpcReset _ val => decide (val < 4294967296)
  | .qpcForceError _ val => decide (val < 4294967296)
  | .powerHint q seq => decide (q < 64) && decide (seq < 4294967296)
  | .powerHintWaitTimeout q seq => decide (q < 64) && decide (seq < 4294967296)
  | .dieIdleTimer die => decide (die < 192)
  | .linkWakeDetect link => decide (link < 32)
  | .pwrPadrel _ val => decide (val < 4294967296)
  | .pwrLinkwake _ val => decide (val < 4294967296)
  | .linkwakePatternEnd link => decide (link < 32)
  | .pwrEnAssert slot => decide (slot < 8)
  | .railPowerGoodLost rail => decide (rail < 16)
  | .capsuleLoad _ val _ => decide (val < 4294967296)
  | .leaseAcquire holder n => decide (holder < 16) && decide (n < 5)
  | .leaseRenew holder n => decide (holder < 16) && decide (n < 5)
  | .leaseRelease holder n => decide (holder < 16) && decide (n < 5)
  | .leaseExpiry n u => decide (n < 5) && decide (u < 6144)
  | .watchdogExpiry core => decide (core < 8)
  | .coreParityError core => decide (core < 8)
  | .elTailWrite _ val => decide (val < 4294967296)
  | .modeRequest _ val => decide (val < 4294967296)
  | .writeReg _ _ val => decide (val < 4294967296)
  | .getReport nonce => decide (nonce.length = 32)
  | .rdmaReadResponse qpn _ => decide (qpn < 16777216)
  | .netLinkChange port _ => decide (port < 2)
  | .idleFlit link _ _ _ => decide (link < 32)
  | .badAccess _ _ _ _ | .budgetPeriodBoundary _ | .layPersistDone _ | .retrainTimer _ | .trnRunDone _ | .veRowBoundary _ | .windowRead _ _
  | .windowWrite _ _ | .listenWindow _ | .wakeInNLow _ | .wakeStepReady _ _ | .wakeStepTimeout _ _ | .pwrCmdHold _ | .pwrCmdOff _
  | .pwrCmdWake _ | .clearStuck _ | .powerCycle _ | .pmbusTransactionDone _ | .avsAckTimeout _ | .sensorUpdate _ _ _ _ _ _ | .regulatorRead _
  | .inputCurrentCheck _ _ | .holddownEnd _ | .thermNExternal _ | .capsulePersistDone _ | .startupStepDone _ _ | .idObjFirmware _ | .idObjEnrol _
  | .idObjReport _ | .idObjCert _ | .readReg _ _ _ | .loadObject _ _ _ _ | .setMode _ | .hostWake _ | .layCopyDone
  | .layVerifyDone | .layDrainTimeout | .layDrainDone | .layApplyDone | .trnRunTimeout | .vadd | .vsub
  | .vmul | .vfma | .vmin | .vmax | .vabs | .vneg | .vlogic
  | .vcmp | .vsel | .vmov | .vsplat | .viota | .vperm | .vcompress
  | .vexpand | .ld | .st | .ldk | .scmp | .ldx | .lds
  | .sts | .red | .rget | .xset | .xalu | .kop | .vfn
  | .attach | .detach | .heartbeat | .heartbeatTimeout | .orphanExpiry | .perstNAssert | .perstNDeassert
  | .pcieLinkDown | .pcieLinkDown1ms | .functionLevelReset | .keepExpiry | .runDozeTimer | .dozeWatchTimer | .quiesceTimeout
  | .entryStepDone | .alarmExpiry | .wakeRetryDelay | .pwrEnDeassert | .inputPowerApplied | .clusterReadyTimeout | .getCert
  | .getStatus | .mctpResponseTimeout | .inputUndervoltage | .inputOvervoltage | .inputRestored | .holdupExhausted | .clusterRestartReady
  | .avsAcknowledged | .wakeOutNRelease => true

end Sys2Proof
end

