-- ==== Sys2Proof/Safety.lean ====
section
/-! DEFINITION. The terms in which statements about the block are made: completion of a command, the
conditions under which an access is carried out at once, how an entry ends, and the canonical form of
memory. -/

namespace Sys2Proof.Machine
open Sys2Proof

/-- Every byte of memory, its check bytes and the state of its segments are as before. -/
abbrev SameMem (a b : Blk) : Prop := b.mem = a.mem

/-- A command completes: it answers a next state, of whose block `P` holds, and the queue is as it was. -/
def Completes (c : Instr) (s : State) (P : Blk → Prop) : Prop :=
  ∃ t, exec c s = Host.Outcome.next t ∧ t.pending = s.pending ∧ P t.blk

/-- The host port answers and carries an access out at once: RUN or DOZE, and nothing posted waits
(R287, R366, R450). -/
def Blk.hostOn (b : Blk) : Bool := b.att.ready && (b.pwr.state == .run || b.pwr.state == .doze) && !b.postedHeld

/-- An access by a path is carried out at once. -/
def Blk.pathOn (b : Blk) (p : Path) : Bool :=
  match p with
  | .host => b.hostOn
  | .sideband => b.sideLive
  | _ => b.hubUp

/-- What an access by a path works on: the host's has its link in L0. -/
def Blk.atPort (b : Blk) (p : Path) : Blk :=
  match p with
  | .host => b.linkSeen
  | _ => b

/-- The module memory that an access itself reads or writes need not be waited for (R81, R101, R108, R457). -/
def Blk.cmdFree (b : Blk) (i : Instr) : Bool := (b.cmdReach i).2 == 0 || !b.mustWait cHub (b.cmdReach i).1 (b.cmdReach i).2

/-- The block in which a window read of `n` bytes reads: their slots are charged (R88, R90). -/
abbrev Blk.winCharged (b : Blk) (off n : Nat) : Blk := (b.atPort .host).chargeRange cHub (b.winBase + off) n false

/-- Registers of which a write does more than R8 says, by the tables of their blocks, or less (R9). -/
def commandReg (off : Nat) : Bool :=
  let x := off % 0x1000
  sdgField off
    || [bIDENT + 0x100, bIDENT + 0x104, bATTACH + 4, bATTACH + 0xC, bATTACH + 0x18, bWINDOW + 0x180, oLAY_CTRL, bPOWER + 4,
        bPOWER + 0x40, bPOWER + 0x44, bPOWER + 0x180, bERRLOG + 8, bFABRIC + 4, bNET + 4, bNET + 0x70, bNET + 0x180,
        oCAP_CTRL].contains off
    || (decide (bQUEUES ≤ off) && decide (off < 0x50000) && [0x14, 0x18, 0x20, 0x180].contains x)
    || (decide (bSTACK ≤ off) && decide (off < bTRAIN) && [4, 0x180].contains x)
    || (decide (bTRAIN ≤ off) && decide (off < bSDG))
    || (decide (bSDG + 0x80 ≤ off) && decide (off < bSDG + 0x94))

/-- R8: what bit `k` of a register holds after a write of `v`: RW and RWC bits take the value, W1C bits
written 1 clear, and the others stay. -/
def RegInfo.after (i : RegInfo) (old v k : Nat) : Bool :=
  (if (i.rw ||| i.rwc).testBit k then v.testBit k else old.testBit k) && !(i.w1c.testBit k && v.testBit k)

/-- An entry has finished with a status, and its completion is yet to be written. -/
def Finished (b : Blk) (f : Flight) (st : Nat) : Prop :=
  ∃ g, b.flight? f.q f.seq = some g ∧ g.stage = .done ∧ g.status = st

/-- An entry has finished with an inline result too. -/
def FinishedWith (b : Blk) (f : Flight) (st result : Nat) : Prop :=
  ∃ g, b.flight? f.q f.seq = some g ∧ g.stage = .done ∧ g.status = st ∧ g.result = result

/-- The newest error-log entry has a kind and a detail (R407). -/
def LastLog (a b : Blk) (kind detail : Nat) : Prop :=
  b.log.head = a.log.head + 1
    ∧ (tget LogEntry.zero (a.log.head.toNat % 2048) b.log.entries).kind = kind
    ∧ (tget LogEntry.zero (a.log.head.toNat % 2048) b.log.entries).detail = detail

/-- A block is another, but for the event messages that go out (R315): what a command leaves when it does
exactly what the first block says. -/
def EvFrame (b c : Blk) : Prop := ∃ e m, c = { b with ev := e, sent := m }

/-- No request and no precharge waits at a channel, and its die is awake (R93, R97, R107). -/
def Blk.chanQuiet (b : Blk) (ch : Nat) : Bool :=
  (b.chan ch).readQ.isEmpty && (b.chan ch).writeQ.isEmpty && (b.chan ch).portQ.isEmpty && (b.chan ch).closing.isEmpty
    && (b.die (dieOfCh ch)).sr == .awake

/-- No operation of the bank sequencer is under way, and no unit command is held. -/
def Blk.unitsIdle (b : Blk) : Bool := b.hubUp && b.cu.jobs.isEmpty && b.cu.waiting.isEmpty

/-- A command for one unit, the one of pair `m` of channel `ch`, is acted on at once when it can pay `half`
half-slots (R88, R103, R140). -/
def Blk.unitTakes (b : Blk) (ch m half : Nat) : Bool :=
  b.unitsIdle && decide (ch < 384) && decide (m < 16) && (b.unit (unitNo ch m)).seq.isNone && !(b.pair ch m).urgent
    && (b.pay ch cCompute half).isSome

/-- A unit is about to take the step `w` of its sequence `x` (R144). -/
def Blk.stepsAt (b : Blk) (u w : Nat) (x : SeqSt) : Bool :=
  b.hubUp && (b.unit u).seq == some x && (b.unit u).entry x == w && b.stepReady u

/-- A unit in the step of a sequence. -/
def UnitSt.stepping (x : UnitSt) (s : SeqSt) : UnitSt :=
  { x with seq := some { s with inStep := true, begun := true, preempted := false }, asked := none }

/-- The groups of a row that a unit may read have data in order: the last row of R77's table, or, reading zero,
zeros (row 3). -/
def Blk.rowClean (b : Blk) (u side row gf gc : Nat) : Bool :=
  (List.range gc).all (fun k =>
    let g := gidOf (unitCh u) (unitBank u side) row (gf + k)
    let row := gFind g (groupData b.mem.cells g) (groupMargin b.mem.cells g true)
    row == 5 || (row == 3 && groupData b.mem.cells g == zeros 256))

/-- The column words of groups of a row, with their column numbers. -/
def Blk.rowWords (b : Blk) (u side row gf gc : Nat) : List (Nat × Bytes) :=
  (List.range gc).flatMap (fun k => (List.range 8).map (fun c =>
    (8 * (gf + k) + c, bytesAt (groupData b.mem.cells (gidOf (unitCh u) (unitBank u side) row (gf + k))) (32 * c) 32)))

/-- R154, R169 to R171: what a BANK_EWISE over the formats of its entry must meet. -/
def Blk.ewAccepts (b : Blk) (f : Flight) : Bool :=
  let e := f.raw
  let h := eHandle e
  let op := fld e 0x20 1
  let fi := fld e 0x21 1
  let fo := fld e 0x22 1
  let ins := if op = 3 then [h 0] else [h 0, h 1]
  let n := b.countOf f (h 2)
  let ds := (ins ++ [h 2]).filterMap (b.fdesc f)
  decide (op ≤ 3) && (op != 3 || h 1 == 0) && (op == 3 || h 1 != 0) && h 3 == 0 && decide (fld e 0x23 1 < 8) && zeroAt e 0x30 80
    && ewPair fi fo && ins.all (fun x => b.handleOk f x fi false && b.countOf f x == n) && b.handleOk f (h 2) fo true
    && b.plainOut f (h 2) && b.unitTensors (ds.map (fun d => (d, true))) == stOK
    && (b.rowSets ds (fmtBits fi / 8) ((List.range n).map (fun i => ds.map (fun _ => i)))).any (fun sets => !(ewProg f sets).isEmpty)

/-- R154, R172, R174: what a BANK_NORM must meet. -/
def Blk.normAccepts (b : Blk) (f : Flight) : Bool :=
  let e := f.raw
  let h := eHandle e
  let fm := Norm.fmt e
  let n := Norm.d e
  let ins := [h 0, h 1] ++ (if h 3 = 0 then [] else [h 3])
  let sets := (List.range (Norm.rows e)).map (fun r => b.normSets f r)
  let stack := ((sets.getD 0 none).getD []).head?.map (fun x => unitStack x.unit)
  decide (Norm.kind e ≤ 1) && zeroAt e 0x22 2 && [cBF16, cE4M3, cE5M2].contains fm && decide (1 ≤ Norm.rows e)
    && decide (Norm.rows e ≤ 4096) && decide (1 ≤ n) && multOf n (groupLen fm) && decide (n ≤ 1048576)
    && (f32 (Norm.eps e)).isFin && !(f32 (Norm.eps e)).isNeg && zeroAt e 0x30 80
    && ins.all (fun x => b.handleOk f x fm false) && b.handleOk f (h 2) fm true && b.plainOut f (h 2)
    && b.countOf f (h 0) == Norm.rows e * n && b.countOf f (h 1) == n && b.countOf f (h 2) == Norm.rows e * n
    && (h 3 == 0 || b.countOf f (h 3) == n) && sets.all Option.isSome
    && sets.all (fun s => (s.getD []).all (fun x => some (unitStack x.unit) == stack))
    && b.unitTensors ((b.normDescs f).map (fun d => (d, true))) == stOK

/-- Work on tensors has met no error and waits for nothing, and what it writes on other modules has a path. -/
def Wk.goesOn (w : Wk) : Bool := !w.bad && w.need.isEmpty && !w.stall && !w.sent.bad

/-- A whole tensor can be read at once and without an error by the bank sequencer. -/
def Blk.readsAll (b : Blk) (f : Flight) (d : Desc) : Bool :=
  ((Wk.bank b f).tensor d).1.goesOn

/-- Reading it changes nothing but the counters of its channels: no byte is corrected and nothing is logged. -/
abbrev Blk.readsClean (b : Blk) (f : Flight) (d : Desc) : Prop := { ((Wk.bank b f).tensor d).1.b with chans := b.chans } = b

/-- What a BANK_GEMV without a select mask reads once its plan is at hand, with the checks of its output. -/
def Blk.gemvWork (b : Blk) (f : Flight) (xd yd : Desc) : Wk := ((Wk.bank b f).tensor xd).1.outsOk [yd]

/-- That work changes nothing but the counters of its channels. -/
abbrev Blk.gemvReadsClean (b : Blk) (f : Flight) (xd yd : Desc) : Prop :=
  { (b.gemvWork f xd yd).b with chans := b.chans } = b

/-- What a two-pass BANK_ATTN without options reads once its block table is at hand. -/
def Blk.attnWork (b : Blk) (f : Flight) (qd : Desc) : Wk :=
  ((Wk.bank b f).rawBytes (some qd)).1.outsOk (b.fdesc f (eHandle f.raw 2)).toList

/-- That work changes nothing but the counters of its channels. -/
abbrev Blk.attnReadsClean (b : Blk) (f : Flight) (qd : Desc) : Prop := { (b.attnWork f qd).b with chans := b.chans } = b

/-- The raw elements of that tensor as bytes. -/
def Blk.tensorBytes (b : Blk) (f : Flight) (d : Desc) : Bytes := ((Wk.bank b f).tensor d).2.flatMap (fun x => leBytes 1 x.raw)

/-- No operation of the bank sequencer but the one given, and no unit command is held. -/
def Blk.onlyJob (b : Blk) (j : Job) : Bool := b.hubUp && b.cu.jobs == [j] && b.cu.waiting.isEmpty

/-- The vector engine stands at an instruction with an opcode, in a run `r` with the registers `c`, whose
vector length is that of the cursor (R220). -/
def Blk.veAt (b : Blk) (op : Nat) (r : VeRun) (c : VeCtx) : Bool :=
  b.hubUp && b.hub.current.any (fun x => x.1 == r && { x.2 with vl := r.vl } == c) && (b.flight? r.q r.seq).isSome
    && r.phase != 3 && r.ins.op == op

/-- The registers of the work in hand. -/
def Blk.veCtx (b : Blk) : VeCtx := (b.hub.current.map (fun x => x.2)).getD .reset

/-- The values of lane `n` of the three sources of an instruction. -/
def VeRun.inA (r : VeRun) (c : VeCtx) (n : Nat) : Ex := decElem r.prog.vfmt (c.lane r.prog.vfmt r.ins.a n)
def VeRun.inB (r : VeRun) (c : VeCtx) (n : Nat) : Ex := c.srcB r.prog.vfmt r.ins n
def VeRun.inC (r : VeRun) (c : VeCtx) (n : Nat) : Ex := decElem r.prog.vfmt (c.lane r.prog.vfmt r.ins.c n)

/-- R217, R218: what a vector destination holds after an instruction whose active lanes take `f n`; lanes at
or above the vector length are zero, and the other registers stay. -/
abbrev LanesAre (c d : VeCtx) (r : VeRun) (k : Nat) (f : Nat → Nat) : Prop :=
  (∀ n, n < vlMax r.prog.vfmt → d.lane r.prog.vfmt r.ins.d n
    = if c.vl ≤ n then 0 else if (c.kreg k).testBit n then f n % 2 ^ fmtBits r.prog.vfmt else if r.ins.z then 0 else c.lane r.prog.vfmt r.ins.d n)
  ∧ (∀ j, j < 32 → j ≠ r.ins.d → tget 0 j d.v = tget 0 j c.v) ∧ d.x = c.x ∧ d.k = c.k ∧ d.ra = c.ra

/-- The run goes to its next instruction with flags added; memory and registers of the block stay. -/
abbrev RunsOn (a b : Blk) (r : VeRun) (fl : Flags) : Prop :=
  b.hub.current.map (fun x => x.1) = some { r.next with flags := r.flags ||| fl } ∧ SameMem a b ∧ b.regs = a.regs

/-- Flags over the active lanes of a mask. -/
def VeCtx.gather (c : VeCtx) (k : Nat) (f : Nat → Flags) : Flags := (c.lanes k).foldl (fun a n => a ||| f n) 0

/-- An instruction whose active lanes take a value rounded once into vfmt, with NAN_SEEN for its inputs (R219). -/
abbrev LanesRound (a b : Blk) (r : VeRun) (c : VeCtx) (f : Nat → Ex) (inputs : Nat → List Ex) : Prop :=
  LanesAre c b.veCtx r r.ins.k (fun n => (encElem r.prog.vfmt (f n)).1)
  ∧ RunsOn a b r (c.gather r.ins.k (fun n => (encElem r.prog.vfmt (f n)).2 ||| nanFlags (inputs n)))

/-- R271: the checks of the streams that a program writes. -/
def Blk.vecOuts (b : Blk) (f : Flight) (p : VProg) : Wk :=
  (Wk.hub b f 6).outsOk ((p.streams opsWrite).eraseDups.filterMap (fun s => b.fdesc f (eHandle f.raw s)))

/-- Memory is in its canonical form. -/
abbrev State.memWf (s : State) : Prop := Memory.wf s.blk.mem.cells = true

/-- A part of an entry's work is done: the entry ends after its last part, else it stands before the next one; its
inline result so far is `result`, and memory is what the part's stores left. -/
abbrev PartDone (b : Blk) (f : Flight) (w : Wk) (last : Bool) (result : Nat) : Prop :=
  (b.flight? f.q f.seq).map (fun g => (g.stage, g.result, g.progress))
      = some (if last then (.done, result, f.progress) else (.running, result, f.progress + 1))
    ∧ b.mem = w.b.mem

/-- An SFU_ROW with an operation code whose turn it is, of at least one row, that meets R235 and R236 and stands before
its first row. -/
def Blk.sfuReady (b : Blk) (q seq op : Nat) (f : Flight) : Bool :=
  b.hubUp && b.running? q seq == some f && eOpcode f.raw == 0x22 && Sfu.op f.raw == op && b.sfuTurn f && f.progress == 0
    && sfuFields f.raw && Sfu.rows f.raw != 0 && b.sfuTensors f && (b.sfuOuts f).goesOn

/-- A row of an SFU_ROW is done: the row, and a fully masked or empty one, are counted (R236, R246). -/
abbrev SfuDone (b : Blk) (f : Flight) (x : Wk × Bool) : Prop :=
  PartDone b f x.1 (decide (Sfu.rows f.raw ≤ f.progress + 1)) (f.result + (1 + b2n x.2 * 2 ^ 32))

/-- A packet of a row's type for this module (R332). -/
abbrev Blk.arrived (b : Blk) (typ : Nat) (p : Packet) : Packet := { p with typ := typ, dst := b.struc.modNum }

/-- A request that has arrived on a link that is up, well formed, and that need not be held (R46, R81, R334). -/
def Blk.homeNow (b : Blk) (l : Nat) (p : Packet) : Bool :=
  b.hubUp && (b.link l).st == .up && pktForm p && !b.remoteHeld && !b.heldBefore p
    && ((b.reqRange p).2 == 0 || decide (4096 < (b.reqRange p).2) || !b.mustWait cRemote (b.reqRange p).1 (b.reqRange p).2)

/-- A response has arrived on a link that is up, well formed, to a transaction that is outstanding (R335). -/
def Blk.answers (b : Blk) (l : Nat) (p : Packet) (t : Txn) : Bool :=
  b.hubUp && (b.link l).st == .up && pktForm p && b.fab.txns.find? (fun x => x.num == p.txn) == some t

/-- What a response of a request's kind leaves: its entry takes the data, or the first error (R332, R335). -/
def Blk.answered (b : Blk) (t : Txn) (p : Packet) : Blk :=
  if isErr p.qs then b.failTxn t p.qs else (b.endTxn t).updFlight t.q t.seq (fun f => f.took t p)

/-- An inbound frame that its context takes now: READY, on the port of the context, which is up, the next PSN, and
nothing that it must wait for (R347, R349, R350). -/
def Blk.frameNow (b : Blk) (op : Nat) (f : RFrame) : Bool :=
  b.hubUp && (b.qpc f.qpn).phase == .ready && (b.qpc f.qpn).port == f.port && b.portUp f.port && !b.remoteHeld
    && b.held.all (fun h => match h with | .rdma _ g => g.qpn != f.qpn | _ => true) && f.psn == (b.qpc f.qpn).rqPsn
    && ((b.frameRange op f).2 == 0 || !b.mustWait cRemote (b.frameRange op f).1 (b.frameRange op f).2)

/-- A frame with an ECN mark is answered with a CNP (R347). -/
def Blk.ecnSeen (b : Blk) (f : RFrame) : Blk := if f.ecn then b.frame f.qpn 7 0 [] else b

/-- A context as the first frame of a message leaves it (R349). -/
def QpcSt.begun (x : QpcSt) (f : RFrame) : QpcSt := if RPos.starts f.pos then { x with va := f.va, left := f.len } else x

/-- The bytes of a SEND so far, with those of this frame (R350). -/
def QpcSt.sent (x : QpcSt) (f : RFrame) : Bytes := (if RPos.starts f.pos then [] else x.sendBuf) ++ f.payload

/-- A context after a post has gone on the wire, with the post (R351). -/
def QpcSt.withPost (x : QpcSt) (q seq k n a : Nat) : QpcSt :=
  { x with
    sqPsn := psnAdd (psnAdd x.sqPsn (x.frames n - 1)) 1
    posts := x.posts ++ [⟨q, seq, k, n, a, x.sqPsn, psnAdd x.sqPsn (x.frames n - 1)⟩] }

/-- A NET_POST whose turn it is on a READY context of its pair, of valid form, over bytes that the pair owns
(R351). -/
def Blk.postNow (b : Blk) (q seq k : Nat) (f : Flight) : Bool :=
  b.hubUp && b.running q seq 0x38 == some f && f.progress == 0 && nOp f.raw == k && !b.postWaits f && netForm f.raw
    && (b.qpc (nQpn f.raw)).phase == .ready && (b.qpc (nQpn f.raw)).owner == q
    && (nLen f.raw == 0 || b.rangeOk q (nLocal f.raw) (nLen f.raw))

/-- The state after a number of steps, where each answers a next state. -/
def runSteps : Nat → State → Option State
  | 0, s => some s
  | n + 1, s =>
    match step s with
    | .next t => runSteps n t
    | _ => none

end Sys2Proof.Machine
end

