-- ==== Sys2Proof/Certificates/Slice0/Obligations.lean ====
section
/-! DEFINITION. The statements about the block, from the numbered rules of the spec. A clause of the form
`Completes c s P` says that the command `c` at `s` answers a next state of which `P` holds, and
`EvFrame t` that it leaves `t` but for event messages. -/

open Sys2Proof Sys2Proof.Machine

/-- A step is exec of the front command on the queue's rest; an empty queue idles (log 4). -/
def Obligations.StepRunsFront : Prop :=
  (∀ (c : Instr) (rest : List Instr) (b : Blk), step ⟨c :: rest, b⟩ = exec c ⟨rest, b⟩)
  ∧ (∀ b : Blk, step ⟨[], b⟩ = .next ⟨[], b⟩)

/-- No command stops the block: exec answers a next state whatever its operands and the state. -/
def Obligations.EveryCommandCompletes : Prop :=
  ∀ (c : Instr) (s : State), ∃ b : Blk, exec c s = .next { s with blk := b }

/-- Every command answers a next state and leaves the queue's rest alone. -/
def Obligations.QueueDrainsInOrder : Prop :=
  ∀ (s : State) (n : Nat), ∃ t, runSteps n s = some t ∧ t.pending = s.pending.drop n

/-- The state that State.reset is (log 1). -/
def Obligations.ResetState : Prop :=
  (∀ off : Nat, State.reset.blk.reg off = regReset off % 2 ^ 32)
  ∧ State.reset.pending = [] ∧ State.reset.blk.flights = [] ∧ State.reset.blk.pwr.state = .run
  ∧ State.reset.blk.mode = .startup ∧ State.reset.blk.struc = .factory ∧ State.reset.blk.mem.cells = []
  ∧ State.reset.blk.log.unread = 0 ∧ State.reset.blk.time = 0 ∧ State.reset.blk.att.phase = .detached

/-- The two invariants hold at reset. -/
def Obligations.ResetInvariants : Prop :=
  State.reset.memWf ∧ State.reset.blk.log.unread ≤ 2048

/-- Memory.wf is kept by every step. -/
def Obligations.StepKeepsMemoryWf : Prop :=
  ∀ s t : State, s.memWf → step s = .next t → t.memWf

/-- R409: the bound on unread entries is kept by every step. -/
def Obligations.StepKeepsLogBound : Prop :=
  ∀ s t : State, s.blk.log.unread ≤ 2048 → step s = .next t → t.blk.log.unread ≤ 2048

/-- Reading any cell after a write of one. -/
def Obligations.CellReadAfterWrite : Prop :=
  ∀ (m : Memory) (k : Nat) (v : Byte), Memory.wf m = true →
    Memory.wf (cellPut m k v) = true ∧ ∀ j, cellGet (cellPut m k v) j = if j = k then v else cellGet m j

/-- R73, R74, R77: what a whole-group write leaves, a read delivers. -/
def Obligations.OpenGroupRoundTrip : Prop :=
  ∀ (b : Blk) (rq : Req) (g : Nat) (d : Bytes) (gen : Nat) (mpa : Option Nat), Memory.wf b.mem.cells = true → g < 0xC0000000 →
      d.length = 256 →
    (readOpen (putOpen b g d 1 gen) rq g mpa = ⟨putOpen b g d 1 gen, stOK, d, false⟩
      ∧ ∀ h, h < 0xC0000000 → h ≠ g → groupData (putOpen b g d 1 gen).mem.cells h = groupData b.mem.cells h)

/-- R6: BAD_ACCESS. -/
def Obligations.BadAccesses : Prop :=
  ∀ (s : State) (p : Path) (w : Bool) (off n : Nat), s.blk.pathOn p = true → reaches p.code off = true → accessOk off n = false →
    Completes (.badAccess p w off n) s (fun b =>
      EvFrame ((s.blk.atPort p).logE kBAD_ACCESS { path := p.code, addr := some off }) b
        ∧ b.regs = s.blk.regs ∧ (p = .host → w = false → .regRead 0 ∈ b.sent)
        ∧ (s.blk.logUp = true → LastLog s.blk b kBAD_ACCESS 0))

/-- R9: SDG_WRITE_REFUSED. -/
def Obligations.SdgWrites : Prop :=
  ∀ (s : State) (p : Path) (off v : Nat), s.blk.pathOn p = true → reaches p.code off = true → sdgField off = true →
    Completes (.sdgWriteRefused p off v) s (fun b =>
      EvFrame ((s.blk.atPort p).logE kSDG_WRITE { path := p.code, addr := some off }) b ∧ b.regs = s.blk.regs
        ∧ (s.blk.logUp = true → LastLog s.blk b kSDG_WRITE 0
          ∧ (tget LogEntry.zero (s.blk.log.head.toNat % 2048) b.log.entries).addr = off
          ∧ (tget LogEntry.zero (s.blk.log.head.toNat % 2048) b.log.entries).path = p.code))

/-- R5, R7, R8: REGISTER_WRITE. -/
def Obligations.RegisterWrites : Prop :=
  (∀ (s : State) (p : Path) (off v : Nat) (i : RegInfo), s.blk.pathOn p = true → reaches p.code off = true → off % 4 = 0 →
      commandReg off = false → (p = .sideband → off < 0x104 ∨ 0x114 ≤ off) → regInfo off = some i →
    Completes (.registerWrite p off false v) s (fun b =>
      (∀ k, k < 32 → (b.reg off).testBit k = i.after (s.blk.reg off) v k) ∧ (∀ o, o ≠ off → b.reg o = s.blk.reg o)
        ∧ SameMem s.blk b ∧ b.flights = s.blk.flights ∧ b.pwr = s.blk.pwr))
  ∧ (∀ (s : State) (p : Path) (off v : Nat) (i j : RegInfo), s.blk.pathOn p = true → reaches p.code off = true →
      reaches p.code (off + 4) = true → off % 8 = 0 → isWide64 off = true → p ≠ .sideband →
      commandReg off = false → commandReg (off + 4) = false → regInfo off = some i → regInfo (off + 4) = some j →
    Completes (.registerWrite p off true v) s (fun b =>
      (∀ k, k < 32 → (b.reg off).testBit k = i.after (s.blk.reg off) v k
        ∧ (b.reg (off + 4)).testBit k = j.after (s.blk.reg (off + 4)) (v / 2 ^ 32) k)
        ∧ (∀ o, o ≠ off → o ≠ off + 4 → b.reg o = s.blk.reg o) ∧ SameMem s.blk b))
  ∧ (∀ (s : State) (p : Path) (off v : Nat), s.blk.pathOn p = true → off % 4 = 0 → off < 0x1000000 → commandReg off = false →
      (p = .sideband → off < 0x104 ∨ 0x114 ≤ off) → regInfo off = none →
    Completes (.registerWrite p off false v) s (EvFrame (s.blk.atPort p)))

/-- R51 to R56: commits. -/
def Obligations.Commits : Prop :=
  (∀ (s : State) (p : Path) (c : CBlk) (v : Nat), s.blk.pathOn p = true → reaches p.code (commitBase c + 0x180) = true →
      c ∈ commitBlocks → v < 2 ^ 32 → v / 65536 = ((s.blk.commitSt c).gen.toNat + 1) % 65536 → (s.blk.commitSt c).pend = none →
      s.blk.lay.phase ≠ .applying → v % 65536 < 2 ^ (commitGroups c).length →
      (∀ g, g < (commitGroups c).length → v.testBit g = true → (s.blk.atPort p).groupOk c (v % 65536) g = true) →
    Completes (.commit p c v) s (EvFrame ((s.blk.atPort p).setCommit c { s.blk.commitSt c with
      captured := (groupOffs c (v % 65536)).map (fun o => (o, BitVec.ofNat 32 (s.blk.reg (commitBase c + o))))
      pend := some (BitVec.ofNat 16 (v / 65536)), groups := v % 65536, result := 1, reason := 0 })))
  ∧ (∀ (s : State) (p : Path) (c : CBlk) (v : Nat), s.blk.pathOn p = true → reaches p.code (commitBase c + 0x180) = true →
      c ∈ commitBlocks → v < 2 ^ 32 → (s.blk.atPort p).commitReason c (v / 65536) (v % 65536) ≠ 0 →
    Completes (.commit p c v) s (fun b =>
      EvFrame (((s.blk.atPort p).setCommit c { s.blk.commitSt c with
          result := 2, reason := (s.blk.atPort p).commitReason c (v / 65536) (v % 65536) }).logE kCOMMIT_REF
        { path := p.code, detail := (s.blk.atPort p).commitReason c (v / 65536) (v % 65536) }) b
      ∧ (s.blk.lay.phase = .applying → (b.commitSt c).reason = 4)
      ∧ (s.blk.lay.phase ≠ .applying → v / 65536 ≠ ((s.blk.commitSt c).gen.toNat + 1) % 65536 → (b.commitSt c).reason = 1)
      ∧ (s.blk.lay.phase ≠ .applying → v / 65536 = ((s.blk.commitSt c).gen.toNat + 1) % 65536 → (s.blk.commitSt c).pend ≠ none →
          (b.commitSt c).reason = 2)
      ∧ (v / 65536 = ((s.blk.commitSt c).gen.toNat + 1) % 65536 → (s.blk.commitSt c).pend = none →
          s.blk.lay.phase ≠ .applying → 2 ^ (commitGroups c).length ≤ v % 65536 → (b.commitSt c).reason = 5)))
  ∧ (∀ (s : State) (p : Path) (c : CBlk) (v : Nat), s.blk.pathOn p = true → reaches p.code (commitBase c + 0x180) = true →
      c ∈ commitBlocks → v < 2 ^ 32 → v % 65536 = 0 → v / 65536 = ((s.blk.commitSt c).gen.toNat + 1) % 65536 →
      (s.blk.commitSt c).pend = none → s.blk.lay.phase ≠ .applying →
    Completes (.commit p c v) s (EvFrame ((s.blk.atPort p).setCommit c { s.blk.commitSt c with
      captured := groupOffs c 0 |>.map (fun o => (o, BitVec.ofNat 32 (s.blk.reg (commitBase c + o))))
      pend := some (BitVec.ofNat 16 (v / 65536)), groups := 0, result := 1, reason := 0 })))
  ∧ (∀ (s : State) (m : Nat), s.blk.ticking = false → Completes (.budgetPeriodBoundary m) s (EvFrame s.blk))
  ∧ (∀ (s : State) (m : Nat) (c : CBlk) (g : BitVec 16), s.blk.ticking = true → s.blk.cu.units = [] → s.blk.cu.waiting = [] →
      s.blk.cu.jobs = [] → s.blk.mem.fixes = [] →
      (s.blk.chans.all (fun x => x.2.readQ.isEmpty && x.2.writeQ.isEmpty && x.2.portQ.isEmpty && x.2.closing.isEmpty)) = true →
      s.blk.sdg.capNext = none → s.blk.sdg.lower = none → s.blk.held = [] → s.blk.lay.phase ≠ .draining → c ∈ commitBlocks →
      (s.blk.commitSt c).pend = some g →
    Completes (.budgetPeriodBoundary m) s (fun b => b.time = s.blk.time + 1
      ∧ (b.commitSt c).gen = g ∧ (b.commitSt c).pend = none ∧ (b.commitSt c).result = 0 ∧ b.flights = s.blk.flights
      ∧ b.mem.cells = s.blk.mem.cells))

/-- R42 to R49: the steps of a load and the flash copies. -/
def Obligations.LayoutLoads : Prop :=
  (∀ (s : State) (p : Path) (v : Nat), s.blk.pathOn p = true → reaches p.code oLAY_CTRL = true → v.testBit 0 = true →
      (s.blk.pwr.state = .run ∨ s.blk.pwr.state = .doze) → s.blk.lay.phase = .idle → s.blk.laySrc % 64 = 0 → 64 ≤ s.blk.layLen → s.blk.layLen ≤ 4194304 →
      s.blk.struc.inGuarded s.blk.laySrc s.blk.layLen = true →
    Completes (.layLoad p v) s (fun b => b.lay = { s.blk.lay with phase := .copying, keys := s.blk.opKeys, cand := none, drained := false }
      ∧ b.struc = s.blk.struc ∧ b.mem = s.blk.mem ∧ b.pwr.state = .run ∧ b.flights = s.blk.flights))
  ∧ (∀ s : State, s.blk.hubUp = true → s.blk.lay.phase = .copying → s.blk.mustWait cHub s.blk.laySrc s.blk.layLen = false →
      (readRange s.blk rqLay s.blk.laySrc s.blk.layLen).st = stOK →
    Completes .layCopyDone s (fun b => b.lay = { s.blk.lay with
      phase := .verifying, buf := (readRange s.blk rqLay s.blk.laySrc s.blk.layLen).data }))
  ∧ (∀ s : State, s.blk.hubUp = true → s.blk.lay.phase = .verifying →
    Completes .layVerifyDone s (fun b => match imageCheck (s.blk.imgCtx s.blk.lay.keys true) s.blk.lay.buf s.blk.lay.buf.length with
      | some r => b.lay = { s.blk.lay with phase := .idle, buf := [] } ∧ b.struc = s.blk.struc ∧ b.commits = s.blk.commits
          ∧ b.mem = s.blk.mem ∧ b.reg (bLAYOUT + 0x20) = (r.reason + 256 * (r.sec % 256)) % 2 ^ 32 ∧ b.reg (bLAYOUT + 0x24) = r.off % 2 ^ 32
          ∧ (b.reg oLAY_EVENTS).testBit 1 = true ∧ (s.blk.logUp = true → LastLog s.blk b kLAYOUT_REJ r.reason)
      | none => b.lay = { s.blk.lay with phase := .draining, cand := some (strucOf s.blk.lay.buf), drained := false }
          ∧ b.struc = s.blk.struc ∧ b.regs = s.blk.regs))
  ∧ (∀ s : State, s.blk.hubUp = true → s.blk.lay.phase = .draining → s.blk.flights = [] →
    Completes .layDrainDone s (fun b => b.lay = { s.blk.lay with drained := true } ∧ b.regs = s.blk.regs ∧ b.mem = s.blk.mem))
  ∧ (∀ s : State, s.blk.hubUp = true → s.blk.lay.phase = .draining → s.blk.flights ≠ [] → (s.blk.reg oLAY_CTRL).testBit 1 = false →
    Completes .layDrainTimeout s (fun b => b.lay = { s.blk.lay with phase := .idle, buf := [], cand := none } ∧ b.struc = s.blk.struc
      ∧ b.reg (bLAYOUT + 0x20) = 0xFF31 ∧ (b.reg oLAY_EVENTS).testBit 1 = true ∧ b.mem = s.blk.mem))
  ∧ (∀ s : State, s.blk.hubUp = true → s.blk.lay.phase = .applying → s.blk.held = [] →
    Completes .layApplyDone s (fun b => b.lay.phase = .idle ∧ b.struc = s.blk.struc ∧ (b.reg oLAY_EVENTS).testBit 0 = true))
  ∧ (∀ (s : State) (g : Nat) (img : Bytes), s.blk.hubUp = true → s.blk.lay.persisting = some (g, img) →
    Completes (.layPersistDone true) s (fun b => b.lay.persisting = none ∧ b.lay.floorGen = max s.blk.lay.floorGen g
      ∧ (s.blk.lay.olderIs0 = true → b.lay.copy0 = some (g, img) ∧ b.lay.copy1 = s.blk.lay.copy1)
      ∧ (s.blk.lay.olderIs0 = false → b.lay.copy1 = some (g, img) ∧ b.lay.copy0 = s.blk.lay.copy0)
      ∧ (b.reg oLAY_EVENTS).testBit 2 = true))
  ∧ (∀ (s : State) (g : Nat) (img : Bytes), s.blk.hubUp = true → s.blk.lay.persisting = some (g, img) →
    Completes (.layPersistDone false) s (EvFrame ({ s.blk with lay := { s.blk.lay with persisting := none } }.layEvent 3)))

/-- R67: SEGMENT_INIT_DONE. -/
def Obligations.SegmentInit : Prop :=
  ∀ (s : State) (seg cls : Nat), s.blk.hubUp = true → s.blk.struc.mapped seg = true → (s.blk.seg seg).fresh = true →
      cls < 6 → s.blk.segPays cls seg = true →
    Completes (.segmentInitDone ⟨seg, cls⟩) s (fun b => b.seg seg = { s.blk.seg seg with fresh := false } ∧ b.regs = s.blk.regs
      ∧ b.chans = (s.blk.chargeSeg cls seg 132).chans
      ∧ (∀ k, k ≠ seg → b.seg k = s.blk.seg k)
      ∧ (∀ g a, g < 0xC0000000 → s.blk.struc.groupMpa? g = some a → a / 0x200000 = seg → groupData b.mem.cells g = zeros 256)
      ∧ (s.memWf → ∀ g a, g < 0xC0000000 → s.blk.struc.groupMpa? g = some a → a / 0x200000 ≠ seg →
          groupData b.mem.cells g = groupData s.blk.mem.cells g))

/-- R78 to R82: SEAL, UNSEAL and CONVERSION_SEGMENT_DONE. -/
def Obligations.Conversions : Prop :=
  (∀ (s : State) (q seq : Nat) (f : Flight) (k : Nat), s.blk.hubUp = true → s.blk.fresh? q seq 0x40 = some f →
      s.blk.mem.convs = [] → fld f.raw 0x20 8 = k * 0x200000 → fld f.raw 0x28 8 = 0x200000 → zeroAt f.raw 0x30 80 = true →
      (s.blk.struc.rangeIn (k * 0x200000) 0x200000).any (fun r => r.convertible && r.owners.testBit q) = true →
      (s.blk.seg k).isOpen = true →
    Completes (.sealSegs q seq) s (fun b =>
      ((s.blk.seg k).fresh = true → b.seg k = ⟨false, true⟩ ∧ b.mem.cells = s.blk.mem.cells
        ∧ FinishedWith b f (finalStatus stOK f.flags f.preempted) 0)
      ∧ ((s.blk.seg k).fresh = false → b.mem = { s.blk.mem with convs := [⟨q, seq, true, [k], [], 0, 0, 0⟩] })))
  ∧ (∀ (s : State) (q seq : Nat) (f : Flight) (k : Nat), s.blk.hubUp = true → s.blk.fresh? q seq 0x41 = some f →
      s.blk.mem.convs = [] → fld f.raw 0x20 8 = k * 0x200000 → fld f.raw 0x28 8 = 0x200000 → zeroAt f.raw 0x30 80 = true →
      (s.blk.struc.rangeIn (k * 0x200000) 0x200000).any (fun r => r.convertible && r.owners.testBit q) = true →
      (s.blk.seg k).isOpen = false →
    Completes (.unsealSegs q seq) s (fun b =>
      ((s.blk.seg k).fresh = true → b.seg k = ⟨true, true⟩ ∧ b.mem.cells = s.blk.mem.cells
        ∧ FinishedWith b f (finalStatus stOK f.flags f.preempted) 0)
      ∧ ((s.blk.seg k).fresh = false → b.mem = { s.blk.mem with convs := [⟨q, seq, false, [k], [], 0, 0, 0⟩] })))
  ∧ (∀ (s : State) (q seq : Nat) (f : Flight), s.blk.hubUp = true → s.blk.fresh? q seq 0x40 = some f → s.blk.mem.convs = [] →
      fld f.raw 0x20 8 % 0x200000 ≠ 0 →
    Completes (.sealSegs q seq) s (EvFrame (s.blk.finish q seq stDESC 0 0)))
  ∧ (∀ (s : State) (q seq : Nat) (f : Flight), s.blk.hubUp = true → s.blk.fresh? q seq 0x41 = some f → s.blk.mem.convs = [] →
      fld f.raw 0x20 8 % 0x200000 = 0 → fld f.raw 0x28 8 % 0x200000 = 0 → fld f.raw 0x28 8 ≠ 0 → zeroAt f.raw 0x30 80 = true →
      (s.blk.struc.rangeIn (fld f.raw 0x20 8) (fld f.raw 0x28 8)).any (fun r => r.convertible && r.owners.testBit q) = false →
    Completes (.unsealSegs q seq) s (EvFrame (s.blk.finish q seq stRANGE 0 0)))
  ∧ (∀ (s : State) (k : Nat) (c : Conv), s.blk.hubUp = true → s.blk.mem.convs.find? (fun c => c.now.contains k) = some c →
      (c.toGuarded = true → s.blk.segTouched k = false) → s.blk.segPays cHub k = true → s.blk.held = [] →
    Completes (.conversionSegmentDone k) s (fun b => (b.seg k).isOpen = !c.toGuarded))

/-- R83, R110: SCRUB_STEP. -/
def Obligations.Scrubbing : Prop :=
  (∀ (s : State) (ch : Nat), s.blk.hubUp = true → ch < 384 → (s.blk.reg (bSC (stackOfCh ch) + 4)).testBit 0 = true →
      (s.blk.die (dieOfCh ch)).sr = .awake → s.blk.scrubSeg ch = none →
    Completes (.scrubStep ch) s (fun b => b.mem.cells = s.blk.mem.cells
      ∧ tget 0 ch b.mem.scrubPos = (tget 0 ch s.blk.mem.scrubPos % scrubLen + 1) % scrubLen
      ∧ (tget 0 ch s.blk.mem.scrubPos % scrubLen + 1 < scrubLen → b.regs = s.blk.regs)
      ∧ (tget 0 ch s.blk.mem.scrubPos % scrubLen + 1 = scrubLen →
          b.reg (bSC (stackOfCh ch) + 0xB8) = (s.blk.reg (bSC (stackOfCh ch) + 0xB8) + 1) % 2 ^ 32
          ∧ tget 0 ch b.mem.scrubFrom = s.blk.time.toNat)))
  ∧ (∀ (s : State) (ch seg : Nat), s.blk.hubUp = true → ch < 384 → (s.blk.reg (bSC (stackOfCh ch) + 4)).testBit 0 = true →
      (s.blk.die (dieOfCh ch)).sr = .awake → s.blk.scrubSeg ch = some seg →
      s.blk.bankFree ch (s.blk.scrubAt ch).2.1 cScrub 0 = true → s.blk.rowConv ch (s.blk.scrubAt ch).2.1 (s.blk.scrubAt ch).1 = false →
      s.blk.canPay ch cScrub (s.blk.scrubCost ch (s.blk.scrubAt ch).2.1 (s.blk.scrubAt ch).1 (s.blk.scrubAt ch).2.2) = true →
    Completes (.scrubStep ch) s (fun b => tget 0 ch b.mem.scrubPos = (tget 0 ch s.blk.mem.scrubPos % scrubLen + 1) % scrubLen
      ∧ b.seg seg = s.blk.seg seg))

/-- R88, R93, R97: ACT, PRE and ROW_IDLE_TIMEOUT. -/
def Obligations.RowCommands : Prop :=
  (∀ (s : State) (ch port cls bank row : Nat), s.blk.hubUp = true → chanArgs ch port cls bank row = true →
      s.blk.bankNow ch bank cls = true → s.blk.openRowOf ch bank = none → (s.blk.rowSeg ch bank row).isSome = true →
      s.blk.canPay ch cls 2 = true →
    Completes (.act ch port cls bank row) s (fun b =>
      EvFrame ((((s.blk.take ch cls 2).openBank ch bank row cls).granted ch cls port).pump ch) b
        ∧ (s.blk.chanQuiet ch = true → EvFrame (((s.blk.take ch cls 2).openBank ch bank row cls).granted ch cls port) b
          ∧ b.openRowOf ch bank = some row ∧ (∀ k, k < 32 → k ≠ bank → b.openRowOf ch k = s.blk.openRowOf ch k))))
  ∧ (∀ (s : State) (ch port cls bank : Nat), s.blk.hubUp = true → chanArgs ch port cls bank 0 = true →
      s.blk.bankNow ch bank cls = true → s.blk.canPay ch cls 2 = true →
    Completes (.pre ch port cls bank) s (fun b =>
      EvFrame ((((s.blk.take ch cls 2).closeBank ch bank).granted ch cls port).pump ch) b
        ∧ (s.blk.chanQuiet ch = true → EvFrame (((s.blk.take ch cls 2).closeBank ch bank).granted ch cls port) b
          ∧ b.openRowOf ch bank = none ∧ (∀ k, k < 32 → k ≠ bank → b.openRowOf ch k = s.blk.openRowOf ch k))))
  ∧ (∀ (s : State) (ch bank : Nat) (p : Nat × OpenRow), s.blk.hubUp = true →
      (s.blk.chan ch).rows.find? (fun p => p.1 == bank) = some p →
    Completes (.rowIdleTimeout ch bank) s (fun b =>
      ((s.blk.pair ch (bank / 2)).urgent = true → EvFrame s.blk b)
      ∧ ((s.blk.pair ch (bank / 2)).urgent = false → s.blk.canPay ch p.2.cls 2 = true →
          EvFrame ((s.blk.take ch p.2.cls 2).closeBank ch bank) b ∧ b.openRowOf ch bank = none)
      ∧ ((s.blk.pair ch (bank / 2)).urgent = false → s.blk.canPay ch p.2.cls 2 = false →
          b.openRowOf ch bank = s.blk.openRowOf ch bank ∧ (bank, p.2.cls) ∈ (b.chan ch).closing)))

/-- R88, R95 to R97: RDH, WRH, RDW and WRW. -/
def Obligations.ColumnTransfers : Prop :=
  (∀ (s : State) (ch port cls bank row grp half : Nat) (keep : Bool), s.blk.hubUp = true → chanArgs ch port cls bank row = true →
      grp < 8 → half < 2 → (cls = cHub ∨ cls = cRemote) → s.blk.chanQuiet ch = true → (s.blk.rowSeg ch bank row).isSome = true →
      s.blk.rowFresh ch bank row = false → s.blk.rowConv ch bank row = false → s.blk.bankFree ch bank cls s.blk.time.toNat = true →
      s.blk.openRowOf ch bank = some row → s.blk.canPay ch cls 3 = true →
    Completes (.rdh ch port cls bank row grp half keep) s (fun b =>
      (b.chan ch).moved = s.blk.halfBytes ch bank row grp half ∧ SameMem s.blk b ∧ b.regs = s.blk.regs))
  ∧ (∀ (s : State) (ch port cls bank row grp half : Nat) (keep : Bool) (w : HalfReq), s.blk.hubUp = true →
      s.blk.halfArgs ch port cls bank row grp half = true → (s.blk.die (dieOfCh ch)).sr = .awake →
      (s.blk.chan ch).writeQ = [w] → (s.blk.chan ch).readQ = [] → (s.blk.chan ch).portQ = [] →
      w.sameHalf ⟨port, cls, bank, row, grp, half, keep, s.blk.time.toNat, []⟩ = true →
    Completes (.rdh ch port cls bank row grp half keep) s (fun b => (b.chan ch).moved = w.data))
  ∧ (∀ (s : State) (ch port cls bank row grp half : Nat) (keep : Bool), s.blk.hubUp = true →
      chanArgs ch port cls bank row = true → grp < 8 → half < 2 → (cls = cHub ∨ cls = cRemote) → s.blk.chanQuiet ch = true →
      s.blk.rowFresh ch bank row = true →
    Completes (.rdh ch port cls bank row grp half keep) s (fun b =>
      (b.chan ch).moved = zeros 144 ∧ (b.chan ch).rows = (s.blk.chan ch).rows ∧ SameMem s.blk b ∧ b.regs = s.blk.regs))
  ∧ (∀ (s : State) (ch port cls bank row grp half : Nat) (keep : Bool) (d : Bytes), s.blk.hubUp = true → s.memWf →
      chanArgs ch port cls bank row = true → grp < 8 → half < 2 → (cls = cHub ∨ cls = cRemote) → d.length = 144 →
      s.blk.chanQuiet ch = true → (s.blk.rowSeg ch bank row).isSome = true → s.blk.rowConv ch bank row = false →
      s.blk.bankFree ch bank cls s.blk.time.toNat = true → s.blk.openRowOf ch bank = some row → s.blk.canPay ch cls 3 = true →
    Completes (.wrh ch port cls bank row grp half keep d) s (fun b =>
      b.halfBytes ch bank row grp half = d ∧ b.rowFresh ch bank row = false ∧ b.regs = s.blk.regs
      ∧ (s.blk.rowFresh ch bank row = false → ∀ g, g < 0xC0000000 → g ≠ gidOf ch bank row grp →
          groupData b.mem.cells g = groupData s.blk.mem.cells g)))
  ∧ (∀ (s : State) (ch port cls bank row word : Nat) (keep : Bool), s.blk.hubUp = true →
      s.blk.wordArgs ch port cls bank row word = true → s.blk.canPay ch cls 2 = true →
    Completes (.rdw ch ⟨port, cls, keep⟩ bank row word) s (fun b => SameMem s.blk b ∧ b.regs = s.blk.regs
      ∧ (b.chan ch).moved = if s.blk.rowFresh ch bank row then zeros 36 else
          bytesAt (groupData s.blk.mem.cells (gidOf ch bank row (word / 8))) (32 * (word % 8)) 32
            ++ bytesAt (groupMargin s.blk.mem.cells (gidOf ch bank row (word / 8)) (s.blk.groupOpen ch bank row)) (4 * (word % 8)) 4))
  ∧ (∀ (s : State) (ch port cls bank row word : Nat) (keep : Bool) (d : Bytes), s.blk.hubUp = true → s.memWf →
      s.blk.wordArgs ch port cls bank row word = true → d.length = 36 → s.blk.canPay ch cls 2 = true →
    Completes (.wrw ch ⟨port, cls, keep⟩ bank row word d) s (fun b => b.regs = s.blk.regs
      ∧ bytesAt (groupData b.mem.cells (gidOf ch bank row (word / 8))) (32 * (word % 8)) 32 = d.take 32
      ∧ bytesAt (groupMargin b.mem.cells (gidOf ch bank row (word / 8)) (b.groupOpen ch bank row)) (4 * (word % 8)) 4 = d.drop 32
      ∧ (s.blk.rowFresh ch bank row = false → ∀ g, g < 0xC0000000 → g ≠ gidOf ch bank row (word / 8) →
          groupData b.mem.cells g = groupData s.blk.mem.cells g)))

/-- R103, R104: REFRESH_DUE, REFPR, REFRESH_PULL_IN and REFRESH_LATE. -/
def Obligations.Refresh : Prop :=
  (∀ (s : State) (ch pair : Nat), s.blk.hubUp = true → ch < 384 → pair < 16 → (s.blk.die (dieOfCh ch)).sr = .awake →
    Completes (.refreshDue ch pair) s (fun b => (b.pair ch pair).debt = min ((s.blk.pair ch pair).debt + 1) 11
      ∧ (b.pair ch pair).urgent = ((s.blk.pair ch pair).urgent || decide ((s.blk.pair ch pair).debt = 8))
      ∧ b.reg (bSC (stackOfCh ch) + 0xBC)
          = max (s.blk.reg (bSC (stackOfCh ch) + 0xBC)) (min ((s.blk.pair ch pair).debt + 1) 11).toNat
      ∧ SameMem s.blk b))
  ∧ (∀ (s : State) (ch pair : Nat), s.blk.hubUp = true → ch < 384 → pair < 16 → 1 ≤ (s.blk.pair ch pair).debt →
      (s.blk.pairHeld ch pair = true → (s.blk.pair ch pair).urgent = true) → s.blk.inStepAt ch pair = false →
      (s.blk.die (dieOfCh ch)).sr = .awake →
    Completes (.refpr ch pair) s (fun b => (b.pair ch pair).debt = (s.blk.pair ch pair).debt - 1
      ∧ (b.pair ch pair).urgent = ((s.blk.pair ch pair).urgent && decide (1 < (s.blk.pair ch pair).debt))
      ∧ b.openRowOf ch (2 * pair) = none ∧ b.openRowOf ch (2 * pair + 1) = none ∧ SameMem s.blk b ∧ b.regs = s.blk.regs))
  ∧ (∀ (s : State) (ch pair : Nat), s.blk.hubUp = true → ch < 384 → pair < 16 → (s.blk.pair ch pair).debt ≤ 0 →
      -8 < (s.blk.pair ch pair).debt → s.blk.pairHeld ch pair = false → (s.blk.die (dieOfCh ch)).sr = .awake →
      (s.blk.pay ch cRefresh 12).isSome = true →
    Completes (.refreshPullIn ch pair) s (fun b => (b.pair ch pair).debt = (s.blk.pair ch pair).debt - 1
      ∧ SameMem s.blk b ∧ b.regs = s.blk.regs))
  ∧ (∀ (s : State) (ch pair : Nat), s.blk.hubUp = true → ch < 384 → pair < 16 → (s.blk.pair ch pair).urgent = true →
      9 ≤ (s.blk.pair ch pair).debt → (s.blk.unit (unitNo ch pair)).seq = none → (s.blk.unit (unitNo ch pair)).keptFor = none →
      s.blk.cu.units.all (fun p => p.2.seq.isNone) = true →
    Completes (.refreshLate ch pair) s (fun b => (b.reg (oSC_EVENTS (stackOfCh ch))).testBit 6 = true
      ∧ (b.reg oSDG_STATUS).testBit 2 = true ∧ b.pins.faultN = false ∧ SameMem s.blk b))

/-- R107 to R109: SRE, SRX and the timers of self-refresh. -/
def Obligations.SelfRefresh : Prop :=
  (∀ (s : State) (d : Nat), s.blk.hubUp = true → d < 192 → (s.blk.die d).sr = .entering → s.blk.dieBusy d = false →
      s.blk.queuesEmpty d = true → s.blk.debtsPaid d = true → (s.blk.payDie d).isSome = true →
    Completes (.sre d) s (fun b => (b.die d).sr = .asleep ∧ (b.chan (2 * d)).rows = [] ∧ (b.chan (2 * d + 1)).rows = []
      ∧ b.cu.units = s.blk.cu.units.map (fun p => if unitDie p.1 = d then (p.1, p.2.asleep) else p)
      ∧ SameMem s.blk b ∧ b.regs = s.blk.regs))
  ∧ (∀ (s : State) (d u : Nat) (x : SeqSt), s.blk.hubUp = true → (s.blk.die d).sr = .entering → unitDie u = d →
      s.blk.cu.units = [(u, s.blk.unit u)] → (s.blk.unit u).seq = some x → x.inStep = true →
    Completes (.srEntryTimeout d) s (EvFrame (s.blk.setUnit u { s.blk.unit u with seq := some { x with stop := stPOWER } })))
  ∧ (∀ (s : State) (d n : Nat), s.blk.hubUp = true → (s.blk.die d).sr = .exitPhy n →
    Completes (.srExitPhyLocked d) s (fun b =>
      (b.die d).sr = (if (s.blk.payDie d).isSome then SrPhase.exitTxs else SrPhase.locked) ∧ SameMem s.blk b ∧ b.regs = s.blk.regs))
  ∧ (∀ (s : State) (d : Nat), s.blk.hubUp = true → (s.blk.die d).sr = .locked → (s.blk.payDie d).isSome = true →
    Completes (.srx d) s (fun b => (b.die d).sr = .exitTxs ∧ SameMem s.blk b ∧ b.regs = s.blk.regs))
  ∧ (∀ (s : State) (d : Nat), s.blk.hubUp = true → (s.blk.die d).sr = .exitTxs → s.blk.held = [] → s.blk.cu.waiting = [] →
      s.blk.cu.jobs = [] →
    Completes (.srExitTxsElapsed d) s (fun b => (b.die d).sr = .awake
      ∧ ∀ m, m < 16 → b.pair (2 * d) m = .reset ∧ b.pair (2 * d + 1) m = .reset))
  ∧ (∀ (s : State) (d n : Nat), s.blk.hubUp = true → s.blk.pwr.state = .run → (s.blk.die d).sr = .exitPhy n →
    Completes (.srExitPhyTimeout d) s (fun b =>
      (n < 2 → EvFrame (s.blk.setDie d { s.blk.die d with sr := .exitPhy (n + 1) }) b)
      ∧ (2 ≤ n → (b.die d).sr = .failed ∧ (b.reg oSDG_STATUS).testBit 2 = true ∧ b.pins.faultN = false
        ∧ (s.blk.logUp = true → b.log.head = s.blk.log.head + 2))))

/-- R111 to R116: counters, training, parity failures and request timeouts. -/
def Obligations.StackEvents : Prop :=
  (∀ (s : State) (ch : Nat), s.blk.hubUp = true →
    Completes (.corrWindowExpiry ch) s (EvFrame (s.blk.setChan ch { s.blk.chan ch with
      corrWin := 0
      corrSaid := false })))
  ∧ (∀ (s : State) (bad : List Nat), s.blk.hubUp = true →
    Completes (.retrainTimer bad) s (fun b => SameMem s.blk b
      ∧ (∀ ch, ch < 384 → (s.blk.die (dieOfCh ch)).sr = .awake → b.chan ch = ({ s.blk.chan ch with trainDue := (s.blk.chan ch).trainDue + 4096 } : ChanSt).train1)
      ∧ (∀ ch, ch ∈ bad → ch < 384 → (s.blk.die (dieOfCh ch)).sr = .awake → (b.reg (oSC_EVENTS (stackOfCh ch))).testBit 5 = true)))
  ∧ (∀ (s : State) (p : Path) (k v : Nat), s.blk.pathOn p = true → reaches p.code (bSC k) = true → k < 16 → v.testBit 1 = true →
    Completes (.clrCounters p k v) s (fun b => (∀ i, i < 24 → b.reg (bSC k + 0x100 + 4 * i) = 0) ∧ b.reg (bSC k + 0xB0) = 0
      ∧ b.reg (bSC k + 0xB4) = 0 ∧ b.reg (bSC k + 0xBC) = 0 ∧ (b.reg (bSC k + 4)).testBit 0 = v.testBit 0
      ∧ (b.reg (bSC k + 4)).testBit 2 = v.testBit 2 ∧ (∀ j o, j < 16 → j ≠ k → o < 0x1000 → b.reg (bSC j + o) = s.blk.reg (bSC j + o))
      ∧ SameMem s.blk b))
  ∧ (∀ (s : State) (p : Path) (v : Nat), s.blk.pathOn p = true → reaches p.code bTRAIN = true → (p = .host → s.blk.mode = .test) →
      v.testBit 0 = true → s.blk.trnStarts = true →
    Completes (.trnStart p v) s (EvFrame ((((s.blk.atPort p).putReg (bTRAIN + 4) 0xE v).setReg bTRAIN 1).trainFor s.blk.trnChan
      (3 * max 1 (bits (s.blk.reg (bTRAIN + 0x18)) 23 0)))))
  ∧ (∀ (s : State) (v : Nat), s.blk.pathOn .host = true → s.blk.mode ≠ .test →
    Completes (.trnStart .host v) s (fun b => b.regs = s.blk.regs ∧ (s.blk.logUp = true → LastLog s.blk b kTRAIN_REF 0)))
  ∧ (∀ (s : State) (errs : List Nat), s.blk.hubUp = true → (s.blk.reg bTRAIN).testBit 0 = true →
      (s.blk.chan s.blk.trnChan).trainDue = 0 →
    Completes (.trnRunDone errs) s (fun b => b.reg bTRAIN = 2 ∧ SameMem s.blk b
      ∧ (((List.range 72).any (fun i => errs.getD i 0 != 0)) = true → (b.reg (oSC_EVENTS (stackOfCh s.blk.trnChan))).testBit 5 = true)
      ∧ ∀ k, k < 36 → b.reg (bTRAIN + 0x100 + 4 * k) = min (errs.getD (2 * k) 0) 0xFFFF + min (errs.getD (2 * k + 1) 0) 0xFFFF * 65536))
  ∧ (∀ s : State, s.blk.hubUp = true → (s.blk.reg bTRAIN).testBit 0 = true →
    Completes .trnRunTimeout s (EvFrame (s.blk.trnStop.setReg bTRAIN 4)))
  ∧ (∀ (s : State) (ch : Nat) (o : Owner), s.blk.hubUp = true → ch < 384 →
    Completes (.cmdParityFail ch o) s (fun b =>
      ((s.blk.chan ch).parity < 2 → EvFrame (s.blk.setChan ch { s.blk.chan ch with parity := (s.blk.chan ch).parity + 1 }) b)
      ∧ (2 ≤ (s.blk.chan ch).parity → o = .engine → (b.chan ch).parity = 0
        ∧ (b.reg (oSC_EVENTS (stackOfCh ch))).testBit 2 = true ∧ SameMem s.blk b)))
  ∧ (∀ (s : State) (ch port cls q seq : Nat) (f : Flight), s.blk.hubUp = true → ch < 384 → port < 12 → cls < 6 →
      s.blk.flight? q seq = some f → f.stage = .running → s.blk.job? q seq = none → s.blk.tileJob? q seq = none →
      (s.blk.hub.run.toList ++ s.blk.hub.queue).find? (fun r => r.q == q && r.seq == seq) = none →
      s.blk.mem.convs.find? (fun c => c.q == q && c.seq == seq) = none →
    Completes (.scReqTimeout ch port cls (.entry q seq)) s (fun b => Finished b f stINTERNAL
      ∧ (b.reg (oSC_EVENTS (stackOfCh ch))).testBit 1 = true))

/-- R131, R132, R139, R140: PIM_MODE, OPL, TBL_WR and STEP_LD for one unit. -/
def Obligations.UnitSetUp : Prop :=
  (∀ (s : State) (ch m nvec w a anchor : Nat), 1 ≤ nvec → nvec ≤ nvecMax w → pairOk w a = true → anchor < 65536 →
      s.blk.unitTakes ch m (s.blk.cmdCharge (unitCmdOf ch 1 (2 ^ m)
        (2 ^ 43 + (nvec - 1) * 2 ^ 41 + w * 2 ^ 33 + a * 2 ^ 25 + anchor * 2 ^ 9) [])) = true →
    Completes (.pimMode ch (2 ^ m) (2 ^ 43 + (nvec - 1) * 2 ^ 41 + w * 2 ^ 33 + a * 2 ^ 25 + anchor * 2 ^ 9)) s (fun b =>
      b.unit (unitNo ch m) = { s.blk.unit (unitNo ch m) with
        inPim := true, nvec := nvec, wfmt := w, afmt := a, anchor := anchor, acc := UnitSt.reset.acc, score := [],
        m := UnitSt.reset.m, l := UnitSt.reset.l, flags := 0, err := 0, cur := [none, none], pend := [none, none], pimFor := none }
      ∧ b.openRowOf ch (2 * m) = none ∧ b.openRowOf ch (2 * m + 1) = none ∧ SameMem s.blk b ∧ b.regs = s.blk.regs))
  ∧ (∀ (s : State) (ch m nvec w a anchor : Nat), 1 ≤ nvec → nvec ≤ 4 → w < 256 → a < 256 → anchor < 65536 →
      (pairOk w a && decide (nvec ≤ nvecMax w)) = false →
      s.blk.unitTakes ch m (s.blk.cmdCharge (unitCmdOf ch 1 (2 ^ m)
        (2 ^ 43 + (nvec - 1) * 2 ^ 41 + w * 2 ^ 33 + a * 2 ^ 25 + anchor * 2 ^ 9) [])) = true →
    Completes (.pimMode ch (2 ^ m) (2 ^ 43 + (nvec - 1) * 2 ^ 41 + w * 2 ^ 33 + a * 2 ^ 25 + anchor * 2 ^ 9)) s (fun b =>
      b.unit (unitNo ch m) = (s.blk.unit (unitNo ch m)).error stDESC ∧ SameMem s.blk b ∧ b.regs = s.blk.regs))
  ∧ (∀ (s : State) (ch m : Nat), s.blk.unitTakes ch m 2 = true → (s.blk.unit (unitNo ch m)).xfers = [] →
    Completes (.pimMode ch (2 ^ m) 0) s (fun b =>
      b.unit (unitNo ch m) = { s.blk.unit (unitNo ch m) with
        inPim := false, cur := [none, none], pend := [none, none], slot := none, keptFor := none, pimFor := none }
      ∧ b.openRowOf ch (2 * m) = none ∧ b.openRowOf ch (2 * m + 1) = none ∧ SameMem s.blk b ∧ b.regs = s.blk.regs))
  ∧ (∀ (s : State) (ch m first n : Nat) (d : Bytes), s.blk.unitTakes ch m (2 + 3 * cdiv d.length 128) = true → 1 ≤ n →
      first + n ≤ 256 → d.length = 32 * n →
    Completes (.opl ch (2 ^ m) (first * 2 ^ 34 + (n - 1) * 2 ^ 26) d) s (fun b =>
      (∀ k, k < 256 → tget zeroWord k (b.unit (unitNo ch m)).latch
        = if first ≤ k ∧ k < first + n then bytesAt d (32 * (k - first)) 32 else tget zeroWord k (s.blk.unit (unitNo ch m)).latch)
      ∧ b.unit (unitNo ch m) = { s.blk.unit (unitNo ch m) with latch := (b.unit (unitNo ch m)).latch }
      ∧ SameMem s.blk b ∧ b.regs = s.blk.regs))
  ∧ (∀ (s : State) (ch m first n : Nat) (d : Bytes), s.blk.unitTakes ch m (2 + 3 * cdiv d.length 128) = true → 1 ≤ n →
      first + n ≤ 8 → d.length = 32 * n →
    Completes (.opl ch (2 ^ m) (2 ^ 42 + first * 2 ^ 34 + (n - 1) * 2 ^ 26) d) s (fun b =>
      (∀ k, k < 8 → tget zeroWord k (b.unit (unitNo ch m)).scale
        = if first ≤ k ∧ k < first + n then bytesAt d (32 * (k - first)) 32 else tget zeroWord k (s.blk.unit (unitNo ch m)).scale)
      ∧ b.unit (unitNo ch m) = { s.blk.unit (unitNo ch m) with scale := (b.unit (unitNo ch m)).scale }
      ∧ SameMem s.blk b ∧ b.regs = s.blk.regs))
  ∧ (∀ (s : State) (ch m : Nat) (d : Bytes), s.blk.unitTakes ch m 5 = true → d.length = 32 →
    Completes (.opl ch (2 ^ m) (2 * 2 ^ 42) d) s (fun b =>
      b.unit (unitNo ch m) = { s.blk.unit (unitNo ch m) with s := [fld d 0 4, fld d 4 4, fld d 8 4, fld d 12 4] }
      ∧ SameMem s.blk b ∧ b.regs = s.blk.regs))
  ∧ (∀ (s : State) (ch m : Nat) (d : Bytes), s.blk.unitTakes ch m 5 = true → d.length = 32 →
    Completes (.opl ch (2 ^ m) (3 * 2 ^ 42) d) s (fun b =>
      b.unit (unitNo ch m) = { s.blk.unit (unitNo ch m) with mask := leNat d } ∧ SameMem s.blk b ∧ b.regs = s.blk.regs))
  ∧ (∀ (s : State) (ch m bank part gen : Nat) (d : Bytes), s.blk.unitTakes ch m 5 = true → bank < 2 → part < 2 → gen < 256 →
      (s.blk.unit (unitNo ch m)).active = 1 - bank → d.length = 32 →
    Completes (.tblWr ch (2 ^ m) (bank * 2 ^ 43 + part * 2 ^ 42 + gen * 2 ^ 34) d) s (fun b =>
      (b.unit (unitNo ch m)).tab = (s.blk.unit (unitNo ch m)).tab
      ∧ (b.unit (unitNo ch m)).idleTab.gen = gen
      ∧ (b.unit (unitNo ch m)).idleTab.codebook = (if part = 0 then d else (s.blk.unit (unitNo ch m)).idleTab.codebook)
      ∧ (b.unit (unitNo ch m)).idleTab.table = (if part = 1 then d else (s.blk.unit (unitNo ch m)).idleTab.table)
      ∧ (b.unit (unitNo ch m)).err = (s.blk.unit (unitNo ch m)).err ∧ SameMem s.blk b ∧ b.regs = s.blk.regs))
  ∧ (∀ (s : State) (ch m bank part gen : Nat) (d : Bytes), s.blk.unitTakes ch m 5 = true → bank < 2 → part < 2 → gen < 256 →
      (s.blk.unit (unitNo ch m)).active = bank → d.length = 32 →
    Completes (.tblWr ch (2 ^ m) (bank * 2 ^ 43 + part * 2 ^ 42 + gen * 2 ^ 34) d) s (fun b =>
      (b.unit (unitNo ch m)).tab = (s.blk.unit (unitNo ch m)).tab
      ∧ (b.unit (unitNo ch m)).idleTab = (s.blk.unit (unitNo ch m)).idleTab
      ∧ (b.unit (unitNo ch m)).err = (if (s.blk.unit (unitNo ch m)).err = 0 then stTABLE else (s.blk.unit (unitNo ch m)).err)
      ∧ (s.blk.logUp = true → LastLog s.blk b kUNIT_TABACT (unitNo ch m)) ∧ SameMem s.blk b))
  ∧ (∀ (s : State) (ch m first n : Nat) (d : Bytes), s.blk.unitTakes ch m (2 + 3 * cdiv d.length 128) = true → 1 ≤ n →
      first + n ≤ 16 → d.length = 8 * n →
    Completes (.stepLd ch (2 ^ m) (first * 2 ^ 40 + (n - 1) * 2 ^ 36) d) s (fun b =>
      (∀ k, k < 16 → tget 0 k (b.unit (unitNo ch m)).steps
        = if first ≤ k ∧ k < first + n then fld d (8 * (k - first)) 8 else tget 0 k (s.blk.unit (unitNo ch m)).steps)
      ∧ b.unit (unitNo ch m) = { s.blk.unit (unitNo ch m) with steps := (b.unit (unitNo ch m)).steps }
      ∧ SameMem s.blk b ∧ b.regs = s.blk.regs))

/-- R141 to R144, R148, R165: STEP_GO, UNIT_STEP_DONE and ACC_RD_TRANSFER_DONE. -/
def Obligations.UnitSequences : Prop :=
  (∀ (s : State) (ch m first last reps gen use : Nat), s.blk.unitTakes ch m 2 = true → first ≤ last → last < 16 → 1 ≤ reps →
      reps ≤ 65536 → gen < 256 → use < 2 → (s.blk.unit (unitNo ch m)).inPim = true → (s.blk.unit (unitNo ch m)).slot = none →
      (s.blk.die (ch / 2)).refused = false →
      (use = 1 → (s.blk.unit (unitNo ch m)).tab.gen = gen ∨ (s.blk.unit (unitNo ch m)).idleTab.gen = gen) →
      (List.range (last + 1 - first)).all (fun i => entryOk (s.blk.unit (unitNo ch m)).wfmt
        (tget 0 (first + i) (s.blk.unit (unitNo ch m)).steps)) = true →
      s.blk.aimRefused (unitNo ch m)
        ((List.range (last + 1 - first)).map (fun i => tget 0 (first + i) (s.blk.unit (unitNo ch m)).steps)) [] = none →
    Completes (.stepGo ch (2 ^ m) (first * 2 ^ 40 + last * 2 ^ 36 + (reps - 1) * 2 ^ 20 + gen * 2 ^ 12 + use * 2 ^ 11)) s (fun b =>
      (b.unit (unitNo ch m)).seq.map (fun x => (x.direct, x.first, x.last, x.reps)) = some (none, first, last, reps)
      ∧ (b.unit (unitNo ch m)).seq.map (fun x => (x.i, x.n, x.inStep, x.stop)) = some (first, 0, false, 0)
      ∧ (use = 1 → (b.unit (unitNo ch m)).tab.gen = gen)
      ∧ (use = 0 ∨ (s.blk.unit (unitNo ch m)).tab.gen = gen → (b.unit (unitNo ch m)).active = (s.blk.unit (unitNo ch m)).active)
      ∧ SameMem s.blk b ∧ b.regs = s.blk.regs))
  ∧ (∀ (s : State) (ch m first last reps gen : Nat), s.blk.unitTakes ch m 2 = true → first < 16 → last < 16 → 1 ≤ reps →
      reps ≤ 65536 → gen < 256 → (s.blk.unit (unitNo ch m)).inPim = true →
      (s.blk.unit (unitNo ch m)).tab.gen ≠ gen → (s.blk.unit (unitNo ch m)).idleTab.gen ≠ gen →
    Completes (.stepGo ch (2 ^ m) (first * 2 ^ 40 + last * 2 ^ 36 + (reps - 1) * 2 ^ 20 + gen * 2 ^ 12 + 2 ^ 11)) s (fun b =>
      b.unit (unitNo ch m) = (s.blk.unit (unitNo ch m)).error stTABLE
      ∧ (s.blk.logUp = true → LastLog s.blk b kUNIT_TABMISS (unitNo ch m)) ∧ SameMem s.blk b))
  ∧ (∀ (s : State) (ch m first last reps : Nat), s.blk.unitTakes ch m 2 = true → first < 16 → last < 16 → 1 ≤ reps →
      reps ≤ 65536 → (s.blk.unit (unitNo ch m)).inPim = true →
      (last < first ∨ (List.range (last + 1 - first)).all (fun i => entryOk (s.blk.unit (unitNo ch m)).wfmt
        (tget 0 (first + i) (s.blk.unit (unitNo ch m)).steps)) = false) →
    Completes (.stepGo ch (2 ^ m) (first * 2 ^ 40 + last * 2 ^ 36 + (reps - 1) * 2 ^ 20)) s (fun b =>
      b.unit (unitNo ch m) = (s.blk.unit (unitNo ch m)).error stDESC ∧ SameMem s.blk b ∧ b.regs = s.blk.regs))
  ∧ (∀ (s : State) (u : Nat) (x : SeqSt), s.blk.unitsIdle = true → (s.blk.unit u).seq = some x → x.inStep = true → x.direct = none →
      s.blk.chanQuiet (unitCh u) = true → (s.blk.unit u).asked = none → x.erred = 0 → x.stop = 0 → (x.i ≠ x.last ∨ x.n + 1 ≠ x.reps) → (s.blk.unit u).slot.isSome = true →
      s.blk.mustYield u = false → (s.blk.die (unitDie u)).refused = false → (s.blk.pair (unitCh u) (unitPair u)).urgent = false →
    Completes (.unitStepDone u) s (fun b =>
      b.unit u = { s.blk.unit u with seq := some (
        if x.i = x.last then { x with inStep := false, n := x.n + 1, i := x.first } else { x with inStep := false, i := x.i + 1 }) }
      ∧ SameMem s.blk b ∧ b.regs = s.blk.regs))
  ∧ (∀ (s : State) (u : Nat) (x : SeqSt), s.blk.unitsIdle = true → (s.blk.unit u).seq = some x → x.inStep = true →
      (x.direct.isSome = true ∨ x.i = x.last) → x.n + 1 = x.reps → x.cmd.own = none → x.cmd.hold = false →
      s.blk.chanQuiet (unitCh u) = true → (s.blk.unit u).asked = none → x.erred = 0 → x.stop = 0 →
    Completes (.unitStepDone u) s (fun b =>
      b.unit u = { s.blk.unit u with seq := none, slot := none, released := none, keptFor := none }
      ∧ SameMem s.blk b ∧ b.regs = s.blk.regs))
  ∧ (∀ (s : State) (u k : Nat) (t : Xfer), s.blk.unitsIdle = true → (s.blk.unit u).xfers = [t] → t.sets.contains k = true →
      t.cmd.own = none →
    Completes (.accRdTransferDone u k) s (EvFrame (s.blk.setUnit u { s.blk.unit u with xfers := [] })))
  ∧ (∀ (s : State) (u k : Nat) (t : Xfer) (c : TreeCtx), s.blk.unitsIdle = true → (s.blk.unit u).xfers = [t] →
      t.sets.contains k = true → t.cmd.own = some (c.q, c.seq) → t.cmd.win = some c.win → c.stack = unitStack u → t.err = 0 →
      s.blk.cu.trees = [c] →
    Completes (.accRdTransferDone u k) s (fun b => (b.unit u).xfers = []
      ∧ b.cu.trees = [{ c with tags := (addParts t.fp t.cmd.item (unitDie u) t.tag t.parts c.tags).1
                               flags := c.flags ||| t.flags ||| (addParts t.fp t.cmd.item (unitDie u) t.tag t.parts c.tags).2
                               left := if t.fin then c.left - 1 else c.left
                               sat := if t.flags.testBit 7 then t.cmd.item :: c.sat else c.sat }]
      ∧ SameMem s.blk b ∧ b.regs = s.blk.regs))

/-- R133 to R138, R144, R150: the steps CACT, CRD, CWR and ACC_RD. -/
def Obligations.RowSteps : Prop :=
  (∀ (s : State) (u side pend row : Nat) (x : SeqSt), s.blk.unitsIdle = true → side < 2 → pend < 2 → row < 32768 →
      s.blk.stepsAt u (3 * 2 ^ 60 + 2 ^ (42 + side) + pend * 2 ^ 41 + row * 2 ^ (26 - 15 * side)) x = true →
      (s.blk.unit u).cur.length = 2 → (s.blk.unit u).pend.length = 2 →
      s.blk.rowStatus (unitCh u) (unitBank u side) row true = 0 → s.blk.rowFresh (unitCh u) (unitBank u side) row = false →
    Completes (.cact (.unit u)) s (fun b =>
      b.unit u =
        (if pend = 1 ∧ ((s.blk.unit u).cur.getD side none).any (fun c => c % 8 == row % 8) = false
         then { (s.blk.unit u).stepping x with pend := (s.blk.unit u).pend.set side (some row) }
         else { (s.blk.unit u).stepping x with cur := (s.blk.unit u).cur.set side (some row) })
      ∧ SameMem s.blk b ∧ b.regs = s.blk.regs))
  ∧ (∀ (s : State) (u side row : Nat) (x : SeqSt), s.blk.unitsIdle = true → side < 2 → row < 32768 →
      s.blk.stepsAt u (3 * 2 ^ 60 + 2 ^ (42 + side) + row * 2 ^ (26 - 15 * side)) x = true →
      s.blk.rowStatus (unitCh u) (unitBank u side) row true ≠ 0 →
    Completes (.cact (.unit u)) s (fun b => (b.unit u).cur = (s.blk.unit u).cur ∧ (b.unit u).pend = (s.blk.unit u).pend
      ∧ (b.unit u).seq.map SeqSt.stop = some (s.blk.rowStatus (unitCh u) (unitBank u side) row true) ∧ SameMem s.blk b))
  ∧ (∀ (s : State) (ch m side row : Nat), s.blk.unitTakes ch m 2 = true → side < 2 → row < 32768 →
      (s.blk.unit (unitNo ch m)).inPim = true → (s.blk.unit (unitNo ch m)).slot = none →
      (s.blk.die (ch / 2)).refused = false → (s.blk.die (ch / 2)).sr = .awake → s.blk.holders (ch / 2) = [] →
      1 ≤ (s.blk.die (ch / 2)).allow → (s.blk.eligMask (ch / 2)).testBit (unitNo ch m % 32) = true → s.blk.sdg.withdrawn = [] →
      s.blk.cu.units = [(unitNo ch m, s.blk.unit (unitNo ch m))] →
      s.blk.rowStatus ch (2 * m + side) row true = 0 → s.blk.rowFresh ch (2 * m + side) row = false →
      (s.blk.unit (unitNo ch m)).cur = [none, none] →
    Completes (.cact (.direct ch (2 ^ m) (2 ^ (42 + side) + row * 2 ^ (26 - 15 * side)))) s (fun b =>
      (b.unit (unitNo ch m)).cur = ([none, none] : List (Option Nat)).set side (some row)
      ∧ (b.unit (unitNo ch m)).seq.map (fun y => (y.reps, y.inStep)) = some (1, true)
      ∧ (b.unit (unitNo ch m)).slot.isSome = true ∧ SameMem s.blk b ∧ b.regs = s.blk.regs))
  ∧ (∀ (s : State) (u side op gf gc set clear lat seg row : Nat) (x : SeqSt), s.blk.unitsIdle = true → side < 2 → op < 5 → 1 ≤ gc → gf + gc ≤ 8 → set < 4 →
      clear < 2 → lat < 256 → seg < 4 →
      s.blk.stepsAt u (4 * 2 ^ 60 + op * 2 ^ 41 + 2 ^ (39 + side) + gf * 2 ^ 36 + (gc - 1) * 2 ^ 33 + set * 2 ^ 31 + clear * 2 ^ 30
        + lat * 2 ^ 17 + seg * 2 ^ 14) x = true →
      (s.blk.unit u).cur.getD side none = some row →
      s.blk.rowStatus (unitCh u) (unitBank u side) row false = 0 → s.blk.rowClean u side row gf gc = true →
    Completes (.crd (.unit u)) s (fun b =>
      (op = 0 → b.unit u = ((s.blk.unit u).stepping x).dot set (decide (clear = 1)) lat [(side, s.blk.rowWords u side row gf gc)]
        (fun k => (Config.freeWord (s.blk.ctr + k)).toNat))
      ∧ (op = 1 → b.unit u = ((s.blk.unit u).stepping x).sdot lat (2 ^ seg) [(side, s.blk.rowWords u side row gf gc)])
      ∧ (2 ≤ op → b.unit u = ((s.blk.unit u).stepping x).ew op lat [(side, s.blk.rowWords u side row gf gc)])
      ∧ SameMem s.blk b ∧ b.regs = s.blk.regs))
  ∧ (∀ (s : State) (u body side : Nat) (x : SeqSt), s.blk.unitsIdle = true → body < 2 ^ 44 → s.blk.stepsAt u (4 * 2 ^ 60 + body) x = true →
      side < 2 → body.testBit 29 = false → sides (bits body 40 39) = [side] → (s.blk.unit u).cur.getD side none = none →
    Completes (.crd (.unit u)) s (fun b => (b.unit u).err = (if (s.blk.unit u).err = 0 then stINTERNAL else (s.blk.unit u).err) ∧ SameMem s.blk b ∧ b.regs = s.blk.regs))
  ∧ (∀ (s : State) (u side gf lat row : Nat) (x : SeqSt), s.blk.unitsIdle = true → s.memWf → u < 6144 → side < 2 → gf < 8 → lat < 256 → row < 32768 →
      s.blk.stepsAt u (5 * 2 ^ 60 + side * 2 ^ 43 + gf * 2 ^ 40 + lat * 2 ^ 29) x = true →
      (s.blk.unit u).cur.getD side none = some row →
      s.blk.rowStatus (unitCh u) (unitBank u side) row false = 0 → (∀ k, k < 256 → (tget zeroWord k (s.blk.unit u).latch).length = 32) →
      ((groupMargin s.blk.mem.cells (gidOf (unitCh u) (unitBank u side) row gf) true).getD 0 0).toNat / 64 ≠ 3 →
    Completes (.cwr (.unit u)) s (fun b =>
      groupData b.mem.cells (gidOf (unitCh u) (unitBank u side) row gf)
        = (List.range 8).flatMap (fun c => tget zeroWord ((lat + c) % 256) (s.blk.unit u).latch)
      ∧ ((groupMargin b.mem.cells (gidOf (unitCh u) (unitBank u side) row gf) true).getD 0 0).toNat / 64 = 1
      ∧ (∀ g, g < 0xC0000000 → g ≠ gidOf (unitCh u) (unitBank u side) row gf →
          groupData b.mem.cells g = groupData s.blk.mem.cells g)
      ∧ b.unit u = (s.blk.unit u).stepping x ∧ b.regs = s.blk.regs))
  ∧ (∀ (s : State) (u set tag : Nat) (clear : Bool) (x : SeqSt), s.blk.unitsIdle = true → set < 4 → tag < 65536 →
      s.blk.stepsAt u (6 * 2 ^ 60 + set * 2 ^ 40 + tag * 2 ^ 14 + (if clear then 2 ^ 5 else 0)) x = true →
      (s.blk.unit u).acc.length = 4 → (s.blk.unit u).wfmt ≠ cBF16 →
      (s.blk.pay (unitCh u) cCompute (3 * cdiv (24 * (s.blk.unit u).nvec + 4) 128)).isSome = true →
    Completes (.accRd (.unit u)) s (fun b =>
      (b.unit u).xfers = (s.blk.unit u).xfers ++ [
        { sets := [set], tag := tag, fp := ((s.blk.unit u).accSet set).fp && decide (0 < (s.blk.unit u).nvec)
          parts := [0, 1].flatMap (fun d => (List.range (s.blk.unit u).nvec).map (fun v => ((s.blk.unit u).accSet set).get d v))
          flags := (s.blk.unit u).flags, err := (s.blk.unit u).err, cmd := x.cmd
          fin := x.cmd.fin && decide (x.i = x.last) && decide (x.n + 1 = x.reps) }]
      ∧ (b.unit u).flags = 0
      ∧ (∀ k, k < 4 → (b.unit u).accSet k = if clear = true ∧ k = set then AccSet.zero else (s.blk.unit u).accSet k)
      ∧ SameMem s.blk b ∧ b.regs = s.blk.regs))

/-- R143: the local kinds. -/
def Obligations.LocalSteps : Prop :=
  (∀ (s : State) (u e n set : Nat) (rescale : Bool) (x : SeqSt), e < 256 → 1 ≤ n → n ≤ 64 → set < 4 →
      s.blk.stepsAt u (0xA * 2 ^ 60 + e * 2 ^ 36 + (n - 1) * 2 ^ 28 + set * 2 ^ 26 + (if rescale then 2 ^ 25 else 0)) x = true →
    Completes (.smax u) s (fun b => b.unit u = ((s.blk.unit u).stepping x).smax e n set rescale
      ∧ b.unit u = { (s.blk.unit u).stepping x with m := (b.unit u).m, l := (b.unit u).l, acc := (b.unit u).acc, flags := (b.unit u).flags }
      ∧ ((s.blk.unit u).m.length = 4 → ∀ v, v < 4 → (b.unit u).m.getD v 0 =
          if v < (s.blk.unit u).nvec then (encF ffp32 ((List.range n).foldl
            (fun a i => Ex.max2 a (f32 ((s.blk.unit u).scoreAt v (e + i)))) (f32 ((s.blk.unit u).m.getD v 0)))).1
          else (s.blk.unit u).m.getD v 0)
      ∧ (rescale = false → (b.unit u).acc = (s.blk.unit u).acc)
      ∧ (∀ k, k < 6144 → k ≠ u → b.unit k = s.blk.unit k) ∧ SameMem s.blk b ∧ b.regs = s.blk.regs))
  ∧ (∀ (s : State) (u e n lat out : Nat) (x : SeqSt), e < 256 → 1 ≤ n → n ≤ 64 → lat < 256 → out < 256 →
      s.blk.stepsAt u (0xB * 2 ^ 60 + e * 2 ^ 36 + (n - 1) * 2 ^ 28 + lat * 2 ^ 20 + out * 2 ^ 12) x = true →
    Completes (.sexp u) s (fun b => b.unit u = ((s.blk.unit u).stepping x).sexp e n lat out
      ∧ b.unit u = { (s.blk.unit u).stepping x with l := (b.unit u).l, latch := (b.unit u).latch, flags := (b.unit u).flags }
      ∧ (∀ v, v < 4 → (s.blk.unit u).nvec ≤ v ∨ (s.blk.unit u).m.getD v 0 = 0xFF800000 →
          (b.unit u).l.getD v 0 = (s.blk.unit u).l.getD v 0)
      ∧ (∀ k, k < 6144 → k ≠ u → b.unit k = s.blk.unit k) ∧ SameMem s.blk b ∧ b.regs = s.blk.regs))
  ∧ (∀ (s : State) (u lat n esz m : Nat) (x : SeqSt), lat < 256 → 1 ≤ n → n ≤ 256 → esz < 2 → m < 64 →
      s.blk.stepsAt u (0xC * 2 ^ 60 + lat * 2 ^ 36 + (n - 1) * 2 ^ 28 + esz * 2 ^ 27 + m * 2 ^ 21) x = true →
    Completes (.lperm u) s (fun b => b.unit u = ((s.blk.unit u).stepping x).lperm lat n esz m
      ∧ b.unit u = { (s.blk.unit u).stepping x with latch := (b.unit u).latch, flags := (b.unit u).flags }
      ∧ (n ≤ areaWords (s.blk.unit u).wfmt → ∀ v, v < (s.blk.unit u).nvec → ∀ i, i < n → (b.unit u).latchAt v (lat + i)
          = (permWord (s.blk.unit u).tab.table esz m ((s.blk.unit u).latchAt v (lat + i))).1)
      ∧ (∀ k, k < 6144 → k ≠ u → b.unit k = s.blk.unit k) ∧ SameMem s.blk b ∧ b.regs = s.blk.regs))
  ∧ (∀ (s : State) (u lat n op : Nat) (x : SeqSt), lat < 256 → 1 ≤ n → n ≤ 256 → op < 3 →
      s.blk.stepsAt u (0xD * 2 ^ 60 + lat * 2 ^ 36 + (n - 1) * 2 ^ 28 + op * 2 ^ 25) x = true →
    Completes (.lew u) s (fun b => b.unit u = ((s.blk.unit u).stepping x).lew lat n op
      ∧ b.unit u = { (s.blk.unit u).stepping x with latch := (b.unit u).latch, flags := (b.unit u).flags }
      ∧ (n ≤ areaWords (s.blk.unit u).wfmt → ∀ v, v < (s.blk.unit u).nvec → ∀ i, i < n → (b.unit u).latchAt v (lat + i)
          = ((s.blk.unit u).mapWord v (lat + i) (fun _ y =>
              if op = 0 then Ex.mul y (plusZero (f32 ((s.blk.unit u).s.getD v 0)))
              else if op = 1 then Ex.add y (plusZero (f32 ((s.blk.unit u).s.getD v 0)))
              else Ex.max2 y (plusZero (f32 ((s.blk.unit u).s.getD v 0))))).latchAt v (lat + i))
      ∧ (∀ k, k < 6144 → k ≠ u → b.unit k = s.blk.unit k) ∧ SameMem s.blk b ∧ b.regs = s.blk.regs))
  ∧ (∀ (s : State) (u lat n set : Nat) (x : SeqSt), lat < 256 → 1 ≤ n → n ≤ 256 → set < 4 →
      s.blk.stepsAt u (0xE * 2 ^ 60 + lat * 2 ^ 36 + (n - 1) * 2 ^ 28 + set * 2 ^ 26) x = true →
    Completes (.lstat u) s (fun b =>
      b.unit u = ((s.blk.unit u).stepping x).lstat lat n set (fun k => (Config.freeWord (s.blk.ctr + k)).toNat)
      ∧ b.unit u = { (s.blk.unit u).stepping x with acc := (b.unit u).acc, flags := (b.unit u).flags }
      ∧ (∀ k, k < 4 → k ≠ set → (b.unit u).accSet k = (s.blk.unit u).accSet k)
      ∧ (∀ k, k < 6144 → k ≠ u → b.unit k = s.blk.unit k) ∧ SameMem s.blk b ∧ b.regs = s.blk.regs))

/-- R154 to R175: BANK_GEMV, PLAN_READ_DONE, BANK_EWISE, BANK_NORM and BANK_TABLE. -/
def Obligations.BankStarts : Prop :=
  (∀ (s : State) (q seq : Nat) (f : Flight), s.blk.hubUp = true → s.blk.fresh? q seq 0x10 = some f → s.blk.gemvCheck f = stOK →
      s.blk.planOf (eHandle f.raw 3) 0 = none →
    Completes (.bankGemv q seq) s (EvFrame (s.blk.updFlight q seq (fun g => { g with progress := 1 }))))
  ∧ (∀ (s : State) (q seq : Nat) (f : Flight) (p : Bytes) (wd xd yd : Desc), s.blk.hubUp = true → s.blk.fresh? q seq 0x10 = some f →
      s.blk.gemvCheck f = stOK → s.blk.planOf (eHandle f.raw 3) 0 = some p → s.blk.fdesc f (eHandle f.raw 0) = some wd →
      s.blk.fdesc f (eHandle f.raw 1) = some xd → s.blk.fdesc f (eHandle f.raw 2) = some yd → s.blk.planOk p (Gemv.n f.raw) (Gemv.k f.raw) (Gemv.wfmt f.raw) wd = true →
      Gemv.destBank f.raw = false → Gemv.select f.raw = false →
      (s.blk.gemvWork f xd yd).goesOn = true → s.blk.gemvReadsClean f xd yd →
    Completes (.bankGemv q seq) s (fun b =>
      b.cu.jobs.map (fun j => (j.q, j.seq, j.plan, j.pass))
        = s.blk.cu.jobs.map (fun j => (j.q, j.seq, j.plan, j.pass)) ++ [(q, seq, p, 0)]
      ∧ (b.job? q seq).map (fun j => j.wins.length) = some (Gemv.wins f.raw 0)
      ∧ (b.job? q seq).map (fun j => j.prog) = (b.job? q seq).map (fun j => gemvPass f p j.x [] 0)
      ∧ (b.job? q seq).map (fun j => j.result % 2 ^ 48) = some (Gemv.n f.raw + 2 ^ 32) ∧ SameMem s.blk b ∧ b.regs = s.blk.regs))
  ∧ (∀ (s : State) (q seq : Nat) (f : Flight) (p : Bytes) (wd : Desc), s.blk.hubUp = true → s.blk.fresh? q seq 0x10 = some f →
      s.blk.gemvCheck f = stOK → s.blk.planOf (eHandle f.raw 3) 0 = some p → s.blk.fdesc f (eHandle f.raw 0) = some wd →
      s.blk.planOk p (Gemv.n f.raw) (Gemv.k f.raw) (Gemv.wfmt f.raw) wd = false →
    Completes (.bankGemv q seq) s (EvFrame (s.blk.finish q seq stDESC 0 0)))
  ∧ (∀ (s : State) (q seq : Nat) (f : Flight), s.blk.hubUp = true → s.blk.fresh? q seq 0x10 = some f →
      (s.blk.fdesc f (eHandle f.raw 0) = none ∨ pairOk (Gemv.wfmt f.raw) (Gemv.afmt f.raw) = false ∨ Gemv.batch f.raw = 0
        ∨ 16 < Gemv.batch f.raw ∨ Gemv.n f.raw = 0 ∨ Gemv.k f.raw % kMult (Gemv.wfmt f.raw) ≠ 0) →
    Completes (.bankGemv q seq) s (EvFrame (s.blk.finish q seq stDESC 0 0)))
  ∧ (∀ (s : State) (q seq : Nat) (f : Flight) (d : Desc), s.blk.hubUp = true → s.blk.fresh? q seq 0x10 = some f → f.progress = 1 →
      s.blk.planOf (eHandle f.raw 3) 0 = none → s.blk.fdesc f (eHandle f.raw 3) = some d → d.fmt = cUINT8 →
      s.blk.readsAll f d = true → Dsc.count d ≤ s.blk.planRoom →
    Completes (.planReadDone q seq) s (fun b => b.planOf (eHandle f.raw 3) 0 = some (s.blk.tensorBytes f d)))
  ∧ (∀ (s : State) (q seq : Nat) (f : Flight), s.blk.hubUp = true → s.blk.fresh? q seq 0x12 = some f → s.blk.ewAccepts f = true →
    Completes (.bankEwise q seq) s (fun b => b.cu.jobs.map (fun j => (j.q, j.seq)) = s.blk.cu.jobs.map (fun j => (j.q, j.seq)) ++ [(q, seq)]
      ∧ (b.job? q seq).any (fun j => !j.prog.isEmpty && j.prog.all (fun c => c.ownedBy q seq)) = true
      ∧ EvFrame (s.blk.setJobs b.cu.jobs) b))
  ∧ (∀ (s : State) (q seq : Nat) (f : Flight), s.blk.hubUp = true → s.blk.fresh? q seq 0x12 = some f →
      (3 < fld f.raw 0x20 1 ∨ 8 ≤ fld f.raw 0x23 1 ∨ eHandle f.raw 3 ≠ 0 ∨ ewPair (fld f.raw 0x21 1) (fld f.raw 0x22 1) = false) →
    Completes (.bankEwise q seq) s (EvFrame (s.blk.finish q seq stDESC 0 0)))
  ∧ (∀ (s : State) (q seq : Nat) (f : Flight), s.blk.hubUp = true → s.blk.fresh? q seq 0x13 = some f → s.blk.normAccepts f = true →
    Completes (.bankNorm q seq) s (fun b => b.cu.jobs.map (fun j => (j.q, j.seq)) = s.blk.cu.jobs.map (fun j => (j.q, j.seq)) ++ [(q, seq)]
      ∧ (b.job? q seq).any (fun j => j.rows == [(0, [])] && j.prog == normHead f ((s.blk.normSets f 0).getD []) 0) = true
      ∧ EvFrame (s.blk.setJobs b.cu.jobs) b))
  ∧ (∀ (s : State) (q seq : Nat) (f : Flight), s.blk.hubUp = true → s.blk.fresh? q seq 0x13 = some f →
      (1 < Norm.kind f.raw ∨ Norm.rows f.raw = 0 ∨ 4096 < Norm.rows f.raw ∨ Norm.d f.raw = 0 ∨ [cBF16, cE4M3, cE5M2].contains (Norm.fmt f.raw) = false) →
    Completes (.bankNorm q seq) s (EvFrame (s.blk.finish q seq stDESC 0 0)))
  ∧ (∀ (s : State) (q seq : Nat) (f : Flight) (d : Desc), s.blk.hubUp = true → s.blk.fresh? q seq 0x14 = some f →
      s.blk.fdesc f (eHandle f.raw 0) = some d → d.fmt = cUINT8 → 1 ≤ fld f.raw 0x20 4 → fld f.raw 0x20 4 ≤ 65536 →
      Dsc.count d = 40 * fld f.raw 0x20 4 → zeroAt f.raw 0x14 12 = true → zeroAt f.raw 0x24 92 = true → s.blk.readsAll f d = true →
      s.blk.readsClean f d →
      (chunk 40 (fld f.raw 0x20 4) (s.blk.tensorBytes f d)).all tableEntryOk = true →
    Completes (.bankTable q seq) s (fun b => b.cu.jobs.map (fun j => (j.q, j.seq)) = s.blk.cu.jobs.map (fun j => (j.q, j.seq)) ++ [(q, seq)]
      ∧ (b.job? q seq).map (fun j => j.prog) = some ((chunk 40 (fld f.raw 0x20 4) (s.blk.tensorBytes f d)).flatMap (tableCmds f))
      ∧ EvFrame ({ s.blk with chans := b.chans }.setJobs b.cu.jobs) b))
  ∧ (∀ (s : State) (q seq : Nat) (f : Flight), s.blk.hubUp = true → s.blk.fresh? q seq 0x14 = some f →
      (s.blk.countOf f (eHandle f.raw 0) ≠ 40 * fld f.raw 0x20 4 ∨ fld f.raw 0x20 4 = 0) →
    Completes (.bankTable q seq) s (EvFrame (s.blk.finish q seq stDESC 0 0)))

/-- R165, R166, R174: TREE_WINDOW_COMPLETE, HUB_WINDOW_COMBINE and NORM_STATS_READY. -/
def Obligations.Reductions : Prop :=
  (∀ (s : State) (f : Flight) (j : Job) (t : TreeCtx), s.blk.onlyJob j = true → s.blk.running? j.q j.seq = some f → eOpcode f.raw = 0x10 →
      t.q = j.q → t.seq = j.seq → s.blk.cu.trees = [t] → t.left = 0 → t.err = none → j.failed = false →
      j.wins.all (fun w => j.combined.contains w.win) = false →
    Completes (.treeWindowComplete j.q j.seq t.stack t.win) s (EvFrame ((s.blk.setTrees []).setJobs [
      { j with wins := j.wins.map (fun w =>
        if w.win = t.win then { w with due := w.due.filter (· != t.stack), got := w.got ++ [t] } else w) }])))
  ∧ (∀ (s : State) (f : Flight) (j : Job) (t : TreeCtx) (u e : Nat), s.blk.onlyJob j = true → s.blk.running? j.q j.seq = some f →
      eOpcode f.raw = 0x10 → t.q = j.q → t.seq = j.seq → s.blk.cu.trees = [t] → t.left = 0 → t.err = some (u, e) → isErr e = true →
      j.errs = [] → j.spoil = [] → s.blk.cu.units = [] → f.preempted = false →
    Completes (.treeWindowComplete j.q j.seq t.stack t.win) s (fun b => Finished b f e ∧ b.cu.jobs = [] ∧ b.cu.trees = []
      ∧ SameMem s.blk b ∧ b.regs = s.blk.regs))
  ∧ (∀ (s : State) (f : Flight) (j : Job) (w : WinSum) (yd : Desc), s.blk.onlyJob j = true → s.blk.running? j.q j.seq = some f →
      eOpcode f.raw = 0x10 → s.blk.fdesc f (eHandle f.raw 2) = some yd → Dsc.kind yd ≠ 1 → j.wins = [w] → w.due = [] → j.combined = [] →
      j.failed = false → j.prog = [] → j.rows = [] → s.blk.cu.units = [] → s.blk.cu.trees = [] → Gemv.passes f.raw = 1 →
      (s.blk.gemvStore f j w yd).1.goesOn = true →
    Completes (.hubWindowCombine j.q j.seq w.win) s (fun b => b.cu.jobs = []
      ∧ (b.flight? j.q j.seq).any (fun g => g.stage == .done && g.result == j.result) = true
      ∧ b.mem = (s.blk.gemvStore f j w yd).1.b.mem))
  ∧ (∀ (s : State) (f : Flight) (j : Job) (t : TreeCtx), s.blk.onlyJob j = true → s.blk.running? j.q j.seq = some f → eOpcode f.raw = 0x13 →
      t.q = j.q → t.seq = j.seq → s.blk.cu.trees = [t] → t.left = 0 → t.err = none → j.failed = false → j.rows = [(t.win, [])] →
      Norm.fmt f.raw ≠ cBF16 →
    Completes (.normStatsReady j.q j.seq t.win) s (fun b =>
      let sum := fun k => (decWide (tget TagAcc.zero ((2 * t.win + k) % 65536) t.tags).wide).scale (wideExp (Norm.fmt f.raw) (Norm.fmt f.raw) 0)
      let m := normStats (Norm.kind f.raw) (Norm.fmt f.raw) (Norm.d f.raw) (Norm.eps f.raw) (sum 0) (sum 1)
      b.cu.trees = [] ∧ SameMem s.blk b ∧ b.regs = s.blk.regs
      ∧ b.cu.jobs.map (fun k => k.rows) = [if t.win + 1 < Norm.rows f.raw then [(t.win + 1, [])] else []]
      ∧ b.cu.jobs.map (fun k => k.prog) = [j.prog ++ normTail f ((s.blk.normSets f t.win).getD []) m.1 m.2
          ++ (if t.win + 1 < Norm.rows f.raw then normHead f ((s.blk.normSets f (t.win + 1)).getD []) (t.win + 1) else [])]))

/-- R185 to R187, R195 to R198: BANK_ATTN, PLAN_READ_DONE, ATTN_FALLBACK_CHECK and ATTN_PROBE_RESOLVE. -/
def Obligations.Attention : Prop :=
  (∀ (s : State) (q seq : Nat) (f : Flight), s.blk.hubUp = true → s.blk.fresh? q seq 0x11 = some f → s.blk.attnCheck f = stOK →
      s.blk.tableCopy f = none →
    Completes (.bankAttn q seq) s (EvFrame (s.blk.updFlight q seq (fun g => { g with progress := 1 }))))
  ∧ (∀ (s : State) (q seq : Nat) (f : Flight) (p : PlanCopy), s.blk.hubUp = true → s.blk.fresh? q seq 0x11 = some f →
      s.blk.attnCheck f = stOK → s.blk.tableCopy f = some p → p.key ≠ [Attn.kvfmt f.raw] →
    Completes (.bankAttn q seq) s (EvFrame (s.blk.finish q seq stDESC 0 0)))
  ∧ (∀ (s : State) (q seq : Nat) (f : Flight), s.blk.hubUp = true → s.blk.fresh? q seq 0x11 = some f →
      ([64, 128, 256].contains (Attn.H f.raw) = false ∨ Attn.nq f.raw = 0 ∨ 4 < Attn.nq f.raw ∨ 1 < Attn.mode f.raw ∨ Attn.heads f.raw = 0
        ∨ Attn.length f.raw < Attn.nq f.raw) →
    Completes (.bankAttn q seq) s (EvFrame (s.blk.finish q seq stDESC 0 0)))
  ∧ (∀ (s : State) (q seq : Nat) (f : Flight) (p : PlanCopy) (d : Desc), s.blk.hubUp = true → s.blk.fresh? q seq 0x11 = some f →
      s.blk.attnCheck f = stOK → s.blk.tableCopy f = some p → p.key = [Attn.kvfmt f.raw] → 8 * Attn.records f.raw ≤ p.data.length →
      s.blk.tableOk p.data (Attn.H f.raw) (Attn.heads f.raw) (Attn.records f.raw) (Attn.records f.raw) = true →
      s.blk.attnPlaces f ((List.range (Attn.records f.raw)).filterMap (fun i => s.blk.ablk p.data (Attn.H f.raw) i)) = stOK →
      Attn.mode f.raw = 1 → Attn.flags f.raw = 0 → s.blk.fdesc f (eHandle f.raw 0) = some d →
      (s.blk.attnWork f d).goesOn = true → s.blk.attnReadsClean f d →
    Completes (.bankAttn q seq) s (fun b =>
      (b.job? q seq).map (fun j => j.plan) = some p.data
      ∧ (b.job? q seq).map (fun j => j.heads) = some ((List.range (Attn.heads f.raw)).map (fun _ =>
          ⟨1, 1, List.replicate (Attn.nq f.raw) 0xC2800000, List.range (Attn.nq f.raw), false, 0, []⟩))
      ∧ (b.job? q seq).any (fun j => j.prog.all (fun c => c.ownedBy q seq)) = true ∧ EvFrame ({ s.blk with chans := b.chans, plans := b.plans }.setJobs b.cu.jobs) b))
  ∧ (∀ (s : State) (q seq : Nat) (f : Flight) (d : Desc), s.blk.hubUp = true → s.blk.fresh? q seq 0x11 = some f → f.progress = 1 →
      s.blk.tableCopy f = none → s.blk.fdesc f (eHandle f.raw 1) = some d → d.fmt = cUINT8 → Dsc.count d = 8 * Attn.records f.raw →
      s.blk.readsAll f d = true → s.blk.readsClean f d → Dsc.count d ≤ s.blk.planRoom →
      s.blk.tableOk (s.blk.tensorBytes f d) (Attn.H f.raw) (Attn.heads f.raw) 0 (Attn.records f.raw) = true →
    Completes (.planReadDone q seq) s (fun b => b.planOf (eHandle f.raw 1) 1 = some (s.blk.tensorBytes f d)))
  ∧ (∀ (s : State) (f : Flight) (j : Job) (x : HeadSt) (w : WinSum), s.blk.onlyJob j = true → s.blk.running? j.q j.seq = some f →
      eOpcode f.raw = 0x11 → j.failed = false → j.prog.isEmpty = false → j.heads = [x] → x.phase = 0 → j.wins = [w] → w.win = 0 →
      w.due = [] → Attn.live f.raw j.sel ≠ [] →
    Completes (.attnFallbackCheck j.q j.seq) s (fun b => SameMem s.blk b ∧ b.regs = s.blk.regs
      ∧ b.cu.jobs.map (fun k => k.heads) = [[
          if ((ctxFlags w.got).testBit 7
              || (Attn.live f.raw j.sel).any (fun v => Ex.lt (lambdaOf f.raw { x with sums := headSums f.raw 0 w.got } v) (.q false 1 8 0))) = true
          then ⟨1, 1, List.replicate (Attn.nq f.raw) 0xC2800000, Attn.live f.raw j.sel, true, ctxFlags w.got &&& (flagNan ||| flagMaskedRow),
            headSums f.raw 0 w.got⟩
          else { x with phase := 3, flags := ctxFlags w.got, sums := headSums f.raw 0 w.got }]]))
  ∧ (∀ (s : State) (f : Flight) (j : Job) (h : Nat) (x : HeadSt) (w : WinSum), s.blk.onlyJob j = true → s.blk.running? j.q j.seq = some f →
      eOpcode f.raw = 0x11 → j.failed = false → j.heads[h]? = some x → x.phase = 1 → j.win? (Attn.win x.runs h) = some w → w.due = [] →
      x.runs < 3 →
    Completes (.attnProbeResolve j.q j.seq h) s (fun b =>
      let tag := Attn.tagBase f.raw h + Attn.H f.raw * Attn.nq f.raw + 2 * Attn.nq f.raw
      let res := (List.range (Attn.nq f.raw)).map (fun v =>
        if x.open'.contains v = true then probe (minPart w.got (tag + v)) (x.refs.getD v 0)
        else (x.refs.getD v 0, true))
      let left := x.open'.filter (fun v => !(res.getD v (0, true)).2)
      (b.job? j.q j.seq).bind (fun k => (k.heads[h]?).map (fun y => (y.phase, y.runs, y.refs, y.open')))
        = some (if left = [] then (2, x.runs, res.map (fun r => r.1), []) else (1, x.runs + 1, res.map (fun r => r.1), left))
      ∧ SameMem s.blk b ∧ b.regs = s.blk.regs))
  ∧ (∀ (s : State) (f : Flight) (j : Job) (h : Nat) (x : HeadSt) (w : WinSum) (v : Nat), s.blk.onlyJob j = true →
      s.blk.running? j.q j.seq = some f → eOpcode f.raw = 0x11 → j.failed = false → j.errs = [] → j.spoil = [] → f.preempted = false →
      j.heads[h]? = some x → x.phase = 1 → j.win? (Attn.win x.runs h) = some w → w.due = [] → x.runs = 3 → s.blk.cu.units = [] →
      x.open' = [v] → v < Attn.nq f.raw →
      (minPart w.got (Attn.tagBase f.raw h + Attn.H f.raw * Attn.nq f.raw + 2 * Attn.nq f.raw + v)).isZero = true →
    Completes (.attnProbeResolve j.q j.seq h) s (fun b => Finished b f stRANGE ∧ b.cu.jobs = [] ∧ SameMem s.blk b ∧ b.regs = s.blk.regs))

/-- R217 to R219: the arithmetic instructions. -/
def Obligations.VectorArithmetic : Prop :=
  (∀ (s : State) (r : VeRun) (c : VeCtx), s.blk.veAt 1 r c = true →
    Completes .vadd s (fun b => LanesRound s.blk b r c (fun n => Ex.add (r.inA c n) (r.inB c n)) (fun n => [r.inA c n, r.inB c n])))
  ∧ (∀ (s : State) (r : VeRun) (c : VeCtx), s.blk.veAt 2 r c = true →
    Completes .vsub s (fun b => LanesRound s.blk b r c (fun n => Ex.sub (r.inA c n) (r.inB c n)) (fun n => [r.inA c n, r.inB c n])))
  ∧ (∀ (s : State) (r : VeRun) (c : VeCtx), s.blk.veAt 3 r c = true →
    Completes .vmul s (fun b => LanesRound s.blk b r c (fun n => Ex.mul (r.inA c n) (r.inB c n)) (fun n => [r.inA c n, r.inB c n])))
  ∧ (∀ (s : State) (r : VeRun) (c : VeCtx), s.blk.veAt 4 r c = true →
    Completes .vfma s (fun b => LanesRound s.blk b r c (fun n => Ex.add (Ex.mul (r.inA c n) (r.inB c n)) (r.inC c n)) (fun n => [r.inA c n, r.inB c n, r.inC c n])))
  ∧ (∀ (s : State) (r : VeRun) (c : VeCtx), s.blk.veAt 5 r c = true →
    Completes .vmin s (fun b => LanesRound s.blk b r c (fun n => Ex.min2 (r.inA c n) (r.inB c n)) (fun n => [r.inA c n, r.inB c n])))
  ∧ (∀ (s : State) (r : VeRun) (c : VeCtx), s.blk.veAt 6 r c = true →
    Completes .vmax s (fun b => LanesRound s.blk b r c (fun n => Ex.max2 (r.inA c n) (r.inB c n)) (fun n => [r.inA c n, r.inB c n])))
  ∧ (∀ (s : State) (r : VeRun) (c : VeCtx), s.blk.veAt 7 r c = true →
    Completes .vabs s (fun b => LanesRound s.blk b r c (fun n => Ex.abs (r.inA c n)) (fun n => [r.inA c n])))
  ∧ (∀ (s : State) (r : VeRun) (c : VeCtx), s.blk.veAt 8 r c = true →
    Completes .vneg s (fun b => LanesRound s.blk b r c (fun n => Ex.neg (r.inA c n)) (fun n => [r.inA c n])))

/-- R217, R218: the instructions on bits and lanes. -/
def Obligations.VectorMoves : Prop :=
  (∀ (s : State) (r : VeRun) (c : VeCtx), s.blk.veAt 9 r c = true →
    Completes .vlogic s (fun b =>
      LanesAre c b.veCtx r r.ins.k (fun n => vLogic r.ins.sub (c.lane r.prog.vfmt r.ins.a n) (c.rawB r.prog.vfmt r.ins n)) ∧ RunsOn s.blk b r 0))
  ∧ (∀ (s : State) (r : VeRun) (c : VeCtx), s.blk.veAt 0xA r c = true → c.vl ≤ 128 →
    Completes .vcmp s (fun b =>
      (∀ n, n < 128 → (b.veCtx.kreg r.ins.d).testBit n
        = if r.ins.d = 0 then true else c.active r.ins.k n && vCmp r.ins.sub (r.inA c n) (r.inB c n))
      ∧ (∀ j, j < 8 → j ≠ r.ins.d → b.veCtx.kreg j = c.kreg j) ∧ b.veCtx.v = c.v ∧ b.veCtx.x = c.x
      ∧ RunsOn s.blk b r (c.gather r.ins.k (fun n => nanFlags [r.inA c n, r.inB c n]))))
  ∧ (∀ (s : State) (r : VeRun) (c : VeCtx), s.blk.veAt 0xB r c = true →
    Completes .vsel s (fun b =>
      LanesAre c b.veCtx r 0 (fun n => if (c.kreg r.ins.k).testBit n then c.lane r.prog.vfmt r.ins.a n else c.rawB r.prog.vfmt r.ins n)
      ∧ RunsOn s.blk b r (nanFlags ((c.lanes 0).map (fun n => decElem r.prog.vfmt
          (if (c.kreg r.ins.k).testBit n then c.lane r.prog.vfmt r.ins.a n else c.rawB r.prog.vfmt r.ins n))))))
  ∧ (∀ (s : State) (r : VeRun) (c : VeCtx), s.blk.veAt 0xC r c = true →
    Completes .vmov s (fun b => LanesAre c b.veCtx r r.ins.k (fun n => c.lane r.prog.vfmt r.ins.a n)
      ∧ RunsOn s.blk b r (nanFlags ((c.lanes r.ins.k).map (r.inA c)))))
  ∧ (∀ (s : State) (r : VeRun) (c : VeCtx), s.blk.veAt 0xD r c = true →
    Completes .vsplat s (fun b => LanesAre c b.veCtx r r.ins.k
        (fun _ => (encElem r.prog.vfmt (decElem (sFmt r.prog.vfmt) (c.xreg r.ins.a))).1)
      ∧ RunsOn s.blk b r (if c.lanes r.ins.k = [] then 0 else (encElem r.prog.vfmt (decElem (sFmt r.prog.vfmt) (c.xreg r.ins.a))).2)))
  ∧ (∀ (s : State) (r : VeRun) (c : VeCtx), s.blk.veAt 0xE r c = true →
    Completes .viota s (fun b => LanesAre c b.veCtx r r.ins.k (fun n => n) ∧ RunsOn s.blk b r 0))
  ∧ (∀ (s : State) (r : VeRun) (c : VeCtx), s.blk.veAt 0x10 r c = true →
    Completes .vperm s (fun b =>
      let idx := fun n => if r.ins.bs then c.xreg r.ins.b else c.lane r.prog.vfmt r.ins.b n
      let get := fun n => if idx n < c.vl then c.lane r.prog.vfmt r.ins.a (idx n) else 0
      LanesAre c b.veCtx r r.ins.k get
      ∧ RunsOn s.blk b r (c.gather r.ins.k (fun n =>
          (if idx n < c.vl then 0 else flagPermOor) ||| nanFlags [decElem r.prog.vfmt (get n)]))))
  ∧ (∀ (s : State) (r : VeRun) (c : VeCtx), s.blk.veAt 0x11 r c = true →
    Completes .vcompress s (fun b =>
      let l := (c.lanes r.ins.k).map (fun n => c.lane r.prog.vfmt r.ins.a n)
      (∀ n, n < vlMax r.prog.vfmt → b.veCtx.lane r.prog.vfmt r.ins.d n = if c.vl ≤ n then 0 else l.getD n 0 % 2 ^ fmtBits r.prog.vfmt)
      ∧ b.veCtx.xreg r.ins.c = (c.lanes r.ins.k).length % 2 ^ 32 ∧ b.veCtx.k = c.k
      ∧ RunsOn s.blk b r (nanFlags (l.map (decElem r.prog.vfmt)))))
  ∧ (∀ (s : State) (r : VeRun) (c : VeCtx), s.blk.veAt 0x12 r c = true →
    Completes .vexpand s (fun b =>
      LanesAre c b.veCtx r r.ins.k (fun n => c.lane r.prog.vfmt r.ins.a ((c.lanes r.ins.k).idxOf n))
      ∧ RunsOn s.blk b r (nanFlags ((c.lanes r.ins.k).map (fun n => decElem r.prog.vfmt (c.lane r.prog.vfmt r.ins.a ((c.lanes r.ins.k).idxOf n)))))))

/-- R218, R222, R223, R229: RED, RGET, XSET, XALU, KOP and VFN. -/
def Obligations.VectorScalars : Prop :=
  (∀ (s : State) (r : VeRun) (c : VeCtx), s.blk.veAt 0x20 r c = true →
    Completes .red s (fun b =>
      let sf := sFmt r.prog.vfmt
      let leaves := (List.range (vlMax r.prog.vfmt)).map (fun n => if c.active r.ins.k n
        then some (if r.prog.vfmt = cINT32 then c.lane r.prog.vfmt r.ins.a n else fl32 (r.inA c n), r.chunk * vlMax r.prog.vfmt + n) else none)
      tget RowAcc.empty r.ins.d b.veCtx.ra
        = ((tget RowAcc.empty r.ins.d c.ra).add sf r.ins.sub (c.lanes r.ins.k).length (redTree sf r.ins.sub 7 leaves).1).1
      ∧ (∀ j, j < 4 → j ≠ r.ins.d → tget RowAcc.empty j b.veCtx.ra = tget RowAcc.empty j c.ra)
      ∧ b.veCtx.v = c.v ∧ b.veCtx.x = c.x ∧ b.veCtx.k = c.k ∧ SameMem s.blk b ∧ b.regs = s.blk.regs))
  ∧ (∀ (s : State) (r : VeRun) (c : VeCtx), s.blk.veAt 0x21 r c = true →
    Completes .rget s (fun b =>
      let y := (tget RowAcc.empty r.ins.a c.ra).get (sFmt r.prog.vfmt) (r.prog.redSub r.ins.a) (Config.freeWord s.blk.ctr).toNat
      b.veCtx.xreg r.ins.d = y.1 % 2 ^ 32 ∧ (∀ j, j < 16 → j ≠ r.ins.d → b.veCtx.xreg j = c.xreg j)
      ∧ b.veCtx.v = c.v ∧ b.veCtx.k = c.k ∧ b.veCtx.ra = c.ra ∧ RunsOn s.blk b r y.2))
  ∧ (∀ (s : State) (r : VeRun) (c : VeCtx), s.blk.veAt 0x28 r c = true →
    Completes .xset s (fun b => b.veCtx.xreg r.ins.d = r.ins.imm ∧ (∀ j, j < 16 → j ≠ r.ins.d → b.veCtx.xreg j = c.xreg j)
      ∧ b.veCtx.v = c.v ∧ b.veCtx.k = c.k ∧ b.veCtx.ra = c.ra ∧ RunsOn s.blk b r 0))
  ∧ (∀ (s : State) (r : VeRun) (c : VeCtx), s.blk.veAt 0x29 r c = true →
    Completes .xalu s (fun b =>
      let y := xAlu (sFmt r.prog.vfmt) r.ins.sub (c.xreg r.ins.a) (c.xreg r.ins.b) (Config.freeWord s.blk.ctr).toNat
      b.veCtx.xreg r.ins.d = y.1 % 2 ^ 32 ∧ (∀ j, j < 16 → j ≠ r.ins.d → b.veCtx.xreg j = c.xreg j)
      ∧ b.veCtx.v = c.v ∧ b.veCtx.k = c.k ∧ b.veCtx.ra = c.ra ∧ RunsOn s.blk b r y.2))
  ∧ (∀ (s : State) (r : VeRun) (c : VeCtx), s.blk.veAt 0x2A r c = true →
    Completes .kop s (fun b =>
      (∀ n, n < 128 → (b.veCtx.kreg r.ins.d).testBit n
        = if r.ins.d = 0 then true
          else if r.ins.sub = 0 then (c.kreg r.ins.a).testBit n && (c.kreg r.ins.b).testBit n
          else if r.ins.sub = 1 then (c.kreg r.ins.a).testBit n || (c.kreg r.ins.b).testBit n
          else if r.ins.sub = 2 then (c.kreg r.ins.a).testBit n != (c.kreg r.ins.b).testBit n
          else (c.kreg r.ins.a).testBit n && !(c.kreg r.ins.b).testBit n)
      ∧ (∀ j, j < 8 → j ≠ r.ins.d → b.veCtx.kreg j = c.kreg j) ∧ b.veCtx.v = c.v ∧ b.veCtx.x = c.x ∧ RunsOn s.blk b r 0))
  ∧ (∀ (s : State) (r : VeRun) (c : VeCtx), s.blk.veAt 0x30 r c = true →
    Completes .vfn s (fun b =>
      LanesAre c b.veCtx r r.ins.k (fun n => (sfuFn r.ins.fn r.prog.vfmt (widen32 r.prog.vfmt (c.lane r.prog.vfmt r.ins.a n))).1)
      ∧ RunsOn s.blk b r (c.gather r.ins.k (fun n => (sfuFn r.ins.fn r.prog.vfmt (widen32 r.prog.vfmt (c.lane r.prog.vfmt r.ins.a n))).2))))

/-- R218, R221: LD, ST, LDK, SCMP, LDX, LDS and STS. -/
def Obligations.VectorMemory : Prop :=
  (∀ (s : State) (r : VeRun) (c : VeCtx) (f : Flight) (d : Desc), s.blk.veAt 0x18 r c = true → s.blk.flight? r.q r.seq = some f →
      s.blk.stream f (s.blk.hub.active == 1) r.ins.s = some d → (s.blk.hub.active = 1 → r.ins.s ≠ 0) →
      (s.blk.ldRead f r d c.vl).1.goesOn = true → r.st = stOK →
    Completes .ld s (fun b =>
      let x := s.blk.ldRead f r d c.vl
      LanesAre c b.veCtx r r.ins.k (fun n => (encElem r.prog.vfmt (x.2.1.getD n .zero)).1)
      ∧ b.hub.current.map (fun y => y.1) = some { x.2.2.next with
          flags := r.flags ||| x.1.flags ||| c.gather r.ins.k (fun n => (encElem r.prog.vfmt (x.2.1.getD n .zero)).2) }
      ∧ (Dsc.repeats d (if s.blk.hub.active = 1 then Tmm.n f.raw else r.len) = false →
          x = (((Wk.hub s.blk f 6).vLoad d (r.elem0 f.raw (s.blk.hub.active == 1)) c.vl).1,
            ((Wk.hub s.blk f 6).vLoad d (r.elem0 f.raw (s.blk.hub.active == 1)) c.vl).2, r))
      ∧ b.mem = x.1.b.mem ∧ b.regs = x.1.b.regs))
  ∧ (∀ (s : State) (r : VeRun) (c : VeCtx) (f : Flight) (d : Desc), s.blk.veAt 0x19 r c = true → s.blk.flight? r.q r.seq = some f →
      s.blk.stream f (s.blk.hub.active == 1) r.ins.s = some d → (c.lanes r.ins.k).length ≠ c.vl → r.st = stOK →
      ((c.lanes r.ins.k).foldl (fun (w : Wk) n => w.putVals d ((Wk.hub s.blk f 6).indices d).2
        (r.elem0 f.raw (s.blk.hub.active == 1) + n) [r.inA c n]) ((Wk.hub s.blk f 6).indices d).1).goesOn = true →
    Completes .st s (fun b => b.veCtx = c ∧ b.hub.current.map (fun x => (x.1.pc, x.1.st)) = some (r.next.pc, stOK)
      ∧ b.mem = ((c.lanes r.ins.k).foldl (fun (w : Wk) n => w.putVals d ((Wk.hub s.blk f 6).indices d).2
        (r.elem0 f.raw (s.blk.hub.active == 1) + n) [r.inA c n]) ((Wk.hub s.blk f 6).indices d).1).b.mem))
  ∧ (∀ (s : State) (r : VeRun) (c : VeCtx) (f : Flight) (d : Desc), s.blk.veAt 0x1A r c = true → s.blk.flight? r.q r.seq = some f →
      s.blk.stream f (s.blk.hub.active == 1) r.ins.s = some d → r.st = stOK → c.vl ≤ 128 →
      ((Wk.hub s.blk f 6).bytes d (r.elem0 f.raw (s.blk.hub.active == 1) / 8)
        ((r.elem0 f.raw (s.blk.hub.active == 1) % 8 + c.vl + 7) / 8)).1.goesOn = true →
    Completes .ldk s (fun b =>
      let e := r.elem0 f.raw (s.blk.hub.active == 1)
      (∀ n, n < c.vl → (b.veCtx.kreg r.ins.d).testBit n
        = if r.ins.d = 0 then true else (leNat ((Wk.hub s.blk f 6).bytes d (e / 8) ((e % 8 + c.vl + 7) / 8)).2).testBit (e % 8 + n))
      ∧ (∀ j, j < 8 → j ≠ r.ins.d → b.veCtx.kreg j = c.kreg j) ∧ b.veCtx.v = c.v ∧ b.veCtx.x = c.x))
  ∧ (∀ (s : State) (r : VeRun) (c : VeCtx) (f : Flight) (d : Desc), s.blk.veAt 0x1B r c = true → s.blk.flight? r.q r.seq = some f →
      s.blk.stream f (s.blk.hub.active == 1) r.ins.s = some d → r.st = stOK →
      r.pos.getD r.ins.s 0 + (c.lanes r.ins.k).length ≤ Dsc.count d →
      (((Wk.hub s.blk f 6).indices d).1.putVals d ((Wk.hub s.blk f 6).indices d).2 (r.pos.getD r.ins.s 0)
        ((c.lanes r.ins.k).map (r.inA c))).goesOn = true →
    Completes .scmp s (fun b =>
      b.hub.current.map (fun x => (x.1.pos, x.1.stored, x.1.st))
        = some (r.pos.set r.ins.s (r.pos.getD r.ins.s 0 + (c.lanes r.ins.k).length), r.stored + (c.lanes r.ins.k).length, stOK)
      ∧ b.mem = (((Wk.hub s.blk f 6).indices d).1.putVals d ((Wk.hub s.blk f 6).indices d).2 (r.pos.getD r.ins.s 0)
        ((c.lanes r.ins.k).map (r.inA c))).b.mem ∧ b.veCtx = c))
  ∧ (∀ (s : State) (r : VeRun) (c : VeCtx) (f : Flight) (d : Desc), s.blk.veAt 0x1C r c = true → s.blk.flight? r.q r.seq = some f →
      s.blk.stream f (s.blk.hub.active == 1) r.ins.s = some d → r.st = stOK →
      (((Wk.hub s.blk f 6).indices d).1.elems d ((Wk.hub s.blk f 6).indices d).2
        ((List.range ((c.lanes r.ins.k).take (Dsc.count d - r.pos.getD r.ins.s 0)).length).map (r.pos.getD r.ins.s 0 + ·))).1.goesOn = true →
    Completes .ldx s (fun b =>
      let l := (c.lanes r.ins.k).take (Dsc.count d - r.pos.getD r.ins.s 0)
      let xs := (((Wk.hub s.blk f 6).indices d).1.elems d ((Wk.hub s.blk f 6).indices d).2
        ((List.range l.length).map (r.pos.getD r.ins.s 0 + ·))).2
      b.hub.current.map (fun x => x.1.pos) = some (r.pos.set r.ins.s (r.pos.getD r.ins.s 0 + l.length))
      ∧ LanesAre c b.veCtx r r.ins.k (fun n =>
          (encElem r.prog.vfmt ((xs.map (fun x => x.val d.fmt)).getD ((c.lanes r.ins.k).idxOf n) .zero)).1)))
  ∧ (∀ (s : State) (r : VeRun) (c : VeCtx) (f : Flight) (d : Desc), s.blk.veAt 0x1D r c = true → s.blk.flight? r.q r.seq = some f →
      s.blk.stream f (s.blk.hub.active == 1) r.ins.s = some d → r.st = stOK →
      (((Wk.hub s.blk f 6).indices d).1.elem d ((Wk.hub s.blk f 6).indices d).2 r.row).1.goesOn = true →
    Completes .lds s (fun b =>
      let x := (((Wk.hub s.blk f 6).indices d).1.elem d ((Wk.hub s.blk f 6).indices d).2 r.row).2
      b.veCtx.xreg r.ins.d = (encElem (sFmt r.prog.vfmt) (x.val d.fmt)).1 % 2 ^ 32
      ∧ (∀ j, j < 16 → j ≠ r.ins.d → b.veCtx.xreg j = c.xreg j) ∧ b.veCtx.v = c.v ∧ b.veCtx.k = c.k))
  ∧ (∀ (s : State) (r : VeRun) (c : VeCtx) (f : Flight) (d : Desc), s.blk.veAt 0x1E r c = true → s.blk.flight? r.q r.seq = some f →
      s.blk.stream f (s.blk.hub.active == 1) r.ins.s = some d → r.st = stOK → r.ins.sub = 0 →
      (((Wk.hub s.blk f 6).indices d).1.putVals d ((Wk.hub s.blk f 6).indices d).2 r.row
        [decElem (sFmt r.prog.vfmt) (c.xreg r.ins.a)]).goesOn = true →
    Completes .sts s (fun b => b.veCtx = c
      ∧ b.mem = (((Wk.hub s.blk f 6).indices d).1.putVals d ((Wk.hub s.blk f 6).indices d).2 r.row
        [decElem (sFmt r.prog.vfmt) (c.xreg r.ins.a)]).b.mem))
  ∧ (∀ (s : State) (r : VeRun) (c : VeCtx) (f : Flight), s.blk.veAt 0x19 r c = true → s.blk.flight? r.q r.seq = some f → r.st = stOK →
      s.blk.stream f (s.blk.hub.active == 1) r.ins.s = none →
    Completes .st s (fun b => b.hub.current.map (fun x => x.1) = some { r.next with st := stDESC } ∧ b.veCtx = c
      ∧ SameMem s.blk b ∧ b.regs = s.blk.regs))

/-- R206 to R213, R220, R225 to R227: TILE_MM, TILE_DONE, FTQ_ENTRY_FREED, VEC_PROG and VE_ROW_BOUNDARY. -/
def Obligations.TilesAndPrograms : Prop :=
  (∀ (s : State) (q seq : Nat) (f : Flight) (yd : Desc), s.blk.hubUp = true → s.blk.unserved q seq 0x20 = some f → s.blk.tmmOk f = true →
      Tmm.epi f.raw = false → s.blk.fdesc f (eHandle f.raw 2) = some yd → s.blk.hub.tiles = [] → s.blk.hub.ox = [] →
      ((Wk.hub s.blk f 5).outsOk [yd]).goesOn = true →
    Completes (.tileMm q seq) s (fun b =>
      (b.tileJob? q seq).map (fun j => (j.total, j.written, j.epi.isSome)) = some (Tmm.total f.raw, 0, false)
      ∧ (b.oxSt 0).run = some (q, seq, 0) ∧ b.flights = s.blk.flights))
  ∧ (∀ (s : State) (q seq : Nat) (f : Flight), s.blk.hubUp = true → s.blk.unserved q seq 0x20 = some f →
      (Tmm.pair (Tmm.wfmt f.raw) (Tmm.afmt f.raw) = false ∨ Tmm.batch f.raw = 0 ∨ Tmm.n f.raw = 0 ∨ Tmm.k f.raw = 0
        ∨ (s.blk.fdesc f (eHandle f.raw 0)).isNone = true) →
    Completes (.tileMm q seq) s (EvFrame (s.blk.finish q seq stDESC 0 0)))
  ∧ (∀ (s : State) (k : Nat) (j : TileJob) (t : Nat) (f : Flight) (wd xd yd : Desc), s.blk.hubUp = true → s.blk.hub.tiles = [j] →
      (s.blk.oxSt k).run = some (j.q, j.seq, t) → s.blk.flight? j.q j.seq = some f → j.epi = none → j.written + 1 = j.total →
      j.next = j.total → s.blk.fdesc f (eHandle f.raw 0) = some wd → s.blk.fdesc f (eHandle f.raw 1) = some xd →
      s.blk.fdesc f (eHandle f.raw 2) = some yd → Dsc.kind yd ≠ 1 → f.preempted = false → Tmm.ofmt f.raw ≠ cWIDE96 →
      ((List.range (Tmm.v f.raw t)).foldl (fun (w : Wk) i => w.putVals yd [] ((Tmm.b0 f.raw t + i) * Tmm.n f.raw + Tmm.n0 f.raw t)
        ((((Wk.hub s.blk f 5).tileSums f.raw wd xd t).2.getD i []).map (fun p => tmmVal f.raw p.1)))
        ((Wk.hub s.blk f 5).tileSums f.raw wd xd t).1).goesOn = true →
    Completes (.tileDone k) s (fun b => b.hub.tiles = []
      ∧ (b.flight? j.q j.seq).map (fun g => (g.stage, g.result))
        = some (.done, { j with written := j.total }.result)
      ∧ b.mem = ((List.range (Tmm.v f.raw t)).foldl (fun (w : Wk) i => w.putVals yd [] ((Tmm.b0 f.raw t + i) * Tmm.n f.raw + Tmm.n0 f.raw t)
        ((((Wk.hub s.blk f 5).tileSums f.raw wd xd t).2.getD i []).map (fun p => tmmVal f.raw p.1)))
        ((Wk.hub s.blk f 5).tileSums f.raw wd xd t).1).b.mem))
  ∧ (∀ (s : State) (periods : List Nat), s.blk.hubUp = true →
    Completes (.ftqEntryFreed periods) s (fun b => SameMem s.blk b ∧ b.regs = s.blk.regs
      ∧ (s.blk.hub.ftq.find? Tile.stored = none → b.hub.ftq = s.blk.hub.ftq)
      ∧ ((List.range 4).all (fun k => (s.blk.oxSt k).kept.isEmpty) = true →
          b.hub.ftq = ((s.blk.hub.ftq.find? Tile.stored).map s.blk.hub.ftq.erase).getD s.blk.hub.ftq)
      ∧ ((s.blk.hub.ftq.find? Tile.stored).isSome = true → b.hub.tiles.map TileJob.waited = s.blk.hub.tiles.map (fun j =>
          j.waited + ((List.range 4).flatMap (fun k => (s.blk.oxSt k).kept.map (fun t => (t.q, t.seq, periods.getD k 0)))).foldl
            (fun n w => if w.1 == j.q && w.2.1 == j.seq then max n w.2.2 else n) 0))))
  ∧ (∀ (s : State) (q seq : Nat) (f : Flight) (p : VProg), s.blk.hubUp = true → s.blk.unserved q seq 0x21 = some f →
      s.blk.flights = [f] → Vpg.progH f.raw = 0 → Vpg.len f.raw ≤ 2147483647 → zeroAt f.raw 0x2C 4 = true → inlineProg f.raw = some p →
      p.firstBad false = none → (s.blk.vecOuts f p).goesOn = true → s.blk.streamsOk f p = true → 1 ≤ Vpg.rows f.raw →
    Completes (.vecProg q seq) s (fun b =>
      ((b.hub.run.toList ++ b.hub.queue).find? (fun r => r.q == q && r.seq == seq)).map (fun r => (r.prog.code, r.rows, r.len, r.row))
        = some (p.code, Vpg.rows f.raw, Vpg.len f.raw, 0)
      ∧ b.flights = s.blk.flights))
  ∧ (∀ (s : State) (q seq : Nat) (f : Flight) (p : VProg), s.blk.hubUp = true → s.blk.unserved q seq 0x21 = some f →
      s.blk.flights = [f] → Vpg.progH f.raw = 0 → Vpg.len f.raw ≤ 2147483647 → zeroAt f.raw 0x2C 4 = true → inlineProg f.raw = some p →
      p.firstBad false = none → (s.blk.vecOuts f p).goesOn = true → s.blk.streamsOk f p = true → Vpg.rows f.raw = 0 → f.preempted = false →
      f.flags = 0 → (s.blk.vecOuts f p).flags = 0 →
    Completes (.vecProg q seq) s (fun b => FinishedWith b f stOK 0))
  ∧ (∀ (s : State) (q seq : Nat) (f : Flight) (p : VProg) (n : Nat), s.blk.hubUp = true → s.blk.unserved q seq 0x21 = some f →
      s.blk.flights = [f] → Vpg.progH f.raw = 0 → Vpg.len f.raw ≤ 2147483647 → zeroAt f.raw 0x2C 4 = true → inlineProg f.raw = some p →
      p.firstBad false = some n → (s.blk.vecOuts f p).goesOn = true → f.preempted = false →
    Completes (.vecProg q seq) s (fun b => FinishedWith b f stDESC n))
  ∧ (∀ (s : State) (r : VeRun), s.blk.hubUp = true → s.blk.hub.active = 2 → s.blk.hub.run = some r → s.blk.hub.tile = none →
      s.blk.hub.ftq = [] → s.blk.hub.queue = [] → r.phase = 3 → r.st = stOK → r.stop = stOK → r.row < r.rows →
      (s.blk.flight? r.q r.seq).any (fun f => !f.preempted) = true →
    Completes (.veRowBoundary false) s (fun b => SameMem s.blk b ∧ b.regs = s.blk.regs
      ∧ (r.row + 1 < r.rows → b.hub.run = some ({ r with row := r.row + 1 }).startRow ∧ b.hub.prog.ra = [] ∧ b.flights = s.blk.flights)
      ∧ (r.row + 1 = r.rows → b.hub.run = none ∧ b.hub.active = 0
        ∧ (b.flight? r.q r.seq).map (fun g => (g.stage, g.result)) = some (.done, (r.row + 1) % 2 ^ 32 + r.stored % 2 ^ 32 * 2 ^ 32))))

/-- R235 to R246: the operations of SFU_ROW. -/
def Obligations.SfuRows : Prop :=
  (∀ (s : State) (q seq : Nat) (f : Flight), s.blk.sfuReady q seq 0 f = true → Sfu.user f.raw = false →
      ((s.blk.sfuOuts f).sfuRow f [] 0).1.goesOn = true →
    Completes (.sfuMap q seq) s (fun b => SfuDone b f ((s.blk.sfuOuts f).sfuRow f [] 0)))
  ∧ (∀ (s : State) (q seq : Nat) (f : Flight), s.blk.sfuReady q seq 0 f = true → Sfu.user f.raw = true →
      (s.blk.hub.user (Sfu.fn f.raw)).require (Sfu.gen f.raw) = some (s.blk.hub.user (Sfu.fn f.raw)) →
      ((s.blk.sfuOuts f).sfuRow f (s.blk.hub.user (Sfu.fn f.raw)).table 0).1.goesOn = true →
    Completes (.sfuMap q seq) s (fun b =>
      SfuDone b f ((s.blk.sfuOuts f).sfuRow f (s.blk.hub.user (Sfu.fn f.raw)).table 0)))
  ∧ (∀ (s : State) (q seq : Nat) (f : Flight), s.blk.sfuReady q seq 0 f = true → Sfu.user f.raw = true → f.preempted = false →
      (s.blk.hub.user (Sfu.fn f.raw)).bank0.gen ≠ Sfu.gen f.raw → (s.blk.hub.user (Sfu.fn f.raw)).bank1.gen ≠ Sfu.gen f.raw →
    Completes (.sfuMap q seq) s (fun b => Finished b f stTABLE))
  ∧ (∀ (s : State) (q seq : Nat) (f : Flight), s.blk.sfuReady q seq 1 f = true →
      ((s.blk.sfuOuts f).sfuRow f [] 0).1.goesOn = true →
    Completes (.sfuSoftmax q seq) s (fun b => SfuDone b f ((s.blk.sfuOuts f).sfuRow f [] 0)))
  ∧ (∀ (s : State) (q seq : Nat) (f : Flight), s.blk.sfuReady q seq 2 f = true →
      ((s.blk.sfuOuts f).sfuRow f [] 0).1.goesOn = true →
    Completes (.sfuLogSoftmax q seq) s (fun b => SfuDone b f ((s.blk.sfuOuts f).sfuRow f [] 0)))
  ∧ (∀ (s : State) (q seq : Nat) (f : Flight), s.blk.sfuReady q seq 3 f = true →
      ((s.blk.sfuOuts f).sfuRow f [] 0).1.goesOn = true →
    Completes (.sfuLayerNorm q seq) s (fun b => SfuDone b f ((s.blk.sfuOuts f).sfuRow f [] 0)))
  ∧ (∀ (s : State) (q seq : Nat) (f : Flight), s.blk.sfuReady q seq 4 f = true →
      ((s.blk.sfuOuts f).sfuRow f [] 0).1.goesOn = true →
    Completes (.sfuRmsNorm q seq) s (fun b => SfuDone b f ((s.blk.sfuOuts f).sfuRow f [] 0)))
  ∧ (∀ (s : State) (q seq : Nat) (f : Flight) (op : Nat) (c : Instr),
      (op, c) ∈ [(0, .sfuMap q seq), (1, .sfuSoftmax q seq), (2, .sfuLogSoftmax q seq), (3, .sfuLayerNorm q seq), (4, .sfuRmsNorm q seq)] →
      s.blk.hubUp = true → s.blk.running? q seq = some f → eOpcode f.raw = 0x22 → Sfu.op f.raw = op → s.blk.sfuTurn f = true →
      f.progress ≠ 0 → ((Wk.hub s.blk f 6).sfuRow f (s.blk.hub.user (Sfu.fn f.raw)).table f.progress).1.goesOn = true →
    Completes c s (fun b => SfuDone b f ((Wk.hub s.blk f 6).sfuRow f (s.blk.hub.user (Sfu.fn f.raw)).table f.progress)))
  ∧ (∀ (s : State) (q seq : Nat) (f : Flight) (op : Nat) (c : Instr),
      (op, c) ∈ [(0, .sfuMap q seq), (1, .sfuSoftmax q seq), (2, .sfuLogSoftmax q seq), (3, .sfuLayerNorm q seq), (4, .sfuRmsNorm q seq)] →
      s.blk.hubUp = true → s.blk.running? q seq = some f → eOpcode f.raw = 0x22 → Sfu.op f.raw = op → s.blk.sfuTurn f = true →
      f.progress = 0 → sfuFields f.raw = true → Sfu.rows f.raw = 0 →
    Completes c s (EvFrame (s.blk.finish q seq stOK 0 0)))
  ∧ (∀ (s : State) (q seq : Nat) (f : Flight) (d : Desc), s.blk.hubUp = true → s.blk.running? q seq = some f → eOpcode f.raw = 0x22 →
      Sfu.op f.raw = 5 → s.blk.sfuTurn f = true → f.progress = 0 → sfuFields f.raw = true → s.blk.sfuTensors f = true →
      f.preempted = false → s.blk.fdesc f (eHandle f.raw 0) = some d → ((Wk.hub s.blk f 6).bytes d 0 1040).1.goesOn = true →
    Completes (.sfuLoadTable q seq) s (fun b =>
      let t := ((Wk.hub s.blk f 6).bytes d 0 1040).2
      let u := s.blk.hub.user (Sfu.fn f.raw)
      let v := b.hub.user (Sfu.fn f.raw)
      if zeroAt t 5 3 = true ∧ f32Finite (fld t 0 4) = true
      then v.active = u.active ∧ v.table = u.table ∧ (if u.active = 0 then v.bank1 else v.bank0) = ⟨t, Sfu.gen f.raw⟩
        ∧ (b.flight? q seq).map Flight.stage = some .done
      else Finished b f stDESC ∧ b.hub = s.blk.hub))
  ∧ (∀ (s : State) (q seq : Nat) (f : Flight), s.blk.hubUp = true → s.blk.running? q seq = some f → eOpcode f.raw = 0x22 →
      Sfu.op f.raw = 1 → s.blk.sfuTurn f = true → f.progress = 0 → sfuFields f.raw = true → Sfu.rows f.raw ≠ 0 →
      s.blk.sfuTensors f = true → (s.blk.sfuOuts f).st = stALIAS → (s.blk.sfuOuts f).stall = false → (s.blk.sfuOuts f).need = [] →
    Completes (.sfuSoftmax q seq) s (EvFrame ((s.blk.sfuOuts f).b.finish q seq stALIAS (s.blk.sfuOuts f).flags 0)))

/-- R238, R239: what a row gives for masked elements, for no element, and for a NaN. -/
def Obligations.SoftRowMasks : Prop :=
  (∀ (e : Bytes) (xs : List Nat) (m : List Bool) (i : Nat), m.length = xs.length → m[i]? = some true →
      (List.zipWith (fun x k => k || !(f32 (sfuZ e x).1).isNan) xs m).all (fun x => x) = true →
    (softRow e xs m).y[i]? = some (if Sfu.op e = 2 then negInfOut (Sfu.outF e) else 0))
  ∧ (∀ (e : Bytes) (xs : List Nat) (m : List Bool), m.length = xs.length →
      (List.zipWith (fun x k => k || (sfuZ e x).1 == f32NInf) xs m).all (fun x => x) = true →
    (softRow e xs m).empty = true ∧ (softRow e xs m).flags.testBit 4 = true
      ∧ (softRow e xs m).y = List.replicate xs.length (if Sfu.op e = 2 then negInfOut (Sfu.outF e) else 0))
  ∧ (∀ (e : Bytes) (xs : List Nat) (m : List Bool) (i : Nat), m.length = xs.length → m[i]? = some false →
      (xs[i]?).any (fun x => (f32 (sfuZ e x).1).isNan) = true → Sfu.crl e = false →
    (softRow e xs m).flags = flagNan ∧ (softRow e xs m).y = List.replicate xs.length (nanOut (Sfu.outF e)))
  ∧ (∀ (e : Bytes) (xs : List Nat) (m : List Bool) (i : Nat), m.length = xs.length → m[i]? = some false →
      (xs[i]?).any (fun x => (f32 (sfuZ e x).1).isNan) = true → Sfu.crl e = true →
    (softRow e xs m).flags = flagNan
      ∧ (softRow e xs m).y = List.replicate xs.length (crl1Out (Sfu.outF e)
          (firstNan ((List.zipWith (fun x k => if k then none else some (sfuZ e x).1) xs m).filterMap id))).1)

/-- R263 to R265, R273 to R277, R281: COPY, FILL and RELAY. -/
def Obligations.DataMovement : Prop :=
  (∀ (s : State) (q seq : Nat) (f : Flight) (d : Desc), s.blk.hubUp = true → s.blk.running q seq 3 = some f → s.blk.copyOk f = true →
      s.blk.fdesc f (eHandle f.raw 2) = some d →
      (s.blk.fdesc f (eHandle f.raw 0)).all (fun x => !spansMeet (herdSpans x) (herdSpans d)) = true →
      (2 ≤ Dsc.collide d → s.blk.accHeld f d = false) → (s.blk.copyPart f (s.blk.fdesc f (eHandle f.raw 0)) d).1.goesOn = true →
    Completes (.copy q seq) s (fun b =>
      let w := (s.blk.copyPart f (s.blk.fdesc f (eHandle f.raw 0)) d).1
      let n := f.result + w.stored
      if Dsc.bursts d ≤ f.progress + 1 then PartDone b f w true (min n (2 ^ 32 - 1)) else PartDone b f w false n))
  ∧ (∀ (s : State) (q seq : Nat) (f : Flight) (d : Desc), s.blk.hubUp = true → s.blk.running q seq 3 = some f → s.blk.copyOk f = true →
      s.blk.fdesc f (eHandle f.raw 2) = some d → 2 ≤ Dsc.collide d → Dsc.kind d = 0 → eHandle f.raw 0 = 0 → s.blk.fdesc f 0 = none →
      s.blk.accHeld f d = false → f.progress = 0 → Dsc.bursts d = 1 → Dsc.burst d 0 = List.range (Dsc.count d) →
      (List.range (Dsc.count d)).all (fun e => Dsc.burstOf d e == 0) = true →
      ((Wk.start s.blk f 4).accumulate d [] { f.burst with source := [] }
        ((List.range (Dsc.count d)).map (fun i => (i, (inlineElem d.fmt f.raw i).val d.fmt)))).1.goesOn = true →
    Completes (.copy q seq) s (fun b => (b.flight? q seq).map Flight.stage = some .done
      ∧ b.mem = ((Wk.start s.blk f 4).accumulate d [] { f.burst with source := [] }
        ((List.range (Dsc.count d)).map (fun i => (i, (inlineElem d.fmt f.raw i).val d.fmt)))).1.b.mem))
  ∧ (∀ (s : State) (q seq : Nat) (f : Flight) (d : Desc), s.blk.hubUp = true → s.blk.running q seq 3 = some f → s.blk.copyOk f = true →
      s.blk.fdesc f (eHandle f.raw 2) = some d → 2 ≤ Dsc.collide d → s.blk.accHeld f d = true →
      (s.blk.fdesc f (eHandle f.raw 0)).all (fun x => !spansMeet (herdSpans x) (herdSpans d)) = true →
    Completes (.copy q seq) s (EvFrame s.blk))
  ∧ (∀ (s : State) (q seq : Nat) (f : Flight) (x d : Desc), s.blk.hubUp = true → s.blk.running q seq 3 = some f → s.blk.copyOk f = true →
      s.blk.fdesc f (eHandle f.raw 0) = some x → s.blk.fdesc f (eHandle f.raw 2) = some d → spansMeet (herdSpans x) (herdSpans d) = true →
    Completes (.copy q seq) s (EvFrame (s.blk.finish q seq stALIAS 0 0)))
  ∧ (∀ (s : State) (q seq : Nat) (f : Flight), s.blk.hubUp = true → s.blk.running q seq 3 = some f →
      (eHandle f.raw 1 ≠ 0 ∨ eHandle f.raw 3 ≠ 0 ∨ s.blk.fdesc f (eHandle f.raw 2) = none ∨ (eHandle f.raw 0 = 0 ∧ 96 < eInline f.raw)) →
    Completes (.copy q seq) s (EvFrame (s.blk.finish q seq stDESC 0 0)))
  ∧ (∀ (s : State) (q seq : Nat) (f : Flight) (d : Desc), s.blk.hubUp = true → s.blk.running q seq 5 = some f →
      s.blk.fdesc f (eHandle f.raw 2) = some d → eHandle f.raw 0 = 0 → eHandle f.raw 1 = 0 → eHandle f.raw 3 = 0 →
      zeroAt f.raw 0x24 92 = true → Dsc.write d = true → fillOk d.fmt (fld f.raw 0x20 4) = true → (s.blk.fillPart f d).goesOn = true →
    Completes (.fill q seq) s (fun b => PartDone b f (s.blk.fillPart f d) (decide (Dsc.bursts d ≤ f.progress + 1)) 0))
  ∧ (∀ (s : State) (q seq : Nat) (f : Flight) (d : Desc), s.blk.hubUp = true → s.blk.running q seq 5 = some f →
      s.blk.fdesc f (eHandle f.raw 2) = some d →
      (eHandle f.raw 0 ≠ 0 ∨ Dsc.write d = false ∨ fillOk d.fmt (fld f.raw 0x20 4) = false) →
    Completes (.fill q seq) s (EvFrame (s.blk.finish q seq stDESC 0 0)))
  ∧ (∀ (s : State) (q seq : Nat) (f : Flight) (p d : Desc) (t : Bytes), s.blk.hubUp = true → s.blk.running q seq 4 = some f →
      s.blk.relayOk f = true → s.blk.fdesc f (eHandle f.raw 0) = some p → s.blk.fdesc f (eHandle f.raw 2) = some d → Rly.kind f.raw < 2 →
      f.progress = 0 → s.blk.planOf (eHandle f.raw 1) 0 = some t → t ≠ [] →
      s.blk.planOk t (Rly.n f.raw) (Rly.k f.raw) (Rly.wfmt f.raw) d = true →
      ((Wk.start s.blk f 4).relayPart f.raw t p 0).goesOn = true →
    Completes (.relay q seq) s (fun b =>
      PartDone b f ((Wk.start s.blk f 4).relayPart f.raw t p 0) (decide ((recsOf t).length ≤ 1)) 0))
  ∧ (∀ (s : State) (q seq : Nat) (f : Flight) (p d : Desc) (t : Bytes), s.blk.hubUp = true → s.blk.running q seq 4 = some f →
      s.blk.relayOk f = true → s.blk.fdesc f (eHandle f.raw 0) = some p → s.blk.fdesc f (eHandle f.raw 2) = some d → 2 ≤ Rly.kind f.raw →
      f.progress = 0 → s.blk.planOf (eHandle f.raw 1) 1 = some t → t ≠ [] → 8 * Rly.records f.raw ≤ t.length →
      s.blk.tableOk t (Rly.H f.raw) (Rly.n f.raw) 0 (Rly.records f.raw) = true →
      ((Wk.start s.blk f 4).relayPart f.raw t p 0).goesOn = true →
    Completes (.relay q seq) s (fun b =>
      PartDone b f ((Wk.start s.blk f 4).relayPart f.raw t p 0) (decide (Rly.records f.raw ≤ 1)) 0))
  ∧ (∀ (s : State) (q seq : Nat) (f : Flight) (p d : Desc), s.blk.hubUp = true → s.blk.running q seq 4 = some f →
      s.blk.relayOk f = true → s.blk.fdesc f (eHandle f.raw 0) = some p → s.blk.fdesc f (eHandle f.raw 2) = some d →
      f.progress ≠ 0 → ((Wk.start s.blk f 4).relayPart f.raw f.burst.table p f.progress).goesOn = true →
    Completes (.relay q seq) s (fun b =>
      PartDone b f ((Wk.start s.blk f 4).relayPart f.raw f.burst.table p f.progress)
        (decide (relayCount f.raw f.burst.table ≤ f.progress + 1)) 0))
  ∧ (∀ (s : State) (q seq : Nat) (f : Flight), s.blk.hubUp = true → s.blk.running q seq 4 = some f →
      (4 ≤ Rly.kind f.raw ∨ eHandle f.raw 3 ≠ 0 ∨ s.blk.fdesc f (eHandle f.raw 1) = none) →
    Completes (.relay q seq) s (EvFrame (s.blk.finish q seq stDESC 0 0)))

/-- R254 to R260, R278, R297, R311: DESC_CREATE, DESC_DROP, NOP and FENCE. -/
def Obligations.DescriptorsAndFences : Prop :=
  (∀ (s : State) (q seq : Nat) (f : Flight), s.blk.hubUp = true → s.blk.running q seq 8 = some f → f.flags = 0 → f.preempted = false →
      f.status = stOK →
      s.blk.descs.all (fun p => p.1 != descKey (handleOf q (descIndex f.raw))) = true → descForm f.raw = true → descRules f.raw = true →
      s.blk.ixOk q (descIn f.raw) = true → Dsc.owner (descIn f.raw) = false → s.blk.spansOk q (descIn f.raw) = true →
      (Dsc.write (descIn f.raw) = true → Dsc.collide (descIn f.raw) = 0 → Dsc.distinct (descIn f.raw) = true) →
    Completes (.descCreate q seq) s (fun b =>
      b.desc? q (handleOf q (descIndex f.raw)) = some (descIn f.raw)
      ∧ FinishedWith b f stOK (handleOf q (descIndex f.raw) + (if Dsc.distinct (descIn f.raw) then 2 ^ 32 else 0))
      ∧ SameMem s.blk b ∧ b.regs = s.blk.regs))
  ∧ (∀ (s : State) (q seq : Nat) (f : Flight) (o : Desc), s.blk.hubUp = true → s.blk.running q seq 8 = some f → f.status = stOK →
      s.blk.descs.all (fun p => p.1 != descKey (handleOf q (descIndex f.raw))) = true → descForm f.raw = true → descRules f.raw = true →
      s.blk.ixOk q (descIn f.raw) = true → Dsc.owner (descIn f.raw) = true → s.blk.desc? q (descIn f.raw).base = some o →
      Dsc.kind o = 0 → Dsc.owner o = false → o.fmt = cUINT8 → s.blk.haLocal o.base = true → Dsc.count o % 16 = 0 → 16 ≤ Dsc.count o →
      Dsc.count o ≤ 65536 → ((Wk.start s.blk f 4).bytes o 0 (Dsc.count o)).1.goesOn = true →
      { ((Wk.start s.blk f 4).bytes o 0 (Dsc.count o)).1.b with chans := s.blk.chans } = s.blk →
      ownersCover (ownersOf ((Wk.start s.blk f 4).bytes o 0 (Dsc.count o)).2) 0 (Dsc.dim (descIn f.raw) ((descIn f.raw).rank - 1)) = true →
      Dsc.count o ≤ s.blk.planRoom → Dsc.write (descIn f.raw) = false →
      s.blk.spansOk q { descIn f.raw with base := 0, owners := ownersOf ((Wk.start s.blk f 4).bytes o 0 (Dsc.count o)).2 } = true →
    Completes (.descCreate q seq) s (fun b =>
      b.desc? q (handleOf q (descIndex f.raw))
        = some { descIn f.raw with base := 0, owners := ownersOf ((Wk.start s.blk f 4).bytes o 0 (Dsc.count o)).2 }
      ∧ SameMem s.blk b ∧ b.regs = s.blk.regs))
  ∧ (∀ (s : State) (q seq : Nat) (f : Flight), s.blk.hubUp = true → s.blk.running q seq 8 = some f →
      (s.blk.descs.any (fun p => p.1 == descKey (handleOf q (descIndex f.raw))) = true ∨ descForm f.raw = false ∨ descRules f.raw = false) →
    Completes (.descCreate q seq) s (EvFrame (s.blk.finish q seq stDESC 0 0)))
  ∧ (∀ (s : State) (q seq : Nat) (f : Flight), s.blk.hubUp = true → s.blk.running q seq 8 = some f → f.status = stOK →
      s.blk.descs.all (fun p => p.1 != descKey (handleOf q (descIndex f.raw))) = true → descForm f.raw = true → descRules f.raw = true →
      s.blk.ixOk q (descIn f.raw) = true → Dsc.owner (descIn f.raw) = false → s.blk.spansOk q (descIn f.raw) = false →
    Completes (.descCreate q seq) s (EvFrame (s.blk.finish q seq stRANGE 0 0)))
  ∧ (∀ (s : State) (q seq : Nat) (f : Flight), s.blk.hubUp = true → s.blk.running q seq 8 = some f → f.status = stOK →
      s.blk.descs.all (fun p => p.1 != descKey (handleOf q (descIndex f.raw))) = true → descForm f.raw = true → descRules f.raw = true →
      s.blk.ixOk q (descIn f.raw) = true → Dsc.owner (descIn f.raw) = false → s.blk.spansOk q (descIn f.raw) = true →
      Dsc.write (descIn f.raw) = true → Dsc.collide (descIn f.raw) = 0 → Dsc.distinct (descIn f.raw) = false →
    Completes (.descCreate q seq) s (EvFrame (s.blk.finish q seq stALIAS 0 0)))
  ∧ (∀ (s : State) (q seq : Nat) (f : Flight) (x : DescSt), s.blk.hubUp = true → s.blk.running q seq 9 = some f → zeroAt f.raw 0x14 108 = true →
      eHandle f.raw 0 / 2 ^ 18 = 0x2000 → eHandle f.raw 0 / 0x1000 % 64 = q →
      (s.blk.descs.find? (fun p => p.1 == descKey (eHandle f.raw 0))).map (fun p => p.2) = some x → x.phase ≠ .dropped →
      f.preempted = false → f.flags = 0 →
    Completes (.descDrop q seq) s (fun b =>
      b.descs = (if s.blk.descUsed (descKey (eHandle f.raw 0)) q seq then tset (descKey (eHandle f.raw 0)) { x with phase := .dropped } s.blk.descs
        else tdel (descKey (eHandle f.raw 0)) s.blk.descs)
      ∧ FinishedWith b f stOK 0 ∧ SameMem s.blk b ∧ b.regs = s.blk.regs))
  ∧ (∀ (s : State) (q seq : Nat) (f : Flight), s.blk.hubUp = true → s.blk.running q seq 9 = some f →
      s.blk.desc? q (eHandle f.raw 0) = none → s.blk.descs.all (fun p => p.1 != descKey (eHandle f.raw 0)) = true →
    Completes (.descDrop q seq) s (EvFrame (s.blk.finish q seq stDESC 0 0)))
  ∧ (∀ (s : State) (q seq : Nat) (f : Flight), s.blk.hubUp = true → s.blk.running q seq 1 = some f →
    Completes (.nop q seq) s (EvFrame (s.blk.finish q seq (if zeroAt f.raw 0x10 112 then stOK else stDESC) 0 0)))
  ∧ (∀ (s : State) (q seq : Nat) (f : Flight), s.blk.hubUp = true → s.blk.running q seq 2 = some f → zeroAt f.raw 0x10 16 = true →
      zeroAt f.raw 0x28 88 = true →
    Completes (.fence q seq) s (EvFrame (
      if f.waits.any (fun p => (s.blk.flight? p.1 p.2).isSome) then s.blk else s.blk.finish q seq stOK 0 0)))

/-- R284 to R288, R292, R293: window accesses. -/
def Obligations.Window : Prop :=
  (∀ (s : State) (off n : Nat), s.blk.hostOn = true → off + n ≤ 2 ^ 28 → s.blk.winWaits (s.blk.winBase + off) n = false →
      s.blk.mem.sramBad = none →
      winPieces s.blk (n / 64 + 2) (s.blk.winBase + off) n = [(s.blk.winBase + off, n, true)] →
      (readPiece (s.blk.winCharged off n) rqWin (s.blk.winBase + off) n).st = stOK →
    Completes (.windowRead off n) s (fun b =>
      EvFrame (readPiece (s.blk.winCharged off n) rqWin (s.blk.winBase + off) n).b b
      ∧ .winRead off (readPiece (s.blk.winCharged off n) rqWin (s.blk.winBase + off) n).data [] ∈ b.sent))
  ∧ (∀ (s : State) (off n : Nat), s.blk.hostOn = true → off + n ≤ 2 ^ 28 → s.blk.winWaits (s.blk.winBase + off) n = false →
      s.blk.mem.sramBad = none →
      winPieces s.blk (n / 64 + 2) (s.blk.winBase + off) n = [(s.blk.winBase + off, n, true)] → 0 < n →
      (readPiece (s.blk.winCharged off n) rqWin (s.blk.winBase + off) n).st ≠ stOK →
    Completes (.windowRead off n) s (fun b =>
      .winRead off (List.replicate n 0xFF) (List.range n) ∈ b.sent ∧ (b.reg oWIN_EVENTS).testBit 2 = true))
  ∧ (∀ (s : State) (off n : Nat), s.blk.hostOn = true → off + n ≤ 2 ^ 28 → s.blk.winWaits (s.blk.winBase + off) n = false →
      s.blk.mem.sramBad = none →
      winPieces s.blk (n / 64 + 2) (s.blk.winBase + off) n = [(s.blk.winBase + off, n, false)] →
    Completes (.windowRead off n) s (fun b =>
      .winRead off (List.replicate n 0xFF) [] ∈ b.sent ∧ (b.reg oWIN_EVENTS).testBit 0 = true ∧ SameMem s.blk b
        ∧ (s.blk.logUp = true → LastLog s.blk b kWIN_RANGE 0)))
  ∧ (∀ (s : State) (off n buf o : Nat), s.blk.hostOn = true → off + n ≤ 2 ^ 28 → s.blk.winWaits (s.blk.winBase + off) n = false →
      0 < n → s.blk.mem.sramBad = some (buf, o) →
      winPieces s.blk (n / 64 + 2) (s.blk.winBase + off) n = [(s.blk.winBase + off, n, true)] →
    Completes (.windowRead off n) s (fun b =>
      .winRead off (List.replicate n 0xFF) (List.range n) ∈ b.sent ∧ (b.reg oWIN_EVENTS).testBit 2 = true ∧ b.mem.sramBad = none))
  ∧ (∀ (s : State) (off : Nat) (d : Bytes), s.blk.hostOn = true → off + d.length ≤ 2 ^ 28 →
      s.blk.winWaits (s.blk.winBase + off) d.length = false → s.blk.slotsOn = false →
      winPieces s.blk (d.length / 64 + 2) (s.blk.winBase + off) d.length = [(s.blk.winBase + off, d.length, true)] → d ≠ [] →
    Completes (.windowWrite off d) s (EvFrame
      (writePiece ((s.blk.atPort .host).chargeRange cHub (s.blk.winBase + off) d.length true) rqWin (s.blk.winBase + off) d).1))
  ∧ (∀ (s : State) (off : Nat) (d : Bytes), s.blk.hostOn = true → off + d.length ≤ 2 ^ 28 →
      s.blk.winWaits (s.blk.winBase + off) d.length = false → s.blk.slotsOn = false → d ≠ [] →
      winPieces s.blk (d.length / 64 + 2) (s.blk.winBase + off) d.length = [(s.blk.winBase + off, d.length, false)] →
    Completes (.windowWrite off d) s (EvFrame
      (((s.blk.atPort .host).chargeRange cHub (s.blk.winBase + off) d.length true).winRange (s.blk.winBase + off))))
  ∧ (∀ (s : State) (off i x : Nat) (d : Bytes) (o : Nat), s.blk.hostOn = true → off + d.length ≤ 2 ^ 28 →
      s.blk.winWriteWaits off d.length s.blk.winBase = false → s.blk.slotAt off = some (i, x) → x = 0 → d.length = 1 →
      ((s.blk.atPort .host).slotOwner i).2 = o → hostMay o (d.getD 0 0).toNat = true → (d.getD 0 0).toNat ≠ o →
    Completes (.windowWrite off d) s (EvFrame (((s.blk.atPort .host).slotOwner i).1.setOwner i (d.getD 0 0).toNat)))
  ∧ (∀ (s : State) (off i x : Nat) (d : Bytes) (o : Nat), s.blk.hostOn = true → off + d.length ≤ 2 ^ 28 →
      s.blk.winWriteWaits off d.length s.blk.winBase = false → s.blk.slotAt off = some (i, x) → 8 ≤ x → d ≠ [] →
      x + d.length ≤ s.blk.slotSize → ((s.blk.atPort .host).slotOwner i).2 = o → o ≠ 1 →
    Completes (.windowWrite off d) s (EvFrame (((s.blk.atPort .host).slotOwner i).1.slotViolation i (s.blk.winBase + off))))
  ∧ (∀ (s : State) (off n : Nat), s.blk.hostOn = true → off + n ≤ 2 ^ 28 → s.blk.winWaits (s.blk.winBase + off) n = true →
    Completes (.windowRead off n) s (fun b => b.held = s.blk.held ++ [.winRead off n s.blk.winBase] ∧ SameMem s.blk b))
  ∧ (∀ (s : State) (bar : Nat), s.blk.hostOn = true →
    Completes (.pcieAtomicop bar) s (fun b => EvFrame (s.blk.atPort .host) b ∧ .unsupported ∈ b.sent))

/-- R300, R301, R307: doorbells, fetching and acceptance. -/
def Obligations.Doorbells : Prop :=
  (∀ (s : State) (p : Path) (q v : Nat) (x : QpSt), s.blk.pathOn p = true → q < 64 →
      (reaches p.code (bQP q) = true ∨ p = .fabric ∨ p = .network) → s.blk.qp q = x →
      x.enabled = true → s.blk.mayRing q p.code = true → s.blk.fetchStopped = false → s.blk.sqLocal q = false → x.posted = none →
      x.fetchError = false → x.staleWait = false → x.fetching = 0 → s.blk.att.phase ≠ .orphan →
      0 < (BitVec.ofNat 32 v - x.head).toNat → (BitVec.ofNat 32 v - x.head).toNat ≤ 2 ^ s.blk.sqLog q →
    Completes (.doorbell p q v) s (fun b =>
      EvFrame ((s.blk.atPort p).setQp q { x with
        posted := some (BitVec.ofNat 32 v), posters := x.posters ++ [(BitVec.ofNat 32 v, p.code)],
        fetching := min (min (BitVec.ofNat 32 v - x.head).toNat 32) (2 ^ s.blk.sqLog q - x.head.toNat % 2 ^ s.blk.sqLog q) }) b
      ∧ .hostRead (s.blk.sqBase q + 128 * (x.head.toNat % 2 ^ s.blk.sqLog q))
          (128 * min (min (BitVec.ofNat 32 v - x.head).toNat 32) (2 ^ s.blk.sqLog q - x.head.toNat % 2 ^ s.blk.sqLog q)) ∈ b.sent))
  ∧ (∀ (s : State) (p : Path) (q v : Nat) (x : QpSt), s.blk.pathOn p = true → q < 64 →
      (reaches p.code (bQP q) = true ∨ p = .fabric ∨ p = .network) → s.blk.qp q = x →
      x.enabled = true → s.blk.mayRing q p.code = true → s.blk.fetchStopped = false →
      2 ^ s.blk.sqLog q < (BitVec.ofNat 32 v - x.head).toNat →
    Completes (.doorbell p q v) s (fun b =>
      EvFrame (((s.blk.atPort p).logE kQP_BADDB { qp := some q, path := p.code }).qpEvent q 1) b
        ∧ (s.blk.logUp = true → LastLog s.blk b kQP_BADDB 0)))
  ∧ (∀ (s : State) (p : Path) (q v : Nat) (x : QpSt), s.blk.pathOn p = true → q < 64 →
      (reaches p.code (bQP q) = true ∨ p = .fabric ∨ p = .network) → s.blk.qp q = x →
      (x.enabled = false ∨ s.blk.mayRing q p.code = false) →
    Completes (.doorbell p q v) s (EvFrame ((s.blk.atPort p).qpEvent q 3)))
  ∧ (∀ (s : State) (p : Path) (q v : Nat) (x : QpSt) (w : W32), s.blk.pathOn p = true → q < 64 →
      (reaches p.code (bQP q) = true ∨ p = .fabric ∨ p = .network) → s.blk.qp q = x → x.enabled = true → s.blk.mayRing q p.code = true → s.blk.fetchStopped = false → x.posted = some w →
      (BitVec.ofNat 32 v - x.head).toNat ≤ (w - x.head).toNat → (BitVec.ofNat 32 v - x.head).toNat ≤ 2 ^ s.blk.sqLog q →
    Completes (.doorbell p q v) s (EvFrame (s.blk.atPort p)))
  ∧ (∀ (s : State) (q : Nat) (es : List Bytes) (x : QpSt), s.blk.hubUp = true → s.blk.qp q = x → x.fetching = 1 → x.enabled = true →
      s.blk.fetchStopped = false → s.blk.sqLocal q = false → s.blk.entryValid q (bytesAt (es.getD 0 []) 0 128) = true →
    Completes (.ringFetchDone q es false) s (fun b =>
      (b.qp q).head = x.head + 1 ∧ (b.qp q).seqNext = x.seqNext + 1 ∧ SameMem s.blk b
        ∧ b.flights.map (fun f => (f.q, f.seq, f.raw, f.stage)) = s.blk.flights.map (fun f => (f.q, f.seq, f.raw, f.stage))
            ++ [(q, x.seqNext.toNat, bytesAt (es.getD 0 []) 0 128, .accepted)]
        ∧ b.flights.map Flight.path = s.blk.flights.map Flight.path ++ [x.posterOf]))
  ∧ (∀ (s : State) (q : Nat) (es : List Bytes) (x : QpSt), s.blk.hubUp = true → s.blk.qp q = x → 0 < x.fetching → x.enabled = true →
      s.blk.fetchStopped = false → s.blk.sqLocal q = false → s.blk.entryValid q (bytesAt (es.getD 0 []) 0 128) = true →
    Completes (.ringFetchDone q es false) s (fun b =>
      ∃ f, f ∈ b.flights ∧ f.q = q ∧ f.seq = x.seqNext.toNat ∧ f.raw = bytesAt (es.getD 0 []) 0 128 ∧ f.stage = .accepted))
  ∧ (∀ (s : State) (q : Nat) (es : List Bytes) (x : QpSt), s.blk.hubUp = true → s.blk.qp q = x → 0 < x.fetching → x.enabled = true →
      s.blk.fetchStopped = false → s.blk.sqLocal q = false → s.blk.entryValid q (bytesAt (es.getD 0 []) 0 128) = false →
    Completes (.ringFetchDone q es false) s (EvFrame (s.blk.setQp q { x with fetching := 0, staleWait := true })))
  ∧ (∀ (s : State) (q : Nat) (es : List Bytes) (x : QpSt), s.blk.hubUp = true → s.blk.qp q = x → 0 < x.fetching → x.enabled = true →
      s.blk.fetchStopped = false → s.blk.sqLocal q = false →
    Completes (.ringFetchDone q es true) s (fun b => (b.qp q).fetchError = true ∧ (b.qp q).head = x.head
      ∧ (s.blk.logUp = true → LastLog s.blk b kQP_FETCH 0) ∧ (b.reg (oQP_EVENTS q)).testBit 4 = true ∧ b.flights = s.blk.flights))
  ∧ (∀ (s : State) (q : Nat) (e : Bytes) (x : QpSt), s.blk.hubUp = true → s.blk.qp q = x → x.staleWait = true → x.enabled = true →
      s.blk.fetchStopped = false → s.blk.sqLocal q = false → s.blk.entryValid q (bytesAt e 0 128) = true →
    Completes (.staleReread q e) s (fun b => (b.qp q).head = x.head + 1 ∧ (b.qp q).seqNext = x.seqNext + 1 ∧ (b.qp q).staleWait = false
      ∧ b.flights.map (fun f => (f.q, f.seq, f.raw, f.stage)) = s.blk.flights.map (fun f => (f.q, f.seq, f.raw, f.stage))
            ++ [(q, x.seqNext.toNat, bytesAt e 0 128, .accepted)]))
  ∧ (∀ (s : State) (q : Nat) (e : Bytes) (x : QpSt), s.blk.hubUp = true → s.blk.qp q = x → x.staleWait = true → x.enabled = true →
      s.blk.fetchStopped = false → s.blk.sqLocal q = false → s.blk.entryValid q (bytesAt e 0 128) = false →
    Completes (.staleReread q e) s (EvFrame s.blk))
  ∧ (∀ (s : State) (q : Nat) (x : QpSt), s.blk.hubUp = true → s.blk.qp q = x → x.staleWait = true →
    Completes (.staleDoorbell q) s (fun b =>
      (b.qp q).staleWait = false ∧ (b.qp q).posted = none ∧ (b.qp q).head = x.head ∧ (b.reg (oQP_EVENTS q)).testBit 0 = true
        ∧ b.reg (bQP q + 0x34) = min (s.blk.reg (bQP q + 0x34) + 1) (2 ^ 32 - 1)
        ∧ (s.blk.logUp = true → LastLog s.blk b kSTALE_DB 0) ∧ b.flights = s.blk.flights))

/-- R302, R303, R309, R310, R313, R315: entries from their start to their completion. -/
def Obligations.EntryLifecycle : Prop :=
  (∀ (s : State) (q seq : Nat) (f : Flight), s.blk.hubUp = true → s.blk.flight? q seq = some f → s.blk.mayStart f = true →
      entryForm f.raw = true → s.blk.slotsOn = false → (s.blk.mem.sramBad = none ∨ readsSram (eOpcode f.raw) = false) →
    Completes (.entryStart q seq) s (fun b =>
      b.flight? q seq = some { f with
        stage := .running, order := s.blk.hub.order, mode := s.blk.mode.code, reads := (s.blk.entrySpans q f.raw).1,
        writes := (s.blk.entrySpans q f.raw).2, slots := [], used := s.blk.usedHandles q f.raw,
        waits := if eOpcode f.raw = 2 then s.blk.captured f else [] }
      ∧ b.pwr.state = .run ∧ SameMem s.blk b ∧ b.qps = s.blk.qps))
  ∧ (∀ (s : State) (q seq : Nat) (f : Flight), s.blk.hubUp = true → s.blk.flight? q seq = some f → s.blk.mayStart f = true →
      entryForm f.raw = false →
    Completes (.entryStart q seq) s (fun b => Finished b f stDESC ∧ SameMem s.blk b))
  ∧ (∀ (s : State) (q seq buf off : Nat) (f : Flight), s.blk.hubUp = true → s.blk.flight? q seq = some f → s.blk.mayStart f = true →
      entryForm f.raw = true → s.blk.slotsOn = false → s.blk.mem.sramBad = some (buf, off) → readsSram (eOpcode f.raw) = true →
    Completes (.entryStart q seq) s (fun b => Finished b f stUNCORR ∧ b.mem.cells = s.blk.mem.cells ∧ b.mem.sramBad = none
      ∧ (s.blk.mem.sramLog = [] → s.blk.logUp = true → LastLog s.blk b kSRAM buf)
      ∧ (2 ≤ (s.blk.mem.sramLog.filter (fun x => x.1 == buf && x.2.1 == off / 4096
            && decide (s.blk.time.toNat < x.2.2 + ticksDay))).length → b.pins.faultN = false)))
  ∧ (∀ (s : State) (q seq : Nat) (f : Flight), s.blk.hubUp = true → s.blk.flight? q seq = some f → s.blk.mayStart f = false →
    Completes (.entryStart q seq) s (EvFrame s.blk))
  ∧ (∀ (s : State) (q seq : Nat) (f : Flight) (x : QpSt), s.blk.hubUp = true → s.blk.flight? q seq = some f → f.stage = .done → f.txns = [] → f.out = [] →
      s.blk.restarting = false → f.fences = false → f.slots = [] → s.blk.att.ending = false →
      s.blk.pwr.after = none → s.blk.qp q = x → x.ending = false → s.blk.holdsComp q = false → s.blk.cqLocal q = false →
    Completes (.entryComplete q seq) s (fun b =>
      b.flight? q seq = none ∧ (b.qp q).cqTail = x.cqTail + 1 ∧ SameMem s.blk b
        ∧ .hostWrite (s.blk.cqBase q + 32 * (x.cqTail.toNat % 2 ^ s.blk.cqLog q))
            (({ f.comp with scope := f.scopeByte } : Comp).bytes x.cqTail.toNat (s.blk.cqLog q) s.blk.time32) ∈ b.sent))
  ∧ (∀ (s : State) (q seq : Nat) (f : Flight) (x : QpSt), s.blk.hubUp = true → s.blk.flight? q seq = some f → f.stage = .done → f.txns = [] → f.out = [] →
      s.blk.restarting = false → f.fences = false → f.slots = [] → s.blk.att.ending = false →
      s.blk.pwr.after = none → s.blk.qp q = x → x.ending = false → s.blk.holdsComp q = true →
    Completes (.entryComplete q seq) s (fun b =>
      b.flight? q seq = none ∧ b.qp q = { x with held := x.held ++ [{ f.comp with scope := f.scopeByte }] } ∧ SameMem s.blk b))
  ∧ (∀ (s : State) (q seq : Nat) (f : Flight), s.blk.hubUp = true → s.blk.flight? q seq = some f → (f.stage ≠ .done ∨ f.txns ≠ [] ∨ f.out ≠ []) →
      s.blk.att.ending = false → s.blk.pwr.after = none →
    Completes (.entryComplete q seq) s (EvFrame s.blk))
  ∧ (∀ (s : State) (v : Nat), s.blk.hubUp = true → tget 0 v s.blk.ev.pend ≠ 0 → bits (s.blk.reg (oEV_COAL v)) 23 8 ≠ 0 →
      s.blk.att.phase ≠ .orphan → s.blk.ev.unmasked.testBit v = true →
    Completes (.coalesceDelayExpiry v) s (fun b => tget 0 v b.ev.pend = 0 ∧ .msix v ∈ b.sent ∧ SameMem s.blk b ∧ b.regs = s.blk.regs))

/-- R306, R307, R319, R459: CQ_HEAD_WRITE, QP_ENABLE, QP_RESET, QP_DROP_HELD. -/
def Obligations.QueueControl : Prop :=
  (∀ (s : State) (q v : Nat) (x : QpSt), s.blk.hostOn = true → q < 64 → s.blk.qp q = x →
      (BitVec.ofNat 32 v - x.cqHead).toNat ≤ (x.cqTail - x.cqHead).toNat →
    Completes (.cqHeadWrite q v) s (EvFrame ((s.blk.atPort .host).setQp q { x with cqHead := BitVec.ofNat 32 v })))
  ∧ (∀ (s : State) (q v : Nat) (x : QpSt), s.blk.hostOn = true → q < 64 → s.blk.qp q = x →
      (x.cqTail - x.cqHead).toNat < (BitVec.ofNat 32 v - x.cqHead).toNat →
    Completes (.cqHeadWrite q v) s (fun b => b.qps = s.blk.qps ∧ (b.reg (oQP_EVENTS q)).testBit 2 = true
      ∧ (s.blk.logUp = true → LastLog s.blk b kQP_BADCQH 0) ∧ SameMem s.blk b))
  ∧ (∀ (s : State) (q : Nat) (x : QpSt), s.blk.hostOn = true → q < 64 → s.blk.qp q = x → x.everCommitted = true → x.enabled = false →
      x.ending = false → (s.blk.hostBound q = false ∨ s.blk.att.phase ≠ .detached) →
    Completes (.qpEnable q true) s (EvFrame
      ((((s.blk.atPort .host).setQp q { x with enabled := true, held := [] }).writeComps q x.held).startFetch q)))
  ∧ (∀ (s : State) (q : Nat) (x : QpSt), s.blk.hostOn = true → q < 64 → s.blk.qp q = x →
      (x.everCommitted = false ∨ (s.blk.hostBound q = true ∧ s.blk.att.phase = .detached)) →
    Completes (.qpEnable q true) s (EvFrame (s.blk.atPort .host)))
  ∧ (∀ (s : State) (q : Nat) (x : QpSt), s.blk.hostOn = true → q < 64 → s.blk.qp q = x →
    Completes (.qpEnable q false) s (EvFrame
      ((s.blk.atPort .host).setQp q { x with enabled := false, staleWait := false, fetching := 0 })))
  ∧ (∀ (s : State) (q : Nat) (x : QpSt), s.blk.hostOn = true → q < 64 → s.blk.qp q = x → s.blk.quiesced q = true →
    Completes (.qpReset q) s (fun b => EvFrame ((s.blk.atPort .host).setQp q x.zeroed) b
      ∧ (b.qp q).head = 0 ∧ (b.qp q).cqHead = 0 ∧ (b.qp q).cqTail = 0 ∧ (b.qp q).fetchError = false ∧ (b.qp q).seqNext = x.seqNext))
  ∧ (∀ (s : State) (q : Nat) (x : QpSt), s.blk.hostOn = true → q < 64 → s.blk.qp q = x → s.blk.quiesced q = false →
    Completes (.qpReset q) s (EvFrame (s.blk.atPort .host)))
  ∧ (∀ (s : State) (q : Nat) (x : QpSt), s.blk.hostOn = true → q < 64 → s.blk.qp q = x →
    Completes (.qpDropHeld q) s (EvFrame ((s.blk.atPort .host).setQp q { x with held := [] })))

/-- R317 to R320: the states of the attachment. -/
def Obligations.Attachment : Prop :=
  (∀ s : State, s.blk.hostOn = true → s.blk.att.phase = .detached →
    Completes .attach s (fun b => b.att.phase = .attached ∧ b.att.token ≠ 0 ∧ b.qps = s.blk.qps ∧ b.regs = s.blk.regs ∧ SameMem s.blk b))
  ∧ (∀ s : State, s.blk.hostOn = true → s.blk.att.phase ≠ .detached → Completes .attach s (EvFrame (s.blk.atPort .host)))
  ∧ (∀ s : State, s.blk.hostOn = true →
    Completes .heartbeat s (EvFrame
      { s.blk.atPort .host with att := { (s.blk.atPort .host).att with beats := s.blk.time.toNat } }))
  ∧ (∀ s : State, s.blk.att.phase = .attached → s.blk.att.ending = false → s.blk.reg (bATTACH + 0x14) % 65536 ≠ 0 →
      s.blk.reg (bATTACH + 0x10) ≠ 0 →
    Completes .heartbeatTimeout s (fun b => b.att.phase = .orphan ∧ b.att.cause = 3 ∧ (b.reg oATT_EVENTS).testBit 0 = true
      ∧ (∀ q, q < 64 → s.blk.hostBound q = true → (b.qp q).enabled = false) ∧ SameMem s.blk b ∧ b.flights = s.blk.flights))
  ∧ (∀ s : State, s.blk.att.phase = .attached → s.blk.att.ending = false → s.blk.reg (bATTACH + 0x10) ≠ 0 →
    Completes .perstNAssert s (fun b => b.att.phase = .orphan ∧ b.att.cause = 1 ∧ b.att.ready = false ∧ b.pins.perstN = false
      ∧ (∀ q, q < 64 → s.blk.hostBound q = true → (b.qp q).enabled = false) ∧ SameMem s.blk b ∧ b.struc = s.blk.struc
      ∧ b.flights = s.blk.flights))
  ∧ (∀ s : State, s.blk.att.phase = .attached → s.blk.att.ending = false → s.blk.att.linkUp = false → s.blk.reg (bATTACH + 0x10) ≠ 0 →
    Completes .pcieLinkDown1ms s (fun b => b.att.phase = .orphan ∧ b.att.cause = 2 ∧ SameMem s.blk b))
  ∧ (∀ s : State, s.blk.att.phase = .orphan → s.blk.att.ending = false → s.blk.att.holdEnd ≤ s.blk.time.toNat →
      s.blk.flights = [] → s.blk.slotsOn = false → s.blk.descs = [] →
    Completes .orphanExpiry s (fun b => b.att.phase = .detached ∧ b.att.token = 0 ∧ b.att.cause = 6 ∧ (b.reg oATT_EVENTS).testBit 2 = true
      ∧ (∀ q, q < 64 → s.blk.hostBound q = true → (b.qp q).enabled = false ∧ (b.qp q).head = 0 ∧ (b.qp q).held = [])
      ∧ (s.blk.logUp = true → LastLog s.blk b kATT_ENDED 6) ∧ SameMem s.blk b ∧ b.struc = s.blk.struc))
  ∧ (∀ (s : State) (v : Nat), s.blk.hostOn = true → s.blk.att.phase = .orphan → s.blk.att.ending = false →
      BitVec.ofNat 32 v = s.blk.att.token →
    Completes (.reattach v) s (fun b => b.att.phase = .attached ∧ b.att.token = s.blk.att.token ∧ (b.reg oATT_EVENTS).testBit 1 = true
      ∧ b.qps = s.blk.qps ∧ SameMem s.blk b))
  ∧ (∀ (s : State) (v : Nat), s.blk.hostOn = true →
      (s.blk.att.phase ≠ .orphan ∨ (s.blk.att.badTokens ≠ 15 ∧ BitVec.ofNat 32 v ≠ s.blk.att.token)) →
    Completes (.reattach v) s (fun b => b.att.phase = s.blk.att.phase ∧ (b.reg oATT_EVENTS).testBit 3 = true
      ∧ b.reg (bATTACH + 0x28) = min (s.blk.reg (bATTACH + 0x28) + 1) (2 ^ 32 - 1)
      ∧ b.qps = s.blk.qps ∧ SameMem s.blk b))
  ∧ (∀ (s : State) (v : Nat), s.blk.hostOn = true → s.blk.att.phase = .orphan → s.blk.att.ending = false → s.blk.att.badTokens = 15 →
      BitVec.ofNat 32 v ≠ s.blk.att.token → s.blk.flights = [] → s.blk.slotsOn = false → s.blk.descs = [] →
    Completes (.reattach v) s (fun b => b.att.phase = .detached ∧ b.att.cause = 7 ∧ (b.reg oATT_EVENTS).testBit 3 = true
      ∧ (b.reg oATT_EVENTS).testBit 2 = true))
  ∧ (∀ s : State, s.blk.hostOn = true → s.blk.att.phase = .attached → s.blk.att.ending = false → s.blk.flights = [] →
      s.blk.slotsOn = false → s.blk.descs = [] →
    Completes .detach s (fun b => b.att.phase = .detached ∧ b.att.token = 0 ∧ b.att.cause = 4 ∧ SameMem s.blk b
      ∧ (s.blk.logUp = true → LastLog s.blk b kATT_ENDED 4)))
  ∧ (∀ s : State, s.blk.att.ready = true → s.blk.att.phase = .attached → s.blk.att.ending = false → s.blk.flights = [] →
      s.blk.slotsOn = false → s.blk.descs = [] →
    Completes .functionLevelReset s (fun b => b.att.phase = .detached ∧ b.att.token = 0 ∧ b.att.cause = 5 ∧ SameMem s.blk b
      ∧ (s.blk.logUp = true → LastLog s.blk b kATT_ENDED 5)))
  ∧ (∀ s : State, s.blk.att.linkUp = true → s.blk.att.phase = .orphan →
    Completes .pcieLinkDown s (fun b => EvFrame ({ s.blk with att := { s.blk.att with linkUp := false } }.attEvent 4) b
      ∧ (b.reg oATT_EVENTS).testBit 4 = true))
  ∧ (∀ s : State, s.blk.att.linkUp = true → s.blk.att.phase ≠ .orphan →
    Completes .pcieLinkDown s (fun b => b.att = { s.blk.att with linkUp := false } ∧ (b.reg oATT_EVENTS).testBit 4 = true
      ∧ (∀ q, q < 64 → (s.blk.qp q).fetching ≠ 0 → s.blk.sqLocal q = false →
          .hostRead (s.blk.sqBase q + 128 * ((s.blk.qp q).head.toNat % 2 ^ s.blk.sqLog q)) (128 * (s.blk.qp q).fetching) ∈ b.sent)))
  ∧ (∀ s : State, Completes .perstNDeassert s (fun b =>
      b.pins.perstN = true ∧ b.att.ready = s.blk.pwr.rails.testBit 4 ∧ b.att.linkUp = s.blk.pwr.rails.testBit 4
        ∧ b.att.phase = s.blk.att.phase ∧ b.qps = s.blk.qps ∧ SameMem s.blk b))

/-- R324 to R326: bring-up, from training to UP, DOWN or MISMATCH. -/
def Obligations.LinkBringUp : Prop :=
  (∀ (s : State) (l : Nat), s.blk.hubUp = true → (s.blk.link l).st = .training → (s.blk.link l).step = 1 →
    Completes (.linkSignalDetect l) s (EvFrame (s.blk.setLink l { s.blk.link l with step := 2, attempt := 0 })))
  ∧ (∀ (s : State) (l : Nat), s.blk.hubUp = true → (s.blk.link l).st = .down → s.blk.linksLive = true → s.blk.linkOn l = true →
      s.blk.isolated = false →
    Completes (.linkSignalDetect l) s (EvFrame
      (s.blk.setLink l { s.blk.link l with st := .training, step := 1, attempt := 0, txSeq := 0, rxSeq := 0 })))
  ∧ (∀ (s : State) (l : Nat), s.blk.hubUp = true → (s.blk.link l).st = .training → (s.blk.link l).step = 2 → s.blk.restarting = false →
    Completes (.linkTrainingDone l) s (fun b => (b.link l).st = .ident ∧ (b.link l).step = 4 ∧ (b.link l).nonce.length = 32
      ∧ .control l (s.blk.identMsg l (b.link l).nonce) ∈ b.sent ∧ (∀ k, k < 32 → k ≠ l → b.link k = s.blk.link k) ∧ SameMem s.blk b))
  ∧ (∀ (s : State) (l : Nat), s.blk.hubUp = true → (s.blk.link l).st = .training → (s.blk.link l).step = 2 → (s.blk.link l).attempt < 2 →
    Completes (.linkBringupTimeout l) s (EvFrame (s.blk.setLink l { s.blk.link l with attempt := (s.blk.link l).attempt + 1 })))
  ∧ (∀ (s : State) (l : Nat), s.blk.hubUp = true →
      ((s.blk.link l).st = .ident ∨ ((s.blk.link l).st = .training ∧ ((s.blk.link l).step ≠ 2 ∨ 2 ≤ (s.blk.link l).attempt))) →
    Completes (.linkBringupTimeout l) s (fun b => (b.link l).st = .down ∧ SameMem s.blk b))
  ∧ (∀ (s : State) (l : Nat), s.blk.hubUp = true → (s.blk.link l).st = .down → s.blk.linksLive = true → s.blk.linkOn l = true →
      s.blk.isolated = false →
    Completes (.linkRetryTimer l) s (EvFrame
      (s.blk.setLink l { s.blk.link l with st := .training, step := 1, attempt := 0, txSeq := 0, rxSeq := 0 })))
  ∧ (∀ (s : State) (l : Nat) (m : Bytes), s.blk.hubUp = true → (s.blk.link l).st = .ident → (s.blk.link l).partner = [] →
      m.length = 2000 → fld m 0 1 = 1 → s.blk.restarting = false →
    Completes (.ident l m) s (fun b => (b.link l).st = .ident ∧ (b.link l).partner = m ∧ (b.link l).proofSent = true
      ∧ .control l (proofMsg (proofDigest (bytesAt m 8 32) (s.blk.identMsg l (s.blk.link l).nonce))) ∈ b.sent ∧ SameMem s.blk b))
  ∧ (∀ (s : State) (l : Nat) (m : Bytes), s.blk.hubUp = true → ((s.blk.link l).st ≠ .ident ∨ m.length ≠ 2000 ∨ fld m 0 1 ≠ 1) →
    Completes (.ident l m) s (EvFrame s.blk))
  ∧ (∀ (s : State) (l : Nat) (m : Bytes), s.blk.hubUp = true → (s.blk.link l).st = .ident → (s.blk.link l).partner ≠ [] →
      m.length = 3317 → fld m 0 1 = 2 → s.blk.restarting = false →
    Completes (.proof l m) s (fun b =>
      (b.link l).st = (if s.blk.partnerOk l (s.blk.link l) m then .up else .mismatch) ∧ SameMem s.blk b
      ∧ (s.blk.partnerOk l (s.blk.link l) m = true → (b.reg oFAB_EVENTS).testBit 1 = true ∧ b.log = s.blk.log)
      ∧ (s.blk.partnerOk l (s.blk.link l) m = false → (b.reg oFAB_EVENTS).testBit 2 = true
        ∧ (s.blk.logUp = true → LastLog s.blk b kFAB_MISMATCH 0))))
  ∧ (∀ (s : State) (l : Nat), s.blk.hubUp = true → (s.blk.link l).st = .mismatch → s.blk.linksLive = true → s.blk.restarting = false →
    Completes (.linkMismatchRetry l) s (fun b => (b.link l).st = .ident ∧ (b.link l).step = 4
      ∧ .control l (s.blk.identMsg l (b.link l).nonce) ∈ b.sent ∧ SameMem s.blk b))
  ∧ (∀ (s : State) (l bad total : Nat), s.blk.hubUp = true → (s.blk.link l).st = .up → total < bad * 100000 →
      s.blk.linkOn l = true → s.blk.isolated = false →
    Completes (.linkFecRateCheck l bad total) s (fun b => (b.link l).st = .training ∧ (b.link l).step = 1
      ∧ (b.link l).retrains = min ((s.blk.link l).retrains + 1) 255 ∧ SameMem s.blk b))
  ∧ (∀ (s : State) (l bad total : Nat), s.blk.hubUp = true → bad * 100000 ≤ total →
    Completes (.linkFecRateCheck l bad total) s (EvFrame s.blk))

/-- R327 to R330, R344, R353: data flits, idle flits, NAKs, and what takes links DOWN. -/
def Obligations.LinkFlits : Prop :=
  (∀ (s : State) (l : Nat) (raw : Bytes), s.blk.hubUp = true → (s.blk.link l).st = .up →
    Completes (.dataFlit l raw false) s (fun b =>
      EvFrame (s.blk.setLink l { s.blk.link l with uncorrected := min ((s.blk.link l).uncorrected + 1) 65535, naked := true }) b
        ∧ .nakFlit l (s.blk.link l).rxSeq ∈ b.sent))
  ∧ (∀ (s : State) (l : Nat) (raw : Bytes), s.blk.hubUp = true → (s.blk.link l).st = .up →
      crc32c (bytesAt raw 0 0x278) ≠ fld (bytesAt raw 0 640) 0x278 4 →
    Completes (.dataFlit l raw true) s (fun b => EvFrame (s.blk.setLink l { s.blk.link l with naked := true }) b
        ∧ .nakFlit l (s.blk.link l).rxSeq ∈ b.sent))
  ∧ (∀ (s : State) (l : Nat) (raw : Bytes) (n : Bool), s.blk.hubUp = true → (s.blk.link l).st = .up → raw.length = 640 →
      crc32c (bytesAt raw 0 0x278) = fld raw 0x278 4 → fld raw 4 1 = 1 → fld raw 0 2 ≠ ((s.blk.link l).rxSeq + 1) % 65536 →
      (s.blk.link l).naked = !n →
    Completes (.dataFlit l raw true) s (fun b => EvFrame (s.blk.setLink l { s.blk.link l with naked := true }) b
        ∧ (n = true → .nakFlit l (s.blk.link l).rxSeq ∈ b.sent)))
  ∧ (∀ (s : State) (l : Nat) (raw part : Bytes), s.blk.hubUp = true → (s.blk.link l).st = .up → raw.length = 640 →
      crc32c (bytesAt raw 0 0x278) = fld raw 0x278 4 → fld raw 4 1 = 1 → fld raw 0 2 = ((s.blk.link l).rxSeq + 1) % 65536 →
      takePackets 80 ((s.blk.link l).part ++ bytesAt raw 8 624) = ([], part) →
    Completes (.dataFlit l raw true) s (EvFrame
      ((s.blk.setLink l { s.blk.link l with rxSeq := fld raw 0 2, part := part, naked := false }).ackIn l (fld raw 2 2)
        (fld raw 5 1 % 4) (fld raw 6 2))))
  ∧ (∀ (s : State) (l : Nat) (raw part : Bytes) (p : Packet), s.blk.hubUp = true → (s.blk.link l).st = .up → raw.length = 640 →
      crc32c (bytesAt raw 0 0x278) = fld raw 0x278 4 → fld raw 4 1 = 1 → fld raw 0 2 = ((s.blk.link l).rxSeq + 1) % 65536 →
      takePackets 80 ((s.blk.link l).part ++ bytesAt raw 8 624) = ([p], part) →
      (((s.blk.setLink l { s.blk.link l with rxSeq := fld raw 0 2, part := part, naked := false }).ackIn l (fld raw 2 2)
        (fld raw 5 1 % 4) (fld raw 6 2)).packetIn l p).held.length ≤ s.blk.held.length →
    Completes (.dataFlit l raw true) s (fun b => EvFrame
      (((s.blk.setLink l { s.blk.link l with rxSeq := fld raw 0 2, part := part, naked := false }).ackIn l (fld raw 2 2)
        (fld raw 5 1 % 4) (fld raw 6 2)).packetIn l p) b
      ∧ .idle l (fld raw 0 2) (pktVc p) (pktUnits p) ∈ b.sent))
  ∧ (∀ (s : State) (l : Nat) (raw part : Bytes) (p : Packet), s.blk.hubUp = true → (s.blk.link l).st = .up → raw.length = 640 →
      crc32c (bytesAt raw 0 0x278) = fld raw 0x278 4 → fld raw 4 1 = 1 → fld raw 0 2 = ((s.blk.link l).rxSeq + 1) % 65536 →
      takePackets 80 ((s.blk.link l).part ++ bytesAt raw 8 624) = ([p], part) → pktForm p = true → pktIsRsp p = false → p.typ ≠ 0x10 →
      p.dst = s.blk.struc.modNum → s.blk.remoteHeld = true → pktVc p < (s.blk.link l).owed.length →
    Completes (.dataFlit l raw true) s (fun b => b.held = s.blk.held ++ [.packet l p] ∧ SameMem s.blk b
      ∧ (b.link l).owed.getD (pktVc p) 0 = (s.blk.link l).owed.getD (pktVc p) 0 + pktUnits p
      ∧ (∀ m ∈ b.sent, m ∈ s.blk.sent ∨ m ≠ .idle l (fld raw 0 2) (pktVc p) (pktUnits p))))
  ∧ (∀ (s : State) (l a : Nat), s.blk.hubUp = true → ((s.blk.link l).st = .up ∨ (s.blk.link l).st = .ident) →
      (s.blk.link l).retry.all (fun f => seqLe f.seq a || decide (f.resent < 7)) = true →
    Completes (.nakFlit l a) s (fun b =>
      EvFrame (s.blk.setLink l { s.blk.link l with
        retry := ((s.blk.link l).retry.filter (fun f => !seqLe f.seq a)).map (fun f => { f with resent := f.resent + 1 })
        resends := min ((s.blk.link l).resends + ((s.blk.link l).retry.filter (fun f => !seqLe f.seq a)).length) 65535 }) b
      ∧ ((s.blk.link l).retry.any (fun f => !seqLe f.seq a) = true → .resend l ((a + 1) % 65536) ∈ b.sent)))
  ∧ (∀ (s : State) (l a : Nat), s.blk.hubUp = true → ((s.blk.link l).st = .up ∨ (s.blk.link l).st = .ident) →
      (s.blk.link l).retry.any (fun f => !seqLe f.seq a && decide (7 ≤ f.resent)) = true →
    Completes (.nakFlit l a) s (fun b => (b.link l).st = .down ∧ SameMem s.blk b))
  ∧ (∀ (s : State) (l a c n : Nat), s.blk.hubUp = true → (s.blk.link l).st = .up →
    Completes (.idleFlit l a c n) s (EvFrame (s.blk.ackIn l a (c % 4) n)))
  ∧ (∀ (s : State) (l : Nat), s.blk.hubUp = true → ((s.blk.link l).st = .up ∨ (s.blk.link l).st = .ident) → (s.blk.link l).retry ≠ [] →
    Completes (.flitAckTimeout l) s (fun b => (b.link l).st = .down ∧ SameMem s.blk b))
  ∧ (∀ (s : State) (l : Nat), s.blk.hubUp = true → ((s.blk.link l).st = .up ∨ (s.blk.link l).st = .ident) →
    Completes (.fecLockLoss l) s (fun b => (b.link l).st = .down ∧ SameMem s.blk b))
  ∧ (∀ (s : State) (p : Path) (v : Nat), s.blk.pathOn p = true → reaches p.code (bFABRIC + 4) = true → v.testBit 1 = true →
    Completes (.fabIsolate p v) s (fun b =>
      (∀ l, l < 32 → s.blk.linkOn l = true → (b.link l).st = .down ∨ (b.link l).st = .disabled)
        ∧ (b.reg (bFABRIC + 4)).testBit 1 = true ∧ SameMem s.blk b))
  ∧ (∀ (s : State) (p : Path) (v : Nat), s.blk.pathOn p = true → reaches p.code (bFABRIC + 4) = true → v.testBit 1 = false →
      v.testBit 0 = true → s.blk.linksLive = true →
    Completes (.fabRetrain p v) s (fun b =>
      (∀ l, l < 32 → s.blk.linkOn l = true → (b.link l).st = .training ∧ (b.link l).step = 1)
        ∧ b.reg (bFABRIC + 4) = 0 ∧ SameMem s.blk b))

/-- R332 to R334, R337: READ, WRITE, ATOMIC, FENCE, DOORBELL and FWD_ENTRY at their home. -/
def Obligations.HomeRequests : Prop :=
  (∀ (s : State) (l : Nat) (p : Packet), s.blk.homeNow l (s.blk.arrived 1 p) = true → s.blk.homeOk p.addr p.arg p.qs = true →
      s.blk.mem.sramBad = none → (readRange s.blk (rqFab p.qs) (haMpa p.addr) p.arg).st = stOK →
    Completes (.fabRead l p) s (EvFrame
      ((readRange s.blk (rqFab p.qs) (haMpa p.addr) p.arg).b.respond (s.blk.arrived 1 p) 0x81
        (if (readRange s.blk (rqFab p.qs) (haMpa p.addr) p.arg).corr then stFLAGGED else stOK)
        (readRange s.blk (rqFab p.qs) (haMpa p.addr) p.arg).data)))
  ∧ (∀ (s : State) (l buf o : Nat) (p : Packet), s.blk.homeNow l (s.blk.arrived 1 p) = true → s.blk.homeOk p.addr p.arg p.qs = true →
      s.blk.mem.sramBad = some (buf, o) →
    Completes (.fabRead l p) s (EvFrame
      ((s.blk.sramHit (some p.qs) pFAB buf o).respond (s.blk.arrived 1 p) 0x81 stUNCORR [])))
  ∧ (∀ (s : State) (l : Nat) (p : Packet), s.blk.homeNow l (s.blk.arrived 1 p) = true → s.blk.homeOk p.addr p.arg p.qs = false →
    Completes (.fabRead l p) s (EvFrame (s.blk.respond (s.blk.arrived 1 p) 0x81 stRANGE [])))
  ∧ (∀ (s : State) (l : Nat) (p : Packet), s.blk.homeNow l (s.blk.arrived 2 p) = true → s.blk.homeOk p.addr p.arg p.qs = true →
      p.arg ≤ p.payload.length → s.blk.slotsOn = false →
    Completes (.fabWrite l p) s (EvFrame
      ((writeRange s.blk (rqFab p.qs) (haMpa p.addr) (p.payload.take p.arg)).1.respond (s.blk.arrived 2 p) 0x82
        (writeRange s.blk (rqFab p.qs) (haMpa p.addr) (p.payload.take p.arg)).2 [])))
  ∧ (∀ (s : State) (l : Nat) (p : Packet), s.blk.homeNow l (s.blk.arrived 2 p) = true →
      (s.blk.homeOk p.addr p.arg p.qs = false ∨ p.payload.length < p.arg) →
    Completes (.fabWrite l p) s (EvFrame (s.blk.respond (s.blk.arrived 2 p) 0x82 stRANGE [])))
  ∧ (∀ (s : State) (l : Nat) (p : Packet), s.blk.homeNow l (s.blk.arrived 3 p) = true → atomicOk p.sub p.addr = true →
      s.blk.homeOk p.addr (atomicLen p.sub) p.qs = true →
      (readRange s.blk (rqFab p.qs) (haMpa p.addr) (atomicLen p.sub)).st = stOK →
      (readRange s.blk (rqFab p.qs) (haMpa p.addr) (atomicLen p.sub)).corr = false →
      ((readRange s.blk (rqFab p.qs) (haMpa p.addr) (atomicLen p.sub)).b.otherWrite (rqFab p.qs) (haMpa p.addr)
        (leBytes (atomicLen p.sub) (atomicNew p.sub (leNat (readRange s.blk (rqFab p.qs) (haMpa p.addr) (atomicLen p.sub)).data) p.arg
          (fld p.payload 0 8)))).2 = stOK →
    Completes (.fabAtomic l p) s (EvFrame
      (((readRange s.blk (rqFab p.qs) (haMpa p.addr) (atomicLen p.sub)).b.otherWrite (rqFab p.qs) (haMpa p.addr)
        (leBytes (atomicLen p.sub) (atomicNew p.sub (leNat (readRange s.blk (rqFab p.qs) (haMpa p.addr) (atomicLen p.sub)).data) p.arg
          (fld p.payload 0 8)))).1.respond (s.blk.arrived 3 p) 0x83 stOK
        (leBytes 16 (leNat (readRange s.blk (rqFab p.qs) (haMpa p.addr) (atomicLen p.sub)).data)))))
  ∧ (∀ (s : State) (l : Nat) (p : Packet), s.blk.homeNow l (s.blk.arrived 3 p) = true → atomicOk p.sub p.addr = false →
    Completes (.fabAtomic l p) s (EvFrame (s.blk.respond (s.blk.arrived 3 p) 0x83 stDESC (zeros 16))))
  ∧ (∀ (s : State) (l : Nat) (p : Packet), s.blk.homeNow l (s.blk.arrived 4 p) = true →
    Completes (.fabFence l p) s (EvFrame (s.blk.respond (s.blk.arrived 4 p) 0x84 stOK [])))
  ∧ (∀ (s : State) (l : Nat) (p : Packet), s.blk.homeNow l (s.blk.arrived 5 p) = true → s.blk.pairOk (s.blk.arrived 5 p) = true →
    Completes (.fabDoorbell l p) s (EvFrame
      ((s.blk.ring p.addr pFAB (BitVec.ofNat 32 p.arg)).respond (s.blk.arrived 5 p) 0x85 stOK [])))
  ∧ (∀ (s : State) (l : Nat) (p : Packet), s.blk.homeNow l (s.blk.arrived 5 p) = true → p.addr < 64 →
      ((s.blk.qp p.addr).enabled = false ∨ s.blk.mayRing p.addr pFAB = false) →
    Completes (.fabDoorbell l p) s (EvFrame ((s.blk.qpEvent p.addr 3).respond (s.blk.arrived 5 p) 0x85 stRANGE [])))
  ∧ (∀ (s : State) (l : Nat) (p : Packet), s.blk.homeNow l (s.blk.arrived 6 p) = true → s.blk.pairOk (s.blk.arrived 6 p) = true →
      s.blk.sqLocal p.addr = true →
      (s.blk.otherWrite (rqFab p.qs) (s.blk.sqBase p.addr + 128 * (p.arg % 2 ^ s.blk.sqLog p.addr)) (bytesAt p.payload 0 128)).2 = stOK →
    Completes (.fwdEntry l p) s (EvFrame
      (((s.blk.otherWrite (rqFab p.qs) (s.blk.sqBase p.addr + 128 * (p.arg % 2 ^ s.blk.sqLog p.addr)) (bytesAt p.payload 0 128)).1.ring
        p.addr pFAB (BitVec.ofNat 32 (p.arg + 1))).respond (s.blk.arrived 6 p) 0x86 stOK [])))
  ∧ (∀ (s : State) (l : Nat) (p : Packet), s.blk.homeNow l (s.blk.arrived 6 p) = true →
      (s.blk.pairOk (s.blk.arrived 6 p) = false ∨ s.blk.sqLocal (p.addr % 64) = false) →
    Completes (.fwdEntry l p) s (EvFrame (s.blk.respond (s.blk.arrived 6 p) 0x86 stRANGE [])))
  ∧ (∀ (s : State) (l : Nat) (p : Packet), s.blk.hubUp = true → (s.blk.link l).st = .up → pktForm (s.blk.arrived 1 p) = true →
      s.blk.remoteHeld = true →
    Completes (.fabRead l p) s (EvFrame (s.blk.hold (.packet l (s.blk.arrived 1 p)))))

/-- R332, R335, R340 to R344: responses at their origin, transit, reports and timeouts. -/
def Obligations.ResponsesAndRouting : Prop :=
  (∀ (s : State) (l : Nat) (p : Packet) (t : Txn), s.blk.answers l (s.blk.arrived 0x81 p) t = true → t.typ = 1 →
    Completes (.readRsp l p) s (EvFrame (s.blk.answered t (s.blk.arrived 0x81 p))))
  ∧ (∀ (s : State) (l : Nat) (p : Packet) (t : Txn), s.blk.answers l (s.blk.arrived 0x82 p) t = true → t.typ = 2 →
    Completes (.writeAck l p) s (EvFrame (s.blk.answered t (s.blk.arrived 0x82 p))))
  ∧ (∀ (s : State) (l : Nat) (p : Packet) (t : Txn), s.blk.answers l (s.blk.arrived 0x83 p) t = true → t.typ = 3 →
    Completes (.atomicRsp l p) s (EvFrame (s.blk.answered t (s.blk.arrived 0x83 p))))
  ∧ (∀ (s : State) (l : Nat) (p : Packet) (t : Txn), s.blk.answers l (s.blk.arrived 0x84 p) t = true → t.typ = 4 →
    Completes (.fenceAck l p) s (EvFrame (s.blk.answered t (s.blk.arrived 0x84 p))))
  ∧ (∀ (s : State) (l : Nat) (p : Packet) (t : Txn), s.blk.answers l (s.blk.arrived 0x85 p) t = true → t.typ = 5 →
    Completes (.doorbellAck l p) s (EvFrame (s.blk.answered t (s.blk.arrived 0x85 p))))
  ∧ (∀ (s : State) (l : Nat) (p : Packet) (t : Txn), s.blk.answers l (s.blk.arrived 0x86 p) t = true → t.typ = 6 →
    Completes (.fwdAck l p) s (EvFrame (s.blk.answered t (s.blk.arrived 0x86 p))))
  ∧ (∀ (s : State) (l : Nat) (p : Packet) (t : Txn), s.blk.answers l (s.blk.arrived 0x8F p) t = true → (s.blk.rout.mode ≠ 1 ∨ p.sub ≠ 2) →
    Completes (.routeNak l p) s (EvFrame ((s.blk.failTxn t stROUTE).incReg oFAB_RCHG)))
  ∧ (∀ (s : State) (l : Nat) (p : Packet) (t : Txn), s.blk.answers l (s.blk.arrived 0x8F p) t = true → s.blk.rout.mode = 1 → p.sub = 2 →
    Completes (.routeNak l p) s (EvFrame
      (({ s.blk with fab := { s.blk.fab with marks := (t.dst :: s.blk.fab.marks).eraseDups } }.failTxn t stROUTE).incReg oFAB_RCHG)))
  ∧ (∀ (s : State) (l : Nat) (p : Packet), s.blk.hubUp = true → s.blk.fab.txns.find? (fun x => x.num == p.txn) = none →
      pktForm (s.blk.arrived 0x81 p) = true →
    Completes (.readRsp l p) s (EvFrame s.blk))
  ∧ (∀ (s : State) (l : Nat) (p : Packet), s.blk.hubUp = true → (s.blk.link l).st = .up → 63 ≤ p.hops →
    Completes (.packetTransit l p) s (EvFrame (s.blk.incReg oFAB_BADPKT)))
  ∧ (∀ (s : State) (l : Nat) (p : Packet) (b' : Blk), s.blk.hubUp = true → (s.blk.link l).st = .up → pktForm p = true → p.typ ≠ 0x10 →
      p.dst ≠ s.blk.struc.modNum → s.blk.remoteHeld = false →
      s.blk.forward { p with hops := p.hops + 1 } (some ((s.blk.linkEnt l).bundle / 2)) = some b' →
    Completes (.packetTransit l p) s (EvFrame b'))
  ∧ (∀ (s : State) (l : Nat) (p : Packet), s.blk.hubUp = true → (s.blk.link l).st = .up → pktForm p = true → p.typ ≠ 0x10 →
      p.dst ≠ s.blk.struc.modNum → s.blk.remoteHeld = false → pktIsRsp p = false →
      s.blk.forward { p with hops := p.hops + 1 } (some ((s.blk.linkEnt l).bundle / 2)) = none →
    Completes (.packetTransit l p) s (EvFrame (s.blk.routeNak { p with hops := p.hops + 1 } 2)))
  ∧ (∀ (s : State) (l : Nat) (p : Packet), s.blk.hubUp = true → (s.blk.link l).st = .up → pktForm { p with typ := 0x10 } = true →
      fld p.payload 0 2 ≠ s.blk.struc.modNum → s.blk.rout.mode ≠ 1 →
      s.blk.fab.reports.all (fun r => r.1 != fld p.payload 0 2 || decide (r.2 < fld p.payload 4 4)) = true →
    Completes (.linkState l p) s (fun b =>
      tget 0 (fld p.payload 0 2) b.fab.reports = fld p.payload 4 4
        ∧ (b.fab.dead.contains (fld p.payload 0 2, fld p.payload 2 1) = (fld p.payload 3 1 != 1)) ∧ SameMem s.blk b))
  ∧ (∀ (s : State) (l : Nat) (p : Packet), s.blk.hubUp = true → pktForm { p with typ := 0x10 } = true →
      (fld p.payload 0 2 = s.blk.struc.modNum ∨
        s.blk.fab.reports.any (fun r => r.1 == fld p.payload 0 2 && decide (fld p.payload 4 4 ≤ r.2)) = true) →
    Completes (.linkState l p) s (EvFrame s.blk))
  ∧ (∀ (s : State) (n : Nat) (t : Txn), s.blk.hubUp = true → s.blk.fab.txns.find? (fun x => x.num == n) = some t →
    Completes (.remoteTimeout n) s (EvFrame ((s.blk.failTxn t stRTIMEOUT).incReg oFAB_TIMEOUT)))
  ∧ (∀ (s : State) (d : Nat), s.blk.hubUp = true →
    Completes (.unreachableMarkExpiry d) s (EvFrame
      { s.blk with fab := { s.blk.fab with marks := s.blk.fab.marks.filter (fun m => m != d) } }))

/-- R336, R337, R344: REMOTE_PUT, REMOTE_GET, REMOTE_ATOMIC. -/
def Obligations.RemoteOperations : Prop :=
  (∀ (s : State) (q seq : Nat) (f : Flight), s.blk.hubUp = true → s.blk.running q seq 0x30 = some f → s.blk.moveCheck f = stOK → f.progress = 0 →
      ((Wk.onFabric s.blk f).putPieces f.raw (split4k (rLen f.raw / 4096 + 2) (rRemote f.raw) (rLen f.raw)) 0 0).1.stall = false →
    Completes (.remotePut q seq) s (fun b =>
      let r := (Wk.onFabric s.blk f).putPieces f.raw (split4k (rLen f.raw / 4096 + 2) (rRemote f.raw) (rLen f.raw)) 0 0
      EvFrame (r.1.flushed.b.finish q seq r.1.flushed.st r.1.flushed.flags
        (((r.1.flushed.b.flight? q seq).map Flight.result).getD 0 + r.2.2)) b))
  ∧ (∀ (s : State) (q seq : Nat) (f : Flight), s.blk.hubUp = true → s.blk.running q seq 0x30 = some f → s.blk.moveCheck f ≠ stOK →
      f.progress = 0 →
    Completes (.remotePut q seq) s (EvFrame (s.blk.finish q seq (s.blk.moveCheck f) 0 0)))
  ∧ (∀ (s : State) (q seq : Nat) (f : Flight), s.blk.hubUp = true → s.blk.running q seq 0x31 = some f → s.blk.moveCheck f = stOK → f.progress = 0 →
      ((Wk.onFabric s.blk f).getPieces f.raw (split4k (rLen f.raw / 4096 + 2) (rRemote f.raw) (rLen f.raw)) 0).1.stall = false →
      ((Wk.onFabric s.blk f).getPieces f.raw (split4k (rLen f.raw / 4096 + 2) (rRemote f.raw) (rLen f.raw)) 0).1.need = [] →
    Completes (.remoteGet q seq) s (fun b =>
      let r := (Wk.onFabric s.blk f).getPieces f.raw (split4k (rLen f.raw / 4096 + 2) (rRemote f.raw) (rLen f.raw)) 0
      EvFrame (r.1.b.finish q seq r.1.st r.1.flags r.2) b))
  ∧ (∀ (s : State) (q seq : Nat) (f : Flight), s.blk.hubUp = true → s.blk.running q seq 0x31 = some f → s.blk.moveCheck f = stOK → f.progress = 0 →
      s.blk.haLocal (rRemote f.raw) = false → lookFetched f.fetched (rRemote f.raw) (min (rLen f.raw) (4096 - rRemote f.raw % 4096)) = none →
      f.txns = [] → f.fetched = [] → s.blk.fab.txns = [] → f.status = stOK →
      (s.blk.flights.filter (fun g => g.is q seq)) = [f] → rLen f.raw ≤ 4096 - rRemote f.raw % 4096 →
      (s.blk.originate ⟨1, 0, s.blk.struc.modNum, haModule (rRemote f.raw), 0, q, 0, 0, 0, rRemote f.raw, rLen f.raw, []⟩).isSome = true →
    Completes (.remoteGet q seq) s (fun b =>
      (b.flight? q seq).map (fun g => (g.stage, g.txns)) = some (.running, [0]) ∧ SameMem s.blk b
        ∧ b.fab.txns = [⟨0, 1, haModule (rRemote f.raw), rRemote f.raw, rLen f.raw, q, seq⟩]))
  ∧ (∀ (s : State) (q seq : Nat) (f : Flight), s.blk.hubUp = true → s.blk.running q seq 0x31 = some f → s.blk.moveCheck f ≠ stOK →
      f.progress = 0 →
    Completes (.remoteGet q seq) s (EvFrame (s.blk.finish q seq (s.blk.moveCheck f) 0 0)))
  ∧ (∀ (s : State) (q seq : Nat) (f : Flight), s.blk.hubUp = true → s.blk.running q seq 0x32 = some f → f.status = stOK →
      noHandles f.raw = true → zeroAt f.raw 0x29 7 = true → zeroAt f.raw 0x40 64 = true →
      atomicOk (fld f.raw 0x28 1) (fld f.raw 0x20 8) = true → s.blk.haOk (fld f.raw 0x20 8) = true → s.blk.haLocal (fld f.raw 0x20 8) = true →
      s.blk.rangeOk q (haMpa (fld f.raw 0x20 8)) (atomicLen (fld f.raw 0x28 1)) = true →
      s.blk.mustWait cRemote (haMpa (fld f.raw 0x20 8)) (atomicLen (fld f.raw 0x28 1)) = false →
      (s.blk.atomicAt ⟨3, cRemote, some q, f.path⟩ (haMpa (fld f.raw 0x20 8)) (fld f.raw 0x28 1) (fld f.raw 0x30 8) (fld f.raw 0x38 8)).2.1 = stOK →
    Completes (.remoteAtomic q seq) s (fun b =>
      let r := s.blk.atomicAt ⟨3, cRemote, some q, f.path⟩ (haMpa (fld f.raw 0x20 8)) (fld f.raw 0x28 1) (fld f.raw 0x30 8) (fld f.raw 0x38 8)
      EvFrame (((r.1.noteScope q seq 2).noteSlots q seq (haMpa (fld f.raw 0x20 8)) (atomicLen (fld f.raw 0x28 1))).finish q seq stOK 0 r.2.2) b))
  ∧ (∀ (s : State) (q seq : Nat) (f : Flight) (b' : Blk), s.blk.hubUp = true → s.blk.running q seq 0x32 = some f → f.status = stOK →
      noHandles f.raw = true → zeroAt f.raw 0x29 7 = true → zeroAt f.raw 0x40 64 = true →
      atomicOk (fld f.raw 0x28 1) (fld f.raw 0x20 8) = true → s.blk.haOk (fld f.raw 0x20 8) = true → s.blk.haLocal (fld f.raw 0x20 8) = false →
      lookFetched f.fetched (fld f.raw 0x20 8) 8 = none → f.txns = [] →
      s.blk.request q seq 3 (haModule (fld f.raw 0x20 8)) (fld f.raw 0x20 8) (fld f.raw 0x30 8) (fld f.raw 0x28 1)
        (leBytes 16 (fld f.raw 0x38 8)) = .sent b' →
    Completes (.remoteAtomic q seq) s (EvFrame (b'.updFlight q seq (fun g => { g with homes := [haModule (fld f.raw 0x20 8)] }))))
  ∧ (∀ (s : State) (q seq : Nat) (f : Flight) (d : Bytes), s.blk.hubUp = true → s.blk.running q seq 0x32 = some f → f.status = stOK →
      noHandles f.raw = true → zeroAt f.raw 0x29 7 = true → zeroAt f.raw 0x40 64 = true →
      atomicOk (fld f.raw 0x28 1) (fld f.raw 0x20 8) = true → s.blk.haOk (fld f.raw 0x20 8) = true → s.blk.haLocal (fld f.raw 0x20 8) = false →
      lookFetched f.fetched (fld f.raw 0x20 8) 8 = some d →
    Completes (.remoteAtomic q seq) s (EvFrame (s.blk.finish q seq stOK 0 (leNat d))))
  ∧ (∀ (s : State) (q seq : Nat) (f : Flight), s.blk.hubUp = true → s.blk.running q seq 0x32 = some f → f.status = stOK →
      (noHandles f.raw = false ∨ atomicOk (fld f.raw 0x28 1) (fld f.raw 0x20 8) = false) →
    Completes (.remoteAtomic q seq) s (EvFrame (s.blk.finish q seq stDESC 0 0)))

/-- R347 to R350: RDMA_WRITE, RDMA_READ and RDMA_SEND from outside. -/
def Obligations.RoceRequests : Prop :=
  (∀ (s : State) (f : RFrame), s.blk.frameNow 0 f = true →
      (RPos.starts f.pos = true → (s.blk.ecnSeen f).rdmaOk (s.blk.qpc f.qpn) true f = true) →
      f.payload.take ((s.blk.qpc f.qpn).begun f).left = [] →
    Completes (.rdmaWrite f) s (fun b =>
      EvFrame (s.blk.setQpc f.qpn { (s.blk.qpc f.qpn).begun f with rqPsn := psnAdd f.psn 1 }) b
      ∧ ((f.ackReq = true ∨ RPos.ends f.pos = true) → .roce f.qpn 3 f.psn [] ∈ b.sent)))
  ∧ (∀ (s : State) (f : RFrame), s.blk.frameNow 0 f = true →
      (RPos.starts f.pos = true → (s.blk.ecnSeen f).rdmaOk (s.blk.qpc f.qpn) true f = true) →
      f.payload.take ((s.blk.qpc f.qpn).begun f).left ≠ [] →
      ((s.blk.ecnSeen f).fabWrite (rqNet (s.blk.qpc f.qpn)) ((s.blk.qpc f.qpn).begun f).va
            (f.payload.take ((s.blk.qpc f.qpn).begun f).left)).2 = stOK →
    Completes (.rdmaWrite f) s (fun b =>
      EvFrame (((s.blk.ecnSeen f).fabWrite (rqNet (s.blk.qpc f.qpn)) ((s.blk.qpc f.qpn).begun f).va
            (f.payload.take ((s.blk.qpc f.qpn).begun f).left)).1.setQpc f.qpn { (s.blk.qpc f.qpn).begun f with
        va := ((s.blk.qpc f.qpn).begun f).va + (f.payload.take ((s.blk.qpc f.qpn).begun f).left).length
        left := ((s.blk.qpc f.qpn).begun f).left - (f.payload.take ((s.blk.qpc f.qpn).begun f).left).length
        rqPsn := psnAdd f.psn 1 }) b
      ∧ ((f.ackReq = true ∨ RPos.ends f.pos = true) → .roce f.qpn 3 f.psn [] ∈ b.sent)))
  ∧ (∀ (s : State) (f : RFrame), s.blk.frameNow 0 f = true → RPos.starts f.pos = true →
      (s.blk.ecnSeen f).rdmaOk (s.blk.qpc f.qpn) true f = false →
    Completes (.rdmaWrite f) s (fun b => (b.qpc f.qpn).phase = .error ∧ (b.qpc f.qpn).posts = [] ∧ .roce f.qpn 4 f.psn [] ∈ b.sent
      ∧ b.reg oNET_NAK = min (s.blk.reg oNET_NAK + 1) (2 ^ 32 - 1) ∧ (b.reg oNET_EVENTS).testBit 1 = true ∧ SameMem s.blk b))
  ∧ (∀ (s : State) (f : RFrame), s.blk.frameNow 1 f = true → (s.blk.ecnSeen f).rdmaOk (s.blk.qpc f.qpn) false f = true →
      s.blk.mem.sramBad = none → (readRange (s.blk.ecnSeen f) (rqNet (s.blk.qpc f.qpn)) f.va f.len).st = stOK →
    Completes (.rdmaRead f) s (fun b =>
      EvFrame ((readRange (s.blk.ecnSeen f) (rqNet (s.blk.qpc f.qpn)) f.va f.len).b.setQpc f.qpn
        { s.blk.qpc f.qpn with rqPsn := psnAdd f.psn ((s.blk.qpc f.qpn).frames f.len) }) b
      ∧ .roce f.qpn 8 f.psn (readRange (s.blk.ecnSeen f) (rqNet (s.blk.qpc f.qpn)) f.va f.len).data ∈ b.sent))
  ∧ (∀ (s : State) (f : RFrame) (buf o : Nat), s.blk.frameNow 1 f = true →
      (s.blk.ecnSeen f).rdmaOk (s.blk.qpc f.qpn) false f = true → s.blk.mem.sramBad = some (buf, o) →
    Completes (.rdmaRead f) s (fun b => EvFrame (s.blk.sramHit (some (s.blk.qpc f.qpn).owner) pNET buf o) b
      ∧ .roce f.qpn 5 f.psn [] ∈ b.sent))
  ∧ (∀ (s : State) (f : RFrame), s.blk.frameNow 1 f = true → (s.blk.ecnSeen f).rdmaOk (s.blk.qpc f.qpn) false f = false →
    Completes (.rdmaRead f) s (fun b => (b.qpc f.qpn).phase = .error ∧ .roce f.qpn 4 f.psn [] ∈ b.sent
      ∧ b.reg oNET_NAK = min (s.blk.reg oNET_NAK + 1) (2 ^ 32 - 1) ∧ SameMem s.blk b))
  ∧ (∀ (s : State) (f : RFrame), s.blk.frameNow 2 f = true → (s.blk.qpc f.qpn).doorbell = true → RPos.ends f.pos = true →
    Completes (.rdmaSend f) s (fun b =>
      EvFrame (((s.blk.ecnSeen f).setQpc f.qpn { s.blk.qpc f.qpn with sendBuf := [], rqPsn := psnAdd f.psn 1 }).ring
        (s.blk.qpc f.qpn).dbQp pNET (BitVec.ofNat 32 (fld ((s.blk.qpc f.qpn).sent f) 0 4))) b
      ∧ .roce f.qpn 3 f.psn [] ∈ b.sent))
  ∧ (∀ (s : State) (f : RFrame) (p : NetPost), s.blk.frameNow 2 f = true → (s.blk.qpc f.qpn).doorbell = false → RPos.ends f.pos = true →
      s.blk.nextRecv (s.blk.qpc f.qpn) = some p → ((s.blk.qpc f.qpn).sent f).length ≤ p.len →
      ((s.blk.ecnSeen f).otherWrite (rqNet (s.blk.qpc f.qpn)) p.addr ((s.blk.qpc f.qpn).sent f)).2 = stOK →
    Completes (.rdmaSend f) s (fun b =>
      EvFrame (((((((s.blk.ecnSeen f).otherWrite (rqNet (s.blk.qpc f.qpn)) p.addr ((s.blk.qpc f.qpn).sent f)).1.noteScope p.q p.seq 2).noteSlots
        p.q p.seq p.addr ((s.blk.qpc f.qpn).sent f).length).setQpc f.qpn { s.blk.qpc f.qpn with
          recvs := (s.blk.qpc f.qpn).recvs.filter (fun (z : NetPost) => z != p)
          sendBuf := []
          rqPsn := psnAdd f.psn 1 }).netFinish p stOK ((s.blk.qpc f.qpn).sent f).length)) b
      ∧ .roce f.qpn 3 f.psn [] ∈ b.sent))
  ∧ (∀ (s : State) (f : RFrame), s.blk.frameNow 2 f = true → (s.blk.qpc f.qpn).doorbell = false →
      s.blk.nextRecv (s.blk.qpc f.qpn) = none →
    Completes (.rdmaSend f) s (fun b => EvFrame s.blk b ∧ .roce f.qpn 6 f.psn [] ∈ b.sent))
  ∧ (∀ (s : State) (f : RFrame), s.blk.frameNow 0 { f with psn := (s.blk.qpc f.qpn).rqPsn } = true → f.psn ≠ (s.blk.qpc f.qpn).rqPsn →
    Completes (.rdmaWrite f) s (fun b => EvFrame s.blk b ∧
      (if psnLe f.psn (s.blk.qpc f.qpn).rqPsn then .roce f.qpn 3 (((s.blk.qpc f.qpn).rqPsn + 2 ^ 24 - 1) % 2 ^ 24) []
        else .roce f.qpn 9 (s.blk.qpc f.qpn).rqPsn []) ∈ b.sent))
  ∧ (∀ (s : State) (f : RFrame), s.blk.hubUp = true → (s.blk.qpc f.qpn).phase ≠ .ready →
    Completes (.rdmaWrite f) s (EvFrame s.blk))

/-- R346, R347, R351, R354: answers to posts, rates, pauses and ports. -/
def Obligations.RoceAnswers : Prop :=
  (∀ (s : State) (n psn : Nat), s.blk.hubUp = true → (s.blk.qpc n).phase = .ready →
    Completes (.roceAck n psn) s (fun b => EvFrame (s.blk.ackPosts n psn) b
      ∧ (b.qpc n).posts = (s.blk.qpc n).posts.filter (fun p => p.op == 1 || !psnLe p.endPsn psn)))
  ∧ (∀ (s : State) (n psn : Nat), s.blk.hubUp = true → (s.blk.qpc n).phase = .ready →
      (s.blk.qpc n).posts.any (fun p => p.op == 1 || !psnLe p.endPsn ((psn + 2 ^ 24 - 1) % 2 ^ 24)) = true →
    Completes (.roceNak n psn) s (fun b => EvFrame ((s.blk.ackPosts n ((psn + 2 ^ 24 - 1) % 2 ^ 24)).qpcError n stRANGE) b
      ∧ (b.qpc n).phase = .error ∧ (b.qpc n).posts = [] ∧ (b.reg oNET_EVENTS).testBit 1 = true))
  ∧ (∀ (s : State) (n : Nat) (p : NetPost), s.blk.hubUp = true → (s.blk.qpc n).phase = .ready →
      (s.blk.qpc n).posts.find? (fun p => p.op == 2) = some p → (s.blk.qpc n).rnrRetries < (s.blk.qpc n).rnrRetry →
    Completes (.rnrNak n) s (fun b =>
      EvFrame (s.blk.setQpc n { s.blk.qpc n with rnrRetries := (s.blk.qpc n).rnrRetries + 1 }) b ∧ .roceAgain n p.psn ∈ b.sent))
  ∧ (∀ (s : State) (n : Nat) (p : NetPost), s.blk.hubUp = true → (s.blk.qpc n).phase = .ready →
      (s.blk.qpc n).posts.find? (fun p => p.op == 2) = some p → (s.blk.qpc n).rnrRetry ≤ (s.blk.qpc n).rnrRetries →
    Completes (.rnrNak n) s (EvFrame (s.blk.qpcError n stRTIMEOUT)))
  ∧ (∀ (s : State) (n : Nat) (p : NetPost) (ps : List NetPost), s.blk.hubUp = true → (s.blk.qpc n).phase = .ready →
      (s.blk.qpc n).posts = p :: ps → (s.blk.qpc n).retries < (s.blk.qpc n).retryCnt →
    Completes (.roceRetryTimeout n) s (fun b =>
      EvFrame (s.blk.setQpc n { s.blk.qpc n with retries := (s.blk.qpc n).retries + 1 }) b ∧ .roceAgain n p.psn ∈ b.sent))
  ∧ (∀ (s : State) (n : Nat) (p : NetPost) (ps : List NetPost), s.blk.hubUp = true → (s.blk.qpc n).phase = .ready →
      (s.blk.qpc n).posts = p :: ps → (s.blk.qpc n).retryCnt ≤ (s.blk.qpc n).retries →
    Completes (.roceRetryTimeout n) s (EvFrame (s.blk.qpcError n stRTIMEOUT)))
  ∧ (∀ (s : State) (n : Nat), s.blk.hubUp = true → (s.blk.qpc n).phase = .ready →
    Completes (.cnp n) s (EvFrame (s.blk.setQpc n { s.blk.qpc n with rate := max 1000 ((s.blk.qpc n).rate / 2) })))
  ∧ (∀ (s : State) (n : Nat), s.blk.hubUp = true → (s.blk.qpc n).phase = .ready →
    Completes (.congestionRecovery n) s (EvFrame
      (s.blk.setQpc n { s.blk.qpc n with rate := min lineRate ((s.blk.qpc n).rate + lineRate / 20) })))
  ∧ (∀ (s : State) (port prio : Nat) (on : Bool), s.blk.hubUp = true → port < 2 → prio = bits (s.blk.eff oNET_CFG) 10 8 →
    Completes (.pfcPause port prio on) s (fun b => b.net.paused.testBit port = on ∧ b.net.qpcs = s.blk.net.qpcs
      ∧ b.net.linkUp = s.blk.net.linkUp ∧ SameMem s.blk b ∧ b.regs = s.blk.regs))
  ∧ (∀ (s : State) (port prio : Nat) (on : Bool), s.blk.hubUp = true → prio ≠ bits (s.blk.eff oNET_CFG) 10 8 →
    Completes (.pfcPause port prio on) s (EvFrame s.blk))
  ∧ (∀ (s : State) (port : Nat), s.blk.hubUp = true → s.blk.portUp port = true →
    Completes (.nonRoceFrame port) s (EvFrame (s.blk.incReg oNET_DROP)))
  ∧ (∀ (s : State) (port : Nat) (up : Bool), s.blk.hubUp = true → port < 2 → s.blk.net.linkUp.testBit port = !up →
      (up = true → (s.blk.reg (bNET + 4)).testBit port = true ∧ s.blk.mode ≠ .recovery ∧ (s.blk.pwr.state = .run ∨ s.blk.pwr.state = .doze)) →
    Completes (.netLinkChange port up) s (fun b => b.net.linkUp.testBit port = up ∧ (b.reg oNET_EVENTS).testBit 0 = true
      ∧ b.net.qpcs = s.blk.net.qpcs ∧ SameMem s.blk b))
  ∧ (∀ (s : State) (n : Nat) (d : Bytes) (p : NetPost), s.blk.hubUp = true → (s.blk.qpc n).phase = .ready →
      (s.blk.qpc n).posts.find? (fun p => p.op == 1) = some p → (p.len = 0 ∨ s.blk.mustWait cRemote p.addr p.len = false) →
      (s.blk.running p.q p.seq 0x38).isSome = true → (s.blk.qpc n).posts = [p] →
    Completes (.rdmaReadResponse n d) s (fun b =>
      let r := (s.blk.setQpc n { s.blk.qpc n with posts := [], retries := 0, rnrRetries := 0 }).otherWrite (rqNet (s.blk.qpc n)) p.addr
        (bytesAt d 0 p.len)
      EvFrame (((r.1.noteScope p.q p.seq 2).noteSlots p.q p.seq p.addr p.len).netFinish p r.2 0) b))

/-- R348, R351, R354: posts and contexts. -/
def Obligations.NetPosts : Prop :=
  (∀ (s : State) (q seq : Nat) (f : Flight), s.blk.postNow q seq 3 f = true →
    Completes (.netPostRecv q seq) s (EvFrame (s.blk.posted f (nQpn f.raw) { s.blk.qpc (nQpn f.raw) with
      recvs := (s.blk.qpc (nQpn f.raw)).recvs ++ [⟨q, seq, 3, nLen f.raw, nLocal f.raw, 0, 0⟩] })))
  ∧ (∀ (s : State) (q seq : Nat) (f : Flight), s.blk.postNow q seq 1 f = true → s.blk.portUp (s.blk.qpc (nQpn f.raw)).port = true →
      s.blk.net.paused.testBit (s.blk.qpc (nQpn f.raw)).port = false →
    Completes (.netPostRead q seq) s (fun b =>
      EvFrame (s.blk.posted f (nQpn f.raw) ((s.blk.qpc (nQpn f.raw)).withPost q seq 1 (nLen f.raw) (nLocal f.raw))) b
      ∧ .roce (nQpn f.raw) 1 (s.blk.qpc (nQpn f.raw)).sqPsn (leBytes 8 (nVa f.raw) ++ leBytes 4 (nKey f.raw) ++ leBytes 4 (nLen f.raw)) ∈ b.sent))
  ∧ (∀ (s : State) (q seq : Nat) (f : Flight), s.blk.postNow q seq 0 f = true → s.blk.portUp (s.blk.qpc (nQpn f.raw)).port = true →
      s.blk.net.paused.testBit (s.blk.qpc (nQpn f.raw)).port = false →
      (nLen f.raw = 0 ∨ s.blk.mustWait cRemote (nLocal f.raw) (nLen f.raw) = false) →
      (readRange s.blk (rqNet (s.blk.qpc (nQpn f.raw))) (nLocal f.raw) (nLen f.raw)).st = stOK →
      (readRange s.blk (rqNet (s.blk.qpc (nQpn f.raw))) (nLocal f.raw) (nLen f.raw)).corr = false →
    Completes (.netPostWrite q seq) s (fun b =>
      EvFrame ((readRange s.blk (rqNet (s.blk.qpc (nQpn f.raw))) (nLocal f.raw) (nLen f.raw)).b.posted f (nQpn f.raw)
        ((s.blk.qpc (nQpn f.raw)).withPost q seq 0 (nLen f.raw) (nLocal f.raw))) b
      ∧ .roce (nQpn f.raw) 0 (s.blk.qpc (nQpn f.raw)).sqPsn (leBytes 8 (nVa f.raw) ++ leBytes 4 (nKey f.raw)
          ++ (readRange s.blk (rqNet (s.blk.qpc (nQpn f.raw))) (nLocal f.raw) (nLen f.raw)).data) ∈ b.sent))
  ∧ (∀ (s : State) (q seq : Nat) (f : Flight), s.blk.postNow q seq 2 f = true → s.blk.portUp (s.blk.qpc (nQpn f.raw)).port = true →
      s.blk.net.paused.testBit (s.blk.qpc (nQpn f.raw)).port = false →
      (nLen f.raw = 0 ∨ s.blk.mustWait cRemote (nLocal f.raw) (nLen f.raw) = false) →
      (readRange s.blk (rqNet (s.blk.qpc (nQpn f.raw))) (nLocal f.raw) (nLen f.raw)).st = stOK →
      (readRange s.blk (rqNet (s.blk.qpc (nQpn f.raw))) (nLocal f.raw) (nLen f.raw)).corr = false →
    Completes (.netPostSend q seq) s (fun b =>
      EvFrame ((readRange s.blk (rqNet (s.blk.qpc (nQpn f.raw))) (nLocal f.raw) (nLen f.raw)).b.posted f (nQpn f.raw)
        ((s.blk.qpc (nQpn f.raw)).withPost q seq 2 (nLen f.raw) (nLocal f.raw))) b
      ∧ .roce (nQpn f.raw) 2 (s.blk.qpc (nQpn f.raw)).sqPsn
          (readRange s.blk (rqNet (s.blk.qpc (nQpn f.raw))) (nLocal f.raw) (nLen f.raw)).data ∈ b.sent))
  ∧ (∀ (s : State) (q seq : Nat) (f : Flight), s.blk.postNow q seq 2 f = true →
      (s.blk.portUp (s.blk.qpc (nQpn f.raw)).port = false ∨ s.blk.net.paused.testBit (s.blk.qpc (nQpn f.raw)).port = true) →
    Completes (.netPostSend q seq) s (EvFrame s.blk))
  ∧ (∀ (s : State) (q seq : Nat) (f : Flight), s.blk.hubUp = true → s.blk.running q seq 0x38 = some f → f.progress = 0 →
      (nOp f.raw = 2 ∨ 4 ≤ nOp f.raw) → s.blk.postWaits f = false → netForm f.raw = false →
    Completes (.netPostSend q seq) s (EvFrame (s.blk.finish q seq stDESC 0 0)))
  ∧ (∀ (s : State) (q seq : Nat) (f : Flight), s.blk.hubUp = true → s.blk.running q seq 0x38 = some f → f.progress = 0 →
      nOp f.raw = 2 → s.blk.postWaits f = false → netForm f.raw = true → (s.blk.qpc (nQpn f.raw)).phase = .error →
    Completes (.netPostSend q seq) s (EvFrame (s.blk.finish q seq stABORT 0 0)))
  ∧ (∀ (s : State) (p : Path) (n : Nat), s.blk.pathOn p = true → reaches p.code (bNET + 0x70) = true → n < 4096 → n < s.blk.qpcCount →
      s.blk.mustWait cHub (s.blk.eff64 (bNET + 0x20) / 4096 * 4096 + 128 * n) 128 = false →
      (readRange (s.blk.atPort p) ⟨7, cHub, none, p.code⟩ (s.blk.eff64 (bNET + 0x20) / 4096 * 4096 + 128 * n) 128).st = stOK →
      ctxOk (readRange (s.blk.atPort p) ⟨7, cHub, none, p.code⟩ (s.blk.eff64 (bNET + 0x20) / 4096 * 4096 + 128 * n) 128).data = true →
    Completes (.qpcLoad p n) s (fun b =>
      let r := readRange (s.blk.atPort p) ⟨7, cHub, none, p.code⟩ (s.blk.eff64 (bNET + 0x20) / 4096 * 4096 + 128 * n) 128
      EvFrame (((r.b.qpcClear n).setQpc n { QpcSt.reset with
        phase := .ready, ctx := r.data, sqPsn := fld r.data 8 4, rqPsn := fld r.data 0xC 4 }).setReg oQPCMD_STS 0) b))
  ∧ (∀ (s : State) (p : Path) (n : Nat), s.blk.pathOn p = true → reaches p.code (bNET + 0x70) = true → n < 4096 → s.blk.qpcCount ≤ n →
    Completes (.qpcLoad p n) s (EvFrame ((s.blk.atPort p).setReg oQPCMD_STS 2)))
  ∧ (∀ (s : State) (p : Path) (v : Nat), s.blk.pathOn p = true → reaches p.code (bNET + 0x70) = true → bits v 13 12 = 1 → v < 2 ^ 14 →
      v % 4096 < s.blk.qpcCount →
    Completes (.qpcReset p v) s (fun b => b.qpc (v % 4096) = .reset ∧ b.reg oQPCMD_STS = 0 ∧ SameMem s.blk b
      ∧ (∀ n, n < 4096 → n ≠ v % 4096 → b.qpc n = s.blk.qpc n)))
  ∧ (∀ (s : State) (p : Path) (v : Nat), s.blk.pathOn p = true → reaches p.code (bNET + 0x70) = true → bits v 13 12 = 2 → v < 2 ^ 14 →
      v % 4096 < s.blk.qpcCount →
    Completes (.qpcForceError p v) s (fun b => (b.qpc (v % 4096)).phase = .error ∧ (b.qpc (v % 4096)).posts = [] ∧ b.reg oQPCMD_STS = 0
      ∧ (b.reg oNET_EVENTS).testBit 1 = true ∧ SameMem s.blk b))

/-- R359 to R362: the idle timers and power hints. -/
def Obligations.IdleAndHints : Prop :=
  (∀ (s : State) (t : Nat), s.blk.pwr.keepEnd = some t → t ≤ s.blk.time.toNat →
    Completes .keepExpiry s (EvFrame (s.blk.setPwr { s.blk.pwr with keepEnd := none })))
  ∧ (∀ s : State, s.blk.pwr.state = .run → s.blk.busy = false →
    Completes .runDozeTimer s (fun b => b.pwr.state = .doze ∧ b.pwr.prev = .run
      ∧ ∀ d, d < 192 → (s.blk.die d).sr = .awake → (b.die d).sr = .entering))
  ∧ (∀ s : State, s.blk.pwr.state = .doze → s.blk.busy = false → s.blk.dozeWatchHeld ≠ 0 →
    Completes .dozeWatchTimer s (fun b => b.pwr.state = .entering ∧ b.pwr.target = .watch ∧ b.pwr.step = 1 ∧ b.pwr.prev = .doze))
  ∧ (∀ (s : State) (d : Nat), s.blk.pwr.state = .doze → d < 192 → (s.blk.die d).sr = .awake →
    Completes (.dieIdleTimer d) s (EvFrame (s.blk.setDie d { s.blk.die d with sr := .entering })))
  ∧ (∀ (s : State) (q seq : Nat) (f : Flight), s.blk.running q seq 0x60 = some f → hintOk f.raw = true →
      zeroAt f.raw 0x10 16 = true →
    Completes (.powerHint q seq) s (fun b =>
      (fld f.raw 0x20 1 = 0 → EvFrame ((s.blk.setPwr
          { s.blk.pwr with keepEnd := if fld f.raw 0x24 4 = 0 then none else some (s.blk.time.toNat + ticksMs (fld f.raw 0x24 4)) }).finish
            q seq stOK 0 0) b)
      ∧ (fld f.raw 0x20 1 ≠ 0 → s.blk.busyBut q seq = false → EvFrame ((s.blk.setPwr
          { s.blk.pwr with after := some (q, seq, if fld f.raw 0x20 1 = 1 then PState.doze else PState.watch) }).finish
            q seq stOK 0 0) b)))
  ∧ (∀ (s : State) (q seq : Nat) (f : Flight), s.blk.running q seq 0x60 = some f → hintOk f.raw = true →
      zeroAt f.raw 0x10 16 = true → fld f.raw 0x20 1 ≠ 0 →
    Completes (.powerHintWaitTimeout q seq) s (EvFrame (s.blk.finish q seq stABORT 0 0)))

/-- R361 to R371: the steps of entries and wakes. -/
def Obligations.EntryAndWake : Prop :=
  (∀ (s : State) (f : Flight), s.blk.pwr.state = .entering → s.blk.pwr.step = 1 → s.blk.pwr.viaSide = true →
      s.blk.lay.phase = .idle → s.blk.flights = [f] → f.stage = .accepted →
    Completes .quiesceTimeout s (fun b => Finished b f stPOWER))
  ∧ (∀ s : State, s.blk.pwr.state = .entering → 1 ≤ s.blk.pwr.step → s.blk.pwr.step < 6 →
      s.blk.entryReady s.blk.pwr.step = true → s.blk.held = [] →
    Completes .entryStepDone s (fun b => b.pwr.state = .entering ∧ b.pwr.step = s.blk.pwr.step + 1))
  ∧ (∀ s : State, s.blk.pwr.state = .entering → s.blk.pwr.step = 6 → s.blk.pwr.target = .watch → s.blk.pwr.latched = 0 →
      s.blk.held = [] →
    Completes .entryStepDone s (fun b => b.pwr.state = .watch ∧ b.pwr.rails = railsWatch ∧ b.mem = s.blk.mem))
  ∧ (∀ (s : State) (o : Bool), (s.blk.pwr.state = .watch ∨ s.blk.pwr.state = .hold) →
    Completes (.listenWindow o) s (EvFrame (s.blk.setPwr { s.blk.pwr with listening := o })))
  ∧ (∀ (s : State) (l : Nat), s.blk.pwr.state = .watch → s.blk.pwr.listening = true → s.blk.linkOn l = true → l < 32 →
      (s.blk.eff (bPOWER + 0x18)).testBit 1 = true →
    Completes (.linkWakeDetect l) s (fun b => b.pwr.state = .waking ∧ b.pwr.wake = .fromWatch ∧ b.pwr.step = 1
      ∧ (b.reg oWAKE_CAUSE).testBit 1 = true))
  ∧ (∀ s : State, s.blk.pwr.state = .watch → (s.blk.eff (bPOWER + 0x18)).testBit 2 = true →
    Completes (.wakeInNLow true) s (fun b => b.pwr.state = .waking ∧ b.pwr.wake = .fromWatch ∧ b.pins.wakeInN = false
      ∧ (b.reg oWAKE_CAUSE).testBit 2 = true))
  ∧ (∀ s : State, s.blk.pwr.state = .watch → s.blk.reg (bPOWER + 0x48) ≠ 0 →
      (s.blk.eff (bPOWER + 0x18)).testBit 3 = true →
    Completes .alarmExpiry s (fun b => b.pwr.state = .waking ∧ b.pwr.wake = .fromWatch
      ∧ (b.reg oWAKE_CAUSE).testBit 3 = true))
  ∧ (∀ (s : State) (n : Nat) (i : Bool), s.blk.pwr.state = .waking → s.blk.pwr.retryWait = false → s.blk.pwr.step = 1 →
    Completes (.wakeStepReady n i) s (fun b => b.pwr.state = .waking ∧ b.pwr.step = 2 ∧ b.pwr.attempt = 0
      ∧ b.pwr.rails = railsAll))
  ∧ (∀ (s : State) (i c : Nat), s.blk.pwr.state = .waking → s.blk.pwr.retryWait = false →
    Completes (.wakeStepTimeout i c) s (fun b =>
      (s.blk.pwr.attempt ≠ 2 → b.pwr = { s.blk.pwr with attempt := s.blk.pwr.attempt + 1, retryWait := true })
      ∧ (s.blk.pwr.attempt = 2 → b.pwr.state = .stuck ∧ b.pins.faultN = false
        ∧ b.reg oSTUCK_CODE = (wakeStepNo s.blk.pwr.step * 2 ^ 28 + s.blk.pwr.source.code * 2 ^ 24 + i % 256 * 65536
            + c % 256 * 256) % 2 ^ 32)))
  ∧ (∀ s : State, s.blk.pwr.state = .waking → s.blk.pwr.retryWait = true →
    Completes .wakeRetryDelay s (fun b => b.pwr = { s.blk.pwr with retryWait := false } ∧ b.mem = s.blk.mem ∧ b.regs = s.blk.regs))

/-- R372, R378: the commands of PWR_CMD. -/
def Obligations.PowerCommands : Prop :=
  (∀ s : State, s.blk.pathOn .sideband = true → (s.blk.pwr.state = .run ∨ s.blk.pwr.state = .doze ∨ s.blk.pwr.state = .watch) →
    Completes (.pwrCmdHold .sideband) s (fun b => b.pwr.state = .entering ∧ b.pwr.target = .hold ∧ b.pwr.step = 1
      ∧ b.pwr.source = s.blk.pwr.state ∧ SameMem s.blk b ∧ b.flights = s.blk.flights))
  ∧ (∀ s : State, s.blk.pathOn .sideband = true → s.blk.pwr.state ≠ .stuck → s.blk.pwr.state ≠ .off →
      (s.blk.pwr.state = .entering → s.blk.pwr.target ≠ .off) →
    Completes (.pwrCmdOff .sideband) s (fun b => b.pwr.state = .entering ∧ b.pwr.target = .off ∧ b.pwr.step = 1
      ∧ SameMem s.blk b ∧ b.flights = s.blk.flights))
  ∧ (∀ s : State, s.blk.pathOn .sideband = true →
      (s.blk.pwr.state = .off ∨ (s.blk.pwr.state = .entering ∧ s.blk.pwr.target = .off)) →
    Completes (.pwrCmdOff .sideband) s (EvFrame s.blk))
  ∧ (∀ s : State, s.blk.pathOn .sideband = true → s.blk.pwr.state = .watch →
    Completes (.pwrCmdWake .sideband) s (fun b => b.pwr.state = .waking ∧ b.pwr.wake = .fromWatch ∧ b.pwr.step = 1
      ∧ (b.reg oWAKE_CAUSE).testBit 4 = true ∧ SameMem s.blk b))
  ∧ (∀ s : State, s.blk.pathOn .sideband = true → s.blk.pwr.state = .hold →
    Completes (.pwrCmdWake .sideband) s (fun b => b.pwr.state = .waking ∧ b.pwr.wake = .fromHold ∧ b.pwr.step = 1
      ∧ (b.reg oWAKE_CAUSE).testBit 4 = true ∧ SameMem s.blk b))
  ∧ (∀ s : State, s.blk.pathOn .sideband = true → s.blk.pwr.state = .off → s.blk.pins.pwrEn = true → s.blk.heldDown = false →
    Completes (.pwrCmdWake .sideband) s (fun b => b.pwr.state = .waking ∧ b.pwr.wake = .startup ∧ b.pwr.step = 1
      ∧ b.mode = .startup ∧ b.time = 0 ∧ (b.reg oWAKE_CAUSE).testBit 4 = true))
  ∧ (∀ s : State, s.blk.pathOn .sideband = true → s.blk.pwr.state = .off → s.blk.heldDown = true →
    Completes (.pwrCmdWake .sideband) s (EvFrame (s.blk.incReg (bSDG + 0xA8))))
  ∧ (∀ s : State, s.blk.pathOn .sideband = true → s.blk.pwr.state ≠ .stuck →
    Completes (.clearStuck .sideband) s (EvFrame (s.blk.setReg oSTUCK_CODE 0)))
  ∧ (∀ s : State, s.blk.pathOn .sideband = true → s.blk.pwr.state = .stuck →
    Completes (.powerCycle .sideband) s (fun b => b.pwr.state = .off ∧ b.pwr.prev = .stuck ∧ b.pwr.rails = railsOff
      ∧ b.pwr.padsHeld = 0 ∧ b.reg oSTUCK_CODE = s.blk.reg oSTUCK_CODE))
  ∧ (∀ s : State, s.blk.pathOn .sideband = true → s.blk.logUp = true → s.blk.pwr.state ≠ .run → s.blk.pwr.state ≠ .doze →
      s.blk.pwr.state ≠ .watch →
    Completes (.pwrCmdHold .sideband) s (fun b => b.pwr = s.blk.pwr ∧ SameMem s.blk b ∧ LastLog s.blk b kPWR_CMD 1))
  ∧ (∀ s : State, s.blk.pathOn .sideband = true → s.blk.logUp = true → s.blk.pwr.state = .stuck →
    Completes (.pwrCmdOff .sideband) s (fun b => b.pwr = s.blk.pwr ∧ SameMem s.blk b ∧ LastLog s.blk b kPWR_CMD 2))
  ∧ (∀ s : State, s.blk.pathOn .sideband = true → s.blk.logUp = true → s.blk.pwr.state ≠ .watch → s.blk.pwr.state ≠ .hold →
      s.blk.pwr.state ≠ .off →
    Completes (.pwrCmdWake .sideband) s (fun b => b.pwr = s.blk.pwr ∧ SameMem s.blk b ∧ LastLog s.blk b kPWR_CMD 3))
  ∧ (∀ s : State, s.blk.pathOn .sideband = true → s.blk.logUp = true → s.blk.pwr.state = .stuck →
    Completes (.clearStuck .sideband) s (fun b => b.pwr = s.blk.pwr ∧ b.reg oSTUCK_CODE = s.blk.reg oSTUCK_CODE
      ∧ LastLog s.blk b kPWR_CMD 4))
  ∧ (∀ s : State, s.blk.pathOn .sideband = true → s.blk.logUp = true → s.blk.pwr.state ≠ .stuck →
    Completes (.powerCycle .sideband) s (fun b => b.pwr = s.blk.pwr ∧ SameMem s.blk b ∧ LastLog s.blk b kPWR_CMD 5))
  ∧ (∀ (s : State) (p : Path), p ≠ .sideband → s.blk.pathOn p = true → s.blk.logUp = true →
    Completes (.pwrCmdHold p) s (fun b => b.pwr = s.blk.pwr ∧ LastLog s.blk b kPWR_CMD 1)
    ∧ Completes (.pwrCmdOff p) s (fun b => b.pwr = s.blk.pwr ∧ LastLog s.blk b kPWR_CMD 2)
    ∧ Completes (.pwrCmdWake p) s (fun b => b.pwr = s.blk.pwr ∧ LastLog s.blk b kPWR_CMD 3)
    ∧ Completes (.clearStuck p) s (fun b => b.pwr = s.blk.pwr ∧ LastLog s.blk b kPWR_CMD 4)
    ∧ Completes (.powerCycle p) s (fun b => b.pwr = s.blk.pwr ∧ LastLog s.blk b kPWR_CMD 5))

/-- R366 to R376: pads, link wakes, regulators and the host's reads. -/
def Obligations.PadsAndRegulators : Prop :=
  (∀ (s : State) (p : Path) (v : Nat), s.blk.pathOn p = true → reaches p.code bPOWER = true → bits v 15 8 ≠ 0 →
      (s.blk.mode = .test ∨ s.blk.mode = .recovery) →
      (∀ i, i < 8 → (bits v 15 8).testBit i = true → s.blk.pwr.rails.testBit ([0, 4, 5, 6, 7, 8, 9, 10].getD i 0) = true) →
    Completes (.pwrPadrel p v) s (fun b => ∀ i, i < 8 →
      b.pwr.padsHeld.testBit i = (s.blk.pwr.padsHeld.testBit i && !(bits v 15 8).testBit i)))
  ∧ (∀ (s : State) (p : Path) (v : Nat), s.blk.pathOn p = true → reaches p.code bPOWER = true → bits v 15 8 ≠ 0 →
      s.blk.mode ≠ .test → s.blk.mode ≠ .recovery →
    Completes (.pwrPadrel p v) s (fun b => b.pwr = s.blk.pwr ∧ (s.blk.logUp = true → LastLog s.blk b kPWR_PADREL 0)))
  ∧ (∀ (s : State) (p : Path) (v : Nat), s.blk.pathOn p = true → reaches p.code bPOWER = true → s.blk.pwr.rails.testBit 6 = true →
    Completes (.pwrLinkwake p v) s (fun b =>
      (∀ l, l < 32 → b.pwr.pattern.testBit l = (s.blk.pwr.pattern.testBit l || (v.testBit l && (s.blk.link l).st == .down)))
      ∧ (∀ l, l < 32 → (v.testBit l && (s.blk.link l).st == .down && !s.blk.pwr.pattern.testBit l) = true → .wakePattern l ∈ b.sent)))
  ∧ (∀ (s : State) (l : Nat), s.blk.hubUp = true → s.blk.pwr.pattern.testBit l = true →
    Completes (.linkwakePatternEnd l) s (EvFrame (
      if (s.blk.link l).st = .down then (s.blk.setPwr { s.blk.pwr with pattern := clrBit s.blk.pwr.pattern l }).linkStart l
      else s.blk.setPwr { s.blk.pwr with pattern := clrBit s.blk.pwr.pattern l })))
  ∧ (∀ (s : State) (off : Nat) (wide : Bool), s.blk.att.ready = true → s.blk.pwr.state = .watch → watchReads off = false →
      (s.blk.eff (bPOWER + 0x18)).testBit 0 = true →
    Completes (.hostWake ⟨off, wide⟩) s (fun b => b.pwr.state = .waking ∧ b.pwr.wake = .fromWatch
      ∧ (b.reg oWAKE_CAUSE).testBit 0 = true ∧ b.held = s.blk.held ++ [.cmd (.hostWake ⟨off, wide⟩)]))
  ∧ (∀ (s : State) (off : Nat) (wide : Bool),
      (s.blk.hostOn = true ∨ (s.blk.att.ready = true ∧ s.blk.pwr.state = .watch ∧ watchReads off = true)) →
      off < 0x1000000 → accessOk off (if wide then 8 else 4) = true →
    Completes (.hostWake ⟨off, wide⟩) s (fun b => EvFrame (s.blk.atPort .host) b
      ∧ .regRead (if wide then (s.blk.atPort .host).readWord off + 2 ^ 32 * (s.blk.atPort .host).readWord (off + 4)
          else (s.blk.atPort .host).readWord off) ∈ b.sent))
  ∧ (∀ (s : State) (off : Nat) (wide : Bool), s.blk.hostOn = true → 0x1000000 ≤ off → off % (if wide then 8 else 4) = 0 →
    Completes (.hostWake ⟨off, wide⟩) s (fun b => EvFrame (s.blk.atPort .host) b
      ∧ .regRead (s.blk.msixRead (off - 0x1000000) + (if wide then 2 ^ 32 * s.blk.msixRead (off + 4 - 0x1000000) else 0)) ∈ b.sent))
  ∧ (∀ (s : State) (ok : Bool), Completes (.pmbusTransactionDone ok) s (fun b =>
      (ok = true → b.pwr.pmbus = 0 ∧ b.regs = s.blk.regs)
      ∧ (ok = false → s.blk.pwr.pmbus < 2 → b.pwr.pmbus = s.blk.pwr.pmbus + 1 ∧ b.regs = s.blk.regs)
      ∧ (ok = false → 2 ≤ s.blk.pwr.pmbus → b.pwr.pmbus = 0 ∧ (b.reg oPWR_EVENTS).testBit 4 = true)))
  ∧ (∀ (s : State) (r : AvsReq), s.blk.pwr.avs = some r →
    Completes .avsAcknowledged s (fun b => b.pwr = { s.blk.pwr with avs := none, mv := r.mv } ∧ b.sdg.avsHeld = false))
  ∧ (∀ (s : State) (r : AvsReq) (mv : Nat), s.blk.pwr.avs = some r →
    Completes (.avsAckTimeout mv) s (fun b =>
      (r.attempt < 2 → b.pwr = { s.blk.pwr with avs := some { r with attempt := r.attempt + 1 } })
      ∧ (2 ≤ r.attempt → b.pwr = { s.blk.pwr with avs := none, mhz := s.blk.supported mv s.blk.pwr.mhz }
          ∧ (b.reg oPWR_EVENTS).testBit 2 = true
          ∧ b.reg (bPOWER + 0x58) = min (s.blk.reg (bPOWER + 0x58) + 1) (2 ^ 32 - 1)
          ∧ (s.blk.logUp = true → LastLog s.blk b kPWR_AVS 0))))

/-- R361, R405, R415 to R417, R444, R446: the module's supply and its start-up. -/
def Obligations.SupplyAndStartUp : Prop :=
  (∀ (s : State) (slot : Nat), s.blk.pwr.state = .off → s.blk.heldDown = false →
    Completes (.pwrEnAssert slot) s (fun b => b.pwr.state = .waking ∧ b.pwr.wake = .startup ∧ b.pwr.step = 1 ∧ b.time = 0
      ∧ b.mode = .startup ∧ b.pins.slotId = slot % 8 ∧ b.pins.pwrEn = true ∧ (b.reg oWAKE_CAUSE).testBit 5 = true))
  ∧ (∀ s : State, s.blk.pwr.state ≠ .off → s.blk.pwr.state ≠ .unpowered → s.blk.sec.romOnly = false →
    Completes .pwrEnDeassert s (fun b => b.pwr.state = .off ∧ b.pwr.rails = railsOff ∧ b.pins.pwrEn = false
      ∧ b.mem.cells = [] ∧ b.flights = []))
  ∧ (∀ s : State, s.blk.pwr.state = .unpowered →
    Completes .inputPowerApplied s (fun b =>
      ((s.blk.fwOf 0).choose = none → b.pwr.state = .stuck ∧ b.sec.romOnly = true ∧ b.pins.faultN = false)
      ∧ ((s.blk.fwOf 0).choose ≠ none → s.blk.pins.pwrEn = false → b.pwr.state = .off)
      ∧ ((s.blk.fwOf 0).choose ≠ none → s.blk.pins.pwrEn = true → b.pwr.state = .waking ∧ b.pwr.wake = .startup)))
  ∧ (∀ s : State, Completes .inputUndervoltage s (fun b => b.pwr = { s.blk.pwr with hotSwap := false, inputOk := false }))
  ∧ (∀ s : State, Completes .inputOvervoltage s (fun b => b.pwr = { s.blk.pwr with hotSwap := false, inputOk := false }))
  ∧ (∀ s : State, s.blk.pwr.state ≠ .unpowered →
    Completes .inputRestored s (fun b => b.pwr = { s.blk.pwr with hotSwap := true, inputOk := true }))
  ∧ (∀ s : State, s.blk.pwr.hotSwap = false → s.blk.pwr.state ≠ .unpowered →
    Completes .holdupExhausted s (fun b => b.pwr.state = .unpowered ∧ b.pwr.rails = 0 ∧ b.regs = [] ∧ b.mem.cells = []
      ∧ b.lay.copy0 = s.blk.lay.copy0 ∧ b.lay.copy1 = s.blk.lay.copy1))
  ∧ (∀ (s : State) (rail : Nat), (s.blk.pwr.state = .run ∨ s.blk.pwr.state = .doze) → s.blk.flights = [] →
      s.blk.pwr.rails.testBit rail = true →
    Completes (.railPowerGoodLost rail) s (fun b => b.pwr.state = .off ∧ b.pins.faultN = false ∧ b.mem.cells = []))
  ∧ (∀ (s : State) (ok : Bool) (ms : Nat) (bad : List Nat), s.blk.pwr.state = .waking → s.blk.pwr.wake = .startup →
      s.blk.pwr.retryWait = false →
    Completes (.startupStepDone ok ⟨ms, bad⟩) s (fun b =>
      (s.blk.pwr.step = 14 → b.pwr = { s.blk.pwr with step := 15, attempt := 0 })
      ∧ (s.blk.pwr.step = 15 → b.pwr = { s.blk.pwr with step := 16, attempt := 0 })))
  ∧ (∀ s : State, s.blk.pwr.state = .waking → s.blk.pwr.wake = .startup → s.blk.pwr.step = 14 →
    Completes .clusterReadyTimeout s (fun b =>
      (s.blk.pwr.attempt < 2 → b.pwr = { s.blk.pwr with attempt := s.blk.pwr.attempt + 1 })
      ∧ (2 ≤ s.blk.pwr.attempt → b.pwr.state = .stuck ∧ bits (b.reg oSTUCK_CODE) 15 8 = 8)))
  ∧ (∀ s : State, Completes .wakeOutNRelease s (fun b => b.pins = { s.blk.pins with wakeOutN := true }))

/-- R389 to R398, R405: SENSOR_UPDATE, REGULATOR_READ, INPUT_CURRENT_CHECK, HOLDDOWN_END, THERM_N_EXTERNAL. -/
def Obligations.SensorsAndThrottle : Prop :=
  (∀ (s : State) (temps : List (Option Int)) (mv w : Nat) (ok : Bool) (secs : Nat) (nv : Bool), s.blk.pwr.state ≠ .unpowered →
    Completes (.sensorUpdate temps mv w ok secs nv) s (fun b => (s.blk.update temps mv w ok).2 = none →
      s.blk.sdg.global ≤ b.sdg.global ∧ b.sdg.global ≤ s.blk.sdg.global + 8
      ∧ (ok = true → b.reg (bSDG + 0xC) = mv % 65536 * 65536 + w % 65536)
      ∧ (s.blk.sdg.lower = none → (b.sdg.lower.map (fun l => l.headD 0)) = some (lowest b.globalSources).1)
      ∧ b.mem.cells = s.blk.mem.cells ∧ b.pwr = s.blk.pwr))
  ∧ (∀ (s : State) (temps : List (Option Int)) (mv w : Nat) (ok : Bool) (secs : Nat) (nv : Bool), tripActs s.blk.pwr.state = true →
    Completes (.sensorUpdate temps mv w ok secs nv) s (fun b => (s.blk.update temps mv w ok).2.isSome = true →
      b.pwr.state = .off ∧ b.pwr.rails = railsOff ∧ (b.reg oSDG_STATUS).testBit 1 = true ∧ b.mem.cells = [] ∧ b.flights = []
        ∧ (nv = true → b.sdg.records.head? = some ((s.blk.update temps mv w ok).1.tripRecord ((s.blk.update temps mv w ok).2.getD 0) secs))))
  ∧ (∀ (s : State) (temps : List (Option Int)) (mv w : Nat) (ok : Bool) (secs : Nat) (nv : Bool) (n : Nat), s.blk.pwr.state ≠ .unpowered →
      s.blk.sdg.regs = [] → n < 512 → s.blk.sensorOn n = true → partOf n ≠ 4 →
    Completes (.sensorUpdate temps mv w ok secs nv) s (fun b => (s.blk.update temps mv w ok).2 = none →
      (b.sensor n).usable = match (temps.getD n none).filter (fun t => convOk (s.blk.sensor n).prev t) with
        | some t => some t
        | none => (s.blk.sensor n).usable))
  ∧ (∀ (s : State) (temps : List (Option Int)),
    Completes (.regulatorRead temps) s (fun b => SameMem s.blk b ∧ b.pwr = s.blk.pwr ∧ ∀ i, i < 16 →
      tget 0 i b.sdg.regs = ((temps.getD i none).filter (fun t => convOk (s.blk.sensor (484 + i)).prev t)).getD (tget 0 i s.blk.sdg.regs)))
  ∧ (∀ (s : State) (ma mv : Nat), 1050000 * (s.blk.reg (bSDG + 0x40) % 65536) < ma * mv →
    Completes (.inputCurrentCheck ma mv) s (fun b => b.sdg.lower = some (List.replicate 17 26) ∧ b.throttleCause = 6
      ∧ b.lowerFactors.sdg.global = min s.blk.sdg.global 26
      ∧ b.sdg.global = s.blk.sdg.global ∧ SameMem s.blk b))
  ∧ (∀ (s : State) (ma mv : Nat), ma * mv ≤ 1050000 * (s.blk.reg (bSDG + 0x40) % 65536) →
    Completes (.inputCurrentCheck ma mv) s (EvFrame s.blk))
  ∧ (∀ (s : State) (secs : Nat), s.blk.heldDown = true → s.blk.pwr.state = .off →
      ((s.blk.reg (bSDG + 0x68)).testBit 31 = false ∨ s.blk.pins.pwrEn = false) →
    Completes (.holddownEnd secs) s (fun b => b.heldDown = false ∧ b.pwr = s.blk.pwr ∧ b.pins.faultN = false ∧ b.pins.thermOut = false
      ∧ SameMem s.blk b))
  ∧ (∀ (s : State) (secs : Nat), s.blk.heldDown = true → s.blk.pwr.state = .off → (s.blk.reg (bSDG + 0x68)).testBit 31 = true →
      s.blk.pins.pwrEn = true → (s.blk.sdg.restarts.filter (fun t => decide (secs < t + 3600))).length < bits (s.blk.reg (bSDG + 0x68)) 27 24 →
    Completes (.holddownEnd secs) s (fun b => b.heldDown = false ∧ b.pwr.state = .waking ∧ b.pwr.wake = .startup ∧ b.sec.path = 3
      ∧ b.sdg.restarts = s.blk.sdg.restarts.filter (fun t => decide (secs < t + 3600)) ++ [secs]))
  ∧ (∀ (s : State) (low : Bool),
    Completes (.thermNExternal low) s (EvFrame
      (if low && s.blk.pins.thermN && !s.blk.pins.thermOut then { s.blk with pins := { s.blk.pins with thermN := !low } }.sdgEvent 6
        else { s.blk with pins := { s.blk.pins with thermN := !low } })))

/-- R384, R386, R400 to R404, R409: capsules, leases, the cluster and the log's tail. -/
def Obligations.CapsulesLeasesCluster : Prop :=
  (∀ (s : State) (p : Path) (v : Nat) (late : Bool), s.blk.pathOn p = true → reaches p.code bSDG = true → v.testBit 0 = true →
      s.blk.sdg.capNext = none → s.blk.cmdFree (.capsuleLoad p v late) = true →
      (late = true ∨ s.blk.reg (bSDG + 0x20) % 4096 = 0 ∨ s.blk.reg64 (bSDG + 0x18) % 2 ^ 40 % 64 ≠ 0) →
    Completes (.capsuleLoad p v late) s (fun b => b.reg oCAP_STS = oSOURCE + 256 * 3 ∧ b.sdg = s.blk.sdg
      ∧ (b.reg oSDG_EVENTS).testBit 4 = true ∧ (s.blk.logUp = true → LastLog s.blk b kSDG_CAPREJ oSOURCE)))
  ∧ (∀ (s : State) (p : Path) (v : Nat) (late : Bool) (r : Acc), s.blk.pathOn p = true → reaches p.code bSDG = true → v.testBit 0 = true →
      s.blk.sdg.capNext = none → s.blk.cmdFree (.capsuleLoad p v late) = true → late = false → s.blk.reg (bSDG + 0x20) % 4096 ≠ 0 → s.blk.reg64 (bSDG + 0x18) % 2 ^ 40 % 64 = 0 →
      s.blk.struc.inGuarded (s.blk.reg64 (bSDG + 0x18) % 2 ^ 40) (s.blk.reg (bSDG + 0x20) % 4096) = true →
      r = readRange ((s.blk.atPort p).putReg oCAP_CTRL 2 v) rqObj (s.blk.reg64 (bSDG + 0x18) % 2 ^ 40) (s.blk.reg (bSDG + 0x20) % 4096) →
      r.st = stOK →
    Completes (.capsuleLoad p v late) s (fun b =>
      let why := r.b.capReason true r.data (s.blk.reg (bSDG + 0x20) % 4096)
      b.reg oCAP_STS = why + 256 * (if why = 0 then 2 else 3)
        ∧ b.sdg.capNext = (if why = 0 then some r.data else none)
        ∧ b.sdg.capSave = (if why = 0 && v.testBit 1 then some r.data else r.b.sdg.capSave)))
  ∧ (∀ (s : State) (r : Bytes), s.blk.sdg.capSave = some r →
    Completes (.capsulePersistDone true) s (fun b => b.sdg.capSave = none ∧ b.sdg.capFloor = max s.blk.sdg.capFloor (fld r 8 4)
      ∧ (b.sdg.valid0 = some r ∨ b.sdg.valid1 = some r) ∧ b.regs = s.blk.regs ∧ SameMem s.blk b))
  ∧ (∀ (s : State) (r : Bytes), s.blk.sdg.capSave = some r →
    Completes (.capsulePersistDone false) s (EvFrame (s.blk.setSdg { s.blk.sdg with capSave := none })))
  ∧ (∀ (s : State) (h n : Nat), s.blk.pathOn (holderPath h) = true → s.blk.leaseMay h n = true → s.blk.lease? n = none →
    Completes (.leaseAcquire h n) s (EvFrame ((s.blk.atPort (holderPath h)).setLease n ⟨h, s.blk.time.toNat + leaseLen n⟩)))
  ∧ (∀ (s : State) (h n : Nat), s.blk.pathOn (holderPath h) = true → (s.blk.leaseMay h n = false ∨ (s.blk.lease? n).isSome = true) →
    Completes (.leaseAcquire h n) s (EvFrame (s.blk.atPort (holderPath h))))
  ∧ (∀ (s : State) (h n : Nat), s.blk.pathOn (holderPath h) = true → s.blk.leaseHeld n h = true →
    Completes (.leaseRenew h n) s (EvFrame ((s.blk.atPort (holderPath h)).setLease n ⟨h, s.blk.time.toNat + leaseLen n⟩)))
  ∧ (∀ (s : State) (h n : Nat), s.blk.pathOn (holderPath h) = true → s.blk.leaseHeld n h = true →
    Completes (.leaseRelease h n) s (EvFrame ((s.blk.atPort (holderPath h)).freeLease n)))
  ∧ (∀ (s : State) (h n : Nat), s.blk.pathOn (holderPath h) = true → s.blk.leaseHeld n h = false →
    Completes (.leaseRelease h n) s (EvFrame (s.blk.atPort (holderPath h))))
  ∧ (∀ (s : State) (n u : Nat) (l : LeaseSt), n ≠ 3 → s.blk.lease? n = some l → l.ends ≤ s.blk.time.toNat →
    Completes (.leaseExpiry n u) s (fun b => b.lease? n = none ∧ b.reg (bSDG + 0xB0) = min (s.blk.reg (bSDG + 0xB0) + 1) (2 ^ 32 - 1)
      ∧ (b.reg oSDG_EVENTS).testBit 2 = true ∧ (s.blk.logUp = true → LastLog s.blk b kSDG_LEASE (n * 256 + l.holder)) ∧ SameMem s.blk b))
  ∧ (∀ (s : State) (u : Nat), (s.blk.unit u).slot.isSome = true →
    Completes (.leaseExpiry 3 u) s (fun b => b.sdg.withdrawn.contains u = true ∧ (b.reg oSDG_STATUS).testBit 2 = true ∧ b.pins.faultN = false
      ∧ (b.reg oSDG_EVENTS).testBit 2 = true))
  ∧ (∀ (s : State) (c : Nat), c < 8 → s.blk.restarting = false → s.blk.pwr.rails.testBit 2 = true →
    Completes (.watchdogExpiry c) s (fun b => b.restarting = true ∧ (b.reg oSDG_EVENTS).testBit 3 = true
      ∧ b.reg (bSDG + 0xA0) = 2 ^ c * 256 ∧ b.reg (bSDG + 0xAC) = min (s.blk.reg (bSDG + 0xAC) + 1) (2 ^ 32 - 1)
      ∧ b.flights = s.blk.flights ∧ SameMem s.blk b ∧ b.sdg.coreRestarts.getLast? = some s.blk.time.toNat))
  ∧ (∀ (s : State) (c : Nat), c < 8 → s.blk.restarting = false → s.blk.pwr.rails.testBit 2 = true →
    Completes (.coreParityError c) s (fun b => b.restarting = true ∧ (b.reg oSDG_EVENTS).testBit 3 = true
      ∧ b.reg (bSDG + 0xA0) = 2 ^ c * 256 ∧ b.reg (bSDG + 0xAC) = min (s.blk.reg (bSDG + 0xAC) + 1) (2 ^ 32 - 1)
      ∧ b.flights = s.blk.flights ∧ SameMem s.blk b))
  ∧ (∀ (s : State) (c : Nat), c < 8 → s.blk.restarting = false → s.blk.pwr.rails.testBit 2 = true →
      2 ≤ (s.blk.sdg.coreRestarts.filter (fun t => decide (s.blk.time.toNat < t + ticks10s))).length →
    Completes (.watchdogExpiry c) s (fun b => b.halted = true ∧ (b.reg oSDG_STATUS).testBit 2 = true ∧ b.pins.faultN = false))
  ∧ (∀ s : State, s.blk.restarting = true → s.blk.halted = false →
    Completes .clusterRestartReady s (EvFrame ({ s.blk with restarting := false }.resumeFetch)))
  ∧ (∀ (s : State) (p : Path) (v : Nat), s.blk.pathOn p = true → reaches p.code bERRLOG = true → s.blk.leaseHeld 4 (holderOf p.code) = true →
      (BitVec.ofNat 32 v - s.blk.log.tail).toNat ≤ (s.blk.log.head - s.blk.log.tail).toNat →
    Completes (.elTailWrite p v) s (EvFrame { s.blk.atPort p with log := { s.blk.log with tail := BitVec.ofNat 32 v } }))
  ∧ (∀ (s : State) (p : Path) (v : Nat), s.blk.pathOn p = true → (s.blk.leaseHeld 4 (holderOf p.code) = false ∨
      (s.blk.log.head - s.blk.log.tail).toNat < (BitVec.ofNat 32 v - s.blk.log.tail).toNat) →
    Completes (.elTailWrite p v) s (EvFrame (s.blk.atPort p)))

/-- R418 to R433: MODE_REQUEST and the objects of ID_OBJ. -/
def Obligations.ModesAndObjects : Prop :=
  (∀ (s : State) (p : Path) (v : Nat), s.blk.pathOn p = true → reaches p.code bIDENT = true → bits v 5 4 = 1 →
      s.blk.mode = .startup →
    Completes (.modeRequest p v) s (fun b => b.mode = .normal ∧ b.sec.reason = 1
      ∧ b.sec.m = s.blk.sec.m.set 5 (extend (s.blk.sec.m.getD 5 []) (leBytes 1 OpMode.normal.code ++ zeros 63)) ∧ SameMem s.blk b))
  ∧ (∀ (s : State) (p : Path) (v : Nat), s.blk.pathOn p = true → reaches p.code bIDENT = true → bits v 5 4 ≠ 0 →
      (bits v 5 4 ≠ 1 ∨ s.blk.mode ≠ .startup) →
    Completes (.modeRequest p v) s (fun b => b.mode = s.blk.mode ∧ (b.reg (bIDENT + 0x100)).testBit 8 = true ∧ b.sec = s.blk.sec))
  ∧ (∀ (s : State) (p : Path), s.blk.pathOn p = true → (p = .host ∨ p = .internal) → s.blk.objPlace s.blk.objLen = false →
    Completes (.idObjFirmware p) s (EvFrame ((s.blk.atPort p).setReg oOBJ_STS (oSOURCE + 256 * 3))))
  ∧ (∀ (s : State) (p : Path) (r : Acc), s.blk.pathOn p = true → (p = .host ∨ p = .internal) → s.blk.cmdFree (.idObjFirmware p) = true → s.blk.objPlace s.blk.objLen = true →
      r = readRange (s.blk.atPort p) rqObj s.blk.objSrc s.blk.objLen → r.st = stOK → s.blk.sec.fw.length = 3 →
    Completes (.idObjFirmware p) s (fun b =>
      let why := r.b.fwReason r.data s.blk.objLen
      b.reg oOBJ_STS = why + 256 * (if why = 0 then 2 else 3) ∧ b.mem = r.b.mem
        ∧ (why ≠ 0 → b.sec = r.b.sec)
        ∧ (why = 0 → (if (r.b.fwOf (fld r.data 6 1)).runsB then (b.fwOf (fld r.data 6 1)).a else (b.fwOf (fld r.data 6 1)).b)
            = some (fwCopyOf r.data))))
  ∧ (∀ (s : State) (p : Path), s.blk.pathOn p = true → (p = .host ∨ p = .internal) → s.blk.objPlace s.blk.objLen = false →
    Completes (.idObjEnrol p) s (EvFrame ((s.blk.atPort p).setReg oOBJ_STS (oSOURCE + 256 * 3))))
  ∧ (∀ (s : State) (p : Path) (r : Acc), s.blk.pathOn p = true → (p = .host ∨ p = .internal) → s.blk.cmdFree (.idObjEnrol p) = true → s.blk.objPlace s.blk.objLen = true →
      r = readRange (s.blk.atPort p) rqObj s.blk.objSrc s.blk.objLen → r.st = stOK →
    Completes (.idObjEnrol p) s (fun b =>
      let why := r.b.enrolReason r.data s.blk.objLen p.code
      b.reg oOBJ_STS = why + 256 * (if why = 0 then 2 else 3) ∧ b.mem = r.b.mem
        ∧ (why ≠ 0 → b.sec = r.b.sec)
        ∧ (why = 0 → b.sec.keys.counter = fld r.data 8 4
            ∧ b.sec.keys.slots = r.b.sec.keys.slots.set (fld r.data 7 1) (if fld r.data 6 1 = 1 then bytesAt r.data 0x20 1952 else []))))
  ∧ (∀ (s : State) (p : Path), s.blk.pathOn p = true → (p = .host ∨ p = .internal) → s.blk.cmdFree (.idObjReport p) = true → s.blk.objLen ≠ 4032 →
    Completes (.idObjReport p) s (EvFrame ((s.blk.atPort p).setReg oOBJ_STS (oCONTAINER + 256 * 3))))
  ∧ (∀ (s : State) (p : Path), s.blk.pathOn p = true → (p = .host ∨ p = .internal) → s.blk.cmdFree (.idObjReport p) = true → s.blk.objLen = 4032 → s.blk.objPlace 4032 = true →
      (readRange (s.blk.atPort p) rqObj s.blk.objSrc 32).st = stOK →
    Completes (.idObjReport p) s (fun b =>
      let r := readRange (s.blk.atPort p) rqObj s.blk.objSrc 32
      let w := writeRange r.b rqObj r.b.objSrc (r.b.report4032 r.data)
      EvFrame (w.1.objDone (if w.2 = stOK then 0 else oSOURCE)) b))
  ∧ (∀ (s : State) (p : Path), s.blk.pathOn p = true → (p = .host ∨ p = .internal) → s.blk.cmdFree (.idObjCert p) = true → s.blk.objLen ≠ 5312 →
    Completes (.idObjCert p) s (EvFrame ((s.blk.atPort p).setReg oOBJ_STS (oCONTAINER + 256 * 3))))
  ∧ (∀ (s : State) (p : Path), s.blk.pathOn p = true → (p = .host ∨ p = .internal) → s.blk.cmdFree (.idObjCert p) = true → s.blk.objLen = 5312 → s.blk.objPlace 5312 = true →
    Completes (.idObjCert p) s (fun b =>
      let w := writeRange (s.blk.atPort p) rqObj s.blk.objSrc certificate
      EvFrame (w.1.objDone (if w.2 = stOK then 0 else oSOURCE)) b))

/-- R406, R434, R438: the commands of the sideband. -/
def Obligations.Sideband : Prop :=
  (∀ (s : State) (c off n : Nat), s.blk.sideLive = true → c < 5 → off % 4 = 0 → 0 < n → n ≤ 16 →
    Completes (.readReg c off n) s (fun b => EvFrame (s.blk.resp (leBytes 1 0 ++ ((List.range n).map (fun i =>
      leBytes 4 (if inBlock ([bIDENT, bPOWER, bTHERM, bERRLOG, bSDG].getD c 0) (off + 4 * i)
        then s.blk.readWord ([bIDENT, bPOWER, bTHERM, bERRLOG, bSDG].getD c 0 + off + 4 * i) else 0))).flatten)) b))
  ∧ (∀ (s : State) (c off n : Nat), s.blk.sideLive = true → (5 ≤ c ∨ off % 4 ≠ 0 ∨ n = 0 ∨ 16 < n) →
    Completes (.readReg c off n) s (EvFrame (s.blk.resp (leBytes 1 oCONTAINER))))
  ∧ (∀ (s : State) (c off v base : Nat), s.blk.sideLive = true → [bIDENT, bPOWER, bTHERM, bERRLOG, bSDG][c]? = some base → off % 4 = 0 →
      base ≠ bTHERM → inBlock base off = true →
    Completes (.writeReg c off v) s (EvFrame
      ((s.blk.writeWord pSIDE (base + off) (v % 2 ^ 32)).1.resp (leBytes 1 (s.blk.writeWord pSIDE (base + off) (v % 2 ^ 32)).2))))
  ∧ (∀ (s : State) (c off v : Nat), s.blk.sideLive = true → (5 ≤ c ∨ off % 4 ≠ 0) →
    Completes (.writeReg c off v) s (EvFrame (s.blk.resp (leBytes 1 oCONTAINER))))
  ∧ (∀ (s : State) (nonce : Bytes), s.blk.sideLive = true →
    Completes (.getReport nonce) s (EvFrame (s.blk.resp (leBytes 1 0 ++ s.blk.report4032 nonce))))
  ∧ (∀ s : State, s.blk.sideLive = true → Completes .getCert s (EvFrame (s.blk.resp (leBytes 1 0 ++ certificate))))
  ∧ (∀ (s : State) (k : Nat) (d : Bytes), s.blk.pwr.state ≠ .unpowered → (s.blk.sec.romOnly = false ∨ k = 0) → (k = 0 ∨ k = 1 ∨ k = 4) →
    Completes (.loadObject k 0 d false) s (EvFrame { s.blk with sec := { s.blk.sec with frags := some (k, d) } }))
  ∧ (∀ (s : State) (k off : Nat) (d : Bytes), s.blk.pwr.state ≠ .unpowered → (s.blk.sec.romOnly = false ∨ k = 0) → (k = 0 ∨ k = 1 ∨ k = 4) → 0 < off →
      (s.blk.sec.frags.map (fun (x : Nat × Bytes) => (x.1, x.2.length))) = some (k, off) →
    Completes (.loadObject k off d false) s (EvFrame { s.blk with sec := { s.blk.sec with
      frags := s.blk.sec.frags.map (fun (x : Nat × Bytes) => (x.1, x.2 ++ d)) } }))
  ∧ (∀ (s : State) (k off : Nat) (d : Bytes) (last : Bool), s.blk.pwr.state ≠ .unpowered → (s.blk.sec.romOnly = false ∨ k = 0) →
      (¬ (k = 0 ∨ k = 1 ∨ k = 4) ∨ (0 < off ∧ (s.blk.sec.frags.map (fun (x : Nat × Bytes) => (x.1, x.2.length))) ≠ some (k, off))) →
    Completes (.loadObject k off d last) s (fun b => b.sec.resps = s.blk.sec.resps ++ [leBytes 1 oCONTAINER] ∧ b.sec.m = s.blk.sec.m
      ∧ b.sec.fw = s.blk.sec.fw ∧ b.sec.keys = s.blk.sec.keys ∧ SameMem s.blk b ∧ b.sdg = s.blk.sdg))
  ∧ (∀ (s : State) (k off : Nat) (d : Bytes), s.blk.pwr.state ≠ .unpowered → (s.blk.sec.romOnly = false ∨ k = 0) → (k = 0 ∨ k = 1 ∨ k = 4) → 0 < off →
      (s.blk.sec.frags.map (fun (x : Nat × Bytes) => (x.1, x.2.length))) = some (k, off) →
    Completes (.loadObject k off d true) s (fun b =>
      let r := { s.blk with sec := { s.blk.sec with frags := none } }.sideObject k (((s.blk.sec.frags.map (fun (x : Nat × Bytes) => x.2)).getD []) ++ d)
      EvFrame (r.1.resp (leBytes 1 r.2)) b))
  ∧ (∀ (s : State) (k off : Nat) (d : Bytes) (last : Bool), s.blk.sec.romOnly = true → k ≠ 0 →
    Completes (.loadObject k off d last) s (EvFrame s.blk))
  ∧ (∀ (s : State) (m : Nat), s.blk.sideLive = true →
    Completes (.setMode m) s (fun b =>
      EvFrame ((s.blk.sideMode m).1.resp (leBytes 1 (s.blk.sideMode m).2)) b
      ∧ b.mode = (if m = 3 then OpMode.recovery
          else if m = 2 && (s.blk.mode = .startup || s.blk.mode = .normal) then OpMode.test
          else if m = 1 && s.blk.mode = .startup then OpMode.normal else s.blk.mode)))
  ∧ (∀ s : State, s.blk.sideLive = true →
    Completes .getStatus s (EvFrame (s.blk.resp (leBytes 1 0 ++ leBytes 4 (s.blk.readWord bPOWER) ++ leBytes 4 (s.blk.readWord (bIDENT + 0x100))
      ++ leBytes 4 (s.blk.readWord bSDG)))))
  ∧ (∀ s : State, Completes .mctpResponseTimeout s (EvFrame
      { s.blk with sec := { s.blk.sec with resps := s.blk.sec.resps.drop 1 } }))
end

