-- ==== Sys2Proof/Laws/Exec.lean ====
section
/-! SUPPORT. What each command runs: its frame and its effect on the block. -/

namespace Sys2Proof.Machine
open Sys2Proof

variable (s : State)

theorem exec_badAccess (path : Path) (write : Bool) (off size : Nat) :
    exec (.badAccess path write off size) s = busAct path (.badAccess path write off size) s := rfl
theorem exec_sdgWriteRefused (path : Path) (off val : Nat) :
    exec (.sdgWriteRefused path off val) s = busAct path (.sdgWriteRefused path off val) s := rfl
theorem exec_registerWrite (path : Path) (off : Nat) (wide : Bool) (val : Nat) :
    exec (.registerWrite path off wide val) s = busAct path (.registerWrite path off wide val) s := rfl
theorem exec_budgetPeriodBoundary (margin : Nat) :
    exec (.budgetPeriodBoundary margin) s = act s (fun b => b.boundary margin) := rfl
theorem exec_commit (path : Path) (blk : CBlk) (val : Nat) :
    exec (.commit path blk val) s = busAct path (.commit path blk val) s := rfl
theorem exec_layLoad (path : Path) (val : Nat) :
    exec (.layLoad path val) s = busAct path (.layLoad path val) s := rfl
theorem exec_layPersistDone (ok : Bool) :
    exec (.layPersistDone ok) s = hubAct s (fun b => b.layPersist ok) := rfl
theorem exec_segmentInitDone (init : SegInit) :
    exec (.segmentInitDone init) s = hubAct s (fun b => b.segInit init.seg init.cls) := rfl
theorem exec_sealSegs (q seq : Nat) :
    exec (.sealSegs q seq) s = hubAct s (fun b => b.convStart q seq 0x40 true) := rfl
theorem exec_unsealSegs (q seq : Nat) :
    exec (.unsealSegs q seq) s = hubAct s (fun b => b.convStart q seq 0x41 false) := rfl
theorem exec_conversionSegmentDone (seg : Nat) :
    exec (.conversionSegmentDone seg) s = hubAct s (fun b => (b.convSegDone seg).releaseHeld) := rfl
theorem exec_scrubStep (ch : Nat) :
    exec (.scrubStep ch) s = hubAct s (fun b => b.scrubStep ch) := rfl
theorem exec_act (ch port cls bank row : Nat) :
    exec (.act ch port cls bank row) s = hubAct s (fun b => (b.chAct ch port cls bank row).pump ch) := rfl
theorem exec_pre (ch port cls bank : Nat) :
    exec (.pre ch port cls bank) s = hubAct s (fun b => (b.chPre ch port cls bank).pump ch) := rfl
theorem exec_rdh (ch port cls bank row grp half : Nat) (keep : Bool) :
    exec (.rdh ch port cls bank row grp half keep) s = hubAct s (fun b => b.chRdh ch port cls bank row grp half keep) := rfl
theorem exec_wrh (ch port cls bank row grp half : Nat) (keep : Bool) (data : Bytes) :
    exec (.wrh ch port cls bank row grp half keep data) s = hubAct s (fun b => b.chWrh ch port cls bank row grp half keep data) := rfl
theorem exec_rdw (ch : Nat) (ask : ColAsk) (bank row word : Nat) :
    exec (.rdw ch ask bank row word) s = hubAct s (fun b => b.chRdw ch ask.port ask.cls bank row word ask.keep) := rfl
theorem exec_wrw (ch : Nat) (ask : ColAsk) (bank row word : Nat) (data : Bytes) :
    exec (.wrw ch ask bank row word data) s = hubAct s (fun b => b.chWrw ch ask.port ask.cls bank row word ask.keep data) := rfl
theorem exec_refpr (ch pair : Nat) :
    exec (.refpr ch pair) s = hubAct s (fun b => b.chRefpr ch pair) := rfl
theorem exec_sre (die : Nat) :
    exec (.sre die) s = hubAct s (fun b => b.dieSre die) := rfl
theorem exec_srx (die : Nat) :
    exec (.srx die) s = hubAct s (fun b => b.dieSrx die) := rfl
theorem exec_cmdParityFail (ch : Nat) (owner : Owner) :
    exec (.cmdParityFail ch owner) s = hubAct s (fun b => b.parityFail ch owner) := rfl
theorem exec_refreshDue (ch pair : Nat) :
    exec (.refreshDue ch pair) s = hubAct s (fun b => b.refreshDue ch pair) := rfl
theorem exec_refreshLate (ch pair : Nat) :
    exec (.refreshLate ch pair) s = hubAct s (fun b => b.refreshLate ch pair) := rfl
theorem exec_refreshPullIn (ch pair : Nat) :
    exec (.refreshPullIn ch pair) s = hubAct s (fun b => b.chPullIn ch pair) := rfl
theorem exec_rowIdleTimeout (ch bank : Nat) :
    exec (.rowIdleTimeout ch bank) s = hubAct s (fun b => b.rowIdle ch bank) := rfl
theorem exec_scReqTimeout (ch port cls : Nat) (owner : Owner) :
    exec (.scReqTimeout ch port cls owner) s = hubAct s (fun b => b.reqTimeout ch port cls owner) := rfl
theorem exec_srEntryTimeout (die : Nat) :
    exec (.srEntryTimeout die) s = hubAct s (fun b => b.srEntryTimeout die) := rfl
theorem exec_srExitPhyLocked (die : Nat) :
    exec (.srExitPhyLocked die) s = hubAct s (fun b => b.phyLocked die) := rfl
theorem exec_srExitTxsElapsed (die : Nat) :
    exec (.srExitTxsElapsed die) s = hubAct s (fun b => ((b.txsElapsed die).sweep).releaseHeld) := rfl
theorem exec_srExitPhyTimeout (die : Nat) :
    exec (.srExitPhyTimeout die) s = hubAct s (fun b => b.exitLate die) := rfl
theorem exec_corrWindowExpiry (ch : Nat) :
    exec (.corrWindowExpiry ch) s = hubAct s (fun b => b.corrExpiry ch) := rfl
theorem exec_retrainTimer (bad : List Nat) :
    exec (.retrainTimer bad) s = hubAct s (fun b => b.retrainAll bad) := rfl
theorem exec_clrCounters (path : Path) (stack val : Nat) :
    exec (.clrCounters path stack val) s = busAct path (.clrCounters path stack val) s := rfl
theorem exec_trnStart (path : Path) (val : Nat) :
    exec (.trnStart path val) s = busAct path (.trnStart path val) s := rfl
theorem exec_trnRunDone (errs : List Nat) :
    exec (.trnRunDone errs) s = hubAct s (fun b => b.trnDone errs) := rfl
theorem exec_pimMode (ch mask body : Nat) :
    exec (.pimMode ch mask body) s = hubAct s (fun b => (b.submit (unitCmdOf ch 1 mask body [])).sweep) := rfl
theorem exec_opl (ch mask body : Nat) (data : Bytes) :
    exec (.opl ch mask body data) s = hubAct s (fun b => (b.submit (unitCmdOf ch 2 mask body data)).sweep) := rfl
theorem exec_cact (t : StepTarget) :
    exec (.cact t) s = hubAct s (fun b => (b.stepCmd 3 t).sweep) := rfl
theorem exec_crd (t : StepTarget) :
    exec (.crd t) s = hubAct s (fun b => (b.stepCmd 4 t).sweep) := rfl
theorem exec_cwr (t : StepTarget) :
    exec (.cwr t) s = hubAct s (fun b => (b.stepCmd 5 t).sweep) := rfl
theorem exec_accRd (t : StepTarget) :
    exec (.accRd t) s = hubAct s (fun b => (b.stepCmd 6 t).sweep) := rfl
theorem exec_accRdTransferDone (u set : Nat) :
    exec (.accRdTransferDone u set) s = hubAct s (fun b => (b.transferDone u set).sweep) := rfl
theorem exec_tblWr (ch mask body : Nat) (data : Bytes) :
    exec (.tblWr ch mask body data) s = hubAct s (fun b => ((b.submit (unitCmdOf ch 7 mask body data)).settleErred (unitCmdOf ch 7 mask body data)).sweep) := rfl
theorem exec_stepLd (ch mask body : Nat) (data : Bytes) :
    exec (.stepLd ch mask body data) s = hubAct s (fun b => (b.submit (unitCmdOf ch 8 mask body data)).sweep) := rfl
theorem exec_stepGo (ch mask body : Nat) :
    exec (.stepGo ch mask body) s = hubAct s (fun b => (b.submit (unitCmdOf ch 9 mask body [])).sweep) := rfl
theorem exec_smax (u : Nat) :
    exec (.smax u) s = hubAct s (fun b => b.runStep u 0xA) := rfl
theorem exec_sexp (u : Nat) :
    exec (.sexp u) s = hubAct s (fun b => b.runStep u 0xB) := rfl
theorem exec_lperm (u : Nat) :
    exec (.lperm u) s = hubAct s (fun b => b.runStep u 0xC) := rfl
theorem exec_lew (u : Nat) :
    exec (.lew u) s = hubAct s (fun b => b.runStep u 0xD) := rfl
theorem exec_lstat (u : Nat) :
    exec (.lstat u) s = hubAct s (fun b => b.runStep u 0xE) := rfl
theorem exec_unitStepDone (u : Nat) :
    exec (.unitStepDone u) s = hubAct s (fun b => b.stepEnd u) := rfl
theorem exec_bankGemv (q seq : Nat) :
    exec (.bankGemv q seq) s = hubAct s (fun b => b.gemvStart q seq) := rfl
theorem exec_planReadDone (q seq : Nat) :
    exec (.planReadDone q seq) s = hubAct s (fun b => b.planReadDone q seq) := rfl
theorem exec_treeWindowComplete (q seq stack win : Nat) :
    exec (.treeWindowComplete q seq stack win) s = hubAct s (fun b => (b.treeComplete q seq stack win).sweep) := rfl
theorem exec_hubWindowCombine (q seq win : Nat) :
    exec (.hubWindowCombine q seq win) s = hubAct s (fun b => b.hubCombine q seq win) := rfl
theorem exec_bankEwise (q seq : Nat) :
    exec (.bankEwise q seq) s = hubAct s (fun b => b.ewStart q seq) := rfl
theorem exec_bankNorm (q seq : Nat) :
    exec (.bankNorm q seq) s = hubAct s (fun b => b.normStart q seq) := rfl
theorem exec_normStatsReady (q seq row : Nat) :
    exec (.normStatsReady q seq row) s = hubAct s (fun b => b.normReady q seq row) := rfl
theorem exec_bankTable (q seq : Nat) :
    exec (.bankTable q seq) s = hubAct s (fun b => b.tableStart q seq) := rfl
theorem exec_bankAttn (q seq : Nat) :
    exec (.bankAttn q seq) s = hubAct s (fun b => b.attnStart q seq) := rfl
theorem exec_attnFallbackCheck (q seq : Nat) :
    exec (.attnFallbackCheck q seq) s = hubAct s (fun b => (b.attnFallback q seq).sweep) := rfl
theorem exec_attnProbeResolve (q seq head : Nat) :
    exec (.attnProbeResolve q seq head) s = hubAct s (fun b => b.attnResolve q seq head) := rfl
theorem exec_tileMm (q seq : Nat) :
    exec (.tileMm q seq) s = hubAct s (fun b => b.tileStart q seq) := rfl
theorem exec_tileDone (ox : Nat) :
    exec (.tileDone ox) s = hubAct s (fun b => (b.tileDone ox).veIdle) := rfl
theorem exec_ftqEntryFreed (periods : List Nat) :
    exec (.ftqEntryFreed periods) s = hubAct s (fun b => (b.ftqFreed periods).veIdle) := rfl
theorem exec_vecProg (q seq : Nat) :
    exec (.vecProg q seq) s = hubAct s (fun b => b.vecStart q seq) := rfl
theorem exec_veRowBoundary (turn : Bool) :
    exec (.veRowBoundary turn) s = hubAct s (fun b => b.veBoundary turn) := rfl
theorem exec_sfuMap (q seq : Nat) :
    exec (.sfuMap q seq) s = hubAct s (fun b => b.sfuRun q seq 0) := rfl
theorem exec_sfuSoftmax (q seq : Nat) :
    exec (.sfuSoftmax q seq) s = hubAct s (fun b => b.sfuRun q seq 1) := rfl
theorem exec_sfuLogSoftmax (q seq : Nat) :
    exec (.sfuLogSoftmax q seq) s = hubAct s (fun b => b.sfuRun q seq 2) := rfl
theorem exec_sfuLayerNorm (q seq : Nat) :
    exec (.sfuLayerNorm q seq) s = hubAct s (fun b => b.sfuRun q seq 3) := rfl
theorem exec_sfuRmsNorm (q seq : Nat) :
    exec (.sfuRmsNorm q seq) s = hubAct s (fun b => b.sfuRun q seq 4) := rfl
theorem exec_sfuLoadTable (q seq : Nat) :
    exec (.sfuLoadTable q seq) s = hubAct s (fun b => b.sfuRun q seq 5) := rfl
theorem exec_copy (q seq : Nat) :
    exec (.copy q seq) s = hubAct s (fun b => b.copyRun q seq) := rfl
theorem exec_fill (q seq : Nat) :
    exec (.fill q seq) s = hubAct s (fun b => b.fillRun q seq) := rfl
theorem exec_relay (q seq : Nat) :
    exec (.relay q seq) s = hubAct s (fun b => b.relayRun q seq) := rfl
theorem exec_descCreate (q seq : Nat) :
    exec (.descCreate q seq) s = hubAct s (fun b => b.createRun q seq) := rfl
theorem exec_descDrop (q seq : Nat) :
    exec (.descDrop q seq) s = hubAct s (fun b => b.dropRun q seq) := rfl
theorem exec_nop (q seq : Nat) :
    exec (.nop q seq) s = hubAct s (fun b => b.nopRun q seq) := rfl
theorem exec_fence (q seq : Nat) :
    exec (.fence q seq) s = hubAct s (fun b => b.fenceRun q seq) := rfl
theorem exec_windowRead (off len : Nat) :
    exec (.windowRead off len) s = act s (fun b => b.windowRead off len) := rfl
theorem exec_windowWrite (off : Nat) (data : Bytes) :
    exec (.windowWrite off data) s = act s (fun b => b.windowWrite off data) := rfl
theorem exec_pcieAtomicop (bar : Nat) :
    exec (.pcieAtomicop bar) s = busAct .host (.pcieAtomicop bar) s := rfl
theorem exec_doorbell (path : Path) (q val : Nat) :
    exec (.doorbell path q val) s = busAct path (.doorbell path q val) s := rfl
theorem exec_ringFetchDone (q : Nat) (entries : List Bytes) (err : Bool) :
    exec (.ringFetchDone q entries err) s = hubAct s (fun b => b.fetchDone q entries err) := rfl
theorem exec_staleReread (q : Nat) (entry : Bytes) :
    exec (.staleReread q entry) s = hubAct s (fun b => b.reread q entry) := rfl
theorem exec_staleDoorbell (q : Nat) :
    exec (.staleDoorbell q) s = hubAct s (fun b => b.staleEnd q) := rfl
theorem exec_entryStart (q seq : Nat) :
    exec (.entryStart q seq) s = hubAct s (fun b => b.startEntry q seq) := rfl
theorem exec_entryComplete (q seq : Nat) :
    exec (.entryComplete q seq) s = hubAct s (fun b => b.entryDone q seq) := rfl
theorem exec_cqHeadWrite (q val : Nat) :
    exec (.cqHeadWrite q val) s = busAct .host (.cqHeadWrite q val) s := rfl
theorem exec_qpEnable (q : Nat) (on : Bool) :
    exec (.qpEnable q on) s = busAct .host (.qpEnable q on) s := rfl
theorem exec_qpReset (q : Nat) :
    exec (.qpReset q) s = busAct .host (.qpReset q) s := rfl
theorem exec_qpDropHeld (q : Nat) :
    exec (.qpDropHeld q) s = busAct .host (.qpDropHeld q) s := rfl
theorem exec_coalesceDelayExpiry (v : Nat) :
    exec (.coalesceDelayExpiry v) s = hubAct s (fun b => b.coalesced v) := rfl
theorem exec_reattach (val : Nat) :
    exec (.reattach val) s = busAct .host (.reattach val) s := rfl
theorem exec_linkSignalDetect (link : Nat) :
    exec (.linkSignalDetect link) s = hubAct s (fun b => b.signalDetect link) := rfl
theorem exec_linkTrainingDone (link : Nat) :
    exec (.linkTrainingDone link) s = hubAct s (fun b => b.trainingDone link) := rfl
theorem exec_linkBringupTimeout (link : Nat) :
    exec (.linkBringupTimeout link) s = hubAct s (fun b => b.bringupLate link) := rfl
theorem exec_linkRetryTimer (link : Nat) :
    exec (.linkRetryTimer link) s = hubAct s (fun b => b.retryTimer link) := rfl
theorem exec_ident (link : Nat) (msg : Bytes) :
    exec (.ident link msg) s = hubAct s (fun b => b.identIn link msg) := rfl
theorem exec_proof (link : Nat) (msg : Bytes) :
    exec (.proof link msg) s = hubAct s (fun b => b.proofIn link msg) := rfl
theorem exec_linkMismatchRetry (link : Nat) :
    exec (.linkMismatchRetry link) s = hubAct s (fun b => b.mismatchRetry link) := rfl
theorem exec_linkFecRateCheck (link bad total : Nat) :
    exec (.linkFecRateCheck link bad total) s = hubAct s (fun b => b.fecRate link bad total) := rfl
theorem exec_dataFlit (link : Nat) (raw : Bytes) (fecOk : Bool) :
    exec (.dataFlit link raw fecOk) s = hubAct s (fun b => b.dataFlit link raw fecOk) := rfl
theorem exec_nakFlit (link ack : Nat) :
    exec (.nakFlit link ack) s = hubAct s (fun b => b.nakFlit link ack) := rfl
theorem exec_flitAckTimeout (link : Nat) :
    exec (.flitAckTimeout link) s = hubAct s (fun b => b.ackLate link) := rfl
theorem exec_fecLockLoss (link : Nat) :
    exec (.fecLockLoss link) s = hubAct s (fun b => b.fecLost link) := rfl
theorem exec_fabRead (link : Nat) (p : Packet) :
    exec (.fabRead link p) s = hubAct s (fun b => b.typedIn link 0x01 p) := rfl
theorem exec_fabWrite (link : Nat) (p : Packet) :
    exec (.fabWrite link p) s = hubAct s (fun b => b.typedIn link 0x02 p) := rfl
theorem exec_fabAtomic (link : Nat) (p : Packet) :
    exec (.fabAtomic link p) s = hubAct s (fun b => b.typedIn link 0x03 p) := rfl
theorem exec_fabFence (link : Nat) (p : Packet) :
    exec (.fabFence link p) s = hubAct s (fun b => b.typedIn link 0x04 p) := rfl
theorem exec_fabDoorbell (link : Nat) (p : Packet) :
    exec (.fabDoorbell link p) s = hubAct s (fun b => b.typedIn link 0x05 p) := rfl
theorem exec_fwdEntry (link : Nat) (p : Packet) :
    exec (.fwdEntry link p) s = hubAct s (fun b => b.typedIn link 0x06 p) := rfl
theorem exec_linkState (link : Nat) (p : Packet) :
    exec (.linkState link p) s = hubAct s (fun b => b.packetIn link { p with typ := 0x10 }) := rfl
theorem exec_readRsp (link : Nat) (p : Packet) :
    exec (.readRsp link p) s = hubAct s (fun b => b.typedIn link 0x81 p) := rfl
theorem exec_writeAck (link : Nat) (p : Packet) :
    exec (.writeAck link p) s = hubAct s (fun b => b.typedIn link 0x82 p) := rfl
theorem exec_atomicRsp (link : Nat) (p : Packet) :
    exec (.atomicRsp link p) s = hubAct s (fun b => b.typedIn link 0x83 p) := rfl
theorem exec_fenceAck (link : Nat) (p : Packet) :
    exec (.fenceAck link p) s = hubAct s (fun b => b.typedIn link 0x84 p) := rfl
theorem exec_doorbellAck (link : Nat) (p : Packet) :
    exec (.doorbellAck link p) s = hubAct s (fun b => b.typedIn link 0x85 p) := rfl
theorem exec_fwdAck (link : Nat) (p : Packet) :
    exec (.fwdAck link p) s = hubAct s (fun b => b.typedIn link 0x86 p) := rfl
theorem exec_routeNak (link : Nat) (p : Packet) :
    exec (.routeNak link p) s = hubAct s (fun b => b.typedIn link 0x8F p) := rfl
theorem exec_packetTransit (link : Nat) (p : Packet) :
    exec (.packetTransit link p) s = hubAct s (fun b => if p.dst = b.struc.modNum || p.typ = 0x10 then b else b.packetIn link p) := rfl
theorem exec_remoteTimeout (txn : Nat) :
    exec (.remoteTimeout txn) s = hubAct s (fun b => b.remoteLate txn) := rfl
theorem exec_unreachableMarkExpiry (dst : Nat) :
    exec (.unreachableMarkExpiry dst) s = hubAct s (fun b => b.markEnd dst) := rfl
theorem exec_remotePut (q seq : Nat) :
    exec (.remotePut q seq) s = hubAct s (fun b => b.putRun q seq) := rfl
theorem exec_remoteGet (q seq : Nat) :
    exec (.remoteGet q seq) s = hubAct s (fun b => b.getRun q seq) := rfl
theorem exec_remoteAtomic (q seq : Nat) :
    exec (.remoteAtomic q seq) s = hubAct s (fun b => b.atomicRun q seq) := rfl
theorem exec_fabIsolate (path : Path) (val : Nat) :
    exec (.fabIsolate path val) s = busAct path (.fabIsolate path val) s := rfl
theorem exec_fabRetrain (path : Path) (val : Nat) :
    exec (.fabRetrain path val) s = busAct path (.fabRetrain path val) s := rfl
theorem exec_rdmaWrite (f : RFrame) :
    exec (.rdmaWrite f) s = hubAct s (fun b => b.rdmaIn 0 f) := rfl
theorem exec_rdmaRead (f : RFrame) :
    exec (.rdmaRead f) s = hubAct s (fun b => b.rdmaIn 1 f) := rfl
theorem exec_rdmaSend (f : RFrame) :
    exec (.rdmaSend f) s = hubAct s (fun b => b.rdmaIn 2 f) := rfl
theorem exec_roceAck (qpn psn : Nat) :
    exec (.roceAck qpn psn) s = hubAct s (fun b => b.roceAck qpn psn) := rfl
theorem exec_roceNak (qpn psn : Nat) :
    exec (.roceNak qpn psn) s = hubAct s (fun b => b.roceNak qpn psn) := rfl
theorem exec_rnrNak (qpn : Nat) :
    exec (.rnrNak qpn) s = hubAct s (fun b => b.rnrNak qpn) := rfl
theorem exec_roceRetryTimeout (qpn : Nat) :
    exec (.roceRetryTimeout qpn) s = hubAct s (fun b => b.retryLate qpn) := rfl
theorem exec_cnp (qpn : Nat) :
    exec (.cnp qpn) s = hubAct s (fun b => b.cnp qpn) := rfl
theorem exec_congestionRecovery (qpn : Nat) :
    exec (.congestionRecovery qpn) s = hubAct s (fun b => b.regain qpn) := rfl
theorem exec_pfcPause (port prio : Nat) (on : Bool) :
    exec (.pfcPause port prio on) s = hubAct s (fun b => b.pfc port prio on) := rfl
theorem exec_nonRoceFrame (port : Nat) :
    exec (.nonRoceFrame port) s = hubAct s (fun b => b.otherFrame port) := rfl
theorem exec_netPostWrite (q seq : Nat) :
    exec (.netPostWrite q seq) s = hubAct s (fun b => b.netPost q seq 0) := rfl
theorem exec_netPostRead (q seq : Nat) :
    exec (.netPostRead q seq) s = hubAct s (fun b => b.netPost q seq 1) := rfl
theorem exec_netPostSend (q seq : Nat) :
    exec (.netPostSend q seq) s = hubAct s (fun b => b.netPost q seq 2) := rfl
theorem exec_netPostRecv (q seq : Nat) :
    exec (.netPostRecv q seq) s = hubAct s (fun b => b.netPost q seq 3) := rfl
theorem exec_qpcLoad (path : Path) (val : Nat) :
    exec (.qpcLoad path val) s = busAct path (.qpcLoad path val) s := rfl
theorem exec_qpcReset (path : Path) (val : Nat) :
    exec (.qpcReset path val) s = busAct path (.qpcReset path val) s := rfl
theorem exec_qpcForceError (path : Path) (val : Nat) :
    exec (.qpcForceError path val) s = busAct path (.qpcForceError path val) s := rfl
theorem exec_powerHint (q seq : Nat) :
    exec (.powerHint q seq) s = act s (fun b => b.hintRun q seq) := rfl
theorem exec_powerHintWaitTimeout (q seq : Nat) :
    exec (.powerHintWaitTimeout q seq) s = act s (fun b => b.hintTimeout q seq) := rfl
theorem exec_dieIdleTimer (die : Nat) :
    exec (.dieIdleTimer die) s = act s (fun b => b.dieIdle die) := rfl
theorem exec_listenWindow (opens : Bool) :
    exec (.listenWindow opens) s = act s (fun b => b.listen opens) := rfl
theorem exec_linkWakeDetect (link : Nat) :
    exec (.linkWakeDetect link) s = act s (fun b => b.linkWake link) := rfl
theorem exec_wakeInNLow (low : Bool) :
    exec (.wakeInNLow low) s = act s (fun b => (b.wakeIn low).releaseHeld) := rfl
theorem exec_wakeStepReady (elapsed : Nat) (ident : Bool) :
    exec (.wakeStepReady elapsed ident) s = act s (fun b => (b.wakeReady elapsed ident).releaseHeld) := rfl
theorem exec_wakeStepTimeout (index cause : Nat) :
    exec (.wakeStepTimeout index cause) s = act s (fun b => b.wakeFail index cause) := rfl
theorem exec_pwrCmdHold (path : Path) :
    exec (.pwrCmdHold path) s = busAct path (.pwrCmdHold path) s := rfl
theorem exec_pwrCmdOff (path : Path) :
    exec (.pwrCmdOff path) s = busAct path (.pwrCmdOff path) s := rfl
theorem exec_pwrCmdWake (path : Path) :
    exec (.pwrCmdWake path) s = busAct path (.pwrCmdWake path) s := rfl
theorem exec_clearStuck (path : Path) :
    exec (.clearStuck path) s = busAct path (.clearStuck path) s := rfl
theorem exec_powerCycle (path : Path) :
    exec (.powerCycle path) s = busAct path (.powerCycle path) s := rfl
theorem exec_pwrPadrel (path : Path) (val : Nat) :
    exec (.pwrPadrel path val) s = busAct path (.pwrPadrel path val) s := rfl
theorem exec_pwrLinkwake (path : Path) (val : Nat) :
    exec (.pwrLinkwake path val) s = busAct path (.pwrLinkwake path val) s := rfl
theorem exec_linkwakePatternEnd (link : Nat) :
    exec (.linkwakePatternEnd link) s = hubAct s (fun b => b.patternEnd link) := rfl
theorem exec_pmbusTransactionDone (ok : Bool) :
    exec (.pmbusTransactionDone ok) s = act s (fun b => b.pmbusDone ok) := rfl
theorem exec_avsAckTimeout (mv : Nat) :
    exec (.avsAckTimeout mv) s = act s (fun b => b.avsLate mv) := rfl
theorem exec_pwrEnAssert (slot : Nat) :
    exec (.pwrEnAssert slot) s = act s (fun b => b.enHigh slot) := rfl
theorem exec_railPowerGoodLost (rail : Nat) :
    exec (.railPowerGoodLost rail) s = act s (fun b => b.railLost rail) := rfl
theorem exec_sensorUpdate (temps : List (Option Int)) (mv watts : Nat) (telem : Bool) (secs : Nat) (nvOk : Bool) :
    exec (.sensorUpdate temps mv watts telem secs nvOk) s = act s (fun b => b.sensorUpdate temps mv watts telem secs nvOk) := rfl
theorem exec_regulatorRead (temps : List (Option Int)) :
    exec (.regulatorRead temps) s = act s (fun b => b.regRead temps) := rfl
theorem exec_inputCurrentCheck (ma mv : Nat) :
    exec (.inputCurrentCheck ma mv) s = act s (fun b => b.currentCheck ma mv) := rfl
theorem exec_holddownEnd (secs : Nat) :
    exec (.holddownEnd secs) s = act s (fun b => b.holdEnd secs) := rfl
theorem exec_thermNExternal (low : Bool) :
    exec (.thermNExternal low) s = act s (fun b => b.thermExt low) := rfl
theorem exec_capsuleLoad (path : Path) (val : Nat) (late : Bool) :
    exec (.capsuleLoad path val late) s = busAct path (.capsuleLoad path val late) s := rfl
theorem exec_capsulePersistDone (ok : Bool) :
    exec (.capsulePersistDone ok) s = act s (fun b => b.capPersist ok) := rfl
theorem exec_leaseAcquire (holder n : Nat) :
    exec (.leaseAcquire holder n) s = busAct (holderPath holder) (.leaseAcquire holder n) s := rfl
theorem exec_leaseRenew (holder n : Nat) :
    exec (.leaseRenew holder n) s = busAct (holderPath holder) (.leaseRenew holder n) s := rfl
theorem exec_leaseRelease (holder n : Nat) :
    exec (.leaseRelease holder n) s = busAct (holderPath holder) (.leaseRelease holder n) s := rfl
theorem exec_leaseExpiry (n u : Nat) :
    exec (.leaseExpiry n u) s = act s (fun b => b.leaseExpiry n u) := rfl
theorem exec_watchdogExpiry (core : Nat) :
    exec (.watchdogExpiry core) s = act s (fun b => b.clusterRestart core) := rfl
theorem exec_coreParityError (core : Nat) :
    exec (.coreParityError core) s = act s (fun b => b.clusterRestart core) := rfl
theorem exec_elTailWrite (path : Path) (val : Nat) :
    exec (.elTailWrite path val) s = busAct path (.elTailWrite path val) s := rfl
theorem exec_startupStepDone (ok : Bool) (run : StepRun) :
    exec (.startupStepDone ok run) s = act s (fun b => (b.startupStep ok run.ms run.bad).releaseHeld) := rfl
theorem exec_modeRequest (path : Path) (val : Nat) :
    exec (.modeRequest path val) s = busAct path (.modeRequest path val) s := rfl
theorem exec_idObjFirmware (path : Path) :
    exec (.idObjFirmware path) s = busAct path (.idObjFirmware path) s := rfl
theorem exec_idObjEnrol (path : Path) :
    exec (.idObjEnrol path) s = busAct path (.idObjEnrol path) s := rfl
theorem exec_idObjReport (path : Path) :
    exec (.idObjReport path) s = busAct path (.idObjReport path) s := rfl
theorem exec_idObjCert (path : Path) :
    exec (.idObjCert path) s = busAct path (.idObjCert path) s := rfl
theorem exec_readReg (block off count : Nat) :
    exec (.readReg block off count) s = sideAct s (fun b => b.readRegs block off count) := rfl
theorem exec_writeReg (block off val : Nat) :
    exec (.writeReg block off val) s = sideAct s (fun b => b.writeReg block off val) := rfl
theorem exec_getReport (nonce : Bytes) :
    exec (.getReport nonce) s = sideAct s (fun b => b.resp (leBytes 1 0 ++ b.report4032 nonce)) := rfl
theorem exec_loadObject (kind off : Nat) (data : Bytes) (last : Bool) :
    exec (.loadObject kind off data last) s = act s (fun b => if b.pwr.state = .unpowered then b else b.loadObject kind off data last) := rfl
theorem exec_setMode (m : Nat) :
    exec (.setMode m) s = sideAct s (fun b => b.setModeCmd m) := rfl
theorem exec_hostWake (read : HostRead) :
    exec (.hostWake read) s = busAct .host (.hostWake read) s := rfl
theorem exec_rdmaReadResponse (qpn : Nat) (data : Bytes) :
    exec (.rdmaReadResponse qpn data) s = hubAct s (fun b => b.readReturn qpn data) := rfl
theorem exec_netLinkChange (port : Nat) (up : Bool) :
    exec (.netLinkChange port up) s = hubAct s (fun b => b.netLink port up) := rfl
theorem exec_idleFlit (link ack cvc ccount : Nat) :
    exec (.idleFlit link ack cvc ccount) s = hubAct s (fun b => b.idleFlit link ack (cvc % 4) ccount) := rfl
theorem exec_layCopyDone :
    exec .layCopyDone s = hubAct s (fun b => b.layCopied) := rfl
theorem exec_layVerifyDone :
    exec .layVerifyDone s = hubAct s (fun b => b.layVerified) := rfl
theorem exec_layDrainTimeout :
    exec .layDrainTimeout s = hubAct s (fun b => b.layTimeout) := rfl
theorem exec_layDrainDone :
    exec .layDrainDone s = hubAct s (fun b => b.layDrained) := rfl
theorem exec_layApplyDone :
    exec .layApplyDone s = hubAct s (fun b => ((b.layDone).releaseHeld).layRelink) := rfl
theorem exec_trnRunTimeout :
    exec .trnRunTimeout s = hubAct s (fun b => b.trnTimeout) := rfl
theorem exec_vadd :
    exec .vadd s = hubAct s (fun b => b.veStep 0x01) := rfl
theorem exec_vsub :
    exec .vsub s = hubAct s (fun b => b.veStep 0x02) := rfl
theorem exec_vmul :
    exec .vmul s = hubAct s (fun b => b.veStep 0x03) := rfl
theorem exec_vfma :
    exec .vfma s = hubAct s (fun b => b.veStep 0x04) := rfl
theorem exec_vmin :
    exec .vmin s = hubAct s (fun b => b.veStep 0x05) := rfl
theorem exec_vmax :
    exec .vmax s = hubAct s (fun b => b.veStep 0x06) := rfl
theorem exec_vabs :
    exec .vabs s = hubAct s (fun b => b.veStep 0x07) := rfl
theorem exec_vneg :
    exec .vneg s = hubAct s (fun b => b.veStep 0x08) := rfl
theorem exec_vlogic :
    exec .vlogic s = hubAct s (fun b => b.veStep 0x09) := rfl
theorem exec_vcmp :
    exec .vcmp s = hubAct s (fun b => b.veStep 0x0A) := rfl
theorem exec_vsel :
    exec .vsel s = hubAct s (fun b => b.veStep 0x0B) := rfl
theorem exec_vmov :
    exec .vmov s = hubAct s (fun b => b.veStep 0x0C) := rfl
theorem exec_vsplat :
    exec .vsplat s = hubAct s (fun b => b.veStep 0x0D) := rfl
theorem exec_viota :
    exec .viota s = hubAct s (fun b => b.veStep 0x0E) := rfl
theorem exec_vperm :
    exec .vperm s = hubAct s (fun b => b.veStep 0x10) := rfl
theorem exec_vcompress :
    exec .vcompress s = hubAct s (fun b => b.veStep 0x11) := rfl
theorem exec_vexpand :
    exec .vexpand s = hubAct s (fun b => b.veStep 0x12) := rfl
theorem exec_ld :
    exec .ld s = hubAct s (fun b => b.veStep 0x18) := rfl
theorem exec_st :
    exec .st s = hubAct s (fun b => b.veStep 0x19) := rfl
theorem exec_ldk :
    exec .ldk s = hubAct s (fun b => b.veStep 0x1A) := rfl
theorem exec_scmp :
    exec .scmp s = hubAct s (fun b => b.veStep 0x1B) := rfl
theorem exec_ldx :
    exec .ldx s = hubAct s (fun b => b.veStep 0x1C) := rfl
theorem exec_lds :
    exec .lds s = hubAct s (fun b => b.veStep 0x1D) := rfl
theorem exec_sts :
    exec .sts s = hubAct s (fun b => b.veStep 0x1E) := rfl
theorem exec_red :
    exec .red s = hubAct s (fun b => b.veStep 0x20) := rfl
theorem exec_rget :
    exec .rget s = hubAct s (fun b => b.veStep 0x21) := rfl
theorem exec_xset :
    exec .xset s = hubAct s (fun b => b.veStep 0x28) := rfl
theorem exec_xalu :
    exec .xalu s = hubAct s (fun b => b.veStep 0x29) := rfl
theorem exec_kop :
    exec .kop s = hubAct s (fun b => b.veStep 0x2A) := rfl
theorem exec_vfn :
    exec .vfn s = hubAct s (fun b => b.veStep 0x30) := rfl
theorem exec_attach :
    exec .attach s = busAct .host .attach s := rfl
theorem exec_detach :
    exec .detach s = busAct .host .detach s := rfl
theorem exec_heartbeat :
    exec .heartbeat s = busAct .host .heartbeat s := rfl
theorem exec_heartbeatTimeout :
    exec .heartbeatTimeout s = act s (fun b => b.heartbeatLost) := rfl
theorem exec_orphanExpiry :
    exec .orphanExpiry s = act s (fun b => b.orphanEnd) := rfl
theorem exec_perstNAssert :
    exec .perstNAssert s = act s (fun b => b.perstAssert) := rfl
theorem exec_perstNDeassert :
    exec .perstNDeassert s = act s (fun b => b.perstRelease) := rfl
theorem exec_pcieLinkDown :
    exec .pcieLinkDown s = act s (fun b => b.linkLost) := rfl
theorem exec_pcieLinkDown1ms :
    exec .pcieLinkDown1ms s = act s (fun b => b.linkGone) := rfl
theorem exec_functionLevelReset :
    exec .functionLevelReset s = act s (fun b => if b.att.ready then b.attEnd 5 else b) := rfl
theorem exec_keepExpiry :
    exec .keepExpiry s = act s (fun b => b.keepExpiry) := rfl
theorem exec_runDozeTimer :
    exec .runDozeTimer s = act s (fun b => b.runDoze) := rfl
theorem exec_dozeWatchTimer :
    exec .dozeWatchTimer s = act s (fun b => b.dozeWatch) := rfl
theorem exec_quiesceTimeout :
    exec .quiesceTimeout s = act s (fun b => b.quiesceTimeout) := rfl
theorem exec_entryStepDone :
    exec .entryStepDone s = act s (fun b => (b.entryStep).releaseHeld) := rfl
theorem exec_alarmExpiry :
    exec .alarmExpiry s = act s (fun b => b.alarm) := rfl
theorem exec_wakeRetryDelay :
    exec .wakeRetryDelay s = act s (fun b => b.wakeRetry) := rfl
theorem exec_pwrEnDeassert :
    exec .pwrEnDeassert s = act s (fun b => b.enLow) := rfl
theorem exec_inputPowerApplied :
    exec .inputPowerApplied s = act s (fun b => b.inputOn) := rfl
theorem exec_clusterReadyTimeout :
    exec .clusterReadyTimeout s = act s (fun b => b.clusterLate) := rfl
theorem exec_getCert :
    exec .getCert s = sideAct s (fun b => b.resp (leBytes 1 0 ++ certificate)) := rfl
theorem exec_getStatus :
    exec .getStatus s = sideAct s (fun b => b.getStatus) := rfl
theorem exec_mctpResponseTimeout :
    exec .mctpResponseTimeout s = act s (fun b => b.respLost) := rfl
theorem exec_inputUndervoltage :
    exec .inputUndervoltage s = act s (fun b => b.inputBad) := rfl
theorem exec_inputOvervoltage :
    exec .inputOvervoltage s = act s (fun b => b.inputBad) := rfl
theorem exec_inputRestored :
    exec .inputRestored s = act s (fun b => b.inputGood) := rfl
theorem exec_holdupExhausted :
    exec .holdupExhausted s = act s (fun b => b.holdupOut) := rfl
theorem exec_clusterRestartReady :
    exec .clusterRestartReady s = act s (fun b => b.clusterReady) := rfl
theorem exec_avsAcknowledged :
    exec .avsAcknowledged s = act s (fun b => b.avsOk) := rfl
theorem exec_wakeOutNRelease :
    exec .wakeOutNRelease s = act s (fun b => { b with pins := { b.pins with wakeOutN := true } }) := rfl

end Sys2Proof.Machine
end

