-- ==== Sys2Proof/Laws/Tbl.lean ====
section
/-! SUPPORT. The laws of the sparse table: what a replaced member reads as, and what the others read as. -/

namespace Sys2Proof

variable {α : Type} (d v : α)

/-- Reading any member after replacing one. -/
theorem tget_tset (k j : Nat) (t : Tbl α) : tget d j (tset k v t) = if j = k then v else tget d j t := by
  fun_induction tset k v t <;> simp only [tget, *] <;> (repeat' split) <;> first | rfl | omega

/-- Reading any member after one went back to its reset value. -/
theorem tget_tdel (k j : Nat) (t : Tbl α) : tget d j (tdel k t) = if j = k then d else tget d j t := by
  induction t with grind [tget, tdel]

@[simp] theorem tget_tset_same (k : Nat) (t : Tbl α) : tget d k (tset k v t) = v := by simp [tget_tset]

theorem tget_tset_other {k j : Nat} (h : j ≠ k) (t : Tbl α) : tget d j (tset k v t) = tget d j t := by
  simp [tget_tset, h]

theorem tget_tdel_same (k : Nat) (t : Tbl α) : tget d k (tdel k t) = d := by simp [tget_tdel]

theorem tget_tdel_other {k j : Nat} (h : j ≠ k) (t : Tbl α) : tget d j (tdel k t) = tget d j t := by
  simp [tget_tdel, h]

end Sys2Proof
end

