-- ==== Sys2Proof/Laws/State.lean ====
section
/-! SUPPORT. What each update of the block leaves as it was, field by field, and what it leaves where
it writes. -/

namespace Sys2Proof.Machine
open Sys2Proof

section
variable (b : Blk) (o v k j q st fl r off q2 k2 : Nat) (m : Msg) (a : LogArg) (p : PState) (cb : CBlk) (rq : HeldReq) (mem : Memory) (g : Flight → Flight) (x : ChanSt) (xp : PairSt) (xd : DieSt) (xq : QpSt) (xw : PwrSt) (xs : SdgSt) (xh : HubSt) (xu : UnitSt) (xj : List Job) (xt : List TreeCtx) (xl : LinkSt) (xc : CommitSt) (xg : Seg) (xn : QpcSt)

/-! `regs` -/

@[simp] theorem Blk.send_regs : (b.send m).regs = b.regs := rfl
@[simp] theorem Blk.setChan_regs : (b.setChan k x).regs = b.regs := rfl
@[simp] theorem Blk.setPair_regs : (b.setPair k j xp).regs = b.regs := rfl
@[simp] theorem Blk.setDie_regs : (b.setDie k xd).regs = b.regs := rfl
@[simp] theorem Blk.setQp_regs : (b.setQp k xq).regs = b.regs := rfl
@[simp] theorem Blk.setPwr_regs : (b.setPwr xw).regs = b.regs := rfl
@[simp] theorem Blk.setSdg_regs : (b.setSdg xs).regs = b.regs := rfl
@[simp] theorem Blk.setHub_regs : (b.setHub xh).regs = b.regs := rfl
@[simp] theorem Blk.setUnit_regs : (b.setUnit k xu).regs = b.regs := rfl
@[simp] theorem Blk.setJobs_regs : (b.setJobs xj).regs = b.regs := rfl
@[simp] theorem Blk.setTrees_regs : (b.setTrees xt).regs = b.regs := rfl
@[simp] theorem Blk.setLink_regs : (b.setLink k xl).regs = b.regs := rfl
@[simp] theorem Blk.setCommit_regs : (b.setCommit cb xc).regs = b.regs := rfl
@[simp] theorem Blk.setSeg_regs : (b.setSeg k xg).regs = b.regs := rfl
@[simp] theorem Blk.setQpc_regs : (b.setQpc k xn).regs = b.regs := rfl
@[simp] theorem Blk.updFlight_regs : (b.updFlight q k g).regs = b.regs := rfl
@[simp] theorem Blk.finish_regs : (b.finish q k st fl r).regs = b.regs := rfl
@[simp] theorem Blk.noteScope_regs : (b.noteScope q k v).regs = b.regs := rfl
@[simp] theorem Blk.hold_regs : (b.hold rq).regs = b.regs := rfl
@[simp] theorem Blk.setCells_regs : (b.setCells mem).regs = b.regs := rfl
@[simp] theorem Blk.logE_regs : (b.logE k a).regs = b.regs := by unfold Blk.logE; split <;> rfl
@[simp] theorem Blk.send_reg : (b.send m).reg off = b.reg off := rfl
@[simp] theorem Blk.setChan_reg : (b.setChan k x).reg off = b.reg off := rfl
@[simp] theorem Blk.setPair_reg : (b.setPair k j xp).reg off = b.reg off := rfl
@[simp] theorem Blk.setDie_reg : (b.setDie k xd).reg off = b.reg off := rfl
@[simp] theorem Blk.setQp_reg : (b.setQp k xq).reg off = b.reg off := rfl
@[simp] theorem Blk.setPwr_reg : (b.setPwr xw).reg off = b.reg off := rfl
@[simp] theorem Blk.setSdg_reg : (b.setSdg xs).reg off = b.reg off := rfl
@[simp] theorem Blk.setHub_reg : (b.setHub xh).reg off = b.reg off := rfl
@[simp] theorem Blk.setUnit_reg : (b.setUnit k xu).reg off = b.reg off := rfl
@[simp] theorem Blk.setJobs_reg : (b.setJobs xj).reg off = b.reg off := rfl
@[simp] theorem Blk.setTrees_reg : (b.setTrees xt).reg off = b.reg off := rfl
@[simp] theorem Blk.setLink_reg : (b.setLink k xl).reg off = b.reg off := rfl
@[simp] theorem Blk.setCommit_reg : (b.setCommit cb xc).reg off = b.reg off := rfl
@[simp] theorem Blk.setSeg_reg : (b.setSeg k xg).reg off = b.reg off := rfl
@[simp] theorem Blk.setQpc_reg : (b.setQpc k xn).reg off = b.reg off := rfl
@[simp] theorem Blk.updFlight_reg : (b.updFlight q k g).reg off = b.reg off := rfl
@[simp] theorem Blk.finish_reg : (b.finish q k st fl r).reg off = b.reg off := rfl
@[simp] theorem Blk.noteScope_reg : (b.noteScope q k v).reg off = b.reg off := rfl
@[simp] theorem Blk.hold_reg : (b.hold rq).reg off = b.reg off := rfl
@[simp] theorem Blk.setCells_reg : (b.setCells mem).reg off = b.reg off := rfl
@[simp] theorem Blk.logE_reg : (b.logE k a).reg off = b.reg off := by unfold Blk.logE; split <;> rfl
@[simp] theorem Blk.send_eff : (b.send m).eff off = b.eff off := rfl
@[simp] theorem Blk.setChan_eff : (b.setChan k x).eff off = b.eff off := rfl
@[simp] theorem Blk.setPair_eff : (b.setPair k j xp).eff off = b.eff off := rfl
@[simp] theorem Blk.setDie_eff : (b.setDie k xd).eff off = b.eff off := rfl
@[simp] theorem Blk.setQp_eff : (b.setQp k xq).eff off = b.eff off := rfl
@[simp] theorem Blk.setPwr_eff : (b.setPwr xw).eff off = b.eff off := rfl
@[simp] theorem Blk.setSdg_eff : (b.setSdg xs).eff off = b.eff off := rfl
@[simp] theorem Blk.setHub_eff : (b.setHub xh).eff off = b.eff off := rfl
@[simp] theorem Blk.setUnit_eff : (b.setUnit k xu).eff off = b.eff off := rfl
@[simp] theorem Blk.setJobs_eff : (b.setJobs xj).eff off = b.eff off := rfl
@[simp] theorem Blk.setTrees_eff : (b.setTrees xt).eff off = b.eff off := rfl
@[simp] theorem Blk.setLink_eff : (b.setLink k xl).eff off = b.eff off := rfl
@[simp] theorem Blk.setCommit_eff : (b.setCommit cb xc).eff off = b.eff off := rfl
@[simp] theorem Blk.setSeg_eff : (b.setSeg k xg).eff off = b.eff off := rfl
@[simp] theorem Blk.setQpc_eff : (b.setQpc k xn).eff off = b.eff off := rfl
@[simp] theorem Blk.updFlight_eff : (b.updFlight q k g).eff off = b.eff off := rfl
@[simp] theorem Blk.finish_eff : (b.finish q k st fl r).eff off = b.eff off := rfl
@[simp] theorem Blk.noteScope_eff : (b.noteScope q k v).eff off = b.eff off := rfl
@[simp] theorem Blk.hold_eff : (b.hold rq).eff off = b.eff off := rfl
@[simp] theorem Blk.setCells_eff : (b.setCells mem).eff off = b.eff off := rfl
@[simp] theorem Blk.logE_eff : (b.logE k a).eff off = b.eff off := by unfold Blk.logE; split <;> rfl
@[simp] theorem Blk.send_reg64 : (b.send m).reg64 off = b.reg64 off := rfl
@[simp] theorem Blk.setChan_reg64 : (b.setChan k x).reg64 off = b.reg64 off := rfl
@[simp] theorem Blk.setPair_reg64 : (b.setPair k j xp).reg64 off = b.reg64 off := rfl
@[simp] theorem Blk.setDie_reg64 : (b.setDie k xd).reg64 off = b.reg64 off := rfl
@[simp] theorem Blk.setQp_reg64 : (b.setQp k xq).reg64 off = b.reg64 off := rfl
@[simp] theorem Blk.setPwr_reg64 : (b.setPwr xw).reg64 off = b.reg64 off := rfl
@[simp] theorem Blk.setSdg_reg64 : (b.setSdg xs).reg64 off = b.reg64 off := rfl
@[simp] theorem Blk.setHub_reg64 : (b.setHub xh).reg64 off = b.reg64 off := rfl
@[simp] theorem Blk.setUnit_reg64 : (b.setUnit k xu).reg64 off = b.reg64 off := rfl
@[simp] theorem Blk.setJobs_reg64 : (b.setJobs xj).reg64 off = b.reg64 off := rfl
@[simp] theorem Blk.setTrees_reg64 : (b.setTrees xt).reg64 off = b.reg64 off := rfl
@[simp] theorem Blk.setLink_reg64 : (b.setLink k xl).reg64 off = b.reg64 off := rfl
@[simp] theorem Blk.setCommit_reg64 : (b.setCommit cb xc).reg64 off = b.reg64 off := rfl
@[simp] theorem Blk.setSeg_reg64 : (b.setSeg k xg).reg64 off = b.reg64 off := rfl
@[simp] theorem Blk.setQpc_reg64 : (b.setQpc k xn).reg64 off = b.reg64 off := rfl
@[simp] theorem Blk.updFlight_reg64 : (b.updFlight q k g).reg64 off = b.reg64 off := rfl
@[simp] theorem Blk.finish_reg64 : (b.finish q k st fl r).reg64 off = b.reg64 off := rfl
@[simp] theorem Blk.noteScope_reg64 : (b.noteScope q k v).reg64 off = b.reg64 off := rfl
@[simp] theorem Blk.hold_reg64 : (b.hold rq).reg64 off = b.reg64 off := rfl
@[simp] theorem Blk.setCells_reg64 : (b.setCells mem).reg64 off = b.reg64 off := rfl
@[simp] theorem Blk.logE_reg64 : (b.logE k a).reg64 off = b.reg64 off := by unfold Blk.logE; split <;> rfl
@[simp] theorem Blk.send_eff64 : (b.send m).eff64 off = b.eff64 off := rfl
@[simp] theorem Blk.setChan_eff64 : (b.setChan k x).eff64 off = b.eff64 off := rfl
@[simp] theorem Blk.setPair_eff64 : (b.setPair k j xp).eff64 off = b.eff64 off := rfl
@[simp] theorem Blk.setDie_eff64 : (b.setDie k xd).eff64 off = b.eff64 off := rfl
@[simp] theorem Blk.setQp_eff64 : (b.setQp k xq).eff64 off = b.eff64 off := rfl
@[simp] theorem Blk.setPwr_eff64 : (b.setPwr xw).eff64 off = b.eff64 off := rfl
@[simp] theorem Blk.setSdg_eff64 : (b.setSdg xs).eff64 off = b.eff64 off := rfl
@[simp] theorem Blk.setHub_eff64 : (b.setHub xh).eff64 off = b.eff64 off := rfl
@[simp] theorem Blk.setUnit_eff64 : (b.setUnit k xu).eff64 off = b.eff64 off := rfl
@[simp] theorem Blk.setJobs_eff64 : (b.setJobs xj).eff64 off = b.eff64 off := rfl
@[simp] theorem Blk.setTrees_eff64 : (b.setTrees xt).eff64 off = b.eff64 off := rfl
@[simp] theorem Blk.setLink_eff64 : (b.setLink k xl).eff64 off = b.eff64 off := rfl
@[simp] theorem Blk.setCommit_eff64 : (b.setCommit cb xc).eff64 off = b.eff64 off := rfl
@[simp] theorem Blk.setSeg_eff64 : (b.setSeg k xg).eff64 off = b.eff64 off := rfl
@[simp] theorem Blk.setQpc_eff64 : (b.setQpc k xn).eff64 off = b.eff64 off := rfl
@[simp] theorem Blk.updFlight_eff64 : (b.updFlight q k g).eff64 off = b.eff64 off := rfl
@[simp] theorem Blk.finish_eff64 : (b.finish q k st fl r).eff64 off = b.eff64 off := rfl
@[simp] theorem Blk.noteScope_eff64 : (b.noteScope q k v).eff64 off = b.eff64 off := rfl
@[simp] theorem Blk.hold_eff64 : (b.hold rq).eff64 off = b.eff64 off := rfl
@[simp] theorem Blk.setCells_eff64 : (b.setCells mem).eff64 off = b.eff64 off := rfl
@[simp] theorem Blk.logE_eff64 : (b.logE k a).eff64 off = b.eff64 off := by unfold Blk.logE; split <;> rfl

/-! `time` -/

@[simp] theorem Blk.setReg_time : (b.setReg o v).time = b.time := rfl
@[simp] theorem Blk.orReg_time : (b.orReg o v).time = b.time := rfl
@[simp] theorem Blk.clrReg_time : (b.clrReg o v).time = b.time := rfl
@[simp] theorem Blk.putReg_time : (b.putReg o k v).time = b.time := rfl
@[simp] theorem Blk.incReg_time : (b.incReg o).time = b.time := rfl
@[simp] theorem Blk.send_time : (b.send m).time = b.time := rfl
@[simp] theorem Blk.setChan_time : (b.setChan k x).time = b.time := rfl
@[simp] theorem Blk.setPair_time : (b.setPair k j xp).time = b.time := rfl
@[simp] theorem Blk.setDie_time : (b.setDie k xd).time = b.time := rfl
@[simp] theorem Blk.setQp_time : (b.setQp k xq).time = b.time := rfl
@[simp] theorem Blk.setPwr_time : (b.setPwr xw).time = b.time := rfl
@[simp] theorem Blk.setSdg_time : (b.setSdg xs).time = b.time := rfl
@[simp] theorem Blk.setHub_time : (b.setHub xh).time = b.time := rfl
@[simp] theorem Blk.setUnit_time : (b.setUnit k xu).time = b.time := rfl
@[simp] theorem Blk.setJobs_time : (b.setJobs xj).time = b.time := rfl
@[simp] theorem Blk.setTrees_time : (b.setTrees xt).time = b.time := rfl
@[simp] theorem Blk.setLink_time : (b.setLink k xl).time = b.time := rfl
@[simp] theorem Blk.setCommit_time : (b.setCommit cb xc).time = b.time := rfl
@[simp] theorem Blk.setSeg_time : (b.setSeg k xg).time = b.time := rfl
@[simp] theorem Blk.setQpc_time : (b.setQpc k xn).time = b.time := rfl
@[simp] theorem Blk.updFlight_time : (b.updFlight q k g).time = b.time := rfl
@[simp] theorem Blk.finish_time : (b.finish q k st fl r).time = b.time := rfl
@[simp] theorem Blk.noteScope_time : (b.noteScope q k v).time = b.time := rfl
@[simp] theorem Blk.hold_time : (b.hold rq).time = b.time := rfl
@[simp] theorem Blk.setCells_time : (b.setCells mem).time = b.time := rfl
@[simp] theorem Blk.goState_time : (b.goState p).time = b.time := rfl
@[simp] theorem Blk.logE_time : (b.logE k a).time = b.time := by unfold Blk.logE; split <;> rfl

/-! `commits` -/

@[simp] theorem Blk.setReg_commits : (b.setReg o v).commits = b.commits := rfl
@[simp] theorem Blk.orReg_commits : (b.orReg o v).commits = b.commits := rfl
@[simp] theorem Blk.clrReg_commits : (b.clrReg o v).commits = b.commits := rfl
@[simp] theorem Blk.putReg_commits : (b.putReg o k v).commits = b.commits := rfl
@[simp] theorem Blk.incReg_commits : (b.incReg o).commits = b.commits := rfl
@[simp] theorem Blk.send_commits : (b.send m).commits = b.commits := rfl
@[simp] theorem Blk.setChan_commits : (b.setChan k x).commits = b.commits := rfl
@[simp] theorem Blk.setPair_commits : (b.setPair k j xp).commits = b.commits := rfl
@[simp] theorem Blk.setDie_commits : (b.setDie k xd).commits = b.commits := rfl
@[simp] theorem Blk.setQp_commits : (b.setQp k xq).commits = b.commits := rfl
@[simp] theorem Blk.setPwr_commits : (b.setPwr xw).commits = b.commits := rfl
@[simp] theorem Blk.setSdg_commits : (b.setSdg xs).commits = b.commits := rfl
@[simp] theorem Blk.setHub_commits : (b.setHub xh).commits = b.commits := rfl
@[simp] theorem Blk.setUnit_commits : (b.setUnit k xu).commits = b.commits := rfl
@[simp] theorem Blk.setJobs_commits : (b.setJobs xj).commits = b.commits := rfl
@[simp] theorem Blk.setTrees_commits : (b.setTrees xt).commits = b.commits := rfl
@[simp] theorem Blk.setLink_commits : (b.setLink k xl).commits = b.commits := rfl
@[simp] theorem Blk.setSeg_commits : (b.setSeg k xg).commits = b.commits := rfl
@[simp] theorem Blk.setQpc_commits : (b.setQpc k xn).commits = b.commits := rfl
@[simp] theorem Blk.updFlight_commits : (b.updFlight q k g).commits = b.commits := rfl
@[simp] theorem Blk.finish_commits : (b.finish q k st fl r).commits = b.commits := rfl
@[simp] theorem Blk.noteScope_commits : (b.noteScope q k v).commits = b.commits := rfl
@[simp] theorem Blk.hold_commits : (b.hold rq).commits = b.commits := rfl
@[simp] theorem Blk.setCells_commits : (b.setCells mem).commits = b.commits := rfl
@[simp] theorem Blk.goState_commits : (b.goState p).commits = b.commits := rfl
@[simp] theorem Blk.logE_commits : (b.logE k a).commits = b.commits := by unfold Blk.logE; split <;> rfl

/-! `log` -/

@[simp] theorem Blk.setReg_log : (b.setReg o v).log = b.log := rfl
@[simp] theorem Blk.orReg_log : (b.orReg o v).log = b.log := rfl
@[simp] theorem Blk.clrReg_log : (b.clrReg o v).log = b.log := rfl
@[simp] theorem Blk.putReg_log : (b.putReg o k v).log = b.log := rfl
@[simp] theorem Blk.incReg_log : (b.incReg o).log = b.log := rfl
@[simp] theorem Blk.send_log : (b.send m).log = b.log := rfl
@[simp] theorem Blk.setChan_log : (b.setChan k x).log = b.log := rfl
@[simp] theorem Blk.setPair_log : (b.setPair k j xp).log = b.log := rfl
@[simp] theorem Blk.setDie_log : (b.setDie k xd).log = b.log := rfl
@[simp] theorem Blk.setQp_log : (b.setQp k xq).log = b.log := rfl
@[simp] theorem Blk.setPwr_log : (b.setPwr xw).log = b.log := rfl
@[simp] theorem Blk.setSdg_log : (b.setSdg xs).log = b.log := rfl
@[simp] theorem Blk.setHub_log : (b.setHub xh).log = b.log := rfl
@[simp] theorem Blk.setUnit_log : (b.setUnit k xu).log = b.log := rfl
@[simp] theorem Blk.setJobs_log : (b.setJobs xj).log = b.log := rfl
@[simp] theorem Blk.setTrees_log : (b.setTrees xt).log = b.log := rfl
@[simp] theorem Blk.setLink_log : (b.setLink k xl).log = b.log := rfl
@[simp] theorem Blk.setCommit_log : (b.setCommit cb xc).log = b.log := rfl
@[simp] theorem Blk.setSeg_log : (b.setSeg k xg).log = b.log := rfl
@[simp] theorem Blk.setQpc_log : (b.setQpc k xn).log = b.log := rfl
@[simp] theorem Blk.updFlight_log : (b.updFlight q k g).log = b.log := rfl
@[simp] theorem Blk.finish_log : (b.finish q k st fl r).log = b.log := rfl
@[simp] theorem Blk.noteScope_log : (b.noteScope q k v).log = b.log := rfl
@[simp] theorem Blk.hold_log : (b.hold rq).log = b.log := rfl
@[simp] theorem Blk.setCells_log : (b.setCells mem).log = b.log := rfl
@[simp] theorem Blk.goState_log : (b.goState p).log = b.log := rfl

/-! `ev` -/

@[simp] theorem Blk.setReg_ev : (b.setReg o v).ev = b.ev := rfl
@[simp] theorem Blk.orReg_ev : (b.orReg o v).ev = b.ev := rfl
@[simp] theorem Blk.clrReg_ev : (b.clrReg o v).ev = b.ev := rfl
@[simp] theorem Blk.putReg_ev : (b.putReg o k v).ev = b.ev := rfl
@[simp] theorem Blk.incReg_ev : (b.incReg o).ev = b.ev := rfl
@[simp] theorem Blk.send_ev : (b.send m).ev = b.ev := rfl
@[simp] theorem Blk.setChan_ev : (b.setChan k x).ev = b.ev := rfl
@[simp] theorem Blk.setPair_ev : (b.setPair k j xp).ev = b.ev := rfl
@[simp] theorem Blk.setDie_ev : (b.setDie k xd).ev = b.ev := rfl
@[simp] theorem Blk.setQp_ev : (b.setQp k xq).ev = b.ev := rfl
@[simp] theorem Blk.setPwr_ev : (b.setPwr xw).ev = b.ev := rfl
@[simp] theorem Blk.setSdg_ev : (b.setSdg xs).ev = b.ev := rfl
@[simp] theorem Blk.setHub_ev : (b.setHub xh).ev = b.ev := rfl
@[simp] theorem Blk.setUnit_ev : (b.setUnit k xu).ev = b.ev := rfl
@[simp] theorem Blk.setJobs_ev : (b.setJobs xj).ev = b.ev := rfl
@[simp] theorem Blk.setTrees_ev : (b.setTrees xt).ev = b.ev := rfl
@[simp] theorem Blk.setLink_ev : (b.setLink k xl).ev = b.ev := rfl
@[simp] theorem Blk.setCommit_ev : (b.setCommit cb xc).ev = b.ev := rfl
@[simp] theorem Blk.setSeg_ev : (b.setSeg k xg).ev = b.ev := rfl
@[simp] theorem Blk.setQpc_ev : (b.setQpc k xn).ev = b.ev := rfl
@[simp] theorem Blk.updFlight_ev : (b.updFlight q k g).ev = b.ev := rfl
@[simp] theorem Blk.finish_ev : (b.finish q k st fl r).ev = b.ev := rfl
@[simp] theorem Blk.noteScope_ev : (b.noteScope q k v).ev = b.ev := rfl
@[simp] theorem Blk.hold_ev : (b.hold rq).ev = b.ev := rfl
@[simp] theorem Blk.setCells_ev : (b.setCells mem).ev = b.ev := rfl
@[simp] theorem Blk.goState_ev : (b.goState p).ev = b.ev := rfl
@[simp] theorem Blk.logE_ev : (b.logE k a).ev = b.ev := by unfold Blk.logE; split <;> rfl

/-! `sent` -/

@[simp] theorem Blk.setReg_sent : (b.setReg o v).sent = b.sent := rfl
@[simp] theorem Blk.orReg_sent : (b.orReg o v).sent = b.sent := rfl
@[simp] theorem Blk.clrReg_sent : (b.clrReg o v).sent = b.sent := rfl
@[simp] theorem Blk.putReg_sent : (b.putReg o k v).sent = b.sent := rfl
@[simp] theorem Blk.incReg_sent : (b.incReg o).sent = b.sent := rfl
@[simp] theorem Blk.setChan_sent : (b.setChan k x).sent = b.sent := rfl
@[simp] theorem Blk.setPair_sent : (b.setPair k j xp).sent = b.sent := rfl
@[simp] theorem Blk.setDie_sent : (b.setDie k xd).sent = b.sent := rfl
@[simp] theorem Blk.setQp_sent : (b.setQp k xq).sent = b.sent := rfl
@[simp] theorem Blk.setPwr_sent : (b.setPwr xw).sent = b.sent := rfl
@[simp] theorem Blk.setSdg_sent : (b.setSdg xs).sent = b.sent := rfl
@[simp] theorem Blk.setHub_sent : (b.setHub xh).sent = b.sent := rfl
@[simp] theorem Blk.setUnit_sent : (b.setUnit k xu).sent = b.sent := rfl
@[simp] theorem Blk.setJobs_sent : (b.setJobs xj).sent = b.sent := rfl
@[simp] theorem Blk.setTrees_sent : (b.setTrees xt).sent = b.sent := rfl
@[simp] theorem Blk.setLink_sent : (b.setLink k xl).sent = b.sent := rfl
@[simp] theorem Blk.setCommit_sent : (b.setCommit cb xc).sent = b.sent := rfl
@[simp] theorem Blk.setSeg_sent : (b.setSeg k xg).sent = b.sent := rfl
@[simp] theorem Blk.setQpc_sent : (b.setQpc k xn).sent = b.sent := rfl
@[simp] theorem Blk.updFlight_sent : (b.updFlight q k g).sent = b.sent := rfl
@[simp] theorem Blk.finish_sent : (b.finish q k st fl r).sent = b.sent := rfl
@[simp] theorem Blk.noteScope_sent : (b.noteScope q k v).sent = b.sent := rfl
@[simp] theorem Blk.hold_sent : (b.hold rq).sent = b.sent := rfl
@[simp] theorem Blk.setCells_sent : (b.setCells mem).sent = b.sent := rfl
@[simp] theorem Blk.goState_sent : (b.goState p).sent = b.sent := rfl
@[simp] theorem Blk.logE_sent : (b.logE k a).sent = b.sent := by unfold Blk.logE; split <;> rfl

/-! `ctr` -/

@[simp] theorem Blk.setReg_ctr : (b.setReg o v).ctr = b.ctr := rfl
@[simp] theorem Blk.orReg_ctr : (b.orReg o v).ctr = b.ctr := rfl
@[simp] theorem Blk.clrReg_ctr : (b.clrReg o v).ctr = b.ctr := rfl
@[simp] theorem Blk.putReg_ctr : (b.putReg o k v).ctr = b.ctr := rfl
@[simp] theorem Blk.incReg_ctr : (b.incReg o).ctr = b.ctr := rfl
@[simp] theorem Blk.send_ctr : (b.send m).ctr = b.ctr := rfl
@[simp] theorem Blk.setChan_ctr : (b.setChan k x).ctr = b.ctr := rfl
@[simp] theorem Blk.setPair_ctr : (b.setPair k j xp).ctr = b.ctr := rfl
@[simp] theorem Blk.setDie_ctr : (b.setDie k xd).ctr = b.ctr := rfl
@[simp] theorem Blk.setQp_ctr : (b.setQp k xq).ctr = b.ctr := rfl
@[simp] theorem Blk.setPwr_ctr : (b.setPwr xw).ctr = b.ctr := rfl
@[simp] theorem Blk.setSdg_ctr : (b.setSdg xs).ctr = b.ctr := rfl
@[simp] theorem Blk.setHub_ctr : (b.setHub xh).ctr = b.ctr := rfl
@[simp] theorem Blk.setUnit_ctr : (b.setUnit k xu).ctr = b.ctr := rfl
@[simp] theorem Blk.setJobs_ctr : (b.setJobs xj).ctr = b.ctr := rfl
@[simp] theorem Blk.setTrees_ctr : (b.setTrees xt).ctr = b.ctr := rfl
@[simp] theorem Blk.setLink_ctr : (b.setLink k xl).ctr = b.ctr := rfl
@[simp] theorem Blk.setCommit_ctr : (b.setCommit cb xc).ctr = b.ctr := rfl
@[simp] theorem Blk.setSeg_ctr : (b.setSeg k xg).ctr = b.ctr := rfl
@[simp] theorem Blk.setQpc_ctr : (b.setQpc k xn).ctr = b.ctr := rfl
@[simp] theorem Blk.updFlight_ctr : (b.updFlight q k g).ctr = b.ctr := rfl
@[simp] theorem Blk.finish_ctr : (b.finish q k st fl r).ctr = b.ctr := rfl
@[simp] theorem Blk.noteScope_ctr : (b.noteScope q k v).ctr = b.ctr := rfl
@[simp] theorem Blk.hold_ctr : (b.hold rq).ctr = b.ctr := rfl
@[simp] theorem Blk.setCells_ctr : (b.setCells mem).ctr = b.ctr := rfl
@[simp] theorem Blk.goState_ctr : (b.goState p).ctr = b.ctr := rfl
@[simp] theorem Blk.logE_ctr : (b.logE k a).ctr = b.ctr := by unfold Blk.logE; split <;> rfl

/-! `struc` -/

@[simp] theorem Blk.setReg_struc : (b.setReg o v).struc = b.struc := rfl
@[simp] theorem Blk.orReg_struc : (b.orReg o v).struc = b.struc := rfl
@[simp] theorem Blk.clrReg_struc : (b.clrReg o v).struc = b.struc := rfl
@[simp] theorem Blk.putReg_struc : (b.putReg o k v).struc = b.struc := rfl
@[simp] theorem Blk.incReg_struc : (b.incReg o).struc = b.struc := rfl
@[simp] theorem Blk.send_struc : (b.send m).struc = b.struc := rfl
@[simp] theorem Blk.setChan_struc : (b.setChan k x).struc = b.struc := rfl
@[simp] theorem Blk.setPair_struc : (b.setPair k j xp).struc = b.struc := rfl
@[simp] theorem Blk.setDie_struc : (b.setDie k xd).struc = b.struc := rfl
@[simp] theorem Blk.setQp_struc : (b.setQp k xq).struc = b.struc := rfl
@[simp] theorem Blk.setPwr_struc : (b.setPwr xw).struc = b.struc := rfl
@[simp] theorem Blk.setSdg_struc : (b.setSdg xs).struc = b.struc := rfl
@[simp] theorem Blk.setHub_struc : (b.setHub xh).struc = b.struc := rfl
@[simp] theorem Blk.setUnit_struc : (b.setUnit k xu).struc = b.struc := rfl
@[simp] theorem Blk.setJobs_struc : (b.setJobs xj).struc = b.struc := rfl
@[simp] theorem Blk.setTrees_struc : (b.setTrees xt).struc = b.struc := rfl
@[simp] theorem Blk.setLink_struc : (b.setLink k xl).struc = b.struc := rfl
@[simp] theorem Blk.setCommit_struc : (b.setCommit cb xc).struc = b.struc := rfl
@[simp] theorem Blk.setSeg_struc : (b.setSeg k xg).struc = b.struc := rfl
@[simp] theorem Blk.setQpc_struc : (b.setQpc k xn).struc = b.struc := rfl
@[simp] theorem Blk.updFlight_struc : (b.updFlight q k g).struc = b.struc := rfl
@[simp] theorem Blk.finish_struc : (b.finish q k st fl r).struc = b.struc := rfl
@[simp] theorem Blk.noteScope_struc : (b.noteScope q k v).struc = b.struc := rfl
@[simp] theorem Blk.hold_struc : (b.hold rq).struc = b.struc := rfl
@[simp] theorem Blk.setCells_struc : (b.setCells mem).struc = b.struc := rfl
@[simp] theorem Blk.goState_struc : (b.goState p).struc = b.struc := rfl
@[simp] theorem Blk.logE_struc : (b.logE k a).struc = b.struc := by unfold Blk.logE; split <;> rfl

/-! `lay` -/

@[simp] theorem Blk.setReg_lay : (b.setReg o v).lay = b.lay := rfl
@[simp] theorem Blk.orReg_lay : (b.orReg o v).lay = b.lay := rfl
@[simp] theorem Blk.clrReg_lay : (b.clrReg o v).lay = b.lay := rfl
@[simp] theorem Blk.putReg_lay : (b.putReg o k v).lay = b.lay := rfl
@[simp] theorem Blk.incReg_lay : (b.incReg o).lay = b.lay := rfl
@[simp] theorem Blk.send_lay : (b.send m).lay = b.lay := rfl
@[simp] theorem Blk.setChan_lay : (b.setChan k x).lay = b.lay := rfl
@[simp] theorem Blk.setPair_lay : (b.setPair k j xp).lay = b.lay := rfl
@[simp] theorem Blk.setDie_lay : (b.setDie k xd).lay = b.lay := rfl
@[simp] theorem Blk.setQp_lay : (b.setQp k xq).lay = b.lay := rfl
@[simp] theorem Blk.setPwr_lay : (b.setPwr xw).lay = b.lay := rfl
@[simp] theorem Blk.setSdg_lay : (b.setSdg xs).lay = b.lay := rfl
@[simp] theorem Blk.setHub_lay : (b.setHub xh).lay = b.lay := rfl
@[simp] theorem Blk.setUnit_lay : (b.setUnit k xu).lay = b.lay := rfl
@[simp] theorem Blk.setJobs_lay : (b.setJobs xj).lay = b.lay := rfl
@[simp] theorem Blk.setTrees_lay : (b.setTrees xt).lay = b.lay := rfl
@[simp] theorem Blk.setLink_lay : (b.setLink k xl).lay = b.lay := rfl
@[simp] theorem Blk.setCommit_lay : (b.setCommit cb xc).lay = b.lay := rfl
@[simp] theorem Blk.setSeg_lay : (b.setSeg k xg).lay = b.lay := rfl
@[simp] theorem Blk.setQpc_lay : (b.setQpc k xn).lay = b.lay := rfl
@[simp] theorem Blk.updFlight_lay : (b.updFlight q k g).lay = b.lay := rfl
@[simp] theorem Blk.finish_lay : (b.finish q k st fl r).lay = b.lay := rfl
@[simp] theorem Blk.noteScope_lay : (b.noteScope q k v).lay = b.lay := rfl
@[simp] theorem Blk.hold_lay : (b.hold rq).lay = b.lay := rfl
@[simp] theorem Blk.setCells_lay : (b.setCells mem).lay = b.lay := rfl
@[simp] theorem Blk.goState_lay : (b.goState p).lay = b.lay := rfl
@[simp] theorem Blk.logE_lay : (b.logE k a).lay = b.lay := by unfold Blk.logE; split <;> rfl

/-! `mem` -/

@[simp] theorem Blk.setReg_mem : (b.setReg o v).mem = b.mem := rfl
@[simp] theorem Blk.orReg_mem : (b.orReg o v).mem = b.mem := rfl
@[simp] theorem Blk.clrReg_mem : (b.clrReg o v).mem = b.mem := rfl
@[simp] theorem Blk.putReg_mem : (b.putReg o k v).mem = b.mem := rfl
@[simp] theorem Blk.incReg_mem : (b.incReg o).mem = b.mem := rfl
@[simp] theorem Blk.send_mem : (b.send m).mem = b.mem := rfl
@[simp] theorem Blk.setChan_mem : (b.setChan k x).mem = b.mem := rfl
@[simp] theorem Blk.setPair_mem : (b.setPair k j xp).mem = b.mem := rfl
@[simp] theorem Blk.setDie_mem : (b.setDie k xd).mem = b.mem := rfl
@[simp] theorem Blk.setQp_mem : (b.setQp k xq).mem = b.mem := rfl
@[simp] theorem Blk.setPwr_mem : (b.setPwr xw).mem = b.mem := rfl
@[simp] theorem Blk.setSdg_mem : (b.setSdg xs).mem = b.mem := rfl
@[simp] theorem Blk.setHub_mem : (b.setHub xh).mem = b.mem := rfl
@[simp] theorem Blk.setUnit_mem : (b.setUnit k xu).mem = b.mem := rfl
@[simp] theorem Blk.setJobs_mem : (b.setJobs xj).mem = b.mem := rfl
@[simp] theorem Blk.setTrees_mem : (b.setTrees xt).mem = b.mem := rfl
@[simp] theorem Blk.setLink_mem : (b.setLink k xl).mem = b.mem := rfl
@[simp] theorem Blk.setCommit_mem : (b.setCommit cb xc).mem = b.mem := rfl
@[simp] theorem Blk.setQpc_mem : (b.setQpc k xn).mem = b.mem := rfl
@[simp] theorem Blk.updFlight_mem : (b.updFlight q k g).mem = b.mem := rfl
@[simp] theorem Blk.finish_mem : (b.finish q k st fl r).mem = b.mem := rfl
@[simp] theorem Blk.noteScope_mem : (b.noteScope q k v).mem = b.mem := rfl
@[simp] theorem Blk.hold_mem : (b.hold rq).mem = b.mem := rfl
@[simp] theorem Blk.goState_mem : (b.goState p).mem = b.mem := rfl
@[simp] theorem Blk.logE_mem : (b.logE k a).mem = b.mem := by unfold Blk.logE; split <;> rfl

/-! `chans` -/

@[simp] theorem Blk.setReg_chans : (b.setReg o v).chans = b.chans := rfl
@[simp] theorem Blk.orReg_chans : (b.orReg o v).chans = b.chans := rfl
@[simp] theorem Blk.clrReg_chans : (b.clrReg o v).chans = b.chans := rfl
@[simp] theorem Blk.putReg_chans : (b.putReg o k v).chans = b.chans := rfl
@[simp] theorem Blk.incReg_chans : (b.incReg o).chans = b.chans := rfl
@[simp] theorem Blk.send_chans : (b.send m).chans = b.chans := rfl
@[simp] theorem Blk.setPair_chans : (b.setPair k j xp).chans = b.chans := rfl
@[simp] theorem Blk.setDie_chans : (b.setDie k xd).chans = b.chans := rfl
@[simp] theorem Blk.setQp_chans : (b.setQp k xq).chans = b.chans := rfl
@[simp] theorem Blk.setPwr_chans : (b.setPwr xw).chans = b.chans := rfl
@[simp] theorem Blk.setSdg_chans : (b.setSdg xs).chans = b.chans := rfl
@[simp] theorem Blk.setHub_chans : (b.setHub xh).chans = b.chans := rfl
@[simp] theorem Blk.setUnit_chans : (b.setUnit k xu).chans = b.chans := rfl
@[simp] theorem Blk.setJobs_chans : (b.setJobs xj).chans = b.chans := rfl
@[simp] theorem Blk.setTrees_chans : (b.setTrees xt).chans = b.chans := rfl
@[simp] theorem Blk.setLink_chans : (b.setLink k xl).chans = b.chans := rfl
@[simp] theorem Blk.setCommit_chans : (b.setCommit cb xc).chans = b.chans := rfl
@[simp] theorem Blk.setSeg_chans : (b.setSeg k xg).chans = b.chans := rfl
@[simp] theorem Blk.setQpc_chans : (b.setQpc k xn).chans = b.chans := rfl
@[simp] theorem Blk.updFlight_chans : (b.updFlight q k g).chans = b.chans := rfl
@[simp] theorem Blk.finish_chans : (b.finish q k st fl r).chans = b.chans := rfl
@[simp] theorem Blk.noteScope_chans : (b.noteScope q k v).chans = b.chans := rfl
@[simp] theorem Blk.hold_chans : (b.hold rq).chans = b.chans := rfl
@[simp] theorem Blk.setCells_chans : (b.setCells mem).chans = b.chans := rfl
@[simp] theorem Blk.goState_chans : (b.goState p).chans = b.chans := rfl
@[simp] theorem Blk.logE_chans : (b.logE k a).chans = b.chans := by unfold Blk.logE; split <;> rfl
@[simp] theorem Blk.setReg_chan : (b.setReg o v).chan off = b.chan off := rfl
@[simp] theorem Blk.orReg_chan : (b.orReg o v).chan off = b.chan off := rfl
@[simp] theorem Blk.clrReg_chan : (b.clrReg o v).chan off = b.chan off := rfl
@[simp] theorem Blk.putReg_chan : (b.putReg o k v).chan off = b.chan off := rfl
@[simp] theorem Blk.incReg_chan : (b.incReg o).chan off = b.chan off := rfl
@[simp] theorem Blk.send_chan : (b.send m).chan off = b.chan off := rfl
@[simp] theorem Blk.setPair_chan : (b.setPair k j xp).chan off = b.chan off := rfl
@[simp] theorem Blk.setDie_chan : (b.setDie k xd).chan off = b.chan off := rfl
@[simp] theorem Blk.setQp_chan : (b.setQp k xq).chan off = b.chan off := rfl
@[simp] theorem Blk.setPwr_chan : (b.setPwr xw).chan off = b.chan off := rfl
@[simp] theorem Blk.setSdg_chan : (b.setSdg xs).chan off = b.chan off := rfl
@[simp] theorem Blk.setHub_chan : (b.setHub xh).chan off = b.chan off := rfl
@[simp] theorem Blk.setUnit_chan : (b.setUnit k xu).chan off = b.chan off := rfl
@[simp] theorem Blk.setJobs_chan : (b.setJobs xj).chan off = b.chan off := rfl
@[simp] theorem Blk.setTrees_chan : (b.setTrees xt).chan off = b.chan off := rfl
@[simp] theorem Blk.setLink_chan : (b.setLink k xl).chan off = b.chan off := rfl
@[simp] theorem Blk.setCommit_chan : (b.setCommit cb xc).chan off = b.chan off := rfl
@[simp] theorem Blk.setSeg_chan : (b.setSeg k xg).chan off = b.chan off := rfl
@[simp] theorem Blk.setQpc_chan : (b.setQpc k xn).chan off = b.chan off := rfl
@[simp] theorem Blk.updFlight_chan : (b.updFlight q k g).chan off = b.chan off := rfl
@[simp] theorem Blk.finish_chan : (b.finish q k st fl r).chan off = b.chan off := rfl
@[simp] theorem Blk.noteScope_chan : (b.noteScope q k v).chan off = b.chan off := rfl
@[simp] theorem Blk.hold_chan : (b.hold rq).chan off = b.chan off := rfl
@[simp] theorem Blk.setCells_chan : (b.setCells mem).chan off = b.chan off := rfl
@[simp] theorem Blk.goState_chan : (b.goState p).chan off = b.chan off := rfl
@[simp] theorem Blk.logE_chan : (b.logE k a).chan off = b.chan off := by unfold Blk.logE; split <;> rfl

/-! `pairs` -/

@[simp] theorem Blk.setReg_pairs : (b.setReg o v).pairs = b.pairs := rfl
@[simp] theorem Blk.orReg_pairs : (b.orReg o v).pairs = b.pairs := rfl
@[simp] theorem Blk.clrReg_pairs : (b.clrReg o v).pairs = b.pairs := rfl
@[simp] theorem Blk.putReg_pairs : (b.putReg o k v).pairs = b.pairs := rfl
@[simp] theorem Blk.incReg_pairs : (b.incReg o).pairs = b.pairs := rfl
@[simp] theorem Blk.send_pairs : (b.send m).pairs = b.pairs := rfl
@[simp] theorem Blk.setChan_pairs : (b.setChan k x).pairs = b.pairs := rfl
@[simp] theorem Blk.setDie_pairs : (b.setDie k xd).pairs = b.pairs := rfl
@[simp] theorem Blk.setQp_pairs : (b.setQp k xq).pairs = b.pairs := rfl
@[simp] theorem Blk.setPwr_pairs : (b.setPwr xw).pairs = b.pairs := rfl
@[simp] theorem Blk.setSdg_pairs : (b.setSdg xs).pairs = b.pairs := rfl
@[simp] theorem Blk.setHub_pairs : (b.setHub xh).pairs = b.pairs := rfl
@[simp] theorem Blk.setUnit_pairs : (b.setUnit k xu).pairs = b.pairs := rfl
@[simp] theorem Blk.setJobs_pairs : (b.setJobs xj).pairs = b.pairs := rfl
@[simp] theorem Blk.setTrees_pairs : (b.setTrees xt).pairs = b.pairs := rfl
@[simp] theorem Blk.setLink_pairs : (b.setLink k xl).pairs = b.pairs := rfl
@[simp] theorem Blk.setCommit_pairs : (b.setCommit cb xc).pairs = b.pairs := rfl
@[simp] theorem Blk.setSeg_pairs : (b.setSeg k xg).pairs = b.pairs := rfl
@[simp] theorem Blk.setQpc_pairs : (b.setQpc k xn).pairs = b.pairs := rfl
@[simp] theorem Blk.updFlight_pairs : (b.updFlight q k g).pairs = b.pairs := rfl
@[simp] theorem Blk.finish_pairs : (b.finish q k st fl r).pairs = b.pairs := rfl
@[simp] theorem Blk.noteScope_pairs : (b.noteScope q k v).pairs = b.pairs := rfl
@[simp] theorem Blk.hold_pairs : (b.hold rq).pairs = b.pairs := rfl
@[simp] theorem Blk.setCells_pairs : (b.setCells mem).pairs = b.pairs := rfl
@[simp] theorem Blk.goState_pairs : (b.goState p).pairs = b.pairs := rfl
@[simp] theorem Blk.logE_pairs : (b.logE k a).pairs = b.pairs := by unfold Blk.logE; split <;> rfl

/-! `dies` -/

@[simp] theorem Blk.setReg_dies : (b.setReg o v).dies = b.dies := rfl
@[simp] theorem Blk.orReg_dies : (b.orReg o v).dies = b.dies := rfl
@[simp] theorem Blk.clrReg_dies : (b.clrReg o v).dies = b.dies := rfl
@[simp] theorem Blk.putReg_dies : (b.putReg o k v).dies = b.dies := rfl
@[simp] theorem Blk.incReg_dies : (b.incReg o).dies = b.dies := rfl
@[simp] theorem Blk.send_dies : (b.send m).dies = b.dies := rfl
@[simp] theorem Blk.setChan_dies : (b.setChan k x).dies = b.dies := rfl
@[simp] theorem Blk.setPair_dies : (b.setPair k j xp).dies = b.dies := rfl
@[simp] theorem Blk.setQp_dies : (b.setQp k xq).dies = b.dies := rfl
@[simp] theorem Blk.setPwr_dies : (b.setPwr xw).dies = b.dies := rfl
@[simp] theorem Blk.setSdg_dies : (b.setSdg xs).dies = b.dies := rfl
@[simp] theorem Blk.setHub_dies : (b.setHub xh).dies = b.dies := rfl
@[simp] theorem Blk.setUnit_dies : (b.setUnit k xu).dies = b.dies := rfl
@[simp] theorem Blk.setJobs_dies : (b.setJobs xj).dies = b.dies := rfl
@[simp] theorem Blk.setTrees_dies : (b.setTrees xt).dies = b.dies := rfl
@[simp] theorem Blk.setLink_dies : (b.setLink k xl).dies = b.dies := rfl
@[simp] theorem Blk.setCommit_dies : (b.setCommit cb xc).dies = b.dies := rfl
@[simp] theorem Blk.setSeg_dies : (b.setSeg k xg).dies = b.dies := rfl
@[simp] theorem Blk.setQpc_dies : (b.setQpc k xn).dies = b.dies := rfl
@[simp] theorem Blk.updFlight_dies : (b.updFlight q k g).dies = b.dies := rfl
@[simp] theorem Blk.finish_dies : (b.finish q k st fl r).dies = b.dies := rfl
@[simp] theorem Blk.noteScope_dies : (b.noteScope q k v).dies = b.dies := rfl
@[simp] theorem Blk.hold_dies : (b.hold rq).dies = b.dies := rfl
@[simp] theorem Blk.setCells_dies : (b.setCells mem).dies = b.dies := rfl
@[simp] theorem Blk.goState_dies : (b.goState p).dies = b.dies := rfl
@[simp] theorem Blk.logE_dies : (b.logE k a).dies = b.dies := by unfold Blk.logE; split <;> rfl
@[simp] theorem Blk.setReg_die : (b.setReg o v).die off = b.die off := rfl
@[simp] theorem Blk.orReg_die : (b.orReg o v).die off = b.die off := rfl
@[simp] theorem Blk.clrReg_die : (b.clrReg o v).die off = b.die off := rfl
@[simp] theorem Blk.putReg_die : (b.putReg o k v).die off = b.die off := rfl
@[simp] theorem Blk.incReg_die : (b.incReg o).die off = b.die off := rfl
@[simp] theorem Blk.send_die : (b.send m).die off = b.die off := rfl
@[simp] theorem Blk.setChan_die : (b.setChan k x).die off = b.die off := rfl
@[simp] theorem Blk.setPair_die : (b.setPair k j xp).die off = b.die off := rfl
@[simp] theorem Blk.setQp_die : (b.setQp k xq).die off = b.die off := rfl
@[simp] theorem Blk.setPwr_die : (b.setPwr xw).die off = b.die off := rfl
@[simp] theorem Blk.setSdg_die : (b.setSdg xs).die off = b.die off := rfl
@[simp] theorem Blk.setHub_die : (b.setHub xh).die off = b.die off := rfl
@[simp] theorem Blk.setUnit_die : (b.setUnit k xu).die off = b.die off := rfl
@[simp] theorem Blk.setJobs_die : (b.setJobs xj).die off = b.die off := rfl
@[simp] theorem Blk.setTrees_die : (b.setTrees xt).die off = b.die off := rfl
@[simp] theorem Blk.setLink_die : (b.setLink k xl).die off = b.die off := rfl
@[simp] theorem Blk.setCommit_die : (b.setCommit cb xc).die off = b.die off := rfl
@[simp] theorem Blk.setSeg_die : (b.setSeg k xg).die off = b.die off := rfl
@[simp] theorem Blk.setQpc_die : (b.setQpc k xn).die off = b.die off := rfl
@[simp] theorem Blk.updFlight_die : (b.updFlight q k g).die off = b.die off := rfl
@[simp] theorem Blk.finish_die : (b.finish q k st fl r).die off = b.die off := rfl
@[simp] theorem Blk.noteScope_die : (b.noteScope q k v).die off = b.die off := rfl
@[simp] theorem Blk.hold_die : (b.hold rq).die off = b.die off := rfl
@[simp] theorem Blk.setCells_die : (b.setCells mem).die off = b.die off := rfl
@[simp] theorem Blk.goState_die : (b.goState p).die off = b.die off := rfl
@[simp] theorem Blk.logE_die : (b.logE k a).die off = b.die off := by unfold Blk.logE; split <;> rfl

/-! `pins` -/

@[simp] theorem Blk.setReg_pins : (b.setReg o v).pins = b.pins := rfl
@[simp] theorem Blk.orReg_pins : (b.orReg o v).pins = b.pins := rfl
@[simp] theorem Blk.clrReg_pins : (b.clrReg o v).pins = b.pins := rfl
@[simp] theorem Blk.putReg_pins : (b.putReg o k v).pins = b.pins := rfl
@[simp] theorem Blk.incReg_pins : (b.incReg o).pins = b.pins := rfl
@[simp] theorem Blk.send_pins : (b.send m).pins = b.pins := rfl
@[simp] theorem Blk.setChan_pins : (b.setChan k x).pins = b.pins := rfl
@[simp] theorem Blk.setPair_pins : (b.setPair k j xp).pins = b.pins := rfl
@[simp] theorem Blk.setDie_pins : (b.setDie k xd).pins = b.pins := rfl
@[simp] theorem Blk.setQp_pins : (b.setQp k xq).pins = b.pins := rfl
@[simp] theorem Blk.setPwr_pins : (b.setPwr xw).pins = b.pins := rfl
@[simp] theorem Blk.setSdg_pins : (b.setSdg xs).pins = b.pins := rfl
@[simp] theorem Blk.setHub_pins : (b.setHub xh).pins = b.pins := rfl
@[simp] theorem Blk.setUnit_pins : (b.setUnit k xu).pins = b.pins := rfl
@[simp] theorem Blk.setJobs_pins : (b.setJobs xj).pins = b.pins := rfl
@[simp] theorem Blk.setTrees_pins : (b.setTrees xt).pins = b.pins := rfl
@[simp] theorem Blk.setLink_pins : (b.setLink k xl).pins = b.pins := rfl
@[simp] theorem Blk.setCommit_pins : (b.setCommit cb xc).pins = b.pins := rfl
@[simp] theorem Blk.setSeg_pins : (b.setSeg k xg).pins = b.pins := rfl
@[simp] theorem Blk.setQpc_pins : (b.setQpc k xn).pins = b.pins := rfl
@[simp] theorem Blk.updFlight_pins : (b.updFlight q k g).pins = b.pins := rfl
@[simp] theorem Blk.finish_pins : (b.finish q k st fl r).pins = b.pins := rfl
@[simp] theorem Blk.noteScope_pins : (b.noteScope q k v).pins = b.pins := rfl
@[simp] theorem Blk.hold_pins : (b.hold rq).pins = b.pins := rfl
@[simp] theorem Blk.setCells_pins : (b.setCells mem).pins = b.pins := rfl
@[simp] theorem Blk.goState_pins : (b.goState p).pins = b.pins := rfl
@[simp] theorem Blk.logE_pins : (b.logE k a).pins = b.pins := by unfold Blk.logE; split <;> rfl

/-! `qps` -/

@[simp] theorem Blk.setReg_qps : (b.setReg o v).qps = b.qps := rfl
@[simp] theorem Blk.orReg_qps : (b.orReg o v).qps = b.qps := rfl
@[simp] theorem Blk.clrReg_qps : (b.clrReg o v).qps = b.qps := rfl
@[simp] theorem Blk.putReg_qps : (b.putReg o k v).qps = b.qps := rfl
@[simp] theorem Blk.incReg_qps : (b.incReg o).qps = b.qps := rfl
@[simp] theorem Blk.send_qps : (b.send m).qps = b.qps := rfl
@[simp] theorem Blk.setChan_qps : (b.setChan k x).qps = b.qps := rfl
@[simp] theorem Blk.setPair_qps : (b.setPair k j xp).qps = b.qps := rfl
@[simp] theorem Blk.setDie_qps : (b.setDie k xd).qps = b.qps := rfl
@[simp] theorem Blk.setPwr_qps : (b.setPwr xw).qps = b.qps := rfl
@[simp] theorem Blk.setSdg_qps : (b.setSdg xs).qps = b.qps := rfl
@[simp] theorem Blk.setHub_qps : (b.setHub xh).qps = b.qps := rfl
@[simp] theorem Blk.setUnit_qps : (b.setUnit k xu).qps = b.qps := rfl
@[simp] theorem Blk.setJobs_qps : (b.setJobs xj).qps = b.qps := rfl
@[simp] theorem Blk.setTrees_qps : (b.setTrees xt).qps = b.qps := rfl
@[simp] theorem Blk.setLink_qps : (b.setLink k xl).qps = b.qps := rfl
@[simp] theorem Blk.setCommit_qps : (b.setCommit cb xc).qps = b.qps := rfl
@[simp] theorem Blk.setSeg_qps : (b.setSeg k xg).qps = b.qps := rfl
@[simp] theorem Blk.setQpc_qps : (b.setQpc k xn).qps = b.qps := rfl
@[simp] theorem Blk.updFlight_qps : (b.updFlight q k g).qps = b.qps := rfl
@[simp] theorem Blk.finish_qps : (b.finish q k st fl r).qps = b.qps := rfl
@[simp] theorem Blk.noteScope_qps : (b.noteScope q k v).qps = b.qps := rfl
@[simp] theorem Blk.hold_qps : (b.hold rq).qps = b.qps := rfl
@[simp] theorem Blk.setCells_qps : (b.setCells mem).qps = b.qps := rfl
@[simp] theorem Blk.goState_qps : (b.goState p).qps = b.qps := rfl
@[simp] theorem Blk.logE_qps : (b.logE k a).qps = b.qps := by unfold Blk.logE; split <;> rfl
@[simp] theorem Blk.setReg_qp : (b.setReg o v).qp off = b.qp off := rfl
@[simp] theorem Blk.orReg_qp : (b.orReg o v).qp off = b.qp off := rfl
@[simp] theorem Blk.clrReg_qp : (b.clrReg o v).qp off = b.qp off := rfl
@[simp] theorem Blk.putReg_qp : (b.putReg o k v).qp off = b.qp off := rfl
@[simp] theorem Blk.incReg_qp : (b.incReg o).qp off = b.qp off := rfl
@[simp] theorem Blk.send_qp : (b.send m).qp off = b.qp off := rfl
@[simp] theorem Blk.setChan_qp : (b.setChan k x).qp off = b.qp off := rfl
@[simp] theorem Blk.setPair_qp : (b.setPair k j xp).qp off = b.qp off := rfl
@[simp] theorem Blk.setDie_qp : (b.setDie k xd).qp off = b.qp off := rfl
@[simp] theorem Blk.setPwr_qp : (b.setPwr xw).qp off = b.qp off := rfl
@[simp] theorem Blk.setSdg_qp : (b.setSdg xs).qp off = b.qp off := rfl
@[simp] theorem Blk.setHub_qp : (b.setHub xh).qp off = b.qp off := rfl
@[simp] theorem Blk.setUnit_qp : (b.setUnit k xu).qp off = b.qp off := rfl
@[simp] theorem Blk.setJobs_qp : (b.setJobs xj).qp off = b.qp off := rfl
@[simp] theorem Blk.setTrees_qp : (b.setTrees xt).qp off = b.qp off := rfl
@[simp] theorem Blk.setLink_qp : (b.setLink k xl).qp off = b.qp off := rfl
@[simp] theorem Blk.setCommit_qp : (b.setCommit cb xc).qp off = b.qp off := rfl
@[simp] theorem Blk.setSeg_qp : (b.setSeg k xg).qp off = b.qp off := rfl
@[simp] theorem Blk.setQpc_qp : (b.setQpc k xn).qp off = b.qp off := rfl
@[simp] theorem Blk.updFlight_qp : (b.updFlight q k g).qp off = b.qp off := rfl
@[simp] theorem Blk.finish_qp : (b.finish q k st fl r).qp off = b.qp off := rfl
@[simp] theorem Blk.noteScope_qp : (b.noteScope q k v).qp off = b.qp off := rfl
@[simp] theorem Blk.hold_qp : (b.hold rq).qp off = b.qp off := rfl
@[simp] theorem Blk.setCells_qp : (b.setCells mem).qp off = b.qp off := rfl
@[simp] theorem Blk.goState_qp : (b.goState p).qp off = b.qp off := rfl
@[simp] theorem Blk.logE_qp : (b.logE k a).qp off = b.qp off := by unfold Blk.logE; split <;> rfl

/-! `flights` -/

@[simp] theorem Blk.setReg_flights : (b.setReg o v).flights = b.flights := rfl
@[simp] theorem Blk.orReg_flights : (b.orReg o v).flights = b.flights := rfl
@[simp] theorem Blk.clrReg_flights : (b.clrReg o v).flights = b.flights := rfl
@[simp] theorem Blk.putReg_flights : (b.putReg o k v).flights = b.flights := rfl
@[simp] theorem Blk.incReg_flights : (b.incReg o).flights = b.flights := rfl
@[simp] theorem Blk.send_flights : (b.send m).flights = b.flights := rfl
@[simp] theorem Blk.setChan_flights : (b.setChan k x).flights = b.flights := rfl
@[simp] theorem Blk.setPair_flights : (b.setPair k j xp).flights = b.flights := rfl
@[simp] theorem Blk.setDie_flights : (b.setDie k xd).flights = b.flights := rfl
@[simp] theorem Blk.setQp_flights : (b.setQp k xq).flights = b.flights := rfl
@[simp] theorem Blk.setPwr_flights : (b.setPwr xw).flights = b.flights := rfl
@[simp] theorem Blk.setSdg_flights : (b.setSdg xs).flights = b.flights := rfl
@[simp] theorem Blk.setHub_flights : (b.setHub xh).flights = b.flights := rfl
@[simp] theorem Blk.setUnit_flights : (b.setUnit k xu).flights = b.flights := rfl
@[simp] theorem Blk.setJobs_flights : (b.setJobs xj).flights = b.flights := rfl
@[simp] theorem Blk.setTrees_flights : (b.setTrees xt).flights = b.flights := rfl
@[simp] theorem Blk.setLink_flights : (b.setLink k xl).flights = b.flights := rfl
@[simp] theorem Blk.setCommit_flights : (b.setCommit cb xc).flights = b.flights := rfl
@[simp] theorem Blk.setSeg_flights : (b.setSeg k xg).flights = b.flights := rfl
@[simp] theorem Blk.setQpc_flights : (b.setQpc k xn).flights = b.flights := rfl
@[simp] theorem Blk.hold_flights : (b.hold rq).flights = b.flights := rfl
@[simp] theorem Blk.setCells_flights : (b.setCells mem).flights = b.flights := rfl
@[simp] theorem Blk.goState_flights : (b.goState p).flights = b.flights := rfl
@[simp] theorem Blk.logE_flights : (b.logE k a).flights = b.flights := by unfold Blk.logE; split <;> rfl
@[simp] theorem Blk.setReg_flight? : (b.setReg o v).flight? q2 k2 = b.flight? q2 k2 := rfl
@[simp] theorem Blk.orReg_flight? : (b.orReg o v).flight? q2 k2 = b.flight? q2 k2 := rfl
@[simp] theorem Blk.clrReg_flight? : (b.clrReg o v).flight? q2 k2 = b.flight? q2 k2 := rfl
@[simp] theorem Blk.putReg_flight? : (b.putReg o k v).flight? q2 k2 = b.flight? q2 k2 := rfl
@[simp] theorem Blk.incReg_flight? : (b.incReg o).flight? q2 k2 = b.flight? q2 k2 := rfl
@[simp] theorem Blk.send_flight? : (b.send m).flight? q2 k2 = b.flight? q2 k2 := rfl
@[simp] theorem Blk.setChan_flight? : (b.setChan k x).flight? q2 k2 = b.flight? q2 k2 := rfl
@[simp] theorem Blk.setPair_flight? : (b.setPair k j xp).flight? q2 k2 = b.flight? q2 k2 := rfl
@[simp] theorem Blk.setDie_flight? : (b.setDie k xd).flight? q2 k2 = b.flight? q2 k2 := rfl
@[simp] theorem Blk.setQp_flight? : (b.setQp k xq).flight? q2 k2 = b.flight? q2 k2 := rfl
@[simp] theorem Blk.setPwr_flight? : (b.setPwr xw).flight? q2 k2 = b.flight? q2 k2 := rfl
@[simp] theorem Blk.setSdg_flight? : (b.setSdg xs).flight? q2 k2 = b.flight? q2 k2 := rfl
@[simp] theorem Blk.setHub_flight? : (b.setHub xh).flight? q2 k2 = b.flight? q2 k2 := rfl
@[simp] theorem Blk.setUnit_flight? : (b.setUnit k xu).flight? q2 k2 = b.flight? q2 k2 := rfl
@[simp] theorem Blk.setJobs_flight? : (b.setJobs xj).flight? q2 k2 = b.flight? q2 k2 := rfl
@[simp] theorem Blk.setTrees_flight? : (b.setTrees xt).flight? q2 k2 = b.flight? q2 k2 := rfl
@[simp] theorem Blk.setLink_flight? : (b.setLink k xl).flight? q2 k2 = b.flight? q2 k2 := rfl
@[simp] theorem Blk.setCommit_flight? : (b.setCommit cb xc).flight? q2 k2 = b.flight? q2 k2 := rfl
@[simp] theorem Blk.setSeg_flight? : (b.setSeg k xg).flight? q2 k2 = b.flight? q2 k2 := rfl
@[simp] theorem Blk.setQpc_flight? : (b.setQpc k xn).flight? q2 k2 = b.flight? q2 k2 := rfl
@[simp] theorem Blk.hold_flight? : (b.hold rq).flight? q2 k2 = b.flight? q2 k2 := rfl
@[simp] theorem Blk.setCells_flight? : (b.setCells mem).flight? q2 k2 = b.flight? q2 k2 := rfl
@[simp] theorem Blk.goState_flight? : (b.goState p).flight? q2 k2 = b.flight? q2 k2 := rfl
@[simp] theorem Blk.logE_flight? : (b.logE k a).flight? q2 k2 = b.flight? q2 k2 := by unfold Blk.logE; split <;> rfl

/-! `att` -/

@[simp] theorem Blk.setReg_att : (b.setReg o v).att = b.att := rfl
@[simp] theorem Blk.orReg_att : (b.orReg o v).att = b.att := rfl
@[simp] theorem Blk.clrReg_att : (b.clrReg o v).att = b.att := rfl
@[simp] theorem Blk.putReg_att : (b.putReg o k v).att = b.att := rfl
@[simp] theorem Blk.incReg_att : (b.incReg o).att = b.att := rfl
@[simp] theorem Blk.send_att : (b.send m).att = b.att := rfl
@[simp] theorem Blk.setChan_att : (b.setChan k x).att = b.att := rfl
@[simp] theorem Blk.setPair_att : (b.setPair k j xp).att = b.att := rfl
@[simp] theorem Blk.setDie_att : (b.setDie k xd).att = b.att := rfl
@[simp] theorem Blk.setQp_att : (b.setQp k xq).att = b.att := rfl
@[simp] theorem Blk.setPwr_att : (b.setPwr xw).att = b.att := rfl
@[simp] theorem Blk.setSdg_att : (b.setSdg xs).att = b.att := rfl
@[simp] theorem Blk.setHub_att : (b.setHub xh).att = b.att := rfl
@[simp] theorem Blk.setUnit_att : (b.setUnit k xu).att = b.att := rfl
@[simp] theorem Blk.setJobs_att : (b.setJobs xj).att = b.att := rfl
@[simp] theorem Blk.setTrees_att : (b.setTrees xt).att = b.att := rfl
@[simp] theorem Blk.setLink_att : (b.setLink k xl).att = b.att := rfl
@[simp] theorem Blk.setCommit_att : (b.setCommit cb xc).att = b.att := rfl
@[simp] theorem Blk.setSeg_att : (b.setSeg k xg).att = b.att := rfl
@[simp] theorem Blk.setQpc_att : (b.setQpc k xn).att = b.att := rfl
@[simp] theorem Blk.updFlight_att : (b.updFlight q k g).att = b.att := rfl
@[simp] theorem Blk.finish_att : (b.finish q k st fl r).att = b.att := rfl
@[simp] theorem Blk.noteScope_att : (b.noteScope q k v).att = b.att := rfl
@[simp] theorem Blk.hold_att : (b.hold rq).att = b.att := rfl
@[simp] theorem Blk.setCells_att : (b.setCells mem).att = b.att := rfl
@[simp] theorem Blk.goState_att : (b.goState p).att = b.att := rfl
@[simp] theorem Blk.logE_att : (b.logE k a).att = b.att := by unfold Blk.logE; split <;> rfl

/-! `win` -/

@[simp] theorem Blk.setReg_win : (b.setReg o v).win = b.win := rfl
@[simp] theorem Blk.orReg_win : (b.orReg o v).win = b.win := rfl
@[simp] theorem Blk.clrReg_win : (b.clrReg o v).win = b.win := rfl
@[simp] theorem Blk.putReg_win : (b.putReg o k v).win = b.win := rfl
@[simp] theorem Blk.incReg_win : (b.incReg o).win = b.win := rfl
@[simp] theorem Blk.send_win : (b.send m).win = b.win := rfl
@[simp] theorem Blk.setChan_win : (b.setChan k x).win = b.win := rfl
@[simp] theorem Blk.setPair_win : (b.setPair k j xp).win = b.win := rfl
@[simp] theorem Blk.setDie_win : (b.setDie k xd).win = b.win := rfl
@[simp] theorem Blk.setQp_win : (b.setQp k xq).win = b.win := rfl
@[simp] theorem Blk.setPwr_win : (b.setPwr xw).win = b.win := rfl
@[simp] theorem Blk.setSdg_win : (b.setSdg xs).win = b.win := rfl
@[simp] theorem Blk.setHub_win : (b.setHub xh).win = b.win := rfl
@[simp] theorem Blk.setUnit_win : (b.setUnit k xu).win = b.win := rfl
@[simp] theorem Blk.setJobs_win : (b.setJobs xj).win = b.win := rfl
@[simp] theorem Blk.setTrees_win : (b.setTrees xt).win = b.win := rfl
@[simp] theorem Blk.setLink_win : (b.setLink k xl).win = b.win := rfl
@[simp] theorem Blk.setCommit_win : (b.setCommit cb xc).win = b.win := rfl
@[simp] theorem Blk.setSeg_win : (b.setSeg k xg).win = b.win := rfl
@[simp] theorem Blk.setQpc_win : (b.setQpc k xn).win = b.win := rfl
@[simp] theorem Blk.updFlight_win : (b.updFlight q k g).win = b.win := rfl
@[simp] theorem Blk.finish_win : (b.finish q k st fl r).win = b.win := rfl
@[simp] theorem Blk.noteScope_win : (b.noteScope q k v).win = b.win := rfl
@[simp] theorem Blk.hold_win : (b.hold rq).win = b.win := rfl
@[simp] theorem Blk.setCells_win : (b.setCells mem).win = b.win := rfl
@[simp] theorem Blk.goState_win : (b.goState p).win = b.win := rfl
@[simp] theorem Blk.logE_win : (b.logE k a).win = b.win := by unfold Blk.logE; split <;> rfl

/-! `held` -/

@[simp] theorem Blk.setReg_held : (b.setReg o v).held = b.held := rfl
@[simp] theorem Blk.orReg_held : (b.orReg o v).held = b.held := rfl
@[simp] theorem Blk.clrReg_held : (b.clrReg o v).held = b.held := rfl
@[simp] theorem Blk.putReg_held : (b.putReg o k v).held = b.held := rfl
@[simp] theorem Blk.incReg_held : (b.incReg o).held = b.held := rfl
@[simp] theorem Blk.send_held : (b.send m).held = b.held := rfl
@[simp] theorem Blk.setChan_held : (b.setChan k x).held = b.held := rfl
@[simp] theorem Blk.setPair_held : (b.setPair k j xp).held = b.held := rfl
@[simp] theorem Blk.setDie_held : (b.setDie k xd).held = b.held := rfl
@[simp] theorem Blk.setQp_held : (b.setQp k xq).held = b.held := rfl
@[simp] theorem Blk.setPwr_held : (b.setPwr xw).held = b.held := rfl
@[simp] theorem Blk.setSdg_held : (b.setSdg xs).held = b.held := rfl
@[simp] theorem Blk.setHub_held : (b.setHub xh).held = b.held := rfl
@[simp] theorem Blk.setUnit_held : (b.setUnit k xu).held = b.held := rfl
@[simp] theorem Blk.setJobs_held : (b.setJobs xj).held = b.held := rfl
@[simp] theorem Blk.setTrees_held : (b.setTrees xt).held = b.held := rfl
@[simp] theorem Blk.setLink_held : (b.setLink k xl).held = b.held := rfl
@[simp] theorem Blk.setCommit_held : (b.setCommit cb xc).held = b.held := rfl
@[simp] theorem Blk.setSeg_held : (b.setSeg k xg).held = b.held := rfl
@[simp] theorem Blk.setQpc_held : (b.setQpc k xn).held = b.held := rfl
@[simp] theorem Blk.updFlight_held : (b.updFlight q k g).held = b.held := rfl
@[simp] theorem Blk.finish_held : (b.finish q k st fl r).held = b.held := rfl
@[simp] theorem Blk.noteScope_held : (b.noteScope q k v).held = b.held := rfl
@[simp] theorem Blk.setCells_held : (b.setCells mem).held = b.held := rfl
@[simp] theorem Blk.goState_held : (b.goState p).held = b.held := rfl
@[simp] theorem Blk.logE_held : (b.logE k a).held = b.held := by unfold Blk.logE; split <;> rfl

/-! `pwr` -/

@[simp] theorem Blk.setReg_pwr : (b.setReg o v).pwr = b.pwr := rfl
@[simp] theorem Blk.orReg_pwr : (b.orReg o v).pwr = b.pwr := rfl
@[simp] theorem Blk.clrReg_pwr : (b.clrReg o v).pwr = b.pwr := rfl
@[simp] theorem Blk.putReg_pwr : (b.putReg o k v).pwr = b.pwr := rfl
@[simp] theorem Blk.incReg_pwr : (b.incReg o).pwr = b.pwr := rfl
@[simp] theorem Blk.send_pwr : (b.send m).pwr = b.pwr := rfl
@[simp] theorem Blk.setChan_pwr : (b.setChan k x).pwr = b.pwr := rfl
@[simp] theorem Blk.setPair_pwr : (b.setPair k j xp).pwr = b.pwr := rfl
@[simp] theorem Blk.setDie_pwr : (b.setDie k xd).pwr = b.pwr := rfl
@[simp] theorem Blk.setQp_pwr : (b.setQp k xq).pwr = b.pwr := rfl
@[simp] theorem Blk.setSdg_pwr : (b.setSdg xs).pwr = b.pwr := rfl
@[simp] theorem Blk.setHub_pwr : (b.setHub xh).pwr = b.pwr := rfl
@[simp] theorem Blk.setUnit_pwr : (b.setUnit k xu).pwr = b.pwr := rfl
@[simp] theorem Blk.setJobs_pwr : (b.setJobs xj).pwr = b.pwr := rfl
@[simp] theorem Blk.setTrees_pwr : (b.setTrees xt).pwr = b.pwr := rfl
@[simp] theorem Blk.setLink_pwr : (b.setLink k xl).pwr = b.pwr := rfl
@[simp] theorem Blk.setCommit_pwr : (b.setCommit cb xc).pwr = b.pwr := rfl
@[simp] theorem Blk.setSeg_pwr : (b.setSeg k xg).pwr = b.pwr := rfl
@[simp] theorem Blk.setQpc_pwr : (b.setQpc k xn).pwr = b.pwr := rfl
@[simp] theorem Blk.updFlight_pwr : (b.updFlight q k g).pwr = b.pwr := rfl
@[simp] theorem Blk.finish_pwr : (b.finish q k st fl r).pwr = b.pwr := rfl
@[simp] theorem Blk.noteScope_pwr : (b.noteScope q k v).pwr = b.pwr := rfl
@[simp] theorem Blk.hold_pwr : (b.hold rq).pwr = b.pwr := rfl
@[simp] theorem Blk.setCells_pwr : (b.setCells mem).pwr = b.pwr := rfl
@[simp] theorem Blk.logE_pwr : (b.logE k a).pwr = b.pwr := by unfold Blk.logE; split <;> rfl

/-! `mode` -/

@[simp] theorem Blk.setReg_mode : (b.setReg o v).mode = b.mode := rfl
@[simp] theorem Blk.orReg_mode : (b.orReg o v).mode = b.mode := rfl
@[simp] theorem Blk.clrReg_mode : (b.clrReg o v).mode = b.mode := rfl
@[simp] theorem Blk.putReg_mode : (b.putReg o k v).mode = b.mode := rfl
@[simp] theorem Blk.incReg_mode : (b.incReg o).mode = b.mode := rfl
@[simp] theorem Blk.send_mode : (b.send m).mode = b.mode := rfl
@[simp] theorem Blk.setChan_mode : (b.setChan k x).mode = b.mode := rfl
@[simp] theorem Blk.setPair_mode : (b.setPair k j xp).mode = b.mode := rfl
@[simp] theorem Blk.setDie_mode : (b.setDie k xd).mode = b.mode := rfl
@[simp] theorem Blk.setQp_mode : (b.setQp k xq).mode = b.mode := rfl
@[simp] theorem Blk.setPwr_mode : (b.setPwr xw).mode = b.mode := rfl
@[simp] theorem Blk.setSdg_mode : (b.setSdg xs).mode = b.mode := rfl
@[simp] theorem Blk.setHub_mode : (b.setHub xh).mode = b.mode := rfl
@[simp] theorem Blk.setUnit_mode : (b.setUnit k xu).mode = b.mode := rfl
@[simp] theorem Blk.setJobs_mode : (b.setJobs xj).mode = b.mode := rfl
@[simp] theorem Blk.setTrees_mode : (b.setTrees xt).mode = b.mode := rfl
@[simp] theorem Blk.setLink_mode : (b.setLink k xl).mode = b.mode := rfl
@[simp] theorem Blk.setCommit_mode : (b.setCommit cb xc).mode = b.mode := rfl
@[simp] theorem Blk.setSeg_mode : (b.setSeg k xg).mode = b.mode := rfl
@[simp] theorem Blk.setQpc_mode : (b.setQpc k xn).mode = b.mode := rfl
@[simp] theorem Blk.updFlight_mode : (b.updFlight q k g).mode = b.mode := rfl
@[simp] theorem Blk.finish_mode : (b.finish q k st fl r).mode = b.mode := rfl
@[simp] theorem Blk.noteScope_mode : (b.noteScope q k v).mode = b.mode := rfl
@[simp] theorem Blk.hold_mode : (b.hold rq).mode = b.mode := rfl
@[simp] theorem Blk.setCells_mode : (b.setCells mem).mode = b.mode := rfl
@[simp] theorem Blk.goState_mode : (b.goState p).mode = b.mode := rfl
@[simp] theorem Blk.logE_mode : (b.logE k a).mode = b.mode := by unfold Blk.logE; split <;> rfl

/-! `restarting` -/

@[simp] theorem Blk.setReg_restarting : (b.setReg o v).restarting = b.restarting := rfl
@[simp] theorem Blk.orReg_restarting : (b.orReg o v).restarting = b.restarting := rfl
@[simp] theorem Blk.clrReg_restarting : (b.clrReg o v).restarting = b.restarting := rfl
@[simp] theorem Blk.putReg_restarting : (b.putReg o k v).restarting = b.restarting := rfl
@[simp] theorem Blk.incReg_restarting : (b.incReg o).restarting = b.restarting := rfl
@[simp] theorem Blk.send_restarting : (b.send m).restarting = b.restarting := rfl
@[simp] theorem Blk.setChan_restarting : (b.setChan k x).restarting = b.restarting := rfl
@[simp] theorem Blk.setPair_restarting : (b.setPair k j xp).restarting = b.restarting := rfl
@[simp] theorem Blk.setDie_restarting : (b.setDie k xd).restarting = b.restarting := rfl
@[simp] theorem Blk.setQp_restarting : (b.setQp k xq).restarting = b.restarting := rfl
@[simp] theorem Blk.setPwr_restarting : (b.setPwr xw).restarting = b.restarting := rfl
@[simp] theorem Blk.setSdg_restarting : (b.setSdg xs).restarting = b.restarting := rfl
@[simp] theorem Blk.setHub_restarting : (b.setHub xh).restarting = b.restarting := rfl
@[simp] theorem Blk.setUnit_restarting : (b.setUnit k xu).restarting = b.restarting := rfl
@[simp] theorem Blk.setJobs_restarting : (b.setJobs xj).restarting = b.restarting := rfl
@[simp] theorem Blk.setTrees_restarting : (b.setTrees xt).restarting = b.restarting := rfl
@[simp] theorem Blk.setLink_restarting : (b.setLink k xl).restarting = b.restarting := rfl
@[simp] theorem Blk.setCommit_restarting : (b.setCommit cb xc).restarting = b.restarting := rfl
@[simp] theorem Blk.setSeg_restarting : (b.setSeg k xg).restarting = b.restarting := rfl
@[simp] theorem Blk.setQpc_restarting : (b.setQpc k xn).restarting = b.restarting := rfl
@[simp] theorem Blk.updFlight_restarting : (b.updFlight q k g).restarting = b.restarting := rfl
@[simp] theorem Blk.finish_restarting : (b.finish q k st fl r).restarting = b.restarting := rfl
@[simp] theorem Blk.noteScope_restarting : (b.noteScope q k v).restarting = b.restarting := rfl
@[simp] theorem Blk.hold_restarting : (b.hold rq).restarting = b.restarting := rfl
@[simp] theorem Blk.setCells_restarting : (b.setCells mem).restarting = b.restarting := rfl
@[simp] theorem Blk.goState_restarting : (b.goState p).restarting = b.restarting := rfl
@[simp] theorem Blk.logE_restarting : (b.logE k a).restarting = b.restarting := by unfold Blk.logE; split <;> rfl

/-! `fab` -/

@[simp] theorem Blk.setReg_fab : (b.setReg o v).fab = b.fab := rfl
@[simp] theorem Blk.orReg_fab : (b.orReg o v).fab = b.fab := rfl
@[simp] theorem Blk.clrReg_fab : (b.clrReg o v).fab = b.fab := rfl
@[simp] theorem Blk.putReg_fab : (b.putReg o k v).fab = b.fab := rfl
@[simp] theorem Blk.incReg_fab : (b.incReg o).fab = b.fab := rfl
@[simp] theorem Blk.send_fab : (b.send m).fab = b.fab := rfl
@[simp] theorem Blk.setChan_fab : (b.setChan k x).fab = b.fab := rfl
@[simp] theorem Blk.setPair_fab : (b.setPair k j xp).fab = b.fab := rfl
@[simp] theorem Blk.setDie_fab : (b.setDie k xd).fab = b.fab := rfl
@[simp] theorem Blk.setQp_fab : (b.setQp k xq).fab = b.fab := rfl
@[simp] theorem Blk.setPwr_fab : (b.setPwr xw).fab = b.fab := rfl
@[simp] theorem Blk.setSdg_fab : (b.setSdg xs).fab = b.fab := rfl
@[simp] theorem Blk.setHub_fab : (b.setHub xh).fab = b.fab := rfl
@[simp] theorem Blk.setUnit_fab : (b.setUnit k xu).fab = b.fab := rfl
@[simp] theorem Blk.setJobs_fab : (b.setJobs xj).fab = b.fab := rfl
@[simp] theorem Blk.setTrees_fab : (b.setTrees xt).fab = b.fab := rfl
@[simp] theorem Blk.setCommit_fab : (b.setCommit cb xc).fab = b.fab := rfl
@[simp] theorem Blk.setSeg_fab : (b.setSeg k xg).fab = b.fab := rfl
@[simp] theorem Blk.setQpc_fab : (b.setQpc k xn).fab = b.fab := rfl
@[simp] theorem Blk.updFlight_fab : (b.updFlight q k g).fab = b.fab := rfl
@[simp] theorem Blk.finish_fab : (b.finish q k st fl r).fab = b.fab := rfl
@[simp] theorem Blk.noteScope_fab : (b.noteScope q k v).fab = b.fab := rfl
@[simp] theorem Blk.hold_fab : (b.hold rq).fab = b.fab := rfl
@[simp] theorem Blk.setCells_fab : (b.setCells mem).fab = b.fab := rfl
@[simp] theorem Blk.goState_fab : (b.goState p).fab = b.fab := rfl
@[simp] theorem Blk.logE_fab : (b.logE k a).fab = b.fab := by unfold Blk.logE; split <;> rfl
@[simp] theorem Blk.setReg_link : (b.setReg o v).link off = b.link off := rfl
@[simp] theorem Blk.orReg_link : (b.orReg o v).link off = b.link off := rfl
@[simp] theorem Blk.clrReg_link : (b.clrReg o v).link off = b.link off := rfl
@[simp] theorem Blk.putReg_link : (b.putReg o k v).link off = b.link off := rfl
@[simp] theorem Blk.incReg_link : (b.incReg o).link off = b.link off := rfl
@[simp] theorem Blk.send_link : (b.send m).link off = b.link off := rfl
@[simp] theorem Blk.setChan_link : (b.setChan k x).link off = b.link off := rfl
@[simp] theorem Blk.setPair_link : (b.setPair k j xp).link off = b.link off := rfl
@[simp] theorem Blk.setDie_link : (b.setDie k xd).link off = b.link off := rfl
@[simp] theorem Blk.setQp_link : (b.setQp k xq).link off = b.link off := rfl
@[simp] theorem Blk.setPwr_link : (b.setPwr xw).link off = b.link off := rfl
@[simp] theorem Blk.setSdg_link : (b.setSdg xs).link off = b.link off := rfl
@[simp] theorem Blk.setHub_link : (b.setHub xh).link off = b.link off := rfl
@[simp] theorem Blk.setUnit_link : (b.setUnit k xu).link off = b.link off := rfl
@[simp] theorem Blk.setJobs_link : (b.setJobs xj).link off = b.link off := rfl
@[simp] theorem Blk.setTrees_link : (b.setTrees xt).link off = b.link off := rfl
@[simp] theorem Blk.setCommit_link : (b.setCommit cb xc).link off = b.link off := rfl
@[simp] theorem Blk.setSeg_link : (b.setSeg k xg).link off = b.link off := rfl
@[simp] theorem Blk.setQpc_link : (b.setQpc k xn).link off = b.link off := rfl
@[simp] theorem Blk.updFlight_link : (b.updFlight q k g).link off = b.link off := rfl
@[simp] theorem Blk.finish_link : (b.finish q k st fl r).link off = b.link off := rfl
@[simp] theorem Blk.noteScope_link : (b.noteScope q k v).link off = b.link off := rfl
@[simp] theorem Blk.hold_link : (b.hold rq).link off = b.link off := rfl
@[simp] theorem Blk.setCells_link : (b.setCells mem).link off = b.link off := rfl
@[simp] theorem Blk.goState_link : (b.goState p).link off = b.link off := rfl
@[simp] theorem Blk.logE_link : (b.logE k a).link off = b.link off := by unfold Blk.logE; split <;> rfl

/-! `net` -/

@[simp] theorem Blk.setReg_net : (b.setReg o v).net = b.net := rfl
@[simp] theorem Blk.orReg_net : (b.orReg o v).net = b.net := rfl
@[simp] theorem Blk.clrReg_net : (b.clrReg o v).net = b.net := rfl
@[simp] theorem Blk.putReg_net : (b.putReg o k v).net = b.net := rfl
@[simp] theorem Blk.incReg_net : (b.incReg o).net = b.net := rfl
@[simp] theorem Blk.send_net : (b.send m).net = b.net := rfl
@[simp] theorem Blk.setChan_net : (b.setChan k x).net = b.net := rfl
@[simp] theorem Blk.setPair_net : (b.setPair k j xp).net = b.net := rfl
@[simp] theorem Blk.setDie_net : (b.setDie k xd).net = b.net := rfl
@[simp] theorem Blk.setQp_net : (b.setQp k xq).net = b.net := rfl
@[simp] theorem Blk.setPwr_net : (b.setPwr xw).net = b.net := rfl
@[simp] theorem Blk.setSdg_net : (b.setSdg xs).net = b.net := rfl
@[simp] theorem Blk.setHub_net : (b.setHub xh).net = b.net := rfl
@[simp] theorem Blk.setUnit_net : (b.setUnit k xu).net = b.net := rfl
@[simp] theorem Blk.setJobs_net : (b.setJobs xj).net = b.net := rfl
@[simp] theorem Blk.setTrees_net : (b.setTrees xt).net = b.net := rfl
@[simp] theorem Blk.setLink_net : (b.setLink k xl).net = b.net := rfl
@[simp] theorem Blk.setCommit_net : (b.setCommit cb xc).net = b.net := rfl
@[simp] theorem Blk.setSeg_net : (b.setSeg k xg).net = b.net := rfl
@[simp] theorem Blk.updFlight_net : (b.updFlight q k g).net = b.net := rfl
@[simp] theorem Blk.finish_net : (b.finish q k st fl r).net = b.net := rfl
@[simp] theorem Blk.noteScope_net : (b.noteScope q k v).net = b.net := rfl
@[simp] theorem Blk.hold_net : (b.hold rq).net = b.net := rfl
@[simp] theorem Blk.setCells_net : (b.setCells mem).net = b.net := rfl
@[simp] theorem Blk.goState_net : (b.goState p).net = b.net := rfl
@[simp] theorem Blk.logE_net : (b.logE k a).net = b.net := by unfold Blk.logE; split <;> rfl

/-! `descs` -/

@[simp] theorem Blk.setReg_descs : (b.setReg o v).descs = b.descs := rfl
@[simp] theorem Blk.orReg_descs : (b.orReg o v).descs = b.descs := rfl
@[simp] theorem Blk.clrReg_descs : (b.clrReg o v).descs = b.descs := rfl
@[simp] theorem Blk.putReg_descs : (b.putReg o k v).descs = b.descs := rfl
@[simp] theorem Blk.incReg_descs : (b.incReg o).descs = b.descs := rfl
@[simp] theorem Blk.send_descs : (b.send m).descs = b.descs := rfl
@[simp] theorem Blk.setChan_descs : (b.setChan k x).descs = b.descs := rfl
@[simp] theorem Blk.setPair_descs : (b.setPair k j xp).descs = b.descs := rfl
@[simp] theorem Blk.setDie_descs : (b.setDie k xd).descs = b.descs := rfl
@[simp] theorem Blk.setQp_descs : (b.setQp k xq).descs = b.descs := rfl
@[simp] theorem Blk.setPwr_descs : (b.setPwr xw).descs = b.descs := rfl
@[simp] theorem Blk.setSdg_descs : (b.setSdg xs).descs = b.descs := rfl
@[simp] theorem Blk.setHub_descs : (b.setHub xh).descs = b.descs := rfl
@[simp] theorem Blk.setUnit_descs : (b.setUnit k xu).descs = b.descs := rfl
@[simp] theorem Blk.setJobs_descs : (b.setJobs xj).descs = b.descs := rfl
@[simp] theorem Blk.setTrees_descs : (b.setTrees xt).descs = b.descs := rfl
@[simp] theorem Blk.setLink_descs : (b.setLink k xl).descs = b.descs := rfl
@[simp] theorem Blk.setCommit_descs : (b.setCommit cb xc).descs = b.descs := rfl
@[simp] theorem Blk.setSeg_descs : (b.setSeg k xg).descs = b.descs := rfl
@[simp] theorem Blk.setQpc_descs : (b.setQpc k xn).descs = b.descs := rfl
@[simp] theorem Blk.updFlight_descs : (b.updFlight q k g).descs = b.descs := rfl
@[simp] theorem Blk.finish_descs : (b.finish q k st fl r).descs = b.descs := rfl
@[simp] theorem Blk.noteScope_descs : (b.noteScope q k v).descs = b.descs := rfl
@[simp] theorem Blk.hold_descs : (b.hold rq).descs = b.descs := rfl
@[simp] theorem Blk.setCells_descs : (b.setCells mem).descs = b.descs := rfl
@[simp] theorem Blk.goState_descs : (b.goState p).descs = b.descs := rfl
@[simp] theorem Blk.logE_descs : (b.logE k a).descs = b.descs := by unfold Blk.logE; split <;> rfl

/-! `plans` -/

@[simp] theorem Blk.setReg_plans : (b.setReg o v).plans = b.plans := rfl
@[simp] theorem Blk.orReg_plans : (b.orReg o v).plans = b.plans := rfl
@[simp] theorem Blk.clrReg_plans : (b.clrReg o v).plans = b.plans := rfl
@[simp] theorem Blk.putReg_plans : (b.putReg o k v).plans = b.plans := rfl
@[simp] theorem Blk.incReg_plans : (b.incReg o).plans = b.plans := rfl
@[simp] theorem Blk.send_plans : (b.send m).plans = b.plans := rfl
@[simp] theorem Blk.setChan_plans : (b.setChan k x).plans = b.plans := rfl
@[simp] theorem Blk.setPair_plans : (b.setPair k j xp).plans = b.plans := rfl
@[simp] theorem Blk.setDie_plans : (b.setDie k xd).plans = b.plans := rfl
@[simp] theorem Blk.setQp_plans : (b.setQp k xq).plans = b.plans := rfl
@[simp] theorem Blk.setPwr_plans : (b.setPwr xw).plans = b.plans := rfl
@[simp] theorem Blk.setSdg_plans : (b.setSdg xs).plans = b.plans := rfl
@[simp] theorem Blk.setHub_plans : (b.setHub xh).plans = b.plans := rfl
@[simp] theorem Blk.setUnit_plans : (b.setUnit k xu).plans = b.plans := rfl
@[simp] theorem Blk.setJobs_plans : (b.setJobs xj).plans = b.plans := rfl
@[simp] theorem Blk.setTrees_plans : (b.setTrees xt).plans = b.plans := rfl
@[simp] theorem Blk.setLink_plans : (b.setLink k xl).plans = b.plans := rfl
@[simp] theorem Blk.setCommit_plans : (b.setCommit cb xc).plans = b.plans := rfl
@[simp] theorem Blk.setSeg_plans : (b.setSeg k xg).plans = b.plans := rfl
@[simp] theorem Blk.setQpc_plans : (b.setQpc k xn).plans = b.plans := rfl
@[simp] theorem Blk.updFlight_plans : (b.updFlight q k g).plans = b.plans := rfl
@[simp] theorem Blk.finish_plans : (b.finish q k st fl r).plans = b.plans := rfl
@[simp] theorem Blk.noteScope_plans : (b.noteScope q k v).plans = b.plans := rfl
@[simp] theorem Blk.hold_plans : (b.hold rq).plans = b.plans := rfl
@[simp] theorem Blk.setCells_plans : (b.setCells mem).plans = b.plans := rfl
@[simp] theorem Blk.goState_plans : (b.goState p).plans = b.plans := rfl
@[simp] theorem Blk.logE_plans : (b.logE k a).plans = b.plans := by unfold Blk.logE; split <;> rfl

/-! `cu` -/

@[simp] theorem Blk.setReg_cu : (b.setReg o v).cu = b.cu := rfl
@[simp] theorem Blk.orReg_cu : (b.orReg o v).cu = b.cu := rfl
@[simp] theorem Blk.clrReg_cu : (b.clrReg o v).cu = b.cu := rfl
@[simp] theorem Blk.putReg_cu : (b.putReg o k v).cu = b.cu := rfl
@[simp] theorem Blk.incReg_cu : (b.incReg o).cu = b.cu := rfl
@[simp] theorem Blk.send_cu : (b.send m).cu = b.cu := rfl
@[simp] theorem Blk.setChan_cu : (b.setChan k x).cu = b.cu := rfl
@[simp] theorem Blk.setPair_cu : (b.setPair k j xp).cu = b.cu := rfl
@[simp] theorem Blk.setDie_cu : (b.setDie k xd).cu = b.cu := rfl
@[simp] theorem Blk.setQp_cu : (b.setQp k xq).cu = b.cu := rfl
@[simp] theorem Blk.setPwr_cu : (b.setPwr xw).cu = b.cu := rfl
@[simp] theorem Blk.setSdg_cu : (b.setSdg xs).cu = b.cu := rfl
@[simp] theorem Blk.setHub_cu : (b.setHub xh).cu = b.cu := rfl
@[simp] theorem Blk.setLink_cu : (b.setLink k xl).cu = b.cu := rfl
@[simp] theorem Blk.setCommit_cu : (b.setCommit cb xc).cu = b.cu := rfl
@[simp] theorem Blk.setSeg_cu : (b.setSeg k xg).cu = b.cu := rfl
@[simp] theorem Blk.setQpc_cu : (b.setQpc k xn).cu = b.cu := rfl
@[simp] theorem Blk.updFlight_cu : (b.updFlight q k g).cu = b.cu := rfl
@[simp] theorem Blk.finish_cu : (b.finish q k st fl r).cu = b.cu := rfl
@[simp] theorem Blk.noteScope_cu : (b.noteScope q k v).cu = b.cu := rfl
@[simp] theorem Blk.hold_cu : (b.hold rq).cu = b.cu := rfl
@[simp] theorem Blk.setCells_cu : (b.setCells mem).cu = b.cu := rfl
@[simp] theorem Blk.goState_cu : (b.goState p).cu = b.cu := rfl
@[simp] theorem Blk.logE_cu : (b.logE k a).cu = b.cu := by unfold Blk.logE; split <;> rfl
@[simp] theorem Blk.setReg_unit : (b.setReg o v).unit off = b.unit off := rfl
@[simp] theorem Blk.orReg_unit : (b.orReg o v).unit off = b.unit off := rfl
@[simp] theorem Blk.clrReg_unit : (b.clrReg o v).unit off = b.unit off := rfl
@[simp] theorem Blk.putReg_unit : (b.putReg o k v).unit off = b.unit off := rfl
@[simp] theorem Blk.incReg_unit : (b.incReg o).unit off = b.unit off := rfl
@[simp] theorem Blk.send_unit : (b.send m).unit off = b.unit off := rfl
@[simp] theorem Blk.setChan_unit : (b.setChan k x).unit off = b.unit off := rfl
@[simp] theorem Blk.setPair_unit : (b.setPair k j xp).unit off = b.unit off := rfl
@[simp] theorem Blk.setDie_unit : (b.setDie k xd).unit off = b.unit off := rfl
@[simp] theorem Blk.setQp_unit : (b.setQp k xq).unit off = b.unit off := rfl
@[simp] theorem Blk.setPwr_unit : (b.setPwr xw).unit off = b.unit off := rfl
@[simp] theorem Blk.setSdg_unit : (b.setSdg xs).unit off = b.unit off := rfl
@[simp] theorem Blk.setHub_unit : (b.setHub xh).unit off = b.unit off := rfl
@[simp] theorem Blk.setLink_unit : (b.setLink k xl).unit off = b.unit off := rfl
@[simp] theorem Blk.setCommit_unit : (b.setCommit cb xc).unit off = b.unit off := rfl
@[simp] theorem Blk.setSeg_unit : (b.setSeg k xg).unit off = b.unit off := rfl
@[simp] theorem Blk.setQpc_unit : (b.setQpc k xn).unit off = b.unit off := rfl
@[simp] theorem Blk.updFlight_unit : (b.updFlight q k g).unit off = b.unit off := rfl
@[simp] theorem Blk.finish_unit : (b.finish q k st fl r).unit off = b.unit off := rfl
@[simp] theorem Blk.noteScope_unit : (b.noteScope q k v).unit off = b.unit off := rfl
@[simp] theorem Blk.hold_unit : (b.hold rq).unit off = b.unit off := rfl
@[simp] theorem Blk.setCells_unit : (b.setCells mem).unit off = b.unit off := rfl
@[simp] theorem Blk.goState_unit : (b.goState p).unit off = b.unit off := rfl
@[simp] theorem Blk.logE_unit : (b.logE k a).unit off = b.unit off := by unfold Blk.logE; split <;> rfl

/-! `hub` -/

@[simp] theorem Blk.setReg_hub : (b.setReg o v).hub = b.hub := rfl
@[simp] theorem Blk.orReg_hub : (b.orReg o v).hub = b.hub := rfl
@[simp] theorem Blk.clrReg_hub : (b.clrReg o v).hub = b.hub := rfl
@[simp] theorem Blk.putReg_hub : (b.putReg o k v).hub = b.hub := rfl
@[simp] theorem Blk.incReg_hub : (b.incReg o).hub = b.hub := rfl
@[simp] theorem Blk.send_hub : (b.send m).hub = b.hub := rfl
@[simp] theorem Blk.setChan_hub : (b.setChan k x).hub = b.hub := rfl
@[simp] theorem Blk.setPair_hub : (b.setPair k j xp).hub = b.hub := rfl
@[simp] theorem Blk.setDie_hub : (b.setDie k xd).hub = b.hub := rfl
@[simp] theorem Blk.setQp_hub : (b.setQp k xq).hub = b.hub := rfl
@[simp] theorem Blk.setPwr_hub : (b.setPwr xw).hub = b.hub := rfl
@[simp] theorem Blk.setSdg_hub : (b.setSdg xs).hub = b.hub := rfl
@[simp] theorem Blk.setUnit_hub : (b.setUnit k xu).hub = b.hub := rfl
@[simp] theorem Blk.setJobs_hub : (b.setJobs xj).hub = b.hub := rfl
@[simp] theorem Blk.setTrees_hub : (b.setTrees xt).hub = b.hub := rfl
@[simp] theorem Blk.setLink_hub : (b.setLink k xl).hub = b.hub := rfl
@[simp] theorem Blk.setCommit_hub : (b.setCommit cb xc).hub = b.hub := rfl
@[simp] theorem Blk.setSeg_hub : (b.setSeg k xg).hub = b.hub := rfl
@[simp] theorem Blk.setQpc_hub : (b.setQpc k xn).hub = b.hub := rfl
@[simp] theorem Blk.updFlight_hub : (b.updFlight q k g).hub = b.hub := rfl
@[simp] theorem Blk.finish_hub : (b.finish q k st fl r).hub = b.hub := rfl
@[simp] theorem Blk.noteScope_hub : (b.noteScope q k v).hub = b.hub := rfl
@[simp] theorem Blk.hold_hub : (b.hold rq).hub = b.hub := rfl
@[simp] theorem Blk.setCells_hub : (b.setCells mem).hub = b.hub := rfl
@[simp] theorem Blk.goState_hub : (b.goState p).hub = b.hub := rfl
@[simp] theorem Blk.logE_hub : (b.logE k a).hub = b.hub := by unfold Blk.logE; split <;> rfl

/-! `sdg` -/

@[simp] theorem Blk.setReg_sdg : (b.setReg o v).sdg = b.sdg := rfl
@[simp] theorem Blk.orReg_sdg : (b.orReg o v).sdg = b.sdg := rfl
@[simp] theorem Blk.clrReg_sdg : (b.clrReg o v).sdg = b.sdg := rfl
@[simp] theorem Blk.putReg_sdg : (b.putReg o k v).sdg = b.sdg := rfl
@[simp] theorem Blk.incReg_sdg : (b.incReg o).sdg = b.sdg := rfl
@[simp] theorem Blk.send_sdg : (b.send m).sdg = b.sdg := rfl
@[simp] theorem Blk.setChan_sdg : (b.setChan k x).sdg = b.sdg := rfl
@[simp] theorem Blk.setPair_sdg : (b.setPair k j xp).sdg = b.sdg := rfl
@[simp] theorem Blk.setDie_sdg : (b.setDie k xd).sdg = b.sdg := rfl
@[simp] theorem Blk.setQp_sdg : (b.setQp k xq).sdg = b.sdg := rfl
@[simp] theorem Blk.setPwr_sdg : (b.setPwr xw).sdg = b.sdg := rfl
@[simp] theorem Blk.setHub_sdg : (b.setHub xh).sdg = b.sdg := rfl
@[simp] theorem Blk.setUnit_sdg : (b.setUnit k xu).sdg = b.sdg := rfl
@[simp] theorem Blk.setJobs_sdg : (b.setJobs xj).sdg = b.sdg := rfl
@[simp] theorem Blk.setTrees_sdg : (b.setTrees xt).sdg = b.sdg := rfl
@[simp] theorem Blk.setLink_sdg : (b.setLink k xl).sdg = b.sdg := rfl
@[simp] theorem Blk.setCommit_sdg : (b.setCommit cb xc).sdg = b.sdg := rfl
@[simp] theorem Blk.setSeg_sdg : (b.setSeg k xg).sdg = b.sdg := rfl
@[simp] theorem Blk.setQpc_sdg : (b.setQpc k xn).sdg = b.sdg := rfl
@[simp] theorem Blk.updFlight_sdg : (b.updFlight q k g).sdg = b.sdg := rfl
@[simp] theorem Blk.finish_sdg : (b.finish q k st fl r).sdg = b.sdg := rfl
@[simp] theorem Blk.noteScope_sdg : (b.noteScope q k v).sdg = b.sdg := rfl
@[simp] theorem Blk.hold_sdg : (b.hold rq).sdg = b.sdg := rfl
@[simp] theorem Blk.setCells_sdg : (b.setCells mem).sdg = b.sdg := rfl
@[simp] theorem Blk.goState_sdg : (b.goState p).sdg = b.sdg := rfl
@[simp] theorem Blk.logE_sdg : (b.logE k a).sdg = b.sdg := by unfold Blk.logE; split <;> rfl
@[simp] theorem Blk.setReg_sensor : (b.setReg o v).sensor off = b.sensor off := rfl
@[simp] theorem Blk.orReg_sensor : (b.orReg o v).sensor off = b.sensor off := rfl
@[simp] theorem Blk.clrReg_sensor : (b.clrReg o v).sensor off = b.sensor off := rfl
@[simp] theorem Blk.putReg_sensor : (b.putReg o k v).sensor off = b.sensor off := rfl
@[simp] theorem Blk.incReg_sensor : (b.incReg o).sensor off = b.sensor off := rfl
@[simp] theorem Blk.send_sensor : (b.send m).sensor off = b.sensor off := rfl
@[simp] theorem Blk.setChan_sensor : (b.setChan k x).sensor off = b.sensor off := rfl
@[simp] theorem Blk.setPair_sensor : (b.setPair k j xp).sensor off = b.sensor off := rfl
@[simp] theorem Blk.setDie_sensor : (b.setDie k xd).sensor off = b.sensor off := rfl
@[simp] theorem Blk.setQp_sensor : (b.setQp k xq).sensor off = b.sensor off := rfl
@[simp] theorem Blk.setPwr_sensor : (b.setPwr xw).sensor off = b.sensor off := rfl
@[simp] theorem Blk.setHub_sensor : (b.setHub xh).sensor off = b.sensor off := rfl
@[simp] theorem Blk.setUnit_sensor : (b.setUnit k xu).sensor off = b.sensor off := rfl
@[simp] theorem Blk.setJobs_sensor : (b.setJobs xj).sensor off = b.sensor off := rfl
@[simp] theorem Blk.setTrees_sensor : (b.setTrees xt).sensor off = b.sensor off := rfl
@[simp] theorem Blk.setLink_sensor : (b.setLink k xl).sensor off = b.sensor off := rfl
@[simp] theorem Blk.setCommit_sensor : (b.setCommit cb xc).sensor off = b.sensor off := rfl
@[simp] theorem Blk.setSeg_sensor : (b.setSeg k xg).sensor off = b.sensor off := rfl
@[simp] theorem Blk.setQpc_sensor : (b.setQpc k xn).sensor off = b.sensor off := rfl
@[simp] theorem Blk.updFlight_sensor : (b.updFlight q k g).sensor off = b.sensor off := rfl
@[simp] theorem Blk.finish_sensor : (b.finish q k st fl r).sensor off = b.sensor off := rfl
@[simp] theorem Blk.noteScope_sensor : (b.noteScope q k v).sensor off = b.sensor off := rfl
@[simp] theorem Blk.hold_sensor : (b.hold rq).sensor off = b.sensor off := rfl
@[simp] theorem Blk.setCells_sensor : (b.setCells mem).sensor off = b.sensor off := rfl
@[simp] theorem Blk.goState_sensor : (b.goState p).sensor off = b.sensor off := rfl
@[simp] theorem Blk.logE_sensor : (b.logE k a).sensor off = b.sensor off := by unfold Blk.logE; split <;> rfl

/-! `sec` -/

@[simp] theorem Blk.setReg_sec : (b.setReg o v).sec = b.sec := rfl
@[simp] theorem Blk.orReg_sec : (b.orReg o v).sec = b.sec := rfl
@[simp] theorem Blk.clrReg_sec : (b.clrReg o v).sec = b.sec := rfl
@[simp] theorem Blk.putReg_sec : (b.putReg o k v).sec = b.sec := rfl
@[simp] theorem Blk.incReg_sec : (b.incReg o).sec = b.sec := rfl
@[simp] theorem Blk.send_sec : (b.send m).sec = b.sec := rfl
@[simp] theorem Blk.setChan_sec : (b.setChan k x).sec = b.sec := rfl
@[simp] theorem Blk.setPair_sec : (b.setPair k j xp).sec = b.sec := rfl
@[simp] theorem Blk.setDie_sec : (b.setDie k xd).sec = b.sec := rfl
@[simp] theorem Blk.setQp_sec : (b.setQp k xq).sec = b.sec := rfl
@[simp] theorem Blk.setPwr_sec : (b.setPwr xw).sec = b.sec := rfl
@[simp] theorem Blk.setSdg_sec : (b.setSdg xs).sec = b.sec := rfl
@[simp] theorem Blk.setHub_sec : (b.setHub xh).sec = b.sec := rfl
@[simp] theorem Blk.setUnit_sec : (b.setUnit k xu).sec = b.sec := rfl
@[simp] theorem Blk.setJobs_sec : (b.setJobs xj).sec = b.sec := rfl
@[simp] theorem Blk.setTrees_sec : (b.setTrees xt).sec = b.sec := rfl
@[simp] theorem Blk.setLink_sec : (b.setLink k xl).sec = b.sec := rfl
@[simp] theorem Blk.setCommit_sec : (b.setCommit cb xc).sec = b.sec := rfl
@[simp] theorem Blk.setSeg_sec : (b.setSeg k xg).sec = b.sec := rfl
@[simp] theorem Blk.setQpc_sec : (b.setQpc k xn).sec = b.sec := rfl
@[simp] theorem Blk.updFlight_sec : (b.updFlight q k g).sec = b.sec := rfl
@[simp] theorem Blk.finish_sec : (b.finish q k st fl r).sec = b.sec := rfl
@[simp] theorem Blk.noteScope_sec : (b.noteScope q k v).sec = b.sec := rfl
@[simp] theorem Blk.hold_sec : (b.hold rq).sec = b.sec := rfl
@[simp] theorem Blk.setCells_sec : (b.setCells mem).sec = b.sec := rfl
@[simp] theorem Blk.goState_sec : (b.goState p).sec = b.sec := rfl
@[simp] theorem Blk.logE_sec : (b.logE k a).sec = b.sec := by unfold Blk.logE; split <;> rfl

end

@[simp] theorem Blk.setPwr_pwr (b : Blk) (x : PwrSt) : (b.setPwr x).pwr = x := rfl
@[simp] theorem Blk.setSdg_sdg (b : Blk) (x : SdgSt) : (b.setSdg x).sdg = x := rfl
@[simp] theorem Blk.setHub_hub (b : Blk) (x : HubSt) : (b.setHub x).hub = x := rfl
@[simp] theorem Blk.goState_pwr (b : Blk) (st : PState) : (b.goState st).pwr = { b.pwr with state := st } := rfl
theorem Blk.goState_eq (b : Blk) (st : PState) : b.goState st = (b.setPwr { b.pwr with state := st }).orReg oPWR_EVENTS 1 := rfl

/-! ### Event bits are bits of their registers -/

@[simp] theorem Blk.layEvent_eq (b : Blk) (i : Nat) : b.layEvent i = b.orReg oLAY_EVENTS (2 ^ i) := rfl
@[simp] theorem Blk.sdgEvent_eq (b : Blk) (i : Nat) : b.sdgEvent i = b.orReg oSDG_EVENTS (2 ^ i) := rfl
@[simp] theorem Blk.pwrEvent_eq (b : Blk) (i : Nat) : b.pwrEvent i = b.orReg oPWR_EVENTS (2 ^ i) := rfl
@[simp] theorem Blk.attEvent_eq (b : Blk) (i : Nat) : b.attEvent i = b.orReg oATT_EVENTS (2 ^ i) := rfl
@[simp] theorem Blk.winEvent_eq (b : Blk) (i : Nat) : b.winEvent i = b.orReg oWIN_EVENTS (2 ^ i) := rfl
@[simp] theorem Blk.fabEvent_eq (b : Blk) (i : Nat) : b.fabEvent i = b.orReg oFAB_EVENTS (2 ^ i) := rfl
@[simp] theorem Blk.netEvent_eq (b : Blk) (i : Nat) : b.netEvent i = b.orReg oNET_EVENTS (2 ^ i) := rfl
@[simp] theorem Blk.scEvent_eq (b : Blk) (s i : Nat) : b.scEvent s i = b.orReg (oSC_EVENTS s) (2 ^ i) := rfl
@[simp] theorem Blk.qpEvent_eq (b : Blk) (q i : Nat) : b.qpEvent q i = b.orReg (oQP_EVENTS q) (2 ^ i) := rfl

/-! ### Reading after an update -/

theorem Blk.chan_setChan (b : Blk) (k : Nat) (x : ChanSt) (j : Nat) : (b.setChan k x).chan j = if j = k then x else b.chan j := tget_tset _ _ _ _ _
@[simp] theorem Blk.chan_setChan_same (b : Blk) (k : Nat) (x : ChanSt) : (b.setChan k x).chan k = x := by simp [Blk.chan_setChan]
theorem Blk.die_setDie (b : Blk) (k : Nat) (x : DieSt) (j : Nat) : (b.setDie k x).die j = if j = k then x else b.die j := tget_tset _ _ _ _ _
@[simp] theorem Blk.die_setDie_same (b : Blk) (k : Nat) (x : DieSt) : (b.setDie k x).die k = x := by simp [Blk.die_setDie]
theorem Blk.qp_setQp (b : Blk) (k : Nat) (x : QpSt) (j : Nat) : (b.setQp k x).qp j = if j = k then x else b.qp j := tget_tset _ _ _ _ _
@[simp] theorem Blk.qp_setQp_same (b : Blk) (k : Nat) (x : QpSt) : (b.setQp k x).qp k = x := by simp [Blk.qp_setQp]
theorem Blk.unit_setUnit (b : Blk) (k : Nat) (x : UnitSt) (j : Nat) : (b.setUnit k x).unit j = if j = k then x else b.unit j := tget_tset _ _ _ _ _
@[simp] theorem Blk.unit_setUnit_same (b : Blk) (k : Nat) (x : UnitSt) : (b.setUnit k x).unit k = x := by simp [Blk.unit_setUnit]
theorem Blk.link_setLink (b : Blk) (k : Nat) (x : LinkSt) (j : Nat) : (b.setLink k x).link j = if j = k then x else b.link j := tget_tset _ _ _ _ _
@[simp] theorem Blk.link_setLink_same (b : Blk) (k : Nat) (x : LinkSt) : (b.setLink k x).link k = x := by simp [Blk.link_setLink]
theorem Blk.sensor_setSensor (b : Blk) (k : Nat) (x : SensorSt) (j : Nat) : (b.setSensor k x).sensor j = if j = k then x else b.sensor j := tget_tset _ _ _ _ _
@[simp] theorem Blk.sensor_setSensor_same (b : Blk) (k : Nat) (x : SensorSt) : (b.setSensor k x).sensor k = x := by simp [Blk.sensor_setSensor]

end Sys2Proof.Machine
end

