-- ==== Sys2Proof/Laws/Frame.lean ====
section
/-! SUPPORT. What raising event messages can do, what `act`, `hubAct`, `busAct` and `sideAct` answer,
and how registers read after a write. -/

namespace Sys2Proof.Machine
open Sys2Proof

/-! ### Registers -/

theorem Blk.reg_congr {a b : Blk} (h : a.regs = b.regs) (off : Nat) : a.reg off = b.reg off := by
  simp [Blk.reg, h]

/-- A register reads as the value written, cut to 32 bits. -/
@[simp] theorem Blk.reg_setReg_same (b : Blk) (off v : Nat) : (b.setReg off v).reg off = v % 2 ^ 32 := by
  simp [Blk.reg, Blk.setReg]

theorem Blk.reg_setReg_other (b : Blk) (v : Nat) {off o : Nat} (h : o ≠ off) : (b.setReg off v).reg o = b.reg o := by
  simp [Blk.reg, Blk.setReg, tget_tset_other _ _ h]

/-- Reading any register after a write of one. -/
theorem Blk.reg_setReg (b : Blk) (off v o : Nat) :
    (b.setReg off v).reg o = if o = off then v % 2 ^ 32 else b.reg o := by
  split
  · subst_vars; simp
  · exact Blk.reg_setReg_other b v (by assumption)

theorem Blk.reg_lt (b : Blk) (off : Nat) : b.reg off < 2 ^ 32 := (tget _ off b.regs).isLt

@[simp] theorem Blk.reg_orReg_same (b : Blk) (off m : Nat) (h : m < 2 ^ 32) : (b.orReg off m).reg off = b.reg off ||| m := by
  simp only [Blk.orReg, Blk.reg_setReg_same]
  exact Nat.mod_eq_of_lt (Nat.or_lt_two_pow (b.reg_lt off) h)

theorem Blk.reg_orReg_other (b : Blk) (m : Nat) {off o : Nat} (h : o ≠ off) : (b.orReg off m).reg o = b.reg o :=
  Blk.reg_setReg_other b _ h

/-! ### Event messages -/

theorem EvFrame.rfl' (b : Blk) : EvFrame b b := ⟨b.ev, b.sent, rfl⟩

theorem EvFrame.trans {a b c : Blk} (h : EvFrame a b) (g : EvFrame b c) : EvFrame a c := by
  obtain ⟨e, m, rfl⟩ := h
  obtain ⟨e', m', rfl⟩ := g
  exact ⟨e', m', rfl⟩

theorem Blk.msix_frame (b : Blk) (v : Nat) : EvFrame b (b.msix v) := by
  unfold Blk.msix Blk.send
  split
  · exact ⟨b.ev, b.sent, rfl⟩
  · split
    · exact ⟨b.ev, _, rfl⟩
    · exact ⟨_, b.sent, rfl⟩

theorem Blk.raise_frame (b : Blk) (n : Nat) : EvFrame b (b.raise n) := by
  unfold Blk.raise
  split
  · exact EvFrame.rfl' b
  · split
    · exact ⟨_, b.sent, rfl⟩
    · exact b.msix_frame _

theorem EvFrame.foldl {α : Type} (f : Blk → α → Blk) (h : ∀ b n, EvFrame b (f b n)) (l : List α) (b : Blk) :
    EvFrame b (l.foldl f b) := by
  induction l generalizing b with
  | nil => exact EvFrame.rfl' b
  | cons x t ih => exact (h b x).trans (ih _)

/-- Raising event messages changes the event unit and what is sent, and nothing else. -/
theorem settle_frame (a b : Blk) : EvFrame b (settle a b) := by
  unfold settle
  refine EvFrame.foldl _ (fun x n => ?_) _ b
  split
  · exact x.raise_frame n
  · exact EvFrame.rfl' x


/-- Everything but the event unit and what is sent is as the command left it. -/
theorem settle_eq (a b : Blk) : settle a b = { b with ev := (settle a b).ev, sent := (settle a b).sent } := by
  have ⟨_, _, h⟩ := settle_frame a b
  rw [h]

section
variable (a b : Blk) (o n m : Nat)

@[simp] theorem settle_regs : (settle a b).regs = b.regs := by rw [settle_eq]
@[simp] theorem settle_reg : (settle a b).reg o = b.reg o := by simp [Blk.reg]
@[simp] theorem settle_eff : (settle a b).eff o = b.eff o := by simp [Blk.eff, Blk.reg]
@[simp] theorem settle_reg64 : (settle a b).reg64 o = b.reg64 o := by simp [Blk.reg64, Blk.reg]
@[simp] theorem settle_eff64 : (settle a b).eff64 o = b.eff64 o := by simp [Blk.eff64, Blk.reg64, Blk.reg]
@[simp] theorem settle_time : (settle a b).time = b.time := by rw [settle_eq]
@[simp] theorem settle_commits : (settle a b).commits = b.commits := by rw [settle_eq]
@[simp] theorem settle_log : (settle a b).log = b.log := by rw [settle_eq]
@[simp] theorem settle_ctr : (settle a b).ctr = b.ctr := by rw [settle_eq]
@[simp] theorem settle_struc : (settle a b).struc = b.struc := by rw [settle_eq]
@[simp] theorem settle_lay : (settle a b).lay = b.lay := by rw [settle_eq]
@[simp] theorem settle_mem : (settle a b).mem = b.mem := by rw [settle_eq]
@[simp] theorem settle_chans : (settle a b).chans = b.chans := by rw [settle_eq]
@[simp] theorem settle_chan : (settle a b).chan n = b.chan n := by simp [Blk.chan]
@[simp] theorem settle_pairs : (settle a b).pairs = b.pairs := by rw [settle_eq]
@[simp] theorem settle_pair : (settle a b).pair n m = b.pair n m := by simp [Blk.pair]
@[simp] theorem settle_dies : (settle a b).dies = b.dies := by rw [settle_eq]
@[simp] theorem settle_die : (settle a b).die n = b.die n := by simp [Blk.die]
@[simp] theorem settle_pins : (settle a b).pins = b.pins := by rw [settle_eq]
@[simp] theorem settle_qps : (settle a b).qps = b.qps := by rw [settle_eq]
@[simp] theorem settle_qp : (settle a b).qp n = b.qp n := by simp [Blk.qp]
@[simp] theorem settle_flights : (settle a b).flights = b.flights := by rw [settle_eq]
@[simp] theorem settle_att : (settle a b).att = b.att := by rw [settle_eq]
@[simp] theorem settle_win : (settle a b).win = b.win := by rw [settle_eq]
@[simp] theorem settle_held : (settle a b).held = b.held := by rw [settle_eq]
@[simp] theorem settle_pwr : (settle a b).pwr = b.pwr := by rw [settle_eq]
@[simp] theorem settle_mode : (settle a b).mode = b.mode := by rw [settle_eq]
@[simp] theorem settle_restarting : (settle a b).restarting = b.restarting := by rw [settle_eq]
@[simp] theorem settle_fab : (settle a b).fab = b.fab := by rw [settle_eq]
@[simp] theorem settle_link : (settle a b).link n = b.link n := by simp [Blk.link]
@[simp] theorem settle_net : (settle a b).net = b.net := by rw [settle_eq]
@[simp] theorem settle_descs : (settle a b).descs = b.descs := by rw [settle_eq]
@[simp] theorem settle_plans : (settle a b).plans = b.plans := by rw [settle_eq]
@[simp] theorem settle_cu : (settle a b).cu = b.cu := by rw [settle_eq]
@[simp] theorem settle_unit : (settle a b).unit n = b.unit n := by simp [Blk.unit]
@[simp] theorem settle_hub : (settle a b).hub = b.hub := by rw [settle_eq]
@[simp] theorem settle_sdg : (settle a b).sdg = b.sdg := by rw [settle_eq]
@[simp] theorem settle_sensor : (settle a b).sensor n = b.sensor n := by simp [Blk.sensor]
@[simp] theorem settle_sec : (settle a b).sec = b.sec := by rw [settle_eq]

end

/-! ### The frames of commands -/

/-- Every command answers a next state. -/
theorem act_next (s : State) (f : Blk → Blk) : act s f = .next { s with blk := settle s.blk (f s.blk) } := rfl

theorem hubAct_on {s : State} (h : s.blk.hubUp = true) (f : Blk → Blk) : hubAct s f = act s f := by simp [hubAct, h]

theorem hubAct_next (s : State) (f : Blk → Blk) :
    ∃ b, hubAct s f = .next { s with blk := b } ∧ (s.blk.hubUp = true → b = settle s.blk (f s.blk)) := by
  unfold hubAct
  split
  · exact ⟨_, rfl, fun _ => rfl⟩
  · exact ⟨s.blk, rfl, fun h => by simp_all⟩

/-- How the completion of a command whose meaning is an `act` is shown. -/
theorem Completes.of_act {c : Instr} {s : State} {f : Blk → Blk} {P : Blk → Prop} (h : exec c s = act s f)
    (hp : P (settle s.blk (f s.blk))) : Completes c s P := ⟨_, h.trans (act_next s f), rfl, hp⟩

/-- The same for a command of the hub domain. -/
theorem Completes.of_hub {c : Instr} {s : State} {f : Blk → Blk} {P : Blk → Prop} (h : exec c s = hubAct s f)
    (hu : s.blk.hubUp = true) (hp : P (settle s.blk (f s.blk))) : Completes c s P :=
  .of_act (h.trans (hubAct_on hu f)) hp

end Sys2Proof.Machine
end

