-- ==== Sys2Proof/Laws/Flight.lean ====
section
/-! SUPPORT. Entries in flight: what an update of one leaves, and that a finished entry is finished. -/

namespace Sys2Proof.Machine
open Sys2Proof

theorem Blk.flight?_congr {a b : Blk} (h : a.flights = b.flights) (q seq : Nat) : a.flight? q seq = b.flight? q seq := by
  simp [Blk.flight?, h]

@[simp] theorem settle_flight? (a b : Blk) (q seq : Nat) : (settle a b).flight? q seq = b.flight? q seq := by
  simp [Blk.flight?]

/-- An entry found by its pair and number carries them. -/
theorem Blk.flight?_is {b : Blk} {q seq : Nat} {f : Flight} (h : b.flight? q seq = some f) : f.q = q ∧ f.seq = seq := by
  simpa [Flight.is] using List.find?_some h

/-- What a started entry is. -/
theorem Blk.running_some {b : Blk} {q seq op : Nat} {f : Flight} (h : b.running q seq op = some f) :
    b.flight? q seq = some f ∧ f.stage = .running ∧ eOpcode f.raw = op ∧ f.q = q ∧ f.seq = seq := by
  unfold Blk.running Blk.running? at h
  split at h
  · rename_i g hg
    split at hg
    · rename_i f' hf
      split at hg
      · split at h
        · injection hg with e; injection h with e'; subst e; subst e'
          exact ⟨hf, by assumption, by assumption, (Blk.flight?_is hf).1, (Blk.flight?_is hf).2⟩
        · cases h
      · cases hg
    · cases hg
  · cases h

theorem find_map_is (l : List Flight) (q seq : Nat) (g : Flight → Flight) (hg : ∀ f, f.is q seq = true → (g f).is q seq = true) :
    (l.map (fun f => if f.is q seq then g f else f)).find? (fun f => f.is q seq)
      = (l.find? (fun f => f.is q seq)).map g := by
  induction l with
  | nil => rfl
  | cons x t ih =>
    by_cases hx : x.is q seq = true
    · simp [hx, hg x hx]
    · have hx' : x.is q seq = false := by simpa using hx
      simp only [List.map_cons, hx', Bool.false_eq_true, if_false, List.find?_cons]
      simpa using ih

/-- An updated entry. -/
theorem Blk.flight?_updFlight {b : Blk} {q seq : Nat} (g : Flight → Flight) (hg : ∀ f, f.is q seq = true → (g f).is q seq = true) :
    (b.updFlight q seq g).flight? q seq = (b.flight? q seq).map g := find_map_is _ _ _ _ hg

/-- An entry that is in flight has finished with the status that its flags and pre-emption leave. -/
theorem Blk.flight?_finish (b : Blk) (q seq st flags result : Nat) :
    (b.finish q seq st flags result).flight? q seq = (b.flight? q seq).map (fun f =>
      { f with stage := .done, status := finalStatus st (f.flags ||| flags) f.preempted, flags := f.flags ||| flags, result := result }) :=
  Blk.flight?_updFlight _ (fun _ h => h)

theorem Blk.finish_frame (b : Blk) (q seq st flags result : Nat) :
    ∃ l, b.finish q seq st flags result = { b with flights := l } := ⟨_, rfl⟩

/-- What a command leaves is what its effect is, but for event messages. -/
theorem EvFrame.of_eq {a b t : Blk} (h : b = t) : EvFrame t (settle a b) := h ▸ settle_frame a b

/-- Completion of a command whose whole effect is known. -/
theorem Completes.frame {c : Instr} {s : State} {f : Blk → Blk} {t : Blk} (h : exec c s = act s f) (ht : f s.blk = t) :
    Completes c s (EvFrame t) := .of_act h (ht ▸ settle_frame _ _)

theorem Completes.hubFrame {c : Instr} {s : State} {f : Blk → Blk} {t : Blk} (h : exec c s = hubAct s f)
    (hu : s.blk.hubUp = true) (ht : f s.blk = t) : Completes c s (EvFrame t) := .of_hub h hu (ht ▸ settle_frame _ _)

end Sys2Proof.Machine
end

