-- ==== Sys2Proof/Laws/Access.lean ====
section
/-! SUPPORT. What an access by a path does once it is carried out, and the frame of the sideband's
commands. -/

namespace Sys2Proof.Machine
open Sys2Proof

@[simp] theorem Blk.atPort_self {b : Blk} {p : Path} (h : p ≠ .host) : b.atPort p = b := by
  cases p <;> first | rfl | exact absurd rfl h

theorem Blk.gate_on {b : Blk} (h : b.hostOn = true) (x : HeldReq) (served : Bool) (f : Blk → Blk) :
    b.gate x served f = f (b.atPort .host) := by
  simp only [Blk.hostOn, Bool.and_eq_true, Bool.or_eq_true, beq_iff_eq, Bool.not_eq_true'] at h
  obtain ⟨⟨hr, hs⟩, hp⟩ := h
  have hp' : b.linkSeen.postedHeld = false := hp
  rcases hs with hs | hs
  · have hs' : b.linkSeen.pwr.state = .run := hs
    simp [Blk.gate, hr, hs', hp', Blk.atPort]
  · have hs' : b.linkSeen.pwr.state = .doze := hs
    simp [Blk.gate, hr, hs', hp', Blk.atPort]

/-- An access that reaches no module memory of its own, or memory that need not wait, is carried out (R457). -/
theorem Blk.carry_now {b : Blk} {i : Instr} (h : (b.cmdReach i).2 = 0 ∨ b.mustWait cHub (b.cmdReach i).1 (b.cmdReach i).2 = false) :
    b.carry i = hostCmd i b := by
  rcases h with h | h <;> simp [Blk.carry, h]

/-- The commands that reach no module memory of their own. -/
theorem Blk.carry_plain {b : Blk} {i : Instr} (h : cmdWord i = (0, 0)) : b.carry i = hostCmd i b :=
  Blk.carry_now (.inl (by simp [Blk.cmdReach, h, Blk.cmdSpan, bIDENT, bNET, oCAP_CTRL, bSDG]))

/-- An access whose path is on, and whose memory need not wait, is carried out at once. -/
theorem Blk.access_on {b : Blk} {p : Path} (h : b.pathOn p = true) {i : Instr}
    (hi : (b.atPort p).carry i = hostCmd i (b.atPort p)) : b.access p i = hostCmd i (b.atPort p) := by
  cases p with
  | host =>
    rw [Blk.access, Blk.gate_on h]
    exact hi
  | _ =>
    rw [Blk.atPort_self (by simp)] at hi ⊢
    simp only [Blk.pathOn] at h
    simp [Blk.access, h, hi]

theorem busAct_on {s : State} {p : Path} (h : s.blk.pathOn p = true) {i : Instr}
    (hi : (s.blk.atPort p).carry i = hostCmd i (s.blk.atPort p)) : busAct p i s = act s (fun _ => hostCmd i (s.blk.atPort p)) := by
  simp [busAct, act, Blk.access_on h hi]

theorem sideAct_on {s : State} (h : s.blk.sideLive = true) (f : Blk → Blk) : sideAct s f = act s f := by
  simp [sideAct, act, h]

theorem Completes.of_bus {c : Instr} {s : State} {p : Path} {i : Instr} {P : Blk → Prop} (h : exec c s = busAct p i s)
    (hp : s.blk.pathOn p = true) (hi : (s.blk.atPort p).carry i = hostCmd i (s.blk.atPort p))
    (hP : P (settle s.blk (hostCmd i (s.blk.atPort p)))) : Completes c s P :=
  .of_act (h.trans (busAct_on hp hi)) hP

theorem Completes.busFrame {c : Instr} {s : State} {p : Path} {i : Instr} {t : Blk} (h : exec c s = busAct p i s)
    (hp : s.blk.pathOn p = true) (hi : (s.blk.atPort p).carry i = hostCmd i (s.blk.atPort p)) (ht : hostCmd i (s.blk.atPort p) = t) : Completes c s (EvFrame t) :=
  .of_bus h hp hi (ht ▸ settle_frame _ _)

theorem Completes.of_side {c : Instr} {s : State} {f : Blk → Blk} {P : Blk → Prop} (h : exec c s = sideAct s f)
    (hl : s.blk.sideLive = true) (hP : P (settle s.blk (f s.blk))) : Completes c s P :=
  .of_act (h.trans (sideAct_on hl f)) hP

theorem Completes.sideFrame {c : Instr} {s : State} {f : Blk → Blk} {t : Blk} (h : exec c s = sideAct s f)
    (hl : s.blk.sideLive = true) (ht : f s.blk = t) : Completes c s (EvFrame t) := .of_side h hl (ht ▸ settle_frame _ _)

@[simp] theorem Blk.atPort_regs (b : Blk) (p : Path) : (b.atPort p).regs = b.regs := by cases p <;> rfl
@[simp] theorem Blk.atPort_pwr (b : Blk) (p : Path) : (b.atPort p).pwr = b.pwr := by cases p <;> rfl
@[simp] theorem Blk.atPort_mem (b : Blk) (p : Path) : (b.atPort p).mem = b.mem := by cases p <;> rfl
@[simp] theorem Blk.atPort_log (b : Blk) (p : Path) : (b.atPort p).log = b.log := by cases p <;> rfl
@[simp] theorem Blk.atPort_mode (b : Blk) (p : Path) : (b.atPort p).mode = b.mode := by cases p <;> rfl
@[simp] theorem Blk.atPort_flights (b : Blk) (p : Path) : (b.atPort p).flights = b.flights := by cases p <;> rfl
@[simp] theorem Blk.atPort_qps (b : Blk) (p : Path) : (b.atPort p).qps = b.qps := by cases p <;> rfl
@[simp] theorem Blk.atPort_commits (b : Blk) (p : Path) : (b.atPort p).commits = b.commits := by cases p <;> rfl
@[simp] theorem Blk.atPort_lay (b : Blk) (p : Path) : (b.atPort p).lay = b.lay := by cases p <;> rfl
@[simp] theorem Blk.atPort_sdg (b : Blk) (p : Path) : (b.atPort p).sdg = b.sdg := by cases p <;> rfl
@[simp] theorem Blk.atPort_sec (b : Blk) (p : Path) : (b.atPort p).sec = b.sec := by cases p <;> rfl
@[simp] theorem Blk.atPort_fab (b : Blk) (p : Path) : (b.atPort p).fab = b.fab := by cases p <;> rfl
@[simp] theorem Blk.atPort_net (b : Blk) (p : Path) : (b.atPort p).net = b.net := by cases p <;> rfl
@[simp] theorem Blk.atPort_held (b : Blk) (p : Path) : (b.atPort p).held = b.held := by cases p <;> rfl
@[simp] theorem Blk.atPort_reg (b : Blk) (p : Path) (o : Nat) : (b.atPort p).reg o = b.reg o := by cases p <;> rfl
@[simp] theorem Blk.atPort_eff (b : Blk) (p : Path) (o : Nat) : (b.atPort p).eff o = b.eff o := by cases p <;> rfl
@[simp] theorem Blk.atPort_link (b : Blk) (p : Path) (l : Nat) : (b.atPort p).link l = b.link l := by cases p <;> rfl

end Sys2Proof.Machine
end

