-- ==== Sys2Proof/Laws/Memory.lean ====
section
/-! SUPPORT. The canonical form of memory: what it says, and that every operation on cells keeps it. -/

namespace Sys2Proof.Machine
open Sys2Proof

/-- The canonical form, member by member: no cell is what it would read as unlisted, and addresses rise. -/
theorem Memory.wf_iff (m : Memory) :
    Memory.wf m = true ↔ (∀ c ∈ m, c.2 ≠ cellDefault c.1) ∧ m.Pairwise (fun c d => c.1 < d.1) := by
  induction m with
  | nil => simp [Memory.wf]
  | cons c t ih =>
    obtain ⟨a, v⟩ := c
    cases t with
    | nil => simp [Memory.wf]
    | cons d t =>
      obtain ⟨e, w⟩ := d
      simp only [Memory.wf, Bool.and_eq_true, bne_iff_ne, ne_eq, decide_eq_true_eq, ih, List.forall_mem_cons,
        List.pairwise_cons]
      constructor
      · rintro ⟨⟨hv, hlt⟩, ⟨hw, hd⟩, hp, ht⟩
        exact ⟨⟨hv, hw, hd⟩, ⟨hlt, fun x hx => Nat.lt_trans hlt (hp x hx)⟩, hp, ht⟩
      · rintro ⟨⟨hv, hw, hd⟩, ⟨hlt, -⟩, hp, ht⟩
        exact ⟨⟨hv, hlt⟩, ⟨hw, hd⟩, hp, ht⟩

/-- A cell after a write was there before, or is the one written. -/
theorem mem_cellPut {m : Memory} {k : Nat} {v : Byte} {c : Host.Cell} (h : c ∈ cellPut m k v) :
    c ∈ m ∨ (c = (k, v) ∧ v ≠ cellDefault k) := by
  induction m with
  | nil =>
    simp only [cellPut] at h
    split at h
    · simp at h
    · exact .inr ⟨by simpa using h, by assumption⟩
  | cons d t ih =>
    obtain ⟨a, w⟩ := d
    simp only [cellPut] at h
    split at h
    · split at h
      · exact .inl (List.mem_cons_of_mem _ h)
      · rcases List.mem_cons.1 h with h | h
        · exact .inr ⟨h, by assumption⟩
        · exact .inl (List.mem_cons_of_mem _ h)
    · split at h
      · split at h
        · exact .inl h
        · rcases List.mem_cons.1 h with h | h
          · exact .inr ⟨h, by assumption⟩
          · exact .inl h
      · rcases List.mem_cons.1 h with h | h
        · exact .inl (h ▸ List.mem_cons_self)
        · exact (ih h).imp (List.mem_cons_of_mem _) id

theorem Memory.pairwise_cellPut {m : Memory} (k : Nat) (v : Byte) (h : m.Pairwise (fun c d => c.1 < d.1)) :
    (cellPut m k v).Pairwise (fun c d => c.1 < d.1) := by
  induction m with
  | nil => simp only [cellPut]; split <;> simp
  | cons d t ih =>
    obtain ⟨a, w⟩ := d
    have ⟨hd, ht⟩ := List.pairwise_cons.1 h
    simp only [cellPut]
    split
    · subst_vars
      split
      · exact ht
      · exact List.pairwise_cons.2 ⟨hd, ht⟩
    · split
      · rename_i hk
        split
        · exact h
        · refine List.pairwise_cons.2 ⟨fun x hx => ?_, h⟩
          rcases List.mem_cons.1 hx with rfl | hx
          · exact hk
          · exact Nat.lt_trans hk (hd x hx)
      · refine List.pairwise_cons.2 ⟨fun x hx => ?_, ih ht⟩
        rcases mem_cellPut hx with hx | ⟨rfl, -⟩
        · exact hd x hx
        · show a < k; omega

/-- Writing a byte keeps the canonical form. -/
theorem Memory.wf_cellPut {m : Memory} (k : Nat) (v : Byte) (h : Memory.wf m = true) : Memory.wf (cellPut m k v) = true := by
  rw [Memory.wf_iff] at h ⊢
  refine ⟨fun c hc => ?_, Memory.pairwise_cellPut k v h.2⟩
  rcases mem_cellPut hc with hc | ⟨rfl, hv⟩
  · exact h.1 c hc
  · exact hv

/-- Writing a run of bytes keeps the canonical form. -/
theorem Memory.wf_cellsPut {m : Memory} (l : List (Nat × Byte)) (h : Memory.wf m = true) : Memory.wf (cellsPut m l) = true := by
  induction l generalizing m with
  | nil => exact h
  | cons c t ih => exact ih (Memory.wf_cellPut c.1 c.2 h)

/-- Forgetting cells keeps the canonical form. -/
theorem Memory.wf_cellsDrop {m : Memory} (p : Nat → Bool) (h : Memory.wf m = true) : Memory.wf (cellsDrop m p) = true := by
  rw [Memory.wf_iff] at h ⊢
  exact ⟨fun c hc => h.1 c (List.mem_of_mem_filter hc), h.2.filter _⟩

/-- Memory at reset lists nothing, which is its canonical form. -/
theorem Memory.wf_nil : Memory.wf [] = true := rfl

theorem reset_cells_wf : Memory.wf State.reset.blk.mem.cells = true := rfl

/-! ### What an access to memory can do -/

/-- An access changes registers (counts and events), the channels' counters, open rows and correction windows, the error log and memory,
and nothing else; and it keeps memory's canonical form. -/
def MemFrame (a b : Blk) : Prop :=
  (∃ r c l m, b = { a with regs := r, chans := c, log := l, mem := m })
    ∧ (Memory.wf a.mem.cells = true → Memory.wf b.mem.cells = true)

theorem MemFrame.rfl' (b : Blk) : MemFrame b b := ⟨⟨_, _, _, _, rfl⟩, id⟩

theorem MemFrame.trans {a b c : Blk} (h : MemFrame a b) (g : MemFrame b c) : MemFrame a c := by
  obtain ⟨⟨r, ch, l, m, rfl⟩, hw⟩ := h
  obtain ⟨⟨r', ch', l', m', rfl⟩, gw⟩ := g
  exact ⟨⟨r', ch', l', m', rfl⟩, fun x => gw (hw x)⟩

theorem Blk.setReg_memFrame (b : Blk) (o v : Nat) : MemFrame b (b.setReg o v) := ⟨⟨_, _, _, _, rfl⟩, id⟩
theorem Blk.orReg_memFrame (b : Blk) (o v : Nat) : MemFrame b (b.orReg o v) := Blk.setReg_memFrame _ _ _
theorem Blk.incReg_memFrame (b : Blk) (o : Nat) : MemFrame b (b.incReg o) := ⟨⟨_, _, _, _, rfl⟩, id⟩
theorem Blk.setChan_memFrame (b : Blk) (n : Nat) (x : ChanSt) : MemFrame b (b.setChan n x) := ⟨⟨_, _, _, _, rfl⟩, id⟩

theorem Blk.logE_memFrame (b : Blk) (k : Nat) (a : LogArg) : MemFrame b (b.logE k a) := by
  unfold Blk.logE
  split
  · exact ⟨⟨_, _, _, _, rfl⟩, id⟩
  · exact .rfl' b

theorem Blk.setCells_memFrame (b : Blk) {c : List Host.Cell} (h : Memory.wf b.mem.cells = true → Memory.wf c = true) :
    MemFrame b (b.setCells c) := ⟨⟨_, _, _, _, rfl⟩, h⟩

theorem logMem_memFrame (b : Blk) (k : Nat) (rq : Req) (g : Nat) (mpa : Option Nat) (st : Nat) :
    MemFrame b (logMem b k rq g mpa st) := Blk.logE_memFrame _ _ _

theorem Blk.corrected_memFrame (b : Blk) (ch : Nat) : MemFrame b (b.corrected ch) := by
  unfold Blk.corrected
  dsimp only
  split
  · exact (((Blk.incReg_memFrame _ _).trans (Blk.setChan_memFrame _ _ _)).trans (Blk.logE_memFrame _ _ _)).trans
      (Blk.orReg_memFrame _ _ _)
  · exact (Blk.incReg_memFrame _ _).trans (Blk.setChan_memFrame _ _ _)

theorem putQuarter_memFrame (b : Blk) (g q : Nat) (d : Bytes) (v : Nat) : MemFrame b (putQuarter b g q d v) :=
  Blk.setCells_memFrame b (Memory.wf_cellsPut _)

theorem putOpen_memFrame (b : Blk) (g : Nat) (d : Bytes) (tag gen : Nat) : MemFrame b (putOpen b g d tag gen) :=
  Blk.setCells_memFrame b (Memory.wf_cellsPut _)

theorem poisonOpen_memFrame (b : Blk) (g : Nat) : MemFrame b (poisonOpen b g) :=
  Blk.setCells_memFrame b (Memory.wf_cellsPut _)

/-- What every step of a fold keeps, the fold keeps. -/
theorem MemFrame.foldl {α β : Type} {π : β → Blk} {f : β → α → β} (h : ∀ s x, MemFrame (π s) (π (f s x))) (l : List α) (s : β) :
    MemFrame (π s) (π (l.foldl f s)) := by
  induction l generalizing s with
  | nil => exact .rfl' _
  | cons x t ih => exact (h s x).trans (ih _)

theorem MemFrame.ite {p : Prop} [Decidable p] {a b c : Blk} (h : MemFrame a b) (g : MemFrame a c) : MemFrame a (if p then b else c) := by
  split <;> assumption

theorem Blk.take_memFrame (b : Blk) (ch cls half : Nat) : MemFrame b (b.take ch cls half) := Blk.setChan_memFrame _ _ _
theorem Blk.closeBank_memFrame (b : Blk) (ch bank : Nat) : MemFrame b (b.closeBank ch bank) := Blk.setChan_memFrame _ _ _

theorem Blk.chargeSeg_memFrame (b : Blk) (cls seg half : Nat) : MemFrame b (b.chargeSeg cls seg half) :=
  MemFrame.foldl (π := id) (fun _ _ => Blk.take_memFrame _ _ _ _) _ b

theorem initSeg_memFrame (b : Blk) (cls seg : Nat) : MemFrame b (initSeg b cls seg) :=
  (Blk.chargeSeg_memFrame b cls seg 132).trans
    (MemFrame.trans (Blk.setCells_memFrame _ (fun h => Memory.wf_cellsDrop _ h)) ⟨⟨_, _, _, _, rfl⟩, id⟩)

theorem Blk.fixQuarter_memFrame (b : Blk) (cls g q : Nat) (d : Bytes) : MemFrame b (b.fixQuarter cls g q d) := by
  unfold Blk.fixQuarter
  generalize (if cls = cScrub then 4 else 8) = half
  dsimp only
  split
  · exact (putQuarter_memFrame _ _ _ _ _).trans (Blk.take_memFrame _ _ _ _)
  · exact ⟨⟨_, _, _, _, rfl⟩, id⟩

/-- What an access to a range is charged changes the counters and the open rows of its channels. -/
theorem Blk.chargeRange_memFrame (b : Blk) (cls mpa len : Nat) (write : Bool) : MemFrame b (b.chargeRange cls mpa len write) := by
  unfold Blk.chargeRange
  refine MemFrame.foldl (π := fun s : Blk × Option (Nat × Nat × Nat) => s.1) (fun s x => ?_) _ (b, none)
  dsimp only
  split
  · exact .rfl' _
  · split
    · exact .rfl' _
    · exact (MemFrame.ite (Blk.closeBank_memFrame _ _ _) (.rfl' _)).trans (Blk.take_memFrame _ _ _ _)

/-- R76: a read of a quarter delivers its data, corrects a correctable one, or logs what it finds. -/
theorem readQuarter_memFrame (b : Blk) (rq : Req) (g q mpa : Nat) : MemFrame b (readQuarter b rq g q mpa).b := by
  unfold readQuarter
  dsimp only
  repeat' split
  · exact logMem_memFrame _ _ _ _ _ _
  · exact (Blk.corrected_memFrame _ _).trans (Blk.fixQuarter_memFrame _ _ _ _ _)
  · exact .rfl' b
  · exact logMem_memFrame _ _ _ _ _ _
  · exact .rfl' b

/-- R77: a read of an open group delivers its data or logs what it finds. -/
theorem readOpen_memFrame (b : Blk) (rq : Req) (g : Nat) (mpa : Option Nat) : MemFrame b (readOpen b rq g mpa).b := by
  unfold readOpen
  dsimp only
  repeat' split
  all_goals first | exact logMem_memFrame _ _ _ _ _ _ | exact .rfl' b

theorem readPiece_memFrame (b : Blk) (rq : Req) (mpa len : Nat) : MemFrame b (readPiece b rq mpa len).b := by
  unfold readPiece
  dsimp only
  repeat' split
  · exact .rfl' b
  · exact .rfl' b
  · exact readOpen_memFrame _ _ _ _
  · exact readQuarter_memFrame _ _ _ _ _

theorem readPieces_memFrame (n : Nat) (b : Blk) (rq : Req) (mpa len : Nat) : MemFrame b (readPieces n b rq mpa len).b := by
  induction n generalizing b mpa len with
  | zero => exact .rfl' b
  | succ n ih =>
    unfold readPieces
    split
    · exact .rfl' b
    · exact (readPiece_memFrame _ _ _ _).trans (ih _ _ _)

/-- Everything a read of a range can do. -/
theorem readRange_memFrame (b : Blk) (rq : Req) (mpa len : Nat) : MemFrame b (readRange b rq mpa len).b :=
  (Blk.chargeRange_memFrame _ _ _ _ _).trans (readPieces_memFrame _ _ _ _ _)

theorem freshen_memFrame (b : Blk) (cls seg : Nat) : MemFrame b (if (b.seg seg).fresh then initSeg b cls seg else b) := by
  split
  · exact initSeg_memFrame _ _ _
  · exact .rfl' b

theorem writePiece_memFrame (b : Blk) (rq : Req) (mpa : Nat) (d : Bytes) : MemFrame b (writePiece b rq mpa d).1 := by
  unfold writePiece
  dsimp only
  split
  · exact .rfl' b
  · refine (freshen_memFrame b rq.cls (mpa / 0x200000)).trans ?_
    generalize (if (b.seg (mpa / 0x200000)).fresh then initSeg b rq.cls (mpa / 0x200000) else b) = c
    repeat' split
    · exact putOpen_memFrame _ _ _ _ _
    · exact readOpen_memFrame _ _ _ _
    · exact (readOpen_memFrame _ _ _ _).trans (putOpen_memFrame _ _ _ _ _)
    · exact putQuarter_memFrame _ _ _ _ _
    · exact readQuarter_memFrame _ _ _ _ _
    · exact (readQuarter_memFrame _ _ _ _ _).trans (putQuarter_memFrame _ _ _ _ _)

theorem writePieces_memFrame (n : Nat) (b : Blk) (rq : Req) (mpa : Nat) (d : Bytes) : MemFrame b (writePieces n b rq mpa d).1 := by
  induction n generalizing b mpa d with
  | zero => exact .rfl' b
  | succ n ih =>
    unfold writePieces
    split
    · exact .rfl' b
    · exact (writePiece_memFrame _ _ _ _).trans (ih _ _ _)

/-- Everything a write of a range can do. -/
theorem writeRange_memFrame (b : Blk) (rq : Req) (mpa : Nat) (d : Bytes) : MemFrame b (writeRange b rq mpa d).1 :=
  (Blk.chargeRange_memFrame _ _ _ _ _).trans (writePieces_memFrame _ _ _ _ _)

end Sys2Proof.Machine
end

