-- ==== Sys2Proof/Tests/Slice0.lean ====
section
/-! SUPPORT. Tests: ill-formed commands, single steps, and a witness for every statement with
hypotheses. -/

namespace Sys2Proof.Tests
open Sys2Proof Sys2Proof.Machine

set_option Elab.async false

/-! ### States that the tests use -/

/-- A state with the block given and no command waiting. -/
def st (b : Blk) : State := ⟨[], b⟩
/-- The block after reset with its power state given. -/
def inState (p : PState) : Blk := Blk.reset.setPwr { Blk.reset.pwr with state := p }
/-- The same in a transition at a step. -/
def inStep (p target : PState) (k : Nat) : Blk := Blk.reset.setPwr { Blk.reset.pwr with state := p, target := target, source := .run, step := k }
/-- The entry that a poster wrote: opcode, and bytes from offset 16 on. -/
def entry (op : Nat) (tail : Bytes) : Bytes := [1, BitVec.ofNat 8 op] ++ zeros 14 ++ tail ++ zeros (112 - tail.length)
/-- A started entry of pair 0 with number 0. -/
def flight (raw : Bytes) (g : Stage) : Flight :=
  { q := 0, seq := 0, raw := raw, path := 1, stage := g, order := 0, mode := 0, status := 0
    flags := 0, result := 0, scope := 0, preempted := false, reads := [], writes := [], slots := [], waits := []
    txns := [], fetched := [], homes := [], used := [], progress := 0
    out := [], burst := .start }
/-- The block with one started entry. -/
def withRun (b : Blk) (raw : Bytes) : Blk := { b with flights := [flight raw .running] }
/-- The block in a structure whose 32 links form bundle 0. -/
def linked (b : Blk) : Blk := { b with struc := { b.struc with links := List.replicate 32 ⟨0, 0, 1, 0, 0⟩ } }
/-- The block with a link in a state. -/
def inLink (b : Blk) (l : Nat) (x : LkState) : Blk := b.setLink l { b.link l with st := x }
/-- One interleaved region over all of memory with the flags given, which every pair owns. -/
def regionAll (flags : Nat) : Struc := { Struc.factory with regions := [⟨0, flags, 2 ^ 64 - 1, 0, 0xC000000000, 0, 0, 0, 0, 0, 0, 0⟩] }
/-- The block with a conversion under way. -/
def converting (b : Blk) (c : Conv) : Blk := { b with mem := { b.mem with convs := [c] } }
/-- The block with segment 84, in which row 7 of bank 5 of channel 3 lies, past its initialisation. -/
def notFresh (b : Blk) : Blk := { b with mem := { b.mem with segs := [(84, ⟨false, false⟩)] } }
/-- The block with a die in a phase of self-refresh. -/
def dieIn (x : SrPhase) (d : Nat) : Blk := Blk.reset.setDie d { Blk.reset.die d with sr := x }
/-- A sequence of direct commands in the middle of its step. -/
def seqIn : SeqSt := ⟨some 0, 0, 0, 1, 0, 0, true, true, 0, false, false, 0, 0, ⟨0, 0, 0, 0, [], none, none, 0, false, false, false⟩⟩
/-- A unit that runs FP8E4M3 with two vectors. -/
def pimUnit : UnitSt := { UnitSt.reset with inPim := true, nvec := 2, wfmt := cE4M3, afmt := cE4M3 }
/-- A unit with a slot that stands at a direct command. -/
def atStep (x : UnitSt) (w : Nat) : UnitSt := { x with slot := some 0, seq := some { seqIn with direct := some w, inStep := false, begun := false } }
/-- The sequence of that unit. -/
def seqAt (w : Nat) : SeqSt := { seqIn with direct := some w, inStep := false, begun := false }
/-- The block with the state of a unit given. -/
def withUnit (u : Nat) (x : UnitSt) : Blk := Blk.reset.setUnit u x
/-- The block whose memory is open throughout and past its initialisation in the segment of row 7 of unit 3. -/
def openMem (b : Blk) : Blk := { b with struc := regionAll 8, mem := { b.mem with segs := [(84, ⟨true, false⟩)] } }
/-- A tensor stored with its first dimension innermost. -/
def dense (fmt base : Nat) (dims : List Nat) (strides : List Int) : Desc :=
  ⟨fmt, dims.length, 1, dims, strides, base, 0, 0, 0, 0, 0, 0, 0, []⟩
/-- An entry with four handles and its parameters. -/
def entryH (op : Nat) (hs : List Nat) (params : Bytes) : Bytes := entry op (hs.flatMap (leBytes 4) ++ params)
/-- Handle `k` of pair 0. -/
def hnd (k : Nat) : Nat := 0x80000000 + k
/-- One bank-local region of open segments in layer residency: 32 rows of the units of channel 0. -/
def layerStruc : Struc := { Struc.factory with regions := [⟨0, 7, 2 ^ 64 - 1, 0, 0x200000, 1, 1, 1, 0, 16, 0, 32⟩] }
/-- A started entry over the descriptors given, which are the handles 0, 1, … of pair 0. -/
def withEntry (raw : Bytes) (ds : List Desc) : Blk :=
  { Blk.reset with
    struc := layerStruc
    flights := [{ flight raw .running with used := (List.range ds.length).map hnd }]
    descs := (List.range ds.length).zip (ds.map (fun d => ⟨d, true, .inUse⟩)) }
/-- The entry of that block. -/
def entryOf (raw : Bytes) (n : Nat) : Flight := { flight raw .running with used := (List.range n).map hnd }
/-- A BANK_GEMV of 2 outputs and 256 inputs in FP8E4M3, its tensors, and its plan of one record. -/
def gemvRaw : Bytes := entryH 0x10 [hnd 0, hnd 1, hnd 2, hnd 3] ([4, 4, 1, 1, 0, 0, 0, 0] ++ leBytes 4 2 ++ leBytes 4 256)
def gemvDescs : List Desc := [dense cE4M3 0 [256, 2] [1, 65536], dense cE4M3 8192 [256] [1], dense cFP32 10240 [2] [1], dense cUINT8 6144 [16] [1]]
/-- The same with 32 inputs in MXFP8E4M3. -/
def gemvMx : Bytes := entryH 0x10 [hnd 0, hnd 1, hnd 2, hnd 3] ([16, 16, 1, 1, 0, 0, 0, 0] ++ leBytes 4 2 ++ leBytes 4 32)
def gemvMxDescs : List Desc := [dense cMXE4M3 0 [32, 2] [1, 32], dense cMXE4M3 8192 [32] [1], dense cFP32 10240 [2] [1], dense cUINT8 6144 [16] [1]]
def gemvPlan : Bytes := leBytes 2 0 ++ leBytes 2 0 ++ leBytes 4 0 ++ leBytes 2 0 ++ leBytes 2 1 ++ leBytes 4 0
/-- A BANK_EWISE of 256 FP8E4M3 elements. -/
def ewRaw : Bytes := entryH 0x12 [hnd 0, hnd 1, hnd 2, 0] [0, 4, 4, 0]
def rowDescs : List Desc := [dense cE4M3 0 [256] [1], dense cE4M3 2048 [256] [1], dense cE4M3 4096 [256] [1]]
/-- A BANK_NORM of one row of 256 FP8E4M3 elements. -/
def normRaw : Bytes := entryH 0x13 [hnd 0, hnd 1, hnd 2, 0] ([0, 4, 0, 0] ++ leBytes 4 1 ++ leBytes 4 256)
/-- A BANK_TABLE of one entry. -/
def tableRaw : Bytes := entryH 0x14 [hnd 0, 0, 0, 0] (leBytes 4 1)
/-- A BANK_ATTN in two-pass mode of one head of 64 dimensions, one query, one token. -/
def attnRaw (mode : Nat) : Bytes :=
  entryH 0x11 [hnd 0, hnd 1, hnd 2, 0] ([BitVec.ofNat 8 mode, 4, 4, 1, 64, 0, 1, 0, 1, 0, 0, 0] ++ leBytes 4 1 ++ leBytes 4 0x3E000000
    ++ leBytes 4 0x3F800000 ++ leBytes 4 (hnd 3))
def attnDescs : List Desc :=
  [dense cE4M3 0x200000 [64] [1], dense cUINT8 0x200100 [8] [1], dense cFP32 0x200200 [64] [1], dense cFP32 0x200300 [1] [1]]
/-- Its block: a cache region of 9 rows for every unit of channel 0, and a guarded region for the other tensors. -/
def attnBlk (mode : Nat) : Blk :=
  { withEntry (attnRaw mode) attnDescs with struc := { Struc.factory with regions :=
      [⟨0, 3, 2 ^ 64 - 1, 0, 0x90000, 1, 1, 1, 0, 16, 0, 9⟩, ⟨1, 0, 2 ^ 64 - 1, 0x200000, 0x400000, 0, 0, 0, 0, 0, 0, 0⟩] } }
/-- An operation with one command that is yet to be issued. -/
def attnJob (x : HeadSt) (w : WinSum) : Job := { Job.blank 0 0 with prog := [⟨0, 1, 1, 0, [], some (0, 0), none, 0, false, false, false⟩], heads := [x], wins := [w], plan := zeros 8, x := zeros 64 }
def withJob (b : Blk) (j : Job) : Blk := { b with cu := { b.cu with jobs := [j] } }
/-- An instruction word of the vector engine. -/
def ins (op d a b c k low : Nat) : Nat := op * 2 ^ 56 + d * 2 ^ 51 + a * 2 ^ 46 + b * 2 ^ 41 + c * 2 ^ 36 + k * 2 ^ 33 + low
/-- The second of three rows of three elements, at its only instruction. -/
def veRunOf (vf w : Nat) : VeRun := ⟨0, 0, ⟨vf, 0, 1, 0, [0, 0, 0, 0], [w]⟩, 3, 3, 1, 1, 0, 0, [0, 0, 0, 0], [0, 0, 0, 0], 0, 0, 0, 0, none, 0, []⟩
/-- A vector register whose first lanes of 32 bits are given. -/
def lanes32 (l : List Nat) : Nat := l.foldr (fun x a => x + a * 2 ^ 32) 0
/-- Registers with values in v1, v2, x1, x2 and k1. -/
def veRegs : VeCtx :=
  ⟨[(1, lanes32 [0x3F800000, 0x40000000, 0xC0400000]), (2, lanes32 [0x40000000, 0x7FC00000, 1])], [(1, 0x40000000), (2, 3)], [(1, 5)], [], 3⟩
def veInts : VeCtx := ⟨[(1, lanes32 [5, 7, 0xFFFFFFFF]), (2, lanes32 [2, 1, 0])], [(1, 5), (2, 3)], [(1, 5)], [], 3⟩
/-- The engine at that instruction, with four tensors of its entry. -/
def veBlk (vf w : Nat) (c : VeCtx) : Blk :=
  let b := withEntry (entryH 0x21 [hnd 0, hnd 1, hnd 2, hnd 3] (leBytes 4 0 ++ leBytes 4 3 ++ leBytes 4 3))
    [dense cFP32 0 [9] [1], dense cFP32 4096 [9] [1], dense cUINT8 8192 [2] [1], dense cFP32 12288 [3] [1]]
  { b with hub := { b.hub with active := 2, prog := c, run := some (veRunOf vf w) } }
def veFlight : Flight := entryOf (entryH 0x21 [hnd 0, hnd 1, hnd 2, hnd 3] (leBytes 4 0 ++ leBytes 4 3 ++ leBytes 4 3)) 4
/-- A VEC_PROG of one row of one element whose inline program is one XSET. -/
def vecRaw (vf rows w : Nat) : Bytes :=
  [1, 0x21, 0, 32] ++ zeros 12 ++ zeros 16 ++ leBytes 4 0 ++ leBytes 4 rows ++ leBytes 4 1 ++ leBytes 4 0
    ++ [BitVec.ofNat 8 vf, 0, 1, 0] ++ zeros 20 ++ leBytes 8 w ++ zeros 48
/-- A TILE_MM of one output and one vector in INT8. -/
def tmmRaw (batch : Nat) : Bytes :=
  entryH 0x20 [hnd 0, hnd 1, hnd 2, 0] ([6, 6, 1, 0, 0, 0, 0, 0] ++ leBytes 4 1 ++ leBytes 4 1 ++ leBytes 4 batch)
def tmmDescs : List Desc := [dense cINT8 0 [1] [1], dense cINT8 4096 [1] [1], dense cFP32 8192 [1] [1]]
/-- An SFU_ROW of one row of one FP32 element. -/
def sfuRaw (op fn gen : Nat) : Bytes :=
  entryH 0x22 [hnd 0, 0, hnd 1, 0] ([BitVec.ofNat 8 op, BitVec.ofNat 8 fn, 1, 1] ++ leBytes 4 1 ++ leBytes 4 1 ++ [0, BitVec.ofNat 8 gen, 0, 0] ++ zeros 4 ++ leBytes 4 (if op = 3 || op = 4 then 0x3F800000 else 0))
/-- One of no row. -/
def sfuNone : Bytes := entryH 0x22 [hnd 0, 0, hnd 1, 0] ([1, 0, 1, 1] ++ leBytes 4 0 ++ leBytes 4 1 ++ zeros 12)
def sfuDescs : List Desc := [dense cFP32 0 [1] [1], dense cFP32 4096 [1] [1]]
/-- A table that lies in another module, every byte the one zero that has arrived from there. -/
def farTable : Desc := dense cUINT8 (2 ^ 40) [1040] [0]
/-- The LOAD_TABLE of generation 7 from it. -/
def loadRaw : Bytes := entryH 0x22 [hnd 0, 0, 0, 0] ([5, 0x20, 1, 0] ++ zeros 8 ++ [0, 7])
def loadFlight : Flight := { entryOf loadRaw 1 with fetched := [(2 ^ 40, [0])] }
def loadBlk : Blk :=
  let b := withEntry loadRaw [farTable]
  { b with struc := { b.struc with herdSize := 2 }, flights := [loadFlight] }
/-- An entry with inline bytes. -/
def inlineRaw (op n : Nat) (hs : List Nat) (tail : Bytes) : Bytes :=
  [1, BitVec.ofNat 8 op, 0, BitVec.ofNat 8 n] ++ zeros 12 ++ hs.flatMap (leBytes 4) ++ tail ++ zeros (96 - tail.length)
/-- A COPY into an accumulating tensor of another module, and its entry. -/
def accRaw : Bytes := entryH 3 [hnd 0, 0, hnd 1, 0] []
def accDescs : List Desc := [dense cFP32 0 [1] [1], { dense cFP32 (2 ^ 40) [1] [1] with flags := 5 }]
def accFlight (k : Nat) : Flight := { entryOf accRaw 2 with seq := k }
/-- A RELAY of one output of 256 FP8E4M3 inputs into the banks, from zeros that have arrived from another module. -/
def relayRaw : Bytes := entryH 4 [hnd 0, hnd 1, hnd 2, 0] ([0, 4, 0, 0] ++ leBytes 4 1 ++ leBytes 4 256)
def relayDescs : List Desc := [dense cE4M3 (2 ^ 40) [256] [0], dense cUINT8 6144 [16] [1], dense cE4M3 0 [256] [1]]
def relayFlight : Flight := { entryOf relayRaw 3 with fetched := [(2 ^ 40, [0])] }
def relayBlk : Blk :=
  let b := withEntry relayRaw relayDescs
  { b with struc := { b.struc with herdSize := 2 }, flights := [relayFlight], plans := [⟨hnd 1, 0, gemvPlan, [], []⟩] }
/-- A RELAY of the first token of one head of 64 dimensions out of the banks. -/
def relayKv : Bytes := entryH 4 [hnd 0, hnd 1, hnd 2, 0] ([3, 4, 64, 0] ++ leBytes 4 1 ++ leBytes 4 0 ++ leBytes 4 1)
def kvDescs : List Desc := [dense cE4M3 0x200000 [128] [1], dense cUINT8 0x200100 [8] [1], dense cE4M3 0 [64] [1]]
def kvBlk : Blk := { withEntry relayKv kvDescs with struc := (attnBlk 0).struc, plans := [⟨hnd 1, 1, zeros 8, [4], []⟩] }
/-- The entry of a DESC_CREATE of one FP32 dimension in index 5. -/
def createRaw (flags dim base : Nat) (stride : Nat) : Bytes :=
  entryH 8 [0, 0, 0, 0] ([1, 1, BitVec.ofNat 8 flags, 0] ++ leBytes 4 dim ++ zeros 20 ++ leBytes 6 stride ++ zeros 30 ++ leBytes 8 base ++ zeros 20 ++ [5, 0, 0, 0])
/-- The block with pair 0 as given. -/
def withQp (x : QpSt) : Blk := { Blk.reset with qps := [(0, x)] }
def qpOn : QpSt := { QpSt.reset with enabled := true, everCommitted := true }
/-- The block with an attachment in a phase. -/
def attIn (p : AttPhase) : Blk := { Blk.reset with att := { Blk.reset.att with phase := p, token := 5 } }
/-- The block with two slots of 4 KiB behind a window area of one page, whose first is FREE. -/
def slotBlk : Blk := Blk.reset.setReg (bWINDOW + 0x808) (2 ^ 31 + 12 * 2 ^ 26 + 65536 + 1)
/-- A module of a herd of four in a ring, link 0 of whose bundle 0 is as given, with all of memory in one region. -/
def fabBlk (x : LkState) : Blk :=
  inLink (linked { Blk.reset with struc := { regionAll 0 with herdSize := 4, rout := some ⟨0, 1, [4, 1, 1], 1, [0, 0, 0], [0, 1, 2], []⟩ } }) 0 x
def fabUp : Blk := (fabBlk .up).setLink 0 { (fabBlk .up).link 0 with credits := [4096, 4096, 4096, 4096] }
/-- A packet from module 1. -/
def pk (addr arg : Nat) (d : Bytes) : Packet := ⟨0, 0, 1, 0, 5, 0, 0, 0, 0, addr, arg, d⟩
/-- An IDENT of a partner, and a PROOF. -/
def identIn : Bytes := [1] ++ zeros 1999
def proofIn : Bytes := [2] ++ zeros 3316
/-- A good flit of all-zero units with a sequence number. -/
def goodFlit (seq typ : Nat) (units : Bytes) : Bytes :=
  let f := leBytes 2 seq ++ leBytes 2 0 ++ leBytes 1 typ ++ leBytes 3 0 ++ units ++ zeros (624 - units.length)
  f ++ leBytes 4 (crc32c f) ++ zeros 4
/-- One outstanding request of pair 0, entry 0. -/
def withTxn (typ : Nat) : Blk := { fabUp with fab := { fabUp.fab with txns := [⟨5, typ, 1, 2 ^ 40, 4, 0, 0⟩] }, flights := [{ flight (entry 0x31 []) .running with txns := [5] }] }
def theTxn (typ : Nat) : Txn := ⟨5, typ, 1, 2 ^ 40, 4, 0, 0⟩
/-- Parameters of a REMOTE_PUT or REMOTE_GET. -/
def moveRaw (op near far n : Nat) : Bytes := entryH op [0, 0, 0, 0] (leBytes 8 near ++ leBytes 8 far ++ leBytes 8 n)
def atomRaw (a op x y : Nat) : Bytes := entryH 0x32 [0, 0, 0, 0] (leBytes 8 a ++ leBytes 8 op ++ leBytes 8 x ++ leBytes 8 y)
/-- A context with the flags given, READY, on port 0, of pair 0. -/
def ctxOf (flags : Nat) : QpcSt := { QpcSt.reset with phase := .ready, ctx := [0, 0, BitVec.ofNat 8 flags, 1] ++ zeros 124 }
/-- The block with both ports up and context 5 as given; one region covers memory. -/
def netBlk (x : QpcSt) : Blk :=
  let b := { Blk.reset with struc := regionAll 0 }
  { b.setReg (bNET + 4) 3 with net := { b.net with linkUp := 3, qpcs := [(5, x)] } }
/-- A frame of context 5. -/
def fr (pos : RPos) (d : Bytes) : RFrame := ⟨0, 5, 0, pos, true, false, 0, 0, d.length, d⟩
/-- A NET_POST on context 5. -/
def netRaw (op n : Nat) : Bytes := entryH 0x38 [0, 0, 0, 0] (leBytes 2 5 ++ [BitVec.ofNat 8 op, 0] ++ leBytes 4 n)
def aPost (op : Nat) : NetPost := ⟨0, 0, op, 4, 0, 3, 3⟩
/-- The block of a REMOTE_ATOMIC on module 1, and the same once its request has left. -/
def atomBlk : Blk := { fabUp with flights := [flight (atomRaw (2 ^ 40) 0 5 0) .running] }
def atomSent : Blk :=
  match atomBlk.request 0 0 3 1 (2 ^ 40) 5 0 (leBytes 16 0) with
  | .sent b => b
  | _ => atomBlk
/-- Memory with bytes stored from address 0 on. -/
def stored (b : Blk) (d : Bytes) : Blk := { (writeRange b ⟨0, cHub, none, 1⟩ 0 d).1 with chans := b.chans }

/-! ### Ill-formed commands: each check refuses a term -/

theorem test_illFormed_1 : ([.sdgWriteRefused .host 0 4294967296, .registerWrite .host 0 false 4294967296, .registerWrite .host 0 true 18446744073709551616, .commit .host (.queue 64) 0,
  .commit .host (.stack 16) 0, .commit .host .power 4294967296, .layLoad .host 4294967296, .segmentInitDone ⟨393216, 0⟩,
  .segmentInitDone ⟨0, 6⟩, .sealSegs 64 0, .sealSegs 0 4294967296, .unsealSegs 64 0,
  .unsealSegs 0 4294967296, .conversionSegmentDone 393216, .scrubStep 384, .act 384 0 0 0 0,
  .act 0 12 0 0 0, .act 0 0 6 0 0, .act 0 0 0 32 0, .act 0 0 0 0 32768,
  .pre 384 0 0 0, .pre 0 12 0 0, .pre 0 0 6 0, .pre 0 0 0 32,
  .rdh 384 0 0 0 0 0 0 false, .rdh 0 12 0 0 0 0 0 false, .rdh 0 0 6 0 0 0 0 false, .rdh 0 0 0 32 0 0 0 false,
  .rdh 0 0 0 0 32768 0 0 false, .rdh 0 0 0 0 0 8 0 false, .rdh 0 0 0 0 0 0 2 false, .wrh 384 0 0 0 0 0 0 false (zeros 144),
  .wrh 0 12 0 0 0 0 0 false (zeros 144), .wrh 0 0 6 0 0 0 0 false (zeros 144), .wrh 0 0 0 32 0 0 0 false (zeros 144), .wrh 0 0 0 0 32768 0 0 false (zeros 144),
  .wrh 0 0 0 0 0 8 0 false (zeros 144), .wrh 0 0 0 0 0 0 2 false (zeros 144), .wrh 0 0 0 0 0 0 0 false [], .rdw 384 ⟨0, 0, false⟩ 0 0 0] : List Instr).all (fun i => !i.wf) = true := by decide +kernel

theorem test_illFormed_2 : ([.rdw 0 ⟨12, 0, false⟩ 0 0 0, .rdw 0 ⟨0, 6, false⟩ 0 0 0, .rdw 0 ⟨0, 0, false⟩ 32 0 0, .rdw 0 ⟨0, 0, false⟩ 0 32768 0,
  .rdw 0 ⟨0, 0, false⟩ 0 0 64, .wrw 384 ⟨0, 0, false⟩ 0 0 0 (zeros 36), .wrw 0 ⟨12, 0, false⟩ 0 0 0 (zeros 36), .wrw 0 ⟨0, 6, false⟩ 0 0 0 (zeros 36),
  .wrw 0 ⟨0, 0, false⟩ 32 0 0 (zeros 36), .wrw 0 ⟨0, 0, false⟩ 0 32768 0 (zeros 36), .wrw 0 ⟨0, 0, false⟩ 0 0 64 (zeros 36), .wrw 0 ⟨0, 0, false⟩ 0 0 0 [],
  .refpr 384 0, .refpr 0 16, .sre 192, .srx 192,
  .cmdParityFail 384 .engine, .cmdParityFail 0 (.entry 64 0), .cmdParityFail 0 (.winRead 0 268435457), .cmdParityFail 0 (.fabric 8192 0),
  .cmdParityFail 0 (.fabric 0 65536), .cmdParityFail 0 (.rdma 16777216), .refreshDue 384 0, .refreshDue 0 16,
  .refreshLate 384 0, .refreshLate 0 16, .refreshPullIn 384 0, .refreshPullIn 0 16,
  .rowIdleTimeout 384 0, .rowIdleTimeout 0 32, .scReqTimeout 384 0 0 .engine, .scReqTimeout 0 12 0 .engine,
  .scReqTimeout 0 0 6 .engine, .scReqTimeout 0 0 0 (.entry 64 0), .scReqTimeout 0 0 0 (.winRead 0 268435457), .scReqTimeout 0 0 0 (.fabric 8192 0),
  .scReqTimeout 0 0 0 (.fabric 0 65536), .scReqTimeout 0 0 0 (.rdma 16777216), .srEntryTimeout 192, .srExitPhyLocked 192] : List Instr).all (fun i => !i.wf) = true := by decide +kernel

theorem test_illFormed_3 : ([.srExitTxsElapsed 192, .srExitPhyTimeout 192, .corrWindowExpiry 384, .clrCounters .host 16 0,
  .clrCounters .host 0 4294967296, .trnStart .host 4294967296, .pimMode 384 0 0, .pimMode 0 65536 0,
  .pimMode 0 0 17592186044416, .opl 384 0 0 [], .opl 0 65536 0 [], .opl 0 0 17592186044416 [],
  .cact (.unit 6144), .cact (.direct 384 0 0), .cact (.direct 0 65536 0), .cact (.direct 0 0 17592186044416),
  .crd (.unit 6144), .crd (.direct 384 0 0), .crd (.direct 0 65536 0), .crd (.direct 0 0 17592186044416),
  .cwr (.unit 6144), .cwr (.direct 384 0 0), .cwr (.direct 0 65536 0), .cwr (.direct 0 0 17592186044416),
  .accRd (.unit 6144), .accRd (.direct 384 0 0), .accRd (.direct 0 65536 0), .accRd (.direct 0 0 17592186044416),
  .accRdTransferDone 6144 0, .accRdTransferDone 0 4, .tblWr 384 0 0 [], .tblWr 0 65536 0 [],
  .tblWr 0 0 17592186044416 [], .stepLd 384 0 0 [], .stepLd 0 65536 0 [], .stepLd 0 0 17592186044416 [],
  .stepGo 384 0 0, .stepGo 0 65536 0, .stepGo 0 0 17592186044416, .smax 6144] : List Instr).all (fun i => !i.wf) = true := by decide +kernel

theorem test_illFormed_4 : ([.sexp 6144, .lperm 6144, .lew 6144, .lstat 6144,
  .unitStepDone 6144, .bankGemv 64 0, .bankGemv 0 4294967296, .planReadDone 64 0,
  .planReadDone 0 4294967296, .treeWindowComplete 64 0 0 0, .treeWindowComplete 0 4294967296 0 0, .treeWindowComplete 0 0 16 0,
  .hubWindowCombine 64 0 0, .hubWindowCombine 0 4294967296 0, .bankEwise 64 0, .bankEwise 0 4294967296,
  .bankNorm 64 0, .bankNorm 0 4294967296, .normStatsReady 64 0 0, .normStatsReady 0 4294967296 0,
  .bankTable 64 0, .bankTable 0 4294967296, .bankAttn 64 0, .bankAttn 0 4294967296,
  .attnFallbackCheck 64 0, .attnFallbackCheck 0 4294967296, .attnProbeResolve 64 0 0, .attnProbeResolve 0 4294967296 0,
  .tileMm 64 0, .tileMm 0 4294967296, .tileDone 4, .ftqEntryFreed [],
  .vecProg 64 0, .vecProg 0 4294967296, .sfuMap 64 0, .sfuMap 0 4294967296,
  .sfuSoftmax 64 0, .sfuSoftmax 0 4294967296, .sfuLogSoftmax 64 0, .sfuLogSoftmax 0 4294967296] : List Instr).all (fun i => !i.wf) = true := by decide +kernel

theorem test_illFormed_5 : ([.sfuLayerNorm 64 0, .sfuLayerNorm 0 4294967296, .sfuRmsNorm 64 0, .sfuRmsNorm 0 4294967296,
  .sfuLoadTable 64 0, .sfuLoadTable 0 4294967296, .copy 64 0, .copy 0 4294967296,
  .fill 64 0, .fill 0 4294967296, .relay 64 0, .relay 0 4294967296,
  .descCreate 64 0, .descCreate 0 4294967296, .descDrop 64 0, .descDrop 0 4294967296,
  .nop 64 0, .nop 0 4294967296, .fence 64 0, .fence 0 4294967296,
  .pcieAtomicop 6, .doorbell .host 64 0, .doorbell .host 0 4294967296, .ringFetchDone 64 [] false,
  .ringFetchDone 0 [[1]] false, .staleReread 64 (zeros 128), .staleReread 0 [], .staleDoorbell 64,
  .entryStart 64 0, .entryStart 0 4294967296, .entryComplete 64 0, .entryComplete 0 4294967296,
  .cqHeadWrite 64 0, .cqHeadWrite 0 4294967296, .qpEnable 64 false, .qpReset 64,
  .qpDropHeld 64, .coalesceDelayExpiry 64, .reattach 4294967296, .linkSignalDetect 32] : List Instr).all (fun i => !i.wf) = true := by decide +kernel

theorem test_illFormed_6 : ([.linkTrainingDone 32, .linkBringupTimeout 32, .linkRetryTimer 32, .ident 32 [],
  .proof 32 [], .linkMismatchRetry 32, .linkFecRateCheck 32 0 0, .dataFlit 32 (zeros 640) false,
  .dataFlit 0 [] false, .nakFlit 32 0, .flitAckTimeout 32, .fecLockLoss 32,
  .fabRead 32 (pk 0 0 []), .fabRead 0 ({ pk 0 0 [] with typ := 256 }), .fabRead 0 ({ pk 0 0 [] with flags := 256 }), .fabRead 0 ({ pk 0 0 [] with src := 65536 }),
  .fabRead 0 ({ pk 0 0 [] with dst := 65536 }), .fabRead 0 ({ pk 0 0 [] with txn := 65536 }), .fabRead 0 ({ pk 0 0 [] with hops := 256 }), .fabRead 0 ({ pk 18446744073709551616 0 [] with qs := 0 }),
  .fabWrite 32 (pk 0 0 []), .fabWrite 0 ({ pk 0 0 [] with typ := 256 }), .fabAtomic 32 (pk 0 0 []), .fabAtomic 0 ({ pk 0 0 [] with typ := 256 }),
  .fabFence 32 (pk 0 0 []), .fabFence 0 ({ pk 0 0 [] with typ := 256 }), .fabDoorbell 32 (pk 0 0 []), .fabDoorbell 0 ({ pk 0 0 [] with typ := 256 }),
  .fwdEntry 32 (pk 0 0 []), .fwdEntry 0 ({ pk 0 0 [] with typ := 256 }), .linkState 32 (pk 0 0 []), .linkState 0 ({ pk 0 0 [] with typ := 256 }),
  .readRsp 32 (pk 0 0 []), .readRsp 0 ({ pk 0 0 [] with typ := 256 }), .writeAck 32 (pk 0 0 []), .writeAck 0 ({ pk 0 0 [] with typ := 256 }),
  .atomicRsp 32 (pk 0 0 []), .atomicRsp 0 ({ pk 0 0 [] with typ := 256 }), .fenceAck 32 (pk 0 0 []), .fenceAck 0 ({ pk 0 0 [] with typ := 256 })] : List Instr).all (fun i => !i.wf) = true := by decide +kernel

theorem test_illFormed_7 : ([.doorbellAck 32 (pk 0 0 []), .doorbellAck 0 ({ pk 0 0 [] with typ := 256 }), .fwdAck 32 (pk 0 0 []), .fwdAck 0 ({ pk 0 0 [] with typ := 256 }),
  .routeNak 32 (pk 0 0 []), .routeNak 0 ({ pk 0 0 [] with typ := 256 }), .packetTransit 32 (pk 0 0 []), .packetTransit 0 ({ pk 0 0 [] with typ := 256 }),
  .remoteTimeout 65536, .unreachableMarkExpiry 8192, .remotePut 64 0, .remotePut 0 4294967296,
  .remoteGet 64 0, .remoteGet 0 4294967296, .remoteAtomic 64 0, .remoteAtomic 0 4294967296,
  .fabIsolate .host 4294967296, .fabRetrain .host 4294967296, .rdmaWrite ({ fr .only [] with port := 2 }), .rdmaWrite ({ fr .only [] with qpn := 16777216 }),
  .rdmaWrite ({ fr .only [] with psn := 16777216 }), .rdmaWrite ({ fr .only [] with va := 18446744073709551616 }), .rdmaWrite ({ fr .only [] with rkey := 4294967296 }), .rdmaWrite ({ fr .only [] with len := 4294967296 }),
  .rdmaWrite ({ fr .only [] with payload := zeros 4097 }), .rdmaRead ({ fr .only [] with port := 2 }), .rdmaSend ({ fr .only [] with port := 2 }), .roceAck 16777216 0,
  .roceAck 0 16777216, .roceNak 16777216 0, .roceNak 0 16777216, .rnrNak 16777216,
  .roceRetryTimeout 16777216, .cnp 16777216, .congestionRecovery 16777216, .pfcPause 2 0 false,
  .pfcPause 0 8 false, .nonRoceFrame 2, .netPostWrite 64 0, .netPostWrite 0 4294967296] : List Instr).all (fun i => !i.wf) = true := by decide +kernel

theorem test_illFormed_8 : ([.netPostRead 64 0, .netPostRead 0 4294967296, .netPostSend 64 0, .netPostSend 0 4294967296,
  .netPostRecv 64 0, .netPostRecv 0 4294967296, .qpcLoad .host 4294967296, .qpcReset .host 4294967296,
  .qpcForceError .host 4294967296, .powerHint 64 0, .powerHint 0 4294967296, .powerHintWaitTimeout 64 0,
  .powerHintWaitTimeout 0 4294967296, .dieIdleTimer 192, .linkWakeDetect 32, .pwrPadrel .host 4294967296,
  .pwrLinkwake .host 4294967296, .linkwakePatternEnd 32, .pwrEnAssert 8, .railPowerGoodLost 16,
  .capsuleLoad .host 4294967296 false, .leaseAcquire 16 0, .leaseAcquire 0 5, .leaseRenew 16 0,
  .leaseRenew 0 5, .leaseRelease 16 0, .leaseRelease 0 5, .leaseExpiry 5 0,
  .leaseExpiry 0 6144, .watchdogExpiry 8, .coreParityError 8, .elTailWrite .host 4294967296,
  .modeRequest .host 4294967296, .writeReg 0 0 4294967296, .getReport [], .rdmaReadResponse 16777216 [],
  .netLinkChange 2 false, .idleFlit 32 0 0 0] : List Instr).all (fun i => !i.wf) = true := by decide +kernel

theorem test_wellFormed_1 : ([.sdgWriteRefused .host 0 0, .registerWrite .host 0 false 0, .commit .host .power 0, .layLoad .host 0, .segmentInitDone ⟨0, 0⟩, .sealSegs 0 0,
  .unsealSegs 0 0, .conversionSegmentDone 0, .scrubStep 0, .act 0 0 0 0 0, .pre 0 0 0 0, .rdh 0 0 0 0 0 0 0 false,
  .wrh 0 0 0 0 0 0 0 false (zeros 144), .rdw 0 ⟨0, 0, false⟩ 0 0 0, .wrw 0 ⟨0, 0, false⟩ 0 0 0 (zeros 36), .refpr 0 0, .sre 0, .srx 0,
  .cmdParityFail 0 .engine, .refreshDue 0 0, .refreshLate 0 0, .refreshPullIn 0 0, .rowIdleTimeout 0 0, .scReqTimeout 0 0 0 .engine,
  .srEntryTimeout 0, .srExitPhyLocked 0, .srExitTxsElapsed 0, .srExitPhyTimeout 0, .corrWindowExpiry 0, .clrCounters .host 0 0,
  .trnStart .host 0, .pimMode 0 0 0, .opl 0 0 0 [], .cact (.unit 0), .crd (.unit 0), .cwr (.unit 0),
  .accRd (.unit 0), .accRdTransferDone 0 0, .tblWr 0 0 0 [], .stepLd 0 0 0 [], .stepGo 0 0 0, .smax 0,
  .sexp 0, .lperm 0, .lew 0, .lstat 0, .unitStepDone 0, .bankGemv 0 0,
  .planReadDone 0 0, .treeWindowComplete 0 0 0 0, .hubWindowCombine 0 0 0, .bankEwise 0 0, .bankNorm 0 0, .normStatsReady 0 0 0,
  .bankTable 0 0, .bankAttn 0 0, .attnFallbackCheck 0 0, .attnProbeResolve 0 0 0, .tileMm 0 0, .tileDone 0,
  .ftqEntryFreed (List.replicate 4 0), .vecProg 0 0, .sfuMap 0 0, .sfuSoftmax 0 0, .sfuLogSoftmax 0 0, .sfuLayerNorm 0 0,
  .sfuRmsNorm 0 0, .sfuLoadTable 0 0, .copy 0 0, .fill 0 0, .relay 0 0, .descCreate 0 0,
  .descDrop 0 0, .nop 0 0, .fence 0 0, .pcieAtomicop 0, .doorbell .host 0 0, .ringFetchDone 0 [] false,
  .staleReread 0 (zeros 128), .staleDoorbell 0] : List Instr).all Instr.wf = true := by decide +kernel

theorem test_wellFormed_2 : ([.entryStart 0 0, .entryComplete 0 0, .cqHeadWrite 0 0, .qpEnable 0 false, .qpReset 0, .qpDropHeld 0,
  .coalesceDelayExpiry 0, .reattach 0, .linkSignalDetect 0, .linkTrainingDone 0, .linkBringupTimeout 0, .linkRetryTimer 0,
  .ident 0 [], .proof 0 [], .linkMismatchRetry 0, .linkFecRateCheck 0 0 0, .dataFlit 0 (zeros 640) false, .nakFlit 0 0,
  .flitAckTimeout 0, .fecLockLoss 0, .fabRead 0 (pk 0 0 []), .fabWrite 0 (pk 0 0 []), .fabAtomic 0 (pk 0 0 []), .fabFence 0 (pk 0 0 []),
  .fabDoorbell 0 (pk 0 0 []), .fwdEntry 0 (pk 0 0 []), .linkState 0 (pk 0 0 []), .readRsp 0 (pk 0 0 []), .writeAck 0 (pk 0 0 []), .atomicRsp 0 (pk 0 0 []),
  .fenceAck 0 (pk 0 0 []), .doorbellAck 0 (pk 0 0 []), .fwdAck 0 (pk 0 0 []), .routeNak 0 (pk 0 0 []), .packetTransit 0 (pk 0 0 []), .remoteTimeout 0,
  .unreachableMarkExpiry 0, .remotePut 0 0, .remoteGet 0 0, .remoteAtomic 0 0, .fabIsolate .host 0, .fabRetrain .host 0,
  .rdmaWrite (fr .only []), .rdmaRead (fr .only []), .rdmaSend (fr .only []), .roceAck 0 0, .roceNak 0 0, .rnrNak 0,
  .roceRetryTimeout 0, .cnp 0, .congestionRecovery 0, .pfcPause 0 0 false, .nonRoceFrame 0, .netPostWrite 0 0,
  .netPostRead 0 0, .netPostSend 0 0, .netPostRecv 0 0, .qpcLoad .host 0, .qpcReset .host 0, .qpcForceError .host 0,
  .powerHint 0 0, .powerHintWaitTimeout 0 0, .dieIdleTimer 0, .linkWakeDetect 0, .pwrPadrel .host 0, .pwrLinkwake .host 0,
  .linkwakePatternEnd 0, .pwrEnAssert 0, .railPowerGoodLost 0, .capsuleLoad .host 0 false, .leaseAcquire 0 0, .leaseRenew 0 0,
  .leaseRelease 0 0, .leaseExpiry 0 0, .watchdogExpiry 0, .coreParityError 0, .elTailWrite .host 0, .modeRequest .host 0,
  .writeReg 0 0 0, .getReport (zeros 32)] : List Instr).all Instr.wf = true := by decide +kernel

theorem test_wellFormed_3 : ([.rdmaReadResponse 0 [], .netLinkChange 0 false, .idleFlit 0 0 0 0] : List Instr).all Instr.wf = true := by decide +kernel


/-! ### Worked examples of the spec, and single steps -/

/-- The check value of CRC-32C over the digits 1 to 9. -/
theorem test_crc32c : crc32c [0x31, 0x32, 0x33, 0x34, 0x35, 0x36, 0x37, 0x38, 0x39] = 0xE3069283 := by decide +kernel

/-- The worked example of 03_memory_organisation: the first granule of an open region at MPA 0xA0_0000_0000, and
the granules 256 bytes, 32 KiB and 256 KiB further. -/
theorem test_open_mapping :
    mpaGroup 0xA000000000 = gidOf 377 26 27306 0 ∧ mpaGroup 0xA000000100 = gidOf 376 26 27306 0
      ∧ mpaGroup 0xA000008000 = gidOf 377 26 27306 1 ∧ mpaGroup 0xA000040000 = gidOf 377 27 27306 0 := by decide +kernel

/-- The worked example of 14_sheepdog_thermal_faults: inlet, hub and DRAM factors, and the hub's ceiling. -/
theorem test_factors : tempFactor 46 52 760 = 198 ∧ tempFactor 100 108 1616 = 227 ∧ tempFactor 88 94 1456 = 141
    ∧ ceilingOf 198 2300 = 1825 := by decide +kernel

/-- The worked example of 04_stack_controllers with the floor that SC_THROTTLE holds: factor 26 at slot_count 16 gives
E = 1.625 slots. -/
theorem test_allowance : allowOf 0 16 26 = (1, 160) ∧ allowOf 160 16 26 = (2, 64) ∧ allowOf 64 16 26 = (1, 224) := by decide +kernel

/-- What a step leaves of the block. -/
def after (b : Blk) (c : Instr) : Option Blk :=
  match step ⟨[c], b⟩ with
  | .next t => some t.blk
  | _ => none

theorem test_nop : (after (withRun .reset (entry 1 [])) (.nop 0 0)).map (fun b => (b.flight? 0 0).map (fun f => (f.stage, f.status)))
    = some (some (.done, stOK)) := by decide +kernel
theorem test_nop_reserved : (after (withRun .reset (entry 1 [7])) (.nop 0 0)).map (fun b => (b.flight? 0 0).map Flight.status)
    = some (some stDESC) := by decide +kernel
theorem test_attach : (after .reset .attach).map (fun b => b.att.phase) = some .attached := by decide +kernel
theorem test_detach : (after (attIn .attached) .detach).map (fun b => (b.att.phase, b.att.cause)) = some (.detached, 4) := by decide +kernel
theorem test_hostWake_ident : (after .reset (.hostWake ⟨4, false⟩)).map (fun b => b.sent) = some [.regRead 0x43B0] := by decide +kernel
theorem test_registerWrite_rw : (after .reset (.registerWrite .host 0x3004 false 5)).map (fun b => b.reg 0x3004) = some 5 := by decide +kernel
theorem test_registerWrite_shadow : (after .reset (.registerWrite .host 0x2000 true 0x300000000)).map (fun b => (b.reg 0x2004, b.eff 0x2004))
    = some (3, 0) := by decide +kernel
theorem test_commit_generation : (after .reset (.commit .host .power 0x20001)).map (fun b => ((b.commitSt .power).pend, (b.commitSt .power).result))
    = some (none, 2) := by decide +kernel
/-- The worked example of 11_host_attachment: pair 5, 256 entries, head 254, doorbell 257: the first read is of the
two entries up to the ring's end. -/
theorem test_doorbell :
    (after ({ Blk.reset with qps := [(5, { qpOn with head := 254, seqNext := 1000 })] }.setReg (bQP 5 + 0x810) 0x408) (.doorbell .host 5 257)).map
      (fun b => (b.sent, (b.qp 5).fetching)) = some ([.hostRead (128 * 254) 256], 2) := by decide +kernel
theorem test_doorbell_far : (after (withQp qpOn) (.doorbell .host 0 17)).map (fun b => (b.reg (oQP_EVENTS 0), (b.qp 0).posted))
    = some (2, none) := by decide +kernel
theorem test_leaseAcquire : (after .reset (.leaseAcquire 10 4)).map (fun b => b.sdg.leases) = some [(4, ⟨10, 1048576⟩)] := by decide +kernel
theorem test_leaseAcquire_other : (after .reset (.leaseAcquire 10 0)).map (fun b => b.sdg.leases) = some [] := by decide +kernel
theorem test_pwrEnDeassert : (after .reset .pwrEnDeassert).map (fun b => b.pwr.state) = some .off := by decide +kernel
theorem test_linkSignalDetect : (after (inLink (linked .reset) 3 .down) (.linkSignalDetect 3)).map (fun b => ((b.link 3).st, (b.link 3).step))
    = some (.training, 1) := by decide +kernel
theorem test_thermN : (after .reset (.thermNExternal true)).map (fun b => (b.pins.thermN, b.reg oSDG_EVENTS)) = some (false, 64) := by decide +kernel
theorem test_cnp : (after (netBlk { ctxOf 0 with rate := 1500 }) (.cnp 5)).map (fun b => (b.qpc 5).rate) = some 1000 := by decide +kernel
theorem test_idle : step ⟨[], Blk.reset⟩ = .next ⟨[], Blk.reset⟩ := rfl
theorem test_word_spells_nothing : decodeTableWord 32 5 = none := rfl

/-! ### Every statement with hypotheses has a state that meets them -/

theorem witness_StepKeepsMemoryWf_1 : ∃ (s : State) (t : State), s.memWf ∧ step s = .next t :=
  ⟨st .reset, st .reset, ⟨by decide +kernel, rfl⟩⟩

theorem witness_StepKeepsLogBound_1 : ∃ (s : State) (t : State), s.blk.log.unread ≤ 2048 ∧ step s = .next t :=
  ⟨st .reset, st .reset, ⟨by decide +kernel, rfl⟩⟩

theorem witness_CellReadAfterWrite_1 : ∃ (m : Memory), Memory.wf m = true :=
  ⟨[], by decide +kernel⟩

theorem witness_OpenGroupRoundTrip_1 : ∃ (b : Blk) (g : Nat) (d : Bytes), Memory.wf b.mem.cells = true ∧ g < 0xC0000000 ∧ d.length = 256 :=
  ⟨Blk.reset, 3, List.replicate 256 9, by decide +kernel⟩

theorem witness_BadAccesses_1a : ∃ (s : State) (p : Path) (w : Bool) (off : Nat) (n : Nat), s.blk.pathOn p = true ∧ reaches p.code off = true ∧ accessOk off n = false ∧ p = .host ∧ w = false :=
  ⟨st .reset, .host, false, 0x1002, 2, by decide +kernel⟩

theorem witness_BadAccesses_1b : ∃ (s : State) (p : Path) (off : Nat) (n : Nat), s.blk.pathOn p = true ∧ reaches p.code off = true ∧ accessOk off n = false :=
  ⟨st .reset, .sideband, 0x110004, 8, by decide +kernel⟩

theorem witness_SdgWrites_1a : ∃ (s : State) (p : Path) (off : Nat), s.blk.pathOn p = true ∧ reaches p.code off = true ∧ sdgField off = true :=
  ⟨st .reset, .sideband, 0x180058, by decide +kernel⟩

theorem witness_SdgWrites_1b : ∃ (s : State) (p : Path) (off : Nat), s.blk.pathOn p = true ∧ reaches p.code off = true ∧ sdgField off = true :=
  ⟨st .reset, .host, 0x180040, by decide +kernel⟩

theorem witness_RegisterWrites_1 : ∃ (s : State) (p : Path) (off : Nat) (i : RegInfo), s.blk.pathOn p = true ∧ reaches p.code off = true ∧ off % 4 = 0 ∧ commandReg off = false ∧ ((p = .sideband → off < 0x104 ∨ 0x114 ≤ off)) ∧ regInfo off = some i :=
  ⟨st .reset, .host, 0x3004, ⟨0xFFFFFFFF, 0, 0, 0xFFFFFFFF⟩, by decide +kernel⟩

theorem witness_RegisterWrites_2 : ∃ (s : State) (p : Path) (off : Nat) (i : RegInfo) (j : RegInfo), s.blk.pathOn p = true ∧ reaches p.code off = true ∧ reaches p.code (off + 4) = true ∧ off % 8 = 0 ∧ isWide64 off = true ∧ p ≠ .sideband ∧ commandReg off = false ∧ commandReg (off + 4) = false ∧ regInfo off = some i ∧ regInfo (off + 4) = some j :=
  ⟨st .reset, .host, 0x2000, ⟨0, 0, 0xFFE00000, 0⟩, ⟨0, 0, 0xFF, 0⟩, by decide +kernel⟩

theorem witness_RegisterWrites_3 : ∃ (s : State) (p : Path) (off : Nat), s.blk.pathOn p = true ∧ off % 4 = 0 ∧ off < 0x1000000 ∧ commandReg off = false ∧ ((p = .sideband → off < 0x104 ∨ 0x114 ≤ off)) ∧ regInfo off = none :=
  ⟨st .reset, .sideband, 0x130FF0, by decide +kernel⟩

theorem witness_Commits_1a : ∃ (s : State) (p : Path) (c : CBlk) (v : Nat), s.blk.pathOn p = true ∧ reaches p.code (commitBase c + 0x180) = true ∧ c ∈ commitBlocks ∧ v < 2 ^ 32 ∧ v / 65536 = ((s.blk.commitSt c).gen.toNat + 1) % 65536 ∧ (s.blk.commitSt c).pend = none ∧ s.blk.lay.phase ≠ .applying ∧ v % 65536 < 2 ^ (commitGroups c).length ∧ ((∀ g, g < (commitGroups c).length → v.testBit g = true → (s.blk.atPort p).groupOk c (v % 65536) g = true)) :=
  ⟨st .reset, .host, .power, 0x10001, by decide +kernel⟩

theorem witness_Commits_1b : ∃ (s : State) (p : Path) (c : CBlk) (v : Nat), s.blk.pathOn p = true ∧ reaches p.code (commitBase c + 0x180) = true ∧ c ∈ commitBlocks ∧ v < 2 ^ 32 ∧ v / 65536 = ((s.blk.commitSt c).gen.toNat + 1) % 65536 ∧ (s.blk.commitSt c).pend = none ∧ s.blk.lay.phase ≠ .applying ∧ v % 65536 < 2 ^ (commitGroups c).length ∧ ((∀ g, g < (commitGroups c).length → v.testBit g = true → (s.blk.atPort p).groupOk c (v % 65536) g = true)) :=
  ⟨st .reset, .internal, .queue 63, 0x10000, by decide +kernel⟩

theorem witness_Commits_2a : ∃ (s : State) (p : Path) (c : CBlk) (v : Nat), s.blk.pathOn p = true ∧ reaches p.code (commitBase c + 0x180) = true ∧ c ∈ commitBlocks ∧ v < 2 ^ 32 ∧ (s.blk.atPort p).commitReason c (v / 65536) (v % 65536) ≠ 0 :=
  ⟨st .reset, .host, .window, 0x20001, by decide +kernel⟩

theorem witness_Commits_2b : ∃ (s : State) (p : Path) (c : CBlk) (v : Nat), s.blk.pathOn p = true ∧ reaches p.code (commitBase c + 0x180) = true ∧ c ∈ commitBlocks ∧ v < 2 ^ 32 ∧ (s.blk.atPort p).commitReason c (v / 65536) (v % 65536) ≠ 0 :=
  ⟨st { Blk.reset with lay := { Blk.reset.lay with phase := .applying } }, .host, .window, 0x20001, by decide +kernel⟩

theorem witness_Commits_2c : ∃ (s : State) (p : Path) (c : CBlk) (v : Nat), s.blk.pathOn p = true ∧ reaches p.code (commitBase c + 0x180) = true ∧ c ∈ commitBlocks ∧ v < 2 ^ 32 ∧ (s.blk.atPort p).commitReason c (v / 65536) (v % 65536) ≠ 0 :=
  ⟨st (Blk.reset.setCommit .window { CommitSt.reset with pend := some 1 }), .host, .window, 0x10001, by decide +kernel⟩

theorem witness_Commits_2d : ∃ (s : State) (p : Path) (c : CBlk) (v : Nat), s.blk.pathOn p = true ∧ reaches p.code (commitBase c + 0x180) = true ∧ c ∈ commitBlocks ∧ v < 2 ^ 32 ∧ (s.blk.atPort p).commitReason c (v / 65536) (v % 65536) ≠ 0 :=
  ⟨st .reset, .host, .net, 0x10004, by decide +kernel⟩

theorem witness_Commits_3a : ∃ (s : State) (p : Path) (c : CBlk) (v : Nat), s.blk.pathOn p = true ∧ reaches p.code (commitBase c + 0x180) = true ∧ c ∈ commitBlocks ∧ v < 2 ^ 32 ∧ v % 65536 = 0 ∧ v / 65536 = ((s.blk.commitSt c).gen.toNat + 1) % 65536 ∧ (s.blk.commitSt c).pend = none ∧ s.blk.lay.phase ≠ .applying :=
  ⟨st .reset, .host, .power, 0x10000, by decide +kernel⟩

theorem witness_Commits_3b : ∃ (s : State) (p : Path) (c : CBlk) (v : Nat), s.blk.pathOn p = true ∧ reaches p.code (commitBase c + 0x180) = true ∧ c ∈ commitBlocks ∧ v < 2 ^ 32 ∧ v % 65536 = 0 ∧ v / 65536 = ((s.blk.commitSt c).gen.toNat + 1) % 65536 ∧ (s.blk.commitSt c).pend = none ∧ s.blk.lay.phase ≠ .applying :=
  ⟨st .reset, .internal, .queue 63, 0x10000, by decide +kernel⟩

theorem witness_Commits_4 : ∃ (s : State), s.blk.ticking = false :=
  ⟨st (inState .unpowered), by decide +kernel⟩

theorem witness_Commits_5 : ∃ (s : State) (c : CBlk) (g : BitVec 16), s.blk.ticking = true ∧ s.blk.cu.units = [] ∧ s.blk.cu.waiting = [] ∧ s.blk.cu.jobs = [] ∧ s.blk.mem.fixes = [] ∧ (s.blk.chans.all (fun x => x.2.readQ.isEmpty && x.2.writeQ.isEmpty && x.2.portQ.isEmpty && x.2.closing.isEmpty)) = true ∧ s.blk.sdg.capNext = none ∧ s.blk.sdg.lower = none ∧ s.blk.held = [] ∧ s.blk.lay.phase ≠ .draining ∧ c ∈ commitBlocks ∧ (s.blk.commitSt c).pend = some g :=
  ⟨st ((Blk.reset.setCommit .window { CommitSt.reset with pend := some 7, result := 1 })), .window, 7, by decide +kernel⟩

theorem witness_LayoutLoads_1 : ∃ (s : State) (p : Path) (v : Nat), s.blk.pathOn p = true ∧ reaches p.code oLAY_CTRL = true ∧ v.testBit 0 = true ∧ ((s.blk.pwr.state = .run ∨ s.blk.pwr.state = .doze)) ∧ s.blk.lay.phase = .idle ∧ s.blk.laySrc % 64 = 0 ∧ 64 ≤ s.blk.layLen ∧ s.blk.layLen ≤ 4194304 ∧ s.blk.struc.inGuarded s.blk.laySrc s.blk.layLen = true :=
  ⟨st (Blk.reset.setReg (bLAYOUT + 0x18) 4096), .host, 1, by decide +kernel⟩

theorem witness_LayoutLoads_2 : ∃ (s : State), s.blk.hubUp = true ∧ s.blk.lay.phase = .copying ∧ s.blk.mustWait cHub s.blk.laySrc s.blk.layLen = false ∧ (readRange s.blk rqLay s.blk.laySrc s.blk.layLen).st = stOK :=
  ⟨st ({ Blk.reset with lay := { Blk.reset.lay with phase := .copying } }.setReg (bLAYOUT + 0x18) 64), by decide +kernel⟩

theorem witness_LayoutLoads_3 : ∃ (s : State), s.blk.hubUp = true ∧ s.blk.lay.phase = .verifying :=
  ⟨st { Blk.reset with lay := { Blk.reset.lay with phase := .verifying } }, by decide +kernel⟩

theorem witness_LayoutLoads_4 : ∃ (s : State), s.blk.hubUp = true ∧ s.blk.lay.phase = .draining ∧ s.blk.flights = [] :=
  ⟨st { Blk.reset with lay := { Blk.reset.lay with phase := .draining } }, by decide +kernel⟩

theorem witness_LayoutLoads_5 : ∃ (s : State), s.blk.hubUp = true ∧ s.blk.lay.phase = .draining ∧ s.blk.flights ≠ [] ∧ (s.blk.reg oLAY_CTRL).testBit 1 = false :=
  ⟨st { withRun .reset (entry 1 []) with lay := { Blk.reset.lay with phase := .draining } }, by decide +kernel⟩

theorem witness_LayoutLoads_6 : ∃ (s : State), s.blk.hubUp = true ∧ s.blk.lay.phase = .applying ∧ s.blk.held = [] :=
  ⟨st { Blk.reset with lay := { Blk.reset.lay with phase := .applying } }, by decide +kernel⟩

theorem witness_LayoutLoads_7 : ∃ (s : State) (g : Nat) (img : Bytes), s.blk.hubUp = true ∧ s.blk.lay.persisting = some (g, img) :=
  ⟨st { Blk.reset with lay := { Blk.reset.lay with persisting := some (3, [1]) } }, 3, [1], by decide +kernel⟩

theorem witness_LayoutLoads_8 : ∃ (s : State) (g : Nat) (img : Bytes), s.blk.hubUp = true ∧ s.blk.lay.persisting = some (g, img) :=
  ⟨st { Blk.reset with lay := { Blk.reset.lay with persisting := some (3, [1]) } }, 3, [1], by decide +kernel⟩

theorem witness_SegmentInit_1 : ∃ (s : State) (seg : Nat) (cls : Nat), s.blk.hubUp = true ∧ s.blk.struc.mapped seg = true ∧ (s.blk.seg seg).fresh = true ∧ cls < 6 ∧ s.blk.segPays cls seg = true :=
  ⟨st .reset, 5, cHub, by decide +kernel⟩

theorem witness_Conversions_1 : ∃ (s : State) (q : Nat) (seq : Nat) (f : Flight) (k : Nat), s.blk.hubUp = true ∧ s.blk.fresh? q seq 0x40 = some f ∧ s.blk.mem.convs = [] ∧ fld f.raw 0x20 8 = k * 0x200000 ∧ fld f.raw 0x28 8 = 0x200000 ∧ zeroAt f.raw 0x30 80 = true ∧ (s.blk.struc.rangeIn (k * 0x200000) 0x200000).any (fun r => r.convertible && r.owners.testBit q) = true ∧ (s.blk.seg k).isOpen = true :=
  ⟨st { withRun .reset (entry 0x40 (zeros 16 ++ leBytes 8 0x200000 ++ leBytes 8 0x200000)) with struc := regionAll 9 }, 0, 0, flight (entry 0x40 (zeros 16 ++ leBytes 8 0x200000 ++ leBytes 8 0x200000)) .running, 1, by decide +kernel⟩

theorem witness_Conversions_2 : ∃ (s : State) (q : Nat) (seq : Nat) (f : Flight) (k : Nat), s.blk.hubUp = true ∧ s.blk.fresh? q seq 0x41 = some f ∧ s.blk.mem.convs = [] ∧ fld f.raw 0x20 8 = k * 0x200000 ∧ fld f.raw 0x28 8 = 0x200000 ∧ zeroAt f.raw 0x30 80 = true ∧ (s.blk.struc.rangeIn (k * 0x200000) 0x200000).any (fun r => r.convertible && r.owners.testBit q) = true ∧ (s.blk.seg k).isOpen = false :=
  ⟨st { withRun .reset (entry 0x41 (zeros 16 ++ leBytes 8 0x200000 ++ leBytes 8 0x200000)) with struc := regionAll 8 }, 0, 0, flight (entry 0x41 (zeros 16 ++ leBytes 8 0x200000 ++ leBytes 8 0x200000)) .running, 1, by decide +kernel⟩

theorem witness_Conversions_3 : ∃ (s : State) (q : Nat) (seq : Nat) (f : Flight), s.blk.hubUp = true ∧ s.blk.fresh? q seq 0x40 = some f ∧ s.blk.mem.convs = [] ∧ fld f.raw 0x20 8 % 0x200000 ≠ 0 :=
  ⟨st (withRun .reset (entry 0x40 (zeros 16 ++ leBytes 8 0x200001 ++ leBytes 8 0x200000))), 0, 0, flight (entry 0x40 (zeros 16 ++ leBytes 8 0x200001 ++ leBytes 8 0x200000)) .running, by decide +kernel⟩

theorem witness_Conversions_4 : ∃ (s : State) (q : Nat) (seq : Nat) (f : Flight), s.blk.hubUp = true ∧ s.blk.fresh? q seq 0x41 = some f ∧ s.blk.mem.convs = [] ∧ fld f.raw 0x20 8 % 0x200000 = 0 ∧ fld f.raw 0x28 8 % 0x200000 = 0 ∧ fld f.raw 0x28 8 ≠ 0 ∧ zeroAt f.raw 0x30 80 = true ∧ (s.blk.struc.rangeIn (fld f.raw 0x20 8) (fld f.raw 0x28 8)).any (fun r => r.convertible && r.owners.testBit q) = false :=
  ⟨st (withRun .reset (entry 0x41 (zeros 16 ++ leBytes 8 0x200000 ++ leBytes 8 0x200000))), 0, 0, flight (entry 0x41 (zeros 16 ++ leBytes 8 0x200000 ++ leBytes 8 0x200000)) .running, by decide +kernel⟩

theorem witness_Conversions_5 : ∃ (s : State) (k : Nat) (c : Conv), s.blk.hubUp = true ∧ s.blk.mem.convs.find? (fun c => c.now.contains k) = some c ∧ ((c.toGuarded = true → s.blk.segTouched k = false)) ∧ s.blk.segPays cHub k = true ∧ s.blk.held = [] :=
  ⟨st (converting (withRun .reset (entry 0x41 [])) ⟨0, 0, false, [1], [], 0, 0, 0⟩), 1, ⟨0, 0, false, [1], [], 0, 0, 0⟩, by decide +kernel⟩

theorem witness_Scrubbing_1a : ∃ (s : State) (ch : Nat), s.blk.hubUp = true ∧ ch < 384 ∧ (s.blk.reg (bSC (stackOfCh ch) + 4)).testBit 0 = true ∧ (s.blk.die (dieOfCh ch)).sr = .awake ∧ s.blk.scrubSeg ch = none ∧ tget 0 ch s.blk.mem.scrubPos % scrubLen + 1 < scrubLen :=
  ⟨st .reset, 383, by decide +kernel⟩

theorem witness_Scrubbing_1b : ∃ (s : State) (ch : Nat), s.blk.hubUp = true ∧ ch < 384 ∧ (s.blk.reg (bSC (stackOfCh ch) + 4)).testBit 0 = true ∧ (s.blk.die (dieOfCh ch)).sr = .awake ∧ s.blk.scrubSeg ch = none ∧ tget 0 ch s.blk.mem.scrubPos % scrubLen + 1 = scrubLen :=
  ⟨st { Blk.reset with mem := { Blk.reset.mem with scrubPos := [(2, scrubLen - 1)] } }, 2, by decide +kernel⟩

theorem witness_Scrubbing_2 : ∃ (s : State) (ch : Nat) (seg : Nat), s.blk.hubUp = true ∧ ch < 384 ∧ (s.blk.reg (bSC (stackOfCh ch) + 4)).testBit 0 = true ∧ (s.blk.die (dieOfCh ch)).sr = .awake ∧ s.blk.scrubSeg ch = some seg ∧ s.blk.bankFree ch (s.blk.scrubAt ch).2.1 cScrub 0 = true ∧ s.blk.rowConv ch (s.blk.scrubAt ch).2.1 (s.blk.scrubAt ch).1 = false ∧ s.blk.canPay ch cScrub (s.blk.scrubCost ch (s.blk.scrubAt ch).2.1 (s.blk.scrubAt ch).1 (s.blk.scrubAt ch).2.2) = true :=
  ⟨st { Blk.reset with mem := { Blk.reset.mem with segs := [(0, ⟨false, false⟩)] } }, 0, 0, by decide +kernel⟩

theorem witness_RowCommands_1 : ∃ (s : State) (ch : Nat) (port : Nat) (cls : Nat) (bank : Nat) (row : Nat), s.blk.hubUp = true ∧ chanArgs ch port cls bank row = true ∧ s.blk.bankNow ch bank cls = true ∧ s.blk.openRowOf ch bank = none ∧ (s.blk.rowSeg ch bank row).isSome = true ∧ s.blk.canPay ch cls 2 = true :=
  ⟨st .reset, 383, 0, 2, 31, 32767, by decide +kernel⟩

theorem witness_RowCommands_2 : ∃ (s : State) (ch : Nat) (port : Nat) (cls : Nat) (bank : Nat), s.blk.hubUp = true ∧ chanArgs ch port cls bank 0 = true ∧ s.blk.bankNow ch bank cls = true ∧ s.blk.canPay ch cls 2 = true :=
  ⟨st (Blk.reset.openBank 3 5 7 2), 3, 0, 2, 5, by decide +kernel⟩

theorem witness_RowCommands_3a : ∃ (s : State) (ch : Nat) (bank : Nat) (p : Nat × OpenRow), s.blk.hubUp = true ∧ (s.blk.chan ch).rows.find? (fun p => p.1 == bank) = some p ∧ s.blk.canPay ch p.2.cls 2 = true :=
  ⟨st (Blk.reset.openBank 3 5 7 2), 3, 5, (5, ⟨7, 2⟩), by decide +kernel⟩

theorem witness_RowCommands_3b : ∃ (s : State) (ch : Nat) (bank : Nat) (p : Nat × OpenRow), s.blk.hubUp = true ∧ (s.blk.chan ch).rows.find? (fun p => p.1 == bank) = some p ∧ (s.blk.pair ch (bank / 2)).urgent = true :=
  ⟨st ((Blk.reset.openBank 3 5 7 2).setPair 3 2 ⟨9, true⟩), 3, 5, (5, ⟨7, 2⟩), by decide +kernel⟩

theorem witness_RowCommands_3c : ∃ (s : State) (ch : Nat) (bank : Nat) (p : Nat × OpenRow), s.blk.hubUp = true ∧ (s.blk.chan ch).rows.find? (fun p => p.1 == bank) = some p ∧ s.blk.canPay ch p.2.cls 2 = false :=
  ⟨st ((Blk.reset.openBank 3 5 7 2).setChan 3 { (Blk.reset.openBank 3 5 7 2).chan 3 with cnt := [] }), 3, 5, (5, ⟨7, 2⟩), by decide +kernel⟩

theorem witness_ColumnTransfers_1 : ∃ (s : State) (ch : Nat) (port : Nat) (cls : Nat) (bank : Nat) (row : Nat) (grp : Nat) (half : Nat), s.blk.hubUp = true ∧ chanArgs ch port cls bank row = true ∧ grp < 8 ∧ half < 2 ∧ ((cls = cHub ∨ cls = cRemote)) ∧ s.blk.chanQuiet ch = true ∧ (s.blk.rowSeg ch bank row).isSome = true ∧ s.blk.rowFresh ch bank row = false ∧ s.blk.rowConv ch bank row = false ∧ s.blk.bankFree ch bank cls s.blk.time.toNat = true ∧ s.blk.openRowOf ch bank = some row ∧ s.blk.canPay ch cls 3 = true :=
  ⟨st (Blk.reset.openBank 3 5 7 2 |> notFresh), 3, 0, 2, 5, 7, 1, 1, by decide +kernel⟩

theorem witness_ColumnTransfers_2 : ∃ (s : State) (ch : Nat) (port : Nat) (cls : Nat) (bank : Nat) (row : Nat) (grp : Nat) (half : Nat) (keep : Bool) (w : HalfReq), s.blk.hubUp = true ∧ s.blk.halfArgs ch port cls bank row grp half = true ∧ (s.blk.die (dieOfCh ch)).sr = .awake ∧ (s.blk.chan ch).writeQ = [w] ∧ (s.blk.chan ch).readQ = [] ∧ (s.blk.chan ch).portQ = [] ∧ w.sameHalf ⟨port, cls, bank, row, grp, half, keep, s.blk.time.toNat, []⟩ = true :=
  ⟨st (Blk.reset.setChan 3 { Blk.reset.chan 3 with writeQ := [⟨0, 2, 5, 7, 1, 1, false, 0, [9]⟩] }), 3, 0, 2, 5, 7, 1, 1, false, ⟨0, 2, 5, 7, 1, 1, false, 0, [9]⟩, by decide +kernel⟩

theorem witness_ColumnTransfers_3 : ∃ (s : State) (ch : Nat) (port : Nat) (cls : Nat) (bank : Nat) (row : Nat) (grp : Nat) (half : Nat), s.blk.hubUp = true ∧ chanArgs ch port cls bank row = true ∧ grp < 8 ∧ half < 2 ∧ ((cls = cHub ∨ cls = cRemote)) ∧ s.blk.chanQuiet ch = true ∧ s.blk.rowFresh ch bank row = true :=
  ⟨st .reset, 3, 0, 2, 5, 7, 1, 1, by decide +kernel⟩

theorem witness_ColumnTransfers_4 : ∃ (s : State) (ch : Nat) (port : Nat) (cls : Nat) (bank : Nat) (row : Nat) (grp : Nat) (half : Nat) (d : Bytes), s.blk.hubUp = true ∧ s.memWf ∧ chanArgs ch port cls bank row = true ∧ grp < 8 ∧ half < 2 ∧ ((cls = cHub ∨ cls = cRemote)) ∧ d.length = 144 ∧ s.blk.chanQuiet ch = true ∧ (s.blk.rowSeg ch bank row).isSome = true ∧ s.blk.rowConv ch bank row = false ∧ s.blk.bankFree ch bank cls s.blk.time.toNat = true ∧ s.blk.openRowOf ch bank = some row ∧ s.blk.canPay ch cls 3 = true :=
  ⟨st (Blk.reset.openBank 3 5 7 2), 3, 0, 2, 5, 7, 1, 1, List.replicate 144 3, by decide +kernel⟩

theorem witness_ColumnTransfers_5a : ∃ (s : State) (ch : Nat) (port : Nat) (cls : Nat) (bank : Nat) (row : Nat) (word : Nat), s.blk.hubUp = true ∧ s.blk.wordArgs ch port cls bank row word = true ∧ s.blk.canPay ch cls 2 = true :=
  ⟨st (Blk.reset.openBank 3 5 7 2 |> notFresh), 3, 0, 2, 5, 7, 63, by decide +kernel⟩

theorem witness_ColumnTransfers_5b : ∃ (s : State) (ch : Nat) (port : Nat) (cls : Nat) (bank : Nat) (row : Nat) (word : Nat), s.blk.hubUp = true ∧ s.blk.wordArgs ch port cls bank row word = true ∧ s.blk.canPay ch cls 2 = true :=
  ⟨st (Blk.reset.openBank 3 5 7 2), 3, 0, 2, 5, 7, 63, by decide +kernel⟩

theorem witness_ColumnTransfers_6 : ∃ (s : State) (ch : Nat) (port : Nat) (cls : Nat) (bank : Nat) (row : Nat) (word : Nat) (d : Bytes), s.blk.hubUp = true ∧ s.memWf ∧ s.blk.wordArgs ch port cls bank row word = true ∧ d.length = 36 ∧ s.blk.canPay ch cls 2 = true :=
  ⟨st (Blk.reset.openBank 3 5 7 2), 3, 0, 2, 5, 7, 63, List.replicate 36 3, by decide +kernel⟩

theorem witness_Refresh_1a : ∃ (s : State) (ch : Nat) (pair : Nat), s.blk.hubUp = true ∧ ch < 384 ∧ pair < 16 ∧ (s.blk.die (dieOfCh ch)).sr = .awake ∧ (s.blk.pair ch pair).debt < 8 :=
  ⟨st .reset, 383, 15, by decide +kernel⟩

theorem witness_Refresh_1b : ∃ (s : State) (ch : Nat) (pair : Nat), s.blk.hubUp = true ∧ ch < 384 ∧ pair < 16 ∧ (s.blk.die (dieOfCh ch)).sr = .awake :=
  ⟨st (Blk.reset.setPair 1 2 ⟨8, false⟩), 1, 2, by decide +kernel⟩

theorem witness_Refresh_2 : ∃ (s : State) (ch : Nat) (pair : Nat), s.blk.hubUp = true ∧ ch < 384 ∧ pair < 16 ∧ 1 ≤ (s.blk.pair ch pair).debt ∧ ((s.blk.pairHeld ch pair = true → (s.blk.pair ch pair).urgent = true)) ∧ s.blk.inStepAt ch pair = false ∧ (s.blk.die (dieOfCh ch)).sr = .awake :=
  ⟨st (Blk.reset.setPair 1 2 ⟨1, true⟩), 1, 2, by decide +kernel⟩

theorem witness_Refresh_3 : ∃ (s : State) (ch : Nat) (pair : Nat), s.blk.hubUp = true ∧ ch < 384 ∧ pair < 16 ∧ (s.blk.pair ch pair).debt ≤ 0 ∧ -8 < (s.blk.pair ch pair).debt ∧ s.blk.pairHeld ch pair = false ∧ (s.blk.die (dieOfCh ch)).sr = .awake ∧ (s.blk.pay ch cRefresh 12).isSome = true :=
  ⟨st .reset, 1, 2, by decide +kernel⟩

theorem witness_Refresh_4 : ∃ (s : State) (ch : Nat) (pair : Nat), s.blk.hubUp = true ∧ ch < 384 ∧ pair < 16 ∧ (s.blk.pair ch pair).urgent = true ∧ 9 ≤ (s.blk.pair ch pair).debt ∧ (s.blk.unit (unitNo ch pair)).seq = none ∧ (s.blk.unit (unitNo ch pair)).keptFor = none ∧ s.blk.cu.units.all (fun p => p.2.seq.isNone) = true :=
  ⟨st (Blk.reset.setPair 1 2 ⟨9, true⟩), 1, 2, by decide +kernel⟩

theorem witness_SelfRefresh_1 : ∃ (s : State) (d : Nat), s.blk.hubUp = true ∧ d < 192 ∧ (s.blk.die d).sr = .entering ∧ s.blk.dieBusy d = false ∧ s.blk.queuesEmpty d = true ∧ s.blk.debtsPaid d = true ∧ (s.blk.payDie d).isSome = true :=
  ⟨st (dieIn .entering 5), 5, by decide +kernel⟩

theorem witness_SelfRefresh_2 : ∃ (s : State) (d : Nat) (u : Nat) (x : SeqSt), s.blk.hubUp = true ∧ (s.blk.die d).sr = .entering ∧ unitDie u = d ∧ s.blk.cu.units = [(u, s.blk.unit u)] ∧ (s.blk.unit u).seq = some x ∧ x.inStep = true :=
  ⟨st ((dieIn .entering 0).setUnit 3 { UnitSt.reset with seq := some seqIn }), 0, 3, seqIn, by decide +kernel⟩

theorem witness_SelfRefresh_3 : ∃ (s : State) (d : Nat) (n : Nat), s.blk.hubUp = true ∧ (s.blk.die d).sr = .exitPhy n :=
  ⟨st (dieIn (.exitPhy 1) 7), 7, 1, by decide +kernel⟩

theorem witness_SelfRefresh_4 : ∃ (s : State) (d : Nat), s.blk.hubUp = true ∧ (s.blk.die d).sr = .locked ∧ (s.blk.payDie d).isSome = true :=
  ⟨st (dieIn .locked 7), 7, by decide +kernel⟩

theorem witness_SelfRefresh_5 : ∃ (s : State) (d : Nat), s.blk.hubUp = true ∧ (s.blk.die d).sr = .exitTxs ∧ s.blk.held = [] ∧ s.blk.cu.waiting = [] ∧ s.blk.cu.jobs = [] :=
  ⟨st (dieIn .exitTxs 7), 7, by decide +kernel⟩

theorem witness_SelfRefresh_6a : ∃ (s : State) (d : Nat) (n : Nat), s.blk.hubUp = true ∧ s.blk.pwr.state = .run ∧ (s.blk.die d).sr = .exitPhy n ∧ n < 2 :=
  ⟨st (dieIn (.exitPhy 1) 7), 7, 1, by decide +kernel⟩

theorem witness_SelfRefresh_6b : ∃ (s : State) (d : Nat) (n : Nat), s.blk.hubUp = true ∧ s.blk.pwr.state = .run ∧ (s.blk.die d).sr = .exitPhy n ∧ 2 ≤ n :=
  ⟨st (dieIn (.exitPhy 2) 7), 7, 2, by decide +kernel⟩

theorem witness_StackEvents_1 : ∃ (s : State), s.blk.hubUp = true :=
  ⟨st .reset, by decide +kernel⟩

theorem witness_StackEvents_2 : ∃ (s : State), s.blk.hubUp = true :=
  ⟨st .reset, by decide +kernel⟩

theorem witness_StackEvents_3 : ∃ (s : State) (p : Path) (k : Nat) (v : Nat), s.blk.pathOn p = true ∧ reaches p.code (bSC k) = true ∧ k < 16 ∧ v.testBit 1 = true :=
  ⟨st .reset, .host, 15, 7, by decide +kernel⟩

theorem witness_StackEvents_4a : ∃ (s : State) (p : Path) (v : Nat), s.blk.pathOn p = true ∧ reaches p.code bTRAIN = true ∧ ((p = .host → s.blk.mode = .test)) ∧ v.testBit 0 = true ∧ s.blk.trnStarts = true :=
  ⟨st { Blk.reset with mode := .test }, .host, 1, by decide +kernel⟩

theorem witness_StackEvents_4b : ∃ (s : State) (p : Path) (v : Nat), s.blk.pathOn p = true ∧ reaches p.code bTRAIN = true ∧ ((p = .host → s.blk.mode = .test)) ∧ v.testBit 0 = true ∧ s.blk.trnStarts = true :=
  ⟨st .reset, .internal, 1, by decide +kernel⟩

theorem witness_StackEvents_5 : ∃ (s : State), s.blk.pathOn .host = true ∧ s.blk.mode ≠ .test :=
  ⟨st .reset, by decide +kernel⟩

theorem witness_StackEvents_6 : ∃ (s : State), s.blk.hubUp = true ∧ (s.blk.reg bTRAIN).testBit 0 = true ∧ (s.blk.chan s.blk.trnChan).trainDue = 0 :=
  ⟨st (Blk.reset.setReg bTRAIN 1), by decide +kernel⟩

theorem witness_StackEvents_7 : ∃ (s : State), s.blk.hubUp = true ∧ (s.blk.reg bTRAIN).testBit 0 = true :=
  ⟨st (Blk.reset.setReg bTRAIN 1), by decide +kernel⟩

theorem witness_StackEvents_8a : ∃ (s : State) (ch : Nat), s.blk.hubUp = true ∧ ch < 384 ∧ (s.blk.chan ch).parity < 2 :=
  ⟨st .reset, 3, by decide +kernel⟩

theorem witness_StackEvents_8b : ∃ (s : State) (ch : Nat), s.blk.hubUp = true ∧ ch < 384 ∧ 2 ≤ (s.blk.chan ch).parity :=
  ⟨st (Blk.reset.setChan 3 { Blk.reset.chan 3 with parity := 2 }), 3, by decide +kernel⟩

theorem witness_StackEvents_9 : ∃ (s : State) (ch : Nat) (port : Nat) (cls : Nat) (q : Nat) (seq : Nat) (f : Flight), s.blk.hubUp = true ∧ ch < 384 ∧ port < 12 ∧ cls < 6 ∧ s.blk.flight? q seq = some f ∧ f.stage = .running ∧ s.blk.job? q seq = none ∧ s.blk.tileJob? q seq = none ∧ (s.blk.hub.run.toList ++ s.blk.hub.queue).find? (fun r => r.q == q && r.seq == seq) = none ∧ s.blk.mem.convs.find? (fun c => c.q == q && c.seq == seq) = none :=
  ⟨st (withRun .reset (entry 1 [])), 3, 7, 2, 0, 0, flight (entry 1 []) .running, by decide +kernel⟩

theorem witness_UnitSetUp_1 : ∃ (s : State) (ch : Nat) (m : Nat) (nvec : Nat) (w : Nat) (a : Nat) (anchor : Nat), 1 ≤ nvec ∧ nvec ≤ nvecMax w ∧ pairOk w a = true ∧ anchor < 65536 ∧ s.blk.unitTakes ch m (s.blk.cmdCharge (unitCmdOf ch 1 (2 ^ m) (2 ^ 43 + (nvec - 1) * 2 ^ 41 + w * 2 ^ 33 + a * 2 ^ 25 + anchor * 2 ^ 9) [])) = true :=
  ⟨st .reset, 3, 2, 2, 4, 4, 7, by decide +kernel⟩

theorem witness_UnitSetUp_2 : ∃ (s : State) (ch : Nat) (m : Nat) (nvec : Nat) (w : Nat) (a : Nat) (anchor : Nat), 1 ≤ nvec ∧ nvec ≤ 4 ∧ w < 256 ∧ a < 256 ∧ anchor < 65536 ∧ (pairOk w a && decide (nvec ≤ nvecMax w)) = false ∧ s.blk.unitTakes ch m (s.blk.cmdCharge (unitCmdOf ch 1 (2 ^ m) (2 ^ 43 + (nvec - 1) * 2 ^ 41 + w * 2 ^ 33 + a * 2 ^ 25 + anchor * 2 ^ 9) [])) = true :=
  ⟨st .reset, 3, 2, 2, 4, 250, 7, by decide +kernel⟩

theorem witness_UnitSetUp_3 : ∃ (s : State) (ch : Nat) (m : Nat), s.blk.unitTakes ch m 2 = true ∧ (s.blk.unit (unitNo ch m)).xfers = [] :=
  ⟨st (withUnit 50 pimUnit), 3, 2, by decide +kernel⟩

theorem witness_UnitSetUp_4 : ∃ (s : State) (ch : Nat) (m : Nat) (first : Nat) (n : Nat) (d : Bytes), s.blk.unitTakes ch m (2 + 3 * cdiv d.length 128) = true ∧ 1 ≤ n ∧ first + n ≤ 256 ∧ d.length = 32 * n :=
  ⟨st (withUnit 50 pimUnit), 3, 2, 250, 6, (List.range 192).map (BitVec.ofNat 8), by decide +kernel⟩

theorem witness_UnitSetUp_5 : ∃ (s : State) (ch : Nat) (m : Nat) (first : Nat) (n : Nat) (d : Bytes), s.blk.unitTakes ch m (2 + 3 * cdiv d.length 128) = true ∧ 1 ≤ n ∧ first + n ≤ 8 ∧ d.length = 32 * n :=
  ⟨st (withUnit 50 pimUnit), 3, 2, 7, 1, (List.range 32).map (BitVec.ofNat 8), by decide +kernel⟩

theorem witness_UnitSetUp_6 : ∃ (s : State) (ch : Nat) (m : Nat) (d : Bytes), s.blk.unitTakes ch m 5 = true ∧ d.length = 32 :=
  ⟨st (withUnit 50 pimUnit), 3, 2, (List.range 32).map (BitVec.ofNat 8), by decide +kernel⟩

theorem witness_UnitSetUp_7 : ∃ (s : State) (ch : Nat) (m : Nat) (d : Bytes), s.blk.unitTakes ch m 5 = true ∧ d.length = 32 :=
  ⟨st (withUnit 50 pimUnit), 3, 2, (List.range 32).map (BitVec.ofNat 8), by decide +kernel⟩

theorem witness_UnitSetUp_8 : ∃ (s : State) (ch : Nat) (m : Nat) (bank : Nat) (part : Nat) (gen : Nat) (d : Bytes), s.blk.unitTakes ch m 5 = true ∧ bank < 2 ∧ part < 2 ∧ gen < 256 ∧ (s.blk.unit (unitNo ch m)).active = 1 - bank ∧ d.length = 32 :=
  ⟨st (withUnit 50 pimUnit), 3, 2, 1, 0, 9, (List.range 32).map (BitVec.ofNat 8), by decide +kernel⟩

theorem witness_UnitSetUp_9 : ∃ (s : State) (ch : Nat) (m : Nat) (bank : Nat) (part : Nat) (gen : Nat) (d : Bytes), s.blk.unitTakes ch m 5 = true ∧ bank < 2 ∧ part < 2 ∧ gen < 256 ∧ (s.blk.unit (unitNo ch m)).active = bank ∧ d.length = 32 :=
  ⟨st (withUnit 50 pimUnit), 3, 2, 0, 1, 9, zeros 32, by decide +kernel⟩

theorem witness_UnitSetUp_10 : ∃ (s : State) (ch : Nat) (m : Nat) (first : Nat) (n : Nat) (d : Bytes), s.blk.unitTakes ch m (2 + 3 * cdiv d.length 128) = true ∧ 1 ≤ n ∧ first + n ≤ 16 ∧ d.length = 8 * n :=
  ⟨st (withUnit 50 pimUnit), 3, 2, 14, 2, (List.range 16).map (BitVec.ofNat 8), by decide +kernel⟩

theorem witness_UnitSequences_1a : ∃ (s : State) (ch : Nat) (m : Nat) (first : Nat) (last : Nat) (reps : Nat) (gen : Nat) (use : Nat), s.blk.unitTakes ch m 2 = true ∧ first ≤ last ∧ last < 16 ∧ 1 ≤ reps ∧ reps ≤ 65536 ∧ gen < 256 ∧ use < 2 ∧ (s.blk.unit (unitNo ch m)).inPim = true ∧ (s.blk.unit (unitNo ch m)).slot = none ∧ (s.blk.die (ch / 2)).refused = false ∧ ((use = 1 → (s.blk.unit (unitNo ch m)).tab.gen = gen ∨ (s.blk.unit (unitNo ch m)).idleTab.gen = gen)) ∧ (List.range (last + 1 - first)).all (fun i => entryOk (s.blk.unit (unitNo ch m)).wfmt (tget 0 (first + i) (s.blk.unit (unitNo ch m)).steps)) = true ∧ s.blk.aimRefused (unitNo ch m) ((List.range (last + 1 - first)).map (fun i => tget 0 (first + i) (s.blk.unit (unitNo ch m)).steps)) [] = none :=
  ⟨st (withUnit 50 { pimUnit with steps := [(0, 2 ^ 62 + 2 ^ 39), (1, 2 ^ 62 + 2 ^ 39)] }), 3, 2, 0, 1, 65536, 0, 0, by decide +kernel⟩

theorem witness_UnitSequences_1b : ∃ (s : State) (ch : Nat) (m : Nat) (first : Nat) (last : Nat) (reps : Nat) (gen : Nat) (use : Nat), s.blk.unitTakes ch m 2 = true ∧ first ≤ last ∧ last < 16 ∧ 1 ≤ reps ∧ reps ≤ 65536 ∧ gen < 256 ∧ use < 2 ∧ (s.blk.unit (unitNo ch m)).inPim = true ∧ (s.blk.unit (unitNo ch m)).slot = none ∧ (s.blk.die (ch / 2)).refused = false ∧ ((use = 1 → (s.blk.unit (unitNo ch m)).tab.gen = gen ∨ (s.blk.unit (unitNo ch m)).idleTab.gen = gen)) ∧ (List.range (last + 1 - first)).all (fun i => entryOk (s.blk.unit (unitNo ch m)).wfmt (tget 0 (first + i) (s.blk.unit (unitNo ch m)).steps)) = true ∧ s.blk.aimRefused (unitNo ch m) ((List.range (last + 1 - first)).map (fun i => tget 0 (first + i) (s.blk.unit (unitNo ch m)).steps)) [] = none :=
  ⟨st (withUnit 50 { pimUnit with tab1 := ⟨zeros 32, zeros 32, 9⟩, steps := [(15, 2 ^ 62 + 2 ^ 39)] }), 3, 2, 15, 15, 1, 9, 1, by decide +kernel⟩

theorem witness_UnitSequences_2 : ∃ (s : State) (ch : Nat) (m : Nat) (first : Nat) (last : Nat) (reps : Nat) (gen : Nat), s.blk.unitTakes ch m 2 = true ∧ first < 16 ∧ last < 16 ∧ 1 ≤ reps ∧ reps ≤ 65536 ∧ gen < 256 ∧ (s.blk.unit (unitNo ch m)).inPim = true ∧ (s.blk.unit (unitNo ch m)).tab.gen ≠ gen ∧ (s.blk.unit (unitNo ch m)).idleTab.gen ≠ gen :=
  ⟨st (withUnit 50 pimUnit), 3, 2, 0, 0, 1, 9, by decide +kernel⟩

theorem witness_UnitSequences_3a : ∃ (s : State) (ch : Nat) (m : Nat) (first : Nat) (last : Nat) (reps : Nat), s.blk.unitTakes ch m 2 = true ∧ first < 16 ∧ last < 16 ∧ 1 ≤ reps ∧ reps ≤ 65536 ∧ (s.blk.unit (unitNo ch m)).inPim = true ∧ ((last < first ∨ (List.range (last + 1 - first)).all (fun i => entryOk (s.blk.unit (unitNo ch m)).wfmt (tget 0 (first + i) (s.blk.unit (unitNo ch m)).steps)) = false)) :=
  ⟨st (withUnit 50 pimUnit), 3, 2, 1, 0, 1, by decide +kernel⟩

theorem witness_UnitSequences_3b : ∃ (s : State) (ch : Nat) (m : Nat) (first : Nat) (last : Nat) (reps : Nat), s.blk.unitTakes ch m 2 = true ∧ first < 16 ∧ last < 16 ∧ 1 ≤ reps ∧ reps ≤ 65536 ∧ (s.blk.unit (unitNo ch m)).inPim = true ∧ ((last < first ∨ (List.range (last + 1 - first)).all (fun i => entryOk (s.blk.unit (unitNo ch m)).wfmt (tget 0 (first + i) (s.blk.unit (unitNo ch m)).steps)) = false)) :=
  ⟨st (withUnit 50 { pimUnit with steps := [(0, 2 ^ 62 + 2 ^ 39)] }), 3, 2, 0, 1, 1, by decide +kernel⟩

theorem witness_UnitSequences_4a : ∃ (s : State) (u : Nat) (x : SeqSt), s.blk.unitsIdle = true ∧ (s.blk.unit u).seq = some x ∧ x.inStep = true ∧ x.direct = none ∧ s.blk.chanQuiet (unitCh u) = true ∧ (s.blk.unit u).asked = none ∧ x.erred = 0 ∧ x.stop = 0 ∧ ((x.i ≠ x.last ∨ x.n + 1 ≠ x.reps)) ∧ (s.blk.unit u).slot.isSome = true ∧ s.blk.mustYield u = false ∧ (s.blk.die (unitDie u)).refused = false ∧ (s.blk.pair (unitCh u) (unitPair u)).urgent = false ∧ x.i ≠ x.last :=
  ⟨st (withUnit 50 { pimUnit with slot := some 0, seq := some { seqIn with direct := none, first := 2, last := 5, i := 4, reps := 3 } }), 50, { seqIn with direct := none, first := 2, last := 5, i := 4, reps := 3 }, by decide +kernel⟩

theorem witness_UnitSequences_4b : ∃ (s : State) (u : Nat) (x : SeqSt), s.blk.unitsIdle = true ∧ (s.blk.unit u).seq = some x ∧ x.inStep = true ∧ x.direct = none ∧ s.blk.chanQuiet (unitCh u) = true ∧ (s.blk.unit u).asked = none ∧ x.erred = 0 ∧ x.stop = 0 ∧ ((x.i ≠ x.last ∨ x.n + 1 ≠ x.reps)) ∧ (s.blk.unit u).slot.isSome = true ∧ s.blk.mustYield u = false ∧ (s.blk.die (unitDie u)).refused = false ∧ (s.blk.pair (unitCh u) (unitPair u)).urgent = false ∧ x.i = x.last ∧ x.n + 1 ≠ x.reps :=
  ⟨st (withUnit 50 { pimUnit with slot := some 0, seq := some { seqIn with direct := none, first := 2, last := 5, i := 5, reps := 3 } }), 50, { seqIn with direct := none, first := 2, last := 5, i := 5, reps := 3 }, by decide +kernel⟩

theorem witness_UnitSequences_5 : ∃ (s : State) (u : Nat) (x : SeqSt), s.blk.unitsIdle = true ∧ (s.blk.unit u).seq = some x ∧ x.inStep = true ∧ ((x.direct.isSome = true ∨ x.i = x.last)) ∧ x.n + 1 = x.reps ∧ x.cmd.own = none ∧ x.cmd.hold = false ∧ s.blk.chanQuiet (unitCh u) = true ∧ (s.blk.unit u).asked = none ∧ x.erred = 0 ∧ x.stop = 0 :=
  ⟨st (withUnit 50 { pimUnit with slot := some 0, seq := some seqIn }), 50, seqIn, by decide +kernel⟩

theorem witness_UnitSequences_6 : ∃ (s : State) (u : Nat) (k : Nat) (t : Xfer), s.blk.unitsIdle = true ∧ (s.blk.unit u).xfers = [t] ∧ t.sets.contains k = true ∧ t.cmd.own = none :=
  ⟨st (withUnit 50 { pimUnit with xfers := [⟨[1], 5, false, [1, 2, 3, 4], 0, 0, seqIn.cmd, true⟩] }), 50, 1, ⟨[1], 5, false, [1, 2, 3, 4], 0, 0, seqIn.cmd, true⟩, by decide +kernel⟩

theorem witness_UnitSequences_7 : ∃ (s : State) (u : Nat) (k : Nat) (t : Xfer) (c : TreeCtx), s.blk.unitsIdle = true ∧ (s.blk.unit u).xfers = [t] ∧ t.sets.contains k = true ∧ t.cmd.own = some (c.q, c.seq) ∧ t.cmd.win = some c.win ∧ c.stack = unitStack u ∧ t.err = 0 ∧ s.blk.cu.trees = [c] :=
  ⟨st { withUnit 50 { pimUnit with xfers := [⟨[1], 5, false, [1, 2, 3, 4], 128, 0, { seqIn.cmd with own := some (3, 4), win := some 7 }, true⟩] } with cu := { (withUnit 50 { pimUnit with xfers := [⟨[1], 5, false, [1, 2, 3, 4], 128, 0, { seqIn.cmd with own := some (3, 4), win := some 7 }, true⟩] }).cu with trees := [⟨3, 4, 0, 7, [], 0, none, 2, []⟩] } }, 50, 1, ⟨[1], 5, false, [1, 2, 3, 4], 128, 0, { seqIn.cmd with own := some (3, 4), win := some 7 }, true⟩, ⟨3, 4, 0, 7, [], 0, none, 2, []⟩, by decide +kernel⟩

theorem witness_RowSteps_1a : ∃ (s : State) (u : Nat) (side : Nat) (pend : Nat) (row : Nat) (x : SeqSt), s.blk.unitsIdle = true ∧ side < 2 ∧ pend < 2 ∧ row < 32768 ∧ s.blk.stepsAt u (3 * 2 ^ 60 + 2 ^ (42 + side) + pend * 2 ^ 41 + row * 2 ^ (26 - 15 * side)) x = true ∧ (s.blk.unit u).cur.length = 2 ∧ (s.blk.unit u).pend.length = 2 ∧ s.blk.rowStatus (unitCh u) (unitBank u side) row true = 0 ∧ s.blk.rowFresh (unitCh u) (unitBank u side) row = false :=
  ⟨st (openMem (withUnit 50 (atStep pimUnit (3 * 2 ^ 60 + 2 ^ 43 + 7 * 2 ^ 11)))), 50, 1, 0, 7, seqAt (3 * 2 ^ 60 + 2 ^ 43 + 7 * 2 ^ 11), by decide +kernel⟩

theorem witness_RowSteps_1b : ∃ (s : State) (u : Nat) (side : Nat) (pend : Nat) (row : Nat) (x : SeqSt), s.blk.unitsIdle = true ∧ side < 2 ∧ pend < 2 ∧ row < 32768 ∧ s.blk.stepsAt u (3 * 2 ^ 60 + 2 ^ (42 + side) + pend * 2 ^ 41 + row * 2 ^ (26 - 15 * side)) x = true ∧ (s.blk.unit u).cur.length = 2 ∧ (s.blk.unit u).pend.length = 2 ∧ s.blk.rowStatus (unitCh u) (unitBank u side) row true = 0 ∧ s.blk.rowFresh (unitCh u) (unitBank u side) row = false :=
  ⟨st (openMem (withUnit 50 (atStep { pimUnit with cur := [none, some 8] } (3 * 2 ^ 60 + 2 ^ 43 + 2 ^ 41 + 7 * 2 ^ 11)))), 50, 1, 1, 7, seqAt (3 * 2 ^ 60 + 2 ^ 43 + 2 ^ 41 + 7 * 2 ^ 11), by decide +kernel⟩

theorem witness_RowSteps_2 : ∃ (s : State) (u : Nat) (side : Nat) (row : Nat) (x : SeqSt), s.blk.unitsIdle = true ∧ side < 2 ∧ row < 32768 ∧ s.blk.stepsAt u (3 * 2 ^ 60 + 2 ^ (42 + side) + row * 2 ^ (26 - 15 * side)) x = true ∧ s.blk.rowStatus (unitCh u) (unitBank u side) row true ≠ 0 :=
  ⟨st (withUnit 50 (atStep pimUnit (3 * 2 ^ 60 + 2 ^ 42 + 7 * 2 ^ 26))), 50, 0, 7, seqAt (3 * 2 ^ 60 + 2 ^ 42 + 7 * 2 ^ 26), by decide +kernel⟩

theorem witness_RowSteps_3 : ∃ (s : State) (ch : Nat) (m : Nat) (side : Nat) (row : Nat), s.blk.unitTakes ch m 2 = true ∧ side < 2 ∧ row < 32768 ∧ (s.blk.unit (unitNo ch m)).inPim = true ∧ (s.blk.unit (unitNo ch m)).slot = none ∧ (s.blk.die (ch / 2)).refused = false ∧ (s.blk.die (ch / 2)).sr = .awake ∧ s.blk.holders (ch / 2) = [] ∧ 1 ≤ (s.blk.die (ch / 2)).allow ∧ (s.blk.eligMask (ch / 2)).testBit (unitNo ch m % 32) = true ∧ s.blk.sdg.withdrawn = [] ∧ s.blk.cu.units = [(unitNo ch m, s.blk.unit (unitNo ch m))] ∧ s.blk.rowStatus ch (2 * m + side) row true = 0 ∧ s.blk.rowFresh ch (2 * m + side) row = false ∧ (s.blk.unit (unitNo ch m)).cur = [none, none] :=
  ⟨st (openMem (withUnit 50 pimUnit)), 3, 2, 1, 7, by decide +kernel⟩

theorem witness_RowSteps_4 : ∃ (s : State) (u : Nat) (side : Nat) (op : Nat) (gf : Nat) (gc : Nat) (set : Nat) (clear : Nat) (lat : Nat) (seg : Nat) (row : Nat) (x : SeqSt), s.blk.unitsIdle = true ∧ side < 2 ∧ op < 5 ∧ 1 ≤ gc ∧ gf + gc ≤ 8 ∧ set < 4 ∧ clear < 2 ∧ lat < 256 ∧ seg < 4 ∧ s.blk.stepsAt u (4 * 2 ^ 60 + op * 2 ^ 41 + 2 ^ (39 + side) + gf * 2 ^ 36 + (gc - 1) * 2 ^ 33 + set * 2 ^ 31 + clear * 2 ^ 30 + lat * 2 ^ 17 + seg * 2 ^ 14) x = true ∧ (s.blk.unit u).cur.getD side none = some row ∧ s.blk.rowStatus (unitCh u) (unitBank u side) row false = 0 ∧ s.blk.rowClean u side row gf gc = true :=
  ⟨st (openMem (withUnit 50 (atStep { pimUnit with cur := [none, some 7] } (4 * 2 ^ 60 + 2 ^ 40 + 2 * 2 ^ 31)))), 50, 1, 0, 0, 1, 2, 0, 0, 0, 7, seqAt (4 * 2 ^ 60 + 2 ^ 40 + 2 * 2 ^ 31), by decide +kernel⟩

theorem witness_RowSteps_5 : ∃ (s : State) (u : Nat) (body : Nat) (side : Nat) (x : SeqSt), s.blk.unitsIdle = true ∧ body < 2 ^ 44 ∧ s.blk.stepsAt u (4 * 2 ^ 60 + body) x = true ∧ side < 2 ∧ body.testBit 29 = false ∧ sides (bits body 40 39) = [side] ∧ (s.blk.unit u).cur.getD side none = none :=
  ⟨st (withUnit 50 (atStep pimUnit (4 * 2 ^ 60 + 2 ^ 39))), 50, 2 ^ 39, 0, seqAt (4 * 2 ^ 60 + 2 ^ 39), by decide +kernel⟩

theorem witness_RowSteps_6 : ∃ (s : State) (u : Nat) (side : Nat) (gf : Nat) (lat : Nat) (row : Nat) (x : SeqSt), s.blk.unitsIdle = true ∧ s.memWf ∧ u < 6144 ∧ side < 2 ∧ gf < 8 ∧ lat < 256 ∧ row < 32768 ∧ s.blk.stepsAt u (5 * 2 ^ 60 + side * 2 ^ 43 + gf * 2 ^ 40 + lat * 2 ^ 29) x = true ∧ (s.blk.unit u).cur.getD side none = some row ∧ s.blk.rowStatus (unitCh u) (unitBank u side) row false = 0 ∧ ((∀ k, k < 256 → (tget zeroWord k (s.blk.unit u).latch).length = 32)) ∧ ((groupMargin s.blk.mem.cells (gidOf (unitCh u) (unitBank u side) row gf) true).getD 0 0).toNat / 64 ≠ 3 :=
  ⟨st (openMem (withUnit 50 (atStep { pimUnit with cur := [none, some 7], latch := [(3, List.replicate 32 7)] } (5 * 2 ^ 60 + 2 ^ 43 + 5 * 2 ^ 40 + 3 * 2 ^ 29)))), 50, 1, 5, 3, 7, seqAt (5 * 2 ^ 60 + 2 ^ 43 + 5 * 2 ^ 40 + 3 * 2 ^ 29), by decide +kernel⟩

theorem witness_RowSteps_7 : ∃ (s : State) (u : Nat) (set : Nat) (tag : Nat) (clear : Bool) (x : SeqSt), s.blk.unitsIdle = true ∧ set < 4 ∧ tag < 65536 ∧ s.blk.stepsAt u (6 * 2 ^ 60 + set * 2 ^ 40 + tag * 2 ^ 14 + (if clear then 2 ^ 5 else 0)) x = true ∧ (s.blk.unit u).acc.length = 4 ∧ (s.blk.unit u).wfmt ≠ cBF16 ∧ (s.blk.pay (unitCh u) cCompute (3 * cdiv (24 * (s.blk.unit u).nvec + 4) 128)).isSome = true :=
  ⟨st (withUnit 50 (atStep { pimUnit with acc := [⟨false, [1, 2, 0, 0, 3, 4, 0, 0]⟩, .zero, .zero, .zero] } (6 * 2 ^ 60 + 9 * 2 ^ 14 + 2 ^ 5))), 50, 0, 9, true, seqAt (6 * 2 ^ 60 + 9 * 2 ^ 14 + 2 ^ 5), by decide +kernel⟩

theorem witness_LocalSteps_1 : ∃ (s : State) (u : Nat) (e : Nat) (n : Nat) (set : Nat) (rescale : Bool) (x : SeqSt), e < 256 ∧ 1 ≤ n ∧ n ≤ 64 ∧ set < 4 ∧ s.blk.stepsAt u (0xA * 2 ^ 60 + e * 2 ^ 36 + (n - 1) * 2 ^ 28 + set * 2 ^ 26 + (if rescale then 2 ^ 25 else 0)) x = true :=
  ⟨st (withUnit 50 (atStep { pimUnit with score := [(3, 0x3F800000)] } (0xA * 2 ^ 60 + 3 * 2 ^ 36 + 2 ^ 25))), 50, 3, 1, 0, true, seqAt (0xA * 2 ^ 60 + 3 * 2 ^ 36 + 2 ^ 25), by decide +kernel⟩

theorem witness_LocalSteps_2 : ∃ (s : State) (u : Nat) (e : Nat) (n : Nat) (lat : Nat) (out : Nat) (x : SeqSt), e < 256 ∧ 1 ≤ n ∧ n ≤ 64 ∧ lat < 256 ∧ out < 256 ∧ s.blk.stepsAt u (0xB * 2 ^ 60 + e * 2 ^ 36 + (n - 1) * 2 ^ 28 + lat * 2 ^ 20 + out * 2 ^ 12) x = true :=
  ⟨st (withUnit 50 (atStep { pimUnit with m := [0, 0, 0, 0] } (0xB * 2 ^ 60 + 3 * 2 ^ 36 + 2 ^ 28 + 4 * 2 ^ 12))), 50, 3, 2, 0, cE4M3, seqAt (0xB * 2 ^ 60 + 3 * 2 ^ 36 + 2 ^ 28 + 4 * 2 ^ 12), by decide +kernel⟩

theorem witness_LocalSteps_3 : ∃ (s : State) (u : Nat) (lat : Nat) (n : Nat) (esz : Nat) (m : Nat) (x : SeqSt), lat < 256 ∧ 1 ≤ n ∧ n ≤ 256 ∧ esz < 2 ∧ m < 64 ∧ s.blk.stepsAt u (0xC * 2 ^ 60 + lat * 2 ^ 36 + (n - 1) * 2 ^ 28 + esz * 2 ^ 27 + m * 2 ^ 21) x = true :=
  ⟨st (withUnit 50 (atStep { pimUnit with tab0 := ⟨zeros 32, [1, 0] ++ zeros 30, 0⟩ } (0xC * 2 ^ 60 + 3 * 2 ^ 36 + 2 * 2 ^ 21))), 50, 3, 1, 0, 2, seqAt (0xC * 2 ^ 60 + 3 * 2 ^ 36 + 2 * 2 ^ 21), by decide +kernel⟩

theorem witness_LocalSteps_4 : ∃ (s : State) (u : Nat) (lat : Nat) (n : Nat) (op : Nat) (x : SeqSt), lat < 256 ∧ 1 ≤ n ∧ n ≤ 256 ∧ op < 3 ∧ s.blk.stepsAt u (0xD * 2 ^ 60 + lat * 2 ^ 36 + (n - 1) * 2 ^ 28 + op * 2 ^ 25) x = true :=
  ⟨st (withUnit 50 (atStep { pimUnit with s := [0x40000000, 0, 0, 0] } (0xD * 2 ^ 60 + 3 * 2 ^ 36 + 2 ^ 25))), 50, 3, 1, 1, seqAt (0xD * 2 ^ 60 + 3 * 2 ^ 36 + 2 ^ 25), by decide +kernel⟩

theorem witness_LocalSteps_5 : ∃ (s : State) (u : Nat) (lat : Nat) (n : Nat) (set : Nat) (x : SeqSt), lat < 256 ∧ 1 ≤ n ∧ n ≤ 256 ∧ set < 4 ∧ s.blk.stepsAt u (0xE * 2 ^ 60 + lat * 2 ^ 36 + (n - 1) * 2 ^ 28 + set * 2 ^ 26) x = true :=
  ⟨st (withUnit 50 (atStep { pimUnit with latch := [(3, List.replicate 32 0x38)] } (0xE * 2 ^ 60 + 3 * 2 ^ 36 + 2 * 2 ^ 26))), 50, 3, 1, 2, seqAt (0xE * 2 ^ 60 + 3 * 2 ^ 36 + 2 * 2 ^ 26), by decide +kernel⟩

theorem witness_BankStarts_1 : ∃ (s : State) (q : Nat) (seq : Nat) (f : Flight), s.blk.hubUp = true ∧ s.blk.fresh? q seq 0x10 = some f ∧ s.blk.gemvCheck f = stOK ∧ s.blk.planOf (eHandle f.raw 3) 0 = none :=
  ⟨st (withEntry gemvRaw gemvDescs), 0, 0, entryOf gemvRaw 4, by decide +kernel⟩

theorem witness_BankStarts_2 : ∃ (s : State) (q : Nat) (seq : Nat) (f : Flight) (p : Bytes) (wd : Desc) (xd : Desc) (yd : Desc), (s.blk.hubUp = true ∧ s.blk.fresh? q seq 0x10 = some f ∧ s.blk.gemvCheck f = stOK ∧ s.blk.planOf (eHandle f.raw 3) 0 = some p ∧ s.blk.fdesc f (eHandle f.raw 0) = some wd ∧ s.blk.fdesc f (eHandle f.raw 1) = some xd ∧ s.blk.fdesc f (eHandle f.raw 2) = some yd ∧ s.blk.planOk p (Gemv.n f.raw) (Gemv.k f.raw) (Gemv.wfmt f.raw) wd = true ∧ Gemv.destBank f.raw = false ∧ Gemv.select f.raw = false ∧ (s.blk.gemvWork f xd yd).goesOn = true) ∧ s.blk.gemvReadsClean f xd yd :=
  ⟨st { withEntry gemvMx gemvMxDescs with plans := [⟨hnd 3, 0, gemvPlan, [], []⟩] }, 0, 0, entryOf gemvMx 4, gemvPlan, dense cMXE4M3 0 [32, 2] [1, 32], dense cMXE4M3 8192 [32] [1], dense cFP32 10240 [2] [1], by decide +kernel, (by decide +kernel)⟩

theorem witness_BankStarts_3 : ∃ (s : State) (q : Nat) (seq : Nat) (f : Flight) (p : Bytes) (wd : Desc), s.blk.hubUp = true ∧ s.blk.fresh? q seq 0x10 = some f ∧ s.blk.gemvCheck f = stOK ∧ s.blk.planOf (eHandle f.raw 3) 0 = some p ∧ s.blk.fdesc f (eHandle f.raw 0) = some wd ∧ s.blk.planOk p (Gemv.n f.raw) (Gemv.k f.raw) (Gemv.wfmt f.raw) wd = false :=
  ⟨st { withEntry gemvRaw gemvDescs with plans := [⟨hnd 3, 0, zeros 16, [], []⟩] }, 0, 0, entryOf gemvRaw 4, zeros 16, dense cE4M3 0 [256, 2] [1, 65536], by decide +kernel⟩

theorem witness_BankStarts_4a : ∃ (s : State) (q : Nat) (seq : Nat) (f : Flight), s.blk.hubUp = true ∧ s.blk.fresh? q seq 0x10 = some f ∧ ((s.blk.fdesc f (eHandle f.raw 0) = none ∨ pairOk (Gemv.wfmt f.raw) (Gemv.afmt f.raw) = false ∨ Gemv.batch f.raw = 0 ∨ 16 < Gemv.batch f.raw ∨ Gemv.n f.raw = 0 ∨ Gemv.k f.raw % kMult (Gemv.wfmt f.raw) ≠ 0)) ∧ 16 < Gemv.batch f.raw :=
  ⟨st (withEntry (entryH 0x10 [hnd 0, hnd 1, hnd 2, hnd 3] ([4, 4, 1, 17, 0, 0, 0, 0] ++ leBytes 4 2 ++ leBytes 4 256)) gemvDescs), 0, 0, entryOf (entryH 0x10 [hnd 0, hnd 1, hnd 2, hnd 3] ([4, 4, 1, 17, 0, 0, 0, 0] ++ leBytes 4 2 ++ leBytes 4 256)) 4, by decide +kernel⟩

theorem witness_BankStarts_4b : ∃ (s : State) (q : Nat) (seq : Nat) (f : Flight), s.blk.hubUp = true ∧ s.blk.fresh? q seq 0x10 = some f ∧ ((s.blk.fdesc f (eHandle f.raw 0) = none ∨ pairOk (Gemv.wfmt f.raw) (Gemv.afmt f.raw) = false ∨ Gemv.batch f.raw = 0 ∨ 16 < Gemv.batch f.raw ∨ Gemv.n f.raw = 0 ∨ Gemv.k f.raw % kMult (Gemv.wfmt f.raw) ≠ 0)) ∧ s.blk.fdesc f (eHandle f.raw 0) = none :=
  ⟨st (withRun .reset gemvRaw), 0, 0, flight gemvRaw .running, by decide +kernel⟩

theorem witness_BankStarts_5 : ∃ (s : State) (q : Nat) (seq : Nat) (f : Flight) (d : Desc), s.blk.hubUp = true ∧ s.blk.fresh? q seq 0x10 = some f ∧ f.progress = 1 ∧ s.blk.planOf (eHandle f.raw 3) 0 = none ∧ s.blk.fdesc f (eHandle f.raw 3) = some d ∧ d.fmt = cUINT8 ∧ s.blk.readsAll f d = true ∧ Dsc.count d ≤ s.blk.planRoom :=
  ⟨st { withEntry gemvRaw gemvDescs with flights := [{ entryOf gemvRaw 4 with progress := 1 }] }, 0, 0, { entryOf gemvRaw 4 with progress := 1 }, dense cUINT8 6144 [16] [1], by decide +kernel⟩

theorem witness_BankStarts_6 : ∃ (s : State) (q : Nat) (seq : Nat) (f : Flight), s.blk.hubUp = true ∧ s.blk.fresh? q seq 0x12 = some f ∧ s.blk.ewAccepts f = true :=
  ⟨st (withEntry ewRaw rowDescs), 0, 0, entryOf ewRaw 3, by decide +kernel⟩

theorem witness_BankStarts_7 : ∃ (s : State) (q : Nat) (seq : Nat) (f : Flight), s.blk.hubUp = true ∧ s.blk.fresh? q seq 0x12 = some f ∧ ((3 < fld f.raw 0x20 1 ∨ 8 ≤ fld f.raw 0x23 1 ∨ eHandle f.raw 3 ≠ 0 ∨ ewPair (fld f.raw 0x21 1) (fld f.raw 0x22 1) = false)) :=
  ⟨st (withEntry (entryH 0x12 [hnd 0, hnd 1, hnd 2, 0] [4, 4, 4, 0]) rowDescs), 0, 0, entryOf (entryH 0x12 [hnd 0, hnd 1, hnd 2, 0] [4, 4, 4, 0]) 3, by decide +kernel⟩

theorem witness_BankStarts_8 : ∃ (s : State) (q : Nat) (seq : Nat) (f : Flight), s.blk.hubUp = true ∧ s.blk.fresh? q seq 0x13 = some f ∧ s.blk.normAccepts f = true :=
  ⟨st (withEntry normRaw rowDescs), 0, 0, entryOf normRaw 3, by decide +kernel⟩

theorem witness_BankStarts_9 : ∃ (s : State) (q : Nat) (seq : Nat) (f : Flight), s.blk.hubUp = true ∧ s.blk.fresh? q seq 0x13 = some f ∧ ((1 < Norm.kind f.raw ∨ Norm.rows f.raw = 0 ∨ 4096 < Norm.rows f.raw ∨ Norm.d f.raw = 0 ∨ [cBF16, cE4M3, cE5M2].contains (Norm.fmt f.raw) = false)) :=
  ⟨st (withEntry (entryH 0x13 [hnd 0, hnd 1, hnd 2, 0] ([2, 4, 0, 0] ++ leBytes 4 1 ++ leBytes 4 256)) rowDescs), 0, 0, entryOf (entryH 0x13 [hnd 0, hnd 1, hnd 2, 0] ([2, 4, 0, 0] ++ leBytes 4 1 ++ leBytes 4 256)) 3, by decide +kernel⟩

theorem witness_BankStarts_10 : ∃ (s : State) (q : Nat) (seq : Nat) (f : Flight) (d : Desc), (s.blk.hubUp = true ∧ s.blk.fresh? q seq 0x14 = some f ∧ s.blk.fdesc f (eHandle f.raw 0) = some d ∧ d.fmt = cUINT8 ∧ 1 ≤ fld f.raw 0x20 4 ∧ fld f.raw 0x20 4 ≤ 65536 ∧ Dsc.count d = 40 * fld f.raw 0x20 4 ∧ zeroAt f.raw 0x14 12 = true ∧ zeroAt f.raw 0x24 92 = true ∧ s.blk.readsAll f d = true) ∧ s.blk.readsClean f d ∧ (chunk 40 (fld f.raw 0x20 4) (s.blk.tensorBytes f d)).all tableEntryOk = true :=
  ⟨st (withEntry tableRaw [dense cUINT8 6144 [40] [1]]), 0, 0, entryOf tableRaw 1, dense cUINT8 6144 [40] [1], by decide +kernel, (by decide +kernel), by decide +kernel⟩

theorem witness_BankStarts_11 : ∃ (s : State) (q : Nat) (seq : Nat) (f : Flight), s.blk.hubUp = true ∧ s.blk.fresh? q seq 0x14 = some f ∧ ((s.blk.countOf f (eHandle f.raw 0) ≠ 40 * fld f.raw 0x20 4 ∨ fld f.raw 0x20 4 = 0)) :=
  ⟨st (withEntry (entryH 0x14 [hnd 0, 0, 0, 0] (leBytes 4 2)) [dense cUINT8 6144 [40] [1]]), 0, 0, entryOf (entryH 0x14 [hnd 0, 0, 0, 0] (leBytes 4 2)) 1, by decide +kernel⟩

theorem witness_Reductions_1 : ∃ (s : State) (f : Flight) (j : Job) (t : TreeCtx), s.blk.onlyJob j = true ∧ s.blk.running? j.q j.seq = some f ∧ eOpcode f.raw = 0x10 ∧ t.q = j.q ∧ t.seq = j.seq ∧ s.blk.cu.trees = [t] ∧ t.left = 0 ∧ t.err = none ∧ j.failed = false ∧ j.wins.all (fun w => j.combined.contains w.win) = false :=
  ⟨st { withEntry gemvRaw gemvDescs with cu := { Blk.reset.cu with jobs := [{ Job.blank 0 0 with wins := [⟨0, [0, 1], []⟩] }], trees := [⟨0, 0, 1, 0, [(1, ⟨5, []⟩)], 0, none, 0, []⟩] } }, entryOf gemvRaw 4, { Job.blank 0 0 with wins := [⟨0, [0, 1], []⟩] }, ⟨0, 0, 1, 0, [(1, ⟨5, []⟩)], 0, none, 0, []⟩, by decide +kernel⟩

theorem witness_Reductions_2 : ∃ (s : State) (f : Flight) (j : Job) (t : TreeCtx) (u : Nat) (e : Nat), s.blk.onlyJob j = true ∧ s.blk.running? j.q j.seq = some f ∧ eOpcode f.raw = 0x10 ∧ t.q = j.q ∧ t.seq = j.seq ∧ s.blk.cu.trees = [t] ∧ t.left = 0 ∧ t.err = some (u, e) ∧ isErr e = true ∧ j.errs = [] ∧ j.spoil = [] ∧ s.blk.cu.units = [] ∧ f.preempted = false :=
  ⟨st { withEntry gemvRaw gemvDescs with cu := { Blk.reset.cu with jobs := [{ Job.blank 0 0 with wins := [⟨0, [0, 1], []⟩] }], trees := [⟨0, 0, 1, 0, [], 0, some (400, stCHECK), 0, []⟩] } }, entryOf gemvRaw 4, { Job.blank 0 0 with wins := [⟨0, [0, 1], []⟩] }, ⟨0, 0, 1, 0, [], 0, some (400, stCHECK), 0, []⟩, 400, stCHECK, by decide +kernel⟩

theorem witness_Reductions_3 : ∃ (s : State) (f : Flight) (j : Job) (w : WinSum) (yd : Desc), s.blk.onlyJob j = true ∧ s.blk.running? j.q j.seq = some f ∧ eOpcode f.raw = 0x10 ∧ s.blk.fdesc f (eHandle f.raw 2) = some yd ∧ Dsc.kind yd ≠ 1 ∧ j.wins = [w] ∧ w.due = [] ∧ j.combined = [] ∧ j.failed = false ∧ j.prog = [] ∧ j.rows = [] ∧ s.blk.cu.units = [] ∧ s.blk.cu.trees = [] ∧ Gemv.passes f.raw = 1 ∧ (s.blk.gemvStore f j w yd).1.goesOn = true :=
  ⟨st { withEntry gemvRaw gemvDescs with cu := { Blk.reset.cu with jobs := [{ Job.blank 0 0 with wins := [⟨0, [], [⟨0, 0, 0, 0, [(1, ⟨2 ^ 18, []⟩)], 0, none, 0, []⟩]⟩] }] } }, entryOf gemvRaw 4, { Job.blank 0 0 with wins := [⟨0, [], [⟨0, 0, 0, 0, [(1, ⟨2 ^ 18, []⟩)], 0, none, 0, []⟩]⟩] }, ⟨0, [], [⟨0, 0, 0, 0, [(1, ⟨2 ^ 18, []⟩)], 0, none, 0, []⟩]⟩, dense cFP32 10240 [2] [1], by decide +kernel⟩

theorem witness_Reductions_4 : ∃ (s : State) (f : Flight) (j : Job) (t : TreeCtx), s.blk.onlyJob j = true ∧ s.blk.running? j.q j.seq = some f ∧ eOpcode f.raw = 0x13 ∧ t.q = j.q ∧ t.seq = j.seq ∧ s.blk.cu.trees = [t] ∧ t.left = 0 ∧ t.err = none ∧ j.failed = false ∧ j.rows = [(t.win, [])] ∧ Norm.fmt f.raw ≠ cBF16 :=
  ⟨st { withEntry normRaw rowDescs with cu := { Blk.reset.cu with jobs := [{ Job.blank 0 0 with rows := [(0, [])] }], trees := [⟨0, 0, 0, 0, [(0, ⟨5, []⟩), (1, ⟨2 ^ 20, []⟩)], 0, none, 0, []⟩] } }, entryOf normRaw 3, { Job.blank 0 0 with rows := [(0, [])] }, ⟨0, 0, 0, 0, [(0, ⟨5, []⟩), (1, ⟨2 ^ 20, []⟩)], 0, none, 0, []⟩, by decide +kernel⟩

theorem witness_Attention_1 : ∃ (s : State) (q : Nat) (seq : Nat) (f : Flight), s.blk.hubUp = true ∧ s.blk.fresh? q seq 0x11 = some f ∧ s.blk.attnCheck f = stOK ∧ s.blk.tableCopy f = none :=
  ⟨st (attnBlk 1), 0, 0, entryOf (attnRaw 1) 4, by decide +kernel⟩

theorem witness_Attention_2 : ∃ (s : State) (q : Nat) (seq : Nat) (f : Flight) (p : PlanCopy), s.blk.hubUp = true ∧ s.blk.fresh? q seq 0x11 = some f ∧ s.blk.attnCheck f = stOK ∧ s.blk.tableCopy f = some p ∧ p.key ≠ [Attn.kvfmt f.raw] :=
  ⟨st { attnBlk 1 with plans := [⟨hnd 1, 1, zeros 8, [5], []⟩] }, 0, 0, entryOf (attnRaw 1) 4, ⟨hnd 1, 1, zeros 8, [5], []⟩, by decide +kernel⟩

theorem witness_Attention_3 : ∃ (s : State) (q : Nat) (seq : Nat) (f : Flight), s.blk.hubUp = true ∧ s.blk.fresh? q seq 0x11 = some f ∧ (([64, 128, 256].contains (Attn.H f.raw) = false ∨ Attn.nq f.raw = 0 ∨ 4 < Attn.nq f.raw ∨ 1 < Attn.mode f.raw ∨ Attn.heads f.raw = 0 ∨ Attn.length f.raw < Attn.nq f.raw)) :=
  ⟨st (withEntry (entryH 0x11 [hnd 0, hnd 1, hnd 2, 0] [0, 4, 4, 1, 65, 0, 1, 0, 1]) attnDescs), 0, 0, entryOf (entryH 0x11 [hnd 0, hnd 1, hnd 2, 0] [0, 4, 4, 1, 65, 0, 1, 0, 1]) 4, by decide +kernel⟩

theorem witness_Attention_4 : ∃ (s : State) (q : Nat) (seq : Nat) (f : Flight) (p : PlanCopy) (d : Desc), (s.blk.hubUp = true ∧ s.blk.fresh? q seq 0x11 = some f ∧ s.blk.attnCheck f = stOK ∧ s.blk.tableCopy f = some p ∧ p.key = [Attn.kvfmt f.raw] ∧ 8 * Attn.records f.raw ≤ p.data.length ∧ s.blk.tableOk p.data (Attn.H f.raw) (Attn.heads f.raw) (Attn.records f.raw) (Attn.records f.raw) = true ∧ s.blk.attnPlaces f ((List.range (Attn.records f.raw)).filterMap (fun i => s.blk.ablk p.data (Attn.H f.raw) i)) = stOK ∧ Attn.mode f.raw = 1 ∧ Attn.flags f.raw = 0 ∧ s.blk.fdesc f (eHandle f.raw 0) = some d ∧ (s.blk.attnWork f d).goesOn = true) ∧ s.blk.attnReadsClean f d :=
  ⟨st { attnBlk 1 with plans := [⟨hnd 1, 1, zeros 8, [4], []⟩] }, 0, 0, entryOf (attnRaw 1) 4, ⟨hnd 1, 1, zeros 8, [4], []⟩, dense cE4M3 0x200000 [64] [1], by decide +kernel, (by decide +kernel)⟩

theorem witness_Attention_5 : ∃ (s : State) (q : Nat) (seq : Nat) (f : Flight) (d : Desc), (s.blk.hubUp = true ∧ s.blk.fresh? q seq 0x11 = some f ∧ f.progress = 1 ∧ s.blk.tableCopy f = none ∧ s.blk.fdesc f (eHandle f.raw 1) = some d ∧ d.fmt = cUINT8 ∧ Dsc.count d = 8 * Attn.records f.raw ∧ s.blk.readsAll f d = true) ∧ s.blk.readsClean f d ∧ (Dsc.count d ≤ s.blk.planRoom ∧ s.blk.tableOk (s.blk.tensorBytes f d) (Attn.H f.raw) (Attn.heads f.raw) 0 (Attn.records f.raw) = true) :=
  ⟨st { attnBlk 1 with flights := [{ entryOf (attnRaw 1) 4 with progress := 1 }] }, 0, 0, { entryOf (attnRaw 1) 4 with progress := 1 }, dense cUINT8 0x200100 [8] [1], by decide +kernel, (by decide +kernel), by decide +kernel⟩

theorem witness_Attention_6a : ∃ (s : State) (f : Flight) (j : Job) (x : HeadSt) (w : WinSum), s.blk.onlyJob j = true ∧ s.blk.running? j.q j.seq = some f ∧ eOpcode f.raw = 0x11 ∧ j.failed = false ∧ j.prog.isEmpty = false ∧ j.heads = [x] ∧ x.phase = 0 ∧ j.wins = [w] ∧ w.win = 0 ∧ w.due = [] ∧ Attn.live f.raw j.sel ≠ [] ∧ (ctxFlags w.got).testBit 7 = false :=
  ⟨st (withJob (attnBlk 0) (attnJob ⟨0, 0, [0], [], false, 0, []⟩ ⟨0, [], [⟨0, 0, 0, 0, [(64, ⟨2 ^ 18, []⟩)], 0, none, 0, []⟩]⟩)), entryOf (attnRaw 0) 4, attnJob ⟨0, 0, [0], [], false, 0, []⟩ ⟨0, [], [⟨0, 0, 0, 0, [(64, ⟨2 ^ 18, []⟩)], 0, none, 0, []⟩]⟩, ⟨0, 0, [0], [], false, 0, []⟩, ⟨0, [], [⟨0, 0, 0, 0, [(64, ⟨2 ^ 18, []⟩)], 0, none, 0, []⟩]⟩, by decide +kernel⟩

theorem witness_Attention_6b : ∃ (s : State) (f : Flight) (j : Job) (x : HeadSt) (w : WinSum), s.blk.onlyJob j = true ∧ s.blk.running? j.q j.seq = some f ∧ eOpcode f.raw = 0x11 ∧ j.failed = false ∧ j.prog.isEmpty = false ∧ j.heads = [x] ∧ x.phase = 0 ∧ j.wins = [w] ∧ w.win = 0 ∧ w.due = [] ∧ Attn.live f.raw j.sel ≠ [] ∧ (ctxFlags w.got).testBit 7 = true :=
  ⟨st (withJob (attnBlk 0) (attnJob ⟨0, 0, [0], [], false, 0, []⟩ ⟨0, [], [⟨0, 0, 0, 0, [], 128, none, 0, []⟩]⟩)), entryOf (attnRaw 0) 4, attnJob ⟨0, 0, [0], [], false, 0, []⟩ ⟨0, [], [⟨0, 0, 0, 0, [], 128, none, 0, []⟩]⟩, ⟨0, 0, [0], [], false, 0, []⟩, ⟨0, [], [⟨0, 0, 0, 0, [], 128, none, 0, []⟩]⟩, by decide +kernel⟩

theorem witness_Attention_7a : ∃ (s : State) (f : Flight) (j : Job) (h : Nat) (x : HeadSt) (w : WinSum), s.blk.onlyJob j = true ∧ s.blk.running? j.q j.seq = some f ∧ eOpcode f.raw = 0x11 ∧ j.failed = false ∧ j.heads[h]? = some x ∧ x.phase = 1 ∧ j.win? (Attn.win x.runs h) = some w ∧ w.due = [] ∧ x.runs < 3 :=
  ⟨st (withJob (attnBlk 1) (attnJob ⟨1, 2, [0], [0], false, 0, []⟩ ⟨2048, [], [⟨0, 0, 0, 2048, [(66, ⟨0, [(0, 0, 0x3F000000)]⟩)], 0, none, 0, []⟩]⟩)), entryOf (attnRaw 1) 4, attnJob ⟨1, 2, [0], [0], false, 0, []⟩ ⟨2048, [], [⟨0, 0, 0, 2048, [(66, ⟨0, [(0, 0, 0x3F000000)]⟩)], 0, none, 0, []⟩]⟩, 0, ⟨1, 2, [0], [0], false, 0, []⟩, ⟨2048, [], [⟨0, 0, 0, 2048, [(66, ⟨0, [(0, 0, 0x3F000000)]⟩)], 0, none, 0, []⟩]⟩, by decide +kernel⟩

theorem witness_Attention_7b : ∃ (s : State) (f : Flight) (j : Job) (h : Nat) (x : HeadSt) (w : WinSum), s.blk.onlyJob j = true ∧ s.blk.running? j.q j.seq = some f ∧ eOpcode f.raw = 0x11 ∧ j.failed = false ∧ j.heads[h]? = some x ∧ x.phase = 1 ∧ j.win? (Attn.win x.runs h) = some w ∧ w.due = [] ∧ x.runs < 3 :=
  ⟨st (withJob (attnBlk 1) (attnJob ⟨1, 2, [0], [0], false, 0, []⟩ ⟨2048, [], [⟨0, 0, 0, 2048, [(66, ⟨0, [(0, 0, 0)]⟩)], 0, none, 0, []⟩]⟩)), entryOf (attnRaw 1) 4, attnJob ⟨1, 2, [0], [0], false, 0, []⟩ ⟨2048, [], [⟨0, 0, 0, 2048, [(66, ⟨0, [(0, 0, 0)]⟩)], 0, none, 0, []⟩]⟩, 0, ⟨1, 2, [0], [0], false, 0, []⟩, ⟨2048, [], [⟨0, 0, 0, 2048, [(66, ⟨0, [(0, 0, 0)]⟩)], 0, none, 0, []⟩]⟩, by decide +kernel⟩

theorem witness_Attention_8 : ∃ (s : State) (f : Flight) (j : Job) (h : Nat) (x : HeadSt) (w : WinSum) (v : Nat), s.blk.onlyJob j = true ∧ s.blk.running? j.q j.seq = some f ∧ eOpcode f.raw = 0x11 ∧ j.failed = false ∧ j.errs = [] ∧ j.spoil = [] ∧ f.preempted = false ∧ j.heads[h]? = some x ∧ x.phase = 1 ∧ j.win? (Attn.win x.runs h) = some w ∧ w.due = [] ∧ x.runs = 3 ∧ s.blk.cu.units = [] ∧ x.open' = [v] ∧ v < Attn.nq f.raw ∧ (minPart w.got (Attn.tagBase f.raw h + Attn.H f.raw * Attn.nq f.raw + 2 * Attn.nq f.raw + v)).isZero = true :=
  ⟨st (withJob (attnBlk 1) (attnJob ⟨1, 3, [0], [0], false, 0, []⟩ ⟨3072, [], [⟨0, 0, 0, 3072, [(66, ⟨0, [(0, 0, 0)]⟩)], 0, none, 0, []⟩]⟩)), entryOf (attnRaw 1) 4, attnJob ⟨1, 3, [0], [0], false, 0, []⟩ ⟨3072, [], [⟨0, 0, 0, 3072, [(66, ⟨0, [(0, 0, 0)]⟩)], 0, none, 0, []⟩]⟩, 0, ⟨1, 3, [0], [0], false, 0, []⟩, ⟨3072, [], [⟨0, 0, 0, 3072, [(66, ⟨0, [(0, 0, 0)]⟩)], 0, none, 0, []⟩]⟩, 0, by decide +kernel⟩

theorem witness_VectorArithmetic_1 : ∃ (s : State) (r : VeRun) (c : VeCtx), s.blk.veAt 1 r c = true :=
  ⟨st (veBlk cFP32 (ins 1 1 1 1 0 0 0x80000000) veRegs), veRunOf cFP32 (ins 1 1 1 1 0 0 0x80000000), veRegs, by decide +kernel⟩

theorem witness_VectorArithmetic_2 : ∃ (s : State) (r : VeRun) (c : VeCtx), s.blk.veAt 2 r c = true :=
  ⟨st (veBlk cFP32 (ins 2 3 1 2 0 1 0) veRegs), veRunOf cFP32 (ins 2 3 1 2 0 1 0), veRegs, by decide +kernel⟩

theorem witness_VectorArithmetic_3 : ∃ (s : State) (r : VeRun) (c : VeCtx), s.blk.veAt 3 r c = true :=
  ⟨st (veBlk cFP32 (ins 3 3 1 2 0 1 0) veRegs), veRunOf cFP32 (ins 3 3 1 2 0 1 0), veRegs, by decide +kernel⟩

theorem witness_VectorArithmetic_4 : ∃ (s : State) (r : VeRun) (c : VeCtx), s.blk.veAt 4 r c = true :=
  ⟨st (veBlk cFP32 (ins 4 3 1 2 1 1 0) veRegs), veRunOf cFP32 (ins 4 3 1 2 1 1 0), veRegs, by decide +kernel⟩

theorem witness_VectorArithmetic_5 : ∃ (s : State) (r : VeRun) (c : VeCtx), s.blk.veAt 5 r c = true :=
  ⟨st (veBlk cFP32 (ins 5 3 1 2 0 1 0) veRegs), veRunOf cFP32 (ins 5 3 1 2 0 1 0), veRegs, by decide +kernel⟩

theorem witness_VectorArithmetic_6 : ∃ (s : State) (r : VeRun) (c : VeCtx), s.blk.veAt 6 r c = true :=
  ⟨st (veBlk cFP32 (ins 6 3 1 2 0 1 0) veRegs), veRunOf cFP32 (ins 6 3 1 2 0 1 0), veRegs, by decide +kernel⟩

theorem witness_VectorArithmetic_7 : ∃ (s : State) (r : VeRun) (c : VeCtx), s.blk.veAt 7 r c = true :=
  ⟨st (veBlk cFP32 (ins 7 3 1 0 0 1 0) veRegs), veRunOf cFP32 (ins 7 3 1 0 0 1 0), veRegs, by decide +kernel⟩

theorem witness_VectorArithmetic_8 : ∃ (s : State) (r : VeRun) (c : VeCtx), s.blk.veAt 8 r c = true :=
  ⟨st (veBlk cFP32 (ins 8 3 1 0 0 1 0) veRegs), veRunOf cFP32 (ins 8 3 1 0 0 1 0), veRegs, by decide +kernel⟩

theorem witness_VectorMoves_1 : ∃ (s : State) (r : VeRun) (c : VeCtx), s.blk.veAt 9 r c = true :=
  ⟨st (veBlk cINT32 (ins 9 3 1 2 0 1 (3 * 2 ^ 28)) veInts), veRunOf cINT32 (ins 9 3 1 2 0 1 (3 * 2 ^ 28)), veInts, by decide +kernel⟩

theorem witness_VectorMoves_2a : ∃ (s : State) (r : VeRun) (c : VeCtx), s.blk.veAt 0xA r c = true ∧ c.vl ≤ 128 :=
  ⟨st (veBlk cFP32 (ins 0xA 2 1 2 0 0 (2 * 2 ^ 28)) veRegs), veRunOf cFP32 (ins 0xA 2 1 2 0 0 (2 * 2 ^ 28)), veRegs, by decide +kernel⟩

theorem witness_VectorMoves_2b : ∃ (s : State) (r : VeRun) (c : VeCtx), s.blk.veAt 0xA r c = true ∧ c.vl ≤ 128 :=
  ⟨st (veBlk cFP32 (ins 0xA 0 1 2 0 0 (2 * 2 ^ 28)) veRegs), veRunOf cFP32 (ins 0xA 0 1 2 0 0 (2 * 2 ^ 28)), veRegs, by decide +kernel⟩

theorem witness_VectorMoves_3 : ∃ (s : State) (r : VeRun) (c : VeCtx), s.blk.veAt 0xB r c = true :=
  ⟨st (veBlk cFP32 (ins 0xB 3 1 2 0 1 0) veRegs), veRunOf cFP32 (ins 0xB 3 1 2 0 1 0), veRegs, by decide +kernel⟩

theorem witness_VectorMoves_4 : ∃ (s : State) (r : VeRun) (c : VeCtx), s.blk.veAt 0xC r c = true :=
  ⟨st (veBlk cFP32 (ins 0xC 3 2 0 0 1 (2 ^ 32)) veRegs), veRunOf cFP32 (ins 0xC 3 2 0 0 1 (2 ^ 32)), veRegs, by decide +kernel⟩

theorem witness_VectorMoves_5 : ∃ (s : State) (r : VeRun) (c : VeCtx), s.blk.veAt 0xD r c = true :=
  ⟨st (veBlk cFP32 (ins 0xD 3 1 0 0 1 0) veRegs), veRunOf cFP32 (ins 0xD 3 1 0 0 1 0), veRegs, by decide +kernel⟩

theorem witness_VectorMoves_6 : ∃ (s : State) (r : VeRun) (c : VeCtx), s.blk.veAt 0xE r c = true :=
  ⟨st (veBlk cINT32 (ins 0xE 3 0 0 0 0 0) veInts), veRunOf cINT32 (ins 0xE 3 0 0 0 0 0), veInts, by decide +kernel⟩

theorem witness_VectorMoves_7 : ∃ (s : State) (r : VeRun) (c : VeCtx), s.blk.veAt 0x10 r c = true :=
  ⟨st (veBlk cINT32 (ins 0x10 3 1 2 0 0 0) veInts), veRunOf cINT32 (ins 0x10 3 1 2 0 0 0), veInts, by decide +kernel⟩

theorem witness_VectorMoves_8 : ∃ (s : State) (r : VeRun) (c : VeCtx), s.blk.veAt 0x11 r c = true :=
  ⟨st (veBlk cINT32 (ins 0x11 3 1 0 4 1 0) veInts), veRunOf cINT32 (ins 0x11 3 1 0 4 1 0), veInts, by decide +kernel⟩

theorem witness_VectorMoves_9 : ∃ (s : State) (r : VeRun) (c : VeCtx), s.blk.veAt 0x12 r c = true :=
  ⟨st (veBlk cINT32 (ins 0x12 3 1 0 0 1 0) veInts), veRunOf cINT32 (ins 0x12 3 1 0 0 1 0), veInts, by decide +kernel⟩

theorem witness_VectorScalars_1 : ∃ (s : State) (r : VeRun) (c : VeCtx), s.blk.veAt 0x20 r c = true :=
  ⟨st (veBlk cFP32 (ins 0x20 2 1 0 0 0 0) veRegs), veRunOf cFP32 (ins 0x20 2 1 0 0 0 0), veRegs, by decide +kernel⟩

theorem witness_VectorScalars_2 : ∃ (s : State) (r : VeRun) (c : VeCtx), s.blk.veAt 0x21 r c = true :=
  ⟨st (veBlk cFP32 (ins 0x21 5 2 0 0 0 0) veRegs), veRunOf cFP32 (ins 0x21 5 2 0 0 0 0), veRegs, by decide +kernel⟩

theorem witness_VectorScalars_3 : ∃ (s : State) (r : VeRun) (c : VeCtx), s.blk.veAt 0x28 r c = true :=
  ⟨st (veBlk cFP32 (ins 0x28 5 0 0 0 0 77) veRegs), veRunOf cFP32 (ins 0x28 5 0 0 0 0 77), veRegs, by decide +kernel⟩

theorem witness_VectorScalars_4 : ∃ (s : State) (r : VeRun) (c : VeCtx), s.blk.veAt 0x29 r c = true :=
  ⟨st (veBlk cINT32 (ins 0x29 1 1 2 0 0 (2 * 2 ^ 28)) veInts), veRunOf cINT32 (ins 0x29 1 1 2 0 0 (2 * 2 ^ 28)), veInts, by decide +kernel⟩

theorem witness_VectorScalars_5 : ∃ (s : State) (r : VeRun) (c : VeCtx), s.blk.veAt 0x2A r c = true :=
  ⟨st (veBlk cINT32 (ins 0x2A 2 1 0 0 0 (2 * 2 ^ 28)) veInts), veRunOf cINT32 (ins 0x2A 2 1 0 0 0 (2 * 2 ^ 28)), veInts, by decide +kernel⟩

theorem witness_VectorScalars_6 : ∃ (s : State) (r : VeRun) (c : VeCtx), s.blk.veAt 0x30 r c = true :=
  ⟨st (veBlk cFP32 (ins 0x30 3 1 0 0 1 (7 * 2 ^ 16)) veRegs), veRunOf cFP32 (ins 0x30 3 1 0 0 1 (7 * 2 ^ 16)), veRegs, by decide +kernel⟩

theorem witness_VectorMemory_1 : ∃ (s : State) (r : VeRun) (c : VeCtx) (f : Flight) (d : Desc), s.blk.veAt 0x18 r c = true ∧ s.blk.flight? r.q r.seq = some f ∧ s.blk.stream f (s.blk.hub.active == 1) r.ins.s = some d ∧ ((s.blk.hub.active = 1 → r.ins.s ≠ 0)) ∧ (s.blk.ldRead f r d c.vl).1.goesOn = true ∧ r.st = stOK :=
  ⟨st (veBlk cFP32 (ins 0x18 3 0 0 0 1 0) veRegs), veRunOf cFP32 (ins 0x18 3 0 0 0 1 0), veRegs, veFlight, dense cFP32 0 [9] [1], by decide +kernel⟩

theorem witness_VectorMemory_2 : ∃ (s : State) (r : VeRun) (c : VeCtx) (f : Flight) (d : Desc), s.blk.veAt 0x19 r c = true ∧ s.blk.flight? r.q r.seq = some f ∧ s.blk.stream f (s.blk.hub.active == 1) r.ins.s = some d ∧ (c.lanes r.ins.k).length ≠ c.vl ∧ r.st = stOK ∧ ((c.lanes r.ins.k).foldl (fun (w : Wk) n => w.putVals d ((Wk.hub s.blk f 6).indices d).2 (r.elem0 f.raw (s.blk.hub.active == 1) + n) [r.inA c n]) ((Wk.hub s.blk f 6).indices d).1).goesOn = true :=
  ⟨st (veBlk cFP32 (ins 0x19 0 1 0 0 1 (2 ^ 24)) { veRegs with k := [(1, 1)] }), veRunOf cFP32 (ins 0x19 0 1 0 0 1 (2 ^ 24)), { veRegs with k := [(1, 1)] }, veFlight, dense cFP32 4096 [9] [1], by decide +kernel⟩

theorem witness_VectorMemory_3 : ∃ (s : State) (r : VeRun) (c : VeCtx) (f : Flight) (d : Desc), s.blk.veAt 0x1A r c = true ∧ s.blk.flight? r.q r.seq = some f ∧ s.blk.stream f (s.blk.hub.active == 1) r.ins.s = some d ∧ r.st = stOK ∧ c.vl ≤ 128 ∧ ((Wk.hub s.blk f 6).bytes d (r.elem0 f.raw (s.blk.hub.active == 1) / 8) ((r.elem0 f.raw (s.blk.hub.active == 1) % 8 + c.vl + 7) / 8)).1.goesOn = true :=
  ⟨st (veBlk cFP32 (ins 0x1A 2 0 0 0 0 (2 * 2 ^ 24)) veRegs), veRunOf cFP32 (ins 0x1A 2 0 0 0 0 (2 * 2 ^ 24)), veRegs, veFlight, dense cUINT8 8192 [2] [1], by decide +kernel⟩

theorem witness_VectorMemory_4 : ∃ (s : State) (r : VeRun) (c : VeCtx) (f : Flight) (d : Desc), s.blk.veAt 0x1B r c = true ∧ s.blk.flight? r.q r.seq = some f ∧ s.blk.stream f (s.blk.hub.active == 1) r.ins.s = some d ∧ r.st = stOK ∧ r.pos.getD r.ins.s 0 + (c.lanes r.ins.k).length ≤ Dsc.count d ∧ (((Wk.hub s.blk f 6).indices d).1.putVals d ((Wk.hub s.blk f 6).indices d).2 (r.pos.getD r.ins.s 0) ((c.lanes r.ins.k).map (r.inA c))).goesOn = true :=
  ⟨st (veBlk cFP32 (ins 0x1B 0 1 0 0 1 (2 ^ 24)) veRegs), veRunOf cFP32 (ins 0x1B 0 1 0 0 1 (2 ^ 24)), veRegs, veFlight, dense cFP32 4096 [9] [1], by decide +kernel⟩

theorem witness_VectorMemory_5 : ∃ (s : State) (r : VeRun) (c : VeCtx) (f : Flight) (d : Desc), s.blk.veAt 0x1C r c = true ∧ s.blk.flight? r.q r.seq = some f ∧ s.blk.stream f (s.blk.hub.active == 1) r.ins.s = some d ∧ r.st = stOK ∧ (((Wk.hub s.blk f 6).indices d).1.elems d ((Wk.hub s.blk f 6).indices d).2 ((List.range ((c.lanes r.ins.k).take (Dsc.count d - r.pos.getD r.ins.s 0)).length).map (r.pos.getD r.ins.s 0 + ·))).1.goesOn = true :=
  ⟨st (veBlk cFP32 (ins 0x1C 3 0 0 0 1 0) veRegs), veRunOf cFP32 (ins 0x1C 3 0 0 0 1 0), veRegs, veFlight, dense cFP32 0 [9] [1], by decide +kernel⟩

theorem witness_VectorMemory_6 : ∃ (s : State) (r : VeRun) (c : VeCtx) (f : Flight) (d : Desc), s.blk.veAt 0x1D r c = true ∧ s.blk.flight? r.q r.seq = some f ∧ s.blk.stream f (s.blk.hub.active == 1) r.ins.s = some d ∧ r.st = stOK ∧ (((Wk.hub s.blk f 6).indices d).1.elem d ((Wk.hub s.blk f 6).indices d).2 r.row).1.goesOn = true :=
  ⟨st (veBlk cFP32 (ins 0x1D 5 0 0 0 0 (3 * 2 ^ 24)) veRegs), veRunOf cFP32 (ins 0x1D 5 0 0 0 0 (3 * 2 ^ 24)), veRegs, veFlight, dense cFP32 12288 [3] [1], by decide +kernel⟩

theorem witness_VectorMemory_7 : ∃ (s : State) (r : VeRun) (c : VeCtx) (f : Flight) (d : Desc), s.blk.veAt 0x1E r c = true ∧ s.blk.flight? r.q r.seq = some f ∧ s.blk.stream f (s.blk.hub.active == 1) r.ins.s = some d ∧ r.st = stOK ∧ r.ins.sub = 0 ∧ (((Wk.hub s.blk f 6).indices d).1.putVals d ((Wk.hub s.blk f 6).indices d).2 r.row [decElem (sFmt r.prog.vfmt) (c.xreg r.ins.a)]).goesOn = true :=
  ⟨st (veBlk cFP32 (ins 0x1E 0 1 0 0 0 (3 * 2 ^ 24)) veRegs), veRunOf cFP32 (ins 0x1E 0 1 0 0 0 (3 * 2 ^ 24)), veRegs, veFlight, dense cFP32 12288 [3] [1], by decide +kernel⟩

theorem witness_VectorMemory_8 : ∃ (s : State) (r : VeRun) (c : VeCtx) (f : Flight), s.blk.veAt 0x19 r c = true ∧ s.blk.flight? r.q r.seq = some f ∧ r.st = stOK ∧ s.blk.stream f (s.blk.hub.active == 1) r.ins.s = none :=
  ⟨st { veBlk cFP32 (ins 0x19 0 1 0 0 1 (2 ^ 24)) veRegs with descs := [] }, veRunOf cFP32 (ins 0x19 0 1 0 0 1 (2 ^ 24)), veRegs, veFlight, by decide +kernel⟩

theorem witness_TilesAndPrograms_1 : ∃ (s : State) (q : Nat) (seq : Nat) (f : Flight) (yd : Desc), s.blk.hubUp = true ∧ s.blk.unserved q seq 0x20 = some f ∧ s.blk.tmmOk f = true ∧ Tmm.epi f.raw = false ∧ s.blk.fdesc f (eHandle f.raw 2) = some yd ∧ s.blk.hub.tiles = [] ∧ s.blk.hub.ox = [] ∧ ((Wk.hub s.blk f 5).outsOk [yd]).goesOn = true :=
  ⟨st (withEntry (tmmRaw 1) tmmDescs), 0, 0, entryOf (tmmRaw 1) 3, dense cFP32 8192 [1] [1], by decide +kernel⟩

theorem witness_TilesAndPrograms_2 : ∃ (s : State) (q : Nat) (seq : Nat) (f : Flight), s.blk.hubUp = true ∧ s.blk.unserved q seq 0x20 = some f ∧ ((Tmm.pair (Tmm.wfmt f.raw) (Tmm.afmt f.raw) = false ∨ Tmm.batch f.raw = 0 ∨ Tmm.n f.raw = 0 ∨ Tmm.k f.raw = 0 ∨ (s.blk.fdesc f (eHandle f.raw 0)).isNone = true)) :=
  ⟨st (withEntry (tmmRaw 0) tmmDescs), 0, 0, entryOf (tmmRaw 0) 3, by decide +kernel⟩

theorem witness_TilesAndPrograms_3 : ∃ (s : State) (k : Nat) (j : TileJob) (t : Nat) (f : Flight) (wd : Desc) (xd : Desc) (yd : Desc), s.blk.hubUp = true ∧ s.blk.hub.tiles = [j] ∧ (s.blk.oxSt k).run = some (j.q, j.seq, t) ∧ s.blk.flight? j.q j.seq = some f ∧ j.epi = none ∧ j.written + 1 = j.total ∧ j.next = j.total ∧ s.blk.fdesc f (eHandle f.raw 0) = some wd ∧ s.blk.fdesc f (eHandle f.raw 1) = some xd ∧ s.blk.fdesc f (eHandle f.raw 2) = some yd ∧ Dsc.kind yd ≠ 1 ∧ f.preempted = false ∧ Tmm.ofmt f.raw ≠ cWIDE96 ∧ ((List.range (Tmm.v f.raw t)).foldl (fun (w : Wk) i => w.putVals yd [] ((Tmm.b0 f.raw t + i) * Tmm.n f.raw + Tmm.n0 f.raw t) ((((Wk.hub s.blk f 5).tileSums f.raw wd xd t).2.getD i []).map (fun p => tmmVal f.raw p.1))) ((Wk.hub s.blk f 5).tileSums f.raw wd xd t).1).goesOn = true :=
  ⟨st { withEntry (tmmRaw 1) tmmDescs with hub := { Blk.reset.hub with tiles := [⟨0, 0, 0, 1, 1, 0, 0, 0, none, stOK, []⟩], ox := [(0, ⟨some (0, 0, 0), []⟩)] } }, 0, ⟨0, 0, 0, 1, 1, 0, 0, 0, none, stOK, []⟩, 0, entryOf (tmmRaw 1) 3, dense cINT8 0 [1] [1], dense cINT8 4096 [1] [1], dense cFP32 8192 [1] [1], by decide +kernel⟩

theorem witness_TilesAndPrograms_4a : ∃ (s : State), s.blk.hubUp = true :=
  ⟨st { Blk.reset with hub := { Blk.reset.hub with ftq := [⟨0, 0, 0, [1], true⟩] } }, by decide +kernel⟩

theorem witness_TilesAndPrograms_4b : ∃ (s : State), s.blk.hubUp = true :=
  ⟨st { Blk.reset with hub := { Blk.reset.hub with tiles := [⟨0, 0, 0, 1, 1, 0, 0, 0, none, stOK, []⟩], ox := [(2, ⟨none, [⟨0, 0, 1, [1], false⟩]⟩)], ftq := [⟨0, 0, 0, [1], true⟩] } }, by decide +kernel⟩

theorem witness_TilesAndPrograms_5 : ∃ (s : State) (q : Nat) (seq : Nat) (f : Flight) (p : VProg), s.blk.hubUp = true ∧ s.blk.unserved q seq 0x21 = some f ∧ s.blk.flights = [f] ∧ Vpg.progH f.raw = 0 ∧ Vpg.len f.raw ≤ 2147483647 ∧ zeroAt f.raw 0x2C 4 = true ∧ inlineProg f.raw = some p ∧ p.firstBad false = none ∧ (s.blk.vecOuts f p).goesOn = true ∧ s.blk.streamsOk f p = true ∧ 1 ≤ Vpg.rows f.raw :=
  ⟨st { withEntry (vecRaw 1 2 (ins 0x28 5 0 0 0 0 77)) [] with flights := [flight (vecRaw 1 2 (ins 0x28 5 0 0 0 0 77)) .running] }, 0, 0, flight (vecRaw 1 2 (ins 0x28 5 0 0 0 0 77)) .running, ⟨1, 0, 1, 0, [0, 0, 0, 0], [ins 0x28 5 0 0 0 0 77]⟩, by decide +kernel⟩

theorem witness_TilesAndPrograms_6 : ∃ (s : State) (q : Nat) (seq : Nat) (f : Flight) (p : VProg), s.blk.hubUp = true ∧ s.blk.unserved q seq 0x21 = some f ∧ s.blk.flights = [f] ∧ Vpg.progH f.raw = 0 ∧ Vpg.len f.raw ≤ 2147483647 ∧ zeroAt f.raw 0x2C 4 = true ∧ inlineProg f.raw = some p ∧ p.firstBad false = none ∧ (s.blk.vecOuts f p).goesOn = true ∧ s.blk.streamsOk f p = true ∧ Vpg.rows f.raw = 0 ∧ f.preempted = false ∧ f.flags = 0 ∧ (s.blk.vecOuts f p).flags = 0 :=
  ⟨st { withEntry (vecRaw 1 0 (ins 0x28 5 0 0 0 0 77)) [] with flights := [flight (vecRaw 1 0 (ins 0x28 5 0 0 0 0 77)) .running] }, 0, 0, flight (vecRaw 1 0 (ins 0x28 5 0 0 0 0 77)) .running, ⟨1, 0, 1, 0, [0, 0, 0, 0], [ins 0x28 5 0 0 0 0 77]⟩, by decide +kernel⟩

theorem witness_TilesAndPrograms_7 : ∃ (s : State) (q : Nat) (seq : Nat) (f : Flight) (p : VProg) (n : Nat), s.blk.hubUp = true ∧ s.blk.unserved q seq 0x21 = some f ∧ s.blk.flights = [f] ∧ Vpg.progH f.raw = 0 ∧ Vpg.len f.raw ≤ 2147483647 ∧ zeroAt f.raw 0x2C 4 = true ∧ inlineProg f.raw = some p ∧ p.firstBad false = some n ∧ (s.blk.vecOuts f p).goesOn = true ∧ f.preempted = false :=
  ⟨st { withEntry (vecRaw 1 1 0) [] with flights := [flight (vecRaw 1 1 0) .running] }, 0, 0, flight (vecRaw 1 1 0) .running, ⟨1, 0, 1, 0, [0, 0, 0, 0], [0]⟩, 0, by decide +kernel⟩

theorem witness_TilesAndPrograms_8a : ∃ (s : State) (r : VeRun), s.blk.hubUp = true ∧ s.blk.hub.active = 2 ∧ s.blk.hub.run = some r ∧ s.blk.hub.tile = none ∧ s.blk.hub.ftq = [] ∧ s.blk.hub.queue = [] ∧ r.phase = 3 ∧ r.st = stOK ∧ r.stop = stOK ∧ r.row < r.rows ∧ (s.blk.flight? r.q r.seq).any (fun f => !f.preempted) = true ∧ r.row + 1 < r.rows :=
  ⟨st { veBlk cFP32 0 veRegs with hub := { (veBlk cFP32 0 veRegs).hub with run := some { veRunOf cFP32 0 with phase := 3 } } }, { veRunOf cFP32 0 with phase := 3 }, by decide +kernel⟩

theorem witness_TilesAndPrograms_8b : ∃ (s : State) (r : VeRun), s.blk.hubUp = true ∧ s.blk.hub.active = 2 ∧ s.blk.hub.run = some r ∧ s.blk.hub.tile = none ∧ s.blk.hub.ftq = [] ∧ s.blk.hub.queue = [] ∧ r.phase = 3 ∧ r.st = stOK ∧ r.stop = stOK ∧ r.row < r.rows ∧ (s.blk.flight? r.q r.seq).any (fun f => !f.preempted) = true ∧ r.row + 1 = r.rows :=
  ⟨st { veBlk cFP32 0 veRegs with hub := { (veBlk cFP32 0 veRegs).hub with run := some { veRunOf cFP32 0 with phase := 3, row := 2 } } }, { veRunOf cFP32 0 with phase := 3, row := 2 }, by decide +kernel⟩

theorem witness_SfuRows_1 : ∃ (s : State) (q : Nat) (seq : Nat) (f : Flight), s.blk.sfuReady q seq 0 f = true ∧ Sfu.user f.raw = false ∧ ((s.blk.sfuOuts f).sfuRow f [] 0).1.goesOn = true :=
  ⟨st (withEntry (sfuRaw 0 1 0) sfuDescs), 0, 0, entryOf (sfuRaw 0 1 0) 2, by decide +kernel⟩

theorem witness_SfuRows_2 : ∃ (s : State) (q : Nat) (seq : Nat) (f : Flight), s.blk.sfuReady q seq 0 f = true ∧ Sfu.user f.raw = true ∧ (s.blk.hub.user (Sfu.fn f.raw)).require (Sfu.gen f.raw) = some (s.blk.hub.user (Sfu.fn f.raw)) ∧ ((s.blk.sfuOuts f).sfuRow f (s.blk.hub.user (Sfu.fn f.raw)).table 0).1.goesOn = true :=
  ⟨st (withEntry (sfuRaw 0 0x20 0) sfuDescs), 0, 0, entryOf (sfuRaw 0 0x20 0) 2, by decide +kernel⟩

theorem witness_SfuRows_3 : ∃ (s : State) (q : Nat) (seq : Nat) (f : Flight), s.blk.sfuReady q seq 0 f = true ∧ Sfu.user f.raw = true ∧ f.preempted = false ∧ (s.blk.hub.user (Sfu.fn f.raw)).bank0.gen ≠ Sfu.gen f.raw ∧ (s.blk.hub.user (Sfu.fn f.raw)).bank1.gen ≠ Sfu.gen f.raw :=
  ⟨st (withEntry (sfuRaw 0 0x20 9) sfuDescs), 0, 0, entryOf (sfuRaw 0 0x20 9) 2, by decide +kernel⟩

theorem witness_SfuRows_4 : ∃ (s : State) (q : Nat) (seq : Nat) (f : Flight), s.blk.sfuReady q seq 1 f = true ∧ ((s.blk.sfuOuts f).sfuRow f [] 0).1.goesOn = true :=
  ⟨st (withEntry (sfuRaw 1 0 0) sfuDescs), 0, 0, entryOf (sfuRaw 1 0 0) 2, by decide +kernel⟩

theorem witness_SfuRows_5 : ∃ (s : State) (q : Nat) (seq : Nat) (f : Flight), s.blk.sfuReady q seq 2 f = true ∧ ((s.blk.sfuOuts f).sfuRow f [] 0).1.goesOn = true :=
  ⟨st (withEntry (sfuRaw 2 0 0) sfuDescs), 0, 0, entryOf (sfuRaw 2 0 0) 2, by decide +kernel⟩

theorem witness_SfuRows_6 : ∃ (s : State) (q : Nat) (seq : Nat) (f : Flight), s.blk.sfuReady q seq 3 f = true ∧ ((s.blk.sfuOuts f).sfuRow f [] 0).1.goesOn = true :=
  ⟨st (withEntry (sfuRaw 3 0 0) sfuDescs), 0, 0, entryOf (sfuRaw 3 0 0) 2, by decide +kernel⟩

theorem witness_SfuRows_7 : ∃ (s : State) (q : Nat) (seq : Nat) (f : Flight), s.blk.sfuReady q seq 4 f = true ∧ ((s.blk.sfuOuts f).sfuRow f [] 0).1.goesOn = true :=
  ⟨st (withEntry (sfuRaw 4 0 0) sfuDescs), 0, 0, entryOf (sfuRaw 4 0 0) 2, by decide +kernel⟩

theorem witness_SfuRows_8 : ∃ (s : State) (q : Nat) (seq : Nat) (f : Flight) (op : Nat) (c : Instr), (op, c) ∈ [(0, .sfuMap q seq), (1, .sfuSoftmax q seq), (2, .sfuLogSoftmax q seq), (3, .sfuLayerNorm q seq), (4, .sfuRmsNorm q seq)] ∧ s.blk.hubUp = true ∧ s.blk.running? q seq = some f ∧ eOpcode f.raw = 0x22 ∧ Sfu.op f.raw = op ∧ s.blk.sfuTurn f = true ∧ f.progress ≠ 0 ∧ ((Wk.hub s.blk f 6).sfuRow f (s.blk.hub.user (Sfu.fn f.raw)).table f.progress).1.goesOn = true :=
  ⟨st { withEntry (sfuRaw 1 0 0) sfuDescs with flights := [{ entryOf (sfuRaw 1 0 0) 2 with progress := 1 }] }, 0, 0, { entryOf (sfuRaw 1 0 0) 2 with progress := 1 }, 1, .sfuSoftmax 0 0, by decide +kernel⟩

theorem witness_SfuRows_9 : ∃ (s : State) (q : Nat) (seq : Nat) (f : Flight) (op : Nat) (c : Instr), (op, c) ∈ [(0, .sfuMap q seq), (1, .sfuSoftmax q seq), (2, .sfuLogSoftmax q seq), (3, .sfuLayerNorm q seq), (4, .sfuRmsNorm q seq)] ∧ s.blk.hubUp = true ∧ s.blk.running? q seq = some f ∧ eOpcode f.raw = 0x22 ∧ Sfu.op f.raw = op ∧ s.blk.sfuTurn f = true ∧ f.progress = 0 ∧ sfuFields f.raw = true ∧ Sfu.rows f.raw = 0 :=
  ⟨st (withEntry sfuNone sfuDescs), 0, 0, entryOf sfuNone 2, 1, .sfuSoftmax 0 0, by decide +kernel⟩

theorem witness_SfuRows_10 : ∃ (s : State) (q : Nat) (seq : Nat) (f : Flight) (d : Desc), s.blk.hubUp = true ∧ s.blk.running? q seq = some f ∧ eOpcode f.raw = 0x22 ∧ Sfu.op f.raw = 5 ∧ s.blk.sfuTurn f = true ∧ f.progress = 0 ∧ sfuFields f.raw = true ∧ s.blk.sfuTensors f = true ∧ f.preempted = false ∧ s.blk.fdesc f (eHandle f.raw 0) = some d ∧ ((Wk.hub s.blk f 6).bytes d 0 1040).1.goesOn = true :=
  ⟨st loadBlk, 0, 0, loadFlight, farTable, by decide +kernel⟩

theorem witness_SfuRows_11 : ∃ (s : State) (q : Nat) (seq : Nat) (f : Flight), s.blk.hubUp = true ∧ s.blk.running? q seq = some f ∧ eOpcode f.raw = 0x22 ∧ Sfu.op f.raw = 1 ∧ s.blk.sfuTurn f = true ∧ f.progress = 0 ∧ sfuFields f.raw = true ∧ Sfu.rows f.raw ≠ 0 ∧ s.blk.sfuTensors f = true ∧ (s.blk.sfuOuts f).st = stALIAS ∧ (s.blk.sfuOuts f).stall = false ∧ (s.blk.sfuOuts f).need = [] :=
  ⟨st (withEntry (sfuRaw 1 0 0) [dense cFP32 0 [1] [1], dense cFP32 0 [1] [1]]), 0, 0, entryOf (sfuRaw 1 0 0) 2, by decide +kernel⟩

theorem witness_SoftRowMasks_1 : ∃ (e : Bytes) (xs : List Nat) (m : List Bool) (i : Nat), m.length = xs.length ∧ m[i]? = some true ∧ (List.zipWith (fun x k => k || !(f32 (sfuZ e x).1).isNan) xs m).all (fun x => x) = true :=
  ⟨entryH 0x22 [0, 0, 0, 0] [1, 0, 1, 1], [0x3F800000, 0x40000000], [true, false], 0, by decide +kernel⟩

theorem witness_SoftRowMasks_2 : ∃ (e : Bytes) (xs : List Nat) (m : List Bool), m.length = xs.length ∧ (List.zipWith (fun x k => k || (sfuZ e x).1 == f32NInf) xs m).all (fun x => x) = true :=
  ⟨entryH 0x22 [0, 0, 0, 0] [2, 0, 1, 1], [0xFF800000, 0x40000000], [false, true], by decide +kernel⟩

theorem witness_SoftRowMasks_3 : ∃ (e : Bytes) (xs : List Nat) (m : List Bool) (i : Nat), m.length = xs.length ∧ m[i]? = some false ∧ (xs[i]?).any (fun x => (f32 (sfuZ e x).1).isNan) = true ∧ Sfu.crl e = false :=
  ⟨entryH 0x22 [0, 0, 0, 0] [1, 0, 1, 1], [0x7FC00000, 0x40000000], [false, true], 0, by decide +kernel⟩

theorem witness_SoftRowMasks_4 : ∃ (e : Bytes) (xs : List Nat) (m : List Bool) (i : Nat), m.length = xs.length ∧ m[i]? = some false ∧ (xs[i]?).any (fun x => (f32 (sfuZ e x).1).isNan) = true ∧ Sfu.crl e = true :=
  ⟨entryH 0x22 [0, 0, 0, 0] [1, 0, 1, 1, 0, 0, 0, 0, 0, 0, 0, 0, 0x10], [0x7FC00000, 0x40000000], [false, true], 0, by decide +kernel⟩

theorem witness_DataMovement_1a : ∃ (s : State) (q : Nat) (seq : Nat) (f : Flight) (d : Desc), s.blk.hubUp = true ∧ s.blk.running q seq 3 = some f ∧ s.blk.copyOk f = true ∧ s.blk.fdesc f (eHandle f.raw 2) = some d ∧ (s.blk.fdesc f (eHandle f.raw 0)).all (fun x => !spansMeet (herdSpans x) (herdSpans d)) = true ∧ ((2 ≤ Dsc.collide d → s.blk.accHeld f d = false)) ∧ (s.blk.copyPart f (s.blk.fdesc f (eHandle f.raw 0)) d).1.goesOn = true :=
  ⟨st (withEntry (inlineRaw 3 4 [0, 0, hnd 0, 0] [1, 2, 3, 4]) [dense cFP32 4096 [1] [1]]), 0, 0, entryOf (inlineRaw 3 4 [0, 0, hnd 0, 0] [1, 2, 3, 4]) 1, dense cFP32 4096 [1] [1], by decide +kernel⟩

theorem witness_DataMovement_1b : ∃ (s : State) (q : Nat) (seq : Nat) (f : Flight) (d : Desc), s.blk.hubUp = true ∧ s.blk.running q seq 3 = some f ∧ s.blk.copyOk f = true ∧ s.blk.fdesc f (eHandle f.raw 2) = some d ∧ (s.blk.fdesc f (eHandle f.raw 0)).all (fun x => !spansMeet (herdSpans x) (herdSpans d)) = true ∧ ((2 ≤ Dsc.collide d → s.blk.accHeld f d = false)) ∧ (s.blk.copyPart f (s.blk.fdesc f (eHandle f.raw 0)) d).1.goesOn = true :=
  ⟨st (withEntry (entryH 3 [hnd 0, 0, hnd 1, 0] []) sfuDescs), 0, 0, entryOf (entryH 3 [hnd 0, 0, hnd 1, 0] []) 2, dense cFP32 4096 [1] [1], by decide +kernel⟩

theorem witness_DataMovement_1c : ∃ (s : State) (q : Nat) (seq : Nat) (f : Flight) (d : Desc), s.blk.hubUp = true ∧ s.blk.running q seq 3 = some f ∧ s.blk.copyOk f = true ∧ s.blk.fdesc f (eHandle f.raw 2) = some d ∧ (s.blk.fdesc f (eHandle f.raw 0)).all (fun x => !spansMeet (herdSpans x) (herdSpans d)) = true ∧ ((2 ≤ Dsc.collide d → s.blk.accHeld f d = false)) ∧ (s.blk.copyPart f (s.blk.fdesc f (eHandle f.raw 0)) d).1.goesOn = true :=
  ⟨st (withEntry (entryH 3 [hnd 0, 0, hnd 1, 0] []) [dense cUINT8 0 [300] [0], dense cUINT8 4096 [300] [1]]), 0, 0, entryOf (entryH 3 [hnd 0, 0, hnd 1, 0] []) 2, dense cUINT8 4096 [300] [1], by decide +kernel⟩

theorem witness_DataMovement_2 : ∃ (s : State) (q : Nat) (seq : Nat) (f : Flight) (d : Desc), s.blk.hubUp = true ∧ s.blk.running q seq 3 = some f ∧ s.blk.copyOk f = true ∧ s.blk.fdesc f (eHandle f.raw 2) = some d ∧ 2 ≤ Dsc.collide d ∧ Dsc.kind d = 0 ∧ eHandle f.raw 0 = 0 ∧ s.blk.fdesc f 0 = none ∧ s.blk.accHeld f d = false ∧ f.progress = 0 ∧ Dsc.bursts d = 1 ∧ Dsc.burst d 0 = List.range (Dsc.count d) ∧ (List.range (Dsc.count d)).all (fun e => Dsc.burstOf d e == 0) = true ∧ ((Wk.start s.blk f 4).accumulate d [] { f.burst with source := [] } ((List.range (Dsc.count d)).map (fun i => (i, (inlineElem d.fmt f.raw i).val d.fmt)))).1.goesOn = true :=
  ⟨st (withEntry (inlineRaw 3 4 [0, 0, hnd 0, 0] [0, 0, 128, 63]) [{ dense cFP32 4096 [1] [1] with flags := 5 }]), 0, 0, entryOf (inlineRaw 3 4 [0, 0, hnd 0, 0] [0, 0, 128, 63]) 1, { dense cFP32 4096 [1] [1] with flags := 5 }, by decide +kernel⟩

theorem witness_DataMovement_3 : ∃ (s : State) (q : Nat) (seq : Nat) (f : Flight) (d : Desc), s.blk.hubUp = true ∧ s.blk.running q seq 3 = some f ∧ s.blk.copyOk f = true ∧ s.blk.fdesc f (eHandle f.raw 2) = some d ∧ 2 ≤ Dsc.collide d ∧ s.blk.accHeld f d = true ∧ (s.blk.fdesc f (eHandle f.raw 0)).all (fun x => !spansMeet (herdSpans x) (herdSpans d)) = true :=
  ⟨st { withEntry accRaw accDescs with flights := [accFlight 1, { accFlight 0 with fetched := [(2 ^ 40, [0])] }], struc := { layerStruc with herdSize := 2 } }, 0, 1, accFlight 1, accDescs.getD 1 farTable, by decide +kernel⟩

theorem witness_DataMovement_4 : ∃ (s : State) (q : Nat) (seq : Nat) (f : Flight) (x : Desc) (d : Desc), s.blk.hubUp = true ∧ s.blk.running q seq 3 = some f ∧ s.blk.copyOk f = true ∧ s.blk.fdesc f (eHandle f.raw 0) = some x ∧ s.blk.fdesc f (eHandle f.raw 2) = some d ∧ spansMeet (herdSpans x) (herdSpans d) = true :=
  ⟨st (withEntry (entryH 3 [hnd 0, 0, hnd 1, 0] []) [dense cFP32 0 [1] [1], dense cFP32 0 [1] [1]]), 0, 0, entryOf (entryH 3 [hnd 0, 0, hnd 1, 0] []) 2, dense cFP32 0 [1] [1], dense cFP32 0 [1] [1], by decide +kernel⟩

theorem witness_DataMovement_5 : ∃ (s : State) (q : Nat) (seq : Nat) (f : Flight), s.blk.hubUp = true ∧ s.blk.running q seq 3 = some f ∧ ((eHandle f.raw 1 ≠ 0 ∨ eHandle f.raw 3 ≠ 0 ∨ s.blk.fdesc f (eHandle f.raw 2) = none ∨ (eHandle f.raw 0 = 0 ∧ 96 < eInline f.raw))) :=
  ⟨st (withEntry (entryH 3 [hnd 0, hnd 0, hnd 1, 0] []) sfuDescs), 0, 0, entryOf (entryH 3 [hnd 0, hnd 0, hnd 1, 0] []) 2, by decide +kernel⟩

theorem witness_DataMovement_6 : ∃ (s : State) (q : Nat) (seq : Nat) (f : Flight) (d : Desc), s.blk.hubUp = true ∧ s.blk.running q seq 5 = some f ∧ s.blk.fdesc f (eHandle f.raw 2) = some d ∧ eHandle f.raw 0 = 0 ∧ eHandle f.raw 1 = 0 ∧ eHandle f.raw 3 = 0 ∧ zeroAt f.raw 0x24 92 = true ∧ Dsc.write d = true ∧ fillOk d.fmt (fld f.raw 0x20 4) = true ∧ (s.blk.fillPart f d).goesOn = true :=
  ⟨st (withEntry (entryH 5 [0, 0, hnd 0, 0] (leBytes 4 9)) [dense cFP32 4096 [3] [1]]), 0, 0, entryOf (entryH 5 [0, 0, hnd 0, 0] (leBytes 4 9)) 1, dense cFP32 4096 [3] [1], by decide +kernel⟩

theorem witness_DataMovement_7 : ∃ (s : State) (q : Nat) (seq : Nat) (f : Flight) (d : Desc), s.blk.hubUp = true ∧ s.blk.running q seq 5 = some f ∧ s.blk.fdesc f (eHandle f.raw 2) = some d ∧ ((eHandle f.raw 0 ≠ 0 ∨ Dsc.write d = false ∨ fillOk d.fmt (fld f.raw 0x20 4) = false)) :=
  ⟨st (withEntry (entryH 5 [0, 0, hnd 0, 0] (leBytes 4 300)) [dense cUINT8 4096 [3] [1]]), 0, 0, entryOf (entryH 5 [0, 0, hnd 0, 0] (leBytes 4 300)) 1, dense cUINT8 4096 [3] [1], by decide +kernel⟩

theorem witness_DataMovement_8 : ∃ (s : State) (q : Nat) (seq : Nat) (f : Flight) (p : Desc) (d : Desc) (t : Bytes), s.blk.hubUp = true ∧ s.blk.running q seq 4 = some f ∧ s.blk.relayOk f = true ∧ s.blk.fdesc f (eHandle f.raw 0) = some p ∧ s.blk.fdesc f (eHandle f.raw 2) = some d ∧ Rly.kind f.raw < 2 ∧ f.progress = 0 ∧ s.blk.planOf (eHandle f.raw 1) 0 = some t ∧ t ≠ [] ∧ s.blk.planOk t (Rly.n f.raw) (Rly.k f.raw) (Rly.wfmt f.raw) d = true ∧ ((Wk.start s.blk f 4).relayPart f.raw t p 0).goesOn = true :=
  ⟨st relayBlk, 0, 0, relayFlight, relayDescs.getD 0 farTable, relayDescs.getD 2 farTable, gemvPlan, by decide +kernel⟩

theorem witness_DataMovement_9 : ∃ (s : State) (q : Nat) (seq : Nat) (f : Flight) (p : Desc) (d : Desc) (t : Bytes), s.blk.hubUp = true ∧ s.blk.running q seq 4 = some f ∧ s.blk.relayOk f = true ∧ s.blk.fdesc f (eHandle f.raw 0) = some p ∧ s.blk.fdesc f (eHandle f.raw 2) = some d ∧ 2 ≤ Rly.kind f.raw ∧ f.progress = 0 ∧ s.blk.planOf (eHandle f.raw 1) 1 = some t ∧ t ≠ [] ∧ 8 * Rly.records f.raw ≤ t.length ∧ s.blk.tableOk t (Rly.H f.raw) (Rly.n f.raw) 0 (Rly.records f.raw) = true ∧ ((Wk.start s.blk f 4).relayPart f.raw t p 0).goesOn = true :=
  ⟨st kvBlk, 0, 0, entryOf relayKv 3, dense cE4M3 0x200000 [128] [1], dense cE4M3 0 [64] [1], zeros 8, by decide +kernel⟩

theorem witness_DataMovement_10 : ∃ (s : State) (q : Nat) (seq : Nat) (f : Flight) (p : Desc) (d : Desc), s.blk.hubUp = true ∧ s.blk.running q seq 4 = some f ∧ s.blk.relayOk f = true ∧ s.blk.fdesc f (eHandle f.raw 0) = some p ∧ s.blk.fdesc f (eHandle f.raw 2) = some d ∧ f.progress ≠ 0 ∧ ((Wk.start s.blk f 4).relayPart f.raw f.burst.table p f.progress).goesOn = true :=
  ⟨st { relayBlk with flights := [{ relayFlight with progress := 1, burst := { relayFlight.burst with table := gemvPlan ++ gemvPlan } }] }, 0, 0, { relayFlight with progress := 1, burst := { relayFlight.burst with table := gemvPlan ++ gemvPlan } }, relayDescs.getD 0 farTable, relayDescs.getD 2 farTable, by decide +kernel⟩

theorem witness_DataMovement_11 : ∃ (s : State) (q : Nat) (seq : Nat) (f : Flight), s.blk.hubUp = true ∧ s.blk.running q seq 4 = some f ∧ ((4 ≤ Rly.kind f.raw ∨ eHandle f.raw 3 ≠ 0 ∨ s.blk.fdesc f (eHandle f.raw 1) = none)) :=
  ⟨st (withEntry (entryH 4 [hnd 0, hnd 1, hnd 2, 0] [4]) relayDescs), 0, 0, entryOf (entryH 4 [hnd 0, hnd 1, hnd 2, 0] [4]) 3, by decide +kernel⟩

theorem witness_DescriptorsAndFences_1 : ∃ (s : State) (q : Nat) (seq : Nat) (f : Flight), s.blk.hubUp = true ∧ s.blk.running q seq 8 = some f ∧ f.flags = 0 ∧ f.preempted = false ∧ f.status = stOK ∧ s.blk.descs.all (fun p => p.1 != descKey (handleOf q (descIndex f.raw))) = true ∧ descForm f.raw = true ∧ descRules f.raw = true ∧ s.blk.ixOk q (descIn f.raw) = true ∧ Dsc.owner (descIn f.raw) = false ∧ s.blk.spansOk q (descIn f.raw) = true ∧ ((Dsc.write (descIn f.raw) = true → Dsc.collide (descIn f.raw) = 0 → Dsc.distinct (descIn f.raw) = true)) :=
  ⟨st (withRun .reset (createRaw 1 4 0 1)), 0, 0, flight (createRaw 1 4 0 1) .running, by decide +kernel⟩

theorem witness_DescriptorsAndFences_2 : ∃ (s : State) (q : Nat) (seq : Nat) (f : Flight) (o : Desc), s.blk.hubUp = true ∧ s.blk.running q seq 8 = some f ∧ f.status = stOK ∧ s.blk.descs.all (fun p => p.1 != descKey (handleOf q (descIndex f.raw))) = true ∧ descForm f.raw = true ∧ descRules f.raw = true ∧ s.blk.ixOk q (descIn f.raw) = true ∧ Dsc.owner (descIn f.raw) = true ∧ s.blk.desc? q (descIn f.raw).base = some o ∧ Dsc.kind o = 0 ∧ Dsc.owner o = false ∧ o.fmt = cUINT8 ∧ s.blk.haLocal o.base = true ∧ Dsc.count o % 16 = 0 ∧ 16 ≤ Dsc.count o ∧ Dsc.count o ≤ 65536 ∧ ((Wk.start s.blk f 4).bytes o 0 (Dsc.count o)).1.goesOn = true ∧ { ((Wk.start s.blk f 4).bytes o 0 (Dsc.count o)).1.b with chans := s.blk.chans } = s.blk ∧ ownersCover (ownersOf ((Wk.start s.blk f 4).bytes o 0 (Dsc.count o)).2) 0 (Dsc.dim (descIn f.raw) ((descIn f.raw).rank - 1)) = true ∧ Dsc.count o ≤ s.blk.planRoom ∧ Dsc.write (descIn f.raw) = false ∧ s.blk.spansOk q { descIn f.raw with base := 0, owners := ownersOf ((Wk.start s.blk f 4).bytes o 0 (Dsc.count o)).2 } = true :=
  ⟨st { withEntry (createRaw 0x20 0 (hnd 0) 1) [dense cUINT8 0 [16] [1]] with flights := [flight (createRaw 0x20 0 (hnd 0) 1) .running] }, 0, 0, flight (createRaw 0x20 0 (hnd 0) 1) .running, dense cUINT8 0 [16] [1], by decide +kernel⟩

theorem witness_DescriptorsAndFences_3 : ∃ (s : State) (q : Nat) (seq : Nat) (f : Flight), s.blk.hubUp = true ∧ s.blk.running q seq 8 = some f ∧ ((s.blk.descs.any (fun p => p.1 == descKey (handleOf q (descIndex f.raw))) = true ∨ descForm f.raw = false ∨ descRules f.raw = false)) :=
  ⟨st (withRun .reset (createRaw 64 4 0 1)), 0, 0, flight (createRaw 64 4 0 1) .running, by decide +kernel⟩

theorem witness_DescriptorsAndFences_4 : ∃ (s : State) (q : Nat) (seq : Nat) (f : Flight), s.blk.hubUp = true ∧ s.blk.running q seq 8 = some f ∧ f.status = stOK ∧ s.blk.descs.all (fun p => p.1 != descKey (handleOf q (descIndex f.raw))) = true ∧ descForm f.raw = true ∧ descRules f.raw = true ∧ s.blk.ixOk q (descIn f.raw) = true ∧ Dsc.owner (descIn f.raw) = false ∧ s.blk.spansOk q (descIn f.raw) = false :=
  ⟨st (withRun .reset (createRaw 1 4 0xC000000000 1)), 0, 0, flight (createRaw 1 4 0xC000000000 1) .running, by decide +kernel⟩

theorem witness_DescriptorsAndFences_5 : ∃ (s : State) (q : Nat) (seq : Nat) (f : Flight), s.blk.hubUp = true ∧ s.blk.running q seq 8 = some f ∧ f.status = stOK ∧ s.blk.descs.all (fun p => p.1 != descKey (handleOf q (descIndex f.raw))) = true ∧ descForm f.raw = true ∧ descRules f.raw = true ∧ s.blk.ixOk q (descIn f.raw) = true ∧ Dsc.owner (descIn f.raw) = false ∧ s.blk.spansOk q (descIn f.raw) = true ∧ Dsc.write (descIn f.raw) = true ∧ Dsc.collide (descIn f.raw) = 0 ∧ Dsc.distinct (descIn f.raw) = false :=
  ⟨st (withRun .reset (createRaw 1 4 0 0)), 0, 0, flight (createRaw 1 4 0 0) .running, by decide +kernel⟩

theorem witness_DescriptorsAndFences_6 : ∃ (s : State) (q : Nat) (seq : Nat) (f : Flight) (x : DescSt), s.blk.hubUp = true ∧ s.blk.running q seq 9 = some f ∧ zeroAt f.raw 0x14 108 = true ∧ eHandle f.raw 0 / 2 ^ 18 = 0x2000 ∧ eHandle f.raw 0 / 0x1000 % 64 = q ∧ (s.blk.descs.find? (fun p => p.1 == descKey (eHandle f.raw 0))).map (fun p => p.2) = some x ∧ x.phase ≠ .dropped ∧ f.preempted = false ∧ f.flags = 0 :=
  ⟨st { withEntry (entryH 9 [hnd 0, 0, 0, 0] []) [dense cUINT8 0 [16] [1]] with flights := [flight (entryH 9 [hnd 0, 0, 0, 0] []) .running] }, 0, 0, flight (entryH 9 [hnd 0, 0, 0, 0] []) .running, ⟨dense cUINT8 0 [16] [1], true, .inUse⟩, by decide +kernel⟩

theorem witness_DescriptorsAndFences_7 : ∃ (s : State) (q : Nat) (seq : Nat) (f : Flight), s.blk.hubUp = true ∧ s.blk.running q seq 9 = some f ∧ s.blk.desc? q (eHandle f.raw 0) = none ∧ s.blk.descs.all (fun p => p.1 != descKey (eHandle f.raw 0)) = true :=
  ⟨st (withRun .reset (entryH 9 [hnd 0, 0, 0, 0] [])), 0, 0, flight (entryH 9 [hnd 0, 0, 0, 0] []) .running, by decide +kernel⟩

theorem witness_DescriptorsAndFences_8a : ∃ (s : State) (q : Nat) (seq : Nat) (f : Flight), s.blk.hubUp = true ∧ s.blk.running q seq 1 = some f :=
  ⟨st (withRun .reset (entry 1 [])), 0, 0, flight (entry 1 []) .running, by decide +kernel⟩

theorem witness_DescriptorsAndFences_8b : ∃ (s : State) (q : Nat) (seq : Nat) (f : Flight), s.blk.hubUp = true ∧ s.blk.running q seq 1 = some f :=
  ⟨st (withRun .reset (entry 1 [7])), 0, 0, flight (entry 1 [7]) .running, by decide +kernel⟩

theorem witness_DescriptorsAndFences_9a : ∃ (s : State) (q : Nat) (seq : Nat) (f : Flight), s.blk.hubUp = true ∧ s.blk.running q seq 2 = some f ∧ zeroAt f.raw 0x10 16 = true ∧ zeroAt f.raw 0x28 88 = true :=
  ⟨st (withRun .reset (entry 2 [])), 0, 0, flight (entry 2 []) .running, by decide +kernel⟩

theorem witness_DescriptorsAndFences_9b : ∃ (s : State) (q : Nat) (seq : Nat) (f : Flight), s.blk.hubUp = true ∧ s.blk.running q seq 2 = some f ∧ zeroAt f.raw 0x10 16 = true ∧ zeroAt f.raw 0x28 88 = true :=
  ⟨st { Blk.reset with flights := [{ flight (entry 2 []) .running with waits := [(0, 0)] }] }, 0, 0, { flight (entry 2 []) .running with waits := [(0, 0)] }, by decide +kernel⟩

theorem witness_Window_1 : ∃ (s : State) (off : Nat) (n : Nat), s.blk.hostOn = true ∧ off + n ≤ 2 ^ 28 ∧ s.blk.winWaits (s.blk.winBase + off) n = false ∧ s.blk.mem.sramBad = none ∧ winPieces s.blk (n / 64 + 2) (s.blk.winBase + off) n = [(s.blk.winBase + off, n, true)] ∧ (readPiece (s.blk.winCharged off n) rqWin (s.blk.winBase + off) n).st = stOK :=
  ⟨st { Blk.reset with struc := regionAll 0 }, 64, 16, by decide +kernel⟩

theorem witness_Window_2 : ∃ (s : State) (off : Nat) (n : Nat), s.blk.hostOn = true ∧ off + n ≤ 2 ^ 28 ∧ s.blk.winWaits (s.blk.winBase + off) n = false ∧ s.blk.mem.sramBad = none ∧ winPieces s.blk (n / 64 + 2) (s.blk.winBase + off) n = [(s.blk.winBase + off, n, true)] ∧ 0 < n ∧ (readPiece (s.blk.winCharged off n) rqWin (s.blk.winBase + off) n).st ≠ stOK :=
  ⟨st { Blk.reset with struc := regionAll 0, mem := { Blk.reset.mem with segs := [(0, ⟨false, false⟩)], cells := [⟨0, 5⟩, ⟨1, 5⟩, ⟨2, 5⟩, ⟨3, 7⟩, ⟨9, 7⟩] } }, 0, 16, by decide +kernel⟩

theorem witness_Window_3 : ∃ (s : State) (off : Nat) (n : Nat), s.blk.hostOn = true ∧ off + n ≤ 2 ^ 28 ∧ s.blk.winWaits (s.blk.winBase + off) n = false ∧ s.blk.mem.sramBad = none ∧ winPieces s.blk (n / 64 + 2) (s.blk.winBase + off) n = [(s.blk.winBase + off, n, false)] :=
  ⟨st { Blk.reset with struc := { Struc.factory with regions := [] } }, 64, 16, by decide +kernel⟩

theorem witness_Window_4 : ∃ (s : State) (off : Nat) (n : Nat) (buf : Nat) (o : Nat), s.blk.hostOn = true ∧ off + n ≤ 2 ^ 28 ∧ s.blk.winWaits (s.blk.winBase + off) n = false ∧ 0 < n ∧ s.blk.mem.sramBad = some (buf, o) ∧ winPieces s.blk (n / 64 + 2) (s.blk.winBase + off) n = [(s.blk.winBase + off, n, true)] :=
  ⟨st { Blk.reset with struc := regionAll 0, mem := { Blk.reset.mem with sramBad := some (3, 4100) } }, 64, 16, 3, 4100, by decide +kernel⟩

theorem witness_Window_5 : ∃ (s : State) (off : Nat) (d : Bytes), s.blk.hostOn = true ∧ off + d.length ≤ 2 ^ 28 ∧ s.blk.winWaits (s.blk.winBase + off) d.length = false ∧ s.blk.slotsOn = false ∧ winPieces s.blk (d.length / 64 + 2) (s.blk.winBase + off) d.length = [(s.blk.winBase + off, d.length, true)] ∧ d ≠ [] :=
  ⟨st { Blk.reset with struc := regionAll 0 }, 64, [1, 2, 3], by decide +kernel⟩

theorem witness_Window_6 : ∃ (s : State) (off : Nat) (d : Bytes), s.blk.hostOn = true ∧ off + d.length ≤ 2 ^ 28 ∧ s.blk.winWaits (s.blk.winBase + off) d.length = false ∧ s.blk.slotsOn = false ∧ d ≠ [] ∧ winPieces s.blk (d.length / 64 + 2) (s.blk.winBase + off) d.length = [(s.blk.winBase + off, d.length, false)] :=
  ⟨st { Blk.reset with struc := { Struc.factory with regions := [] } }, 64, [1, 2, 3], by decide +kernel⟩

theorem witness_Window_7 : ∃ (s : State) (off : Nat) (i : Nat) (x : Nat) (d : Bytes) (o : Nat), s.blk.hostOn = true ∧ off + d.length ≤ 2 ^ 28 ∧ s.blk.winWriteWaits off d.length s.blk.winBase = false ∧ s.blk.slotAt off = some (i, x) ∧ x = 0 ∧ d.length = 1 ∧ ((s.blk.atPort .host).slotOwner i).2 = o ∧ hostMay o (d.getD 0 0).toNat = true ∧ (d.getD 0 0).toNat ≠ o :=
  ⟨st slotBlk, 4096, 0, 0, [1], 0, by decide +kernel⟩

theorem witness_Window_8 : ∃ (s : State) (off : Nat) (i : Nat) (x : Nat) (d : Bytes) (o : Nat), s.blk.hostOn = true ∧ off + d.length ≤ 2 ^ 28 ∧ s.blk.winWriteWaits off d.length s.blk.winBase = false ∧ s.blk.slotAt off = some (i, x) ∧ 8 ≤ x ∧ d ≠ [] ∧ x + d.length ≤ s.blk.slotSize ∧ ((s.blk.atPort .host).slotOwner i).2 = o ∧ o ≠ 1 :=
  ⟨st slotBlk, 4160, 0, 64, [1], 0, by decide +kernel⟩

theorem witness_Window_9 : ∃ (s : State) (off : Nat) (n : Nat), s.blk.hostOn = true ∧ off + n ≤ 2 ^ 28 ∧ s.blk.winWaits (s.blk.winBase + off) n = true :=
  ⟨st { Blk.reset with struc := regionAll 0, dies := [(0, { Blk.reset.die 0 with sr := .asleep })] }, 0, 16, by decide +kernel⟩

theorem witness_Window_10 : ∃ (s : State), s.blk.hostOn = true :=
  ⟨st .reset, by decide +kernel⟩

theorem witness_Doorbells_1a : ∃ (s : State) (p : Path) (q : Nat) (v : Nat) (x : QpSt), s.blk.pathOn p = true ∧ q < 64 ∧ ((reaches p.code (bQP q) = true ∨ p = .fabric ∨ p = .network)) ∧ s.blk.qp q = x ∧ x.enabled = true ∧ s.blk.mayRing q p.code = true ∧ s.blk.fetchStopped = false ∧ s.blk.sqLocal q = false ∧ x.posted = none ∧ x.fetchError = false ∧ x.staleWait = false ∧ x.fetching = 0 ∧ s.blk.att.phase ≠ .orphan ∧ 0 < (BitVec.ofNat 32 v - x.head).toNat ∧ (BitVec.ofNat 32 v - x.head).toNat ≤ 2 ^ s.blk.sqLog q :=
  ⟨st (withQp qpOn), .host, 0, 3, qpOn, by decide +kernel⟩

theorem witness_Doorbells_1b : ∃ (s : State) (p : Path) (q : Nat) (v : Nat) (x : QpSt), s.blk.pathOn p = true ∧ q < 64 ∧ ((reaches p.code (bQP q) = true ∨ p = .fabric ∨ p = .network)) ∧ s.blk.qp q = x ∧ x.enabled = true ∧ s.blk.mayRing q p.code = true ∧ s.blk.fetchStopped = false ∧ s.blk.sqLocal q = false ∧ x.posted = none ∧ x.fetchError = false ∧ x.staleWait = false ∧ x.fetching = 0 ∧ s.blk.att.phase ≠ .orphan ∧ 0 < (BitVec.ofNat 32 v - x.head).toNat ∧ (BitVec.ofNat 32 v - x.head).toNat ≤ 2 ^ s.blk.sqLog q :=
  ⟨st ((withQp qpOn).setReg (bQP 0 + 0x810) ((withQp qpOn).qpCfg 0 + 2 ^ 24)), .fabric, 0, 3, qpOn, by decide +kernel⟩

theorem witness_Doorbells_1c : ∃ (s : State) (p : Path) (q : Nat) (v : Nat) (x : QpSt), s.blk.pathOn p = true ∧ q < 64 ∧ ((reaches p.code (bQP q) = true ∨ p = .fabric ∨ p = .network)) ∧ s.blk.qp q = x ∧ x.enabled = true ∧ s.blk.mayRing q p.code = true ∧ s.blk.fetchStopped = false ∧ s.blk.sqLocal q = false ∧ x.posted = none ∧ x.fetchError = false ∧ x.staleWait = false ∧ x.fetching = 0 ∧ s.blk.att.phase ≠ .orphan ∧ 0 < (BitVec.ofNat 32 v - x.head).toNat ∧ (BitVec.ofNat 32 v - x.head).toNat ≤ 2 ^ s.blk.sqLog q :=
  ⟨st (withQp { qpOn with head := 14 }), .host, 0, 17, { qpOn with head := 14 }, by decide +kernel⟩

theorem witness_Doorbells_2 : ∃ (s : State) (p : Path) (q : Nat) (v : Nat) (x : QpSt), s.blk.pathOn p = true ∧ q < 64 ∧ ((reaches p.code (bQP q) = true ∨ p = .fabric ∨ p = .network)) ∧ s.blk.qp q = x ∧ x.enabled = true ∧ s.blk.mayRing q p.code = true ∧ s.blk.fetchStopped = false ∧ 2 ^ s.blk.sqLog q < (BitVec.ofNat 32 v - x.head).toNat :=
  ⟨st (withQp qpOn), .host, 0, 17, qpOn, by decide +kernel⟩

theorem witness_Doorbells_3a : ∃ (s : State) (p : Path) (q : Nat) (x : QpSt), s.blk.pathOn p = true ∧ q < 64 ∧ ((reaches p.code (bQP q) = true ∨ p = .fabric ∨ p = .network)) ∧ s.blk.qp q = x ∧ ((x.enabled = false ∨ s.blk.mayRing q p.code = false)) :=
  ⟨st .reset, .host, 0, .reset, by decide +kernel⟩

theorem witness_Doorbells_3b : ∃ (s : State) (p : Path) (q : Nat) (x : QpSt), s.blk.pathOn p = true ∧ q < 64 ∧ ((reaches p.code (bQP q) = true ∨ p = .fabric ∨ p = .network)) ∧ s.blk.qp q = x ∧ ((x.enabled = false ∨ s.blk.mayRing q p.code = false)) :=
  ⟨st (withQp qpOn), .fabric, 0, qpOn, by decide +kernel⟩

theorem witness_Doorbells_4 : ∃ (s : State) (p : Path) (q : Nat) (v : Nat) (x : QpSt) (w : W32), s.blk.pathOn p = true ∧ q < 64 ∧ ((reaches p.code (bQP q) = true ∨ p = .fabric ∨ p = .network)) ∧ s.blk.qp q = x ∧ x.enabled = true ∧ s.blk.mayRing q p.code = true ∧ s.blk.fetchStopped = false ∧ x.posted = some w ∧ (BitVec.ofNat 32 v - x.head).toNat ≤ (w - x.head).toNat ∧ (BitVec.ofNat 32 v - x.head).toNat ≤ 2 ^ s.blk.sqLog q :=
  ⟨st (withQp { qpOn with posted := some 3 }), .host, 0, 2, { qpOn with posted := some 3 }, 3, by decide +kernel⟩

theorem witness_Doorbells_5 : ∃ (s : State) (q : Nat) (es : List Bytes) (x : QpSt), s.blk.hubUp = true ∧ s.blk.qp q = x ∧ x.fetching = 1 ∧ x.enabled = true ∧ s.blk.fetchStopped = false ∧ s.blk.sqLocal q = false ∧ s.blk.entryValid q (bytesAt (es.getD 0 []) 0 128) = true :=
  ⟨st (withQp { qpOn with fetching := 1, posted := some 1 }), 0, [entry 1 []], { qpOn with fetching := 1, posted := some 1 }, by decide +kernel⟩

theorem witness_Doorbells_6 : ∃ (s : State) (q : Nat) (es : List Bytes) (x : QpSt), s.blk.hubUp = true ∧ s.blk.qp q = x ∧ 0 < x.fetching ∧ x.enabled = true ∧ s.blk.fetchStopped = false ∧ s.blk.sqLocal q = false ∧ s.blk.entryValid q (bytesAt (es.getD 0 []) 0 128) = true :=
  ⟨st (withQp { qpOn with fetching := 2, posted := some 2 }), 0, [entry 1 []], { qpOn with fetching := 2, posted := some 2 }, by decide +kernel⟩

theorem witness_Doorbells_7 : ∃ (s : State) (q : Nat) (es : List Bytes) (x : QpSt), s.blk.hubUp = true ∧ s.blk.qp q = x ∧ 0 < x.fetching ∧ x.enabled = true ∧ s.blk.fetchStopped = false ∧ s.blk.sqLocal q = false ∧ s.blk.entryValid q (bytesAt (es.getD 0 []) 0 128) = false :=
  ⟨st (withQp { qpOn with fetching := 1, posted := some 1 }), 0, [[7]], { qpOn with fetching := 1, posted := some 1 }, by decide +kernel⟩

theorem witness_Doorbells_8 : ∃ (s : State) (q : Nat) (x : QpSt), s.blk.hubUp = true ∧ s.blk.qp q = x ∧ 0 < x.fetching ∧ x.enabled = true ∧ s.blk.fetchStopped = false ∧ s.blk.sqLocal q = false :=
  ⟨st (withQp { qpOn with fetching := 1 }), 0, { qpOn with fetching := 1 }, by decide +kernel⟩

theorem witness_Doorbells_9 : ∃ (s : State) (q : Nat) (e : Bytes) (x : QpSt), s.blk.hubUp = true ∧ s.blk.qp q = x ∧ x.staleWait = true ∧ x.enabled = true ∧ s.blk.fetchStopped = false ∧ s.blk.sqLocal q = false ∧ s.blk.entryValid q (bytesAt e 0 128) = true :=
  ⟨st (withQp { qpOn with staleWait := true }), 0, entry 1 [], { qpOn with staleWait := true }, by decide +kernel⟩

theorem witness_Doorbells_10 : ∃ (s : State) (q : Nat) (e : Bytes) (x : QpSt), s.blk.hubUp = true ∧ s.blk.qp q = x ∧ x.staleWait = true ∧ x.enabled = true ∧ s.blk.fetchStopped = false ∧ s.blk.sqLocal q = false ∧ s.blk.entryValid q (bytesAt e 0 128) = false :=
  ⟨st (withQp { qpOn with staleWait := true }), 0, [7], { qpOn with staleWait := true }, by decide +kernel⟩

theorem witness_Doorbells_11 : ∃ (s : State) (q : Nat) (x : QpSt), s.blk.hubUp = true ∧ s.blk.qp q = x ∧ x.staleWait = true :=
  ⟨st (withQp { qpOn with staleWait := true }), 0, { qpOn with staleWait := true }, by decide +kernel⟩

theorem witness_EntryLifecycle_1a : ∃ (s : State) (q : Nat) (seq : Nat) (f : Flight), s.blk.hubUp = true ∧ s.blk.flight? q seq = some f ∧ s.blk.mayStart f = true ∧ entryForm f.raw = true ∧ s.blk.slotsOn = false ∧ ((s.blk.mem.sramBad = none ∨ readsSram (eOpcode f.raw) = false)) :=
  ⟨st { Blk.reset with flights := [flight (entry 1 []) .accepted] }, 0, 0, flight (entry 1 []) .accepted, by decide +kernel⟩

theorem witness_EntryLifecycle_1b : ∃ (s : State) (q : Nat) (seq : Nat) (f : Flight), s.blk.hubUp = true ∧ s.blk.flight? q seq = some f ∧ s.blk.mayStart f = true ∧ entryForm f.raw = true ∧ s.blk.slotsOn = false ∧ ((s.blk.mem.sramBad = none ∨ readsSram (eOpcode f.raw) = false)) :=
  ⟨st { inState .doze with flights := [flight (entry 1 []) .accepted] }, 0, 0, flight (entry 1 []) .accepted, by decide +kernel⟩

theorem witness_EntryLifecycle_2 : ∃ (s : State) (q : Nat) (seq : Nat) (f : Flight), s.blk.hubUp = true ∧ s.blk.flight? q seq = some f ∧ s.blk.mayStart f = true ∧ entryForm f.raw = false :=
  ⟨st { Blk.reset with flights := [flight (entry 0x77 []) .accepted] }, 0, 0, flight (entry 0x77 []) .accepted, by decide +kernel⟩

theorem witness_EntryLifecycle_3a : ∃ (s : State) (q : Nat) (seq : Nat) (buf : Nat) (off : Nat) (f : Flight), s.blk.hubUp = true ∧ s.blk.flight? q seq = some f ∧ s.blk.mayStart f = true ∧ entryForm f.raw = true ∧ s.blk.slotsOn = false ∧ s.blk.mem.sramBad = some (buf, off) ∧ readsSram (eOpcode f.raw) = true :=
  ⟨st { Blk.reset with flights := [flight (entry 0x10 []) .accepted], mem := { Blk.reset.mem with sramBad := some (3, 4100) } }, 0, 0, 3, 4100, flight (entry 0x10 []) .accepted, by decide +kernel⟩

theorem witness_EntryLifecycle_3b : ∃ (s : State) (q : Nat) (seq : Nat) (buf : Nat) (off : Nat) (f : Flight), s.blk.hubUp = true ∧ s.blk.flight? q seq = some f ∧ s.blk.mayStart f = true ∧ entryForm f.raw = true ∧ s.blk.slotsOn = false ∧ s.blk.mem.sramBad = some (buf, off) ∧ readsSram (eOpcode f.raw) = true :=
  ⟨st { Blk.reset with flights := [flight (entry 0x10 []) .accepted], mem := { Blk.reset.mem with sramBad := some (3, 4100), sramLog := [(3, 1, 0), (3, 1, 0)] } }, 0, 0, 3, 4100, flight (entry 0x10 []) .accepted, by decide +kernel⟩

theorem witness_EntryLifecycle_4 : ∃ (s : State) (q : Nat) (seq : Nat) (f : Flight), s.blk.hubUp = true ∧ s.blk.flight? q seq = some f ∧ s.blk.mayStart f = false :=
  ⟨st { Blk.reset with flights := [flight (entry 1 []) .running] }, 0, 0, flight (entry 1 []) .running, by decide +kernel⟩

theorem witness_EntryLifecycle_5 : ∃ (s : State) (q : Nat) (seq : Nat) (f : Flight) (x : QpSt), s.blk.hubUp = true ∧ s.blk.flight? q seq = some f ∧ f.stage = .done ∧ f.txns = [] ∧ f.out = [] ∧ s.blk.restarting = false ∧ f.fences = false ∧ f.slots = [] ∧ s.blk.att.ending = false ∧ s.blk.pwr.after = none ∧ s.blk.qp q = x ∧ x.ending = false ∧ s.blk.holdsComp q = false ∧ s.blk.cqLocal q = false :=
  ⟨st { Blk.reset with flights := [flight (entry 1 []) .done] }, 0, 0, flight (entry 1 []) .done, .reset, by decide +kernel⟩

theorem witness_EntryLifecycle_6 : ∃ (s : State) (q : Nat) (seq : Nat) (f : Flight) (x : QpSt), s.blk.hubUp = true ∧ s.blk.flight? q seq = some f ∧ f.stage = .done ∧ f.txns = [] ∧ f.out = [] ∧ s.blk.restarting = false ∧ f.fences = false ∧ f.slots = [] ∧ s.blk.att.ending = false ∧ s.blk.pwr.after = none ∧ s.blk.qp q = x ∧ x.ending = false ∧ s.blk.holdsComp q = true :=
  ⟨st { attIn .orphan with flights := [flight (entry 1 []) .done] }, 0, 0, flight (entry 1 []) .done, .reset, by decide +kernel⟩

theorem witness_EntryLifecycle_7 : ∃ (s : State) (q : Nat) (seq : Nat) (f : Flight), s.blk.hubUp = true ∧ s.blk.flight? q seq = some f ∧ ((f.stage ≠ .done ∨ f.txns ≠ [] ∨ f.out ≠ [])) ∧ s.blk.att.ending = false ∧ s.blk.pwr.after = none :=
  ⟨st { Blk.reset with flights := [{ flight (entry 1 []) .done with txns := [5] }] }, 0, 0, { flight (entry 1 []) .done with txns := [5] }, by decide +kernel⟩

theorem witness_EntryLifecycle_8 : ∃ (s : State) (v : Nat), s.blk.hubUp = true ∧ tget 0 v s.blk.ev.pend ≠ 0 ∧ bits (s.blk.reg (oEV_COAL v)) 23 8 ≠ 0 ∧ s.blk.att.phase ≠ .orphan ∧ s.blk.ev.unmasked.testBit v = true :=
  ⟨st { Blk.reset.setReg (oEV_COAL 2) 0x502 with ev := { Blk.reset.ev with pend := [(2, 1)], unmasked := 4 } }, 2, by decide +kernel⟩

theorem witness_QueueControl_1a : ∃ (s : State) (q : Nat) (v : Nat) (x : QpSt), s.blk.hostOn = true ∧ q < 64 ∧ s.blk.qp q = x ∧ (BitVec.ofNat 32 v - x.cqHead).toNat ≤ (x.cqTail - x.cqHead).toNat :=
  ⟨st (withQp { qpOn with cqTail := 5, cqHead := 2 }), 0, 4, { qpOn with cqTail := 5, cqHead := 2 }, by decide +kernel⟩

theorem witness_QueueControl_1b : ∃ (s : State) (q : Nat) (v : Nat) (x : QpSt), s.blk.hostOn = true ∧ q < 64 ∧ s.blk.qp q = x ∧ (BitVec.ofNat 32 v - x.cqHead).toNat ≤ (x.cqTail - x.cqHead).toNat :=
  ⟨st (withQp { qpOn with cqTail := 5, cqHead := 2 }), 0, 5, { qpOn with cqTail := 5, cqHead := 2 }, by decide +kernel⟩

theorem witness_QueueControl_2a : ∃ (s : State) (q : Nat) (v : Nat) (x : QpSt), s.blk.hostOn = true ∧ q < 64 ∧ s.blk.qp q = x ∧ (x.cqTail - x.cqHead).toNat < (BitVec.ofNat 32 v - x.cqHead).toNat :=
  ⟨st (withQp { qpOn with cqTail := 5, cqHead := 2 }), 0, 6, { qpOn with cqTail := 5, cqHead := 2 }, by decide +kernel⟩

theorem witness_QueueControl_2b : ∃ (s : State) (q : Nat) (v : Nat) (x : QpSt), s.blk.hostOn = true ∧ q < 64 ∧ s.blk.qp q = x ∧ (x.cqTail - x.cqHead).toNat < (BitVec.ofNat 32 v - x.cqHead).toNat :=
  ⟨st (withQp { qpOn with cqTail := 5, cqHead := 2 }), 0, 1, { qpOn with cqTail := 5, cqHead := 2 }, by decide +kernel⟩

theorem witness_QueueControl_3 : ∃ (s : State) (q : Nat) (x : QpSt), s.blk.hostOn = true ∧ q < 64 ∧ s.blk.qp q = x ∧ x.everCommitted = true ∧ x.enabled = false ∧ x.ending = false ∧ ((s.blk.hostBound q = false ∨ s.blk.att.phase ≠ .detached)) :=
  ⟨st { withQp { QpSt.reset with everCommitted := true } with att := (attIn .attached).att }, 0, { QpSt.reset with everCommitted := true }, by decide +kernel⟩

theorem witness_QueueControl_4a : ∃ (s : State) (q : Nat) (x : QpSt), s.blk.hostOn = true ∧ q < 64 ∧ s.blk.qp q = x ∧ ((x.everCommitted = false ∨ (s.blk.hostBound q = true ∧ s.blk.att.phase = .detached))) :=
  ⟨st (withQp { QpSt.reset with everCommitted := true }), 0, { QpSt.reset with everCommitted := true }, by decide +kernel⟩

theorem witness_QueueControl_4b : ∃ (s : State) (q : Nat) (x : QpSt), s.blk.hostOn = true ∧ q < 64 ∧ s.blk.qp q = x ∧ ((x.everCommitted = false ∨ (s.blk.hostBound q = true ∧ s.blk.att.phase = .detached))) :=
  ⟨st .reset, 0, .reset, by decide +kernel⟩

theorem witness_QueueControl_5 : ∃ (s : State) (q : Nat) (x : QpSt), s.blk.hostOn = true ∧ q < 64 ∧ s.blk.qp q = x :=
  ⟨st (withQp qpOn), 0, qpOn, by decide +kernel⟩

theorem witness_QueueControl_6 : ∃ (s : State) (q : Nat) (x : QpSt), s.blk.hostOn = true ∧ q < 64 ∧ s.blk.qp q = x ∧ s.blk.quiesced q = true :=
  ⟨st (withQp { QpSt.reset with head := 7, seqNext := 9, fetchError := true }), 0, { QpSt.reset with head := 7, seqNext := 9, fetchError := true }, by decide +kernel⟩

theorem witness_QueueControl_7 : ∃ (s : State) (q : Nat) (x : QpSt), s.blk.hostOn = true ∧ q < 64 ∧ s.blk.qp q = x ∧ s.blk.quiesced q = false :=
  ⟨st (withQp qpOn), 0, qpOn, by decide +kernel⟩

theorem witness_QueueControl_8 : ∃ (s : State) (q : Nat) (x : QpSt), s.blk.hostOn = true ∧ q < 64 ∧ s.blk.qp q = x :=
  ⟨st (withQp { QpSt.reset with held := [(flight (entry 1 []) .done).comp] }), 0, { QpSt.reset with held := [(flight (entry 1 []) .done).comp] }, by decide +kernel⟩

theorem witness_Attachment_1 : ∃ (s : State), s.blk.hostOn = true ∧ s.blk.att.phase = .detached :=
  ⟨st .reset, by decide +kernel⟩

theorem witness_Attachment_2 : ∃ (s : State), s.blk.hostOn = true ∧ s.blk.att.phase ≠ .detached :=
  ⟨st (attIn .orphan), by decide +kernel⟩

theorem witness_Attachment_3 : ∃ (s : State), s.blk.hostOn = true :=
  ⟨st (attIn .attached), by decide +kernel⟩

theorem witness_Attachment_4 : ∃ (s : State), s.blk.att.phase = .attached ∧ s.blk.att.ending = false ∧ s.blk.reg (bATTACH + 0x14) % 65536 ≠ 0 ∧ s.blk.reg (bATTACH + 0x10) ≠ 0 :=
  ⟨st ((attIn .attached).setReg (bATTACH + 0x14) 5), by decide +kernel⟩

theorem witness_Attachment_5 : ∃ (s : State), s.blk.att.phase = .attached ∧ s.blk.att.ending = false ∧ s.blk.reg (bATTACH + 0x10) ≠ 0 :=
  ⟨st (attIn .attached), by decide +kernel⟩

theorem witness_Attachment_6 : ∃ (s : State), s.blk.att.phase = .attached ∧ s.blk.att.ending = false ∧ s.blk.att.linkUp = false ∧ s.blk.reg (bATTACH + 0x10) ≠ 0 :=
  ⟨st { attIn .attached with att := { (attIn .attached).att with linkUp := false } }, by decide +kernel⟩

theorem witness_Attachment_7 : ∃ (s : State), s.blk.att.phase = .orphan ∧ s.blk.att.ending = false ∧ s.blk.att.holdEnd ≤ s.blk.time.toNat ∧ s.blk.flights = [] ∧ s.blk.slotsOn = false ∧ s.blk.descs = [] :=
  ⟨st (attIn .orphan), by decide +kernel⟩

theorem witness_Attachment_8 : ∃ (s : State) (v : Nat), s.blk.hostOn = true ∧ s.blk.att.phase = .orphan ∧ s.blk.att.ending = false ∧ BitVec.ofNat 32 v = s.blk.att.token :=
  ⟨st (attIn .orphan), 5, by decide +kernel⟩

theorem witness_Attachment_9a : ∃ (s : State) (v : Nat), s.blk.hostOn = true ∧ ((s.blk.att.phase ≠ .orphan ∨ (s.blk.att.badTokens ≠ 15 ∧ BitVec.ofNat 32 v ≠ s.blk.att.token))) :=
  ⟨st (attIn .orphan), 6, by decide +kernel⟩

theorem witness_Attachment_9b : ∃ (s : State) (v : Nat), s.blk.hostOn = true ∧ ((s.blk.att.phase ≠ .orphan ∨ (s.blk.att.badTokens ≠ 15 ∧ BitVec.ofNat 32 v ≠ s.blk.att.token))) :=
  ⟨st .reset, 6, by decide +kernel⟩

theorem witness_Attachment_10 : ∃ (s : State) (v : Nat), s.blk.hostOn = true ∧ s.blk.att.phase = .orphan ∧ s.blk.att.ending = false ∧ s.blk.att.badTokens = 15 ∧ BitVec.ofNat 32 v ≠ s.blk.att.token ∧ s.blk.flights = [] ∧ s.blk.slotsOn = false ∧ s.blk.descs = [] :=
  ⟨st { attIn .orphan with att := { (attIn .orphan).att with badTokens := 15 } }, 6, by decide +kernel⟩

theorem witness_Attachment_11 : ∃ (s : State), s.blk.hostOn = true ∧ s.blk.att.phase = .attached ∧ s.blk.att.ending = false ∧ s.blk.flights = [] ∧ s.blk.slotsOn = false ∧ s.blk.descs = [] :=
  ⟨st (attIn .attached), by decide +kernel⟩

theorem witness_Attachment_12 : ∃ (s : State), s.blk.att.ready = true ∧ s.blk.att.phase = .attached ∧ s.blk.att.ending = false ∧ s.blk.flights = [] ∧ s.blk.slotsOn = false ∧ s.blk.descs = [] :=
  ⟨st (attIn .attached), by decide +kernel⟩

theorem witness_Attachment_13 : ∃ (s : State), s.blk.att.linkUp = true ∧ s.blk.att.phase = .orphan :=
  ⟨st ((attIn .orphan).setReg (bATTACH + 0x10) 1), by decide +kernel⟩

theorem witness_Attachment_14 : ∃ (s : State), s.blk.att.linkUp = true ∧ s.blk.att.phase ≠ .orphan :=
  ⟨st (attIn .attached), by decide +kernel⟩

theorem witness_LinkBringUp_1 : ∃ (s : State) (l : Nat), s.blk.hubUp = true ∧ (s.blk.link l).st = .training ∧ (s.blk.link l).step = 1 :=
  ⟨st (inLink .reset 3 .training |>.setLink 3 { (inLink .reset 3 .training).link 3 with step := 1 }), 3, by decide +kernel⟩

theorem witness_LinkBringUp_2 : ∃ (s : State) (l : Nat), s.blk.hubUp = true ∧ (s.blk.link l).st = .down ∧ s.blk.linksLive = true ∧ s.blk.linkOn l = true ∧ s.blk.isolated = false :=
  ⟨st (inLink (linked .reset) 3 .down), 3, by decide +kernel⟩

theorem witness_LinkBringUp_3 : ∃ (s : State) (l : Nat), s.blk.hubUp = true ∧ (s.blk.link l).st = .training ∧ (s.blk.link l).step = 2 ∧ s.blk.restarting = false :=
  ⟨st (Blk.reset.setLink 3 { LinkSt.reset with st := .training, step := 2 }), 3, by decide +kernel⟩

theorem witness_LinkBringUp_4 : ∃ (s : State) (l : Nat), s.blk.hubUp = true ∧ (s.blk.link l).st = .training ∧ (s.blk.link l).step = 2 ∧ (s.blk.link l).attempt < 2 :=
  ⟨st (Blk.reset.setLink 3 { LinkSt.reset with st := .training, step := 2, attempt := 1 }), 3, by decide +kernel⟩

theorem witness_LinkBringUp_5a : ∃ (s : State) (l : Nat), s.blk.hubUp = true ∧ (((s.blk.link l).st = .ident ∨ ((s.blk.link l).st = .training ∧ ((s.blk.link l).step ≠ 2 ∨ 2 ≤ (s.blk.link l).attempt)))) :=
  ⟨st (Blk.reset.setLink 3 { LinkSt.reset with st := .training, step := 2, attempt := 2 }), 3, by decide +kernel⟩

theorem witness_LinkBringUp_5b : ∃ (s : State) (l : Nat), s.blk.hubUp = true ∧ (((s.blk.link l).st = .ident ∨ ((s.blk.link l).st = .training ∧ ((s.blk.link l).step ≠ 2 ∨ 2 ≤ (s.blk.link l).attempt)))) :=
  ⟨st (fabBlk .ident), 0, by decide +kernel⟩

theorem witness_LinkBringUp_6 : ∃ (s : State) (l : Nat), s.blk.hubUp = true ∧ (s.blk.link l).st = .down ∧ s.blk.linksLive = true ∧ s.blk.linkOn l = true ∧ s.blk.isolated = false :=
  ⟨st (inLink (linked .reset) 3 .down), 3, by decide +kernel⟩

theorem witness_LinkBringUp_7 : ∃ (s : State) (l : Nat) (m : Bytes), s.blk.hubUp = true ∧ (s.blk.link l).st = .ident ∧ (s.blk.link l).partner = [] ∧ m.length = 2000 ∧ fld m 0 1 = 1 ∧ s.blk.restarting = false :=
  ⟨st (fabBlk .ident), 0, identIn, by decide +kernel⟩

theorem witness_LinkBringUp_8 : ∃ (s : State) (l : Nat) (m : Bytes), s.blk.hubUp = true ∧ (((s.blk.link l).st ≠ .ident ∨ m.length ≠ 2000 ∨ fld m 0 1 ≠ 1)) :=
  ⟨st (fabBlk .ident), 0, [1], by decide +kernel⟩

theorem witness_LinkBringUp_9 : ∃ (s : State) (l : Nat) (m : Bytes), s.blk.hubUp = true ∧ (s.blk.link l).st = .ident ∧ (s.blk.link l).partner ≠ [] ∧ m.length = 3317 ∧ fld m 0 1 = 2 ∧ s.blk.restarting = false :=
  ⟨st ((fabBlk .ident).setLink 0 { (fabBlk .ident).link 0 with partner := identIn }), 0, proofIn, by decide +kernel⟩

theorem witness_LinkBringUp_10 : ∃ (s : State) (l : Nat), s.blk.hubUp = true ∧ (s.blk.link l).st = .mismatch ∧ s.blk.linksLive = true ∧ s.blk.restarting = false :=
  ⟨st (fabBlk .mismatch), 0, by decide +kernel⟩

theorem witness_LinkBringUp_11 : ∃ (s : State) (l : Nat) (bad : Nat) (total : Nat), s.blk.hubUp = true ∧ (s.blk.link l).st = .up ∧ total < bad * 100000 ∧ s.blk.linkOn l = true ∧ s.blk.isolated = false :=
  ⟨st (fabBlk .up), 0, 2, 100000, by decide +kernel⟩

theorem witness_LinkBringUp_12 : ∃ (s : State) (bad : Nat) (total : Nat), s.blk.hubUp = true ∧ bad * 100000 ≤ total :=
  ⟨st (fabBlk .up), 1, 100000, by decide +kernel⟩

theorem witness_LinkFlits_1 : ∃ (s : State) (l : Nat), s.blk.hubUp = true ∧ (s.blk.link l).st = .up :=
  ⟨st fabUp, 0, by decide +kernel⟩

theorem witness_LinkFlits_2 : ∃ (s : State) (l : Nat) (raw : Bytes), s.blk.hubUp = true ∧ (s.blk.link l).st = .up ∧ crc32c (bytesAt raw 0 0x278) ≠ fld (bytesAt raw 0 640) 0x278 4 :=
  ⟨st fabUp, 0, [1], by decide +kernel⟩

theorem witness_LinkFlits_3a : ∃ (s : State) (l : Nat) (raw : Bytes) (n : Bool), s.blk.hubUp = true ∧ (s.blk.link l).st = .up ∧ raw.length = 640 ∧ crc32c (bytesAt raw 0 0x278) = fld raw 0x278 4 ∧ fld raw 4 1 = 1 ∧ fld raw 0 2 ≠ ((s.blk.link l).rxSeq + 1) % 65536 ∧ (s.blk.link l).naked = !n :=
  ⟨st fabUp, 0, goodFlit 5 1 [], true, by decide +kernel⟩

theorem witness_LinkFlits_3b : ∃ (s : State) (l : Nat) (raw : Bytes) (n : Bool), s.blk.hubUp = true ∧ (s.blk.link l).st = .up ∧ raw.length = 640 ∧ crc32c (bytesAt raw 0 0x278) = fld raw 0x278 4 ∧ fld raw 4 1 = 1 ∧ fld raw 0 2 ≠ ((s.blk.link l).rxSeq + 1) % 65536 ∧ (s.blk.link l).naked = !n :=
  ⟨st (fabUp.setLink 0 { fabUp.link 0 with naked := true }), 0, goodFlit 5 1 [], false, by decide +kernel⟩

theorem witness_LinkFlits_4 : ∃ (s : State) (l : Nat) (raw : Bytes) (part : Bytes), s.blk.hubUp = true ∧ (s.blk.link l).st = .up ∧ raw.length = 640 ∧ crc32c (bytesAt raw 0 0x278) = fld raw 0x278 4 ∧ fld raw 4 1 = 1 ∧ fld raw 0 2 = ((s.blk.link l).rxSeq + 1) % 65536 ∧ takePackets 80 ((s.blk.link l).part ++ bytesAt raw 8 624) = ([], part) :=
  ⟨st fabUp, 0, goodFlit 1 1 [], [], by decide +kernel⟩

theorem witness_LinkFlits_5 : ∃ (s : State) (l : Nat) (raw : Bytes) (part : Bytes) (p : Packet), s.blk.hubUp = true ∧ (s.blk.link l).st = .up ∧ raw.length = 640 ∧ crc32c (bytesAt raw 0 0x278) = fld raw 0x278 4 ∧ fld raw 4 1 = 1 ∧ fld raw 0 2 = ((s.blk.link l).rxSeq + 1) % 65536 ∧ takePackets 80 ((s.blk.link l).part ++ bytesAt raw 8 624) = ([p], part) ∧ (((s.blk.setLink l { s.blk.link l with rxSeq := fld raw 0 2, part := part, naked := false }).ackIn l (fld raw 2 2) (fld raw 5 1 % 4) (fld raw 6 2)).packetIn l p).held.length ≤ s.blk.held.length :=
  ⟨st fabUp, 0, goodFlit 1 1 (pktBytes (pk 0 4 [])), [], { pk 0 4 [] with typ := 0 }, by decide +kernel⟩

theorem witness_LinkFlits_6 : ∃ (s : State) (l : Nat) (raw : Bytes) (part : Bytes) (p : Packet), s.blk.hubUp = true ∧ (s.blk.link l).st = .up ∧ raw.length = 640 ∧ crc32c (bytesAt raw 0 0x278) = fld raw 0x278 4 ∧ fld raw 4 1 = 1 ∧ fld raw 0 2 = ((s.blk.link l).rxSeq + 1) % 65536 ∧ takePackets 80 ((s.blk.link l).part ++ bytesAt raw 8 624) = ([p], part) ∧ pktForm p = true ∧ pktIsRsp p = false ∧ p.typ ≠ 0x10 ∧ p.dst = s.blk.struc.modNum ∧ s.blk.remoteHeld = true ∧ pktVc p < (s.blk.link l).owed.length :=
  ⟨st { fabUp with lay := { fabUp.lay with phase := .applying } }, 0, goodFlit 1 1 (pktBytes { pk 64 16 [] with typ := 1 }), [], { pk 64 16 [] with typ := 1 }, by decide +kernel⟩

theorem witness_LinkFlits_7 : ∃ (s : State) (l : Nat) (a : Nat), s.blk.hubUp = true ∧ (((s.blk.link l).st = .up ∨ (s.blk.link l).st = .ident)) ∧ (s.blk.link l).retry.all (fun f => seqLe f.seq a || decide (f.resent < 7)) = true :=
  ⟨st (fabUp.setLink 0 { fabUp.link 0 with retry := [⟨1, 1, [], [], 0⟩, ⟨2, 1, [], [], 3⟩] }), 0, 1, by decide +kernel⟩

theorem witness_LinkFlits_8 : ∃ (s : State) (l : Nat) (a : Nat), s.blk.hubUp = true ∧ (((s.blk.link l).st = .up ∨ (s.blk.link l).st = .ident)) ∧ (s.blk.link l).retry.any (fun f => !seqLe f.seq a && decide (7 ≤ f.resent)) = true :=
  ⟨st (fabUp.setLink 0 { fabUp.link 0 with retry := [⟨1, 1, [], [], 0⟩, ⟨2, 1, [], [], 7⟩] }), 0, 1, by decide +kernel⟩

theorem witness_LinkFlits_9 : ∃ (s : State) (l : Nat), s.blk.hubUp = true ∧ (s.blk.link l).st = .up :=
  ⟨st (fabUp.setLink 0 { fabUp.link 0 with retry := [⟨1, 1, [], [], 0⟩, ⟨2, 1, [], [], 7⟩] }), 0, by decide +kernel⟩

theorem witness_LinkFlits_10 : ∃ (s : State) (l : Nat), s.blk.hubUp = true ∧ (((s.blk.link l).st = .up ∨ (s.blk.link l).st = .ident)) ∧ (s.blk.link l).retry ≠ [] :=
  ⟨st (fabUp.setLink 0 { fabUp.link 0 with retry := [⟨1, 1, [], [], 0⟩] }), 0, by decide +kernel⟩

theorem witness_LinkFlits_11 : ∃ (s : State) (l : Nat), s.blk.hubUp = true ∧ (((s.blk.link l).st = .up ∨ (s.blk.link l).st = .ident)) :=
  ⟨st fabUp, 0, by decide +kernel⟩

theorem witness_LinkFlits_12 : ∃ (s : State) (p : Path) (v : Nat), s.blk.pathOn p = true ∧ reaches p.code (bFABRIC + 4) = true ∧ v.testBit 1 = true :=
  ⟨st fabUp, .host, 2, by decide +kernel⟩

theorem witness_LinkFlits_13 : ∃ (s : State) (p : Path) (v : Nat), s.blk.pathOn p = true ∧ reaches p.code (bFABRIC + 4) = true ∧ v.testBit 1 = false ∧ v.testBit 0 = true ∧ s.blk.linksLive = true :=
  ⟨st fabUp, .host, 1, by decide +kernel⟩

theorem witness_HomeRequests_1 : ∃ (s : State) (l : Nat) (p : Packet), s.blk.homeNow l (s.blk.arrived 1 p) = true ∧ s.blk.homeOk p.addr p.arg p.qs = true ∧ s.blk.mem.sramBad = none ∧ (readRange s.blk (rqFab p.qs) (haMpa p.addr) p.arg).st = stOK :=
  ⟨st fabUp, 0, pk 64 16 [], by decide +kernel⟩

theorem witness_HomeRequests_2 : ∃ (s : State) (l : Nat) (buf : Nat) (o : Nat) (p : Packet), s.blk.homeNow l (s.blk.arrived 1 p) = true ∧ s.blk.homeOk p.addr p.arg p.qs = true ∧ s.blk.mem.sramBad = some (buf, o) :=
  ⟨st { fabUp with mem := { fabUp.mem with sramBad := some (3, 4100) } }, 0, 3, 4100, pk 64 16 [], by decide +kernel⟩

theorem witness_HomeRequests_3 : ∃ (s : State) (l : Nat) (p : Packet), s.blk.homeNow l (s.blk.arrived 1 p) = true ∧ s.blk.homeOk p.addr p.arg p.qs = false :=
  ⟨st fabUp, 0, pk 64 0 [], by decide +kernel⟩

theorem witness_HomeRequests_4 : ∃ (s : State) (l : Nat) (p : Packet), s.blk.homeNow l (s.blk.arrived 2 p) = true ∧ s.blk.homeOk p.addr p.arg p.qs = true ∧ p.arg ≤ p.payload.length ∧ s.blk.slotsOn = false :=
  ⟨st fabUp, 0, pk 64 4 [1, 2, 3, 4], by decide +kernel⟩

theorem witness_HomeRequests_5 : ∃ (s : State) (l : Nat) (p : Packet), s.blk.homeNow l (s.blk.arrived 2 p) = true ∧ ((s.blk.homeOk p.addr p.arg p.qs = false ∨ p.payload.length < p.arg)) :=
  ⟨st fabUp, 0, pk 64 4 [1], by decide +kernel⟩

theorem witness_HomeRequests_6 : ∃ (s : State) (l : Nat) (p : Packet), s.blk.homeNow l (s.blk.arrived 3 p) = true ∧ atomicOk p.sub p.addr = true ∧ s.blk.homeOk p.addr (atomicLen p.sub) p.qs = true ∧ (readRange s.blk (rqFab p.qs) (haMpa p.addr) (atomicLen p.sub)).st = stOK ∧ (readRange s.blk (rqFab p.qs) (haMpa p.addr) (atomicLen p.sub)).corr = false ∧ ((readRange s.blk (rqFab p.qs) (haMpa p.addr) (atomicLen p.sub)).b.otherWrite (rqFab p.qs) (haMpa p.addr) (leBytes (atomicLen p.sub) (atomicNew p.sub (leNat (readRange s.blk (rqFab p.qs) (haMpa p.addr) (atomicLen p.sub)).data) p.arg (fld p.payload 0 8)))).2 = stOK :=
  ⟨st fabUp, 0, pk 64 5 (leBytes 16 0), by decide +kernel⟩

theorem witness_HomeRequests_7 : ∃ (s : State) (l : Nat) (p : Packet), s.blk.homeNow l (s.blk.arrived 3 p) = true ∧ atomicOk p.sub p.addr = false :=
  ⟨st fabUp, 0, { pk 64 5 (leBytes 16 0) with sub := 9 }, by decide +kernel⟩

theorem witness_HomeRequests_8 : ∃ (s : State) (l : Nat) (p : Packet), s.blk.homeNow l (s.blk.arrived 4 p) = true :=
  ⟨st fabUp, 0, pk 0 0 [], by decide +kernel⟩

theorem witness_HomeRequests_9 : ∃ (s : State) (l : Nat) (p : Packet), s.blk.homeNow l (s.blk.arrived 5 p) = true ∧ s.blk.pairOk (s.blk.arrived 5 p) = true :=
  ⟨st { fabUp.setReg (bQP 0 + 0x810) 0x1000404 with qps := [(0, qpOn)] }, 0, pk 0 2 [], by decide +kernel⟩

theorem witness_HomeRequests_10 : ∃ (s : State) (l : Nat) (p : Packet), s.blk.homeNow l (s.blk.arrived 5 p) = true ∧ p.addr < 64 ∧ (((s.blk.qp p.addr).enabled = false ∨ s.blk.mayRing p.addr pFAB = false)) :=
  ⟨st fabUp, 0, pk 0 2 [], by decide +kernel⟩

theorem witness_HomeRequests_11 : ∃ (s : State) (l : Nat) (p : Packet), s.blk.homeNow l (s.blk.arrived 6 p) = true ∧ s.blk.pairOk (s.blk.arrived 6 p) = true ∧ s.blk.sqLocal p.addr = true ∧ (s.blk.otherWrite (rqFab p.qs) (s.blk.sqBase p.addr + 128 * (p.arg % 2 ^ s.blk.sqLog p.addr)) (bytesAt p.payload 0 128)).2 = stOK :=
  ⟨st { fabUp.setReg (bQP 0 + 0x810) 0x1010404 with qps := [(0, qpOn)] }, 0, pk 0 0 (entry 1 []), by decide +kernel⟩

theorem witness_HomeRequests_12 : ∃ (s : State) (l : Nat) (p : Packet), s.blk.homeNow l (s.blk.arrived 6 p) = true ∧ ((s.blk.pairOk (s.blk.arrived 6 p) = false ∨ s.blk.sqLocal (p.addr % 64) = false)) :=
  ⟨st fabUp, 0, pk 0 0 (entry 1 []), by decide +kernel⟩

theorem witness_HomeRequests_13 : ∃ (s : State) (l : Nat) (p : Packet), s.blk.hubUp = true ∧ (s.blk.link l).st = .up ∧ pktForm (s.blk.arrived 1 p) = true ∧ s.blk.remoteHeld = true :=
  ⟨st { fabUp with lay := { fabUp.lay with phase := .applying } }, 0, pk 64 16 [], by decide +kernel⟩

theorem witness_ResponsesAndRouting_1 : ∃ (s : State) (l : Nat) (p : Packet) (t : Txn), s.blk.answers l (s.blk.arrived 0x81 p) t = true ∧ t.typ = 1 :=
  ⟨st (withTxn 1), 0, { pk 0 0 [1, 2, 3, 4] with txn := 5 }, theTxn 1, by decide +kernel⟩

theorem witness_ResponsesAndRouting_2 : ∃ (s : State) (l : Nat) (p : Packet) (t : Txn), s.blk.answers l (s.blk.arrived 0x82 p) t = true ∧ t.typ = 2 :=
  ⟨st (withTxn 2), 0, { pk 0 0 [] with txn := 5, qs := stRANGE }, theTxn 2, by decide +kernel⟩

theorem witness_ResponsesAndRouting_3 : ∃ (s : State) (l : Nat) (p : Packet) (t : Txn), s.blk.answers l (s.blk.arrived 0x83 p) t = true ∧ t.typ = 3 :=
  ⟨st (withTxn 3), 0, { pk 0 0 (leBytes 16 7) with txn := 5 }, theTxn 3, by decide +kernel⟩

theorem witness_ResponsesAndRouting_4 : ∃ (s : State) (l : Nat) (p : Packet) (t : Txn), s.blk.answers l (s.blk.arrived 0x84 p) t = true ∧ t.typ = 4 :=
  ⟨st (withTxn 4), 0, { pk 0 0 [] with txn := 5 }, theTxn 4, by decide +kernel⟩

theorem witness_ResponsesAndRouting_5 : ∃ (s : State) (l : Nat) (p : Packet) (t : Txn), s.blk.answers l (s.blk.arrived 0x85 p) t = true ∧ t.typ = 5 :=
  ⟨st (withTxn 5), 0, { pk 0 0 [] with txn := 5 }, theTxn 5, by decide +kernel⟩

theorem witness_ResponsesAndRouting_6 : ∃ (s : State) (l : Nat) (p : Packet) (t : Txn), s.blk.answers l (s.blk.arrived 0x86 p) t = true ∧ t.typ = 6 :=
  ⟨st (withTxn 6), 0, { pk 0 0 [] with txn := 5 }, theTxn 6, by decide +kernel⟩

theorem witness_ResponsesAndRouting_7a : ∃ (s : State) (l : Nat) (p : Packet) (t : Txn), s.blk.answers l (s.blk.arrived 0x8F p) t = true ∧ ((s.blk.rout.mode ≠ 1 ∨ p.sub ≠ 2)) :=
  ⟨st (withTxn 1), 0, { pk 0 0 [] with txn := 5, sub := 2 }, theTxn 1, by decide +kernel⟩

theorem witness_ResponsesAndRouting_7b : ∃ (s : State) (l : Nat) (p : Packet) (t : Txn), s.blk.answers l (s.blk.arrived 0x8F p) t = true ∧ ((s.blk.rout.mode ≠ 1 ∨ p.sub ≠ 2)) :=
  ⟨st (withTxn 1), 0, { pk 0 0 [] with txn := 5, sub := 1 }, theTxn 1, by decide +kernel⟩

theorem witness_ResponsesAndRouting_8 : ∃ (s : State) (l : Nat) (p : Packet) (t : Txn), s.blk.answers l (s.blk.arrived 0x8F p) t = true ∧ s.blk.rout.mode = 1 ∧ p.sub = 2 :=
  ⟨st { withTxn 1 with struc := { (withTxn 1).struc with rout := some ⟨1, 1, [4, 1, 1], 1, [0, 0, 0], [0, 1, 2], []⟩ } }, 0, { pk 0 0 [] with txn := 5, sub := 2 }, theTxn 1, by decide +kernel⟩

theorem witness_ResponsesAndRouting_9 : ∃ (s : State) (p : Packet), s.blk.hubUp = true ∧ s.blk.fab.txns.find? (fun x => x.num == p.txn) = none ∧ pktForm (s.blk.arrived 0x81 p) = true :=
  ⟨st fabUp, pk 0 0 [], by decide +kernel⟩

theorem witness_ResponsesAndRouting_10 : ∃ (s : State) (l : Nat) (p : Packet), s.blk.hubUp = true ∧ (s.blk.link l).st = .up ∧ 63 ≤ p.hops :=
  ⟨st fabUp, 0, { pk 0 0 [] with typ := 1, dst := 2, hops := 63 }, by decide +kernel⟩

theorem witness_ResponsesAndRouting_11 : ∃ (s : State) (l : Nat) (p : Packet) (b' : Blk), (s.blk.hubUp = true ∧ (s.blk.link l).st = .up ∧ pktForm p = true ∧ p.typ ≠ 0x10 ∧ p.dst ≠ s.blk.struc.modNum ∧ s.blk.remoteHeld = false) ∧ s.blk.forward { p with hops := p.hops + 1 } (some ((s.blk.linkEnt l).bundle / 2)) = some b' :=
  ⟨st fabUp, 0, { pk 0 0 [] with typ := 1, dst := 2 }, ((fabUp.forward { pk 0 0 [] with typ := 1, dst := 2, hops := 1 } (some 0)).getD fabUp), by decide +kernel, rfl⟩

theorem witness_ResponsesAndRouting_12 : ∃ (s : State) (l : Nat) (p : Packet), s.blk.hubUp = true ∧ (s.blk.link l).st = .up ∧ pktForm p = true ∧ p.typ ≠ 0x10 ∧ p.dst ≠ s.blk.struc.modNum ∧ s.blk.remoteHeld = false ∧ pktIsRsp p = false ∧ s.blk.forward { p with hops := p.hops + 1 } (some ((s.blk.linkEnt l).bundle / 2)) = none :=
  ⟨st ((fabUp.setLink 0 LinkSt.reset).setLink 5 { LinkSt.reset with st := .up } |> fun b => { b with struc := { b.struc with links := [⟨0, 0, 1, 0, 0⟩, ⟨0, 0, 1, 0, 0⟩, ⟨0, 0, 1, 0, 0⟩, ⟨0, 0, 1, 0, 0⟩, ⟨0, 0, 1, 0, 0⟩, ⟨1, 0, 3, 0, 0⟩] } }), 5, { pk 0 0 [] with typ := 1, dst := 2 }, by decide +kernel⟩

theorem witness_ResponsesAndRouting_13 : ∃ (s : State) (l : Nat) (p : Packet), s.blk.hubUp = true ∧ (s.blk.link l).st = .up ∧ pktForm { p with typ := 0x10 } = true ∧ fld p.payload 0 2 ≠ s.blk.struc.modNum ∧ s.blk.rout.mode ≠ 1 ∧ s.blk.fab.reports.all (fun r => r.1 != fld p.payload 0 2 || decide (r.2 < fld p.payload 4 4)) = true :=
  ⟨st fabUp, 0, { pk 0 0 (leBytes 2 1 ++ [3, 0] ++ leBytes 4 9 ++ zeros 8) with dst := 0xFFFF }, by decide +kernel⟩

theorem witness_ResponsesAndRouting_14 : ∃ (s : State) (p : Packet), s.blk.hubUp = true ∧ pktForm { p with typ := 0x10 } = true ∧ ((fld p.payload 0 2 = s.blk.struc.modNum ∨ s.blk.fab.reports.any (fun r => r.1 == fld p.payload 0 2 && decide (fld p.payload 4 4 ≤ r.2)) = true)) :=
  ⟨st { fabUp with fab := { fabUp.fab with reports := [(1, 9)] } }, { pk 0 0 (leBytes 2 1 ++ [3, 0] ++ leBytes 4 9 ++ zeros 8) with dst := 0xFFFF }, by decide +kernel⟩

theorem witness_ResponsesAndRouting_15 : ∃ (s : State) (n : Nat) (t : Txn), s.blk.hubUp = true ∧ s.blk.fab.txns.find? (fun x => x.num == n) = some t :=
  ⟨st (withTxn 1), 5, theTxn 1, by decide +kernel⟩

theorem witness_ResponsesAndRouting_16 : ∃ (s : State), s.blk.hubUp = true :=
  ⟨st { fabUp with fab := { fabUp.fab with marks := [1, 2] } }, by decide +kernel⟩

theorem witness_RemoteOperations_1a : ∃ (s : State) (q : Nat) (seq : Nat) (f : Flight), s.blk.hubUp = true ∧ s.blk.running q seq 0x30 = some f ∧ s.blk.moveCheck f = stOK ∧ f.progress = 0 ∧ ((Wk.onFabric s.blk f).putPieces f.raw (split4k (rLen f.raw / 4096 + 2) (rRemote f.raw) (rLen f.raw)) 0 0).1.stall = false :=
  ⟨st { fabUp with flights := [flight (moveRaw 0x30 64 128 8) .running] }, 0, 0, flight (moveRaw 0x30 64 128 8) .running, by decide +kernel⟩

theorem witness_RemoteOperations_1b : ∃ (s : State) (q : Nat) (seq : Nat) (f : Flight), s.blk.hubUp = true ∧ s.blk.running q seq 0x30 = some f ∧ s.blk.moveCheck f = stOK ∧ f.progress = 0 ∧ ((Wk.onFabric s.blk f).putPieces f.raw (split4k (rLen f.raw / 4096 + 2) (rRemote f.raw) (rLen f.raw)) 0 0).1.stall = false :=
  ⟨st { fabUp with flights := [flight (moveRaw 0x30 64 (2 ^ 40) 8) .running] }, 0, 0, flight (moveRaw 0x30 64 (2 ^ 40) 8) .running, by decide +kernel⟩

theorem witness_RemoteOperations_2 : ∃ (s : State) (q : Nat) (seq : Nat) (f : Flight), s.blk.hubUp = true ∧ s.blk.running q seq 0x30 = some f ∧ s.blk.moveCheck f ≠ stOK ∧ f.progress = 0 :=
  ⟨st { fabUp with flights := [flight (moveRaw 0x30 64 128 0) .running] }, 0, 0, flight (moveRaw 0x30 64 128 0) .running, by decide +kernel⟩

theorem witness_RemoteOperations_3 : ∃ (s : State) (q : Nat) (seq : Nat) (f : Flight), s.blk.hubUp = true ∧ s.blk.running q seq 0x31 = some f ∧ s.blk.moveCheck f = stOK ∧ f.progress = 0 ∧ ((Wk.onFabric s.blk f).getPieces f.raw (split4k (rLen f.raw / 4096 + 2) (rRemote f.raw) (rLen f.raw)) 0).1.stall = false ∧ ((Wk.onFabric s.blk f).getPieces f.raw (split4k (rLen f.raw / 4096 + 2) (rRemote f.raw) (rLen f.raw)) 0).1.need = [] :=
  ⟨st { fabUp with flights := [flight (moveRaw 0x31 64 128 8) .running] }, 0, 0, flight (moveRaw 0x31 64 128 8) .running, by decide +kernel⟩

theorem witness_RemoteOperations_4 : ∃ (s : State) (q : Nat) (seq : Nat) (f : Flight), s.blk.hubUp = true ∧ s.blk.running q seq 0x31 = some f ∧ s.blk.moveCheck f = stOK ∧ f.progress = 0 ∧ s.blk.haLocal (rRemote f.raw) = false ∧ lookFetched f.fetched (rRemote f.raw) (min (rLen f.raw) (4096 - rRemote f.raw % 4096)) = none ∧ f.txns = [] ∧ f.fetched = [] ∧ s.blk.fab.txns = [] ∧ f.status = stOK ∧ (s.blk.flights.filter (fun g => g.is q seq)) = [f] ∧ rLen f.raw ≤ 4096 - rRemote f.raw % 4096 ∧ (s.blk.originate ⟨1, 0, s.blk.struc.modNum, haModule (rRemote f.raw), 0, q, 0, 0, 0, rRemote f.raw, rLen f.raw, []⟩).isSome = true :=
  ⟨st { fabUp with flights := [flight (moveRaw 0x31 64 (2 ^ 40) 8) .running] }, 0, 0, flight (moveRaw 0x31 64 (2 ^ 40) 8) .running, by decide +kernel⟩

theorem witness_RemoteOperations_5 : ∃ (s : State) (q : Nat) (seq : Nat) (f : Flight), s.blk.hubUp = true ∧ s.blk.running q seq 0x31 = some f ∧ s.blk.moveCheck f ≠ stOK ∧ f.progress = 0 :=
  ⟨st { fabUp with flights := [flight (moveRaw 0x31 64 128 0) .running] }, 0, 0, flight (moveRaw 0x31 64 128 0) .running, by decide +kernel⟩

theorem witness_RemoteOperations_6 : ∃ (s : State) (q : Nat) (seq : Nat) (f : Flight), s.blk.hubUp = true ∧ s.blk.running q seq 0x32 = some f ∧ f.status = stOK ∧ noHandles f.raw = true ∧ zeroAt f.raw 0x29 7 = true ∧ zeroAt f.raw 0x40 64 = true ∧ atomicOk (fld f.raw 0x28 1) (fld f.raw 0x20 8) = true ∧ s.blk.haOk (fld f.raw 0x20 8) = true ∧ s.blk.haLocal (fld f.raw 0x20 8) = true ∧ s.blk.rangeOk q (haMpa (fld f.raw 0x20 8)) (atomicLen (fld f.raw 0x28 1)) = true ∧ s.blk.mustWait cRemote (haMpa (fld f.raw 0x20 8)) (atomicLen (fld f.raw 0x28 1)) = false ∧ (s.blk.atomicAt ⟨3, cRemote, some q, f.path⟩ (haMpa (fld f.raw 0x20 8)) (fld f.raw 0x28 1) (fld f.raw 0x30 8) (fld f.raw 0x38 8)).2.1 = stOK :=
  ⟨st { fabUp with flights := [flight (atomRaw 64 0 5 0) .running] }, 0, 0, flight (atomRaw 64 0 5 0) .running, by decide +kernel⟩

theorem witness_RemoteOperations_7 : ∃ (s : State) (q : Nat) (seq : Nat) (f : Flight) (b' : Blk), (s.blk.hubUp = true ∧ s.blk.running q seq 0x32 = some f ∧ f.status = stOK ∧ noHandles f.raw = true ∧ zeroAt f.raw 0x29 7 = true ∧ zeroAt f.raw 0x40 64 = true ∧ atomicOk (fld f.raw 0x28 1) (fld f.raw 0x20 8) = true ∧ s.blk.haOk (fld f.raw 0x20 8) = true ∧ s.blk.haLocal (fld f.raw 0x20 8) = false ∧ lookFetched f.fetched (fld f.raw 0x20 8) 8 = none ∧ f.txns = []) ∧ s.blk.request q seq 3 (haModule (fld f.raw 0x20 8)) (fld f.raw 0x20 8) (fld f.raw 0x30 8) (fld f.raw 0x28 1) (leBytes 16 (fld f.raw 0x38 8)) = .sent b' :=
  ⟨st { fabUp with flights := [flight (atomRaw (2 ^ 40) 0 5 0) .running] }, 0, 0, flight (atomRaw (2 ^ 40) 0 5 0) .running, atomSent, by decide +kernel, rfl⟩

theorem witness_RemoteOperations_8 : ∃ (s : State) (q : Nat) (seq : Nat) (f : Flight) (d : Bytes), s.blk.hubUp = true ∧ s.blk.running q seq 0x32 = some f ∧ f.status = stOK ∧ noHandles f.raw = true ∧ zeroAt f.raw 0x29 7 = true ∧ zeroAt f.raw 0x40 64 = true ∧ atomicOk (fld f.raw 0x28 1) (fld f.raw 0x20 8) = true ∧ s.blk.haOk (fld f.raw 0x20 8) = true ∧ s.blk.haLocal (fld f.raw 0x20 8) = false ∧ lookFetched f.fetched (fld f.raw 0x20 8) 8 = some d :=
  ⟨st { fabUp with flights := [{ flight (atomRaw (2 ^ 40) 0 5 0) .running with fetched := [(2 ^ 40, leBytes 8 7)] }] }, 0, 0, { flight (atomRaw (2 ^ 40) 0 5 0) .running with fetched := [(2 ^ 40, leBytes 8 7)] }, leBytes 8 7, by decide +kernel⟩

theorem witness_RemoteOperations_9 : ∃ (s : State) (q : Nat) (seq : Nat) (f : Flight), s.blk.hubUp = true ∧ s.blk.running q seq 0x32 = some f ∧ f.status = stOK ∧ ((noHandles f.raw = false ∨ atomicOk (fld f.raw 0x28 1) (fld f.raw 0x20 8) = false)) :=
  ⟨st { fabUp with flights := [flight (atomRaw 65 0 5 0) .running] }, 0, 0, flight (atomRaw 65 0 5 0) .running, by decide +kernel⟩

theorem witness_RoceRequests_1 : ∃ (s : State) (f : RFrame), s.blk.frameNow 0 f = true ∧ ((RPos.starts f.pos = true → (s.blk.ecnSeen f).rdmaOk (s.blk.qpc f.qpn) true f = true)) ∧ f.payload.take ((s.blk.qpc f.qpn).begun f).left = [] :=
  ⟨st (netBlk (ctxOf 4)), fr .middle [], by decide +kernel⟩

theorem witness_RoceRequests_2 : ∃ (s : State) (f : RFrame), s.blk.frameNow 0 f = true ∧ ((RPos.starts f.pos = true → (s.blk.ecnSeen f).rdmaOk (s.blk.qpc f.qpn) true f = true)) ∧ f.payload.take ((s.blk.qpc f.qpn).begun f).left ≠ [] ∧ ((s.blk.ecnSeen f).fabWrite (rqNet (s.blk.qpc f.qpn)) ((s.blk.qpc f.qpn).begun f).va (f.payload.take ((s.blk.qpc f.qpn).begun f).left)).2 = stOK :=
  ⟨st (netBlk { ctxOf 4 with va := 64, left := 4 }), fr .last [1, 2, 3, 4], by decide +kernel⟩

theorem witness_RoceRequests_3 : ∃ (s : State) (f : RFrame), s.blk.frameNow 0 f = true ∧ RPos.starts f.pos = true ∧ (s.blk.ecnSeen f).rdmaOk (s.blk.qpc f.qpn) true f = false :=
  ⟨st (netBlk (ctxOf 0)), fr .only [1], by decide +kernel⟩

theorem witness_RoceRequests_4 : ∃ (s : State) (f : RFrame), s.blk.frameNow 1 f = true ∧ (s.blk.ecnSeen f).rdmaOk (s.blk.qpc f.qpn) false f = true ∧ s.blk.mem.sramBad = none ∧ (readRange (s.blk.ecnSeen f) (rqNet (s.blk.qpc f.qpn)) f.va f.len).st = stOK :=
  ⟨st (stored ((netBlk (ctxOf 2)).setReg (bNET + 0x830) 0x10) (zeros 20 ++ [1] ++ zeros 11)), fr .only [], by decide +kernel⟩

theorem witness_RoceRequests_5 : ∃ (s : State) (f : RFrame) (buf : Nat) (o : Nat), s.blk.frameNow 1 f = true ∧ (s.blk.ecnSeen f).rdmaOk (s.blk.qpc f.qpn) false f = true ∧ s.blk.mem.sramBad = some (buf, o) :=
  ⟨st (let b := stored ((netBlk (ctxOf 2)).setReg (bNET + 0x830) 0x10) (zeros 20 ++ [1] ++ zeros 11); { b with mem := { b.mem with sramBad := some (3, 4100) } }), fr .only [], 3, 4100, by decide +kernel⟩

theorem witness_RoceRequests_6 : ∃ (s : State) (f : RFrame), s.blk.frameNow 1 f = true ∧ (s.blk.ecnSeen f).rdmaOk (s.blk.qpc f.qpn) false f = false :=
  ⟨st (netBlk (ctxOf 0)), fr .only [], by decide +kernel⟩

theorem witness_RoceRequests_7 : ∃ (s : State) (f : RFrame), s.blk.frameNow 2 f = true ∧ (s.blk.qpc f.qpn).doorbell = true ∧ RPos.ends f.pos = true :=
  ⟨st (netBlk (ctxOf 1)), fr .only [3, 0, 0, 0], by decide +kernel⟩

theorem witness_RoceRequests_8 : ∃ (s : State) (f : RFrame) (p : NetPost), s.blk.frameNow 2 f = true ∧ (s.blk.qpc f.qpn).doorbell = false ∧ RPos.ends f.pos = true ∧ s.blk.nextRecv (s.blk.qpc f.qpn) = some p ∧ ((s.blk.qpc f.qpn).sent f).length ≤ p.len ∧ ((s.blk.ecnSeen f).otherWrite (rqNet (s.blk.qpc f.qpn)) p.addr ((s.blk.qpc f.qpn).sent f)).2 = stOK :=
  ⟨st { netBlk { ctxOf 0 with recvs := [⟨0, 0, 3, 8, 64, 0, 0⟩] } with flights := [flight (netRaw 3 8) .running] }, fr .only [1, 2, 3, 4], ⟨0, 0, 3, 8, 64, 0, 0⟩, by decide +kernel⟩

theorem witness_RoceRequests_9 : ∃ (s : State) (f : RFrame), s.blk.frameNow 2 f = true ∧ (s.blk.qpc f.qpn).doorbell = false ∧ s.blk.nextRecv (s.blk.qpc f.qpn) = none :=
  ⟨st (netBlk (ctxOf 0)), fr .only [1, 2, 3, 4], by decide +kernel⟩

theorem witness_RoceRequests_10a : ∃ (s : State) (f : RFrame), s.blk.frameNow 0 { f with psn := (s.blk.qpc f.qpn).rqPsn } = true ∧ f.psn ≠ (s.blk.qpc f.qpn).rqPsn :=
  ⟨st (netBlk (ctxOf 4)), { fr .only [1] with psn := 5 }, by decide +kernel⟩

theorem witness_RoceRequests_10b : ∃ (s : State) (f : RFrame), s.blk.frameNow 0 { f with psn := (s.blk.qpc f.qpn).rqPsn } = true ∧ f.psn ≠ (s.blk.qpc f.qpn).rqPsn :=
  ⟨st (netBlk { ctxOf 4 with rqPsn := 7 }), { fr .only [1] with psn := 5 }, by decide +kernel⟩

theorem witness_RoceRequests_11 : ∃ (s : State) (f : RFrame), s.blk.hubUp = true ∧ (s.blk.qpc f.qpn).phase ≠ .ready :=
  ⟨st (netBlk .reset), fr .only [1], by decide +kernel⟩

theorem witness_RoceAnswers_1 : ∃ (s : State) (n : Nat), s.blk.hubUp = true ∧ (s.blk.qpc n).phase = .ready :=
  ⟨st (netBlk { ctxOf 0 with posts := [aPost 0] }), 5, by decide +kernel⟩

theorem witness_RoceAnswers_2 : ∃ (s : State) (n : Nat) (psn : Nat), s.blk.hubUp = true ∧ (s.blk.qpc n).phase = .ready ∧ (s.blk.qpc n).posts.any (fun p => p.op == 1 || !psnLe p.endPsn ((psn + 2 ^ 24 - 1) % 2 ^ 24)) = true :=
  ⟨st (netBlk { ctxOf 0 with posts := [aPost 0] }), 5, 3, by decide +kernel⟩

theorem witness_RoceAnswers_3 : ∃ (s : State) (n : Nat) (p : NetPost), s.blk.hubUp = true ∧ (s.blk.qpc n).phase = .ready ∧ (s.blk.qpc n).posts.find? (fun p => p.op == 2) = some p ∧ (s.blk.qpc n).rnrRetries < (s.blk.qpc n).rnrRetry :=
  ⟨st (netBlk { ctxOf 0 with ctx := (ctxOf 0).ctx.set 0x27 0x70, posts := [aPost 2] }), 5, aPost 2, by decide +kernel⟩

theorem witness_RoceAnswers_4 : ∃ (s : State) (n : Nat) (p : NetPost), s.blk.hubUp = true ∧ (s.blk.qpc n).phase = .ready ∧ (s.blk.qpc n).posts.find? (fun p => p.op == 2) = some p ∧ (s.blk.qpc n).rnrRetry ≤ (s.blk.qpc n).rnrRetries :=
  ⟨st (netBlk { ctxOf 0 with posts := [aPost 2] }), 5, aPost 2, by decide +kernel⟩

theorem witness_RoceAnswers_5 : ∃ (s : State) (n : Nat) (p : NetPost) (ps : List NetPost), s.blk.hubUp = true ∧ (s.blk.qpc n).phase = .ready ∧ (s.blk.qpc n).posts = p :: ps ∧ (s.blk.qpc n).retries < (s.blk.qpc n).retryCnt :=
  ⟨st (netBlk { ctxOf 0 with ctx := (ctxOf 0).ctx.set 0x26 7, posts := [aPost 0] }), 5, aPost 0, [], by decide +kernel⟩

theorem witness_RoceAnswers_6 : ∃ (s : State) (n : Nat) (p : NetPost) (ps : List NetPost), s.blk.hubUp = true ∧ (s.blk.qpc n).phase = .ready ∧ (s.blk.qpc n).posts = p :: ps ∧ (s.blk.qpc n).retryCnt ≤ (s.blk.qpc n).retries :=
  ⟨st (netBlk { ctxOf 0 with posts := [aPost 0] }), 5, aPost 0, [], by decide +kernel⟩

theorem witness_RoceAnswers_7 : ∃ (s : State) (n : Nat), s.blk.hubUp = true ∧ (s.blk.qpc n).phase = .ready :=
  ⟨st (netBlk { ctxOf 0 with rate := 400000 }), 5, by decide +kernel⟩

theorem witness_RoceAnswers_8 : ∃ (s : State) (n : Nat), s.blk.hubUp = true ∧ (s.blk.qpc n).phase = .ready :=
  ⟨st (netBlk { ctxOf 0 with rate := 200000 }), 5, by decide +kernel⟩

theorem witness_RoceAnswers_9a : ∃ (s : State) (port : Nat) (prio : Nat), s.blk.hubUp = true ∧ port < 2 ∧ prio = bits (s.blk.eff oNET_CFG) 10 8 :=
  ⟨st (netBlk (ctxOf 0)), 1, 0, by decide +kernel⟩

theorem witness_RoceAnswers_9b : ∃ (s : State) (port : Nat) (prio : Nat), s.blk.hubUp = true ∧ port < 2 ∧ prio = bits (s.blk.eff oNET_CFG) 10 8 :=
  ⟨st (netBlk (ctxOf 0)), 0, 0, by decide +kernel⟩

theorem witness_RoceAnswers_10 : ∃ (s : State) (prio : Nat), s.blk.hubUp = true ∧ prio ≠ bits (s.blk.eff oNET_CFG) 10 8 :=
  ⟨st (netBlk (ctxOf 0)), 3, by decide +kernel⟩

theorem witness_RoceAnswers_11 : ∃ (s : State) (port : Nat), s.blk.hubUp = true ∧ s.blk.portUp port = true :=
  ⟨st (netBlk (ctxOf 0)), 1, by decide +kernel⟩

theorem witness_RoceAnswers_12a : ∃ (s : State) (port : Nat) (up : Bool), s.blk.hubUp = true ∧ port < 2 ∧ s.blk.net.linkUp.testBit port = !up ∧ ((up = true → (s.blk.reg (bNET + 4)).testBit port = true ∧ s.blk.mode ≠ .recovery ∧ (s.blk.pwr.state = .run ∨ s.blk.pwr.state = .doze))) :=
  ⟨st (netBlk (ctxOf 0)), 1, false, by decide +kernel⟩

theorem witness_RoceAnswers_12b : ∃ (s : State) (port : Nat) (up : Bool), s.blk.hubUp = true ∧ port < 2 ∧ s.blk.net.linkUp.testBit port = !up ∧ ((up = true → (s.blk.reg (bNET + 4)).testBit port = true ∧ s.blk.mode ≠ .recovery ∧ (s.blk.pwr.state = .run ∨ s.blk.pwr.state = .doze))) :=
  ⟨st { netBlk (ctxOf 0) with net := { (netBlk (ctxOf 0)).net with linkUp := 0 } }, 1, true, by decide +kernel⟩

theorem witness_RoceAnswers_13 : ∃ (s : State) (n : Nat) (p : NetPost), s.blk.hubUp = true ∧ (s.blk.qpc n).phase = .ready ∧ (s.blk.qpc n).posts.find? (fun p => p.op == 1) = some p ∧ ((p.len = 0 ∨ s.blk.mustWait cRemote p.addr p.len = false)) ∧ (s.blk.running p.q p.seq 0x38).isSome = true ∧ (s.blk.qpc n).posts = [p] :=
  ⟨st { netBlk { ctxOf 0 with posts := [aPost 1] } with flights := [flight (netRaw 1 4) .running] }, 5, aPost 1, by decide +kernel⟩

theorem witness_NetPosts_1 : ∃ (s : State) (q : Nat) (seq : Nat) (f : Flight), s.blk.postNow q seq 3 f = true :=
  ⟨st { netBlk (ctxOf 0) with flights := [flight (netRaw 3 8) .running] }, 0, 0, flight (netRaw 3 8) .running, by decide +kernel⟩

theorem witness_NetPosts_2 : ∃ (s : State) (q : Nat) (seq : Nat) (f : Flight), s.blk.postNow q seq 1 f = true ∧ s.blk.portUp (s.blk.qpc (nQpn f.raw)).port = true ∧ s.blk.net.paused.testBit (s.blk.qpc (nQpn f.raw)).port = false :=
  ⟨st { netBlk (ctxOf 0) with flights := [flight (netRaw 1 8) .running] }, 0, 0, flight (netRaw 1 8) .running, by decide +kernel⟩

theorem witness_NetPosts_3 : ∃ (s : State) (q : Nat) (seq : Nat) (f : Flight), s.blk.postNow q seq 0 f = true ∧ s.blk.portUp (s.blk.qpc (nQpn f.raw)).port = true ∧ s.blk.net.paused.testBit (s.blk.qpc (nQpn f.raw)).port = false ∧ ((nLen f.raw = 0 ∨ s.blk.mustWait cRemote (nLocal f.raw) (nLen f.raw) = false)) ∧ (readRange s.blk (rqNet (s.blk.qpc (nQpn f.raw))) (nLocal f.raw) (nLen f.raw)).st = stOK ∧ (readRange s.blk (rqNet (s.blk.qpc (nQpn f.raw))) (nLocal f.raw) (nLen f.raw)).corr = false :=
  ⟨st { netBlk (ctxOf 0) with flights := [flight (netRaw 0 8) .running] }, 0, 0, flight (netRaw 0 8) .running, by decide +kernel⟩

theorem witness_NetPosts_4 : ∃ (s : State) (q : Nat) (seq : Nat) (f : Flight), s.blk.postNow q seq 2 f = true ∧ s.blk.portUp (s.blk.qpc (nQpn f.raw)).port = true ∧ s.blk.net.paused.testBit (s.blk.qpc (nQpn f.raw)).port = false ∧ ((nLen f.raw = 0 ∨ s.blk.mustWait cRemote (nLocal f.raw) (nLen f.raw) = false)) ∧ (readRange s.blk (rqNet (s.blk.qpc (nQpn f.raw))) (nLocal f.raw) (nLen f.raw)).st = stOK ∧ (readRange s.blk (rqNet (s.blk.qpc (nQpn f.raw))) (nLocal f.raw) (nLen f.raw)).corr = false :=
  ⟨st { netBlk (ctxOf 0) with flights := [flight (netRaw 2 8) .running] }, 0, 0, flight (netRaw 2 8) .running, by decide +kernel⟩

theorem witness_NetPosts_5 : ∃ (s : State) (q : Nat) (seq : Nat) (f : Flight), s.blk.postNow q seq 2 f = true ∧ ((s.blk.portUp (s.blk.qpc (nQpn f.raw)).port = false ∨ s.blk.net.paused.testBit (s.blk.qpc (nQpn f.raw)).port = true)) :=
  ⟨st { (netBlk (ctxOf 0)).setReg (bNET + 4) 0 with flights := [flight (netRaw 2 8) .running] }, 0, 0, flight (netRaw 2 8) .running, by decide +kernel⟩

theorem witness_NetPosts_6 : ∃ (s : State) (q : Nat) (seq : Nat) (f : Flight), s.blk.hubUp = true ∧ s.blk.running q seq 0x38 = some f ∧ f.progress = 0 ∧ ((nOp f.raw = 2 ∨ 4 ≤ nOp f.raw)) ∧ s.blk.postWaits f = false ∧ netForm f.raw = false :=
  ⟨st { netBlk (ctxOf 0) with flights := [flight (netRaw 9 8) .running] }, 0, 0, flight (netRaw 9 8) .running, by decide +kernel⟩

theorem witness_NetPosts_7 : ∃ (s : State) (q : Nat) (seq : Nat) (f : Flight), s.blk.hubUp = true ∧ s.blk.running q seq 0x38 = some f ∧ f.progress = 0 ∧ nOp f.raw = 2 ∧ s.blk.postWaits f = false ∧ netForm f.raw = true ∧ (s.blk.qpc (nQpn f.raw)).phase = .error :=
  ⟨st { netBlk { ctxOf 0 with phase := .error } with flights := [flight (netRaw 2 8) .running] }, 0, 0, flight (netRaw 2 8) .running, by decide +kernel⟩

theorem witness_NetPosts_8 : ∃ (s : State) (p : Path) (n : Nat), s.blk.pathOn p = true ∧ reaches p.code (bNET + 0x70) = true ∧ n < 4096 ∧ n < s.blk.qpcCount ∧ s.blk.mustWait cHub (s.blk.eff64 (bNET + 0x20) / 4096 * 4096 + 128 * n) 128 = false ∧ (readRange (s.blk.atPort p) ⟨7, cHub, none, p.code⟩ (s.blk.eff64 (bNET + 0x20) / 4096 * 4096 + 128 * n) 128).st = stOK ∧ ctxOk (readRange (s.blk.atPort p) ⟨7, cHub, none, p.code⟩ (s.blk.eff64 (bNET + 0x20) / 4096 * 4096 + 128 * n) 128).data = true :=
  ⟨st (stored ((netBlk (ctxOf 0)).setReg (bNET + 0x830) 12) (ctxOf 0).ctx), .host, 0, by decide +kernel⟩

theorem witness_NetPosts_9 : ∃ (s : State) (p : Path) (n : Nat), s.blk.pathOn p = true ∧ reaches p.code (bNET + 0x70) = true ∧ n < 4096 ∧ s.blk.qpcCount ≤ n :=
  ⟨st (netBlk (ctxOf 0)), .host, 5, by decide +kernel⟩

theorem witness_NetPosts_10 : ∃ (s : State) (p : Path) (v : Nat), s.blk.pathOn p = true ∧ reaches p.code (bNET + 0x70) = true ∧ bits v 13 12 = 1 ∧ v < 2 ^ 14 ∧ v % 4096 < s.blk.qpcCount :=
  ⟨st ((netBlk (ctxOf 0)).setReg (bNET + 0x830) 12), .host, 0x1005, by decide +kernel⟩

theorem witness_NetPosts_11 : ∃ (s : State) (p : Path) (v : Nat), s.blk.pathOn p = true ∧ reaches p.code (bNET + 0x70) = true ∧ bits v 13 12 = 2 ∧ v < 2 ^ 14 ∧ v % 4096 < s.blk.qpcCount :=
  ⟨st ((netBlk (ctxOf 0)).setReg (bNET + 0x830) 12), .host, 0x2005, by decide +kernel⟩

theorem witness_IdleAndHints_1 : ∃ (s : State) (t : Nat), s.blk.pwr.keepEnd = some t ∧ t ≤ s.blk.time.toNat :=
  ⟨st (inState .run |>.setPwr { (inState .run).pwr with keepEnd := some 0 }), 0, by decide +kernel⟩

theorem witness_IdleAndHints_2 : ∃ (s : State), s.blk.pwr.state = .run ∧ s.blk.busy = false :=
  ⟨st (inState .run), by decide +kernel⟩

theorem witness_IdleAndHints_3 : ∃ (s : State), s.blk.pwr.state = .doze ∧ s.blk.busy = false ∧ s.blk.dozeWatchHeld ≠ 0 :=
  ⟨st ((inState .doze).setReg (bPOWER + 0x814) 5), by decide +kernel⟩

theorem witness_IdleAndHints_4 : ∃ (s : State) (d : Nat), s.blk.pwr.state = .doze ∧ d < 192 ∧ (s.blk.die d).sr = .awake :=
  ⟨st (inState .doze), 191, by decide +kernel⟩

theorem witness_IdleAndHints_5a : ∃ (s : State) (q : Nat) (seq : Nat) (f : Flight), s.blk.running q seq 0x60 = some f ∧ hintOk f.raw = true ∧ zeroAt f.raw 0x10 16 = true ∧ fld f.raw 0x20 1 = 0 :=
  ⟨st (withRun .reset (entry 0x60 (zeros 20 ++ [9]))), 0, 0, flight (entry 0x60 (zeros 20 ++ [9])) .running, by decide +kernel⟩

theorem witness_IdleAndHints_5b : ∃ (s : State) (q : Nat) (seq : Nat) (f : Flight), s.blk.running q seq 0x60 = some f ∧ hintOk f.raw = true ∧ zeroAt f.raw 0x10 16 = true ∧ fld f.raw 0x20 1 ≠ 0 ∧ s.blk.busyBut q seq = false :=
  ⟨st (withRun .reset (entry 0x60 (zeros 16 ++ [2]))), 0, 0, flight (entry 0x60 (zeros 16 ++ [2])) .running, by decide +kernel⟩

theorem witness_IdleAndHints_6 : ∃ (s : State) (q : Nat) (seq : Nat) (f : Flight), s.blk.running q seq 0x60 = some f ∧ hintOk f.raw = true ∧ zeroAt f.raw 0x10 16 = true ∧ fld f.raw 0x20 1 ≠ 0 :=
  ⟨st (withRun .reset (entry 0x60 (zeros 16 ++ [2]))), 0, 0, flight (entry 0x60 (zeros 16 ++ [2])) .running, by decide +kernel⟩

theorem witness_EntryAndWake_1 : ∃ (s : State) (f : Flight), s.blk.pwr.state = .entering ∧ s.blk.pwr.step = 1 ∧ s.blk.pwr.viaSide = true ∧ s.blk.lay.phase = .idle ∧ s.blk.flights = [f] ∧ f.stage = .accepted :=
  ⟨st { (inStep .entering .off 1).setPwr { (inStep .entering .off 1).pwr with viaSide := true } with flights := [flight (entry 0x60 []) .accepted] }, flight (entry 0x60 []) .accepted, by decide +kernel⟩

theorem witness_EntryAndWake_2 : ∃ (s : State), s.blk.pwr.state = .entering ∧ 1 ≤ s.blk.pwr.step ∧ s.blk.pwr.step < 6 ∧ s.blk.entryReady s.blk.pwr.step = true ∧ s.blk.held = [] :=
  ⟨st (inStep .entering .watch 5), by decide +kernel⟩

theorem witness_EntryAndWake_3 : ∃ (s : State), s.blk.pwr.state = .entering ∧ s.blk.pwr.step = 6 ∧ s.blk.pwr.target = .watch ∧ s.blk.pwr.latched = 0 ∧ s.blk.held = [] :=
  ⟨st (inStep .entering .watch 6), by decide +kernel⟩

theorem witness_EntryAndWake_4 : ∃ (s : State), ((s.blk.pwr.state = .watch ∨ s.blk.pwr.state = .hold)) :=
  ⟨st (inState .hold), by decide +kernel⟩

theorem witness_EntryAndWake_5 : ∃ (s : State) (l : Nat), s.blk.pwr.state = .watch ∧ s.blk.pwr.listening = true ∧ s.blk.linkOn l = true ∧ l < 32 ∧ (s.blk.eff (bPOWER + 0x18)).testBit 1 = true :=
  ⟨st (linked (((inState .watch).setPwr { (inState .watch).pwr with listening := true }).setReg (bPOWER + 0x818) 2)), 31, by decide +kernel⟩

theorem witness_EntryAndWake_6 : ∃ (s : State), s.blk.pwr.state = .watch ∧ (s.blk.eff (bPOWER + 0x18)).testBit 2 = true :=
  ⟨st ((inState .watch).setReg (bPOWER + 0x818) 4), by decide +kernel⟩

theorem witness_EntryAndWake_7 : ∃ (s : State), s.blk.pwr.state = .watch ∧ s.blk.reg (bPOWER + 0x48) ≠ 0 ∧ (s.blk.eff (bPOWER + 0x18)).testBit 3 = true :=
  ⟨st ((inState .watch).setReg (bPOWER + 0x818) 8 |>.setReg (bPOWER + 0x48) 1), by decide +kernel⟩

theorem witness_EntryAndWake_8 : ∃ (s : State), s.blk.pwr.state = .waking ∧ s.blk.pwr.retryWait = false ∧ s.blk.pwr.step = 1 :=
  ⟨st (inStep .waking .run 1), by decide +kernel⟩

theorem witness_EntryAndWake_9a : ∃ (s : State), s.blk.pwr.state = .waking ∧ s.blk.pwr.retryWait = false ∧ s.blk.pwr.attempt ≠ 2 :=
  ⟨st (inStep .waking .run 1), by decide +kernel⟩

theorem witness_EntryAndWake_9b : ∃ (s : State), s.blk.pwr.state = .waking ∧ s.blk.pwr.retryWait = false ∧ s.blk.pwr.attempt = 2 :=
  ⟨st ((inStep .waking .run 1).setPwr { (inStep .waking .run 1).pwr with attempt := 2 }), by decide +kernel⟩

theorem witness_EntryAndWake_10 : ∃ (s : State), s.blk.pwr.state = .waking ∧ s.blk.pwr.retryWait = true :=
  ⟨st ((inStep .waking .run 3).setPwr { (inStep .waking .run 3).pwr with retryWait := true }), by decide +kernel⟩

theorem witness_PowerCommands_1a : ∃ (s : State), s.blk.pathOn .sideband = true ∧ ((s.blk.pwr.state = .run ∨ s.blk.pwr.state = .doze ∨ s.blk.pwr.state = .watch)) :=
  ⟨st (inState .watch), by decide +kernel⟩

theorem witness_PowerCommands_1b : ∃ (s : State), s.blk.pathOn .sideband = true ∧ ((s.blk.pwr.state = .run ∨ s.blk.pwr.state = .doze ∨ s.blk.pwr.state = .watch)) :=
  ⟨st .reset, by decide +kernel⟩

theorem witness_PowerCommands_2a : ∃ (s : State), s.blk.pathOn .sideband = true ∧ s.blk.pwr.state ≠ .stuck ∧ s.blk.pwr.state ≠ .off ∧ ((s.blk.pwr.state = .entering → s.blk.pwr.target ≠ .off)) :=
  ⟨st (inStep .entering .hold 2), by decide +kernel⟩

theorem witness_PowerCommands_2b : ∃ (s : State), s.blk.pathOn .sideband = true ∧ s.blk.pwr.state ≠ .stuck ∧ s.blk.pwr.state ≠ .off ∧ ((s.blk.pwr.state = .entering → s.blk.pwr.target ≠ .off)) :=
  ⟨st (inState .hold), by decide +kernel⟩

theorem witness_PowerCommands_3a : ∃ (s : State), s.blk.pathOn .sideband = true ∧ ((s.blk.pwr.state = .off ∨ (s.blk.pwr.state = .entering ∧ s.blk.pwr.target = .off))) :=
  ⟨st (inState .off), by decide +kernel⟩

theorem witness_PowerCommands_3b : ∃ (s : State), s.blk.pathOn .sideband = true ∧ ((s.blk.pwr.state = .off ∨ (s.blk.pwr.state = .entering ∧ s.blk.pwr.target = .off))) :=
  ⟨st (inStep .entering .off 2), by decide +kernel⟩

theorem witness_PowerCommands_4 : ∃ (s : State), s.blk.pathOn .sideband = true ∧ s.blk.pwr.state = .watch :=
  ⟨st (inState .watch), by decide +kernel⟩

theorem witness_PowerCommands_5 : ∃ (s : State), s.blk.pathOn .sideband = true ∧ s.blk.pwr.state = .hold :=
  ⟨st (inState .hold), by decide +kernel⟩

theorem witness_PowerCommands_6 : ∃ (s : State), s.blk.pathOn .sideband = true ∧ s.blk.pwr.state = .off ∧ s.blk.pins.pwrEn = true ∧ s.blk.heldDown = false :=
  ⟨st { inState .off with pins := { (inState .off).pins with pwrEn := true } }, by decide +kernel⟩

theorem witness_PowerCommands_7 : ∃ (s : State), s.blk.pathOn .sideband = true ∧ s.blk.pwr.state = .off ∧ s.blk.heldDown = true :=
  ⟨st ((inState .off).setReg oSDG_STATUS 2), by decide +kernel⟩

theorem witness_PowerCommands_8 : ∃ (s : State), s.blk.pathOn .sideband = true ∧ s.blk.pwr.state ≠ .stuck :=
  ⟨st (inState .off), by decide +kernel⟩

theorem witness_PowerCommands_9 : ∃ (s : State), s.blk.pathOn .sideband = true ∧ s.blk.pwr.state = .stuck :=
  ⟨st (inState .stuck), by decide +kernel⟩

theorem witness_PowerCommands_10a : ∃ (s : State), s.blk.pathOn .sideband = true ∧ s.blk.logUp = true ∧ s.blk.pwr.state ≠ .run ∧ s.blk.pwr.state ≠ .doze ∧ s.blk.pwr.state ≠ .watch :=
  ⟨st (inState .doze |>.setPwr { (inState .doze).pwr with state := .entering }), by decide +kernel⟩

theorem witness_PowerCommands_10b : ∃ (s : State), s.blk.pathOn .sideband = true ∧ s.blk.logUp = true ∧ s.blk.pwr.state ≠ .run ∧ s.blk.pwr.state ≠ .doze ∧ s.blk.pwr.state ≠ .watch :=
  ⟨st (inState .stuck), by decide +kernel⟩

theorem witness_PowerCommands_11 : ∃ (s : State), s.blk.pathOn .sideband = true ∧ s.blk.logUp = true ∧ s.blk.pwr.state = .stuck :=
  ⟨st (inState .stuck), by decide +kernel⟩

theorem witness_PowerCommands_12 : ∃ (s : State), s.blk.pathOn .sideband = true ∧ s.blk.logUp = true ∧ s.blk.pwr.state ≠ .watch ∧ s.blk.pwr.state ≠ .hold ∧ s.blk.pwr.state ≠ .off :=
  ⟨st .reset, by decide +kernel⟩

theorem witness_PowerCommands_13 : ∃ (s : State), s.blk.pathOn .sideband = true ∧ s.blk.logUp = true ∧ s.blk.pwr.state = .stuck :=
  ⟨st (inState .stuck), by decide +kernel⟩

theorem witness_PowerCommands_14 : ∃ (s : State), s.blk.pathOn .sideband = true ∧ s.blk.logUp = true ∧ s.blk.pwr.state ≠ .stuck :=
  ⟨st .reset, by decide +kernel⟩

theorem witness_PowerCommands_15a : ∃ (s : State) (p : Path), p ≠ .sideband ∧ s.blk.pathOn p = true ∧ s.blk.logUp = true :=
  ⟨st .reset, .host, by decide +kernel⟩

theorem witness_PowerCommands_15b : ∃ (s : State) (p : Path), p ≠ .sideband ∧ s.blk.pathOn p = true ∧ s.blk.logUp = true :=
  ⟨st .reset, .fabric, by decide +kernel⟩

theorem witness_PadsAndRegulators_1 : ∃ (s : State) (p : Path) (v : Nat), s.blk.pathOn p = true ∧ reaches p.code bPOWER = true ∧ bits v 15 8 ≠ 0 ∧ ((s.blk.mode = .test ∨ s.blk.mode = .recovery)) ∧ ((∀ i, i < 8 → (bits v 15 8).testBit i = true → s.blk.pwr.rails.testBit ([0, 4, 5, 6, 7, 8, 9, 10].getD i 0) = true)) :=
  ⟨st { Blk.reset with mode := .test }, .sideband, 0x8100, by decide +kernel⟩

theorem witness_PadsAndRegulators_2 : ∃ (s : State) (p : Path) (v : Nat), s.blk.pathOn p = true ∧ reaches p.code bPOWER = true ∧ bits v 15 8 ≠ 0 ∧ s.blk.mode ≠ .test ∧ s.blk.mode ≠ .recovery ∧ s.blk.logUp = true :=
  ⟨st .reset, .sideband, 0x8100, by decide +kernel⟩

theorem witness_PadsAndRegulators_3 : ∃ (s : State) (p : Path), s.blk.pathOn p = true ∧ reaches p.code bPOWER = true ∧ s.blk.pwr.rails.testBit 6 = true :=
  ⟨st (inLink .reset 31 .down), .sideband, by decide +kernel⟩

theorem witness_PadsAndRegulators_4a : ∃ (s : State) (l : Nat), s.blk.hubUp = true ∧ s.blk.pwr.pattern.testBit l = true :=
  ⟨st ((Blk.reset.setPwr { Blk.reset.pwr with pattern := 1 }).setLink 0 { Blk.reset.link 0 with st := .up }), 0, by decide +kernel⟩

theorem witness_PadsAndRegulators_4b : ∃ (s : State) (l : Nat), s.blk.hubUp = true ∧ s.blk.pwr.pattern.testBit l = true :=
  ⟨st (inLink (linked (Blk.reset.setPwr { Blk.reset.pwr with pattern := 8 })) 3 .down), 3, by decide +kernel⟩

theorem witness_PadsAndRegulators_5 : ∃ (s : State) (off : Nat), s.blk.att.ready = true ∧ s.blk.pwr.state = .watch ∧ watchReads off = false ∧ (s.blk.eff (bPOWER + 0x18)).testBit 0 = true :=
  ⟨st ((inState .watch).setReg (bPOWER + 0x818) 1), 0x10000, by decide +kernel⟩

theorem witness_PadsAndRegulators_6a : ∃ (s : State) (off : Nat) (wide : Bool), ((s.blk.hostOn = true ∨ (s.blk.att.ready = true ∧ s.blk.pwr.state = .watch ∧ watchReads off = true))) ∧ off < 0x1000000 ∧ accessOk off (if wide then 8 else 4) = true :=
  ⟨st .reset, 0, false, by decide +kernel⟩

theorem witness_PadsAndRegulators_6b : ∃ (s : State) (off : Nat) (wide : Bool), ((s.blk.hostOn = true ∨ (s.blk.att.ready = true ∧ s.blk.pwr.state = .watch ∧ watchReads off = true))) ∧ off < 0x1000000 ∧ accessOk off (if wide then 8 else 4) = true :=
  ⟨st (inState .watch), 0x110000, false, by decide +kernel⟩

theorem witness_PadsAndRegulators_6c : ∃ (s : State) (off : Nat) (wide : Bool), ((s.blk.hostOn = true ∨ (s.blk.att.ready = true ∧ s.blk.pwr.state = .watch ∧ watchReads off = true))) ∧ off < 0x1000000 ∧ accessOk off (if wide then 8 else 4) = true :=
  ⟨st .reset, 0x30, true, by decide +kernel⟩

theorem witness_PadsAndRegulators_7a : ∃ (s : State) (off : Nat) (wide : Bool), s.blk.hostOn = true ∧ 0x1000000 ≤ off ∧ off % (if wide then 8 else 4) = 0 :=
  ⟨st .reset, 0x100000C, false, by decide +kernel⟩

theorem witness_PadsAndRegulators_7b : ∃ (s : State) (off : Nat) (wide : Bool), s.blk.hostOn = true ∧ 0x1000000 ≤ off ∧ off % (if wide then 8 else 4) = 0 :=
  ⟨st .reset, 0x1001000, true, by decide +kernel⟩

theorem witness_PadsAndRegulators_8a : ∃ (ok : Bool), ok = true :=
  ⟨true, by decide +kernel⟩

theorem witness_PadsAndRegulators_8b : ∃ (s : State) (ok : Bool), ok = false ∧ s.blk.pwr.pmbus < 2 :=
  ⟨st .reset, false, by decide +kernel⟩

theorem witness_PadsAndRegulators_8c : ∃ (s : State) (ok : Bool), ok = false ∧ 2 ≤ s.blk.pwr.pmbus :=
  ⟨st (Blk.reset.setPwr { Blk.reset.pwr with pmbus := 2 }), false, by decide +kernel⟩

theorem witness_PadsAndRegulators_9 : ∃ (s : State) (r : AvsReq), s.blk.pwr.avs = some r :=
  ⟨st (Blk.reset.setPwr { Blk.reset.pwr with avs := some ⟨750, 0⟩ }), ⟨750, 0⟩, by decide +kernel⟩

theorem witness_PadsAndRegulators_10a : ∃ (s : State) (r : AvsReq), s.blk.pwr.avs = some r ∧ r.attempt < 2 :=
  ⟨st (Blk.reset.setPwr { Blk.reset.pwr with avs := some ⟨750, 1⟩ }), ⟨750, 1⟩, by decide +kernel⟩

theorem witness_PadsAndRegulators_10b : ∃ (s : State) (r : AvsReq), s.blk.pwr.avs = some r ∧ 2 ≤ r.attempt :=
  ⟨st (Blk.reset.setPwr { Blk.reset.pwr with avs := some ⟨750, 2⟩ }), ⟨750, 2⟩, by decide +kernel⟩

theorem witness_SupplyAndStartUp_1 : ∃ (s : State), s.blk.pwr.state = .off ∧ s.blk.heldDown = false :=
  ⟨st (inState .off), by decide +kernel⟩

theorem witness_SupplyAndStartUp_2 : ∃ (s : State), s.blk.pwr.state ≠ .off ∧ s.blk.pwr.state ≠ .unpowered ∧ s.blk.sec.romOnly = false :=
  ⟨st (inState .watch), by decide +kernel⟩

theorem witness_SupplyAndStartUp_3 : ∃ (s : State), s.blk.pwr.state = .unpowered :=
  ⟨st (inState .unpowered), by decide +kernel⟩

theorem witness_SupplyAndStartUp_6 : ∃ (s : State), s.blk.pwr.state ≠ .unpowered :=
  ⟨st .reset, by decide +kernel⟩

theorem witness_SupplyAndStartUp_7 : ∃ (s : State), s.blk.pwr.hotSwap = false ∧ s.blk.pwr.state ≠ .unpowered :=
  ⟨st ((inState .run).setPwr { (inState .run).pwr with hotSwap := false }), by decide +kernel⟩

theorem witness_SupplyAndStartUp_8 : ∃ (s : State) (rail : Nat), ((s.blk.pwr.state = .run ∨ s.blk.pwr.state = .doze)) ∧ s.blk.flights = [] ∧ s.blk.pwr.rails.testBit rail = true :=
  ⟨st .reset, 2, by decide +kernel⟩

theorem witness_SupplyAndStartUp_9a : ∃ (s : State), s.blk.pwr.state = .waking ∧ s.blk.pwr.wake = .startup ∧ s.blk.pwr.retryWait = false ∧ s.blk.pwr.step = 14 :=
  ⟨st (inStep .waking .run 14 |>.setPwr { (inStep .waking .run 14).pwr with wake := .startup }), by decide +kernel⟩

theorem witness_SupplyAndStartUp_9b : ∃ (s : State), s.blk.pwr.state = .waking ∧ s.blk.pwr.wake = .startup ∧ s.blk.pwr.retryWait = false ∧ s.blk.pwr.step = 15 :=
  ⟨st (inStep .waking .run 15 |>.setPwr { (inStep .waking .run 15).pwr with wake := .startup }), by decide +kernel⟩

theorem witness_SupplyAndStartUp_10a : ∃ (s : State), s.blk.pwr.state = .waking ∧ s.blk.pwr.wake = .startup ∧ s.blk.pwr.step = 14 ∧ s.blk.pwr.attempt < 2 :=
  ⟨st (inStep .waking .run 14 |>.setPwr { (inStep .waking .run 14).pwr with wake := .startup }), by decide +kernel⟩

theorem witness_SupplyAndStartUp_10b : ∃ (s : State), s.blk.pwr.state = .waking ∧ s.blk.pwr.wake = .startup ∧ s.blk.pwr.step = 14 ∧ 2 ≤ s.blk.pwr.attempt :=
  ⟨st (inStep .waking .run 14 |>.setPwr { (inStep .waking .run 14).pwr with wake := .startup, attempt := 2 }), by decide +kernel⟩

theorem witness_SensorsAndThrottle_1a : ∃ (s : State), s.blk.pwr.state ≠ .unpowered :=
  ⟨st (inState .watch |>.setPwr { (inState .watch).pwr with rails := railsOff }), by decide +kernel⟩

theorem witness_SensorsAndThrottle_1b : ∃ (s : State), s.blk.pwr.state ≠ .unpowered :=
  ⟨st .reset, by decide +kernel⟩

theorem witness_SensorsAndThrottle_2 : ∃ (s : State), tripActs s.blk.pwr.state = true :=
  ⟨st { (inState .watch |>.setPwr { (inState .watch).pwr with rails := railsOff }) with sdg := { Blk.reset.sdg with sensors := [(480, { SensorSt.reset with prev := some 960, usable := some 960, hot := 1 })] } }, by decide +kernel⟩

theorem witness_SensorsAndThrottle_3a : ∃ (s : State) (n : Nat), s.blk.pwr.state ≠ .unpowered ∧ s.blk.sdg.regs = [] ∧ n < 512 ∧ s.blk.sensorOn n = true ∧ partOf n ≠ 4 :=
  ⟨st (inState .watch |>.setPwr { (inState .watch).pwr with rails := railsOff }), 480, by decide +kernel⟩

theorem witness_SensorsAndThrottle_3b : ∃ (s : State) (n : Nat), s.blk.pwr.state ≠ .unpowered ∧ s.blk.sdg.regs = [] ∧ n < 512 ∧ s.blk.sensorOn n = true ∧ partOf n ≠ 4 :=
  ⟨st (inState .watch |>.setPwr { (inState .watch).pwr with rails := railsOff }), 480, by decide +kernel⟩

theorem witness_SensorsAndThrottle_5 : ∃ (s : State) (ma : Nat) (mv : Nat), 1050000 * (s.blk.reg (bSDG + 0x40) % 65536) < ma * mv :=
  ⟨st .reset, 40000, 48000, by decide +kernel⟩

theorem witness_SensorsAndThrottle_6 : ∃ (s : State) (ma : Nat) (mv : Nat), ma * mv ≤ 1050000 * (s.blk.reg (bSDG + 0x40) % 65536) :=
  ⟨st .reset, 10000, 48000, by decide +kernel⟩

theorem witness_SensorsAndThrottle_7 : ∃ (s : State), s.blk.heldDown = true ∧ s.blk.pwr.state = .off ∧ (((s.blk.reg (bSDG + 0x68)).testBit 31 = false ∨ s.blk.pins.pwrEn = false)) :=
  ⟨st ((inState .off).setReg oSDG_STATUS 2 |>.setReg (bSDG + 0x68) 0), by decide +kernel⟩

theorem witness_SensorsAndThrottle_8 : ∃ (s : State) (secs : Nat), s.blk.heldDown = true ∧ s.blk.pwr.state = .off ∧ (s.blk.reg (bSDG + 0x68)).testBit 31 = true ∧ s.blk.pins.pwrEn = true ∧ (s.blk.sdg.restarts.filter (fun t => decide (secs < t + 3600))).length < bits (s.blk.reg (bSDG + 0x68)) 27 24 :=
  ⟨st ((inState .off).setReg oSDG_STATUS 2 |>.setReg (bSDG + 0x68) 0x83000000), 5, by decide +kernel⟩

theorem witness_CapsulesLeasesCluster_1 : ∃ (s : State) (p : Path) (v : Nat) (late : Bool), s.blk.pathOn p = true ∧ reaches p.code bSDG = true ∧ v.testBit 0 = true ∧ s.blk.sdg.capNext = none ∧ s.blk.cmdFree (.capsuleLoad p v late) = true ∧ ((late = true ∨ s.blk.reg (bSDG + 0x20) % 4096 = 0 ∨ s.blk.reg64 (bSDG + 0x18) % 2 ^ 40 % 64 ≠ 0)) :=
  ⟨st .reset, .host, 3, false, by decide +kernel⟩

theorem witness_CapsulesLeasesCluster_2 : ∃ (s : State) (p : Path) (v : Nat) (late : Bool) (r : Acc), (s.blk.pathOn p = true ∧ reaches p.code bSDG = true ∧ v.testBit 0 = true ∧ s.blk.sdg.capNext = none ∧ s.blk.cmdFree (.capsuleLoad p v late) = true ∧ late = false ∧ s.blk.reg (bSDG + 0x20) % 4096 ≠ 0 ∧ s.blk.reg64 (bSDG + 0x18) % 2 ^ 40 % 64 = 0 ∧ s.blk.struc.inGuarded (s.blk.reg64 (bSDG + 0x18) % 2 ^ 40) (s.blk.reg (bSDG + 0x20) % 4096) = true) ∧ r = readRange ((s.blk.atPort p).putReg oCAP_CTRL 2 v) rqObj (s.blk.reg64 (bSDG + 0x18) % 2 ^ 40) (s.blk.reg (bSDG + 0x20) % 4096) ∧ r.st = stOK :=
  ⟨st ((({ Blk.reset with struc := regionAll 0 }).setReg (bSDG + 0x20) 16).setReg (bSDG + 0x18) 64), .host, 3, false, readRange ((((({ Blk.reset with struc := regionAll 0 }).setReg (bSDG + 0x20) 16).setReg (bSDG + 0x18) 64).atPort .host).putReg oCAP_CTRL 2 3) rqObj 64 16, by decide +kernel, rfl, by decide +kernel⟩

theorem witness_CapsulesLeasesCluster_3 : ∃ (s : State) (r : Bytes), s.blk.sdg.capSave = some r :=
  ⟨st { Blk.reset with sdg := { Blk.reset.sdg with capSave := some [5] } }, [5], by decide +kernel⟩

theorem witness_CapsulesLeasesCluster_4 : ∃ (s : State) (r : Bytes), s.blk.sdg.capSave = some r :=
  ⟨st { Blk.reset with sdg := { Blk.reset.sdg with capSave := some [5] } }, [5], by decide +kernel⟩

theorem witness_CapsulesLeasesCluster_5a : ∃ (s : State) (h : Nat) (n : Nat), s.blk.pathOn (holderPath h) = true ∧ s.blk.leaseMay h n = true ∧ s.blk.lease? n = none :=
  ⟨st .reset, 10, 4, by decide +kernel⟩

theorem witness_CapsulesLeasesCluster_5b : ∃ (s : State) (h : Nat) (n : Nat), s.blk.pathOn (holderPath h) = true ∧ s.blk.leaseMay h n = true ∧ s.blk.lease? n = none :=
  ⟨st .reset, 2, 1, by decide +kernel⟩

theorem witness_CapsulesLeasesCluster_6a : ∃ (s : State) (h : Nat) (n : Nat), s.blk.pathOn (holderPath h) = true ∧ ((s.blk.leaseMay h n = false ∨ (s.blk.lease? n).isSome = true)) :=
  ⟨st .reset, 10, 0, by decide +kernel⟩

theorem witness_CapsulesLeasesCluster_6b : ∃ (s : State) (h : Nat) (n : Nat), s.blk.pathOn (holderPath h) = true ∧ ((s.blk.leaseMay h n = false ∨ (s.blk.lease? n).isSome = true)) :=
  ⟨st { Blk.reset with sdg := { Blk.reset.sdg with leases := [(4, ⟨11, 9⟩)] } }, 10, 4, by decide +kernel⟩

theorem witness_CapsulesLeasesCluster_7 : ∃ (s : State) (h : Nat) (n : Nat), s.blk.pathOn (holderPath h) = true ∧ s.blk.leaseHeld n h = true :=
  ⟨st { Blk.reset with sdg := { Blk.reset.sdg with leases := [(4, ⟨10, 9⟩)] } }, 10, 4, by decide +kernel⟩

theorem witness_CapsulesLeasesCluster_8 : ∃ (s : State) (h : Nat) (n : Nat), s.blk.pathOn (holderPath h) = true ∧ s.blk.leaseHeld n h = true :=
  ⟨st { Blk.reset with sdg := { Blk.reset.sdg with leases := [(4, ⟨10, 9⟩)] } }, 10, 4, by decide +kernel⟩

theorem witness_CapsulesLeasesCluster_9 : ∃ (s : State) (h : Nat) (n : Nat), s.blk.pathOn (holderPath h) = true ∧ s.blk.leaseHeld n h = false :=
  ⟨st { Blk.reset with sdg := { Blk.reset.sdg with leases := [(4, ⟨11, 9⟩)] } }, 10, 4, by decide +kernel⟩

theorem witness_CapsulesLeasesCluster_10 : ∃ (s : State) (n : Nat) (l : LeaseSt), n ≠ 3 ∧ s.blk.lease? n = some l ∧ l.ends ≤ s.blk.time.toNat :=
  ⟨st { Blk.reset with sdg := { Blk.reset.sdg with leases := [(2, ⟨3, 0⟩)] } }, 2, ⟨3, 0⟩, by decide +kernel⟩

theorem witness_CapsulesLeasesCluster_11 : ∃ (s : State) (u : Nat), (s.blk.unit u).slot.isSome = true :=
  ⟨st (withUnit 5 { UnitSt.reset with slot := some 0 }), 5, by decide +kernel⟩

theorem witness_CapsulesLeasesCluster_12 : ∃ (s : State) (c : Nat), c < 8 ∧ s.blk.restarting = false ∧ s.blk.pwr.rails.testBit 2 = true :=
  ⟨st .reset, 3, by decide +kernel⟩

theorem witness_CapsulesLeasesCluster_13 : ∃ (s : State) (c : Nat), c < 8 ∧ s.blk.restarting = false ∧ s.blk.pwr.rails.testBit 2 = true :=
  ⟨st .reset, 3, by decide +kernel⟩

theorem witness_CapsulesLeasesCluster_14 : ∃ (s : State) (c : Nat), c < 8 ∧ s.blk.restarting = false ∧ s.blk.pwr.rails.testBit 2 = true ∧ 2 ≤ (s.blk.sdg.coreRestarts.filter (fun t => decide (s.blk.time.toNat < t + ticks10s))).length :=
  ⟨st { Blk.reset with sdg := { Blk.reset.sdg with coreRestarts := [0, 0] } }, 3, by decide +kernel⟩

theorem witness_CapsulesLeasesCluster_15 : ∃ (s : State), s.blk.restarting = true ∧ s.blk.halted = false :=
  ⟨st { Blk.reset with restarting := true }, by decide +kernel⟩

theorem witness_CapsulesLeasesCluster_16 : ∃ (s : State) (p : Path) (v : Nat), s.blk.pathOn p = true ∧ reaches p.code bERRLOG = true ∧ s.blk.leaseHeld 4 (holderOf p.code) = true ∧ (BitVec.ofNat 32 v - s.blk.log.tail).toNat ≤ (s.blk.log.head - s.blk.log.tail).toNat :=
  ⟨st { Blk.reset with log := { Blk.reset.log with head := 5, tail := 2 }, sdg := { Blk.reset.sdg with leases := [(4, ⟨10, 9⟩)] } }, .host, 4, by decide +kernel⟩

theorem witness_CapsulesLeasesCluster_17a : ∃ (s : State) (p : Path) (v : Nat), s.blk.pathOn p = true ∧ ((s.blk.leaseHeld 4 (holderOf p.code) = false ∨ (s.blk.log.head - s.blk.log.tail).toNat < (BitVec.ofNat 32 v - s.blk.log.tail).toNat)) :=
  ⟨st { Blk.reset with log := { Blk.reset.log with head := 5, tail := 2 }, sdg := { Blk.reset.sdg with leases := [(4, ⟨10, 9⟩)] } }, .host, 6, by decide +kernel⟩

theorem witness_CapsulesLeasesCluster_17b : ∃ (s : State) (p : Path) (v : Nat), s.blk.pathOn p = true ∧ ((s.blk.leaseHeld 4 (holderOf p.code) = false ∨ (s.blk.log.head - s.blk.log.tail).toNat < (BitVec.ofNat 32 v - s.blk.log.tail).toNat)) :=
  ⟨st .reset, .sideband, 0, by decide +kernel⟩

theorem witness_ModesAndObjects_1 : ∃ (s : State) (p : Path) (v : Nat), s.blk.pathOn p = true ∧ reaches p.code bIDENT = true ∧ bits v 5 4 = 1 ∧ s.blk.mode = .startup :=
  ⟨st .reset, .host, 16, by decide +kernel⟩

theorem witness_ModesAndObjects_2a : ∃ (s : State) (p : Path) (v : Nat), s.blk.pathOn p = true ∧ reaches p.code bIDENT = true ∧ bits v 5 4 ≠ 0 ∧ ((bits v 5 4 ≠ 1 ∨ s.blk.mode ≠ .startup)) :=
  ⟨st .reset, .host, 32, by decide +kernel⟩

theorem witness_ModesAndObjects_2b : ∃ (s : State) (p : Path) (v : Nat), s.blk.pathOn p = true ∧ reaches p.code bIDENT = true ∧ bits v 5 4 ≠ 0 ∧ ((bits v 5 4 ≠ 1 ∨ s.blk.mode ≠ .startup)) :=
  ⟨st { Blk.reset with mode := .normal }, .host, 16, by decide +kernel⟩

theorem witness_ModesAndObjects_3 : ∃ (s : State) (p : Path), s.blk.pathOn p = true ∧ ((p = .host ∨ p = .internal)) ∧ s.blk.objPlace s.blk.objLen = false :=
  ⟨st .reset, .host, by decide +kernel⟩

theorem witness_ModesAndObjects_4 : ∃ (s : State) (p : Path) (r : Acc), (s.blk.pathOn p = true ∧ ((p = .host ∨ p = .internal)) ∧ s.blk.cmdFree (.idObjFirmware p) = true ∧ s.blk.objPlace s.blk.objLen = true) ∧ r = readRange (s.blk.atPort p) rqObj s.blk.objSrc s.blk.objLen ∧ (r.st = stOK ∧ s.blk.sec.fw.length = 3) :=
  ⟨st (((({ Blk.reset with struc := regionAll 0 }).setReg (bIDENT + 0x110) 16).setReg (bIDENT + 0x108) 64)), .host, readRange ((((({ Blk.reset with struc := regionAll 0 }).setReg (bIDENT + 0x110) 16).setReg (bIDENT + 0x108) 64)).atPort .host) rqObj 64 16, by decide +kernel, rfl, by decide +kernel⟩

theorem witness_ModesAndObjects_5 : ∃ (s : State) (p : Path), s.blk.pathOn p = true ∧ ((p = .host ∨ p = .internal)) ∧ s.blk.objPlace s.blk.objLen = false :=
  ⟨st .reset, .host, by decide +kernel⟩

theorem witness_ModesAndObjects_6 : ∃ (s : State) (p : Path) (r : Acc), (s.blk.pathOn p = true ∧ ((p = .host ∨ p = .internal)) ∧ s.blk.cmdFree (.idObjEnrol p) = true ∧ s.blk.objPlace s.blk.objLen = true) ∧ r = readRange (s.blk.atPort p) rqObj s.blk.objSrc s.blk.objLen ∧ r.st = stOK :=
  ⟨st (((({ Blk.reset with struc := regionAll 0 }).setReg (bIDENT + 0x110) 16).setReg (bIDENT + 0x108) 64)), .host, readRange ((((({ Blk.reset with struc := regionAll 0 }).setReg (bIDENT + 0x110) 16).setReg (bIDENT + 0x108) 64)).atPort .host) rqObj 64 16, by decide +kernel, rfl, by decide +kernel⟩

theorem witness_ModesAndObjects_7 : ∃ (s : State) (p : Path), s.blk.pathOn p = true ∧ ((p = .host ∨ p = .internal)) ∧ s.blk.cmdFree (.idObjReport p) = true ∧ s.blk.objLen ≠ 4032 :=
  ⟨st .reset, .host, by decide +kernel⟩

theorem witness_ModesAndObjects_8 : ∃ (s : State) (p : Path), s.blk.pathOn p = true ∧ ((p = .host ∨ p = .internal)) ∧ s.blk.cmdFree (.idObjReport p) = true ∧ s.blk.objLen = 4032 ∧ s.blk.objPlace 4032 = true ∧ (readRange (s.blk.atPort p) rqObj s.blk.objSrc 32).st = stOK :=
  ⟨st (((({ Blk.reset with struc := regionAll 0 }).setReg (bIDENT + 0x110) 4032).setReg (bIDENT + 0x108) 64)), .host, by decide +kernel⟩

theorem witness_ModesAndObjects_9 : ∃ (s : State) (p : Path), s.blk.pathOn p = true ∧ ((p = .host ∨ p = .internal)) ∧ s.blk.cmdFree (.idObjCert p) = true ∧ s.blk.objLen ≠ 5312 :=
  ⟨st .reset, .host, by decide +kernel⟩

theorem witness_ModesAndObjects_10 : ∃ (s : State) (p : Path), s.blk.pathOn p = true ∧ ((p = .host ∨ p = .internal)) ∧ s.blk.cmdFree (.idObjCert p) = true ∧ s.blk.objLen = 5312 ∧ s.blk.objPlace 5312 = true :=
  ⟨st (((({ Blk.reset with struc := regionAll 0 }).setReg (bIDENT + 0x110) 5312).setReg (bIDENT + 0x108) 64)), .host, by decide +kernel⟩

theorem witness_Sideband_1 : ∃ (s : State) (c : Nat) (off : Nat) (n : Nat), s.blk.sideLive = true ∧ c < 5 ∧ off % 4 = 0 ∧ 0 < n ∧ n ≤ 16 :=
  ⟨st .reset, 1, 0, 2, by decide +kernel⟩

theorem witness_Sideband_2a : ∃ (s : State) (c : Nat) (off : Nat) (n : Nat), s.blk.sideLive = true ∧ ((5 ≤ c ∨ off % 4 ≠ 0 ∨ n = 0 ∨ 16 < n)) :=
  ⟨st .reset, 9, 0, 1, by decide +kernel⟩

theorem witness_Sideband_2b : ∃ (s : State) (c : Nat) (off : Nat) (n : Nat), s.blk.sideLive = true ∧ ((5 ≤ c ∨ off % 4 ≠ 0 ∨ n = 0 ∨ 16 < n)) :=
  ⟨st .reset, 1, 2, 1, by decide +kernel⟩

theorem witness_Sideband_2c : ∃ (s : State) (c : Nat) (off : Nat) (n : Nat), s.blk.sideLive = true ∧ ((5 ≤ c ∨ off % 4 ≠ 0 ∨ n = 0 ∨ 16 < n)) :=
  ⟨st .reset, 1, 0, 17, by decide +kernel⟩

theorem witness_Sideband_3 : ∃ (s : State) (c : Nat) (off : Nat) (base : Nat), s.blk.sideLive = true ∧ [bIDENT, bPOWER, bTHERM, bERRLOG, bSDG][c]? = some base ∧ off % 4 = 0 ∧ base ≠ bTHERM ∧ inBlock base off = true :=
  ⟨st .reset, 1, 0x60, bPOWER, by decide +kernel⟩

theorem witness_Sideband_4a : ∃ (s : State) (c : Nat) (off : Nat), s.blk.sideLive = true ∧ ((5 ≤ c ∨ off % 4 ≠ 0)) :=
  ⟨st .reset, 9, 0, by decide +kernel⟩

theorem witness_Sideband_4b : ∃ (s : State) (c : Nat) (off : Nat), s.blk.sideLive = true ∧ ((5 ≤ c ∨ off % 4 ≠ 0)) :=
  ⟨st .reset, 1, 2, by decide +kernel⟩

theorem witness_Sideband_5 : ∃ (s : State), s.blk.sideLive = true :=
  ⟨st .reset, by decide +kernel⟩

theorem witness_Sideband_6 : ∃ (s : State), s.blk.sideLive = true :=
  ⟨st .reset, by decide +kernel⟩

theorem witness_Sideband_7 : ∃ (s : State) (k : Nat), s.blk.pwr.state ≠ .unpowered ∧ ((s.blk.sec.romOnly = false ∨ k = 0)) ∧ ((k = 0 ∨ k = 1 ∨ k = 4)) :=
  ⟨st .reset, 1, by decide +kernel⟩

theorem witness_Sideband_8 : ∃ (s : State) (k : Nat) (off : Nat), s.blk.pwr.state ≠ .unpowered ∧ ((s.blk.sec.romOnly = false ∨ k = 0)) ∧ ((k = 0 ∨ k = 1 ∨ k = 4)) ∧ 0 < off ∧ (s.blk.sec.frags.map (fun (x : Nat × Bytes) => (x.1, x.2.length))) = some (k, off) :=
  ⟨st { Blk.reset with sec := { Blk.reset.sec with frags := some (1, [1, 2]) } }, 1, 2, by decide +kernel⟩

theorem witness_Sideband_9a : ∃ (s : State) (k : Nat) (off : Nat), s.blk.pwr.state ≠ .unpowered ∧ ((s.blk.sec.romOnly = false ∨ k = 0)) ∧ ((¬ (k = 0 ∨ k = 1 ∨ k = 4) ∨ (0 < off ∧ (s.blk.sec.frags.map (fun (x : Nat × Bytes) => (x.1, x.2.length))) ≠ some (k, off)))) :=
  ⟨st { Blk.reset with sec := { Blk.reset.sec with frags := some (1, [1, 2]) } }, 1, 3, by decide +kernel⟩

theorem witness_Sideband_9b : ∃ (s : State) (k : Nat) (off : Nat), s.blk.pwr.state ≠ .unpowered ∧ ((s.blk.sec.romOnly = false ∨ k = 0)) ∧ ((¬ (k = 0 ∨ k = 1 ∨ k = 4) ∨ (0 < off ∧ (s.blk.sec.frags.map (fun (x : Nat × Bytes) => (x.1, x.2.length))) ≠ some (k, off)))) :=
  ⟨st .reset, 9, 0, by decide +kernel⟩

theorem witness_Sideband_10 : ∃ (s : State) (k : Nat) (off : Nat), s.blk.pwr.state ≠ .unpowered ∧ ((s.blk.sec.romOnly = false ∨ k = 0)) ∧ ((k = 0 ∨ k = 1 ∨ k = 4)) ∧ 0 < off ∧ (s.blk.sec.frags.map (fun (x : Nat × Bytes) => (x.1, x.2.length))) = some (k, off) :=
  ⟨st { Blk.reset with sec := { Blk.reset.sec with frags := some (1, [1, 2]) } }, 1, 2, by decide +kernel⟩

theorem witness_Sideband_11 : ∃ (s : State) (k : Nat), s.blk.sec.romOnly = true ∧ k ≠ 0 :=
  ⟨st { Blk.reset with sec := { Blk.reset.sec with romOnly := true } }, 1, by decide +kernel⟩

theorem witness_Sideband_12a : ∃ (s : State), s.blk.sideLive = true :=
  ⟨st .reset, by decide +kernel⟩

theorem witness_Sideband_12b : ∃ (s : State), s.blk.sideLive = true :=
  ⟨st .reset, by decide +kernel⟩

theorem witness_Sideband_12c : ∃ (s : State), s.blk.sideLive = true :=
  ⟨st .reset, by decide +kernel⟩

theorem witness_Sideband_13 : ∃ (s : State), s.blk.sideLive = true :=
  ⟨st .reset, by decide +kernel⟩

end Sys2Proof.Tests
end

section
/-! Proofs: every command answers a next state (log 2, log 8); accesses of a wrong size or alignment, writes of SDG
fields and of registers (R5 to R9, R55); and reads by the host in WATCH (R366). -/

namespace Sys2Proof.Machine
open Sys2Proof

/-! ### Every command answers a next state -/

/-- A command of the hub domain answers a next state whether or not the hub has its power. -/
theorem hubAct_answers (s : State) (f : Blk → Blk) : ∃ b : Blk, hubAct s f = .next { s with blk := b } :=
  let ⟨b, h, _⟩ := hubAct_next s f
  ⟨b, h⟩

/-- Settles O2: by the frame of the command. Accesses by a path, commands of the sideband and events outside the hub
domain run an `act`, which answers a next state by definition; the other commands are of the hub domain. -/
theorem everyCommandCompletes : Obligations.EveryCommandCompletes := by
  intro c s
  cases c with
  | badAccess | sdgWriteRefused | registerWrite | commit | layLoad | clrCounters | trnStart | pcieAtomicop | doorbell
  | cqHeadWrite | qpEnable | qpReset | qpDropHeld | reattach | fabIsolate | fabRetrain | qpcLoad | qpcReset
  | qpcForceError | pwrCmdHold | pwrCmdOff | pwrCmdWake | clearStuck | powerCycle | pwrPadrel | pwrLinkwake
  | capsuleLoad | leaseAcquire | leaseRenew | leaseRelease | elTailWrite | modeRequest | idObjFirmware | idObjEnrol
  | idObjReport | idObjCert | hostWake | attach | detach | heartbeat
  | readReg | writeReg | getReport | setMode | getCert | getStatus => exact ⟨_, rfl⟩
  | budgetPeriodBoundary | windowRead | windowWrite | powerHint | powerHintWaitTimeout | dieIdleTimer | listenWindow
  | linkWakeDetect | wakeInNLow | wakeStepReady | wakeStepTimeout | pmbusTransactionDone | avsAckTimeout | pwrEnAssert
  | railPowerGoodLost | sensorUpdate | regulatorRead | inputCurrentCheck | holddownEnd | thermNExternal
  | capsulePersistDone | leaseExpiry | watchdogExpiry | coreParityError | startupStepDone | loadObject
  | heartbeatTimeout | orphanExpiry | perstNAssert | perstNDeassert | pcieLinkDown | pcieLinkDown1ms
  | functionLevelReset | keepExpiry | runDozeTimer | dozeWatchTimer | quiesceTimeout | entryStepDone | alarmExpiry
  | wakeRetryDelay | pwrEnDeassert | inputPowerApplied | clusterReadyTimeout | mctpResponseTimeout | inputUndervoltage
  | inputOvervoltage | inputRestored | holdupExhausted | clusterRestartReady | avsAcknowledged | wakeOutNRelease =>
    exact ⟨_, rfl⟩
  | _ => exact hubAct_answers s _

/-! ### What is sent, and what is logged -/

/-- What two accounts of one command's completion say holds of the same block. -/
theorem Completes.both {c : Instr} {s : State} {P Q : Blk → Prop} (h : Completes c s P) (g : Completes c s Q) :
    ∃ b, P b ∧ Q b := by
  obtain ⟨t, ht, -, hP⟩ := h
  obtain ⟨u, hu, -, hQ⟩ := g
  obtain rfl : t = u := by simpa [ht] using hu
  exact ⟨t.blk, hP, hQ⟩

theorem Blk.msix_sent (b : Blk) (v : Nat) : b.sent ⊆ (b.msix v).sent := by
  unfold Blk.msix Blk.send
  repeat' split
  · exact List.Subset.refl _
  · exact List.subset_append_left _ _
  · exact List.Subset.refl _

theorem Blk.raise_sent (b : Blk) (n : Nat) : b.sent ⊆ (b.raise n).sent := by
  unfold Blk.raise
  repeat' split
  · exact List.Subset.refl _
  · exact List.Subset.refl _
  · exact b.msix_sent _

/-- Raising event messages takes back nothing that was sent. -/
theorem settle_sent (a b : Blk) : b.sent ⊆ (settle a b).sent := by
  unfold settle
  generalize List.range 25 = l
  suffices h : ∀ x : Blk, x.sent ⊆ (l.foldl
      (fun (x : Blk) n => if b.source n && !a.source n then x.raise n else x) x).sent from h b
  induction l with
  | nil => exact fun _ => List.Subset.refl _
  | cons n t ih =>
    refine fun x => List.Subset.trans ?_ (ih _)
    dsimp only
    split
    · exact x.raise_sent n
    · exact List.Subset.refl _

theorem Blk.mem_settle_send (a b : Blk) (m : Msg) : m ∈ (settle a (b.send m)).sent :=
  settle_sent a _ (by simp [Blk.send])

theorem Blk.send_evFrame (b : Blk) (m : Msg) : EvFrame b (b.send m) := ⟨b.ev, _, rfl⟩

theorem Blk.logE_send (b : Blk) (m : Msg) (k : Nat) (x : LogArg) : (b.send m).logE k x = (b.logE k x).send m := by
  cases h : b.pwr.rails.testBit 1 with
  | false => simp [Blk.logE, h]
  | true =>
    simp only [Blk.logE, Blk.send_pwr, h, if_true]
    rfl

/-- R407: the entry that a finding writes, in a log that can be reached. -/
theorem Blk.newest_logE {b : Blk} (h : b.logUp = true) (k : Nat) (x : LogArg) :
    (b.logE k x).log.head = b.log.head + 1
      ∧ tget LogEntry.zero (b.log.head.toNat % 2048) (b.logE k x).log.entries = mkEntry b k x := by
  have h' : b.pwr.rails.testBit 1 = true := h
  simp [Blk.logE, h', LogSt.push]

theorem Blk.lastLog_logE {a b : Blk} (hl : b.log = a.log) (h : b.logUp = true) (k : Nat) (x : LogArg) :
    LastLog a (b.logE k x) k x.detail := by
  obtain ⟨hh, he⟩ := Blk.newest_logE h k x
  rw [hl] at hh he
  exact ⟨hh, by rw [he]; rfl, by rw [he]; rfl⟩

/-- What the log holds is not for event messages to change. -/
theorem LastLog.settle {a b c : Blk} {k d : Nat} (h : LastLog a b k d) : LastLog a (settle c b) k d := by
  simpa [LastLog] using h

@[simp] theorem Blk.atPort_logUp (b : Blk) (p : Path) : (b.atPort p).logUp = b.logUp := by simp [Blk.logUp]

/-! ### What the accesses of R6, R8 and R9 run -/

section
variable (b : Blk) (p : Path) (off v : Nat)

theorem hostCmd_badAccess (w : Bool) (n : Nat) : hostCmd (.badAccess p w off n) b = b.badAccess p.code w off n := rfl
theorem hostCmd_sdgWriteRefused (h : sdgField off = true) :
    hostCmd (.sdgWriteRefused p off v) b = b.busWrite p.code off false v := if_pos h
theorem hostCmd_registerWrite (wide : Bool) :
    hostCmd (.registerWrite p off wide v) b = b.busWrite p.code off wide v := rfl

end

/-! ### Accesses of a wrong size or alignment (R6) -/

theorem Path.code_eq_host (p : Path) : p.code = pHOST ↔ p = .host := by cases p <;> decide

/-- A bad access by a path that reaches the offset is logged; a read by the host returns zero too. -/
theorem Blk.badAccess_eq {b : Blk} {path off n : Nat} (hr : reaches path off = true) (ha : accessOk off n = false)
    (w : Bool) : b.badAccess path w off n
      = (if w || path != pHOST then b else b.send (.regRead 0)).logE kBAD_ACCESS { path := path, addr := some off } := by
  simp [Blk.badAccess, hr, ha]

/-- Settles O10: the access is logged; the log and what is sent are all that it changes. -/
theorem badAccesses : Obligations.BadAccesses := by
  intro s p w off n hp hr ha
  refine .of_bus (exec_badAccess s p w off n) hp (Blk.carry_plain rfl) ?_
  rw [hostCmd_badAccess, Blk.badAccess_eq hr ha]
  cases hw : w || p.code != pHOST with
  | true =>
    refine ⟨settle_frame _ _, by simp, fun hh hf => ?_, fun hl => ?_⟩
    · simp [hf, (Path.code_eq_host p).2 hh] at hw
    · exact (Blk.lastLog_logE (by simp) (by simpa using hl) _ _).settle
  | false =>
    simp only [Bool.false_eq_true, if_false]
    refine ⟨?_, by simp, fun _ _ => ?_, fun hl => ?_⟩
    · rw [Blk.logE_send]
      exact (Blk.send_evFrame _ _).trans (settle_frame _ _)
    · rw [Blk.logE_send]
      exact Blk.mem_settle_send _ _ _
    · exact (Blk.lastLog_logE (by simp [Blk.send]) (by simpa [Blk.logUp] using hl) _ _).settle

/-! ### Writes of SDG fields (R9) -/

theorem sdgField_iff (off : Nat) : sdgField off = true ↔ bSDG + 0x40 ≤ off ∧ off ≤ bSDG + 0x68 := by
  simp [sdgField]

/-- A write at an offset inside the SDG fields that is not aligned is no write of a field: it is a bad access (R6). -/
theorem Blk.sdgWrite_unaligned {b : Blk} {path off : Nat} (hr : reaches path off = true) (hs : sdgField off = true)
    (ha : off % 4 ≠ 0) (v : Nat) :
    b.busWrite path off false v = b.logE kBAD_ACCESS { path := path, addr := some off } := by
  have hlt : off < 0x1000000 := Nat.lt_of_le_of_lt ((sdgField_iff off).1 hs).2 (by decide)
  have hbad : accessOk off 4 = false := by simp [accessOk, ha]
  simp [Blk.busWrite, Nat.not_le.2 hlt, hbad, Blk.badAccess_eq hr hbad]

theorem sdgWriteRefused_unaligned {s : State} {p : Path} {off : Nat} (hp : s.blk.pathOn p = true)
    (hr : reaches p.code off = true) (hs : sdgField off = true) (ha : off % 4 ≠ 0) (hl : s.blk.logUp = true) (v : Nat) :
    Completes (.sdgWriteRefused p off v) s (fun b => LastLog s.blk b kBAD_ACCESS 0) := by
  refine .of_bus (exec_sdgWriteRefused s p off v) hp (Blk.carry_plain rfl) ?_
  rw [hostCmd_sdgWriteRefused _ _ _ _ hs, Blk.sdgWrite_unaligned hr hs ha]
  exact (Blk.lastLog_logE (by simp) (by simpa using hl) _ _).settle

/-- Refutes O11: `sdgField` holds of offsets that are not aligned too. After reset, a write by the host at offset 0x41
of SDG is logged as BAD_ACCESS (R6), not as SDG_WRITE_REFUSED. -/
theorem not_sdgWrites : ¬ Obligations.SdgWrites := by
  intro h
  have hp : State.reset.blk.pathOn .host = true := rfl
  have hr : reaches Path.host.code (bSDG + 0x41) = true := by decide
  have hs : sdgField (bSDG + 0x41) = true := by decide
  have hl : State.reset.blk.logUp = true := rfl
  obtain ⟨b, ⟨-, -, hsdg⟩, -, hbad, -⟩ :=
    (h State.reset .host (bSDG + 0x41) 0 hp hr hs).both (sdgWriteRefused_unaligned hp hr hs (by decide) hl 0)
  obtain ⟨⟨-, hkind, -⟩, -⟩ := hsdg hl
  exact absurd (hbad.symm.trans hkind) (by decide)

/-! ### Register writes (R5, R7, R8) -/

/-- R8: the registers whose write is no command, block by block. -/
theorem commandReg_false {off : Nat} (h : commandReg off = false) :
    sdgField off = false
    ∧ (off ≠ bIDENT + 0x100 ∧ off ≠ bIDENT + 0x104 ∧ off ≠ bATTACH + 4 ∧ off ≠ bATTACH + 0xC ∧ off ≠ bATTACH + 0x18
      ∧ off ≠ bWINDOW + 0x180 ∧ off ≠ oLAY_CTRL ∧ off ≠ bPOWER + 4 ∧ off ≠ bPOWER + 0x40 ∧ off ≠ bPOWER + 0x44
      ∧ off ≠ bPOWER + 0x180 ∧ off ≠ bERRLOG + 8 ∧ off ≠ bFABRIC + 4 ∧ off ≠ bNET + 4 ∧ off ≠ bNET + 0x70
      ∧ off ≠ bNET + 0x180 ∧ off ≠ oCAP_CTRL)
    ∧ (bQUEUES ≤ off → off < 0x50000 →
      off % 0x1000 ≠ 0x14 ∧ off % 0x1000 ≠ 0x18 ∧ off % 0x1000 ≠ 0x20 ∧ off % 0x1000 ≠ 0x180)
    ∧ (bSTACK ≤ off → off < bTRAIN → off % 0x1000 ≠ 4 ∧ off % 0x1000 ≠ 0x180)
    ∧ ¬ (bTRAIN ≤ off ∧ off < bSDG)
    ∧ ¬ (bSDG + 0x80 ≤ off ∧ off < bSDG + 0x94) := by
  simpa only [commandReg, Bool.or_eq_false_iff, List.contains_cons, List.contains_nil, Bool.and_eq_false_imp,
    Bool.and_eq_true, decide_eq_true_eq, beq_eq_false_iff_ne, and_imp, and_assoc, and_true, decide_eq_false_iff_not,
    not_and] using h

/-- What keeps a write of a register an ordinary one: no write of the register is a command, and none that the
sideband refuses. -/
def plainOver (path off : Nat) : Prop := commandReg off = false ∧ (path = pSIDE → off < 0x104 ∨ 0x114 ≤ off)

theorem Blk.writeWord_plain {path off : Nat} (h : plainOver path off) (h4 : off % 4 = 0) (b : Blk) (v : Nat) :
    (b.writeWord path off v).1 = if reaches path off then b.plainWrite off v else b := by
  obtain ⟨hc, hside⟩ := h
  obtain ⟨hsdg, hregs, hqueue, hstack, htrain, hlease⟩ := commandReg_false hc
  have hs : ¬ (path = pSIDE ∧ 0x104 ≤ off ∧ off < 0x114) := fun ⟨hp, hlo, hhi⟩ => by
    rcases hside hp with h | h <;> omega
  have ht : off ≠ bTRAIN + 4 := fun h => htrain (h ▸ by decide)
  unfold Blk.writeWord
  simp only [h4, hsdg, hregs, hs, ht, htrain, hlease, bne_self_eq_false, Bool.false_eq_true, Bool.false_and,
    Bool.and_eq_true, decide_eq_true_eq, and_assoc, if_false]
  cases reaches path off with
  | false => rfl
  | true =>
  simp only [Bool.not_true, Bool.false_eq_true, if_false, if_true]
  split
  next hq => simp only [hqueue hq.1 hq.2, if_false]
  split
  next hk => simp only [hstack hk.1 hk.2, if_false]
  rfl

theorem Blk.plainWrite_none {off : Nat} (h : regInfo off = none) (b : Blk) (v : Nat) : b.plainWrite off v = b := by
  simp [Blk.plainWrite, h]

/-- R7: an ordinary write changes the word of its register and nothing else. -/
theorem Blk.plainWrite_frame (b : Blk) (off v : Nat) :
    (∃ r, b.plainWrite off v = { b with regs := r }) ∧ ∀ o, o ≠ off → (b.plainWrite off v).reg o = b.reg o := by
  unfold Blk.plainWrite
  split
  next => exact ⟨⟨_, rfl⟩, fun _ _ => rfl⟩
  next i _ =>
    split
    · exact ⟨⟨_, rfl⟩, fun _ _ => rfl⟩
    · exact ⟨⟨_, rfl⟩, fun _ ho => Blk.reg_setReg_other b _ ho⟩

theorem testBit_all1 {k : Nat} (hk : k < 32) : all1.testBit k = true := by
  rw [show all1 = 2 ^ 32 - 1 from rfl, Nat.testBit_two_pow_sub_one]
  exact decide_eq_true hk

/-- R8: each bit of a register after an ordinary write of a word. -/
theorem Blk.testBit_plainWrite {off : Nat} {i : RegInfo} (h : regInfo off = some i) (b : Blk) (v : Nat) {k : Nat}
    (hk : k < 32) : ((b.plainWrite off (v % 2 ^ 32)).reg off).testBit k = i.after (b.reg off) v k := by
  simp only [Blk.plainWrite, h]
  split
  next h0 =>
    obtain ⟨⟨h1, h2⟩, h3⟩ : (i.rw = 0 ∧ i.w1c = 0) ∧ i.rwc = 0 := by simpa using h0
    simp [RegInfo.after, h1, h2, h3]
  next =>
    simp only [Blk.reg_setReg_same, Nat.testBit_mod_two_pow, Nat.testBit_and, Nat.testBit_or, Nat.testBit_xor,
      testBit_all1 hk, hk, decide_true, Bool.true_and, RegInfo.after]
    cases i.rw.testBit k || i.rwc.testBit k <;> simp [Bool.and_comm]

theorem Blk.carry_registerWrite {off : Nat} (hc : commandReg off = false) (b : Blk) (p : Path) (wide : Bool) (v : Nat) :
    b.carry (.registerWrite p off wide v) = hostCmd (.registerWrite p off wide v) b := by
  obtain ⟨-, hregs, -⟩ := commandReg_false hc
  exact Blk.carry_now (.inl (by simp [Blk.cmdReach, cmdWord, Blk.cmdSpan, hregs]))

theorem regInfo_lt {off : Nat} {i : RegInfo} (h : regInfo off = some i) : off < 0x1000000 := by
  by_contra hge
  have hnone : blockOf off = none := by
    unfold blockOf
    repeat rw [if_neg (by omega)]
  simp [regInfo, hnone] at h

/-- R5: a 32-bit write of a register is one access. -/
theorem Blk.busWrite_narrow {path off : Nat} (h : plainOver path off) (h4 : off % 4 = 0) (hlt : off < 0x1000000) (b : Blk)
    (v : Nat) : b.busWrite path off false v = if reaches path off then b.plainWrite off (v % 2 ^ 32) else b := by
  have hok : accessOk off 4 = true := by simp [accessOk, h4]
  simp only [Blk.busWrite, Nat.not_le.2 hlt, hok, Blk.writeWord_plain h h4, Bool.false_eq_true, Bool.false_and, if_false,
    Bool.not_true]

/-- R5: a 64-bit write of a 64-bit register writes both words. -/
theorem Blk.busWrite_wide {path off : Nat} (h : plainOver path off) (h' : plainOver path (off + 4)) (h8 : off % 8 = 0)
    (hw : isWide64 off = true) (hr : reaches path off = true) (hr' : reaches path (off + 4) = true) (hlt : off < 0x1000000)
    (b : Blk) (v : Nat) : b.busWrite path off true v
      = (b.plainWrite off (v % 2 ^ 32)).plainWrite (off + 4) (v / 2 ^ 32 % 2 ^ 32) := by
  have hok : accessOk off 8 = true := by simp [accessOk, h8, hw]
  obtain ⟨-, -, -, -, htrain, -⟩ := commandReg_false h.1
  have htrn : b.trnRefuses path off = false := by
    simp only [Blk.trnRefuses, Bool.and_assoc, ← Bool.decide_and, htrain, decide_false, Bool.and_false]
  simp only [Blk.busWrite, Nat.not_le.2 hlt, hok, htrn, Blk.writeWord_plain h (by omega : off % 4 = 0),
    Blk.writeWord_plain h' (by omega : (off + 4) % 4 = 0), hr, hr', if_true, if_false, Bool.not_true, Bool.not_false,
    Bool.false_eq_true, Bool.and_self]

theorem Path.code_eq_side (p : Path) : p.code = pSIDE ↔ p = .sideband := by cases p <;> decide

/-- Settles O12: such a write is carried out at once and is an ordinary write of one word, or of two. -/
theorem registerWrites : Obligations.RegisterWrites := by
  refine ⟨?_, ?_, ?_⟩
  · intro s p off v i hp hr h4 hc hside hi
    have hplain : plainOver p.code off := ⟨hc, fun h => hside ((Path.code_eq_side p).1 h)⟩
    refine .of_bus (exec_registerWrite s p off false v) hp (Blk.carry_registerWrite hc _ p false v) ?_
    obtain ⟨⟨r, hframe⟩, hother⟩ := Blk.plainWrite_frame (s.blk.atPort p) off (v % 2 ^ 32)
    rw [hostCmd_registerWrite, Blk.busWrite_narrow hplain h4 (regInfo_lt hi), if_pos hr]
    refine ⟨fun k hk => ?_, fun o ho => ?_, ?_⟩
    · rw [settle_reg, Blk.testBit_plainWrite hi _ _ hk, Blk.atPort_reg]
    · rw [settle_reg, hother o ho, Blk.atPort_reg]
    · rw [hframe]
      simp [SameMem]
  · intro s p off v i j hp hr hr' h8 hw hside hc hc' hi hj
    have hplain : plainOver p.code off := ⟨hc, fun h => absurd ((Path.code_eq_side p).1 h) hside⟩
    have hplain' : plainOver p.code (off + 4) := ⟨hc', fun h => absurd ((Path.code_eq_side p).1 h) hside⟩
    refine .of_bus (exec_registerWrite s p off true v) hp (Blk.carry_registerWrite hc _ p true v) ?_
    obtain ⟨⟨r, hframe⟩, hother⟩ := Blk.plainWrite_frame (s.blk.atPort p) off (v % 2 ^ 32)
    obtain ⟨⟨r', hframe'⟩, hother'⟩ :=
      Blk.plainWrite_frame ((s.blk.atPort p).plainWrite off (v % 2 ^ 32)) (off + 4) (v / 2 ^ 32 % 2 ^ 32)
    rw [hostCmd_registerWrite, Blk.busWrite_wide hplain hplain' h8 hw hr hr' (regInfo_lt hi)]
    refine ⟨fun k hk => ⟨?_, ?_⟩, fun o ho ho' => ?_, ?_⟩
    · rw [settle_reg, hother' off (by omega), Blk.testBit_plainWrite hi _ _ hk, Blk.atPort_reg]
    · rw [settle_reg, Blk.testBit_plainWrite hj _ _ hk, hother (off + 4) (by omega), Blk.atPort_reg]
    · rw [settle_reg, hother' o ho', hother o ho, Blk.atPort_reg]
    · rw [hframe', hframe]
      simp [SameMem]
  · intro s p off v hp h4 hlt hc hside hi
    have hplain : plainOver p.code off := ⟨hc, fun h => hside ((Path.code_eq_side p).1 h)⟩
    refine .busFrame (exec_registerWrite s p off false v) hp (Blk.carry_registerWrite hc _ p false v) ?_
    rw [hostCmd_registerWrite, Blk.busWrite_narrow hplain h4 hlt, Blk.plainWrite_none hi, ite_self]

/-! ### Reads by the host in WATCH (R366) -/

/-- What HOSTIO itself serves in WATCH is carried out, with the link in L0. -/
theorem Blk.gate_watch_served {b : Blk} (hr : b.att.ready = true) (hw : b.pwr.state = .watch) (x : HeldReq)
    (f : Blk → Blk) : b.gate x true f = f (b.atPort .host) := by
  have hw' : b.linkSeen.pwr.state = .watch := hw
  simp [Blk.gate, hr, hw', Blk.atPort]

/-- R366: a read of BAR4 is no host wake. -/
theorem hostWake_bar4_keepsPwr {s : State} {off : Nat} (hr : s.blk.att.ready = true) (hw : s.blk.pwr.state = .watch)
    (h4 : 0x1000000 ≤ off) (wide : Bool) : Completes (.hostWake ⟨off, wide⟩) s (fun b => b.pwr = s.blk.pwr) := by
  refine .of_act (f := fun b => b.access .host (.hostWake ⟨off, wide⟩)) (exec_hostWake s ⟨off, wide⟩) ?_
  have hserved : watchServes (.hostWake ⟨off, wide⟩) = true := by simp [watchServes, h4]
  rw [Blk.access, hserved, Blk.gate_watch_served hr hw, Blk.carry_plain rfl]
  simp [hostCmd, Blk.hostRead, h4]

/-- The state after reset, but in WATCH. -/
def resetInWatch : State := ⟨[], Blk.reset.setPwr { Blk.reset.pwr with state := .watch }⟩

/-- Refutes O55: its clause on host wakes asks of every offset that is none of IDENT, POWER and THERM_VIEW that the read
wakes the module. A read at offset 0x100_0000 is one of BAR4, which HOSTIO serves: in WATCH after reset it leaves the
module in WATCH. -/
theorem not_padsAndRegulators : ¬ Obligations.PadsAndRegulators := by
  rintro ⟨-, -, -, -, hwake, -⟩
  have hr : resetInWatch.blk.att.ready = true := rfl
  have hw : resetInWatch.blk.pwr.state = .watch := rfl
  have he : (resetInWatch.blk.eff (bPOWER + 0x18)).testBit 0 = true := rfl
  obtain ⟨b, ⟨hwaking, -⟩, hsame⟩ :=
    (hwake resetInWatch 0x1000000 false hr hw (by decide) he).both (hostWake_bar4_keepsPwr hr hw (Nat.le_refl _) false)
  rw [hsame, hw] at hwaking
  exact absurd hwaking (by decide)

end Sys2Proof.Machine
end

section
/-! Proofs: the state after reset (R14, R50, R56, R409; log 1). -/

namespace Sys2Proof.Machine
open Sys2Proof

/-- A register that was never written holds the value of its Reset column. -/
theorem Blk.reg_of_regs_nil {b : Blk} (h : b.regs = []) (off : Nat) : b.reg off = regReset off % 2 ^ 32 := by
  rw [Blk.reg, h, tget, BitVec.toNat_ofNat]

/-- R409: the log holds no unread entry where its head and tail agree. -/
theorem LogSt.unread_of_head_eq_tail {l : LogSt} (h : l.head = l.tail) : l.unread = 0 := by
  rw [LogSt.unread, h, BitVec.sub_self, BitVec.toNat_zero]

/-- Settles O4: no register is written at reset, and the error log's head and tail agree; the other parts are fields of
`Blk.reset`. -/
theorem resetState : Obligations.ResetState :=
  have hreg : ∀ off, Blk.reset.reg off = regReset off % 2 ^ 32 := Blk.reg_of_regs_nil rfl
  have hlog : Blk.reset.log.unread = 0 := LogSt.unread_of_head_eq_tail rfl
  ⟨hreg, rfl, rfl, rfl, rfl, rfl, rfl, hlog, rfl, rfl⟩

end Sys2Proof.Machine
end

section
/-! Proofs: a step runs the command at the front of the queue (R53, R315; log 4), and commits (R51 to R56). -/

namespace Sys2Proof.Machine
open Sys2Proof

/-- Settles O1: by the two cases of the queue, each of which `step` answers as it is defined. -/
theorem stepRunsFront : Obligations.StepRunsFront :=
  have hfront : ∀ (c : Instr) (rest : List Instr) (b : Blk), step ⟨c :: rest, b⟩ = exec c ⟨rest, b⟩ := fun _ _ _ => rfl
  have hidle : ∀ b : Blk, step ⟨[], b⟩ = .next ⟨[], b⟩ := fun _ => rfl
  ⟨hfront, hidle⟩

/-! ### What a commit write is answered (R51, R52, R56) -/

theorem Blk.commitSt_congr {a b : Blk} (h : a.commits = b.commits) (c : CBlk) : a.commitSt c = b.commitSt c := by
  simp [Blk.commitSt, h]

@[simp] theorem Blk.atPort_commitSt (b : Blk) (p : Path) (c : CBlk) : (b.atPort p).commitSt c = b.commitSt c :=
  Blk.commitSt_congr (by simp) c

@[simp] theorem settle_commitSt (a b : Blk) (c : CBlk) : (settle a b).commitSt c = b.commitSt c :=
  Blk.commitSt_congr (by simp) c

@[simp] theorem Blk.logE_commitSt (b : Blk) (k : Nat) (a : LogArg) (c : CBlk) : (b.logE k a).commitSt c = b.commitSt c :=
  Blk.commitSt_congr (by simp) c

theorem Blk.commitSt_setCommit (b : Blk) (c d : CBlk) (x : CommitSt) :
    (b.setCommit c x).commitSt d = if commitKey d = commitKey c then x else b.commitSt d := tget_tset _ _ _ _ _

@[simp] theorem Blk.commitSt_setCommit_same (b : Blk) (c : CBlk) (x : CommitSt) : (b.setCommit c x).commitSt c = x := by
  simp [Blk.commitSt_setCommit]

/-- R52, R56: the commit state of a block that has accepted a generation for the groups of a mask. -/
def Blk.acceptedCommit (b : Blk) (c : CBlk) (gen mask : Nat) : CommitSt :=
  { b.commitSt c with
    captured := (groupOffs c mask).map (fun o => (o, BitVec.ofNat 32 (b.reg (commitBase c + o))))
    pend := some (BitVec.ofNat 16 gen), groups := mask, result := 1, reason := 0 }

theorem bits_high16 {v : Nat} (h : v < 2 ^ 32) : bits v 31 16 = v / 65536 := by
  rw [bits, Nat.shiftRight_eq_div_pow, Nat.mod_eq_of_lt]
  omega

theorem bits_low16 (v : Nat) : bits v 15 0 = v % 65536 := rfl

theorem testBit_of_low16 {v g : Nat} (h : (v % 65536).testBit g = true) : v.testBit g = true := by
  rw [show 65536 = 2 ^ 16 from rfl, Nat.testBit_mod_two_pow, Bool.and_eq_true] at h
  exact h.2

theorem Blk.commitWrite_eq {v : Nat} (h : v < 2 ^ 32) (b : Blk) (c : CBlk) (path : Nat) :
    b.commitWrite c path v =
      if b.commitReason c (v / 65536) (v % 65536) = 0 then b.setCommit c (b.acceptedCommit c (v / 65536) (v % 65536))
      else (b.setCommit c { b.commitSt c with result := 2, reason := b.commitReason c (v / 65536) (v % 65536) }).logE
        kCOMMIT_REF { path := path, detail := b.commitReason c (v / 65536) (v % 65536) } := by
  simp only [Blk.commitWrite, bits_high16 h, bits_low16, bne_iff_ne, ne_eq, ite_not, Blk.acceptedCommit]

theorem mem_commitBlocks (c : CBlk) : c ∈ commitBlocks ↔
    (c = .window ∨ c = .power ∨ c = .net) ∨ (∃ k < 16, .stack k = c) ∨ ∃ q < 64, .queue q = c := by
  simp [commitBlocks, or_assoc]

/-- A write of the commit register of a block that the module has, by a path that reaches it, is a commit write. -/
theorem Blk.commitOver_eq {c : CBlk} (hc : c ∈ commitBlocks) {path : Nat} (hr : reaches path (commitBase c + 0x180) = true)
    {v : Nat} (hv : v < 2 ^ 32) (b : Blk) : b.commitOver c path v = b.commitWrite c path v := by
  rw [← Nat.mod_eq_of_lt hv]
  obtain (rfl | rfl | rfl) | ⟨k, hk, rfl⟩ | ⟨q, hq, rfl⟩ := (mem_commitBlocks c).1 hc
  · simp [Blk.commitOver, hr]
  · simp [Blk.commitOver, hr]
  · simp [Blk.commitOver, hr]
  · simp [Blk.commitOver, hr, hk]
  · simp [Blk.commitOver, hr, hq]

/-- What a commit write that is carried out at once leaves. -/
theorem commit_completes {s : State} {p : Path} {c : CBlk} {v : Nat} (hp : s.blk.pathOn p = true)
    (hr : reaches p.code (commitBase c + 0x180) = true) (hc : c ∈ commitBlocks) (hv : v < 2 ^ 32) {P : Blk → Prop}
    (hP : P (settle s.blk ((s.blk.atPort p).commitWrite c p.code v))) : Completes (.commit p c v) s P := by
  refine .of_bus (exec_commit s p c v) hp (Blk.carry_plain rfl) ?_
  rwa [show hostCmd (.commit p c v) (s.blk.atPort p) = (s.blk.atPort p).commitOver c p.code v from rfl,
    Blk.commitOver_eq hc hr hv]

section
variable {b : Blk} {c : CBlk} {gen mask : Nat}

theorem Blk.commitReason_applying (hl : b.lay.phase = .applying) : b.commitReason c gen mask = 4 := if_pos hl

/-- R52: outside step 4 of a load, a generation that is not the next one is the reason. -/
theorem Blk.commitReason_gen (hl : b.lay.phase ≠ .applying) (hg : gen ≠ ((b.commitSt c).gen.toNat + 1) % 65536) :
    b.commitReason c gen mask = 1 := by
  simp [Blk.commitReason, hl, hg]

theorem Blk.commitReason_pending (hl : b.lay.phase ≠ .applying) (hg : gen = ((b.commitSt c).gen.toNat + 1) % 65536)
    (hq : (b.commitSt c).pend ≠ none) : b.commitReason c gen mask = 2 := by
  simp [Blk.commitReason, hl, ← hg, Option.isSome_iff_ne_none.2 hq]

theorem Blk.commitReason_unknown (hl : b.lay.phase ≠ .applying) (hg : gen = ((b.commitSt c).gen.toNat + 1) % 65536)
    (hq : (b.commitSt c).pend = none) (hm : 2 ^ (commitGroups c).length ≤ mask) : b.commitReason c gen mask = 5 := by
  simp [Blk.commitReason, hl, ← hg, hq, hm]

/-- R52: what lets a commit write be accepted. -/
theorem Blk.commitReason_none (hl : b.lay.phase ≠ .applying) (hg : gen = ((b.commitSt c).gen.toNat + 1) % 65536)
    (hq : (b.commitSt c).pend = none) (hm : mask < 2 ^ (commitGroups c).length)
    (hok : ∀ g, g < (commitGroups c).length → mask.testBit g = true → b.groupOk c mask g = true) :
    b.commitReason c gen mask = 0 := by
  have hall : (List.range (commitGroups c).length).any (fun g => mask.testBit g && !b.groupOk c mask g) = false := by
    simpa [List.any_eq_false] using hok
  simp [Blk.commitReason, hl, ← hg, hq, hm, hall]

end

/-- R51, R52: a commit write that no reason refuses captures the shadows and is pending. -/
theorem commit_accepted {s : State} {p : Path} {c : CBlk} {v : Nat} (hp : s.blk.pathOn p = true)
    (hr : reaches p.code (commitBase c + 0x180) = true) (hc : c ∈ commitBlocks) (hv : v < 2 ^ 32)
    (h0 : (s.blk.atPort p).commitReason c (v / 65536) (v % 65536) = 0) :
    Completes (.commit p c v) s
      (EvFrame ((s.blk.atPort p).setCommit c (s.blk.acceptedCommit c (v / 65536) (v % 65536)))) := by
  refine commit_completes hp hr hc hv (EvFrame.of_eq ?_)
  rw [Blk.commitWrite_eq hv, if_pos h0]
  simp [Blk.acceptedCommit]

/-- R52, R56: a commit write that a reason refuses changes its commit state and the log. -/
theorem commit_refused {s : State} {p : Path} {c : CBlk} {v : Nat} (hp : s.blk.pathOn p = true)
    (hr : reaches p.code (commitBase c + 0x180) = true) (hc : c ∈ commitBlocks) (hv : v < 2 ^ 32)
    (hne : (s.blk.atPort p).commitReason c (v / 65536) (v % 65536) ≠ 0) :
    Completes (.commit p c v) s (fun b =>
      EvFrame (((s.blk.atPort p).setCommit c { s.blk.commitSt c with
          result := 2, reason := (s.blk.atPort p).commitReason c (v / 65536) (v % 65536) }).logE kCOMMIT_REF
        { path := p.code, detail := (s.blk.atPort p).commitReason c (v / 65536) (v % 65536) }) b
      ∧ (b.commitSt c).reason = (s.blk.atPort p).commitReason c (v / 65536) (v % 65536)) := by
  refine commit_completes hp hr hc hv ?_
  rw [Blk.commitWrite_eq hv, if_neg hne, Blk.atPort_commitSt]
  exact ⟨settle_frame _ _, by simp⟩

/-! ### The boundary at which commits take effect (R53) -/

/-- R53: a commit state once what it holds pending has taken effect. -/
def CommitSt.landed (x : CommitSt) : CommitSt :=
  match x.pend with
  | none => x
  | some g => { x with captured := [], gen := g, pend := none, groups := 0, result := 0, reason := 0 }

theorem CommitSt.landed_of_none {x : CommitSt} (h : x.pend = none) : x.landed = x := by simp [CommitSt.landed, h]

theorem CommitSt.landed_of_some {x : CommitSt} {g : BitVec 16} (h : x.pend = some g) :
    x.landed = { x with captured := [], gen := g, pend := none, groups := 0, result := 0, reason := 0 } := by
  simp [CommitSt.landed, h]

theorem CommitSt.pend_landed (x : CommitSt) : x.landed.pend = none := by
  cases h : x.pend with
  | none => rw [CommitSt.landed_of_none h, h]
  | some g => rw [CommitSt.landed_of_some h]

/-! #### What a boundary finds waiting -/

/-- Nothing waits at a channel: no request at its ports or in its queues, and no precharge. -/
def ChanSt.idle (x : ChanSt) : Bool := x.readQ.isEmpty && x.writeQ.isEmpty && x.portQ.isEmpty && x.closing.isEmpty

/-- What holds of every listed member and of the reset value holds of whatever is read. -/
theorem tget_of_all {α : Type} {p : α → Prop} {d : α} {t : Tbl α} (hd : p d) (ht : ∀ x ∈ t, p x.2) (k : Nat) :
    p (tget d k t) := by
  induction t with
  | nil => exact hd
  | cons x t ih =>
    have ⟨hx, ht⟩ := List.forall_mem_cons.1 ht
    unfold tget
    split
    · exact hx
    · exact ih ht

theorem Blk.chan_idle {b : Blk} (h : (b.chans.all fun x => x.2.idle) = true) (n : Nat) : (b.chan n).idle = true :=
  tget_of_all (p := fun x : ChanSt => x.idle = true) rfl (List.all_eq_true.1 h) n

theorem Blk.pump_of_idle {b : Blk} {ch : Nat} (h : (b.chan ch).idle = true) : b.pump ch = b := if_pos h

/-- A block in which a boundary finds nothing to do but to begin a budget period: no unit command, no operation, no
queued request, no write-back, no access and no capsule or factor waits, and no drain has ended. -/
structure Blk.NothingWaits (b : Blk) : Prop where
  units : b.cu.units = []
  cmds : b.cu.waiting = []
  jobs : b.cu.jobs = []
  fixes : b.mem.fixes = []
  chans : ∀ n, (b.chan n).idle = true
  capsule : b.sdg.capNext = none
  lower : b.sdg.lower = none
  held : b.held = []
  phase : b.lay.phase ≠ .draining

/-- What the beginning of a period may change: registers, the log, window marks, queue pairs, dies, the clock, the
channels but for what waits at them, and the channels whose scrub pass is late. -/
def PeriodFrame (a b : Blk) : Prop :=
  (∃ r l w q d p ch n, b = { a with
    regs := r, log := l, win := w, qps := q, dies := d, pwr := p, chans := ch, mem := { a.mem with scrubLate := n } })
  ∧ ((∀ n, (a.chan n).idle = true) → ∀ n, (b.chan n).idle = true)

theorem PeriodFrame.rfl' (b : Blk) : PeriodFrame b b := ⟨⟨_, _, _, _, _, _, _, _, rfl⟩, id⟩

theorem PeriodFrame.trans {a b c : Blk} (h : PeriodFrame a b) (g : PeriodFrame b c) : PeriodFrame a c := by
  obtain ⟨⟨r, l, w, q, d, p, ch, n, rfl⟩, hi⟩ := h
  obtain ⟨⟨r', l', w', q', d', p', ch', n', rfl⟩, gi⟩ := g
  exact ⟨⟨r', l', w', q', d', p', ch', n', rfl⟩, fun x => gi (hi x)⟩

/-- A frame is kept by a fold whose steps keep it. -/
theorem PeriodFrame.foldl {α : Type} {f : Blk → α → Blk} (h : ∀ b x, PeriodFrame b (f b x)) (l : List α) (b : Blk) :
    PeriodFrame b (l.foldl f b) :=
  List.foldlRecOn l f (motive := PeriodFrame b) (.rfl' b) (fun _ hx a _ => hx.trans (h _ a))

theorem PeriodFrame.ite {p : Prop} [Decidable p] {a b c : Blk} (h : PeriodFrame a b) (g : PeriodFrame a c) :
    PeriodFrame a (if p then b else c) := by split <;> assumption

theorem PeriodFrame.commits {a b : Blk} (h : PeriodFrame a b) : b.commits = a.commits := by
  obtain ⟨⟨_, _, _, _, _, _, _, _, rfl⟩, -⟩ := h
  rfl

theorem PeriodFrame.time {a b : Blk} (h : PeriodFrame a b) : b.time = a.time := by
  obtain ⟨⟨_, _, _, _, _, _, _, _, rfl⟩, -⟩ := h
  rfl

theorem PeriodFrame.flights {a b : Blk} (h : PeriodFrame a b) : b.flights = a.flights := by
  obtain ⟨⟨_, _, _, _, _, _, _, _, rfl⟩, -⟩ := h
  rfl

theorem PeriodFrame.cells {a b : Blk} (h : PeriodFrame a b) : b.mem.cells = a.mem.cells := by
  obtain ⟨⟨_, _, _, _, _, _, _, _, rfl⟩, -⟩ := h
  rfl

theorem PeriodFrame.setCommits {a b : Blk} (h : PeriodFrame a b) (cs : Tbl CommitSt) :
    PeriodFrame { a with commits := cs } { b with commits := cs } := by
  obtain ⟨⟨r, l, w, q, d, p, ch, n, rfl⟩, hi⟩ := h
  exact ⟨⟨r, l, w, q, d, p, ch, n, rfl⟩, hi⟩

theorem Blk.NothingWaits.mono {a b : Blk} (ha : a.NothingWaits) (h : PeriodFrame a b) : b.NothingWaits := by
  obtain ⟨⟨r, l, w, q, d, p, ch, n, rfl⟩, hi⟩ := h
  exact { ha with chans := hi ha.chans }

theorem Blk.setReg_periodFrame (b : Blk) (o v : Nat) : PeriodFrame b (b.setReg o v) := ⟨⟨_, _, _, _, _, _, _, _, rfl⟩, id⟩
theorem Blk.setDie_periodFrame (b : Blk) (k : Nat) (x : DieSt) : PeriodFrame b (b.setDie k x) :=
  ⟨⟨_, _, _, _, _, _, _, _, rfl⟩, id⟩
theorem Blk.setQp_periodFrame (b : Blk) (k : Nat) (x : QpSt) : PeriodFrame b (b.setQp k x) :=
  ⟨⟨_, _, _, _, _, _, _, _, rfl⟩, id⟩
theorem Blk.setPwr_periodFrame (b : Blk) (x : PwrSt) : PeriodFrame b (b.setPwr x) := ⟨⟨_, _, _, _, _, _, _, _, rfl⟩, id⟩

theorem Blk.logE_periodFrame (b : Blk) (k : Nat) (a : LogArg) : PeriodFrame b (b.logE k a) := by
  unfold Blk.logE
  split
  · exact ⟨⟨_, _, _, _, _, _, _, _, rfl⟩, id⟩
  · exact .rfl' b

/-- A channel may be replaced by one at which nothing waits that did not wait before. -/
theorem Blk.setChan_periodFrame {b : Blk} {k : Nat} {x : ChanSt} (h : (b.chan k).idle = true → x.idle = true) :
    PeriodFrame b (b.setChan k x) := by
  refine ⟨⟨_, _, _, _, _, _, _, _, rfl⟩, fun hi n => ?_⟩
  rw [Blk.chan_setChan]
  split
  · exact h (hi k)
  · exact hi n

/-! #### Each part of a boundary -/

theorem Blk.commitMore_periodFrame (b : Blk) (c : CBlk) (mask : Nat) : PeriodFrame b (b.commitMore c mask) := by
  cases c with
  | window => exact ⟨⟨_, _, _, _, _, _, _, _, rfl⟩, id⟩
  | power => exact .rfl' b
  | net => exact .rfl' b
  | queue q => exact .ite (Blk.setQp_periodFrame _ _ _) (.rfl' b)
  | stack k => exact .ite (.foldl (fun _ _ => Blk.setDie_periodFrame _ _ _) _ b) (.rfl' b)

/-- The values captured come into effect in their registers. -/
theorem Blk.landRegs_periodFrame (b : Blk) (base : Nat) (l : List (Nat × W32)) :
    PeriodFrame b (l.foldl (fun (b : Blk) p => b.setReg (base + p.1 + 0x800) p.2.toNat) b) :=
  .foldl (fun _ _ => Blk.setReg_periodFrame _ _ _) l b

theorem Blk.commitLand_of_none {b : Blk} {c : CBlk} (h : (b.commitSt c).pend = none) : b.commitLand c = b := by
  simp [Blk.commitLand, h]

/-- R53: what landing a commit leaves, where one is pending. -/
theorem Blk.commitLand_of_some {b : Blk} {c : CBlk} {g : BitVec 16} (h : (b.commitSt c).pend = some g) :
    PeriodFrame (b.setCommit c (b.commitSt c).landed) (b.commitLand c) := by
  have hregs := (Blk.landRegs_periodFrame b (commitBase c) (b.commitSt c).captured).setCommits
    (tset (commitKey c) (b.commitSt c).landed b.commits)
  refine hregs.trans ?_
  have hcommits := (Blk.landRegs_periodFrame b (commitBase c) (b.commitSt c).captured).commits
  have hland : b.commitLand c = Blk.commitMore
      { (b.commitSt c).captured.foldl (fun (b : Blk) p => b.setReg (commitBase c + p.1 + 0x800) p.2.toNat) b with
        commits := tset (commitKey c) (b.commitSt c).landed b.commits } c (b.commitSt c).groups := by
    rw [CommitSt.landed_of_some h, Blk.commitLand, h, ← hcommits]
    rfl
  rw [hland]
  exact Blk.commitMore_periodFrame _ _ _

theorem Blk.commitLand_periodFrame (b : Blk) (c : CBlk) : ∃ cs, PeriodFrame { b with commits := cs } (b.commitLand c) := by
  cases h : (b.commitSt c).pend with
  | none => exact ⟨b.commits, by rw [Blk.commitLand_of_none h]; exact .rfl' b⟩
  | some g => exact ⟨_, Blk.commitLand_of_some h⟩

/-- R53: commit states after one block's commit has taken effect. -/
theorem Blk.commitSt_commitLand (b : Blk) (c d : CBlk) :
    (b.commitLand c).commitSt d = if commitKey d = commitKey c then (b.commitSt d).landed else b.commitSt d := by
  have hkey : commitKey d = commitKey c → b.commitSt d = b.commitSt c := fun h => by rw [Blk.commitSt, h, Blk.commitSt]
  cases h : (b.commitSt c).pend with
  | none =>
    rw [Blk.commitLand_of_none h]
    split
    next hd => rw [CommitSt.landed_of_none (hkey hd ▸ h)]
    next => rfl
  | some g =>
    rw [Blk.commitSt_congr (Blk.commitLand_of_some h).commits, Blk.commitSt_setCommit]
    split
    next hd => rw [hkey hd]
    next => rfl

/-- R53: once it has taken effect, a commit is not changed by what takes effect after it. -/
theorem Blk.commitSt_foldl_commitLand_of_none {c : CBlk} (l : List CBlk) {b : Blk} (h : (b.commitSt c).pend = none) :
    (l.foldl Blk.commitLand b).commitSt c = b.commitSt c := by
  refine List.foldlRecOn l Blk.commitLand (motive := fun x => x.commitSt c = b.commitSt c) rfl (fun x hx d _ => ?_)
  rw [Blk.commitSt_commitLand, hx, CommitSt.landed_of_none h, ite_self]

theorem Blk.commitSt_foldl_commitLand {c : CBlk} {l : List CBlk} (hc : c ∈ l) (b : Blk) :
    (l.foldl Blk.commitLand b).commitSt c = (b.commitSt c).landed := by
  induction l generalizing b with
  | nil => cases hc
  | cons x t ih =>
    rw [List.foldl_cons]
    rcases List.mem_cons.1 hc with rfl | ht
    · have hst : (b.commitLand c).commitSt c = (b.commitSt c).landed := by simp [Blk.commitSt_commitLand]
      rw [Blk.commitSt_foldl_commitLand_of_none t (hst ▸ CommitSt.pend_landed _), hst]
    · rw [ih ht, Blk.commitSt_commitLand]
      split
      · rw [CommitSt.landed_of_none (CommitSt.pend_landed _)]
      · rfl

/-- R53: at a boundary the commit of every block takes effect. -/
theorem Blk.commitSt_commitAll {c : CBlk} (hc : c ∈ commitBlocks) (b : Blk) :
    b.commitAll.commitSt c = (b.commitSt c).landed := Blk.commitSt_foldl_commitLand hc b

theorem Blk.commitAll_periodFrame (b : Blk) : ∃ cs, PeriodFrame { b with commits := cs } b.commitAll := by
  refine List.foldlRecOn commitBlocks Blk.commitLand (motive := fun x => ∃ cs, PeriodFrame { b with commits := cs } x)
    ⟨b.commits, .rfl' b⟩ ?_
  rintro x ⟨_, hx⟩ c -
  obtain ⟨cs, hcs⟩ := Blk.commitLand_periodFrame x c
  exact ⟨cs, (hx.setCommits cs).trans hcs⟩

theorem ChanSt.idle_loaded (x : ChanSt) (new : List Nat) : (x.loaded new).idle = x.idle := rfl

theorem Blk.loadCounters_periodFrame (b : Blk) : PeriodFrame b b.loadCounters :=
  .foldl (fun x k => .foldl (fun y _ => .ite (.rfl' y)
    (Blk.setChan_periodFrame (fun h => (ChanSt.idle_loaded _ (x.reload k)).trans h))) _ x) _ b

theorem Blk.allowAll_periodFrame (b : Blk) : PeriodFrame b b.allowAll :=
  .foldl (fun x _ => .ite (.rfl' x) (Blk.setDie_periodFrame _ _ _)) _ b

theorem Blk.clockStep_periodFrame (b : Blk) (margin : Nat) : PeriodFrame b (b.clockStep margin) := by
  unfold Blk.clockStep
  dsimp only
  repeat' apply PeriodFrame.ite
  all_goals first | exact .rfl' b | exact Blk.setPwr_periodFrame b _

theorem Blk.scrubLates_periodFrame (b : Blk) : PeriodFrame b b.scrubLates := by
  refine .foldl (fun x ch => .ite ?_ (.rfl' x)) _ b
  have hlate : PeriodFrame x { x with mem := { x.mem with scrubLate := ch :: x.mem.scrubLate } } :=
    ⟨⟨_, _, _, _, _, _, _, _, rfl⟩, id⟩
  exact (hlate.trans (Blk.logE_periodFrame _ _ _)).trans (Blk.setReg_periodFrame _ _ _)

/-! #### The parts of a boundary that find nothing to do -/

section
variable {b : Blk} (h : b.NothingWaits)
include h

theorem Blk.NothingWaits.capLand : b.capLand = b := by simp [Blk.capLand, h.capsule]
theorem Blk.NothingWaits.lowerFactors : b.lowerFactors = b := by simp [Blk.lowerFactors, h.lower]
theorem Blk.NothingWaits.slotRound : b.slotRound = b := by simp [Blk.slotRound, h.units]
theorem Blk.NothingWaits.sweep : b.sweep = b := by simp [Blk.sweep, h.cmds, h.jobs]
theorem Blk.NothingWaits.writeBacks : b.writeBacks = b := by simp [Blk.writeBacks, h.fixes]
theorem Blk.NothingWaits.releaseHeld : b.releaseHeld = b := by simp [Blk.releaseHeld, h.held]

theorem Blk.NothingWaits.pumpAll : b.pumpAll = b :=
  List.foldlRecOn _ Blk.pump (motive := fun x => x = b) rfl (fun _ hx ch _ => by rw [hx, Blk.pump_of_idle (h.chans ch)])

end

/-- R53, R90, R98, R110, R376: a boundary that finds nothing waiting lands the commits, loads the counters and the
allowances, moves the clock and looks at the scrub passes. -/
theorem Blk.boundary_periodFrame {b : Blk} (ht : b.ticking = true) (h : b.NothingWaits) (margin : Nat) :
    PeriodFrame ({ b with time := b.time + 1 } : Blk).commitAll (b.boundary margin) := by
  obtain ⟨cs, hcs⟩ := Blk.commitAll_periodFrame { b with time := b.time + 1 }
  have h0 : Blk.NothingWaits { b with time := b.time + 1, commits := cs } := { h with }
  have h1 := h0.mono hcs
  have hload := Blk.loadCounters_periodFrame ({ b with time := b.time + 1 } : Blk).commitAll
  have hallow := hload.trans (Blk.allowAll_periodFrame _)
  have hlate := (hallow.trans (Blk.clockStep_periodFrame _ margin)).trans (Blk.scrubLates_periodFrame _)
  have hidle : ({ b with time := b.time + 1 } : Blk).commitAll.lay.phase ≠ .draining := h1.phase
  have h3 := h1.mono hallow
  have h5 := h1.mono hlate
  simp only [Blk.boundary, ht, h1.capLand, h1.lowerFactors, hidle, h3.slotRound, h3.sweep, h5.writeBacks, h5.pumpAll,
    h5.releaseHeld, Bool.not_true, Bool.false_eq_true, decide_false, Bool.false_and, if_false]
  exact hlate

/-- Settles O13: a commit write is refused exactly where it has a reason, and a boundary that finds nothing waiting
lands every commit and changes nothing that it names beside. -/
theorem commits : Obligations.Commits := by
  refine ⟨?accepted, ?refused, ?empty, ?stopped, ?boundary⟩
  case accepted =>
    intro s p c v hp hr hc hv hg hq hl hm hok
    exact commit_accepted hp hr hc hv (Blk.commitReason_none (by simpa using hl) (by simpa using hg) (by simpa using hq)
      hm fun g hlt hb => hok g hlt (testBit_of_low16 hb))
  case refused =>
    intro s p c v hp hr hc hv hne
    obtain ⟨t, ht, hpend, hframe, hreason⟩ := commit_refused hp hr hc hv hne
    refine ⟨t, ht, hpend, hframe, fun hl => ?_, fun hl hg => ?_, fun hl hg hq => ?_, fun hg hq hl hm => ?_⟩
    · rw [hreason, Blk.commitReason_applying (by simpa using hl)]
    · rw [hreason, Blk.commitReason_gen (by simpa using hl) (by simpa using hg)]
    · rw [hreason, Blk.commitReason_pending (by simpa using hl) (by simpa using hg) (by simpa using hq)]
    · rw [hreason, Blk.commitReason_unknown (by simpa using hl) (by simpa using hg) (by simpa using hq) hm]
  case empty =>
    intro s p c v hp hr hc hv h0 hg hq hl
    have haccept := commit_accepted hp hr hc hv (Blk.commitReason_none (by simpa using hl) (by simpa using hg)
      (by simpa using hq) (h0 ▸ Nat.two_pow_pos _) (by simp [h0]))
    rwa [h0] at haccept
  case stopped =>
    intro s m ht
    exact .frame (exec_budgetPeriodBoundary s m) (by simp [Blk.boundary, ht])
  case boundary =>
    intro s m c g ht hu hw hj hf hch hcap hlow hheld hlay hc hq
    have hnone : s.blk.NothingWaits :=
      ⟨hu, hw, hj, hf, Blk.chan_idle hch, hcap, hlow, hheld, hlay⟩
    refine .of_act (exec_budgetPeriodBoundary s m) ?_
    have hframe := Blk.boundary_periodFrame ht hnone m
    have hst : (s.blk.boundary m).commitSt c = (s.blk.commitSt c).landed :=
      (Blk.commitSt_congr hframe.commits c).trans (Blk.commitSt_commitAll hc _)
    rw [CommitSt.landed_of_some hq] at hst
    obtain ⟨cs, hall⟩ := Blk.commitAll_periodFrame { s.blk with time := s.blk.time + 1 }
    rw [settle_time, settle_commitSt, settle_flights, settle_mem, hst, hframe.time, hframe.flights, hframe.cells, hall.time,
      hall.flights, hall.cells]
    exact ⟨rfl, rfl, rfl, rfl, rfl, rfl⟩

end Sys2Proof.Machine
end

section
/-! Proofs: loads of layout images and their flash copies (R42 to R49). -/

namespace Sys2Proof.Machine
open Sys2Proof

/-! ### What a load leaves alone once its image is settled: fetching that resumes and links that retrain -/

/-- A change outside the layout engine: of registers outside its block, the log, what is sent, queue pairs, entries in
flight and the fabric. -/
def OffLayout (a b : Blk) : Prop :=
  (∃ r l m q f n, b = { a with regs := r, log := l, sent := m, qps := q, flights := f, fab := n })
  ∧ ∀ o, bLAYOUT ≤ o → o < bPOWER → b.reg o = a.reg o

theorem OffLayout.rfl' (b : Blk) : OffLayout b b := ⟨⟨_, _, _, _, _, _, rfl⟩, fun _ _ _ => rfl⟩

theorem OffLayout.trans {a b c : Blk} (h : OffLayout a b) (g : OffLayout b c) : OffLayout a c := by
  obtain ⟨⟨r, l, m, q, f, n, rfl⟩, hr⟩ := h
  obtain ⟨⟨r', l', m', q', f', n', rfl⟩, gr⟩ := g
  exact ⟨⟨r', l', m', q', f', n', rfl⟩, fun o ho ho' => (gr o ho ho').trans (hr o ho ho')⟩

theorem OffLayout.ite {p : Prop} [Decidable p] {a b c : Blk} (h : OffLayout a b) (g : OffLayout a c) :
    OffLayout a (if p then b else c) := by split <;> assumption

/-- The frame is kept by a fold whose steps keep it. -/
theorem OffLayout.foldl {α : Type} {f : Blk → α → Blk} {l : List α} (h : ∀ b, ∀ x ∈ l, OffLayout b (f b x)) (b : Blk) :
    OffLayout b (l.foldl f b) :=
  List.foldlRecOn l f (motive := OffLayout b) (.rfl' b) (fun c hc x hx => hc.trans (h c x hx))

theorem OffLayout.getD {b : Blk} {o : Option Blk} (h : ∀ c, o = some c → OffLayout b c) : OffLayout b (o.getD b) := by
  cases o with
  | none => exact .rfl' b
  | some c => exact h c rfl

section
variable {a b : Blk} (h : OffLayout a b)
include h

theorem OffLayout.lay : b.lay = a.lay := by obtain ⟨⟨_, _, _, _, _, _, rfl⟩, -⟩ := h; rfl
theorem OffLayout.struc : b.struc = a.struc := by obtain ⟨⟨_, _, _, _, _, _, rfl⟩, -⟩ := h; rfl
theorem OffLayout.mem : b.mem = a.mem := by obtain ⟨⟨_, _, _, _, _, _, rfl⟩, -⟩ := h; rfl
theorem OffLayout.held : b.held = a.held := by obtain ⟨⟨_, _, _, _, _, _, rfl⟩, -⟩ := h; rfl
theorem OffLayout.reg {o : Nat} (hlo : bLAYOUT ≤ o) (hhi : o < bPOWER) : b.reg o = a.reg o := h.2 o hlo hhi

end

/-- The block with another state of the layout engine. -/
def Blk.withLay (b : Blk) (x : LaySt) : Blk := { b with lay := x }

section
variable (b : Blk) (x : LaySt)

@[simp] theorem Blk.withLay_lay : (b.withLay x).lay = x := rfl
@[simp] theorem Blk.withLay_reg (o : Nat) : (b.withLay x).reg o = b.reg o := rfl
@[simp] theorem Blk.withLay_struc : (b.withLay x).struc = b.struc := rfl
@[simp] theorem Blk.withLay_commits : (b.withLay x).commits = b.commits := rfl
@[simp] theorem Blk.withLay_mem : (b.withLay x).mem = b.mem := rfl
@[simp] theorem Blk.withLay_held : (b.withLay x).held = b.held := rfl
@[simp] theorem Blk.withLay_pwr : (b.withLay x).pwr = b.pwr := rfl
@[simp] theorem Blk.withLay_flights : (b.withLay x).flights = b.flights := rfl

end

section
variable (b : Blk) (k l q seq v : Nat) (m : Msg) (x : LinkSt) (y : QpSt) (p : Packet) (t : Txn) (fab : FabSt)
  (g : Flight → Flight) (d : Option Nat)

/-! #### Updates of the state -/

theorem Blk.setReg_offLayout {off : Nat} (h : off < bLAYOUT ∨ bPOWER ≤ off) : OffLayout b (b.setReg off v) :=
  ⟨⟨_, _, _, _, _, _, rfl⟩, fun _ _ _ => Blk.reg_setReg_other b v (by omega)⟩

theorem Blk.incReg_eq_setReg (off : Nat) : b.incReg off = b.setReg off (satInc (BitVec.ofNat 32 (b.reg off))).toNat := by
  rw [Blk.incReg, Blk.setReg, BitVec.ofNat_toNat, BitVec.setWidth_eq]

theorem Blk.fabEvent_offLayout : OffLayout b (b.fabEvent k) := Blk.setReg_offLayout b _ (.inr (by decide))

theorem Blk.qpEvent_offLayout {q : Nat} (hq : q < 64) : OffLayout b (b.qpEvent q k) :=
  Blk.setReg_offLayout b _ (.inl (by simp only [oQP_EVENTS, bQP, bQUEUES, bLAYOUT]; omega))

theorem Blk.send_offLayout : OffLayout b (b.send m) := ⟨⟨_, _, _, _, _, _, rfl⟩, fun _ _ _ => rfl⟩
theorem Blk.setQp_offLayout : OffLayout b (b.setQp k y) := ⟨⟨_, _, _, _, _, _, rfl⟩, fun _ _ _ => rfl⟩
theorem Blk.setFab_offLayout : OffLayout b { b with fab := fab } := ⟨⟨_, _, _, _, _, _, rfl⟩, fun _ _ _ => rfl⟩
theorem Blk.setLink_offLayout : OffLayout b (b.setLink k x) := Blk.setFab_offLayout b _
theorem Blk.updFlight_offLayout : OffLayout b (b.updFlight q seq g) := ⟨⟨_, _, _, _, _, _, rfl⟩, fun _ _ _ => rfl⟩

theorem Blk.logE_offLayout (kind : Nat) (e : LogArg) : OffLayout b (b.logE kind e) := by
  unfold Blk.logE
  exact .ite ⟨⟨_, _, _, _, _, _, rfl⟩, fun _ _ _ => rfl⟩ (.rfl' b)

/-! #### Fetching that resumes (R45) -/

theorem Blk.startFetch_offLayout : OffLayout b (b.startFetch q) := by
  unfold Blk.startFetch
  dsimp only
  split
  · exact .rfl' b
  · exact .ite (.rfl' b) (.ite (Blk.setQp_offLayout _ _ _) ((Blk.setQp_offLayout _ _ _).trans (Blk.send_offLayout _ _)))

theorem Blk.ring_offLayout {q : Nat} (hq : q < 64) (path : Nat) (v : W32) : OffLayout b (b.ring q path v) := by
  unfold Blk.ring
  dsimp only
  refine .ite (Blk.qpEvent_offLayout b 3 hq) (.ite (Blk.setQp_offLayout _ _ _) (.ite (.rfl' b) (.ite ?_ (.ite (.rfl' b) ?_))))
  · exact (Blk.logE_offLayout b _ _).trans (Blk.qpEvent_offLayout _ 1 hq)
  · exact (Blk.setQp_offLayout _ _ _).trans (Blk.startFetch_offLayout _ _)

theorem Blk.replay_offLayout {q : Nat} (hq : q < 64) : OffLayout b (b.replay q) :=
  ((Blk.setQp_offLayout b _ _).trans (.foldl (fun c _ _ => Blk.ring_offLayout c hq _ _) _)).trans
    (Blk.startFetch_offLayout _ _)

theorem Blk.resumeFetch_offLayout : OffLayout b b.resumeFetch :=
  .foldl (fun c _ hq => Blk.replay_offLayout c (List.mem_range.1 hq)) b

/-! #### Packets that leave (R329, R340 to R342) -/

theorem Blk.sendOn_offLayout : OffLayout b (b.sendOn l p) := by
  unfold Blk.sendOn
  exact .ite ((Blk.setLink_offLayout _ _ _).trans (Blk.send_offLayout _ _)) (Blk.setLink_offLayout _ _ _)

variable {b p d} in
theorem Blk.forward_offLayout {c : Blk} (h : b.forward p d = some c) : OffLayout b c := by
  unfold Blk.forward at h
  dsimp only at h
  split at h
  · cases h
  · injection h with h
    exact h ▸ Blk.sendOn_offLayout _ _ _

variable {b p} in
theorem Blk.originate_offLayout {c : Blk} (h : b.originate p = some c) : OffLayout b c := by
  unfold Blk.originate at h
  split at h
  · cases h
  · exact Blk.forward_offLayout h

theorem Blk.flood_offLayout : OffLayout b (b.flood p d) :=
  .foldl (fun c _ _ => .ite (Blk.sendOn_offLayout c _ _) (.rfl' c)) b

theorem Blk.report_offLayout (live : Bool) : OffLayout b (b.report k live) :=
  (Blk.setFab_offLayout b _).trans (Blk.flood_offLayout _ _ _)

theorem Blk.checkBundles_offLayout : OffLayout b b.checkBundles := by
  refine .foldl (fun c k _ => .ite ?_ (.ite ?_ (.rfl' c))) b
  · exact ((Blk.setFab_offLayout c _).trans (Blk.report_offLayout _ _ _)).trans (Blk.fabEvent_offLayout _ _)
  · exact (Blk.setFab_offLayout c _).trans (Blk.report_offLayout _ _ _)

/-! #### Requests of entries that end on a lost link (R335, R344) -/

/-- The block that a request leaves; one that finds no number leaves it as it is. -/
def ReqRes.blk (r : ReqRes) (b : Blk) : Blk :=
  match r with
  | .sent c => c
  | .noPath c => c
  | .noTxn => b

theorem Blk.request_offLayout (typ dst addr arg sub : Nat) (data : Bytes) :
    OffLayout b ((b.request q seq typ dst addr arg sub data).blk b) := by
  unfold Blk.request
  split
  next => exact .rfl' b
  next =>
    dsimp only
    split
    next => exact Blk.incReg_eq_setReg b _ ▸ Blk.setReg_offLayout b _ (.inr (by decide))
    next c hc => exact ((Blk.originate_offLayout hc).trans (Blk.setFab_offLayout c _)).trans (Blk.updFlight_offLayout _ _ _ _)

theorem Blk.sendOut_offLayout (ws : List (Nat × Bytes)) : OffLayout b (b.sendOut q seq ws) := by
  induction ws generalizing b with
  | nil => exact Blk.updFlight_offLayout _ _ _ _
  | cons w t ih =>
    obtain ⟨addr, data⟩ := w
    have hreq := Blk.request_offLayout b q seq 0x02 (haModule addr) addr data.length 0 data
    unfold Blk.sendOut
    split
    next c hc => exact ((hc ▸ hreq).trans (Blk.updFlight_offLayout c _ _ _)).trans (ih _)
    next c hc => exact (hc ▸ hreq).trans (Blk.updFlight_offLayout c _ _ _)
    next => exact Blk.updFlight_offLayout _ _ _ _

theorem Blk.endTxn_offLayout : OffLayout b (b.endTxn t) := by
  have hend : OffLayout b (({ b with fab := { b.fab with txns := b.fab.txns.filter (fun x => x.num != t.num) } } : Blk).updFlight
      t.q t.seq (fun f => { f with txns := f.txns.filter (· != t.num) })) :=
    (Blk.setFab_offLayout b _).trans (Blk.updFlight_offLayout _ _ _ _)
  unfold Blk.endTxn
  dsimp only
  split
  · exact hend
  · exact hend.trans (Blk.sendOut_offLayout _ _ _ _)

theorem Blk.naked_offLayout : OffLayout b (b.naked t) := by
  rw [Blk.naked, Blk.incReg_eq_setReg]
  exact ((Blk.updFlight_offLayout b _ _ _).trans (Blk.endTxn_offLayout _ _)).trans (Blk.setReg_offLayout _ _ (.inr (by decide)))

theorem Blk.routeNak_offLayout (sub : Nat) : OffLayout b (b.routeNak p sub) := by
  unfold Blk.routeNak
  split
  · split
    · exact .rfl' b
    · exact Blk.naked_offLayout _ _
  · exact .getD fun _ h => Blk.originate_offLayout h

variable {b p} in
theorem Blk.again_offLayout {c : Blk} (h : b.again l p = some c) : OffLayout b c := by
  unfold Blk.again at h
  split at h
  · injection h with h
    exact h ▸ .rfl' b
  · split at h
    · exact Blk.originate_offLayout h
    · exact Blk.forward_offLayout h

theorem Blk.afterLoss_offLayout : OffLayout b (b.afterLoss l p) :=
  .ite (.getD fun _ h => Blk.again_offLayout l h) (Blk.routeNak_offLayout _ _ _)

theorem Blk.move_offLayout : OffLayout b (b.move l p) := by
  unfold Blk.move
  split
  next h => exact Blk.again_offLayout l h
  next => exact .ite (.rfl' b) (Blk.routeNak_offLayout _ _ _)

/-! #### Links that go down and retrain (R324, R344) -/

theorem Blk.linkDown_offLayout : OffLayout b (b.linkDown l) := by
  unfold Blk.linkDown
  dsimp only
  refine .ite (.rfl' b) ?_
  refine .trans ?_ (.foldl (fun c _ _ => Blk.move_offLayout c _ _) _)
  refine .trans ?_ (.foldl (fun c _ _ => Blk.afterLoss_offLayout c _ _) _)
  refine .trans ?_ (Blk.checkBundles_offLayout _)
  have hdown := fun z => Blk.setLink_offLayout b l z
  exact .ite ((hdown _).trans (Blk.fabEvent_offLayout _ _)) (hdown _)

theorem Blk.linkStart_offLayout : OffLayout b (b.linkStart l) := .ite (.rfl' b) (Blk.setLink_offLayout _ _ _)

theorem Blk.retrain_offLayout : OffLayout b (b.retrain l) :=
  ((Blk.linkDown_offLayout b l).trans (Blk.setLink_offLayout _ _ _)).trans (Blk.linkStart_offLayout _ _)

theorem Blk.linkOff_offLayout : OffLayout b (b.linkOff l) :=
  (Blk.linkDown_offLayout b l).trans (Blk.setLink_offLayout _ _ _)

/-- R44 step 5: the links whose LINK entry changed retrain, or go off, and nothing of the load waits for them. -/
theorem Blk.layRelink_offLayout {b : Blk} (h : b.lay.phase = .idle) :
    OffLayout (b.withLay { b.lay with changedLinks := [] }) b.layRelink := by
  unfold Blk.layRelink
  simp only [h, bne_self_eq_false, Bool.false_eq_true, if_false]
  exact .foldl (fun c _ _ => .ite (Blk.retrain_offLayout c _) (Blk.linkOff_offLayout c _)) _

end

@[simp] theorem Blk.atPort_struc (b : Blk) (p : Path) : (b.atPort p).struc = b.struc := by cases p <;> rfl

/-! ### The steps of a load (R42 to R45, R48) -/

theorem Blk.laySrc_eq {a b : Blk} (h : ∀ o, o ≠ oLAY_CTRL → b.reg o = a.reg o) : b.laySrc = a.laySrc := by
  rw [Blk.laySrc, Blk.laySrc, Blk.reg64, Blk.reg64, h _ (by decide), h _ (by decide)]

theorem Blk.layLen_eq {a b : Blk} (h : ∀ o, o ≠ oLAY_CTRL → b.reg o = a.reg o) : b.layLen = a.layLen := by
  rw [Blk.layLen, Blk.layLen, h _ (by decide)]

/-- R360: what returns the module to RUN changes registers and the power state. -/
theorem Blk.toRun_frame {b : Blk} (h : b.pwr.state = .run ∨ b.pwr.state = .doze) :
    ∃ r p, b.toRun = { b with regs := r, pwr := p } ∧ p.state = .run := by
  unfold Blk.toRun
  split
  next => exact ⟨_, _, rfl, rfl⟩
  next hd => exact ⟨_, _, rfl, h.resolve_right hd⟩

/-- R44 step 1: what a write of LAY_CTRL that asks for a load meets to begin one. -/
structure Blk.LoadBegins (b : Blk) : Prop where
  idle : b.lay.phase = .idle
  aligned : b.laySrc % 64 = 0
  notShort : 64 ≤ b.layLen
  notLong : b.layLen ≤ 4194304
  guarded : b.struc.inGuarded b.laySrc b.layLen = true

theorem Blk.layCtrl_begins {b : Blk} (h : b.LoadBegins) {v : Nat} (hv : v.testBit 0 = true) :
    b.layCtrl v = (b.putReg oLAY_CTRL 6 v).toRun.withLay { (b.putReg oLAY_CTRL 6 v).toRun.lay with
      phase := .copying, keys := (b.putReg oLAY_CTRL 6 v).toRun.opKeys, cand := none, drained := false } := by
  have hreg : ∀ o, o ≠ oLAY_CTRL → (b.putReg oLAY_CTRL 6 v).reg o = b.reg o := fun _ ho => Blk.reg_setReg_other b _ ho
  have hidle : (b.putReg oLAY_CTRL 6 v).lay.phase = .idle := h.idle
  have hguard : (b.putReg oLAY_CTRL 6 v).struc.inGuarded b.laySrc b.layLen = true := h.guarded
  simp only [Blk.layCtrl, hv, hidle, Blk.laySrc_eq hreg, Blk.layLen_eq hreg, h.aligned, Nat.not_lt.2 h.notShort,
    Nat.not_lt.2 h.notLong, hguard, Bool.not_true, bne_self_eq_false, decide_false, Bool.or_self, Bool.false_eq_true,
    if_false, Blk.withLay]

theorem Blk.LoadBegins.atPort {b : Blk} (h : b.LoadBegins) (p : Path) : (b.atPort p).LoadBegins := by
  cases p with
  | host => exact { h with }
  | _ => exact h

theorem MemFrame.lay {a b : Blk} (h : MemFrame a b) : b.lay = a.lay := by
  obtain ⟨⟨_, _, _, _, rfl⟩, -⟩ := h
  rfl

/-- R44 step 1: the end of a copy whose range need not wait and reads without an error. -/
theorem Blk.layCopied_eq {b : Blk} (hph : b.lay.phase = .copying) (hw : b.mustWait cHub b.laySrc b.layLen = false)
    (hst : (readRange b rqLay b.laySrc b.layLen).st = stOK) :
    b.layCopied = (readRange b rqLay b.laySrc b.layLen).b.withLay { (readRange b rqLay b.laySrc b.layLen).b.lay with
      phase := .verifying, buf := (readRange b rqLay b.laySrc b.layLen).data } := by
  simp [Blk.layCopied, hph, hw, hst, Blk.withLay]

/-- R44 steps 2 and 3: an image that a check refuses. -/
theorem Blk.layVerified_refused {b : Blk} (hph : b.lay.phase = .verifying) {r : Rej}
    (hr : imageCheck (b.imgCtx b.lay.keys true) b.lay.buf b.lay.buf.length = some r) :
    b.layVerified = (b.withLay { b.lay with phase := .idle, buf := [] }).layReject r := by
  simp [Blk.layVerified, hph, hr, Blk.withLay]

/-- R44 steps 2 and 3: an image that every check passes. -/
theorem Blk.layVerified_passed {b : Blk} (hph : b.lay.phase = .verifying)
    (hr : imageCheck (b.imgCtx b.lay.keys true) b.lay.buf b.lay.buf.length = none) :
    b.layVerified = b.withLay { b.lay with phase := .draining, cand := some (strucOf b.lay.buf), drained := false } := by
  simp [Blk.layVerified, hph, hr, Blk.withLay]

theorem Blk.layDrained_eq {b : Blk} (hph : b.lay.phase = .draining) (hf : b.flights = []) :
    b.layDrained = b.withLay { b.lay with drained := true } := by
  simp [Blk.layDrained, hph, hf, Blk.withLay]

/-- R45: the drain time ends first, and drain_abort is 0. -/
theorem Blk.layTimeout_eq {b : Blk} (hph : b.lay.phase = .draining) (hf : b.flights ≠ [])
    (hab : (b.reg oLAY_CTRL).testBit 1 = false) :
    b.layTimeout
      = ((b.withLay { b.lay with phase := .idle, buf := [], cand := none }).layReject (.plain 0x31)).resumeFetch := by
  simp [Blk.layTimeout, hph, hf, hab, Blk.withLay]

/-- R44 step 6: the load ends, a flash write begins where LAY_CTRL asks for one, and fetching resumes. -/
theorem Blk.layDone_offLayout {b : Blk} (hph : b.lay.phase = .applying) :
    ∃ w, OffLayout ((b.withLay { b.lay with phase := .idle, cand := none, persisting := w }).layEvent 0) b.layDone := by
  unfold Blk.layDone
  simp only [hph, bne_self_eq_false, Bool.false_eq_true, if_false]
  exact ⟨_, Blk.resumeFetch_offLayout _⟩

/-! #### What a refusal leaves (R42, R43) -/

section
variable (b : Blk) (r : Rej)

@[simp] theorem Blk.layReject_lay : (b.layReject r).lay = b.lay := by simp [Blk.layReject]
@[simp] theorem Blk.layReject_struc : (b.layReject r).struc = b.struc := by simp [Blk.layReject]
@[simp] theorem Blk.layReject_mem : (b.layReject r).mem = b.mem := by simp [Blk.layReject]
@[simp] theorem Blk.layReject_commits : (b.layReject r).commits = b.commits := by simp [Blk.layReject]

theorem Blk.testBit_orReg (off : Nat) {i : Nat} (hi : i < 32) : ((b.orReg off (2 ^ i)).reg off).testBit i = true := by
  rw [Blk.reg_orReg_same _ _ _ (Nat.pow_lt_pow_right (by decide) hi), Nat.testBit_or, Nat.testBit_two_pow_self, Bool.or_true]

theorem Blk.layReject_reason : (b.layReject r).reg (bLAYOUT + 0x20) = (r.reason + 256 * (r.sec % 256)) % 2 ^ 32 := by
  rw [Blk.layReject, Blk.logE_reg, Blk.layEvent_eq, Blk.reg_orReg_other _ _ (by decide), Blk.reg_setReg_other _ _ (by decide),
    Blk.reg_setReg_same]

theorem Blk.layReject_offset : (b.layReject r).reg (bLAYOUT + 0x24) = r.off % 2 ^ 32 := by
  rw [Blk.layReject, Blk.logE_reg, Blk.layEvent_eq, Blk.reg_orReg_other _ _ (by decide), Blk.reg_setReg_same]

theorem Blk.layReject_event : ((b.layReject r).reg oLAY_EVENTS).testBit 1 = true := by
  rw [Blk.layReject, Blk.logE_reg, Blk.layEvent_eq]
  exact Blk.testBit_orReg _ _ (by decide)

variable {b} in
theorem Blk.lastLog_layReject {a : Blk} (hl : b.log = a.log) (h : b.logUp = true) :
    LastLog a (b.layReject r) kLAYOUT_REJ r.reason := by
  unfold Blk.layReject
  exact Blk.lastLog_logE (by simpa using hl) (by simpa [Blk.logUp] using h) kLAYOUT_REJ { detail := r.reason }

end

/-! #### Flash copies (R49) -/

/-- R49: a finished flash write replaces the older copy. -/
theorem Blk.layPersist_ok {b : Blk} {g : Nat} {img : Bytes} (h : b.lay.persisting = some (g, img)) :
    ∃ ok0 ok1, b.layPersist true = (b.withLay { b.lay with
      persisting := none
      copy0 := if b.lay.olderIs0 then some (g, img) else b.lay.copy0
      copy1 := if b.lay.olderIs0 then b.lay.copy1 else some (g, img)
      ok0 := ok0, ok1 := ok1
      floorGen := max b.lay.floorGen g }).layEvent 2 := by
  unfold Blk.layPersist
  rw [h]
  exact ⟨_, _, rfl⟩

/-- R49: a failed flash write leaves the copies as they are. -/
theorem Blk.layPersist_failed {b : Blk} {w : Nat × Bytes} (h : b.lay.persisting = some w) :
    b.layPersist false = (b.withLay { b.lay with persisting := none }).layEvent 3 := by
  simp [Blk.layPersist, h, Blk.withLay]

/-- Settles O14: step by step, from what each command of the layout engine leaves. -/
theorem layoutLoads : Obligations.LayoutLoads := by
  refine ⟨?load, ?copied, ?verified, ?drained, ?timeout, ?applied, ?persisted, ?failed⟩
  case load =>
    intro s p v hp hr hv hrun hidle hal hshort hlong hguard
    have hbegin : s.blk.LoadBegins := ⟨hidle, hal, hshort, hlong, hguard⟩
    have hcmd : hostCmd (.layLoad p v) (s.blk.atPort p) = (s.blk.atPort p).layCtrl v := if_pos hr
    refine .of_bus (exec_layLoad s p v) hp (Blk.carry_plain rfl) ?_
    rw [hcmd, Blk.layCtrl_begins (hbegin.atPort p) hv]
    obtain ⟨r, x, hto, hx⟩ := Blk.toRun_frame (b := (s.blk.atPort p).putReg oLAY_CTRL 6 v) (by simpa using hrun)
    rw [hto]
    exact ⟨by simp [Blk.opKeys], by simp, by simp, by simpa using hx, by simp⟩
  case copied =>
    intro s hu hph hw hst
    refine .of_hub (exec_layCopyDone s) hu ?_
    rw [settle_lay, Blk.layCopied_eq hph hw hst, Blk.withLay_lay, (readRange_memFrame _ _ _ _).lay]
  case verified =>
    intro s hu hph
    refine .of_hub (exec_layVerifyDone s) hu ?_
    split
    next r hr =>
      rw [Blk.layVerified_refused hph hr]
      refine ⟨by simp, by simp, by simp, by simp, ?_, ?_, ?_, fun hl => ?_⟩
      · rw [settle_reg, Blk.layReject_reason]
      · rw [settle_reg, Blk.layReject_offset]
      · rw [settle_reg, Blk.layReject_event]
      · exact LastLog.settle (Blk.lastLog_layReject r rfl hl)
    next hr =>
      rw [Blk.layVerified_passed hph hr]
      exact ⟨settle_lay _ _, settle_struc _ _, settle_regs _ _⟩
  case drained =>
    intro s hu hph hf
    refine .of_hub (exec_layDrainDone s) hu ?_
    rw [Blk.layDrained_eq hph hf]
    exact ⟨settle_lay _ _, settle_regs _ _, settle_mem _ _⟩
  case timeout =>
    intro s hu hph hf hab
    refine .of_hub (exec_layDrainTimeout s) hu ?_
    rw [Blk.layTimeout_eq hph hf hab]
    have hoff := Blk.resumeFetch_offLayout
      ((s.blk.withLay { s.blk.lay with phase := .idle, buf := [], cand := none }).layReject (.plain 0x31))
    refine ⟨by simp [hoff.lay], by simp [hoff.struc], ?_, ?_, by simp [hoff.mem]⟩
    · rw [settle_reg, hoff.reg (by decide) (by decide), Blk.layReject_reason]
      rfl
    · rw [settle_reg, hoff.reg (by decide) (by decide), Blk.layReject_event]
  case applied =>
    intro s hu hph hh
    refine .of_hub (exec_layApplyDone s) hu ?_
    obtain ⟨w, hoff⟩ := Blk.layDone_offLayout hph
    have hnone : s.blk.layDone.releaseHeld = s.blk.layDone := by simp [Blk.releaseHeld, hoff.held, hh]
    have hidle : s.blk.layDone.lay.phase = .idle := by simp [hoff.lay]
    have hlink := Blk.layRelink_offLayout hidle
    rw [hnone]
    refine ⟨by simp [hlink.lay, hidle], by simp [hlink.struc, hoff.struc], ?_⟩
    rw [settle_reg, hlink.reg (by decide) (by decide), Blk.withLay_reg, hoff.reg (by decide) (by decide)]
    exact Blk.testBit_orReg _ _ (by decide)
  case persisted =>
    intro s g img hu hper
    refine .of_hub (exec_layPersistDone s true) hu ?_
    obtain ⟨ok0, ok1, hdone⟩ := Blk.layPersist_ok hper
    rw [hdone]
    refine ⟨by simp, by simp, fun h0 => by simp [h0], fun h0 => by simp [h0], ?_⟩
    rw [settle_reg]
    exact Blk.testBit_orReg _ _ (by decide)
  case failed =>
    intro s g img hu hper
    exact .hubFrame (exec_layPersistDone s false) hu (Blk.layPersist_failed hper)

end Sys2Proof.Machine
end

section
/-! Proofs: reading cells after a write (R59, R61). -/

namespace Sys2Proof.Machine
open Sys2Proof

/-- A key below every listed one reads as unlisted. -/
theorem cellGet_of_lt {m : Memory} {k : Nat} (h : ∀ c ∈ m, k < c.1) : cellGet m k = cellDefault k := by
  cases m with
  | nil => rfl
  | cons c t =>
    have hk : k < c.1 := h c List.mem_cons_self
    simp [cellGet, hk, Nat.ne_of_lt hk]

/-- Any cell after a write of one, where the addresses rise. -/
theorem cellGet_cellPut_of_pairwise {m : Memory} (k : Nat) (v : Byte) (h : m.Pairwise (fun c d => c.1 < d.1)) (j : Nat) :
    cellGet (cellPut m k v) j = if j = k then v else cellGet m j := by
  induction m with
  | nil =>
    simp only [cellPut, cellGet]
    split <;> simp only [cellGet] <;> grind
  | cons c t ih =>
    obtain ⟨a, w⟩ := c
    obtain ⟨ha, ht⟩ := List.pairwise_cons.1 h
    have hrest : j ≤ a → cellGet t j = cellDefault j := fun hj => cellGet_of_lt fun c hc => Nat.lt_of_le_of_lt hj (ha c hc)
    simp only [cellPut]
    split
    next => split <;> simp only [cellGet] <;> grind
    next =>
      split
      next => split <;> simp only [cellGet] <;> grind
      next => simp only [cellGet, ih ht]; grind

theorem cellGet_cellPut {m : Memory} (h : Memory.wf m = true) (k : Nat) (v : Byte) (j : Nat) :
    cellGet (cellPut m k v) j = if j = k then v else cellGet m j :=
  cellGet_cellPut_of_pairwise k v ((Memory.wf_iff m).1 h).2 j

/-- Settles O8: a write keeps the canonical form, in which the place of a key is where its cell is found. -/
theorem cellReadAfterWrite : Obligations.CellReadAfterWrite :=
  fun _ k v h => ⟨Memory.wf_cellPut k v h, cellGet_cellPut h k v⟩

end Sys2Proof.Machine
end

section
/-! Proofs: every step keeps memory in its canonical form (R59, R67, R69, R73). -/

namespace Sys2Proof.Machine
open Sys2Proof

/-! A function of the model answers an updated block, and no update but `setCells` touches memory's cells. So each
function that a command runs has one short lemma here, which composes those of the functions it calls. -/

/-- Memory of a block is in its canonical form. -/
def Blk.MemOk (b : Blk) : Prop := Memory.wf b.mem.cells = true

/-- Memory is in its canonical form in the block of a piece of work on tensors. -/
def Wk.MemOk (w : Wk) : Prop := w.b.MemOk

/-- An update of anything but the cells keeps them in order. -/
theorem Blk.MemOk.upd {b : Blk} {regs time commits log ev sent ctr struc lay chans pairs dies pins qps flights att win held
    pwr mode restarting fab net descs plans cu hub sdg sec} (h : b.MemOk) : Blk.MemOk ⟨regs, time, commits, log, ev, sent,
    ctr, struc, lay, b.mem, chans, pairs, dies, pins, qps, flights, att, win, held, pwr, mode, restarting, fab, net, descs,
    plans, cu, hub, sdg, sec⟩ := h

/-- An update of anything of memory but the cells keeps them in order. -/
theorem Blk.MemOk.updMem {b : Blk} {segs convs scrubPos scrubSeen fixes scrubFrom scrubLate sramBad sramLog retained} {regs
    time commits log ev sent ctr struc lay chans pairs dies pins qps flights att win held pwr mode restarting fab net descs
    plans cu hub sdg sec} (h : b.MemOk) : Blk.MemOk ⟨regs, time, commits, log, ev, sent, ctr, struc, lay, ⟨b.mem.cells, segs,
    convs, scrubPos, scrubSeen, fixes, scrubFrom, scrubLate, sramBad, sramLog, retained⟩, chans, pairs, dies, pins, qps,
    flights, att, win, held, pwr, mode, restarting, fab, net, descs, plans, cu, hub, sdg, sec⟩ := h

theorem Wk.MemOk.blk {w : Wk} (h : w.MemOk) : w.b.MemOk := h
theorem Wk.MemOk.upd {v : Wk} {chans0 q seq rq st flags need stall normal fetched out stored tops} (h : v.MemOk) : Wk.MemOk
    ⟨v.b, chans0, q, seq, rq, st, flags, need, stall, normal, fetched, out, stored, tops⟩ := h
theorem Blk.MemOk.wk {b : Blk} {chans0 q seq rq st flags need stall normal fetched out stored tops} (h : b.MemOk) : Wk.MemOk
    ⟨b, chans0, q, seq, rq, st, flags, need, stall, normal, fetched, out, stored, tops⟩ := h

theorem Blk.MemOk.of_frame {a b : Blk} (h : a.MemOk) (hf : MemFrame a b) : b.MemOk := hf.2 h

section
variable {α β : Type} {p : Prop} [Decidable p]

theorem Blk.MemOk.ite {a b : Blk} (h : a.MemOk) (g : b.MemOk) : (if p then a else b).MemOk := by split <;> assumption
theorem Blk.MemOk.iteFst {a b : Blk × α} (h : a.1.MemOk) (g : b.1.MemOk) : (if p then a else b).1.MemOk := by split <;> assumption
theorem Blk.MemOk.iteAcc {a b : Acc} (h : a.b.MemOk) (g : b.b.MemOk) : (if p then a else b).b.MemOk := by split <;> assumption
theorem Wk.MemOk.ite {a b : Wk} (h : a.MemOk) (g : b.MemOk) : (if p then a else b).MemOk := by split <;> assumption
theorem Wk.MemOk.iteFst {a b : Wk × α} (h : a.1.MemOk) (g : b.1.MemOk) : (if p then a else b).1.MemOk := by split <;> assumption

theorem Blk.MemOk.foldl {f : Blk → α → Blk} {b : Blk} {l : List α} (h : b.MemOk) (hf : ∀ b x, b.MemOk → (f b x).MemOk) :
    (l.foldl f b).MemOk := by
  induction l generalizing b with
  | nil => exact h
  | cons x t ih => exact ih (hf b x h)

theorem Blk.MemOk.foldlFst {f : Blk × β → α → Blk × β} {s : Blk × β} {l : List α} (h : s.1.MemOk)
    (hf : ∀ s x, s.1.MemOk → (f s x).1.MemOk) : (l.foldl f s).1.MemOk := by
  induction l generalizing s with
  | nil => exact h
  | cons x t ih => exact ih (hf s x h)

theorem Wk.MemOk.foldl {f : Wk → α → Wk} {w : Wk} {l : List α} (h : w.MemOk) (hf : ∀ w x, w.MemOk → (f w x).MemOk) :
    (l.foldl f w).MemOk := by
  induction l generalizing w with
  | nil => exact h
  | cons x t ih => exact ih (hf w x h)

theorem Wk.MemOk.foldlFst {f : Wk × β → α → Wk × β} {s : Wk × β} {l : List α} (h : s.1.MemOk)
    (hf : ∀ s x, s.1.MemOk → (f s x).1.MemOk) : (l.foldl f s).1.MemOk := by
  induction l generalizing s with
  | nil => exact h
  | cons x t ih => exact ih (hf s x h)

end

theorem Blk.MemOk.of_eq {α : Type} {r : Blk × α} {c : Blk} {x : α} (h : r.1.MemOk) (e : r = (c, x)) : c.MemOk := by
  rw [e] at h
  exact h

theorem Wk.MemOk.of_eq {α : Type} {r : Wk × α} {c : Wk} {x : α} (h : r.1.MemOk) (e : r = (c, x)) : c.MemOk := by
  rw [e] at h
  exact h

/-! ### What each function keeps

One lemma for each function of the model that answers a block, a block with more, or a piece of work, in the order of
the definitions: it is in order where the blocks and the work it is given are. -/

theorem Blk.MemOk.send {b : Blk} {m : Msg} (h : b.MemOk) : (b.send m).MemOk := h.upd

theorem Blk.MemOk.msix {b : Blk} {v : Nat} (h : b.MemOk) : (b.msix v).MemOk := .ite h (.ite h.send h.upd)

theorem Blk.MemOk.raise {b : Blk} {n : Nat} (h : b.MemOk) : (b.raise n).MemOk := .ite h (.ite h.upd h.msix)

theorem Blk.MemOk.setPwr {b : Blk} {x : PwrSt} (h : b.MemOk) : (b.setPwr x).MemOk := h.upd

theorem Blk.MemOk.setSdg {b : Blk} {x : SdgSt} (h : b.MemOk) : (b.setSdg x).MemOk := h.upd

theorem Blk.MemOk.avsOk {b : Blk} (h : b.MemOk) : (b.avsOk).MemOk := by
  unfold Blk.avsOk
  split
  · exact h
  · exact h.setPwr.setSdg

theorem Blk.MemOk.setQp {b : Blk} {q : Nat} {x : QpSt} (h : b.MemOk) : (b.setQp q x).MemOk := h.upd

theorem Blk.MemOk.startFetch {b : Blk} {q : Nat} (h : b.MemOk) : (b.startFetch q).MemOk := by
  unfold Blk.startFetch
  extract_lets
  split
  · exact h
  · exact .ite h (.ite h.setQp h.setQp.send)

theorem Blk.MemOk.logE {b : Blk} {kind : Nat} {a : LogArg} (h : b.MemOk) : (b.logE kind a).MemOk := .ite h.upd h

theorem Blk.MemOk.setReg {b : Blk} {off v : Nat} (h : b.MemOk) : (b.setReg off v).MemOk := h.upd

theorem Blk.MemOk.orReg {b : Blk} {off m : Nat} (h : b.MemOk) : (b.orReg off m).MemOk := h.setReg

theorem Blk.MemOk.qpEvent {b : Blk} {q i : Nat} (h : b.MemOk) : (b.qpEvent q i).MemOk := h.orReg

theorem Blk.MemOk.ring {b : Blk} {q path : Nat} {v : W32} (h : b.MemOk) : (b.ring q path v).MemOk := by
  unfold Blk.ring
  refine .ite h.qpEvent ?_
  exact .ite h.setQp (.ite h (.ite h.logE.qpEvent (.ite h h.setQp.startFetch)))

theorem Blk.MemOk.replay {b : Blk} {q : Nat} (h : b.MemOk) : (b.replay q).MemOk :=
  .startFetch (h.setQp.foldl fun _ _ h₁ => h₁.ring)

theorem Blk.MemOk.resumeFetch {b : Blk} (h : b.MemOk) : (b.resumeFetch).MemOk := h.foldl fun _ _ h₁ => h₁.replay

theorem Blk.MemOk.clusterReady {b : Blk} (h : b.MemOk) : (b.clusterReady).MemOk := .ite h.upd.resumeFetch h

/-- What the module keeps when the hub loses its power: the cells of retained dies, or none. -/
theorem Blk.MemOk.lose {b : Blk} {hold : Bool} (h : b.MemOk) : (b.lose hold).MemOk := by
  cases hold with
  | false => exact Memory.wf_nil
  | true => exact Memory.wf_cellsDrop (fun k => !b.retainedDie (gidCh (keyGroup k) / 2)) h

theorem Blk.MemOk.unpower {b : Blk} (h : b.MemOk) : (b.unpower).MemOk := by
  unfold Blk.unpower
  extract_lets l'
  have hl' : l'.MemOk := h.lose
  exact hl'.upd

theorem Blk.MemOk.holdupOut {b : Blk} (h : b.MemOk) : (b.holdupOut).MemOk := .ite h h.unpower

theorem Blk.MemOk.inputGood {b : Blk} (h : b.MemOk) : (b.inputGood).MemOk := .ite h h.setPwr

theorem Blk.MemOk.inputBad {b : Blk} (h : b.MemOk) : (b.inputBad).MemOk := h.setPwr

theorem Blk.MemOk.respLost {b : Blk} (h : b.MemOk) : (b.respLost).MemOk := h.upd

theorem Blk.MemOk.resp {b : Blk} {d : Bytes} (h : b.MemOk) : (b.resp d).MemOk := h.upd

theorem Blk.MemOk.getStatus {b : Blk} (h : b.MemOk) : (b.getStatus).MemOk := h.resp

theorem Blk.MemOk.faultPin {b : Blk} (h : b.MemOk) : (b.faultPin).MemOk := h.upd

theorem Blk.MemOk.pwrEvent {b : Blk} {i : Nat} (h : b.MemOk) : (b.pwrEvent i).MemOk := h.orReg

theorem Blk.MemOk.goState {b : Blk} {st : PState} (h : b.MemOk) : (b.goState st).MemOk := h.setPwr.pwrEvent

theorem Blk.MemOk.stuck {b : Blk} {step index cause : Nat} (h : b.MemOk) : (b.stuck step index cause).MemOk := by
  unfold Blk.stuck
  extract_lets _ _ _ _ b' _ _ b''
  have hb' : b'.MemOk := h.setReg.setPwr.goState
  have hb'' : b''.MemOk := hb'.upd.faultPin
  exact .ite hb''.logE hb''

theorem Blk.MemOk.fresh {b : Blk} (h : b.MemOk) : (b.fresh).1.MemOk := h.upd

theorem Blk.MemOk.clusterLate {b : Blk} (h : b.MemOk) : (b.clusterLate).MemOk := .ite h (.ite h.setPwr.pwrEvent h.fresh.stuck)

theorem Blk.MemOk.clrReg {b : Blk} {off m : Nat} (h : b.MemOk) : (b.clrReg off m).MemOk := h.setReg

theorem Blk.MemOk.beginStartup {b : Blk} {path : Nat} (h : b.MemOk) : (b.beginStartup path).MemOk := by
  unfold Blk.beginStartup
  extract_lets b'
  have hb' : b'.MemOk := h.clrReg
  exact hb'.upd.faultPin

theorem Blk.MemOk.putReg {b : Blk} {off m v : Nat} (h : b.MemOk) : (b.putReg off m v).MemOk := h.setReg

theorem Blk.MemOk.noteCause {b : Blk} {i link : Nat} (h : b.MemOk) : (b.noteCause i link).MemOk := .ite h.orReg.putReg h.orReg

theorem Blk.MemOk.startWake {b : Blk} {w : WakePath} {causes link path : Nat} (h : b.MemOk) :
    (b.startWake w causes link path).MemOk := by
  unfold Blk.startWake
  extract_lets _ _ _ b' _ _ b''
  have hb' : b'.MemOk := h.setPwr.goState
  have hb'' : b''.MemOk := hb'.upd.foldl fun _ _ h₁ => h₁.noteCause
  exact .ite hb''.beginStartup hb''

theorem Blk.MemOk.measure {b : Blk} {n : Nat} {d : Bytes} (h : b.MemOk) : (b.measure n d).MemOk := h.upd

theorem Blk.MemOk.romStart {b : Blk} (h : b.MemOk) : (b.romStart).MemOk := by
  unfold Blk.romStart
  extract_lets _ _ b' _ b''
  have hb' : b'.MemOk := h.setPwr.setReg
  have hb'' : b''.MemOk := hb'.setPwr.setReg
  split
  · exact hb''.upd.faultPin
  · extract_lets _ b'
    have hb' : b'.MemOk := hb'.upd.measure.faultPin
    exact .ite hb'.startWake hb'

theorem Blk.MemOk.inputOn {b : Blk} (h : b.MemOk) : (b.inputOn).MemOk := .ite h.romStart h

theorem Blk.MemOk.goOff {b : Blk} (h : b.MemOk) : (b.goOff).MemOk := by
  unfold Blk.goOff
  extract_lets _ _ _ _ _ b'
  have hb' : b'.MemOk := h.lose.setPwr
  exact hb'.upd.faultPin.pwrEvent

theorem Blk.MemOk.enLow {b : Blk} (h : b.MemOk) : (b.enLow).MemOk := .ite h.upd h.upd.goOff

theorem Blk.MemOk.setDie {b : Blk} {d : Nat} {x : DieSt} (h : b.MemOk) : (b.setDie d x).MemOk := h.upd

theorem Blk.MemOk.wakeDies {b : Blk} (h : b.MemOk) : (b.wakeDies).MemOk := h.foldl fun _ _ h₁ => .ite h₁.setDie h₁

theorem Blk.MemOk.wakeAct {b : Blk} {k : Nat} (h : b.MemOk) : (b.wakeAct k).MemOk := by
  unfold Blk.wakeAct
  refine .ite h ?_
  split
  · exact h
  · exact h.wakeDies

theorem Blk.MemOk.wakeRetry {b : Blk} (h : b.MemOk) : (b.wakeRetry).MemOk := .ite h.setPwr.wakeAct h

theorem Blk.MemOk.hostPort {b : Blk} (h : b.MemOk) : (b.hostPort).MemOk := h.upd

theorem Blk.MemOk.setLink {b : Blk} {l : Nat} {x : LinkSt} (h : b.MemOk) : (b.setLink l x).MemOk := h.upd

theorem Blk.MemOk.linkStart {b : Blk} {l : Nat} (h : b.MemOk) : (b.linkStart l).MemOk := .ite h h.setLink

theorem Blk.MemOk.linksOn {b : Blk} (h : b.MemOk) : (b.linksOn).MemOk := h.foldl fun _ _ h₁ => .ite h₁.linkStart h₁

theorem Blk.MemOk.abandon {b : Blk} (h : b.MemOk) : (b.abandon).MemOk := by
  unfold Blk.abandon
  extract_lets _ _ b' b'' b'''
  have hb' : b'.MemOk := h.setPwr.goState.pwrEvent
  have hb'' : b''.MemOk := .ite hb'.wakeDies hb'
  have hb''' : b'''.MemOk := hb''.linksOn
  exact .ite (.resumeFetch (.ite hb''' hb'''.hostPort)) hb'

theorem Blk.MemOk.incReg {b : Blk} {off : Nat} (h : b.MemOk) : (b.incReg off).MemOk := h.upd

theorem Blk.MemOk.wakeFrom {b : Blk} {causes link : Nat} (h : b.MemOk) : (b.wakeFrom causes link).MemOk := by
  unfold Blk.wakeFrom
  split
  · exact h.startWake
  · exact h.upd.startWake
  · exact .ite h.incReg (.ite h.startWake h)
  · exact h

theorem Blk.MemOk.wakeSource {b : Blk} {i link : Nat} (h : b.MemOk) : (b.wakeSource i link).MemOk := by
  unfold Blk.wakeSource
  refine .ite h ?_
  split
  · exact .ite h.wakeFrom h
  · exact .ite h.wakeFrom h
  · exact .ite h.wakeFrom h
  · exact .ite h.noteCause h
  · exact .ite h (.ite h.setPwr (.ite h.abandon.wakeFrom h.abandon))
  · exact h

theorem Blk.MemOk.alarm {b : Blk} (h : b.MemOk) : (b.alarm).MemOk := .ite h h.wakeSource

theorem Blk.MemOk.attEvent {b : Blk} {i : Nat} (h : b.MemOk) : (b.attEvent i).MemOk := h.orReg

theorem Blk.MemOk.setChan {b : Blk} {ch : Nat} {c : ChanSt} (h : b.MemOk) : (b.setChan ch c).MemOk := h.upd

theorem Blk.MemOk.take {b : Blk} {ch cls half : Nat} (h : b.MemOk) : (b.take ch cls half).MemOk := h.setChan

theorem Blk.MemOk.closeBank {b : Blk} {ch bank : Nat} (h : b.MemOk) : (b.closeBank ch bank).MemOk := h.setChan

theorem Blk.MemOk.chargeRange {b : Blk} {cls mpa len : Nat} {write : Bool} (h : b.MemOk) : (b.chargeRange cls mpa len write).MemOk :=
  h.of_frame (Blk.chargeRange_memFrame _ _ _ _ _)

theorem Blk.MemOk.scEvent {b : Blk} {s i : Nat} (h : b.MemOk) : (b.scEvent s i).MemOk := h.orReg

theorem Blk.MemOk.corrected {b : Blk} {ch : Nat} (h : b.MemOk) : (b.corrected ch).MemOk :=
  h.of_frame (Blk.corrected_memFrame _ _)

theorem Blk.MemOk.setCells {b : Blk} {c : Memory} (h : Memory.wf c = true) : (b.setCells c).MemOk := h

theorem Blk.MemOk.putQuarter {b : Blk} {g q v : Nat} {d : Bytes} (h : b.MemOk) : (putQuarter b g q d v).MemOk :=
  h.of_frame (putQuarter_memFrame _ _ _ _ _)

theorem Blk.MemOk.fixQuarter {b : Blk} {cls g q : Nat} {d : Bytes} (h : b.MemOk) : (b.fixQuarter cls g q d).MemOk :=
  h.of_frame (Blk.fixQuarter_memFrame _ _ _ _ _)

theorem Blk.MemOk.logMem {b : Blk} {kind : Nat} {rq : Req} {g' : Nat} {mpa : Option Nat} {st : Nat} (h : b.MemOk) :
    (logMem b kind rq g' mpa st).MemOk := h.logE

theorem Blk.MemOk.readQuarter {b : Blk} {rq : Req} {g q mpa : Nat} (h : b.MemOk) :
    ((readQuarter b rq g q mpa).b).MemOk := h.of_frame (readQuarter_memFrame _ _ _ _ _)

theorem Blk.MemOk.readOpen {b : Blk} {rq : Req} {g : Nat} {mpa : Option Nat} (h : b.MemOk) :
    ((readOpen b rq g mpa).b).MemOk := h.of_frame (readOpen_memFrame _ _ _ _)

theorem Blk.MemOk.putOpen {b : Blk} {g tag gen : Nat} {d : Bytes} (h : b.MemOk) : (putOpen b g d tag gen).MemOk :=
  h.of_frame (putOpen_memFrame _ _ _ _ _)

theorem Blk.MemOk.setSeg {b : Blk} {seg : Nat} {x : Seg} (h : b.MemOk) : (b.setSeg seg x).MemOk := h.upd

theorem Blk.MemOk.chargeSeg {b : Blk} {cls seg half : Nat} (h : b.MemOk) : (b.chargeSeg cls seg half).MemOk :=
  h.of_frame (Blk.chargeSeg_memFrame _ _ _ _)

theorem Blk.MemOk.initSeg {b : Blk} {cls seg : Nat} (h : b.MemOk) : (initSeg b cls seg).MemOk :=
  h.of_frame (initSeg_memFrame _ _ _)

theorem Blk.MemOk.writePiece {b : Blk} {rq : Req} {mpa : Nat} {d : Bytes} (h : b.MemOk) :
    ((writePiece b rq mpa d).1).MemOk := h.of_frame (writePiece_memFrame _ _ _ _)

theorem Blk.MemOk.writeRange {b : Blk} {rq : Req} {mpa : Nat} {d : Bytes} (h : b.MemOk) :
    ((writeRange b rq mpa d).1).MemOk := h.of_frame (writeRange_memFrame _ _ _ _)

theorem Blk.MemOk.readPiece {b : Blk} {rq : Req} {mpa len : Nat} (h : b.MemOk) :
    ((readPiece b rq mpa len).b).MemOk := h.of_frame (readPiece_memFrame _ _ _ _)

theorem Blk.MemOk.readRange {b : Blk} {rq : Req} {mpa len : Nat} (h : b.MemOk) :
    ((readRange b rq mpa len).b).MemOk := h.of_frame (readRange_memFrame _ _ _ _)

theorem Blk.MemOk.setOwner {b : Blk} {i new : Nat} (h : b.MemOk) : (b.setOwner i new).MemOk := by
  unfold Blk.setOwner
  extract_lets _ _ _ b'
  have hb' : b'.MemOk := h.readRange.writeRange
  exact hb'.upd

theorem Blk.MemOk.slotOwner {b : Blk} {i : Nat} (h : b.MemOk) : (b.slotOwner i).1.MemOk := by
  unfold Blk.slotOwner
  split
  · exact h
  · extract_lets _ _ c'
    have hc' : c'.MemOk := h.readRange
    exact hc'.upd

theorem Blk.MemOk.freeDesc {b : Blk} {k : Nat} (h : b.MemOk) : (b.freeDesc k).MemOk := h.upd

theorem Blk.MemOk.attFinal {b : Blk} (h : b.MemOk) : (b.attFinal).MemOk := by
  unfold Blk.attFinal
  extract_lets _ b' b'' b'''
  have hb' : b'.MemOk := h.foldl fun _ _ h₁ => h₁.setQp
  have hb'' : b''.MemOk := hb'.foldl fun _ _ h₁ => h₁.freeDesc
  have hb''' : b'''.MemOk := by
    unfold b'''
    refine .ite hb'' ?_
    exact hb''.foldl fun _ _ h₁ => .ite h₁.slotOwner.setOwner h₁.slotOwner
  exact hb'''.upd.logE.attEvent

theorem Blk.MemOk.attSettle {b : Blk} (h : b.MemOk) : (b.attSettle).MemOk := .ite h.attFinal h

theorem Blk.MemOk.signal {b : Blk} {v : Nat} (h : b.MemOk) : (b.signal v).MemOk := .ite h.upd h.upd.msix

theorem Blk.MemOk.compWriteFailed {b : Blk} {q st : Nat} {c : Comp} (h : b.MemOk) : (b.compWriteFailed q st c).MemOk :=
  h.setQp.logE.qpEvent

theorem Blk.MemOk.writeComp {b : Blk} {q : Nat} {c : Comp} (h : b.MemOk) : (b.writeComp q c).MemOk := by
  unfold Blk.writeComp
  extract_lets _ _ _ _ b'' b'
  have hb'' : b''.1.MemOk := .iteFst h.writeRange h.send
  have hb' : b'.MemOk := hb''.setQp
  refine .ite h ?_
  refine .ite h.setQp ?_
  exact .ite hb''.compWriteFailed (.ite hb'.signal hb')

theorem Blk.MemOk.writeComps {b : Blk} {q : Nat} {l : List Comp} (h : b.MemOk) : (b.writeComps q l).MemOk := by
  induction l generalizing b with
  | nil => exact h
  | cons c t ih => exact ih h.writeComp

theorem Blk.MemOk.qpEnable {b : Blk} {q : Nat} {on : Bool} (h : b.MemOk) : (b.qpEnable q on).MemOk :=
  .ite (.ite h h.setQp.writeComps.startFetch) h.setQp

theorem Blk.MemOk.stopHostPairs {b : Blk} (h : b.MemOk) : (b.stopHostPairs).MemOk := h.foldl fun _ _ h₁ => h₁.qpEnable

theorem Blk.MemOk.attEnd {b : Blk} {cause : Nat} (h : b.MemOk) : (b.attEnd cause).MemOk := by
  unfold Blk.attEnd
  refine .ite h ?_
  extract_lets _ b'
  have hb' : b'.MemOk := h.stopHostPairs.foldl fun _ _ h₁ => h₁.setQp
  exact hb'.upd.attSettle

theorem Blk.MemOk.sendOn {b : Blk} {l : Nat} {p : Packet} (h : b.MemOk) : (b.sendOn l p).MemOk := .ite h.setLink.send h.setLink

theorem Blk.MemOk.forward {b c : Blk} {p : Packet} {d : Option Nat} (h : b.MemOk) (hc : b.forward p d = some c) : c.MemOk := by
  unfold Blk.forward at hc
  dsimp only at hc
  split at hc
  · cases hc
  · cases hc
    exact h.sendOn

theorem Blk.MemOk.originate {b c : Blk} {p : Packet} (h : b.MemOk) (hc : b.originate p = some c) : c.MemOk := by
  unfold Blk.originate at hc
  split at hc
  · cases hc
  · exact h.forward hc

theorem Blk.MemOk.updFlight {b : Blk} {q seq : Nat} {g' : Flight → Flight} (h : b.MemOk) : (b.updFlight q seq g').MemOk := h.upd

/-- A request that an entry sends. -/
theorem Blk.MemOk.of_sent {b c : Blk} {q seq typ dst addr arg sub : Nat} {data : Bytes} (h : b.MemOk)
    (hc : b.request q seq typ dst addr arg sub data = .sent c) : c.MemOk := by
  unfold Blk.request at hc
  split at hc
  · simp at hc
  · extract_lets p at hc
    split at hc
    · simp at hc
    next x hx =>
      have hx' := h.originate hx
      simp only [ReqRes.sent.injEq] at hc
      subst hc
      exact Blk.MemOk.updFlight hx'.upd

/-- A request that finds no path. -/
theorem Blk.MemOk.of_noPath {b c : Blk} {q seq typ dst addr arg sub : Nat} {data : Bytes} (h : b.MemOk)
    (hc : b.request q seq typ dst addr arg sub data = .noPath c) : c.MemOk := by
  unfold Blk.request at hc
  split at hc
  · simp at hc
  · extract_lets p at hc
    split at hc
    · simp only [ReqRes.noPath.injEq] at hc
      exact hc ▸ h.incReg
    · simp at hc

theorem Blk.MemOk.sendOut {b : Blk} {q seq : Nat} {l : List (Nat × Bytes)} (h : b.MemOk) : (b.sendOut q seq l).MemOk := by
  induction l generalizing b with
  | nil => exact h.updFlight
  | cons p t ih =>
    unfold Blk.sendOut
    split
    · next hc => exact ih (h.of_sent hc).updFlight
    · next hc => exact (h.of_noPath hc).updFlight
    · exact h.updFlight

theorem Blk.MemOk.endTxn {b : Blk} {t : Txn} (h : b.MemOk) : (b.endTxn t).MemOk := by
  unfold Blk.endTxn
  extract_lets _ b' b''
  have hb' : b'.MemOk := h.upd
  have hb'' : b''.MemOk := hb'.updFlight
  split
  · exact hb''
  · exact hb''.sendOut

theorem Blk.MemOk.failTxn {b : Blk} {t : Txn} {st : Nat} (h : b.MemOk) : (b.failTxn t st).MemOk := h.updFlight.endTxn

theorem Blk.MemOk.naked {b : Blk} {t : Txn} (h : b.MemOk) : (b.naked t).MemOk := h.failTxn.incReg

/-- What is kept where an answer may be missing. -/
theorem Blk.MemOk.getD {b : Blk} {o : Option Blk} (h : b.MemOk) (ho : ∀ c, o = some c → c.MemOk) : (o.getD b).MemOk := by
  cases o with
  | none => exact h
  | some c => exact ho c rfl

theorem Blk.MemOk.routeNak {b : Blk} {p : Packet} {sub : Nat} (h : b.MemOk) : (b.routeNak p sub).MemOk := by
  unfold Blk.routeNak
  refine .ite ?_ (h.getD fun _ hc => h.originate hc)
  split
  · exact h
  · exact h.naked

theorem Blk.MemOk.again {b c : Blk} {l : Nat} {p : Packet} (h : b.MemOk) (hc : b.again l p = some c) : c.MemOk := by
  unfold Blk.again at hc
  split at hc
  · cases hc
    exact h
  · split at hc
    · exact h.originate hc
    · exact h.forward hc

theorem Blk.MemOk.afterLoss {l : Nat} {b : Blk} {p : Packet} (h : b.MemOk) : (Blk.afterLoss l b p).MemOk :=
  .ite (h.getD fun _ hc => h.again hc) h.routeNak

theorem Blk.MemOk.move {l : Nat} {b : Blk} {p : Packet} (h : b.MemOk) : (Blk.move l b p).MemOk := by
  unfold Blk.move
  split
  next _ hc =>
    have h₁ := h.again hc
    exact h₁
  · exact .ite h h.routeNak

theorem Blk.MemOk.fabEvent {b : Blk} {i : Nat} (h : b.MemOk) : (b.fabEvent i).MemOk := h.orReg

theorem Blk.MemOk.flood {b : Blk} {p : Packet} {except : Option Nat} (h : b.MemOk) : (b.flood p except).MemOk :=
  h.foldl fun _ _ h₁ => .ite h₁.sendOn h₁

theorem Blk.MemOk.report {b : Blk} {k : Nat} {live : Bool} (h : b.MemOk) : (b.report k live).MemOk := h.upd.flood

theorem Blk.MemOk.checkBundles {b : Blk} (h : b.MemOk) : (b.checkBundles).MemOk :=
  h.foldl fun _ _ h₁ => .ite h₁.upd.report.fabEvent (.ite h₁.upd.report h₁)

theorem Blk.MemOk.linkDown {b : Blk} {l : Nat} (h : b.MemOk) : (b.linkDown l).MemOk := by
  unfold Blk.linkDown
  extract_lets _ _ _ _ b'
  have hb' : b'.MemOk := .checkBundles (.ite h.setLink.fabEvent h.setLink)
  exact .ite h (.foldl (hb'.foldl fun _ _ h₁ => h₁.afterLoss) fun _ _ h₁ => h₁.move)

theorem Blk.MemOk.linksOff {b : Blk} (h : b.MemOk) : (b.linksOff).MemOk := by
  unfold Blk.linksOff
  extract_lets b'
  have hb' : b'.MemOk := h.foldl fun _ _ h₁ => h₁.linkDown
  exact hb'.upd

theorem Blk.MemOk.sleepDie {b : Blk} {d : Nat} (h : b.MemOk) : (b.sleepDie d).MemOk := .ite h.setDie h

theorem Blk.MemOk.entryAct {b : Blk} {k : Nat} (h : b.MemOk) : (b.entryAct k).MemOk := by
  unfold Blk.entryAct
  extract_lets _ _ b' _ _ b''
  have hb' : b'.MemOk := h.linksOff.attEnd
  have hb'' : b''.MemOk := h.setPwr
  refine .ite (.ite (h.foldl fun _ _ h₁ => h₁.sleepDie) (.ite (h.foldl fun _ _ h₁ => h₁.sleepDie) h)) ?_
  refine .ite (.ite h.linksOff hb'.upd) ?_
  exact .ite (.ite hb''.updMem h) (.ite h.setPwr h)

theorem Blk.MemOk.dropHeldPackets {b : Blk} (h : b.MemOk) : (b.dropHeldPackets).MemOk := h.upd

theorem Blk.MemOk.entered {b : Blk} (h : b.MemOk) : (b.entered).MemOk := by
  unfold Blk.entered
  extract_lets _ _ _ _ b' _ b''
  have hb' : b'.MemOk := .ite h.lose h.dropHeldPackets
  have hb'' : b''.MemOk := .ite h.goOff.setPwr hb'.setPwr.goState
  exact .ite hb'' hb''.wakeFrom

theorem Blk.MemOk.entryStep {b : Blk} (h : b.MemOk) : (b.entryStep).MemOk := .ite h (.ite h.entered h.setPwr.entryAct)

theorem Blk.MemOk.badAccess {b : Blk} {path : Nat} {write : Bool} {off size : Nat} (h : b.MemOk) :
    (b.badAccess path write off size).MemOk := by
  unfold Blk.badAccess
  refine .ite h ?_
  extract_lets b'
  have hb' : b'.MemOk := .ite h h.send
  exact hb'.logE

theorem Blk.MemOk.hostRead {b : Blk} {off : Nat} {wide : Bool} (h : b.MemOk) : (b.hostRead off wide).MemOk :=
  .ite h.send (.ite h.send h.badAccess)

theorem Blk.MemOk.setQpc {b : Blk} {n : Nat} {x : QpcSt} (h : b.MemOk) : (b.setQpc n x).MemOk := h.upd

theorem Blk.MemOk.netEvent {b : Blk} {i : Nat} (h : b.MemOk) : (b.netEvent i).MemOk := h.orReg

theorem Blk.MemOk.finish {b : Blk} {q seq st flags result : Nat} (h : b.MemOk) : (b.finish q seq st flags result).MemOk :=
  h.updFlight

theorem Blk.MemOk.netFinish {b : Blk} {p : NetPost} {st result : Nat} (h : b.MemOk) : (b.netFinish p st result).MemOk :=
  .ite h.finish h

theorem Blk.MemOk.qpcError {b : Blk} {n st : Nat} (h : b.MemOk) : (b.qpcError n st).MemOk := by
  unfold Blk.qpcError
  extract_lets _ b' b''
  have hb' : b'.MemOk := by
    unfold b'
    split
    · exact h
    · exact h.netFinish.foldl fun _ _ h₁ => h₁.netFinish
  have hb'' : b''.MemOk := hb'.foldl fun _ _ h₁ => h₁.netFinish
  exact hb''.setQpc.netEvent

theorem Blk.MemOk.qpcClear {b : Blk} {n : Nat} (h : b.MemOk) : (b.qpcClear n).MemOk := h.foldl fun _ _ h₁ => h₁.netFinish

theorem Blk.MemOk.qpcCmd {b : Blk} {path val : Nat} (h : b.MemOk) : (b.qpcCmd path val).MemOk := by
  unfold Blk.qpcCmd
  extract_lets _ _ _ r'
  have hr' : r'.b.MemOk := h.readRange
  refine .ite h ?_
  refine .ite h.setReg ?_
  refine .ite h.qpcClear.setQpc.setReg ?_
  exact .ite h.qpcError.setReg (.ite hr'.setReg hr'.qpcClear.setQpc.setReg)

theorem Blk.MemOk.qpcRow {b : Blk} {path val a : Nat} (h : b.MemOk) : (b.qpcRow path val a).MemOk := .ite h.qpcCmd h

theorem Blk.MemOk.retrain {b : Blk} {l : Nat} (h : b.MemOk) : (b.retrain l).MemOk := h.linkDown.setLink.linkStart

theorem Blk.MemOk.fabCtrl {b : Blk} {path val : Nat} (h : b.MemOk) : (b.fabCtrl path val).MemOk := by
  unfold Blk.fabCtrl
  refine .ite h ?_
  refine .ite (h.setReg.foldl fun _ _ h₁ => .ite h₁.linkDown h₁) ?_
  exact .ite (h.setReg.foldl fun _ _ h₁ => .ite h₁.retrain h₁) h.setReg

theorem Blk.MemOk.freeLease {b : Blk} {n : Nat} (h : b.MemOk) : (b.freeLease n).MemOk := h.setSdg

theorem Blk.MemOk.leaseRelease {b : Blk} {x n : Nat} (h : b.MemOk) : (b.leaseRelease x n).MemOk := .ite h.freeLease h

theorem Blk.MemOk.setLease {b : Blk} {n : Nat} {x : LeaseSt} (h : b.MemOk) : (b.setLease n x).MemOk := h.setSdg

theorem Blk.MemOk.leaseRenew {b : Blk} {x n : Nat} (h : b.MemOk) : (b.leaseRenew x n).MemOk := .ite h.setLease h

theorem Blk.MemOk.leaseAcquire {b : Blk} {x n : Nat} (h : b.MemOk) : (b.leaseAcquire x n).MemOk := .ite h.setLease h

theorem Blk.MemOk.objDone {b : Blk} {why : Nat} (h : b.MemOk) : (b.objDone why).MemOk := h.setReg

theorem Blk.MemOk.objPut {b : Blk} {d : Bytes} (h : b.MemOk) : (b.objPut d).MemOk := h.writeRange.objDone

theorem Blk.MemOk.objCert {b : Blk} (h : b.MemOk) : (b.objCert).MemOk := .ite h.objDone (.ite h.objDone h.objPut)

theorem Blk.MemOk.objReport {b : Blk} (h : b.MemOk) : (b.objReport).MemOk := by
  unfold Blk.objReport
  refine .ite h.objDone ?_
  refine .ite h.objDone ?_
  extract_lets r'
  have hr' : r'.b.MemOk := h.readRange
  exact .ite hr'.objDone hr'.objPut

theorem Blk.MemOk.enrol {b : Blk} {r : Bytes} {len path : Nat} (h : b.MemOk) : (b.enrol r len path).1.MemOk :=
  .iteFst h h.upd.measure

theorem Blk.MemOk.stage {b : Blk} {r : Bytes} {len : Nat} (h : b.MemOk) : (b.stage r len).1.MemOk := .iteFst h h.upd.measure

theorem Blk.MemOk.objLoad {b : Blk} {f : Blk → Bytes → Nat → Blk × Nat} (h : b.MemOk)
    (hf : ∀ b d n, b.MemOk → (f b d n).1.MemOk) : (b.objLoad f).MemOk :=
  .ite h.objDone (.ite h.readRange.objDone (hf _ _ _ h.readRange).objDone)

theorem Blk.MemOk.linkOff {b : Blk} {l : Nat} (h : b.MemOk) : (b.linkOff l).MemOk := h.linkDown.setLink

theorem Blk.MemOk.enterMode {b : Blk} {m : OpMode} {reason : Nat} (h : b.MemOk) : (b.enterMode m reason).MemOk := by
  unfold Blk.enterMode
  extract_lets _ b' b''
  have hb' : b'.MemOk := h.upd.measure
  have hb'' : b''.MemOk := hb'.foldl fun _ _ h₁ => h₁.linkOff
  exact .ite hb''.upd hb'

theorem Blk.MemOk.modeReq {b : Blk} {val : Nat} (h : b.MemOk) : (b.modeReq val).MemOk := by
  unfold Blk.modeReq
  extract_lets b'
  have hb' : b'.MemOk := .ite h.clrReg h
  exact .ite hb' (.ite hb'.enterMode hb'.orReg)

theorem Blk.MemOk.tailWrite {b : Blk} {path v : Nat} (h : b.MemOk) : (b.tailWrite path v).MemOk := .ite h h.upd

theorem Blk.MemOk.sdgEvent {b : Blk} {i : Nat} (h : b.MemOk) : (b.sdgEvent i).MemOk := h.orReg

theorem Blk.MemOk.capDone {b : Blk} {why : Nat} (h : b.MemOk) : (b.capDone why).MemOk := by
  unfold Blk.capDone
  extract_lets _ b'
  have hb' : b'.MemOk := h.setReg.sdgEvent
  exact .ite hb'.logE hb'.logE

theorem Blk.MemOk.capsule {b : Blk} {r : Bytes} {len : Nat} (h : b.MemOk) : (b.capsule r len).1.MemOk :=
  .iteFst h.capDone h.setSdg.capDone.measure

theorem Blk.MemOk.capCtrl {b : Blk} {val : Nat} {late : Bool} (h : b.MemOk) : (b.capCtrl val late).MemOk := by
  unfold Blk.capCtrl
  extract_lets _ _ _ r'
  have hr' : r'.b.MemOk := h.putReg.readRange
  refine .ite h.putReg ?_
  refine .ite h.putReg.capDone ?_
  exact .ite h.putReg.capDone (.ite hr'.capDone hr'.capsule)

theorem Blk.MemOk.linkPattern {b : Blk} {val : Nat} (h : b.MemOk) : (b.linkPattern val).MemOk :=
  .ite h (h.foldl fun _ _ h₁ => .ite h₁.setPwr.send h₁)

theorem Blk.MemOk.padRel {b : Blk} {path val : Nat} (h : b.MemOk) : (b.padRel path val).MemOk := .ite h (.ite h.setPwr h.logE)

theorem Blk.MemOk.cmdRefused {b : Blk} {path code : Nat} (h : b.MemOk) : (b.cmdRefused path code).MemOk := .ite h.logE h

theorem Blk.MemOk.cmdCycle {b : Blk} {path : Nat} (h : b.MemOk) : (b.cmdCycle path).MemOk := .ite h.goOff.setPwr h.cmdRefused

theorem Blk.MemOk.cmdClear {b : Blk} {path : Nat} (h : b.MemOk) : (b.cmdClear path).MemOk := .ite h.setReg h.cmdRefused

theorem Blk.MemOk.cmdWake {b : Blk} {path : Nat} (h : b.MemOk) : (b.cmdWake path).MemOk := .ite h.wakeFrom h.cmdRefused

theorem Blk.MemOk.beginEntry {b : Blk} {target : PState} {side : Bool} (h : b.MemOk) : (b.beginEntry target side).MemOk :=
  h.setPwr.goState

theorem Blk.MemOk.cmdOff {b : Blk} {path : Nat} (h : b.MemOk) : (b.cmdOff path).MemOk := .ite h.cmdRefused (.ite h h.beginEntry)

theorem Blk.MemOk.cmdHold {b : Blk} {path : Nat} (h : b.MemOk) : (b.cmdHold path).MemOk := .ite h.beginEntry h.cmdRefused

theorem Blk.MemOk.heartbeat {b : Blk} (h : b.MemOk) : (b.heartbeat).MemOk := h.upd

theorem Blk.MemOk.reattach {b : Blk} {v : W32} (h : b.MemOk) : (b.reattach v).MemOk := by
  unfold Blk.reattach
  refine .ite h.upd.attEvent ?_
  extract_lets b' _ b''
  have hb' : b'.MemOk := h.incReg.attEvent
  have hb'' : b''.MemOk := hb'.upd
  exact .ite (.ite hb''.attEnd hb'') hb'

theorem Blk.MemOk.attach {b : Blk} (h : b.MemOk) : (b.attach).MemOk := .ite h h.fresh.upd

theorem Blk.MemOk.qpDrop {b : Blk} {q : Nat} (h : b.MemOk) : (b.qpDrop q).MemOk := h.setQp

theorem Blk.MemOk.qpReset {b : Blk} {q : Nat} (h : b.MemOk) : (b.qpReset q).MemOk := .ite h.setQp h

theorem Blk.MemOk.cqHeadWrite {b : Blk} {q path : Nat} {v : W32} (h : b.MemOk) : (b.cqHeadWrite q path v).MemOk :=
  .ite h.logE.qpEvent h.setQp

theorem Blk.MemOk.trainFor {b : Blk} {ch half : Nat} (h : b.MemOk) : (b.trainFor ch half).MemOk := h.setChan

theorem Blk.MemOk.trnCtrl {b : Blk} {path val : Nat} (h : b.MemOk) : (b.trnCtrl path val).MemOk :=
  .ite h.logE (.ite h.putReg.setReg.trainFor h.putReg)

theorem Blk.MemOk.scCtrl {b : Blk} {s val : Nat} (h : b.MemOk) : (b.scCtrl s val).MemOk := by
  unfold Blk.scCtrl
  extract_lets _ _ b'
  have hb' : b'.MemOk := h.putReg.foldl fun _ _ h₁ => h₁.setReg
  exact .ite hb'.setReg.setReg.setReg h.putReg

theorem Blk.MemOk.toRun {b : Blk} (h : b.MemOk) : (b.toRun).MemOk := .ite h.upd.pwrEvent.orReg h

theorem Blk.MemOk.layEvent {b : Blk} {i : Nat} (h : b.MemOk) : (b.layEvent i).MemOk := h.orReg

theorem Blk.MemOk.layReject {b : Blk} {r : Rej} (h : b.MemOk) : (b.layReject r).MemOk := h.setReg.setReg.layEvent.logE

theorem Blk.MemOk.layCtrl {b : Blk} {val : Nat} (h : b.MemOk) : (b.layCtrl val).MemOk := by
  unfold Blk.layCtrl
  extract_lets _ b'
  have hb' : b'.MemOk := h.putReg.toRun
  refine .ite h.putReg ?_
  exact .ite h.putReg.layReject (.ite h.putReg.layReject hb'.upd)

theorem Blk.MemOk.setCommit {b : Blk} {c : CBlk} {x : CommitSt} (h : b.MemOk) : (b.setCommit c x).MemOk := h.upd

theorem Blk.MemOk.commitWrite {b : Blk} {c : CBlk} {path val : Nat} (h : b.MemOk) : (b.commitWrite c path val).MemOk :=
  .ite h.setCommit.logE h.setCommit

theorem Blk.MemOk.commitOver {b : Blk} {c : CBlk} {path val : Nat} (h : b.MemOk) : (b.commitOver c path val).MemOk :=
  .ite h.commitWrite h

theorem Blk.MemOk.leaseOp {b : Blk} {x n op : Nat} (h : b.MemOk) : (b.leaseOp x n op).MemOk :=
  .ite h.leaseAcquire (.ite h.leaseRenew (.ite h.leaseRelease h))

theorem Blk.MemOk.netLink {b : Blk} {port : Nat} {up : Bool} (h : b.MemOk) : (b.netLink port up).MemOk := .ite h h.upd.netEvent

theorem Blk.MemOk.plainWrite {b : Blk} {off val : Nat} (h : b.MemOk) : (b.plainWrite off val).MemOk := by
  unfold Blk.plainWrite
  split
  · exact h
  · exact .ite h h.setReg

theorem Blk.MemOk.netCtrl {b : Blk} {val : Nat} (h : b.MemOk) : (b.netCtrl val).MemOk :=
  h.plainWrite.foldl fun _ _ h₁ => .ite h₁ h₁.netLink

theorem Blk.MemOk.pwrCmd {b : Blk} {path val : Nat} (h : b.MemOk) : (b.pwrCmd path val).MemOk := by
  unfold Blk.pwrCmd
  refine .ite h.cmdHold ?_
  exact .ite h.cmdOff (.ite h.cmdWake (.ite h.cmdClear (.ite h.cmdCycle h.cmdRefused)))

theorem Blk.MemOk.qpCtrl {b : Blk} {q val : Nat} (h : b.MemOk) : (b.qpCtrl q val).MemOk := by
  unfold Blk.qpCtrl
  extract_lets b' b'' b'''
  have hb' : b'.MemOk := .ite h h.qpEnable
  have hb'' : b''.MemOk := .ite hb'.qpReset hb'
  have hb''' : b'''.MemOk := .ite hb''.qpDrop hb''
  exact .ite hb'''.qpEnable hb'''

theorem Blk.MemOk.attCtrl {b : Blk} {val : Nat} (h : b.MemOk) : (b.attCtrl val).MemOk := by
  unfold Blk.attCtrl
  extract_lets b'
  have hb' : b'.MemOk := .ite h.attach h
  exact .ite hb'.attEnd hb'

theorem Blk.MemOk.objCtrl {b : Blk} {val : Nat} (h : b.MemOk) : (b.objCtrl val).MemOk := by
  unfold Blk.objCtrl
  refine .ite h.putReg ?_
  refine .ite (h.putReg.objLoad (fun _ _ _ h₁ => h₁.stage)) ?_
  refine .ite (h.putReg.objLoad (fun _ _ _ h₁ => h₁.enrol)) ?_
  exact .ite h.putReg.objReport h.putReg.objCert

theorem Blk.MemOk.sdgRefused {b : Blk} {path off : Nat} (h : b.MemOk) : (b.sdgRefused path off).MemOk := h.logE

theorem Blk.MemOk.writeWord {b : Blk} {path off val : Nat} (h : b.MemOk) : (b.writeWord path off val).1.MemOk := by
  unfold Blk.writeWord
  refine .iteFst h ?_
  refine .iteFst h.sdgRefused ?_
  refine .iteFst h ?_
  refine .iteFst h ?_
  refine .iteFst h.modeReq ?_
  refine .iteFst h.objCtrl ?_
  refine .iteFst h.attCtrl ?_
  refine .iteFst h.reattach ?_
  refine .iteFst h.heartbeat ?_
  refine .iteFst h.commitWrite ?_
  refine .iteFst ?_ ?_
  · refine .iteFst h.qpCtrl ?_
    exact .iteFst h.ring (.iteFst h.cqHeadWrite (.iteFst h.commitWrite h.plainWrite))
  · refine .iteFst h.layCtrl ?_
    refine .iteFst h.pwrCmd ?_
    refine .iteFst h.padRel ?_
    refine .iteFst h.linkPattern ?_
    refine .iteFst h.commitWrite ?_
    refine .iteFst h.tailWrite ?_
    refine .iteFst h.fabCtrl ?_
    refine .iteFst h.netCtrl ?_
    refine .iteFst h.qpcCmd ?_
    refine .iteFst h.commitWrite ?_
    refine .iteFst (.iteFst h.scCtrl (.iteFst h.commitWrite h.plainWrite)) ?_
    refine .iteFst h.trnCtrl ?_
    refine .iteFst (.ite h.logE h.plainWrite) ?_
    exact .iteFst h.capCtrl (.iteFst h.leaseOp h.plainWrite)

theorem Blk.MemOk.msixWrite {b : Blk} {x val : Nat} (h : b.MemOk) : (b.msixWrite x val).MemOk := by
  unfold Blk.msixWrite
  refine .ite h ?_
  refine .ite ?_ h.upd
  extract_lets _ _ b'
  have hb' : b'.MemOk := h.upd
  exact .ite h.upd (.ite hb'.upd.msix hb')

theorem Blk.MemOk.busWrite {b : Blk} {path off : Nat} {wide : Bool} {val : Nat} (h : b.MemOk) :
    (b.busWrite path off wide val).MemOk := by
  unfold Blk.busWrite
  refine .ite ?_ ?_
  · refine .ite h ?_
    extract_lets b'
    have hb' : b'.MemOk := h.msixWrite
    exact .ite hb'.msixWrite hb'
  · refine .ite h.badAccess ?_
    extract_lets c'
    have hc' : c'.MemOk := h.writeWord
    exact .ite hc'.writeWord hc'

theorem Blk.MemOk.hostCmd {i : Instr} {b : Blk} (h : b.MemOk) : (Machine.hostCmd i b).MemOk := by
  unfold Machine.hostCmd
  split
  · exact h.badAccess
  · exact .ite h.busWrite h
  · exact h.busWrite
  · exact h.commitOver
  · exact .ite h.layCtrl h
  · exact .ite h.scCtrl h
  · exact .ite h.trnCtrl h
  · exact h.send
  · exact .ite h.ring h
  · exact .ite h.cqHeadWrite h
  · exact .ite h.qpEnable h
  · exact .ite h.qpReset h
  · exact .ite h.qpDrop h
  · exact h.attach
  · exact h.attEnd
  · exact h.reattach
  · exact h.heartbeat
  · exact h.cmdHold
  · exact h.cmdOff
  · exact h.cmdWake
  · exact h.cmdClear
  · exact h.cmdCycle
  · exact .ite h.padRel h
  · exact .ite h.linkPattern h
  · exact .ite h.capCtrl h
  · exact .ite h.tailWrite h
  · exact .ite h.modeReq h
  · exact .ite (h.objLoad (fun _ _ _ h₁ => h₁.stage)) h
  · exact .ite (h.objLoad (fun _ _ _ h₁ => h₁.enrol)) h
  · exact .ite h.objReport h
  · exact .ite h.objCert h
  · exact h.leaseAcquire
  · exact h.leaseRenew
  · exact h.leaseRelease
  · exact h.fabCtrl
  · exact h.fabCtrl
  · exact h.qpcRow
  · exact h.qpcRow
  · exact h.qpcRow
  · exact h.hostRead
  · exact h

theorem Blk.MemOk.wakeDie {b : Blk} {d : Nat} (h : b.MemOk) : (b.wakeDie d).MemOk := by
  unfold Blk.wakeDie
  extract_lets
  split
  · exact h.setDie
  · exact h

theorem Blk.MemOk.setUnit {b : Blk} {u : Nat} {x : UnitSt} (h : b.MemOk) : (b.setUnit u x).MemOk := h.upd

theorem Blk.MemOk.askPairs {b : Blk} {mpa len : Nat} (h : b.MemOk) : (b.askPairs mpa len).MemOk :=
  .ite (h.foldl fun _ _ h₁ => .ite h₁.setUnit h₁) h

theorem Blk.MemOk.askExit {b : Blk} {mpa len : Nat} (h : b.MemOk) : (b.askExit mpa len).MemOk :=
  .askPairs (h.foldl fun _ _ h₁ => h₁.wakeDie)

theorem Blk.MemOk.hold {b : Blk} {r : HeldReq} (h : b.MemOk) : (b.hold r).MemOk := h.upd

theorem Blk.MemOk.carry {b : Blk} {i : Instr} (h : b.MemOk) : (b.carry i).MemOk := .ite h.askExit.hold h.hostCmd

theorem Blk.MemOk.winEvent {b : Blk} {i : Nat} (h : b.MemOk) : (b.winEvent i).MemOk := h.orReg

theorem Blk.MemOk.winRange {b : Blk} {mpa : Nat} (h : b.MemOk) : (b.winRange mpa).MemOk := h.logE.incReg.winEvent

theorem Blk.MemOk.winPut {b : Blk} {mpa : Nat} {d : Bytes} (h : b.MemOk) : (b.winPut mpa d).MemOk := by
  have hput : ∀ ps : List (Nat × Nat × Bool), (ps.foldl (fun (b : Blk) p =>
      if p.2.2 then (Machine.writePiece b rqWin p.1 (bytesAt d (p.1 - mpa) p.2.1)).1 else b) (b.chargeRange cHub mpa d.length true)).MemOk :=
    fun _ => h.chargeRange.foldl fun _ _ h₁ => .ite h₁.writePiece h₁
  unfold Blk.winPut
  dsimp only
  split
  · exact (hput _).winRange
  · exact hput _

theorem Blk.MemOk.slotViolation {b : Blk} {i mpa : Nat} (h : b.MemOk) : (b.slotViolation i mpa).MemOk := by
  unfold Blk.slotViolation
  extract_lets b' b''
  have hb' : b'.MemOk := h.incReg.winEvent
  have hb'' : b''.MemOk := hb'.logE
  exact .ite hb' hb''.upd

theorem Blk.MemOk.winSlotWrite {b : Blk} {i x mpa : Nat} {d : Bytes} (h : b.MemOk) : (b.winSlotWrite i x mpa d).MemOk := by
  have ho := h.slotOwner (i := i)
  unfold Blk.winSlotWrite
  generalize b.slotOwner i = r at ho ⊢
  obtain ⟨c, o⟩ := r
  dsimp -zeta only
  extract_lets _ _ _ _ _ _ _ _ c₁ c₂ c₃
  have h₁ : c₁.MemOk := .ite ho.slotViolation ho
  have h₂ : c₂.MemOk := .ite h₁ h₁.winPut
  have h₃ : c₃.MemOk := .ite (.ite h₂ h₂.winPut) h₁
  exact .ite h₃.setOwner h₃

theorem Blk.MemOk.winWriteNow {b : Blk} {off : Nat} {d : Bytes} {base : Nat} (h : b.MemOk) : (b.winWriteNow off d base).MemOk := by
  unfold Blk.winWriteNow
  refine h.foldl fun _ _ h₁ => ?_
  split
  · exact h₁.winSlotWrite
  · exact h₁.winPut

theorem Blk.MemOk.winWrite {b : Blk} {off : Nat} {d : Bytes} {base : Nat} (h : b.MemOk) : (b.winWrite off d base).MemOk :=
  .ite h.askExit.hold h.winWriteNow

theorem Blk.MemOk.moduleFault {b : Blk} {detail : Nat} (h : b.MemOk) : (b.moduleFault detail).MemOk := by
  unfold Blk.moduleFault
  extract_lets b'
  have hb' : b'.MemOk := h.orReg.sdgEvent
  exact hb'.upd.logE

theorem Blk.MemOk.sramHit {b : Blk} {qp : Option Nat} {path buf off : Nat} (h : b.MemOk) : (b.sramHit qp path buf off).MemOk := by
  unfold Blk.sramHit
  extract_lets _ _ _ _ b'
  have hb' : b'.MemOk := h.updMem.logE
  exact .ite hb'.moduleFault hb'

theorem Blk.MemOk.winReadNow {b : Blk} {off len base : Nat} (h : b.MemOk) : (b.winReadNow off len base).MemOk := by
  unfold Blk.winReadNow
  extract_lets ps c
  have hc : c.MemOk := h.chargeRange
  split
  next c₁ d bad h₁ =>
    have h₁ : c₁.MemOk := by
      refine .of_eq ?_ h₁
      exact Blk.MemOk.foldlFst hc fun _ _ h₂ => .iteFst h₂ (.iteFst h₂.readPiece h₂.readPiece)
    extract_lets c₂
    have h₂ : c₂.MemOk := by
      unfold c₂
      split
      · exact h₁.winRange
      · exact h₁
    clear_value c₂
    split
    next c₃ d bad h₃ =>
      have h₃ : c₃.MemOk := by
        split at h₃
        · cases h₃
          exact h₂.sramHit
        · cases h₃
          exact h₂
      exact Blk.MemOk.send (.ite h₃ h₃.winEvent)

theorem Blk.MemOk.winRead {b : Blk} {off len base : Nat} (h : b.MemOk) : (b.winRead off len base).MemOk :=
  .ite h.askExit.hold h.winReadNow

theorem Blk.MemOk.frame {b : Blk} {n kind psn : Nat} {d : Bytes} (h : b.MemOk) : (b.frame n kind psn d).MemOk := h.send

theorem Blk.MemOk.ackFrame {b : Blk} {n : Nat} {f : RFrame} (h : b.MemOk) : (b.ackFrame n f).MemOk := .ite h.frame h

theorem Blk.MemOk.noteScope {b : Blk} {q seq scope : Nat} (h : b.MemOk) : (b.noteScope q seq scope).MemOk := h.updFlight

theorem Blk.MemOk.noteSlots {b : Blk} {q seq mpa len : Nat} (h : b.MemOk) : (b.noteSlots q seq mpa len).MemOk := by
  unfold Blk.noteSlots
  split
  · exact h
  · exact h.foldl fun _ _ h₁ => .ite h₁.upd h₁

theorem Blk.MemOk.otherWrite {b : Blk} {rq : Req} {a : Nat} {d : Bytes} (h : b.MemOk) : (b.otherWrite rq a d).1.MemOk := by
  unfold Blk.otherWrite
  split
  · exact h.writeRange
  · exact h.foldlFst fun _ _ h₁ => h₁.writeRange

theorem Blk.MemOk.land {b : Blk} {f : RFrame} {x : QpcSt} {p : NetPost} {d : Bytes} (h : b.MemOk) : (b.land f x p d).MemOk := by
  have hw := h.otherWrite (rq := rqNet x) (a := p.addr) (d := d)
  unfold Blk.land
  generalize b.otherWrite (rqNet x) p.addr d = r at hw ⊢
  obtain ⟨c, s⟩ := r
  refine .ite h.setQpc.netFinish.frame.qpcError ?_
  dsimp -zeta only
  extract_lets _ c₂
  have hc : c₂.MemOk := Blk.MemOk.setQpc (Blk.MemOk.noteSlots (Blk.MemOk.noteScope hw))
  exact .ite hc.netFinish.frame hc.netFinish.ackFrame

theorem Blk.MemOk.inOrder {b : Blk} {f : RFrame} {go : Blk → QpcSt → Blk} (h : b.MemOk)
    (hgo : ∀ b x, b.MemOk → (go b x).MemOk) : (b.inOrder f go).MemOk := by
  have hecn : (if f.ecn then b.frame f.qpn 7 0 [] else b).MemOk := .ite h.frame h
  exact .ite (hgo _ _ hecn) (.ite hecn.frame hecn.frame)

theorem Blk.MemOk.rdmaSend {b : Blk} {f : RFrame} (h : b.MemOk) : (b.rdmaSend f).MemOk := by
  unfold Blk.rdmaSend
  refine .inOrder h ?_
  intro _ _ h₁
  refine .ite (.ite h₁.setQpc.ring.ackFrame h₁.setQpc.ackFrame) ?_
  split
  · exact h₁.frame
  · exact .ite h₁.land h₁.setQpc.ackFrame

theorem Blk.MemOk.accessNak {b : Blk} {n psn : Nat} (h : b.MemOk) : (b.accessNak n psn).MemOk := h.frame.qpcError.incReg

theorem Blk.MemOk.rdmaRead {b : Blk} {f : RFrame} (h : b.MemOk) : (b.rdmaRead f).MemOk := by
  unfold Blk.rdmaRead
  refine .inOrder h ?_
  intro _ _ h₁
  refine .ite h₁.accessNak ?_
  split
  · exact h₁.sramHit.frame
  · exact .ite h₁.readRange.frame h₁.readRange.setQpc.frame

theorem Blk.MemOk.fabWrite {b : Blk} {rq : Req} {a : Nat} {d : Bytes} (h : b.MemOk) : (b.fabWrite rq a d).1.MemOk := by
  unfold Blk.fabWrite
  extract_lets _ _ b'
  have hb' : b'.MemOk := h.otherWrite.foldl fun _ _ h₁ => .ite h₁ (.ite h₁.slotOwner.setOwner h₁.slotOwner)
  exact .iteFst h.writeRange hb'

theorem Blk.MemOk.rdmaWrite {b : Blk} {f : RFrame} (h : b.MemOk) : (b.rdmaWrite f).MemOk := by
  unfold Blk.rdmaWrite
  refine .inOrder h ?_
  intro _ _ h₁
  refine .ite h₁.accessNak ?_
  refine .ite (.frame (.setQpc (.iteFst h₁ h₁.fabWrite))) ?_
  exact .ackFrame (.setQpc (.iteFst h₁ h₁.fabWrite))

theorem Blk.MemOk.holdFrame {b : Blk} {op : Nat} {f : RFrame} (h : b.MemOk) : (b.holdFrame op f).MemOk :=
  .ite h.incReg.netEvent (.ite h.hold.send h.hold)

theorem Blk.MemOk.rdmaIn {b : Blk} {op : Nat} {f : RFrame} (h : b.MemOk) : (b.rdmaIn op f).MemOk := by
  unfold Blk.rdmaIn
  refine .ite h ?_
  refine .ite h.holdFrame ?_
  exact .ite h.askExit.holdFrame (.ite h.rdmaWrite (.ite h.rdmaRead h.rdmaSend))

theorem Blk.MemOk.giveBack {b : Blk} {l vc n : Nat} (h : b.MemOk) : (b.giveBack l vc n).MemOk := .ite h h.send

theorem Blk.MemOk.respond {b : Blk} {req : Packet} {typ st : Nat} {data : Bytes} (h : b.MemOk) :
    (b.respond req typ st data).MemOk := h.getD fun _ hc => h.originate hc

theorem Blk.MemOk.homeEntry {b : Blk} {p : Packet} (h : b.MemOk) : (b.homeEntry p).MemOk :=
  .ite h.respond (.ite h.otherWrite.respond h.otherWrite.ring.respond)

theorem Blk.MemOk.homeDoorbell {b : Blk} {p : Packet} (h : b.MemOk) : (b.homeDoorbell p).MemOk := by
  unfold Blk.homeDoorbell
  extract_lets _ b'
  have hb' : b'.MemOk := .ite h.ring h
  exact hb'.respond

theorem Blk.MemOk.atomicAt {b : Blk} {rq : Req} {mpa op x y : Nat} (h : b.MemOk) : (b.atomicAt rq mpa op x y).1.MemOk := by
  unfold Blk.atomicAt
  extract_lets _ r'
  have hr' : r'.b.MemOk := h.readRange
  exact .iteFst hr' hr'.otherWrite

theorem Blk.MemOk.homeAtomic {b : Blk} {p : Packet} (h : b.MemOk) : (b.homeAtomic p).MemOk :=
  .ite h.respond (.ite h.respond h.atomicAt.respond)

theorem Blk.MemOk.homeWrite {b : Blk} {p : Packet} (h : b.MemOk) : (b.homeWrite p).MemOk := .ite h.respond h.fabWrite.respond

theorem Blk.MemOk.homeRead {b : Blk} {p : Packet} (h : b.MemOk) : (b.homeRead p).MemOk := by
  unfold Blk.homeRead
  refine .ite h.respond ?_
  split
  · exact h.sramHit.respond
  · extract_lets r'
    have hr' : r'.b.MemOk := h.readRange
    exact .ite hr'.respond hr'.respond

theorem Blk.MemOk.homeReq {b : Blk} {l : Nat} {p : Packet} (h : b.MemOk) : (b.homeReq l p).MemOk := by
  unfold Blk.homeReq
  refine .ite h.hold ?_
  refine .ite h.askExit.hold ?_
  refine .ite h.homeRead ?_
  refine .ite h.homeWrite ?_
  exact .ite h.homeAtomic (.ite h.respond (.ite h.homeDoorbell h.homeEntry))

theorem Blk.MemOk.responseIn {b : Blk} {p : Packet} (h : b.MemOk) : (b.responseIn p).MemOk := by
  unfold Blk.responseIn
  split
  · exact h
  · refine .ite ?_ (.ite h (.ite h.failTxn h.endTxn.updFlight))
    extract_lets _ b'
    have hb' : b'.MemOk := .ite h.upd h
    exact hb'.naked

theorem Blk.MemOk.transit {b : Blk} {l : Nat} {p : Packet} (h : b.MemOk) : (b.transit l p).MemOk := by
  unfold Blk.transit
  refine .ite h.hold ?_
  split
  next _ hc =>
    have h₁ := h.forward hc
    exact h₁
  · exact .ite h h.routeNak

theorem Blk.MemOk.linkState {b : Blk} {l : Nat} {p : Packet} (h : b.MemOk) : (b.linkState l p).MemOk := .ite h h.upd.flood

theorem Blk.MemOk.packetDo {b : Blk} {l : Nat} {p : Packet} (h : b.MemOk) : (b.packetDo l p).MemOk :=
  .ite h.incReg (.ite h.linkState (.ite h.transit (.ite h.responseIn h.homeReq)))

theorem Blk.MemOk.packetGo {b : Blk} {l : Nat} {p : Packet} (h : b.MemOk) : (b.packetGo l p).MemOk :=
  .ite h.packetDo h.packetDo.setLink.giveBack

theorem Blk.MemOk.runHeld {b : Blk} {x : HeldReq} (h : b.MemOk) : (b.runHeld x).MemOk := by
  unfold Blk.runHeld
  extract_lets
  split
  · exact h.packetGo
  · exact h.rdmaIn
  · exact .ite h.winRead h.hold
  · exact .ite h.winWrite h.hold
  · exact .ite h.carry h.hold

theorem Blk.MemOk.releaseHeld {b : Blk} (h : b.MemOk) : (b.releaseHeld).MemOk := .ite h (h.upd.foldl fun _ _ h₁ => h₁.runHeld)

theorem Blk.MemOk.smear {b : Blk} {rq : Req} {a : Nat} {d : Bytes} (h : b.MemOk) : (b.smear rq a d).MemOk :=
  .ite h.writeRange.upd h

theorem Blk.MemOk.scramble {b : Blk} {rq : Req} {d : Desc} {ixs : List Int} {e0 n : Nat} (h : b.MemOk) :
    (b.scramble rq d ixs e0 n).MemOk := by
  unfold Blk.scramble
  refine h.foldl fun _ _ h₁ => ?_
  extract_lets _ b'
  have hb' : b'.MemOk := h₁.smear
  exact .ite h₁ hb'.upd

theorem Blk.MemOk.start {b : Blk} {f : Flight} {port : Nat} (h : b.MemOk) : (Wk.start b f port).MemOk := h.wk

theorem Blk.MemOk.hub {b : Blk} {f : Flight} {port : Nat} (h : b.MemOk) : (Wk.hub b f port).MemOk := by
  unfold Wk.hub
  extract_lets w'
  have hw' : w'.MemOk := h.start
  exact hw'.upd

theorem Wk.MemOk.flag {w : Wk} {f : Nat} (h : w.MemOk) : (w.flag f).MemOk := h.upd

theorem Wk.MemOk.fail {w : Wk} {st : Nat} (h : w.MemOk) : (w.fail st).MemOk := .ite h.upd h

theorem Wk.MemOk.read {w : Wk} {a len : Nat} (h : w.MemOk) : (w.read a len).1.MemOk := by
  unfold Wk.read
  refine .iteFst h ?_
  refine .iteFst ?_ ?_
  · extract_lets _ r' w'
    have hr' : r'.b.MemOk := h.blk.readRange
    have hw' : w'.MemOk := hr'.wk
    refine .iteFst h.blk.askExit.wk ?_
    exact .iteFst hw'.fail (.ite hw'.flag hw')
  · refine .iteFst h.fail ?_
    split
    · exact h
    · exact h.upd

theorem Wk.MemOk.units {w : Wk} {n : Nat} {as : List Nat} (h : w.MemOk) : (w.units n as).1.MemOk :=
  h.foldlFst fun _ _ h₁ => h₁.read

theorem Wk.MemOk.readFlags {w : Wk} {l : Loc} (h : w.MemOk) : (w.readFlags l).MemOk := by
  unfold Wk.readFlags
  extract_lets w'
  have hw' : w'.MemOk := .ite h.flag h
  exact .ite hw' hw'.flag

theorem Wk.MemOk.elems {w : Wk} {d : Desc} {ixs : List Int} {es : List Nat} (h : w.MemOk) : (w.elems d ixs es).1.MemOk := by
  unfold Wk.elems
  extract_lets _ w'
  have hw' : w'.MemOk := h.foldl fun _ _ h₁ => h₁.readFlags
  exact hw'.units

theorem Wk.MemOk.indices {w : Wk} {d : Desc} (h : w.MemOk) : (w.indices d).1.MemOk := by
  unfold Wk.indices
  refine .iteFst ?_ h
  split
  · exact h.fail
  · exact h.elems

theorem Blk.MemOk.sfuUndefined {b : Blk} {f : Flight} {r : Nat} (h : b.MemOk) : (b.sfuUndefined f r).MemOk := by
  unfold Blk.sfuUndefined
  extract_lets e one
  have hone : ∀ {b : Blk} {x per : Nat}, b.MemOk → (one x per b).MemOk := by
    intro b x per h
    dsimp only [one]
    split
    · exact h.scramble
    · exact h
  exact hone (hone h)

theorem Blk.MemOk.dropTxns {b : Blk} {q seq : Nat} (h : b.MemOk) : (b.dropTxns q seq).MemOk := by
  unfold Blk.dropTxns
  extract_lets _ b'
  have hb' : b'.MemOk := h.upd
  exact hb'.updFlight

theorem Blk.MemOk.convKeep {b : Blk} {c : Conv} (h : b.MemOk) : (b.convKeep c).MemOk := .ite h.updMem.finish h.updMem

theorem Blk.MemOk.endConv {b : Blk} {c : Conv} {st : Nat} {k : EndKind} (h : b.MemOk) : (b.endConv c st k).MemOk := by
  unfold Blk.endConv
  split
  · exact h.convKeep
  · exact h.updMem.finish

theorem Blk.MemOk.setHub {b : Blk} {x : HubSt} (h : b.MemOk) : (b.setHub x).MemOk := h.upd

theorem Blk.MemOk.vecEnd {b : Blk} {r : VeRun} {st : Nat} (h : b.MemOk) : (b.vecEnd r st).MemOk := by
  unfold Blk.vecEnd
  extract_lets _ _ _ _ b'
  have hb' : b'.MemOk := by
    unfold b'
    split
    · exact h.setHub
    · refine .ite h.setHub ?_
      refine h.setHub.foldl fun _ _ h₁ => ?_
      split
      · exact h₁
      · refine .ite (.scramble (.ite (.scramble (.ite h₁.scramble h₁)) (.ite h₁.scramble h₁))) ?_
        exact .ite (.scramble (.ite h₁.scramble h₁)) (.ite h₁.scramble h₁)
  exact hb'.finish

theorem Blk.MemOk.vecStop {b : Blk} {r : VeRun} {st : Nat} (h : b.MemOk) : (b.vecStop r st).MemOk := .ite h.setHub h.vecEnd

theorem Blk.MemOk.tileDrop {b : Blk} {q seq : Nat} (h : b.MemOk) : (b.tileDrop q seq).MemOk := h.setHub

theorem Blk.MemOk.updTile {b : Blk} {q seq : Nat} {g' : TileJob → TileJob} (h : b.MemOk) : (b.updTile q seq g').MemOk :=
  h.setHub

theorem Blk.MemOk.setOx {b : Blk} {k : Nat} {x : OxSt} (h : b.MemOk) : (b.setOx k x).MemOk := h.setHub

theorem Blk.MemOk.oxTake {b : Blk} (h : b.MemOk) : (b.oxTake).MemOk := by
  unfold Blk.oxTake
  refine h.foldl fun _ _ h₁ => ?_
  refine .ite h₁ ?_
  split
  · exact h₁
  · exact h₁.updTile.setOx

theorem Blk.MemOk.tileEnd {b : Blk} {j : TileJob} {st flags : Nat} (h : b.MemOk) : (b.tileEnd j st flags).MemOk := by
  unfold Blk.tileEnd
  split
  · exact h.tileDrop.oxTake
  · extract_lets _ b'
    have hb' : b'.MemOk := by
      unfold b'
      refine .ite ?_ h.tileDrop
      split
      · exact h.tileDrop.scramble
      · exact h.tileDrop
    exact hb'.finish.oxTake

theorem Blk.MemOk.tileStop {b : Blk} {j : TileJob} {st : Nat} (h : b.MemOk) : (b.tileStop j st).MemOk :=
  .ite h.updTile h.tileEnd

theorem Blk.MemOk.setJobs {b : Blk} {j : List Job} (h : b.MemOk) : (b.setJobs j).MemOk := h.upd

theorem Blk.MemOk.setTrees {b : Blk} {t : List TreeCtx} (h : b.MemOk) : (b.setTrees t).MemOk := h.upd

theorem Blk.MemOk.keepAnchors {b : Blk} {j : Job} (h : b.MemOk) : (b.keepAnchors j).MemOk := by
  unfold Blk.keepAnchors
  split
  · exact h
  · exact h.upd

theorem Blk.MemOk.spoilRange {b : Blk} {mpa len : Nat} (h : b.MemOk) : (b.spoilRange mpa len).MemOk := h.writeRange.upd

theorem Blk.MemOk.jobEnd {b : Blk} {j : Job} {st flags result : Nat} (h : b.MemOk) : (b.jobEnd j st flags result).MemOk := by
  unfold Blk.jobEnd
  extract_lets b' _ b''
  have hb' : b'.MemOk := .ite (h.keepAnchors.foldl fun _ _ h₁ => h₁.spoilRange) h
  have hb'' : b''.MemOk := hb'.setTrees.setJobs
  exact hb''.upd.finish

theorem Blk.MemOk.jobSettle {b : Blk} {own : Option (Nat × Nat)} (h : b.MemOk) : (b.jobSettle own).MemOk := by
  unfold Blk.jobSettle
  split
  · exact h
  · split
    · exact h
    · exact .ite h.jobEnd h

theorem Blk.MemOk.updJob {b : Blk} {q seq : Nat} {f : Job → Job} (h : b.MemOk) : (b.updJob q seq f).MemOk := h.setJobs

theorem Blk.MemOk.jobNote {b : Blk} {own : Option (Nat × Nat)} {u st : Nat} (h : b.MemOk) : (b.jobNote own u st).MemOk := by
  unfold Blk.jobNote
  split
  · exact h
  · extract_lets b'
    have hb' : b'.MemOk := h.updJob
    exact hb'.upd

theorem Blk.MemOk.closeSeq {b : Blk} {u st : Nat} (h : b.MemOk) : (b.closeSeq u st).MemOk := by
  unfold Blk.closeSeq
  extract_lets
  split
  · exact h
  · extract_lets _ _ _ b' _ _ b'' _ b''' b''''
    have hb' : b'.MemOk := .ite h.upd h
    have hb'' : b''.MemOk := hb'.setUnit
    have hb''' : b'''.MemOk := .ite hb''.upd hb''
    have hb'''' : b''''.MemOk := by
      unfold b''''
      split
      · exact hb'''.updJob
      · exact hb'''
    exact .ite hb''''.jobNote hb''''

theorem Blk.MemOk.grantN {b : Blk} {die fuel : Nat} (h : b.MemOk) : (b.grantN die fuel).MemOk := by
  induction fuel generalizing b with
  | zero => exact h
  | succ n ih =>
    unfold Blk.grantN
    refine .ite ?_ h
    split
    · exact h
    · exact ih h.upd

theorem Blk.MemOk.grant {b : Blk} {die : Nat} (h : b.MemOk) : (b.grant die).MemOk := h.grantN

theorem Blk.MemOk.yieldUnit {b : Blk} {u : Nat} (h : b.MemOk) : (b.yieldUnit u).MemOk := by
  unfold Blk.yieldUnit
  extract_lets
  split
  · split
    · exact h.setUnit
    · exact h.setUnit.updFlight
  · exact h

theorem Blk.MemOk.yieldIf {b : Blk} {u : Nat} (h : b.MemOk) : (b.yieldIf u).MemOk := .ite h.yieldUnit h

theorem Blk.MemOk.thermalRefuse {b : Blk} {u : Nat} {own : Option (Nat × Nat)} (h : b.MemOk) : (b.thermalRefuse u own).MemOk := by
  unfold Blk.thermalRefuse
  extract_lets _ b'
  have hb' : b'.MemOk := .ite h h.incReg
  exact hb'.jobNote

theorem Blk.MemOk.beginSeq {b : Blk} {u : Nat} {direct : Option Nat} {first last reps : Nat} {c : UCmd} (h : b.MemOk) :
    (b.beginSeq u direct first last reps c).MemOk := by
  unfold Blk.beginSeq
  extract_lets _ _ b'
  have hb' : b'.MemOk := h.setUnit.wakeDie
  exact .ite h (.ite h.thermalRefuse hb'.upd.yieldIf.grant)

theorem Blk.MemOk.stepAccRd {b : Blk} {u body : Nat} {sets : List Nat} {tag lat : Nat} {cmd : UCmd} {last : Bool} (h : b.MemOk) :
    (b.stepAccRd u body sets tag lat cmd last).MemOk := .ite h.setUnit h.setUnit

theorem Blk.MemOk.refuseRow {b : Blk} {u side row st : Nat} {own : Option (Nat × Nat)} (h : b.MemOk) :
    (b.refuseRow u side row st own).MemOk := h.logMem.setUnit

theorem Blk.MemOk.useRow {b : Blk} {u side : Nat} {own : Option (Nat × Nat)} (h : b.MemOk) : (b.useRow u side own).1.MemOk := by
  unfold Blk.useRow
  split
  · exact h
  · exact .iteFst h h.refuseRow

theorem Blk.MemOk.stepCwr {b : Blk} {u body lat : Nat} {own : Option (Nat × Nat)} (h : b.MemOk) :
    (b.stepCwr u body lat own).MemOk := by
  unfold Blk.stepCwr
  refine .ite h.useRow ?_
  split
  · exact h.useRow.setUnit
  · exact h.useRow.foldl fun _ _ h₁ => .ite h₁.setUnit h₁.putOpen

theorem Blk.MemOk.checkGroup {b : Blk} {u side grp : Nat} {own : Option (Nat × Nat)} (h : b.MemOk) :
    (b.checkGroup u side grp own).MemOk := by
  unfold Blk.checkGroup
  split
  · exact h.setUnit
  · exact .ite h.readOpen.setUnit h.readOpen

theorem Blk.MemOk.openRow {b : Blk} {u side row : Nat} {new : Bool} {own : Option (Nat × Nat)} (h : b.MemOk) :
    (b.openRow u side row new own).1.MemOk := .iteFst (.ite h.initSeg h) h.refuseRow

theorem Blk.MemOk.streamRows {b : Blk} {u : Nat} {banks : List Nat} {step : Nat} {own : Option (Nat × Nat)} (h : b.MemOk) :
    (b.streamRows u banks step own).MemOk := by
  unfold Blk.streamRows
  extract_lets b'
  have hb' : b'.MemOk := by
    unfold b'
    refine h.foldl fun _ _ h₁ => ?_
    extract_lets
    split
    · exact h₁.setUnit
    · exact h₁
  refine .ite hb' ?_
  refine hb'.foldl fun _ _ h₁ => ?_
  split
  · exact h₁
  · exact .ite h₁.openRow.setUnit h₁.openRow

theorem Blk.MemOk.stepCrd {b : Blk} {u body set lat : Nat} {own : Option (Nat × Nat)} (h : b.MemOk) :
    (b.stepCrd u body set lat own).MemOk := by
  unfold Blk.stepCrd
  extract_lets _ _ _ _ b'
  have hb' : b'.MemOk := .ite h.streamRows h
  refine .ite (hb'.foldlFst fun _ _ h₁ => .iteFst h₁.useRow h₁) ?_
  extract_lets _ b'
  have hb' : b'.MemOk := by
    unfold b'
    refine .foldl (hb'.foldlFst fun _ _ h₁ => .iteFst h₁.useRow h₁) fun _ _ h₁ => ?_
    exact h₁.checkGroup
  exact .ite hb'.upd.setUnit (.ite hb'.setUnit hb'.setUnit)

theorem Blk.MemOk.stepCact {b : Blk} {u body : Nat} {new : Bool} {own : Option (Nat × Nat)} (h : b.MemOk) :
    (b.stepCact u body new own).MemOk := h.foldl fun _ _ h₁ => .ite h₁.openRow (.ite h₁.openRow.setUnit h₁.openRow.setUnit)

theorem Blk.MemOk.pay {b c : Blk} {ch cls half : Nat} (h : b.MemOk) (hc : b.pay ch cls half = some c) : c.MemOk := by
  unfold Blk.pay at hc
  split at hc
  · cases hc
    exact h.take
  · cases hc

theorem Blk.MemOk.runStep {b : Blk} {u kind : Nat} (h : b.MemOk) : (b.runStep u kind).MemOk := by
  unfold Blk.runStep
  dsimp only
  split
  · exact h
  · refine .ite h ?_
    split
    · exact h
    next _ c hc =>
      generalize hd : c.setUnit u _ = d
      have h₁ : d.MemOk := hd ▸ (h.pay hc).setUnit
      refine .ite h₁.stepCact (.ite h₁.stepCrd (.ite h₁.stepCwr (.ite h₁.stepAccRd ?_)))
      exact .ite h₁.setUnit (.ite h₁.setUnit (.ite h₁.setUnit (.ite h₁.setUnit (Blk.MemOk.setUnit h₁.upd))))

theorem Blk.MemOk.refuseAim {b : Blk} {u : Nat} {x : Nat × Nat × Nat} {own : Option (Nat × Nat)} (h : b.MemOk) :
    (b.refuseAim u x own).MemOk := h.refuseRow.jobNote.jobSettle

theorem Blk.MemOk.directUnit {b : Blk} {c : UCmd} {u : Nat} (h : b.MemOk) : (b.directUnit c u).MemOk := by
  unfold Blk.directUnit
  refine .ite h ?_
  refine .ite h.setUnit.jobNote.jobSettle ?_
  split
  · exact h.refuseAim
  · exact h.beginSeq.runStep

theorem Blk.MemOk.stepGoUnit {b : Blk} {c : UCmd} {u : Nat} (h : b.MemOk) : (b.stepGoUnit c u).MemOk := by
  unfold Blk.stepGoUnit
  refine .ite h ?_
  refine .ite h.setUnit.logE.jobNote.jobSettle ?_
  refine .ite h.setUnit.jobNote.jobSettle ?_
  split
  · exact h.setUnit.refuseAim
  · exact h.setUnit.beginSeq

theorem Blk.MemOk.stepLdUnit {b : Blk} {c : UCmd} {u : Nat} (h : b.MemOk) : (b.stepLdUnit c u).MemOk := h.setUnit

theorem Blk.MemOk.tblUnit {b : Blk} {c : UCmd} {u : Nat} (h : b.MemOk) : (b.tblUnit c u).MemOk := by
  unfold Blk.tblUnit
  extract_lets x bank count
  have hcount : ∀ {b : Blk} {ok : Bool}, b.MemOk → (count b ok).MemOk := by
    intro b ok h
    dsimp only [count]
    split
    · exact h
    · exact h.updJob
  exact .ite (hcount h.setUnit.logE) (hcount h.setUnit)

theorem Blk.MemOk.oplUnit {b : Blk} {c : UCmd} {u : Nat} (h : b.MemOk) : (b.oplUnit c u).MemOk := h.setUnit

theorem Blk.MemOk.recheck {b : Blk} {own : Option (Nat × Nat)} {u : Nat} (h : b.MemOk) : (b.recheck own u).MemOk := by
  unfold Blk.recheck
  split
  · exact h
  · exact .ite h.jobNote.jobSettle h

theorem Blk.MemOk.pimUnit {b : Blk} {c : UCmd} {u : Nat} (h : b.MemOk) : (b.pimUnit c u).MemOk := by
  unfold Blk.pimUnit
  extract_lets _ b' b''
  have hb' : b'.MemOk := .ite h.recheck h
  have hb'' : b''.MemOk := hb'.closeBank.closeBank
  refine .ite hb''.setUnit.jobNote.jobSettle ?_
  exact .ite hb''.setUnit hb''.setUnit.grant

theorem Blk.MemOk.unitCmd {b : Blk} {c : UCmd} (h : b.MemOk) : (b.unitCmd c).MemOk := by
  unfold Blk.unitCmd
  refine h.foldl fun _ _ h₁ => ?_
  refine .ite h₁.pimUnit ?_
  exact .ite h₁.oplUnit (.ite h₁.tblUnit (.ite h₁.stepLdUnit (.ite h₁.stepGoUnit h₁.directUnit)))

theorem Blk.MemOk.runHeldCmds {b : Blk} {ch : Nat} (h : b.MemOk) : (b.runHeldCmds ch).MemOk :=
  h.foldl fun _ _ h₁ => .ite h₁ h₁.upd.unitCmd

theorem Blk.MemOk.endSeq {b : Blk} {u st : Nat} (h : b.MemOk) : (b.endSeq u st).MemOk := h.closeSeq.grant.runHeldCmds.jobSettle

theorem Blk.MemOk.stopJob {b : Blk} {q seq st : Nat} (h : b.MemOk) : (b.stopJob q seq st).MemOk := by
  unfold Blk.stopJob
  extract_lets _ _ _ b' _ b''
  have hb' : b'.MemOk := h.upd
  have hb'' : b''.MemOk := by
    unfold b''
    refine hb'.updJob.foldl fun _ _ h₁ => ?_
    extract_lets
    split
    · exact h₁
    · exact .ite h₁.setUnit h₁.endSeq
  exact hb''.jobSettle

theorem Blk.MemOk.killJob {b : Blk} {q seq st : Nat} (h : b.MemOk) : (b.killJob q seq st).MemOk := by
  unfold Blk.killJob
  split
  · exact h
  · exact h.upd.jobEnd

theorem Blk.MemOk.endEntry {b : Blk} {f : Flight} {st : Nat} {k : EndKind} (h : b.MemOk) : (b.endEntry f st k).MemOk := by
  unfold Blk.endEntry
  refine .ite h ?_
  refine .ite h.finish ?_
  refine .ite (.ite h.killJob h.stopJob) ?_
  split
  · exact .ite h.tileEnd h.tileStop
  · exact .ite h.vecEnd h.vecStop
  · exact h.endConv
  · extract_lets _ b'
    have hb' : b'.MemOk := .ite h.dropTxns.sfuUndefined h.dropTxns
    exact hb'.finish

theorem Blk.MemOk.veResume {b : Blk} {r : VeRun} (h : b.MemOk) : (b.veResume r).MemOk := h.setHub

theorem Blk.MemOk.vePick {b : Blk} {turn : Bool} (h : b.MemOk) : (b.vePick turn).MemOk := by
  unfold Blk.vePick
  extract_lets
  split
  · exact h.setHub
  · split
    · split
      · exact h.setHub
      · exact h
    · split
      · split
        · exact h.veResume
        · exact h.setHub
      · split
        · exact h.setHub.veResume
        · exact h.setHub

theorem Blk.MemOk.veIdle {b : Blk} (h : b.MemOk) : (b.veIdle).MemOk := .ite h.vePick h

theorem Blk.MemOk.endAll {b : Blk} {st : Nat} {k : EndKind} (h : b.MemOk) : (b.endAll st k).MemOk :=
  .veIdle (h.foldl fun _ _ h₁ => h₁.endEntry)

theorem Blk.MemOk.quiesceTimeout {b : Blk} (h : b.MemOk) : (b.quiesceTimeout).MemOk := .ite h.endAll h

theorem Blk.MemOk.dozeWatch {b : Blk} (h : b.MemOk) : (b.dozeWatch).MemOk := .ite h.beginEntry h

theorem Blk.MemOk.toDoze {b : Blk} (h : b.MemOk) : (b.toDoze).MemOk := .ite h (h.setPwr.goState.foldl fun _ _ h₁ => h₁.sleepDie)

theorem Blk.MemOk.runDoze {b : Blk} (h : b.MemOk) : (b.runDoze).MemOk := .ite h h.toDoze

theorem Blk.MemOk.keepExpiry {b : Blk} (h : b.MemOk) : (b.keepExpiry).MemOk := by
  unfold Blk.keepExpiry
  split
  · exact .ite h.setPwr h
  · exact h

theorem Blk.MemOk.trnStop {b : Blk} (h : b.MemOk) : (b.trnStop).MemOk := h.setChan

theorem Blk.MemOk.noteRevoke {b : Blk} {n x : Nat} (h : b.MemOk) : (b.noteRevoke n x).MemOk := h.logE.incReg.sdgEvent

theorem Blk.MemOk.revoke {b : Blk} {n : Nat} (h : b.MemOk) : (b.revoke n).MemOk := by
  unfold Blk.revoke
  split
  · exact h
  · extract_lets b'
    have hb' : b'.MemOk := h.freeLease.noteRevoke
    refine .ite hb'.upd ?_
    exact .ite (.ite hb'.trnStop.setReg hb') hb'

theorem Blk.MemOk.revokeIf {b : Blk} {p : Nat → Bool} (h : b.MemOk) : (b.revokeIf p).MemOk :=
  h.foldl fun _ _ h₁ => .ite h₁.revoke h₁

theorem Blk.MemOk.orphan {b : Blk} {cause : Nat} (h : b.MemOk) : (b.orphan cause).MemOk := by
  unfold Blk.orphan
  refine .ite h ?_
  extract_lets _ b' _ b''
  have hb' : b'.MemOk := h.stopHostPairs
  have hb'' : b''.MemOk := hb'.upd.attEvent
  exact .ite hb''.attEnd hb''

theorem Blk.MemOk.orphaned {b : Blk} {cause : Nat} (h : b.MemOk) : (b.orphaned cause).MemOk := .ite h.orphan.revokeIf h.orphan

theorem Blk.MemOk.linkGone {b : Blk} (h : b.MemOk) : (b.linkGone).MemOk := .ite h h.orphaned

theorem Blk.MemOk.readAgain {b : Blk} (h : b.MemOk) : (b.readAgain).MemOk := h.foldl fun _ _ h₁ => .ite h₁ h₁.send

theorem Blk.MemOk.linkLost {b : Blk} (h : b.MemOk) : (b.linkLost).MemOk := by
  unfold Blk.linkLost
  refine .ite h ?_
  extract_lets _ b'
  have hb' : b'.MemOk := h.upd.attEvent
  exact .ite hb' hb'.readAgain

theorem Blk.MemOk.perstRelease {b : Blk} (h : b.MemOk) : (b.perstRelease).MemOk := h.upd.hostPort

theorem Blk.MemOk.perstAssert {b : Blk} (h : b.MemOk) : (b.perstAssert).MemOk := h.upd.orphaned

theorem Blk.MemOk.orphanEnd {b : Blk} (h : b.MemOk) : (b.orphanEnd).MemOk := .ite h.attEnd h

theorem Blk.MemOk.heartbeatLost {b : Blk} (h : b.MemOk) : (b.heartbeatLost).MemOk := .ite h h.orphaned

theorem Blk.MemOk.linkSeen {b : Blk} (h : b.MemOk) : (b.linkSeen).MemOk := h.upd

theorem Blk.MemOk.gate {b : Blk} {x : HeldReq} {served : Bool} {f : Blk → Blk} (h : b.MemOk) (hf : ∀ b, b.MemOk → (f b).MemOk) :
    (b.gate x served f).MemOk := by
  have hb : b.linkSeen.MemOk := h.linkSeen
  unfold Blk.gate
  refine .ite h ?_
  dsimp only
  split
  · exact .ite hb.hold (hf _ hb)
  · exact .ite hb.hold (hf _ hb)
  · exact .ite (hf _ hb) hb.hold.wakeSource
  · refine .ite (.ite (hf _ hb) (.ite (hf _ ?_) ?_)) (.ite (.ite hb.hold (hf _ hb)) hb)
    · exact hb.wakeSource.releaseHeld
    · exact hb.wakeSource.releaseHeld.hold
  · exact .ite hb (.ite (hf _ hb) hb.wakeSource.hold)
  · exact hb

theorem Blk.MemOk.access {b : Blk} {p : Path} {i : Instr} (h : b.MemOk) : (b.access p i).MemOk := by
  unfold Blk.access
  split
  · exact h.gate (fun _ h₁ => h₁.carry)
  · exact .ite h.carry h
  · exact .ite h.carry h

theorem Blk.MemOk.setVe {b : Blk} {r : VeRun} {c : VeCtx} (h : b.MemOk) : (b.setVe r c).MemOk := .ite h.setHub h.setHub

theorem Wk.MemOk.writeN {w : Wk} {a : Nat} {d : Bytes} {n : Nat} (h : w.MemOk) : (w.writeN a d n).MemOk := by
  have ho := h.blk.otherWrite (rq := w.rq) (a := haMpa a) (d := d)
  unfold Wk.writeN
  refine .ite h (.ite ?_ (.ite h.fail h.upd))
  extract_lets m
  refine .ite h.blk.askExit.wk ?_
  generalize w.b.otherWrite w.rq m d = r at ho ⊢
  obtain ⟨c, s⟩ := r
  dsimp -zeta only
  extract_lets k v
  have hv : v.MemOk := Blk.MemOk.wk (.ite (Blk.MemOk.noteSlots (Blk.MemOk.noteScope ho)) ho)
  exact .ite hv.fail hv

theorem Wk.MemOk.writeRuns {w : Wk} {l : List (Nat × Bytes × Nat)} (h : w.MemOk) : (w.writeRuns l).MemOk := by
  induction l generalizing w with
  | nil => exact h
  | cons p t ih => exact ih h.writeN

theorem Wk.MemOk.putInBlock {w : Wk} {fmt : Nat} {p : Loc × Nat} (h : w.MemOk) : (w.putInBlock fmt p).MemOk := h.read.writeN

theorem Wk.MemOk.lands {w : Wk} {d : Desc} {l : Loc} {e : Nat} (h : w.MemOk) : (w.lands d l e).1.MemOk :=
  .iteFst h.flag (.iteFst h.flag (.iteFst (.iteFst h h.upd) h))

theorem Wk.MemOk.landing {w : Wk} {d : Desc} {ixs : List Int} {es : List (Nat × Nat)} (h : w.MemOk) :
    (w.landing d ixs es).1.MemOk := h.foldlFst fun _ _ h₁ => h₁.lands

theorem Wk.MemOk.putAt {w : Wk} {d : Desc} {ixs : List Int} {es : List (Nat × Nat)} (h : w.MemOk) : (w.putAt d ixs es).MemOk := by
  unfold Wk.putAt
  refine .ite (h.landing.foldl fun _ _ h₁ => h₁.putInBlock) ?_
  exact .ite h.landing.units.writeRuns h.landing.writeRuns

theorem Wk.MemOk.putRaws {w : Wk} {d : Desc} {ixs : List Int} {e0 : Nat} {raws : List Nat} (h : w.MemOk) :
    (w.putRaws d ixs e0 raws).MemOk := h.putAt

theorem Wk.MemOk.elem {w : Wk} {d : Desc} {ixs : List Int} {e : Nat} (h : w.MemOk) : (w.elem d ixs e).1.MemOk := h.elems

theorem Wk.MemOk.bytes {w : Wk} {d : Desc} {e0 n : Nat} (h : w.MemOk) : (w.bytes d e0 n).1.MemOk := h.indices.elems

theorem Wk.MemOk.putVals {w : Wk} {d : Desc} {ixs : List Int} {e0 : Nat} {xs : List Ex} (h : w.MemOk) :
    (w.putVals d ixs e0 xs).MemOk := by
  unfold Wk.putVals
  extract_lets _ w'
  have hw' : w'.MemOk := h.foldl fun _ _ h₁ => h₁.flag
  exact hw'.putRaws

theorem Wk.MemOk.vLoad {w : Wk} {d : Desc} {e0 n : Nat} (h : w.MemOk) : (w.vLoad d e0 n).1.MemOk :=
  .iteFst h.indices.elem h.indices.elems

theorem Wk.MemOk.vRow {w : Wk} {d : Desc} {old : List Elem} {len : Nat} (h : w.MemOk) : (w.vRow d old len).1.MemOk :=
  .iteFst h h.indices.elems

theorem Wk.MemOk.veRepeat {b : Blk} {w : Wk} {r : VeRun} {d : Desc} {s at' n : Nat} {epi : Bool} (h : w.MemOk) :
    (b.veRepeat w r d s at' n epi).1.MemOk := .iteFst h.vRow (.iteFst h.vRow.blk.updTile.wk h.vRow)

theorem Blk.MemOk.ldRead {b : Blk} {f : Flight} {r : VeRun} {d : Desc} {n : Nat} (h : b.MemOk) : (b.ldRead f r d n).1.MemOk :=
  .iteFst h.hub.veRepeat (.iteFst h.hub.veRepeat h.hub.vLoad)

theorem Blk.MemOk.askRemote {b : Blk} {q seq : Nat} {l : List (Nat × Nat)} (h : b.MemOk) : (b.askRemote q seq l).1.MemOk := by
  induction l generalizing b with
  | nil => exact h
  | cons p t ih =>
    unfold Blk.askRemote
    have hp : ∀ ps : List (Nat × Nat), (ps.foldl (fun (x : Blk × Nat) p =>
        if x.2 != stOK then x
        else if x.1.fab.txns.any (fun k => k.q == q && k.seq == seq && k.addr == p.1 && k.len == p.2) then x
        else match x.1.request q seq 0x01 (haModule p.1) p.1 p.2 0 [] with
          | .sent b => (b, stOK)
          | .noPath b => (b, stUNREACH)
          | .noTxn => x) (b, stOK)).1.MemOk := fun _ => by
      refine .foldlFst h fun s x h₁ => .iteFst h₁ (.iteFst h₁ ?_)
      split
      · next hc => exact h₁.of_sent hc
      · next hc => exact h₁.of_noPath hc
      · exact h₁
    exact .iteFst (hp _) (ih (hp _))

theorem Wk.MemOk.sent {w : Wk} (h : w.MemOk) : (w.sent).MemOk := by
  unfold Wk.sent
  refine .ite h ?_
  extract_lets _ b' b'' w'
  have hb' : b'.MemOk := .ite h.blk h.blk.updFlight
  have hb'' : b''.MemOk := by
    unfold b''
    split
    · exact hb'
    · exact .ite hb'.sendOut hb'.updFlight
  have hw' : w'.MemOk := hb''.wk
  refine .ite hb'.wk ?_
  split
  · exact hw'
  · exact .ite hw'.fail hw'

theorem Blk.MemOk.waits {w : Wk} {b c : Blk} (h : b.MemOk) (hc : w.waits b = some c) : c.MemOk := by
  unfold Wk.waits at hc
  split at hc
  · cases hc
    exact h.upd
  · split at hc
    · cases hc
    · cases hc
      exact .ite h.askRemote.finish h.askRemote

theorem Blk.MemOk.asks_fst {w : Wk} {b c : Blk} (h : b.MemOk) (hc : (w.asks b).1 = some c) : c.MemOk := by
  unfold Wk.asks at hc
  split at hc
  · exact h.waits hc
  · split at hc
    · cases hc
    · dsimp only at hc
      split at hc
      · cases hc
      · cases hc
        exact h.askRemote

theorem Wk.MemOk.asks_snd {w : Wk} {b : Blk} (h : w.MemOk) (g : b.MemOk) : (w.asks b).2.MemOk := by
  unfold Wk.asks
  split
  · exact h
  · split
    · exact h.sent
    · dsimp only
      split
      · exact g.askRemote.wk
      · exact h

/-- The work that has its bytes. -/
theorem Wk.MemOk.of_asks {w v : Wk} {b : Blk} {x : Option Blk} (h : w.MemOk) (g : b.MemOk) (e : w.asks b = (x, v)) : v.MemOk := by
  have hs := h.asks_snd g
  rw [e] at hs
  exact hs

theorem Blk.MemOk.veCommit {b : Blk} {w : Wk} {r : VeRun} {c : VeCtx} {fl : Flags} (h : b.MemOk) (g : w.MemOk) :
    (b.veCommit w r c fl).MemOk := by
  unfold Blk.veCommit
  split
  next hc => exact h.asks_fst (congrArg Prod.fst hc)
  next hc => exact (g.of_asks h hc).blk.setVe

theorem Blk.MemOk.veMem {b : Blk} {f : Flight} {r : VeRun} {c : VeCtx} {i : VIns} (h : b.MemOk) : (b.veMem f r c i).MemOk := by
  unfold Blk.veMem
  extract_lets epi vf e0 w A act pos
  have hw : w.MemOk := h.hub
  clear_value w
  refine .ite (h.veCommit hw) ?_
  split
  · exact h.setVe
  · refine .ite ?_ (.ite ?_ (.ite ?_ (.ite ?_ (.ite ?_ (.ite ?_ ?_)))))
    · split
      next v xs r h₁ => exact h.veCommit (h.ldRead.of_eq h₁).blk.upd.wk
    · split
      next v ixs h₁ =>
        have h₁ := hw.indices.of_eq h₁
        exact h.veCommit (.ite h₁.putVals (h₁.foldl fun _ _ h₂ => h₂.putVals))
    · split
      next v l h₁ => exact h.veCommit (hw.bytes.of_eq h₁).blk.upd.wk
    · split
      next v ixs h₁ =>
        have h₁ := hw.indices.of_eq h₁
        exact h.veCommit (.ite h₁.putVals.fail h₁.putVals)
    · split
      next v ixs h₁ =>
        extract_lets l
        split
        next u xs h₂ =>
          have h₂ := (hw.indices.of_eq h₁).elems.of_eq h₂
          extract_lets t
          have ht : t.MemOk := .ite h₂.flag h₂
          clear_value t
          exact h.veCommit ht.blk.upd.wk
    · split
      next v ixs h₁ =>
        split
        next u x h₂ => exact h.veCommit ((hw.indices.of_eq h₁).elem.of_eq h₂).blk.upd.wk
    · split
      next v ixs h₁ =>
        have h₁ := hw.indices.of_eq h₁
        exact h.veCommit (.ite h₁.putRaws h₁.putVals)

theorem Blk.MemOk.veStep {b : Blk} {op : Nat} (h : b.MemOk) : (b.veStep op).MemOk := by
  unfold Blk.veStep
  split
  · exact h
  · split
    · exact h
    · exact .ite h (.ite h.veMem h.upd.setVe)

theorem Blk.MemOk.trnTimeout {b : Blk} (h : b.MemOk) : (b.trnTimeout).MemOk := .ite h.trnStop.setReg h

theorem Blk.MemOk.layDone {b : Blk} (h : b.MemOk) : (b.layDone).MemOk := .ite h h.upd.layEvent.resumeFetch

theorem Blk.MemOk.layRelink {b : Blk} (h : b.MemOk) : (b.layRelink).MemOk :=
  .ite h (h.upd.foldl fun _ _ h₁ => .ite h₁.retrain h₁.linkOff)

theorem Blk.MemOk.layDrained {b : Blk} (h : b.MemOk) : (b.layDrained).MemOk := .ite h.upd h

theorem Blk.MemOk.layTimeout {b : Blk} (h : b.MemOk) : (b.layTimeout).MemOk :=
  .ite h (.ite h.endAll h.upd.layReject.resumeFetch)

theorem Blk.MemOk.layVerified {b : Blk} (h : b.MemOk) : (b.layVerified).MemOk := by
  unfold Blk.layVerified
  refine .ite h ?_
  split
  · exact h.upd.layReject
  · exact h.upd

theorem Blk.MemOk.layCopied {b : Blk} (h : b.MemOk) : (b.layCopied).MemOk := by
  unfold Blk.layCopied
  refine .ite h ?_
  refine .ite h.askExit ?_
  extract_lets _ b'
  have hb' : b'.MemOk := h.readRange
  exact .ite hb'.upd.layReject hb'.upd

theorem Blk.MemOk.drainWaiting {b : Blk} {l : Nat} (h : b.MemOk) : (b.drainWaiting l).MemOk :=
  h.setLink.foldl fun _ _ h₁ => h₁.sendOn

theorem Blk.MemOk.ackIn {b : Blk} {l ack cvc ccount : Nat} (h : b.MemOk) : (b.ackIn l ack cvc ccount).MemOk :=
  h.setLink.drainWaiting

theorem Blk.MemOk.idleFlit {b : Blk} {l ack cvc ccount : Nat} (h : b.MemOk) : (b.idleFlit l ack cvc ccount).MemOk :=
  .ite h.ackIn (.ite h.setLink h)

theorem Blk.MemOk.ackPosts {b : Blk} {n psn : Nat} (h : b.MemOk) : (b.ackPosts n psn).MemOk := by
  unfold Blk.ackPosts
  extract_lets _ _ b'
  have hb' : b'.MemOk := h.foldl fun _ _ h₁ => h₁.netFinish
  exact hb'.setQpc

theorem Blk.MemOk.readReturn {b : Blk} {n : Nat} {d : Bytes} (h : b.MemOk) : (b.readReturn n d).MemOk := by
  unfold Blk.readReturn
  extract_lets
  split
  · exact h
  · refine .ite h ?_
    refine .ite h.askExit ?_
    extract_lets _ _ b'
    have hb' : b'.MemOk := h.ackPosts.setQpc
    exact .ite hb' hb'.otherWrite.noteScope.noteSlots.netFinish

theorem Blk.MemOk.sideMode {b : Blk} {m : Nat} (h : b.MemOk) : (b.sideMode m).1.MemOk :=
  .iteFst (.ite h h.enterMode) (.iteFst h.enterMode (.iteFst h.enterMode h))

theorem Blk.MemOk.setModeCmd {b : Blk} {m : Nat} (h : b.MemOk) : (b.setModeCmd m).MemOk := h.sideMode.resp

theorem Blk.MemOk.romLoad {b : Blk} {r : Bytes} {len : Nat} (h : b.MemOk) : (b.romLoad r len).1.MemOk :=
  .iteFst h h.upd.setReg.romStart

theorem Blk.MemOk.sideObject {b : Blk} {kind : Nat} {d : Bytes} (h : b.MemOk) : (b.sideObject kind d).1.MemOk :=
  .iteFst h.romLoad (.iteFst h.stage (.iteFst h.enrol h.capsule))

theorem Blk.MemOk.loadObject {b : Blk} {kind off : Nat} {d : Bytes} {last : Bool} (h : b.MemOk) :
    (b.loadObject kind off d last).MemOk := .ite h (.ite h.resp (.ite h.upd.resp (.ite h.upd h.upd.sideObject.resp)))

theorem Blk.MemOk.writeReg {b : Blk} {code off val : Nat} (h : b.MemOk) : (b.writeReg code off val).MemOk := by
  unfold Blk.writeReg
  split
  · exact h.resp
  · refine .ite h.resp ?_
    extract_lets r'
    have hr' : r'.1.MemOk := .iteFst h h.writeWord
    exact hr'.resp

theorem Blk.MemOk.readRegs {b : Blk} {code off count : Nat} (h : b.MemOk) : (b.readRegs code off count).MemOk := by
  unfold Blk.readRegs
  split
  · exact h.resp
  · exact .ite h.resp h.resp

theorem Blk.MemOk.capApply {b : Blk} {r : Bytes} (h : b.MemOk) : (b.capApply r).MemOk := by
  unfold Blk.capApply
  extract_lets b'
  have hb' : b'.MemOk := h.foldl fun _ _ h₁ => h₁.setReg
  exact hb'.setReg.orReg.setSdg

theorem Blk.MemOk.capBoot {b : Blk} (h : b.MemOk) : (b.capBoot).MemOk := by
  unfold Blk.capBoot
  extract_lets b' _ _ _ _ _ b''
  have hb' : b'.MemOk := h.foldl fun _ _ h₁ => h₁.setReg
  have hb'' : b''.MemOk := hb'.setReg.clrReg.setSdg.setSdg
  split
  · exact hb''.capApply
  · exact hb''.capApply
  · exact hb''.capApply
  · exact hb''

theorem Blk.MemOk.applyTabl {b : Blk} {es : List TablEnt} (h : b.MemOk) : (b.applyTabl es).MemOk :=
  h.foldl fun _ _ h₁ => .ite (h₁.foldl fun _ _ h₂ => h₂.setUnit) h₁.setUnit

theorem Blk.MemOk.loadStruc {b : Blk} {st : Struc} (h : b.MemOk) : (b.loadStruc st).MemOk :=
  h.upd.foldl fun _ _ h₁ => h₁.setReg.setReg

theorem Blk.MemOk.takeStruc {b : Blk} {st : Struc} {active : Bool} (h : b.MemOk) : (b.takeStruc st active).MemOk := by
  unfold Blk.takeStruc
  extract_lets _ b'
  have hb' : b'.MemOk := h.loadStruc
  exact hb'.upd.applyTabl

theorem Blk.MemOk.judgeCopies {b : Blk} (h : b.MemOk) : (b.judgeCopies).MemOk := h.upd

theorem Blk.MemOk.bootObjects {b : Blk} (h : b.MemOk) : (b.bootObjects).MemOk := by
  unfold Blk.bootObjects
  extract_lets _ _ _ _ _ b'
  have hb' : b'.MemOk := by
    unfold b'
    split <;> exact h.upd.measure.judgeCopies.takeStruc.measure
  exact hb'.capBoot.measure

theorem Blk.MemOk.lateEvents {b : Blk} (h : b.MemOk) : (b.lateEvents).MemOk := h.upd.foldl fun _ _ h₁ => .ite h₁.raise h₁

theorem Blk.MemOk.raiseFloors {b : Blk} (h : b.MemOk) : (b.raiseFloors).MemOk := h.upd

theorem Blk.MemOk.reachRun {b : Blk} {ms : Nat} (h : b.MemOk) : (b.reachRun ms).MemOk := by
  unfold Blk.reachRun
  extract_lets _ _ b' _ b'' _ b''' b'''' _ b''''' b''''''
  have hb' : b'.MemOk := h.setPwr.goState
  have hb'' : b''.MemOk := hb'.upd
  have hb''' : b'''.MemOk := hb''.upd
  have hb'''' : b''''.MemOk := .ite hb'''.enterMode hb'''
  have hb''''' : b'''''.MemOk := .ite hb''''.logE.setSdg hb''''
  have hb'''''' : b''''''.MemOk := .ite hb'' hb'''''.raiseFloors.hostPort
  exact hb''''''.faultPin.linksOn.lateEvents.resumeFetch

theorem Blk.MemOk.laneFails {b : Blk} {ch : Nat} (h : b.MemOk) : (b.laneFails ch).MemOk := h.logE.scEvent

theorem Blk.MemOk.bootFw {b c : Blk} {n : Nat} (h : b.MemOk) (hc : b.bootFw n = some c) : c.MemOk := by
  unfold Blk.bootFw at hc
  split at hc
  · cases hc
  · cases hc
    exact h.upd.measure

theorem Blk.MemOk.zeroMeasures {b : Blk} (h : b.MemOk) : (b.zeroMeasures).MemOk := h.upd

theorem Blk.MemOk.bootIdent {b : Blk} {ok : Bool} (h : b.MemOk) : (b.bootIdent ok).MemOk := h.upd

theorem Blk.MemOk.startupStep {b : Blk} {ok : Bool} {ms : Nat} {bad : List Nat} (h : b.MemOk) : (b.startupStep ok ms bad).MemOk := by
  unfold Blk.startupStep
  extract_lets _ b'
  have hb' : b'.MemOk := h.zeroMeasures.bootIdent.setPwr
  refine .ite h ?_
  refine .ite ?_ ?_
  · split
    · exact hb'.stuck
    next _ hc =>
      have h₁ := hb'.bootFw hc
      split
      · exact h₁.stuck
      next _ hc =>
        have h₂ := h₁.bootFw hc
        exact h₂
  · refine .ite h.setPwr ?_
    refine .ite (h.setPwr.foldl fun _ _ h₁ => .ite h₁.laneFails h₁) ?_
    exact .ite h.bootObjects.reachRun h

theorem Blk.MemOk.clusterRestart {b : Blk} {core : Nat} (h : b.MemOk) : (b.clusterRestart core).MemOk := by
  unfold Blk.clusterRestart
  refine .ite h ?_
  extract_lets _ _ _ _ _ _ b'
  have hb' : b'.MemOk := h.upd.revokeIf.setSdg.setReg.logE.incReg.sdgEvent
  exact .ite hb'.orReg.moduleFault hb'

theorem Blk.MemOk.forceStop {b : Blk} {u st : Nat} (h : b.MemOk) : (b.forceStop u st).MemOk := by
  unfold Blk.forceStop
  extract_lets _ _ b'
  have hb' : b'.MemOk := h.setUnit.jobNote
  exact hb'.upd.grant.jobSettle

theorem Blk.MemOk.revokeUnit {b : Blk} {u : Nat} (h : b.MemOk) : (b.revokeUnit u).MemOk :=
  .ite h h.setSdg.forceStop.noteRevoke.moduleFault

theorem Blk.MemOk.leaseExpiry {b : Blk} {n u : Nat} (h : b.MemOk) : (b.leaseExpiry n u).MemOk := by
  unfold Blk.leaseExpiry
  refine .ite h.revokeUnit ?_
  split
  · exact .ite h.revoke h
  · exact h

theorem Blk.MemOk.capPersist {b : Blk} {ok : Bool} (h : b.MemOk) : (b.capPersist ok).MemOk := by
  unfold Blk.capPersist
  split
  · exact h
  · exact .ite h.setSdg h.setSdg

theorem Blk.MemOk.thermExt {b : Blk} {low : Bool} (h : b.MemOk) : (b.thermExt low).MemOk := .ite h.upd.sdgEvent h.upd

theorem Blk.MemOk.holdEnd {b : Blk} {secs : Nat} (h : b.MemOk) : (b.holdEnd secs).MemOk := by
  unfold Blk.holdEnd
  refine .ite h ?_
  extract_lets _ b' _ b''
  have hb' : b'.MemOk := h.clrReg
  have hb'' : b''.MemOk := hb'.upd
  exact .ite hb''.setSdg.startWake hb''.setSdg.faultPin

theorem Blk.MemOk.currentCheck {b : Blk} {ma mv : Nat} (h : b.MemOk) : (b.currentCheck ma mv).MemOk := .ite h h.setReg.setSdg

theorem Blk.MemOk.setSensor {b : Blk} {n : Nat} {x : SensorSt} (h : b.MemOk) : (b.setSensor n x).MemOk := h.setSdg

theorem Blk.MemOk.noteExcl {b : Blk} {n : Nat} {was now : Bool} (h : b.MemOk) : (b.noteExcl n was now).MemOk :=
  .ite h.logE.sdgEvent (.ite h.logE h)

theorem Blk.MemOk.regRead {b : Blk} {temps : List (Option Int)} (h : b.MemOk) : (b.regRead temps).MemOk :=
  h.foldl fun _ _ h₁ => h₁.setSdg.setSensor.noteExcl

theorem Blk.MemOk.freeDropped {b : Blk} (h : b.MemOk) : (b.freeDropped).MemOk := h.foldl fun _ _ h₁ => .ite h₁ h₁.freeDesc

theorem Blk.MemOk.dropFlight {b : Blk} {f : Flight} (h : b.MemOk) : (b.dropFlight f).MemOk := h.upd

theorem Blk.MemOk.slotRelease {b : Blk} {i : Nat} (h : b.MemOk) : (b.slotRelease i).MemOk := by
  have ho := h.slotOwner (i := i)
  unfold Blk.slotRelease
  generalize b.slotOwner i = r at ho ⊢
  obtain ⟨c, o⟩ := r
  exact .ite ho (Blk.MemOk.setOwner (.ite ho ho.readRange.readRange.writeRange))

theorem Blk.MemOk.slotsDone {b : Blk} {f : Flight} (h : b.MemOk) : (b.slotsDone f).MemOk := h.foldl fun _ _ h₁ => h₁.slotRelease

theorem Blk.MemOk.completeNow {b : Blk} {f : Flight} (h : b.MemOk) : (b.completeNow f).MemOk :=
  h.slotsDone.dropFlight.writeComp.freeDropped

theorem Blk.MemOk.endForRails {b : Blk} (h : b.MemOk) : (b.endForRails).MemOk :=
  h.endAll.foldl fun _ _ h₁ => .ite h₁.completeNow h₁

theorem Blk.MemOk.trip {b : Blk} {n secs : Nat} {nvOk : Bool} (h : b.MemOk) : (b.trip n secs nvOk).MemOk := by
  unfold Blk.trip
  refine .ite h ?_
  extract_lets _ b' b''
  have hb' : b'.MemOk := h.endForRails
  have hb'' : b''.MemOk := .ite hb'.revoke hb'
  exact hb''.incReg.orReg.setSdg.goOff

theorem Blk.MemOk.tripCheck {b : Blk} (h : b.MemOk) : (b.tripCheck).1.MemOk := by
  unfold Blk.tripCheck
  dsimp only
  exact h.foldl fun _ _ h₁ => .ite h₁ (.ite h₁ h₁.setSensor)

theorem Blk.MemOk.setFactors {b : Blk} {g' : Nat} {ss : List Nat} {cause : Nat} (h : b.MemOk) : (b.setFactors g' ss cause).MemOk := by
  unfold Blk.setFactors
  extract_lets _ _ _ _ b' b'' b''' b''''
  have hb' : b'.MemOk := h.setSdg.foldl fun _ _ h₁ => .ite h₁ h₁.setReg
  have hb'' : b''.MemOk := hb'.setReg
  have hb''' : b'''.MemOk := .ite hb''.orReg hb''.clrReg
  have hb'''' : b''''.MemOk := hb'''.sdgEvent
  exact .ite hb''' (.ite hb''''.logE hb'''')

theorem Blk.MemOk.newFactors {b : Blk} (h : b.MemOk) : (b.newFactors).MemOk := h.setFactors.setSdg

theorem Blk.MemOk.showTemps {b : Blk} (h : b.MemOk) : (b.showTemps).MemOk := by
  unfold Blk.showTemps
  extract_lets b' _ b''
  have hb' : b'.MemOk := h.foldl fun _ _ h₁ => .ite h₁ (.ite h₁ h₁.setReg)
  have hb'' : b''.MemOk := hb'.foldl fun _ _ h₁ => .ite h₁ h₁.setReg
  exact hb''.putReg

theorem Blk.MemOk.dieHeat {b : Blk} {d : Nat} {t : Int} (h : b.MemOk) : (b.dieHeat d t).MemOk := by
  unfold Blk.dieHeat
  refine .ite h ?_
  refine .ite ?_ h.setDie
  refine h.setDie.logE.scEvent.foldl fun _ _ h₁ => ?_
  extract_lets
  split
  · exact h₁
  · exact .ite h₁.setUnit h₁.endSeq

theorem Blk.MemOk.heatAll {b : Blk} (h : b.MemOk) : (b.heatAll).MemOk := .ite h (h.foldl fun _ _ h₁ => h₁.dieHeat)

theorem Blk.MemOk.driveTherm {b : Blk} (h : b.MemOk) : (b.driveTherm).MemOk := .ite h.upd.sdgEvent h.upd

theorem Blk.MemOk.sampleAll {b : Blk} {temps : List (Option Int)} (h : b.MemOk) : (b.sampleAll temps).MemOk :=
  h.foldl fun _ _ h₁ => h₁.setSensor.noteExcl

theorem Blk.MemOk.useRegs {b : Blk} (h : b.MemOk) : (b.useRegs).MemOk := h.foldl fun _ _ h₁ => h₁.setSensor

theorem Blk.MemOk.telemetry {b : Blk} {mv watts : Nat} {ok : Bool} (h : b.MemOk) : (b.telemetry mv watts ok).MemOk := by
  unfold Blk.telemetry
  extract_lets _ b'
  have hb' : b'.MemOk := .ite h.setReg h
  exact .ite hb'.setSdg (.ite hb'.setSdg hb'.setSdg.logE)

theorem Blk.MemOk.update {b : Blk} {temps : List (Option Int)} {mv watts : Nat} {telem : Bool} (h : b.MemOk) :
    (b.update temps mv watts telem).1.MemOk := h.sampleAll.useRegs.telemetry.newFactors.showTemps.heatAll.driveTherm.tripCheck

theorem Blk.MemOk.sensorUpdate {b : Blk} {temps : List (Option Int)} {mv watts : Nat} {telem : Bool} {secs : Nat} {nvOk : Bool}
    (h : b.MemOk) : (b.sensorUpdate temps mv watts telem secs nvOk).MemOk := by
  have hu : (b.update temps mv watts telem).1.MemOk := h.update
  unfold Blk.sensorUpdate
  refine .ite h ?_
  split
  · next he => rwa [he] at hu
  · next he => rw [he] at hu; exact hu.trip

theorem Blk.MemOk.wakeFail {b : Blk} {index cause : Nat} (h : b.MemOk) : (b.wakeFail index cause).MemOk :=
  .ite h (.ite h.stuck h.setPwr.pwrEvent)

theorem Blk.MemOk.railLost {b : Blk} {rail : Nat} (h : b.MemOk) : (b.railLost rail).MemOk := by
  unfold Blk.railLost
  refine .ite (.ite h.wakeFail h) ?_
  exact .ite h.setPwr.wakeFail (.ite h.endForRails.setSdg.goOff h.setPwr)

theorem Blk.MemOk.enHigh {b : Blk} {slot : Nat} (h : b.MemOk) : (b.enHigh slot).MemOk := by
  unfold Blk.enHigh
  extract_lets _ b'
  have hb' : b'.MemOk := h.upd
  exact .ite hb'.upd.startWake hb'

theorem Blk.MemOk.avsLate {b : Blk} {mv : Nat} (h : b.MemOk) : (b.avsLate mv).MemOk := by
  unfold Blk.avsLate
  split
  · exact h
  · refine .ite h.setPwr ?_
    extract_lets _ _ _ _ b'
    have hb' : b'.MemOk := .ite h.setPwr.setSdg h.setPwr
    exact hb'.incReg.logE.pwrEvent

theorem Blk.MemOk.pmbusDone {b : Blk} {ok : Bool} (h : b.MemOk) : (b.pmbusDone ok).MemOk :=
  .ite h.setPwr (.ite h.setPwr h.setPwr.pwrEvent)

theorem Blk.MemOk.patternEnd {b : Blk} {l : Nat} (h : b.MemOk) : (b.patternEnd l).MemOk :=
  .ite h (.ite h.setPwr.linkStart h.setPwr)

theorem Blk.MemOk.keepRetained {b : Blk} (h : b.MemOk) : (b.keepRetained).MemOk := h.updMem

theorem Blk.MemOk.holdLogic {b : Blk} {ident : Bool} {elapsed : Nat} (h : b.MemOk) : (b.holdLogic ident elapsed).MemOk := by
  unfold Blk.holdLogic
  extract_lets _ _ b'
  have hb' : b'.MemOk := h.upd.zeroMeasures.bootIdent
  split
  · exact hb'.stuck
  next _ hc =>
    have h₁ := hb'.bootFw hc
    split
    · exact h₁.stuck
    next _ hc =>
      have h₂ := h₁.bootFw hc
      exact h₂.bootObjects.keepRetained.reachRun

theorem Blk.MemOk.noteRestart {b : Blk} (h : b.MemOk) : (b.noteRestart).MemOk := .ite h.logE h

theorem Blk.MemOk.wakeReady {b : Blk} {elapsed : Nat} {ident : Bool} (h : b.MemOk) : (b.wakeReady elapsed ident).MemOk := by
  unfold Blk.wakeReady
  refine .ite h ?_
  refine .ite h.setPwr.setPwr.noteRestart ?_
  refine .ite (.ite h.setPwr h.setPwr.wakeAct) ?_
  exact .ite (.ite h.setPwr h) (.ite (.ite h.upd.reachRun h.holdLogic) h)

theorem Blk.MemOk.wakeIn {b : Blk} {low : Bool} (h : b.MemOk) : (b.wakeIn low).MemOk := .ite h.upd.wakeSource h.upd

theorem Blk.MemOk.linkWake {b : Blk} {l : Nat} (h : b.MemOk) : (b.linkWake l).MemOk := .ite h.wakeSource h

theorem Blk.MemOk.listen {b : Blk} {opens : Bool} (h : b.MemOk) : (b.listen opens).MemOk := .ite h.setPwr h

theorem Blk.MemOk.dieIdle {b : Blk} {d : Nat} (h : b.MemOk) : (b.dieIdle d).MemOk := .ite h.sleepDie h

theorem Blk.MemOk.hintTimeout {b : Blk} {q seq : Nat} (h : b.MemOk) : (b.hintTimeout q seq).MemOk := by
  unfold Blk.hintTimeout
  split
  · exact h
  · exact .ite h.finish h

theorem Blk.MemOk.hintRun {b : Blk} {q seq : Nat} (h : b.MemOk) : (b.hintRun q seq).MemOk := by
  unfold Blk.hintRun
  split
  · exact h
  · exact .ite h.finish (.ite h.setPwr.finish (.ite h h.setPwr.finish))

theorem Blk.MemOk.posted {b : Blk} {f : Flight} {n : Nat} {x : QpcSt} (h : b.MemOk) : (b.posted f n x).MemOk :=
  h.setQpc.updFlight

theorem Blk.MemOk.netPost {b : Blk} {q seq k : Nat} (h : b.MemOk) : (b.netPost q seq k).MemOk := by
  unfold Blk.netPost
  split
  · exact h
  · extract_lets _ _ _ _ _ r' b'
    have hr' : r'.b.MemOk := h.readRange
    have hb' : b'.MemOk := .ite hr'.updFlight hr'
    refine .ite h ?_
    refine .ite h.finish ?_
    refine .ite h.finish ?_
    refine .ite h.finish ?_
    refine .ite h.finish ?_
    refine .ite h.posted ?_
    refine .ite h ?_
    refine .ite h.posted.send ?_
    exact .ite h.askExit (.ite hr'.finish hb'.posted.send)

theorem Blk.MemOk.otherFrame {b : Blk} {port : Nat} (h : b.MemOk) : (b.otherFrame port).MemOk := .ite h.incReg h

theorem Blk.MemOk.pfc {b : Blk} {port prio : Nat} {on : Bool} (h : b.MemOk) : (b.pfc port prio on).MemOk := .ite h h.upd

theorem Blk.MemOk.regain {b : Blk} {n : Nat} (h : b.MemOk) : (b.regain n).MemOk := .ite h.setQpc h

theorem Blk.MemOk.cnp {b : Blk} {n : Nat} (h : b.MemOk) : (b.cnp n).MemOk := .ite h.setQpc h

theorem Blk.MemOk.retryLate {b : Blk} {n : Nat} (h : b.MemOk) : (b.retryLate n).MemOk := by
  unfold Blk.retryLate
  extract_lets
  split
  · exact h
  · exact .ite h (.ite h.setQpc.send h.qpcError)

theorem Blk.MemOk.rnrNak {b : Blk} {n : Nat} (h : b.MemOk) : (b.rnrNak n).MemOk := by
  unfold Blk.rnrNak
  extract_lets
  split
  · exact h
  · refine .ite h ?_
    extract_lets b'
    have hb' : b'.MemOk := .ite h h.ackPosts
    exact .ite hb'.setQpc.send hb'.qpcError

theorem Blk.MemOk.roceNak {b : Blk} {n psn : Nat} (h : b.MemOk) : (b.roceNak n psn).MemOk :=
  .ite h (.ite h.ackPosts h.ackPosts.qpcError)

theorem Blk.MemOk.roceAck {b : Blk} {n psn : Nat} (h : b.MemOk) : (b.roceAck n psn).MemOk := .ite h.ackPosts h

theorem Blk.MemOk.atomicRun {b : Blk} {q seq : Nat} (h : b.MemOk) : (b.atomicRun q seq).MemOk := by
  unfold Blk.atomicRun
  split
  · exact h
  · refine .ite h.finish (.ite h.finish (.ite h.finish (.ite ?_ ?_)))
    · exact .ite h.finish (.ite h.askExit (Blk.MemOk.finish (.ite h.atomicAt h.atomicAt.noteScope.noteSlots)))
    · split
      · exact h.finish
      · refine .ite h ?_
        split
        · next hc => exact (h.of_sent hc).updFlight
        · next hc => exact (h.of_noPath hc).finish
        · exact h

theorem Blk.MemOk.onFabric {b : Blk} {f : Flight} (h : b.MemOk) : (Wk.onFabric b f).MemOk := by
  unfold Wk.onFabric
  extract_lets c'
  have hc' : c'.MemOk := h.start
  exact hc'.upd

theorem Wk.MemOk.write {w : Wk} {a : Nat} {d : Bytes} (h : w.MemOk) : (w.write a d).MemOk := h.writeN

theorem Wk.MemOk.remoteHere {w : Wk} {a n : Nat} (h : w.MemOk) : (w.remoteHere a n).MemOk := .ite h.fail h

theorem Wk.MemOk.getPieces {w : Wk} {e : Bytes} {l : List (Nat × Nat)} {done : Nat} (h : w.MemOk) : (w.getPieces e l done).1.MemOk := by
  induction l generalizing w done with
  | nil => exact h
  | cons p t ih =>
    obtain ⟨a, n⟩ := p
    unfold Wk.getPieces
    extract_lets v
    have hv : v.MemOk := h.remoteHere
    split
    next u d hu =>
      have hu := hv.read.of_eq hu
      exact .iteFst hu.write (ih hu.write)

theorem Blk.MemOk.getRun {b : Blk} {q seq : Nat} (h : b.MemOk) : (b.getRun q seq).MemOk := by
  unfold Blk.getRun
  split
  · exact h
  · refine .ite h.finish ?_
    refine .ite h.onFabric.getPieces.blk.finish ?_
    extract_lets b'
    have hb' : b'.MemOk := h.onFabric.getPieces.blk.updFlight
    exact .ite hb' (.ite hb'.askRemote.finish hb'.askRemote)

theorem Wk.MemOk.flushed {w : Wk} (h : w.MemOk) : (w.flushed).MemOk := by
  unfold Wk.flushed
  extract_lets x'
  have hx' : x'.MemOk := h.upd.sent
  exact hx'.upd

theorem Wk.MemOk.putPieces {w : Wk} {e : Bytes} {l : List (Nat × Nat)} {done here : Nat} (h : w.MemOk) :
    (w.putPieces e l done here).1.MemOk := by
  induction l generalizing w done here with
  | nil => exact h
  | cons p t ih =>
    obtain ⟨a, n⟩ := p
    unfold Wk.putPieces
    extract_lets v loc
    have hv : v.MemOk := h.remoteHere
    split
    next u d hu =>
      have hu := hv.read.of_eq hu
      exact .iteFst hu.write (ih hu.write)

theorem Blk.MemOk.putRun {b : Blk} {q seq : Nat} (h : b.MemOk) : (b.putRun q seq).MemOk := by
  unfold Blk.putRun
  split
  · exact h
  · refine .ite h.finish ?_
    extract_lets ps
    split
    next w done here hw =>
      have hw := (h.onFabric.putPieces.of_eq hw).flushed
      exact .ite hw.blk.finish hw.blk.updFlight

theorem Blk.MemOk.markEnd {b : Blk} {dst : Nat} (h : b.MemOk) : (b.markEnd dst).MemOk := h.upd

theorem Blk.MemOk.remoteLate {b : Blk} {n : Nat} (h : b.MemOk) : (b.remoteLate n).MemOk := by
  unfold Blk.remoteLate
  split
  · exact h
  · exact h.failTxn.incReg

theorem Blk.MemOk.packetIn {b : Blk} {l : Nat} {p : Packet} (h : b.MemOk) : (b.packetIn l p).MemOk := .ite h h.packetDo

theorem Blk.MemOk.typedIn {b : Blk} {l typ : Nat} {p : Packet} (h : b.MemOk) : (b.typedIn l typ p).MemOk := h.packetIn

theorem Blk.MemOk.fecLost {b : Blk} {l : Nat} (h : b.MemOk) : (b.fecLost l).MemOk := .ite h.linkDown h

theorem Blk.MemOk.ackLate {b : Blk} {l : Nat} (h : b.MemOk) : (b.ackLate l).MemOk := .ite h.linkDown h

theorem Blk.MemOk.nakFlit {b : Blk} {l ack : Nat} (h : b.MemOk) : (b.nakFlit l ack).MemOk :=
  .ite h (.ite h.setLink.linkDown (.ite h.setLink h.setLink.send))

theorem Blk.MemOk.flitPacket {x : Blk × List Packet} {l : Nat} {p : Packet} (h : x.1.MemOk) : (Blk.flitPacket x l p).1.MemOk :=
  .iteFst h.packetIn.setLink h.packetIn

theorem Blk.MemOk.badFlit {b : Blk} {l : Nat} {uncorr failed : Bool} (h : b.MemOk) : (b.badFlit l uncorr failed).MemOk :=
  .ite h.setLink.send h.setLink

theorem Blk.MemOk.dataFlit {b : Blk} {l : Nat} {raw : Bytes} {fecOk : Bool} (h : b.MemOk) : (b.dataFlit l raw fecOk).MemOk := by
  unfold Blk.dataFlit
  refine .ite h ?_
  refine .ite h.badFlit ?_
  refine .ite h.badFlit ?_
  refine .ite h ?_
  refine .ite h.badFlit ?_
  exact .foldl (h.setLink.ackIn.foldlFst fun _ _ h₁ => h₁.flitPacket) fun _ _ h₁ => h₁.giveBack

theorem Blk.MemOk.fecRate {b : Blk} {l bad total : Nat} (h : b.MemOk) : (b.fecRate l bad total).MemOk := .ite h.retrain h

theorem Blk.MemOk.sendCtl {b : Blk} {l : Nat} {m : Bytes} (h : b.MemOk) : (b.sendCtl l m).MemOk := h.setLink.send

theorem Blk.MemOk.startIdent {b : Blk} {l : Nat} (h : b.MemOk) : (b.startIdent l).MemOk := h.fresh.setLink.sendCtl

theorem Blk.MemOk.mismatchRetry {b : Blk} {l : Nat} (h : b.MemOk) : (b.mismatchRetry l).MemOk := .ite h.startIdent h

theorem Blk.MemOk.proofIn {b : Blk} {l : Nat} {m : Bytes} (h : b.MemOk) : (b.proofIn l m).MemOk := by
  unfold Blk.proofIn
  refine .ite h ?_
  exact .ite h.setLink.fabEvent.checkBundles h.setLink.logE.fabEvent.checkBundles

theorem Blk.MemOk.identIn {b : Blk} {l : Nat} {m : Bytes} (h : b.MemOk) : (b.identIn l m).MemOk := .ite h h.setLink.sendCtl

theorem Blk.MemOk.retryTimer {b : Blk} {l : Nat} (h : b.MemOk) : (b.retryTimer l).MemOk := .ite h.linkStart h

theorem Blk.MemOk.bringupLate {b : Blk} {l : Nat} (h : b.MemOk) : (b.bringupLate l).MemOk := .ite h.setLink (.ite h.linkDown h)

theorem Blk.MemOk.trainingDone {b : Blk} {l : Nat} (h : b.MemOk) : (b.trainingDone l).MemOk := .ite h.startIdent h

theorem Blk.MemOk.signalDetect {b : Blk} {l : Nat} (h : b.MemOk) : (b.signalDetect l).MemOk :=
  .ite h.setLink (.ite h.linkStart h)

theorem Blk.MemOk.coalesced {b : Blk} {v : Nat} (h : b.MemOk) : (b.coalesced v).MemOk := .ite h h.upd.msix

theorem Blk.MemOk.askSlots {b : Blk} {slots : List Nat} (h : b.MemOk) : (b.askSlots slots).MemOk :=
  h.foldl fun _ _ h₁ => h₁.askExit

theorem Blk.MemOk.askFences {b : Blk} {q seq : Nat} {l : List Nat} (h : b.MemOk) : (b.askFences q seq l).MemOk := by
  induction l generalizing b with
  | nil => exact h.updFlight
  | cons m t ih =>
    unfold Blk.askFences
    split
    · next hc => exact ih (h.of_sent hc)
    · next hc => exact ih (h.of_noPath hc).updFlight
    · exact h.updFlight

theorem Blk.MemOk.completeEntry {b : Blk} {q seq : Nat} (h : b.MemOk) : (b.completeEntry q seq).MemOk := by
  unfold Blk.completeEntry
  split
  · exact h
  · exact .ite h (.ite h.askFences (.ite h.askSlots.askExit h.completeNow))

theorem Blk.MemOk.hintAfter {b : Blk} {q seq : Nat} (h : b.MemOk) : (b.hintAfter q seq).MemOk := by
  unfold Blk.hintAfter
  split
  · exact .ite (.ite h.setPwr (.ite h.setPwr.toDoze h.setPwr.beginEntry)) h
  · exact h

theorem Blk.MemOk.entryDone {b : Blk} {q seq : Nat} (h : b.MemOk) : (b.entryDone q seq).MemOk :=
  h.completeEntry.attSettle.hintAfter

theorem Blk.MemOk.sramFail {b : Blk} {q seq buf off : Nat} (h : b.MemOk) : (b.sramFail q seq buf off).MemOk := h.sramHit.finish

theorem Blk.MemOk.slotGood {b : Blk} {i : Nat} (h : b.MemOk) : (b.slotGood i).1.MemOk := by
  have hr := h.readRange (rq := rqSlot) (mpa := b.slotBase i) (len := 0x40)
  rw [Blk.slotGood]
  generalize Machine.readRange b rqSlot (b.slotBase i) 0x40 = r at hr ⊢
  obtain ⟨c, s, d⟩ := r
  exact .iteFst hr hr.readRange

/-- The check of a list of slots over any reading of a slot's owner and checksum: evaluating the model's own
readings in the kernel is what its equations would need. -/
def Blk.slotCheckWith (owner : Blk → Nat → Blk × Nat) (sum : Blk → Nat → Blk × Bool) (b : Blk) (f : Flight) :
    List Nat → Blk × Nat
  | [] => (b, stOK)
  | i :: t =>
    let (b, o) := owner b i
    let peer := f.path == pFAB || f.path == pNET
    if !(o == 2 || (peer && o == 3)) then (b, stRANGE)
    else
      let touches := b.slotsTouched f.reads
      if o == 2 && touches.contains i && !b.win.verified.contains i then
        let (b, good) := sum b i
        let b := { b with win := { b.win with verified := i :: b.win.verified } }
        if good then b.slotCheckWith owner sum f t else (b, stCHECK)
      else b.slotCheckWith owner sum f t

theorem Blk.slotCheck_eq (b : Blk) (f : Flight) (l : List Nat) :
    b.slotCheck f l = b.slotCheckWith Blk.slotOwner Blk.slotGood f l := by
  delta Blk.slotCheck Blk.slotCheckWith
  congr 1

theorem Blk.MemOk.slotCheckWith {owner : Blk → Nat → Blk × Nat} {sum : Blk → Nat → Blk × Bool} {b : Blk} {f : Flight} {l : List Nat}
    (ho : ∀ b i, b.MemOk → (owner b i).1.MemOk) (hs : ∀ b i, b.MemOk → (sum b i).1.MemOk) (h : b.MemOk) :
    (b.slotCheckWith owner sum f l).1.MemOk := by
  induction l generalizing b with
  | nil => exact h
  | cons i t ih =>
    have hb := ho b i h
    exact .iteFst hb (.iteFst (.iteFst (ih (hs _ i hb).upd) (hs _ i hb).upd) (ih hb))

theorem Blk.MemOk.slotCheck {b : Blk} {f : Flight} {l : List Nat} (h : b.MemOk) : (b.slotCheck f l).1.MemOk := by
  rw [Blk.slotCheck_eq]
  exact Blk.MemOk.slotCheckWith (fun _ _ h => h.slotOwner) (fun _ _ h => h.slotGood) h

theorem Blk.MemOk.startEntry {b : Blk} {q seq : Nat} (h : b.MemOk) : (b.startEntry q seq).MemOk := by
  unfold Blk.startEntry
  split
  · exact h
  · split
    split
    extract_lets slots c k g d
    have hd : d.MemOk := h.toRun.setHub.updFlight
    refine .ite h (.ite h.askSlots (.ite hd.finish ?_))
    split
    next c₁ st h₁ =>
      have h₁ := hd.slotCheck.of_eq h₁
      refine .ite h₁.finish ?_
      split
      · exact .ite h₁.sramFail h₁
      · exact h₁

theorem Blk.MemOk.staleEnd {b : Blk} {q : Nat} (h : b.MemOk) : (b.staleEnd q).MemOk := .ite h h.setQp.logE.incReg.qpEvent

theorem Blk.MemOk.accept {b : Blk} {q : Nat} {e : Bytes} (h : b.MemOk) : (b.accept q e).MemOk := by
  unfold Blk.accept
  extract_lets _ _ c'
  have hc' : c'.MemOk := h.setQp
  exact hc'.upd

theorem Blk.MemOk.fetchFailed {b : Blk} {q st : Nat} (h : b.MemOk) : (b.fetchFailed q st).MemOk := h.setQp.logE.qpEvent

theorem Blk.MemOk.reread {b : Blk} {q : Nat} {host : Bytes} (h : b.MemOk) : (b.reread q host).MemOk := by
  unfold Blk.reread
  extract_lets _ _ r'
  have hr' : r'.b.MemOk := .iteAcc h.readRange h
  refine .ite h ?_
  refine .ite h.askExit ?_
  refine .ite hr'.fetchFailed ?_
  exact .ite hr'.setQp.accept.startFetch hr'

theorem Blk.MemOk.acceptAll {b : Blk} {q : Nat} {l : List Bytes} (h : b.MemOk) : (b.acceptAll q l).MemOk := by
  induction l generalizing b with
  | nil => exact h
  | cons e t ih => exact .ite (ih h.accept) h.setQp

theorem Blk.MemOk.fetchDone {b : Blk} {q : Nat} {host : List Bytes} {err : Bool} (h : b.MemOk) : (b.fetchDone q host err).MemOk := by
  unfold Blk.fetchDone
  extract_lets _ _ _ r'
  have hr' : r'.b.MemOk := h.readRange
  refine .ite h ?_
  refine .ite h.setQp ?_
  refine .ite ?_ (.ite h.fetchFailed h.setQp.acceptAll.startFetch)
  refine .ite h.askExit ?_
  exact .ite hr'.fetchFailed hr'.setQp.acceptAll.startFetch

theorem Blk.MemOk.windowWrite {b : Blk} {off : Nat} {d : Bytes} (h : b.MemOk) : (b.windowWrite off d).MemOk :=
  .ite h (h.gate (fun _ h₁ => h₁.winWrite))

theorem Blk.MemOk.windowRead {b : Blk} {off len : Nat} (h : b.MemOk) : (b.windowRead off len).MemOk :=
  .ite h (h.gate (fun _ h₁ => h₁.winRead))

theorem Blk.MemOk.fenceRun {b : Blk} {q seq : Nat} (h : b.MemOk) : (b.fenceRun q seq).MemOk := by
  unfold Blk.fenceRun
  split
  · exact h
  · exact .ite h.finish (.ite h h.finish)

theorem Blk.MemOk.nopRun {b : Blk} {q seq : Nat} (h : b.MemOk) : (b.nopRun q seq).MemOk := by
  unfold Blk.nopRun
  split
  · exact h
  · exact h.finish

theorem Blk.MemOk.dropRun {b : Blk} {q seq : Nat} (h : b.MemOk) : (b.dropRun q seq).MemOk := by
  unfold Blk.dropRun
  split
  · exact h
  · extract_lets
    split
    · exact h.finish
    · refine .ite h.finish ?_
      extract_lets b'
      have hb' : b'.MemOk := .ite h.upd h.freeDesc
      exact hb'.finish

theorem Blk.MemOk.keepPlan {b : Blk} {x kind : Nat} {d : Bytes} (h : b.MemOk) : (b.keepPlan x kind d).MemOk := h.upd

theorem Blk.MemOk.createRun {b : Blk} {q seq : Nat} (h : b.MemOk) : (b.createRun q seq).MemOk := by
  unfold Blk.createRun
  split
  · exact h
  · extract_lets e d x hd free w
    have hw : w.MemOk := h.start
    clear_value w
    refine .ite h.finish ?_
    split
    next w₁ t h₁ =>
      have h₁ : w₁.MemOk := by
        refine .of_eq ?_ h₁
        refine .iteFst hw ?_
        split
        · exact hw.fail
        · exact .iteFst hw.bytes hw.fail
      split
      next hc => exact h.waits hc
      next =>
        refine .ite h₁.blk.finish (.ite h₁.blk.finish (.ite h₁.blk.finish (.ite h₁.blk.finish (.ite h₁.blk.finish ?_))))
        exact Blk.MemOk.finish (.ite h₁.blk.upd (Blk.MemOk.keepPlan h₁.blk.upd))

theorem Wk.MemOk.relayBlock {w : Wk} {e : Bytes} {p : Desc} {ixs : List Int} {x : Nat} {a : ABlk} {i0 n t0 : Nat} (h : w.MemOk) :
    (w.relayBlock e p ixs x a i0 n t0).MemOk := by
  unfold Wk.relayBlock
  refine .ite ?_ ?_
  · refine .ite (.fail (h.foldlFst fun _ _ h₁ => h₁.elems.foldl fun _ _ h₂ => h₂.flag)) ?_
    exact .writeRuns (h.foldlFst fun _ _ h₁ => h₁.elems.foldl fun _ _ h₂ => h₂.flag)
  · refine .foldl ?_ (fun _ _ h₁ => ?_)
    · refine h.foldlFst fun _ _ h₁ => ?_
      split
      · exact h₁.fail
      · exact h₁.read
    · split
      · exact h₁.fail
      · exact .ite h₁.read (.ite h₁.read.putRaws h₁.read.putVals)

theorem Wk.MemOk.relayBlk {w : Wk} {e table : Bytes} {p : Desc} {i : Nat} (h : w.MemOk) : (w.relayBlk e table p i).MemOk := by
  unfold Wk.relayBlk
  refine .ite h ?_
  split
  · exact h.fail
  · exact h.relayBlock

theorem Wk.MemOk.putBlock {w : Wk} {d : Desc} {ixs : List Int} {e : Nat} {u : Bytes} (h : w.MemOk) :
    (w.putBlock d ixs e u).MemOk := .ite h.lands.writeN h.lands

theorem Wk.MemOk.rowOutOf {w : Wk} {e : Bytes} {p : Desc} {ixs : List Int} {o s : Nat} {row : Bytes} (h : w.MemOk) :
    (w.rowOutOf e p ixs o s row).MemOk := by
  unfold Wk.rowOutOf
  refine .ite h ?_
  refine .ite (h.foldl fun _ _ h₁ => h₁.putBlock) ?_
  exact .ite (h.foldl fun _ _ h₁ => h₁.putBlock) (.ite h.putRaws h.putVals)

theorem Wk.MemOk.rowInto {w : Wk} {e : Bytes} {p : Desc} {ixs : List Int} {o s : Nat} (h : w.MemOk) :
    (w.rowInto e p ixs o s).1.MemOk := by
  unfold Wk.rowInto
  refine .iteFst h ?_
  refine .iteFst h.elems ?_
  exact .iteFst h.elems (.iteFst h.elems (h.elems.foldl fun _ _ h₁ => h₁.flag))

theorem Wk.MemOk.relayRec {w : Wk} {e : Bytes} {p : Desc} {r : PRec} (h : w.MemOk) : (w.relayRec e p r).MemOk := by
  unfold Wk.relayRec
  refine h.foldl fun _ _ h₁ => ?_
  refine .ite h₁ ?_
  split
  · exact h₁.fail
  · exact .ite h₁.rowInto.write (.ite h₁.read h₁.read.rowOutOf)

theorem Wk.MemOk.relayPart {w : Wk} {e table : Bytes} {p : Desc} {k : Nat} (h : w.MemOk) : (w.relayPart e table p k).MemOk := by
  unfold Wk.relayPart
  refine .ite ?_ h.relayBlk
  split
  · exact h.relayRec
  · exact h

theorem Blk.MemOk.relayUndone {b : Blk} {rq : Req} {e table : Bytes} {k : Nat} (h : b.MemOk) :
    (b.relayUndone rq e table k).MemOk := by
  unfold Blk.relayUndone
  refine h.foldl fun _ _ h₁ => ?_
  extract_lets b'
  have hb' : b'.MemOk := h₁.smear
  exact hb'.upd

theorem Wk.MemOk.stepDone {w : Wk} {b0 : Blk} {f : Flight} {y : BurstSt} {last : Bool} {count : Nat} (h : w.MemOk) (g : b0.MemOk) :
    (w.stepDone b0 f y last count).MemOk := by
  unfold Wk.stepDone
  split
  next _ hc =>
    have h₁ := g.waits hc
    exact h₁
  · exact .ite h.sent.blk.finish h.sent.blk.updFlight

theorem Wk.MemOk.relayTable {w : Wk} {f : Flight} {kind len : Nat} (h : w.MemOk) : (w.relayTable f kind len).1.MemOk := by
  unfold Wk.relayTable
  refine .iteFst h ?_
  split
  · exact h.fail
  · exact .iteFst h.fail h.bytes

theorem Wk.MemOk.relayChecked {w : Wk} {f : Flight} {d : Desc} (h : w.MemOk) : (w.relayChecked f d).1.MemOk :=
  .iteFst h (.ite h.relayTable h.relayTable.fail)

theorem Blk.MemOk.relayRun {b : Blk} {q seq : Nat} (h : b.MemOk) : (b.relayRun q seq).MemOk := by
  unfold Blk.relayRun
  split
  · exact h
  · refine .ite h.finish ?_
    split
    · refine .ite (h.start.relayChecked.stepDone h) ?_
      refine .ite ?_ ?_
      · exact Wk.MemOk.stepDone (.ite h.start.relayChecked.blk.relayUndone.wk h.start.relayChecked) h
      · extract_lets w' w''
        have hw' : w'.MemOk := h.start.relayChecked.relayPart
        have hw'' : w''.MemOk := .ite hw'.blk.relayUndone.wk hw'
        exact hw''.stepDone h
    · exact h

theorem Wk.MemOk.copyBurst {w : Wk} {d : Desc} {ixs : List Int} {sfmt : Nat} {xs : List (Nat × Elem)} (h : w.MemOk) :
    (w.copyBurst d ixs sfmt xs).MemOk := by
  unfold Wk.copyBurst
  refine .ite (h.foldl fun _ _ h₁ => h₁.putBlock) ?_
  exact .ite h.putAt (.putAt (h.foldl fun _ _ h₁ => h₁.flag))

theorem Wk.MemOk.burstIxs {w : Wk} {d : Desc} {k : Nat} (h : w.MemOk) : (w.burstIxs d k).1.MemOk := by
  unfold Wk.burstIxs
  refine .iteFst ?_ h
  split
  · exact h.fail
  · exact h.elems

theorem Wk.MemOk.scatterOk {w : Wk} {d : Desc} {ixs : List Int} (h : w.MemOk) : (w.scatterOk d ixs).MemOk :=
  .ite (.ite h.fail (.ite h h.fail)) h

theorem Wk.MemOk.destIxs {w : Wk} {d : Desc} {k : Nat} (h : w.MemOk) : (w.destIxs d k).1.MemOk :=
  .iteFst (.iteFst h.fail h.indices.scatterOk) h.burstIxs

theorem Blk.MemOk.fillPart {b : Blk} {f : Flight} {d : Desc} (h : b.MemOk) : (b.fillPart f d).MemOk :=
  .ite h.start.destIxs h.start.destIxs.copyBurst

theorem Blk.MemOk.fillRun {b : Blk} {q seq : Nat} (h : b.MemOk) : (b.fillRun q seq).MemOk := by
  unfold Blk.fillRun
  split
  · exact h
  · extract_lets
    split
    · exact h.finish
    · exact .ite h.finish (h.fillPart.stepDone h)

theorem Wk.MemOk.accumulate {w : Wk} {d : Desc} {ixs : List Int} {y : BurstSt} {vs : List (Nat × Ex)} (h : w.MemOk) :
    (w.accumulate d ixs y vs).1.MemOk := by
  unfold Wk.accumulate
  extract_lets locs w₁ gs n
  have h₁ : w₁.MemOk := h.foldl fun _ _ h₂ => .ite h₂.flag (.ite h₂.flag h₂)
  split
  next w₂ us h₂ => exact ((h₁.units.of_eq h₂).foldl fun _ _ h₃ => h₃.flag).writeRuns

theorem Wk.MemOk.fillSource {w : Wk} {s d : Desc} {k n fuel : Nat} {y : BurstSt} (h : w.MemOk) : (w.fillSource s d k n fuel y).1.MemOk := by
  induction fuel generalizing w y with
  | zero => exact h
  | succ m ih => exact .iteFst h (ih h.burstIxs.elems)

theorem Blk.MemOk.copyPart {b : Blk} {f : Flight} {src : Option Desc} {d : Desc} (h : b.MemOk) : (b.copyPart f src d).1.MemOk := by
  unfold Blk.copyPart
  refine .iteFst ?_ ?_
  · split
    · exact h.start.destIxs.fillSource
    · exact h.start.destIxs
  · refine .iteFst ?_ ?_
    · refine .accumulate ?_
      split
      · exact h.start.destIxs.fillSource
      · exact h.start.destIxs
    · refine .copyBurst ?_
      split
      · exact h.start.destIxs.fillSource
      · exact h.start.destIxs

theorem Blk.MemOk.copyRun {b : Blk} {q seq : Nat} (h : b.MemOk) : (b.copyRun q seq).MemOk := by
  unfold Blk.copyRun
  split
  · exact h
  · refine .ite h.finish ?_
    split
    · exact h
    · exact .ite h.finish (.ite h (h.copyPart.stepDone h))

theorem Wk.MemOk.row32 {w : Wk} {d : Option Desc} {e0 n : Nat} (h : w.MemOk) : (w.row32 d e0 n).1.MemOk := by
  unfold Wk.row32
  split
  · exact h
  · exact h.indices.elems

theorem Wk.MemOk.sfuRow {w : Wk} {f : Flight} {table : Bytes} {r : Nat} (h : w.MemOk) : (w.sfuRow f table r).1.MemOk := by
  unfold Wk.sfuRow
  refine .iteFst ?_ ?_
  · split
    · refine .bytes ?_
      refine .iteFst ?_ ?_
      · refine .iteFst (h.foldlFst fun _ _ h₁ => h₁.row32) ?_
        exact .row32 (h.foldlFst fun _ _ h₁ => h₁.row32)
      · refine .row32 ?_
        refine .iteFst (h.foldlFst fun _ _ h₁ => h₁.row32) ?_
        exact .row32 (h.foldlFst fun _ _ h₁ => h₁.row32)
    · refine .iteFst ?_ ?_
      · refine .iteFst (h.foldlFst fun _ _ h₁ => h₁.row32) ?_
        exact .row32 (h.foldlFst fun _ _ h₁ => h₁.row32)
      · refine .row32 ?_
        refine .iteFst (h.foldlFst fun _ _ h₁ => h₁.row32) ?_
        exact .row32 (h.foldlFst fun _ _ h₁ => h₁.row32)
  · extract_lets _ w' w'' w'''
    have hw' : w'.MemOk := by
      unfold w'
      refine .flag ?_
      split
      · refine .bytes ?_
        refine .iteFst ?_ ?_
        · refine .iteFst (h.foldlFst fun _ _ h₁ => h₁.row32) ?_
          exact .row32 (h.foldlFst fun _ _ h₁ => h₁.row32)
        · refine .row32 ?_
          refine .iteFst (h.foldlFst fun _ _ h₁ => h₁.row32) ?_
          exact .row32 (h.foldlFst fun _ _ h₁ => h₁.row32)
      · refine .iteFst ?_ ?_
        · refine .iteFst (h.foldlFst fun _ _ h₁ => h₁.row32) ?_
          exact .row32 (h.foldlFst fun _ _ h₁ => h₁.row32)
        · refine .row32 ?_
          refine .iteFst (h.foldlFst fun _ _ h₁ => h₁.row32) ?_
          exact .row32 (h.foldlFst fun _ _ h₁ => h₁.row32)
    have hw'' : w''.MemOk := by
      unfold w''
      split
      · exact hw'.indices.putRaws
      · exact hw'
    have hw''' : w'''.MemOk := by
      unfold w'''
      split
      · exact hw''.indices.putRaws
      · exact hw''
    exact hw'''

theorem Blk.MemOk.sfuStep {b : Blk} {f : Flight} {w : Wk} {table : Bytes} (h : b.MemOk) (g : w.MemOk) :
    (b.sfuStep f w table).MemOk := by
  unfold Blk.sfuStep
  extract_lets e
  split
  next v em hv =>
    have hv := g.sfuRow.of_eq hv
    split
    next hc => exact h.asks_fst (congrArg Prod.fst hc)
    next hc =>
      have h₁ := (hv.of_asks h hc).blk
      exact .ite h₁.sfuUndefined.finish (.ite h₁.finish h₁.updFlight)

theorem Wk.MemOk.places {w : Wk} {d : Desc} {reads : Bool} (h : w.MemOk) : (w.places d reads).1.MemOk := h.indices

theorem Wk.MemOk.sfuAlias {w : Wk} {f : Flight} (h : w.MemOk) : (w.sfuAlias f).MemOk := by
  unfold Wk.sfuAlias
  dsimp -zeta only
  extract_lets e
  split
  · exact h
  · refine h.foldl fun w₁ p h₁ => ?_
    split
    · exact h₁
    · refine .ite h₁ ?_
      exact .ite h₁.places.places (.ite h₁.places.places.fail h₁.places.places)

theorem Wk.MemOk.outsOk {w : Wk} {ds : List Desc} (h : w.MemOk) : (w.outsOk ds).MemOk :=
  h.foldl fun _ _ h₁ => h₁.indices.scatterOk

theorem Blk.MemOk.sfuOuts {b : Blk} {f : Flight} (h : b.MemOk) : (b.sfuOuts f).MemOk := h.hub.sfuAlias.outsOk

theorem Blk.MemOk.sfuFirst {b : Blk} {f : Flight} (h : b.MemOk) : (b.sfuFirst f).MemOk := by
  unfold Blk.sfuFirst
  extract_lets
  split
  next _ hc =>
    have h₁ := h.waits hc
    exact h₁
  · refine .ite h.sfuOuts.blk.finish ?_
    refine .ite ?_ (h.sfuStep h.sfuOuts)
    split
    · exact h.sfuOuts.blk.finish
    · exact h.sfuStep h.sfuOuts.blk.setHub.wk

theorem Blk.MemOk.sfuLoad {b : Blk} {f : Flight} (h : b.MemOk) : (b.sfuLoad f).MemOk := by
  unfold Blk.sfuLoad
  extract_lets e
  split
  · exact h
  · split
    next w t hw =>
      have hw := h.hub.bytes.of_eq hw
      split
      next hc => exact h.waits hc
      next => exact .ite hw.blk.finish (.ite hw.blk.finish hw.blk.setHub.finish)

theorem Blk.MemOk.sfuRun {b : Blk} {q seq op : Nat} (h : b.MemOk) : (b.sfuRun q seq op).MemOk := by
  unfold Blk.sfuRun
  split
  · exact h
  · refine .ite h ?_
    refine .ite (h.sfuStep h.hub) ?_
    exact .ite h.finish (.ite h.finish (.ite h.finish (.ite h.sfuLoad h.sfuFirst)))

theorem Blk.MemOk.veProgRow {b : Blk} {r : VeRun} (h : b.MemOk) : (b.veProgRow r).MemOk :=
  .ite h.vecEnd (.ite h.vecEnd (.ite h.vecEnd h.setHub))

theorem Blk.MemOk.tileSettle {b : Blk} {q seq : Nat} (h : b.MemOk) : (b.tileSettle q seq).MemOk := by
  unfold Blk.tileSettle
  split
  · exact h
  · exact .ite h.tileEnd (.ite h.tileEnd h)

theorem Blk.MemOk.veTileRow {b : Blk} {r : VeRun} (h : b.MemOk) : (b.veTileRow r).MemOk := by
  unfold Blk.veTileRow
  extract_lets _ _ _ b' b''
  have hb' : b'.MemOk := h.updTile.setHub
  have hb'' : b''.MemOk := .ite hb'.updTile hb'
  exact .ite h.updTile.setHub hb''.tileSettle

theorem Blk.MemOk.veBoundary {b : Blk} {turn : Bool} (h : b.MemOk) : (b.veBoundary turn).MemOk := by
  unfold Blk.veBoundary
  split
  · exact h.vePick
  · exact .ite h (.vePick (.ite h.veTileRow h.veProgRow))

theorem Wk.MemOk.program {w : Wk} {d : Desc} (h : w.MemOk) : (w.program d).1.MemOk := by
  unfold Wk.program
  refine .iteFst h ?_
  split
  next v hd hv =>
    have hv := h.bytes.of_eq hv
    split
    · exact hv
    · refine .iteFst hv ?_
      split
      next hu => exact hv.bytes.of_eq hu

theorem Blk.MemOk.vecStart {b : Blk} {q seq : Nat} (h : b.MemOk) : (b.vecStart q seq).MemOk := by
  unfold Blk.vecStart
  split
  · exact h
  next f hf =>
    refine .ite h ?_
    extract_lets e head w
    have hw : w.MemOk := h.hub
    clear_value w
    split
    next v p hp =>
      have h₁ : v.MemOk := by
        refine .of_eq ?_ hp
        refine .iteFst hw (.iteFst hw ?_)
        split
        · exact hw.program
        · exact hw
      extract_lets u
      have hu : u.MemOk := by
        unfold u
        split
        · exact h₁
        · exact h₁.outsOk
      clear_value u
      split
      next hc => exact h.waits hc
      next =>
        refine .ite hu.blk.finish ?_
        split
        · exact hu.blk.finish
        · split
          · exact hu.blk.finish
          · exact .ite hu.blk.finish (.ite hu.blk.finish hu.blk.setHub.veIdle)

theorem Blk.MemOk.ftqPush {b : Blk} (h : b.MemOk) : (b.ftqPush).MemOk := h.foldl fun _ _ h₁ => h₁.setOx.setHub

theorem Blk.MemOk.ftqFreed {b : Blk} {periods : List Nat} (h : b.MemOk) : (b.ftqFreed periods).MemOk := by
  unfold Blk.ftqFreed
  split
  · exact h
  · exact h.setHub.ftqPush.oxTake

theorem Wk.MemOk.rowsOf {w : Wk} {d : Desc} {ixs : List Int} {k r0 len : Nat} (h : w.MemOk) : (w.rowsOf d ixs k r0 len).1.MemOk := by
  induction len generalizing w r0 with
  | zero => exact h
  | succ n ih => exact ih h.elems

theorem Wk.MemOk.tileSums {w : Wk} {e : Bytes} {wd xd : Desc} {t : Nat} (h : w.MemOk) : (w.tileSums e wd xd t).1.MemOk :=
  h.indices.indices.rowsOf.rowsOf

theorem Blk.MemOk.tileDone {b : Blk} {k : Nat} (h : b.MemOk) : (b.tileDone k).MemOk := by
  unfold Blk.tileDone
  extract_lets x
  split
  · exact h
  · split
    · extract_lets e
      split
      · refine .ite h ?_
        split
        next w rows hw =>
          have hw := h.hub.tileSums.of_eq hw
          extract_lets fl
          refine .ite ?_ ?_
          · split
            next hc => exact h.asks_fst (congrArg Prod.fst hc)
            next hc =>
              have hv := hw.of_asks h hc
              exact .ite hv.blk.tileEnd hv.blk.updTile.setOx.ftqPush.oxTake.tileSettle
          · split
            next v ixs hv =>
              extract_lets u
              have hu : u.MemOk :=
                Wk.MemOk.flag ((hw.indices.of_eq hv).foldl fun _ _ h₁ => .ite h₁.putRaws h₁.putVals)
              clear_value u
              split
              next hc => exact h.asks_fst (congrArg Prod.fst hc)
              next hc =>
                have hv := hu.of_asks h hc
                exact .ite hv.blk.tileEnd hv.blk.updTile.setOx.oxTake.tileSettle
      · exact h
    · exact h.setOx

theorem Blk.MemOk.tileStart {b : Blk} {q seq : Nat} (h : b.MemOk) : (b.tileStart q seq).MemOk := by
  unfold Blk.tileStart
  split
  · exact h
  next f hf =>
    refine .ite h.finish ?_
    extract_lets w
    have hw : w.MemOk := h.hub
    clear_value w
    split
    next v p h₁ =>
      have h₁ : v.MemOk := by
        refine .of_eq ?_ h₁
        split
        · exact hw.program
        · exact hw
      extract_lets u
      have hu : u.MemOk := h₁.outsOk
      clear_value u
      split
      next hc => exact h.waits hc
      next => exact .ite hu.blk.finish (.ite hu.blk.finish hu.blk.setHub.oxTake)

theorem Blk.MemOk.attnResolve {b : Blk} {q seq x : Nat} (h : b.MemOk) : (b.attnResolve q seq x).MemOk := by
  unfold Blk.attnResolve
  split
  · extract_lets
    split
    · exact h
    · split
      · exact h
      · exact .ite h (.ite h.updJob (.ite h.updJob.jobSettle h.updJob))
  · exact h

theorem Blk.MemOk.attnFallback {b : Blk} {q seq : Nat} (h : b.MemOk) : (b.attnFallback q seq).MemOk := by
  unfold Blk.attnFallback
  split
  · exact .ite h h.updJob
  · exact h

theorem Blk.MemOk.gemvAdvance {b : Blk} {f : Flight} {j : Job} (h : b.MemOk) : (b.gemvAdvance f j).MemOk :=
  .ite h (.ite h.updJob h.jobEnd)

theorem Blk.MemOk.progEnd {b : Blk} {own : Option (Nat × Nat)} (h : b.MemOk) : (b.progEnd own).MemOk := by
  unfold Blk.progEnd
  split
  · exact h
  · split
    · exact .ite h (.ite h.jobEnd (.ite h.jobEnd (.ite h.gemvAdvance h)))
    · exact h

theorem Blk.MemOk.bank {b : Blk} {f : Flight} (h : b.MemOk) : (Wk.bank b f).MemOk := by
  unfold Wk.bank
  extract_lets w'
  have hw' : w'.MemOk := h.start
  exact hw'.upd

theorem Blk.MemOk.attnFinish {b : Blk} {f : Flight} {j : Job} (h : b.MemOk) : (b.attnFinish f j).MemOk := by
  unfold Blk.attnFinish
  extract_lets e nq hd live hs vals newRef
  split
  · split
    next w ixs hw =>
      extract_lets v
      have hv : v.MemOk := (h.bank.indices.of_eq hw).putVals
      clear_value v
      split
      next u rixs hu =>
        have hu : u.MemOk := .of_eq (.iteFst hv.indices hv) hu
        extract_lets t
        have ht : t.MemOk := .ite hu hu.putAt
        clear_value t
        split
        next hc => exact h.asks_fst (congrArg Prod.fst hc)
        next hc => exact (ht.of_asks h hc).blk.jobEnd
  · exact h.jobEnd

theorem Blk.MemOk.attnEnd {b : Blk} {own : Nat × Nat} (h : b.MemOk) : (b.attnEnd own).MemOk := by
  unfold Blk.attnEnd
  split
  · exact .ite h.attnFinish h
  · exact h

theorem Blk.MemOk.sweep {b : Blk} (h : b.MemOk) : (b.sweep).MemOk := by
  unfold Blk.sweep
  extract_lets b'
  have hb' : b'.MemOk := h.foldl fun _ _ h₁ => h₁.runHeldCmds
  exact hb'.foldl fun _ _ h₁ => h₁.progEnd.attnEnd.jobSettle

theorem Wk.MemOk.tensor {w : Wk} {d : Desc} (h : w.MemOk) : (w.tensor d).1.MemOk := h.indices.elems

theorem Wk.MemOk.rawBytes {w : Wk} {d : Option Desc} (h : w.MemOk) : (w.rawBytes d).1.MemOk := by
  unfold Wk.rawBytes
  split
  · exact h
  · exact h.tensor

theorem Blk.MemOk.attnGo {b : Blk} {f : Flight} {table : Bytes} (h : b.MemOk) : (b.attnGo f table).MemOk := by
  unfold Blk.attnGo
  extract_lets e n bs st w
  have hw : w.MemOk := h.bank
  clear_value w
  refine .ite h.finish ?_
  split
  next w₁ x h₁ =>
  split
  next w₂ kv h₂ =>
  split
  next w₃ sel h₃ =>
  split
  next w₄ rf h₄ =>
    extract_lets v
    have hv : v.MemOk := ((((hw.rawBytes.of_eq h₁).rawBytes.of_eq h₂).rawBytes.of_eq h₃).rawBytes.of_eq h₄).outsOk
    clear_value v
    split
    next hc => exact h.waits hc
    next => exact .ite hv.blk.finish (Blk.MemOk.setJobs hv.blk.upd)

theorem Blk.MemOk.attnStart {b : Blk} {q seq : Nat} (h : b.MemOk) : (b.attnStart q seq).MemOk := by
  unfold Blk.attnStart
  split
  · exact h
  · refine .ite h.finish ?_
    split
    · exact .ite h.finish (.ite h.attnGo h.updFlight)
    · exact h.updFlight

theorem Blk.MemOk.tableStart {b : Blk} {q seq : Nat} (h : b.MemOk) : (b.tableStart q seq).MemOk := by
  unfold Blk.tableStart
  split
  · exact h
  · refine .ite h.finish ?_
    split
    · exact h.finish
    · extract_lets w
      split
      next v xs hv =>
        have hv := h.bank.tensor.of_eq hv
        split
        next hc => exact h.waits hc
        next => exact .ite hv.blk.finish (.ite hv.blk.finish hv.blk.setJobs)

theorem Blk.MemOk.normReady {b : Blk} {q seq row : Nat} (h : b.MemOk) : (b.normReady q seq row).MemOk := by
  unfold Blk.normReady
  split
  · extract_lets
    split
    · exact h
    · refine .ite h ?_
      extract_lets _ b'
      have hb' : b'.MemOk := h.setTrees
      exact hb'.updJob
  · exact h

theorem Blk.MemOk.normStart {b : Blk} {q seq : Nat} (h : b.MemOk) : (b.normStart q seq).MemOk := by
  unfold Blk.normStart
  split
  · exact h
  · exact .ite h.finish (.ite h.finish (.ite h.finish h.setJobs))

theorem Blk.MemOk.ewStart {b : Blk} {q seq : Nat} (h : b.MemOk) : (b.ewStart q seq).MemOk := by
  unfold Blk.ewStart
  split
  · exact h
  · exact .ite h.finish (.ite h.finish (.ite h.finish (.ite h.finish h.setJobs)))

theorem Blk.MemOk.attnCombine {b : Blk} {f : Flight} {j : Job} {w : WinSum} (h : b.MemOk) : (b.attnCombine f j w).MemOk :=
  .ite h h.updJob

theorem Wk.MemOk.bankOut {w : Wk} {yd : Desc} {old : List (Nat × Bytes)} {rs : List (Nat × Nat)} {last : Bool} (h : w.MemOk) :
    (w.bankOut yd old rs last).1.MemOk := by
  unfold Wk.bankOut
  extract_lets _ _ _ w'
  have hw' : w'.MemOk := h.writeRuns
  exact .iteFst hw'.writeRuns hw'

theorem Blk.MemOk.gemvStore {b : Blk} {f : Flight} {j : Job} {ws : WinSum} {yd : Desc} (h : b.MemOk) :
    (b.gemvStore f j ws yd).1.MemOk := by
  unfold Blk.gemvStore
  extract_lets e p last rs raws
  split
  next w ixs hw =>
    extract_lets v
    have hw := h.bank.indices.of_eq hw
    have hv : v.MemOk := by
      unfold v
      exact hw.foldl fun _ _ h₁ => h₁.flag
    clear_value v
    split
    · exact hv.bankOut
    · show (v.putAt yd ixs raws).MemOk
      exact hv.putAt

theorem Blk.MemOk.gemvCombine {b : Blk} {f : Flight} {j : Job} {ws : WinSum} (h : b.MemOk) : (b.gemvCombine f j ws).MemOk := by
  unfold Blk.gemvCombine
  split
  · exact h
  · split
    next v rest hv =>
      have hv := h.gemvStore.of_eq hv
      split
      next hc => exact h.asks_fst (congrArg Prod.fst hc)
      next hc =>
        have h₁ := (hv.of_asks h hc).blk
        exact .ite h₁.updJob.updJob.jobSettle h₁.updJob

theorem Blk.MemOk.hubCombine {b : Blk} {q seq win : Nat} (h : b.MemOk) : (b.hubCombine q seq win).MemOk := by
  unfold Blk.hubCombine
  split
  · split
    · exact h
    · exact .ite h (.ite h.gemvCombine.sweep (.ite h.attnCombine.sweep h))
  · exact h

theorem Blk.MemOk.treeComplete {b : Blk} {q seq stack win : Nat} (h : b.MemOk) : (b.treeComplete q seq stack win).MemOk := by
  unfold Blk.treeComplete
  split
  · refine .ite h ?_
    extract_lets b' b''
    have hb' : b'.MemOk := h.setTrees
    have hb'' : b''.MemOk := hb'.updJob
    split
    · exact hb''.jobNote.jobSettle
    · exact hb''
  · exact h

theorem Blk.MemOk.tableRead {b : Blk} {f : Flight} (h : b.MemOk) : (b.tableRead f).MemOk := by
  unfold Blk.tableRead
  refine .ite h.attnGo ?_
  split
  · exact h.finish
  · extract_lets w
    split
    next w₁ ixs h₁ =>
    split
    next w₂ xs h₂ =>
      have h₂ := (h.bank.indices.of_eq h₁).elems.of_eq h₂
      split
      next hc => exact h.waits hc
      next =>
        refine .ite h₂.blk.finish (.ite h₂.blk.finish (.ite h₂.blk.finish ?_))
        exact Blk.MemOk.attnGo h₂.blk.keepPlan.upd

theorem Blk.MemOk.gemvGo {b : Blk} {f : Flight} {plan : Bytes} (h : b.MemOk) : (b.gemvGo f plan).MemOk := by
  unfold Blk.gemvGo
  extract_lets e hd w
  have hw : w.MemOk := h.bank
  clear_value w
  split
  next wd xd yd h0 h1 h2 =>
    refine .ite h.finish (.ite h.finish ?_)
    split
    next w₁ ms h₁ =>
      have h₁ : w₁.MemOk := by
        refine .of_eq ?_ h₁
        split
        · exact .iteFst hw.tensor hw
        · exact hw
      split
      next w₂ xs h₂ =>
        have h₂ := h₁.tensor.of_eq h₂
        split
        next hc => exact h.waits hc
        next =>
          extract_lets w₃
          have h₃ : w₃.MemOk := h₂.outsOk
          clear_value w₃
          exact .ite (h.getD fun _ hc => h.waits hc) (.ite h₃.blk.finish h₃.blk.setJobs)
  next => exact h.finish

theorem Blk.MemOk.planRead {b : Blk} {f : Flight} (h : b.MemOk) : (b.planRead f).MemOk := by
  unfold Blk.planRead
  extract_lets hd w
  split
  · exact h.gemvGo
  · split
    · exact h.finish
    · split
      next v xs hv =>
        have hv := h.bank.tensor.of_eq hv
        split
        next hc => exact h.waits hc
        next => exact .ite hv.blk.finish (.ite hv.blk.finish hv.blk.keepPlan.gemvGo)

theorem Blk.MemOk.planReadDone {b : Blk} {q seq : Nat} (h : b.MemOk) : (b.planReadDone q seq).MemOk := by
  unfold Blk.planReadDone
  split
  · exact h
  · exact .ite h (.ite h.planRead (.ite h.tableRead h))

theorem Blk.MemOk.gemvStart {b : Blk} {q seq : Nat} (h : b.MemOk) : (b.gemvStart q seq).MemOk := by
  unfold Blk.gemvStart
  split
  · exact h
  · refine .ite h.finish ?_
    split
    · exact h.gemvGo
    · exact h.updFlight

theorem Blk.MemOk.notePreempt {b : Blk} {u : Nat} {s : SeqSt} (h : b.MemOk) : (b.notePreempt u s).MemOk := by
  unfold Blk.notePreempt
  extract_lets b'
  have hb' : b'.MemOk := h.incReg
  split
  · exact hb'
  · exact hb'.updFlight

theorem Blk.MemOk.stepDone {b : Blk} {u : Nat} (h : b.MemOk) : (b.stepDone u).MemOk := by
  unfold Blk.stepDone
  extract_lets
  split
  · exact h
  · refine .ite h ?_
    refine .ite h.endSeq ?_
    refine .ite h.endSeq ?_
    refine .ite h.endSeq ?_
    refine .ite h.setUnit.thermalRefuse.endSeq ?_
    exact .ite h.setUnit.setUnit.notePreempt h.setUnit.yieldIf.grant

theorem Blk.MemOk.setDrain {b : Blk} {ch : Nat} (h : b.MemOk) : (b.setDrain ch).MemOk := .ite h h.setChan

theorem Blk.MemOk.closeLate {b : Blk} {ch : Nat} (h : b.MemOk) : (b.closeLate ch).MemOk :=
  h.foldl fun _ _ h₁ => .ite h₁.take.closeBank h₁

theorem Blk.MemOk.rowInit {b : Blk} {cls ch bank row : Nat} (h : b.MemOk) : (b.rowInit cls ch bank row).MemOk := by
  unfold Blk.rowInit
  split
  · exact .ite h.initSeg h
  · exact h

theorem Blk.MemOk.putHalf {b : Blk} {ch bank row grp half : Nat} {d : Bytes} (h : b.MemOk) : (b.putHalf ch bank row grp half d).MemOk :=
  .setCells (Memory.wf_cellsPut _ h)

theorem Blk.MemOk.precharge {b : Blk} {ch bank cls : Nat} (h : b.MemOk) : (b.precharge ch bank cls).MemOk := by
  unfold Blk.precharge
  split
  next _ hc =>
    have h₁ := h.pay hc
    exact h₁.closeBank
  · exact h.setChan

theorem Blk.MemOk.granted {b : Blk} {ch cls port : Nat} (h : b.MemOk) : (b.granted ch cls port).MemOk := h.setChan

theorem Blk.MemOk.afterColumn {b : Blk} {ch port cls bank : Nat} {keep : Bool} (h : b.MemOk) :
    (b.afterColumn ch port cls bank keep).MemOk := .ite h.granted h.granted.precharge

theorem Blk.MemOk.moved {b : Blk} {ch : Nat} {d : Bytes} (h : b.MemOk) : (b.moved ch d).MemOk := h.setChan

theorem Blk.MemOk.dequeue {b : Blk} {ch : Nat} {write : Bool} {r : HalfReq} (h : b.MemOk) : (b.dequeue ch write r).MemOk :=
  h.setChan.setDrain

theorem Blk.MemOk.issueReq {b : Blk} {ch : Nat} {write : Bool} {r : HalfReq} (h : b.MemOk) : (b.issueReq ch write r).MemOk := by
  unfold Blk.issueReq
  split
  · extract_lets b'
    have hb' : b'.MemOk := h.dequeue.take
    refine .ite (.granted (.ite hb'.setChan hb'.moved)) ?_
    exact .ite hb'.rowInit.putHalf.moved.afterColumn hb'.moved.afterColumn
  · exact h.take.closeBank.granted
  · exact h.dequeue

theorem Blk.MemOk.acceptHalf {b c : Blk} {ch : Nat} {write : Bool} {r : HalfReq} (h : b.MemOk) (hc : b.acceptHalf ch write r = some c) :
    c.MemOk := by
  unfold Blk.acceptHalf at hc
  dsimp only at hc
  split at hc
  · split at hc <;> cases hc
    exact h.setChan.setDrain
  · split at hc
    · cases hc
      exact h.moved
    · split at hc
      · cases hc
        exact h.moved
      · split at hc <;> cases hc
        exact h.setChan

theorem Blk.MemOk.acceptHalves {b : Blk} {ch : Nat} (h : b.MemOk) : (b.acceptHalves ch).MemOk := by
  refine .ite h (Blk.MemOk.setChan (.foldlFst h fun s p h₁ => .iteFst h₁ ?_))
  split
  · next hc => exact h₁.acceptHalf hc
  · exact h₁

theorem Blk.MemOk.pumpN {b : Blk} {ch fuel : Nat} (h : b.MemOk) : (b.pumpN ch fuel).MemOk := by
  induction fuel generalizing b with
  | zero => exact h
  | succ n ih =>
    unfold Blk.pumpN
    dsimp only
    split
    · exact h.acceptHalves
    · exact ih h.acceptHalves.issueReq

theorem Blk.MemOk.pump {b : Blk} {ch : Nat} (h : b.MemOk) : (b.pump ch).MemOk := .ite h h.setDrain.closeLate.pumpN

theorem Blk.MemOk.stepEnd {b : Blk} {u : Nat} (h : b.MemOk) : (b.stepEnd u).MemOk := by
  unfold Blk.stepEnd
  extract_lets _ b'
  have hb' : b'.MemOk := h.stepDone.sweep.pump
  exact .ite hb'.releaseHeld hb'

theorem Blk.MemOk.attachCtx {b c : Blk} {j : Job} {u : UCmd} (h : b.MemOk) (hc : b.attachCtx j u = some c) : c.MemOk := by
  unfold Blk.attachCtx at hc
  dsimp only at hc
  split at hc
  · cases hc
    exact h
  · split at hc
    · cases hc
      exact h
    · split at hc
      · cases hc
        exact Blk.MemOk.setTrees (.ite h h.updJob)
      · cases hc

theorem Blk.MemOk.holdCmd {b : Blk} {c : UCmd} (h : b.MemOk) : (b.holdCmd c).MemOk := by
  unfold Blk.holdCmd
  extract_lets _ _ _ b'
  have hb' : b'.MemOk := h.upd.foldl fun _ _ h₁ => h₁.setUnit.wakeDie
  exact .ite h.upd hb'.upd.grant.runHeldCmds

theorem Blk.MemOk.passCmd {b : Blk} {c : UCmd} (h : b.MemOk) : (b.passCmd c).MemOk := .ite h.holdCmd h.unitCmd

theorem Blk.MemOk.submit {b : Blk} {c : UCmd} (h : b.MemOk) : (b.submit c).MemOk := by
  unfold Blk.submit
  refine .ite h ?_
  split
  · exact h
  next _ hc =>
    have h₁ := h.pay hc
    split
    · exact h₁.passCmd
    · split
      · exact h
      next _ hc =>
        have h₂ := h₁.attachCtx hc
        exact h₂.updJob.passCmd

theorem Blk.MemOk.settleErred {b : Blk} {c : UCmd} (h : b.MemOk) : (b.settleErred c).MemOk := by
  unfold Blk.settleErred
  refine h.foldl fun _ _ h₁ => ?_
  split
  · exact .ite h₁.endSeq h₁
  · exact h₁

theorem Blk.MemOk.deliver {b : Blk} {u : Nat} {x : Xfer} (h : b.MemOk) : (b.deliver u x).MemOk := by
  unfold Blk.deliver
  split
  · extract_lets _ b' b''
    have hb' : b'.MemOk := h.setTrees
    have hb'' : b''.MemOk := hb'.updJob
    exact .ite hb''.jobNote.jobSettle hb''
  · exact h

theorem Blk.MemOk.transferDone {b : Blk} {u set : Nat} (h : b.MemOk) : (b.transferDone u set).MemOk := by
  unfold Blk.transferDone
  extract_lets
  split
  · exact h
  · exact h.setUnit.deliver.runHeldCmds

theorem Blk.MemOk.stepCmd {b : Blk} {kind : Nat} {a : StepTarget} (h : b.MemOk) : (b.stepCmd kind a).MemOk := by
  unfold Blk.stepCmd
  split
  · exact h.submit
  · exact h.runStep

theorem Blk.MemOk.trnDone {b : Blk} {errs : List Nat} (h : b.MemOk) : (b.trnDone errs).MemOk := by
  unfold Blk.trnDone
  extract_lets _ _ _ _ c' b' b'' _ b''' b''''
  have hc' : c'.MemOk := h.setChan
  have hb' : b'.MemOk := .ite hc'.upd h
  have hb'' : b''.MemOk := hb'.foldl fun _ _ h₁ => h₁.setReg
  have hb''' : b'''.MemOk := hb''.foldl fun _ _ h₁ => h₁.setReg
  have hb'''' : b''''.MemOk := hb'''.setReg
  exact .ite h (.ite hb''''.laneFails hb'''')

theorem Blk.MemOk.retrainAll {b : Blk} {bad : List Nat} (h : b.MemOk) : (b.retrainAll bad).MemOk := by
  unfold Blk.retrainAll
  extract_lets b'
  have hb' : b'.MemOk := h.foldl fun _ _ h₁ => .ite h₁ h₁.trainFor
  exact hb'.foldl fun _ _ h₁ => .ite h₁.laneFails h₁

theorem Blk.MemOk.corrExpiry {b : Blk} {ch : Nat} (h : b.MemOk) : (b.corrExpiry ch).MemOk := h.setChan

theorem Blk.MemOk.phyTimeout {b : Blk} {d : Nat} (h : b.MemOk) : (b.phyTimeout d).MemOk := by
  unfold Blk.phyTimeout
  extract_lets
  split
  · exact .ite h.setDie h.setDie.logE.moduleFault
  · exact h

theorem Blk.MemOk.exitLate {b : Blk} {d : Nat} (h : b.MemOk) : (b.exitLate d).MemOk := by
  unfold Blk.exitLate
  extract_lets c'
  have hc' : c'.MemOk := h.phyTimeout
  exact .ite hc'.wakeFail hc'

theorem Blk.MemOk.setPair {b : Blk} {ch pair : Nat} {p : PairSt} (h : b.MemOk) : (b.setPair ch pair p).MemOk := h.upd

theorem Blk.MemOk.txsElapsed {b : Blk} {d : Nat} (h : b.MemOk) : (b.txsElapsed d).MemOk := by
  unfold Blk.txsElapsed
  extract_lets _ b'
  have hb' : b'.MemOk := h.foldl fun _ _ h₁ => h₁.setPair
  exact .ite hb'.setDie.grant h

theorem Blk.MemOk.payDie {b c : Blk} {d : Nat} (h : b.MemOk) (hc : b.payDie d = some c) : c.MemOk := by
  obtain ⟨x, hx, hc⟩ := Option.bind_eq_some_iff.1 hc
  exact (h.pay hx).pay hc

theorem Blk.MemOk.phyLocked {b : Blk} {d : Nat} (h : b.MemOk) : (b.phyLocked d).MemOk := by
  unfold Blk.phyLocked
  extract_lets
  split
  · split
    next _ hc =>
      have h₁ := h.payDie hc
      exact h₁.setDie
    · exact h.setDie
  · exact h

theorem Blk.MemOk.srEntryTimeout {b : Blk} {d : Nat} (h : b.MemOk) : (b.srEntryTimeout d).MemOk := by
  unfold Blk.srEntryTimeout
  refine .ite h ?_
  refine h.foldl fun _ _ h₁ => ?_
  refine .ite h₁ ?_
  extract_lets
  split
  · split
    · exact h₁.setUnit.jobNote.jobSettle
    · exact h₁
  · exact .ite h₁.setUnit h₁.endSeq

theorem Blk.MemOk.dropReq {b : Blk} {ch : Nat} {r : HalfReq} (h : b.MemOk) : (b.dropReq ch r).MemOk := h.setChan

theorem Blk.MemOk.dropQueued {b : Blk} {ch port cls : Nat} (h : b.MemOk) : (b.dropQueued ch port cls).MemOk := by
  unfold Blk.dropQueued
  extract_lets
  split
  · exact h.dropReq
  · exact h

theorem Blk.MemOk.winRefused {b : Blk} {off len : Nat} (h : b.MemOk) : (b.winRefused off len).MemOk := h.send.winEvent

theorem Blk.MemOk.ownerEnd {b : Blk} {o : Owner} {st : Nat} (h : b.MemOk) : (b.ownerEnd o st).MemOk := by
  unfold Blk.ownerEnd
  split
  · split
    · exact .ite h.endEntry.veIdle h
    · exact h
  · exact h.upd.winRefused
  · exact h.upd
  · split
    · exact h.upd.respond
    · exact h
  · split
    · exact h.upd.frame
    · exact h
  · exact h

theorem Blk.MemOk.reqTimeout {b : Blk} {ch port cls : Nat} {o : Owner} (h : b.MemOk) : (b.reqTimeout ch port cls o).MemOk :=
  .ite h h.logE.scEvent.dropQueued.ownerEnd

theorem Blk.MemOk.rowIdle {b : Blk} {ch bank : Nat} (h : b.MemOk) : (b.rowIdle ch bank).MemOk := by
  unfold Blk.rowIdle
  split
  · exact h
  · exact .ite h h.precharge

theorem Blk.MemOk.refresh {b : Blk} {ch pair : Nat} (h : b.MemOk) : (b.refresh ch pair).MemOk := h.closeBank.closeBank.setPair

theorem Blk.MemOk.chPullIn {b : Blk} {ch pair : Nat} (h : b.MemOk) : (b.chPullIn ch pair).MemOk := by
  unfold Blk.chPullIn
  refine .ite h ?_
  split
  · exact h
  next _ hc =>
    have h₁ := h.pay hc
    exact h₁.refresh

theorem Blk.MemOk.refreshLate {b : Blk} {ch pair : Nat} (h : b.MemOk) : (b.refreshLate ch pair).MemOk :=
  .ite h h.forceStop.logE.scEvent.moduleFault

theorem Blk.MemOk.preemptIdle {b : Blk} {u : Nat} (h : b.MemOk) : (b.preemptIdle u).MemOk := by
  unfold Blk.preemptIdle
  extract_lets
  split
  · exact .ite h h.setUnit.notePreempt
  · split
    · exact h.incReg.updFlight
    · exact h

theorem Blk.MemOk.maxDebt {b : Blk} {s : Nat} {d : Int} (h : b.MemOk) : (b.maxDebt s d).MemOk := h.setReg

theorem Blk.MemOk.refreshDue {b : Blk} {ch pair : Nat} (h : b.MemOk) : (b.refreshDue ch pair).MemOk := by
  unfold Blk.refreshDue
  refine .ite h ?_
  extract_lets _ _ b'
  have hb' : b'.MemOk := h.setPair.maxDebt
  exact .ite hb'.preemptIdle hb'

theorem Blk.MemOk.parityFail {b : Blk} {ch : Nat} {o : Owner} (h : b.MemOk) : (b.parityFail ch o).MemOk := by
  unfold Blk.parityFail
  refine .ite h ?_
  extract_lets _ b'
  have hb' : b'.MemOk := by
    unfold b'
    split
    · exact .ite h.dropReq h
    · exact h
  exact .ite h.setChan hb'.setChan.logE.scEvent.ownerEnd

theorem Blk.MemOk.dieSrx {b : Blk} {d : Nat} (h : b.MemOk) : (b.dieSrx d).MemOk := by
  unfold Blk.dieSrx
  refine .ite ?_ h
  split
  next _ hc =>
    have h₁ := h.payDie hc
    exact h₁.setDie
  · exact h

theorem Blk.MemOk.dieSre {b : Blk} {d : Nat} (h : b.MemOk) : (b.dieSre d).MemOk := by
  unfold Blk.dieSre
  refine .ite h ?_
  split
  · exact h
  next _ hc =>
    have h₁ := h.payDie hc
    extract_lets b'
    have hb' : b'.MemOk := h₁.foldl fun _ _ h₂ => h₂.setChan
    exact hb'.upd.setDie

theorem Blk.MemOk.payRefresh {b : Blk} {ch half : Nat} (h : b.MemOk) : (b.payRefresh ch half).MemOk := h.setChan

theorem Blk.MemOk.chRefpr {b : Blk} {ch pair : Nat} (h : b.MemOk) : (b.chRefpr ch pair).MemOk :=
  .ite h (.ite h h.payRefresh.refresh)

theorem Blk.MemOk.chWrw {b : Blk} {ch port cls bank row word : Nat} {keep : Bool} {d : Bytes} (h : b.MemOk) :
    (b.chWrw ch port cls bank row word keep d).MemOk := by
  unfold Blk.chWrw
  refine .ite h ?_
  split
  · exact h
  next c hc =>
    extract_lets c₁ g c₂
    have h₁ : c₁.MemOk := (h.pay hc).rowInit
    have h₂ : c₂.MemOk := .setCells (Memory.wf_cellsPut _ h₁)
    exact h₂.moved.afterColumn

theorem Blk.MemOk.chRdw {b : Blk} {ch port cls bank row word : Nat} {keep : Bool} (h : b.MemOk) :
    (b.chRdw ch port cls bank row word keep).MemOk := by
  unfold Blk.chRdw
  refine .ite h ?_
  refine .ite h.moved ?_
  split
  · exact h
  next _ hc =>
    have h₁ := h.pay hc
    exact h₁.moved.afterColumn

theorem Blk.MemOk.request1 {b : Blk} {ch : Nat} {write : Bool} {r : HalfReq} (h : b.MemOk) : (b.request1 ch write r).MemOk :=
  h.setChan.wakeDie.pump

theorem Blk.MemOk.chWrh {b : Blk} {ch port cls bank row grp half : Nat} {keep : Bool} {d : Bytes} (h : b.MemOk) :
    (b.chWrh ch port cls bank row grp half keep d).MemOk := .ite h.request1 h

theorem Blk.MemOk.chRdh {b : Blk} {ch port cls bank row grp half : Nat} {keep : Bool} (h : b.MemOk) :
    (b.chRdh ch port cls bank row grp half keep).MemOk := .ite h.request1 h

theorem Blk.MemOk.chPre {b : Blk} {ch port cls bank : Nat} (h : b.MemOk) : (b.chPre ch port cls bank).MemOk := by
  unfold Blk.chPre
  refine .ite h ?_
  split
  · exact h
  next _ hc =>
    have h₁ := h.pay hc
    exact h₁.closeBank.granted

theorem Blk.MemOk.openBank {b : Blk} {ch bank row cls : Nat} (h : b.MemOk) : (b.openBank ch bank row cls).MemOk := h.setChan

theorem Blk.MemOk.chAct {b : Blk} {ch port cls bank row : Nat} (h : b.MemOk) : (b.chAct ch port cls bank row).MemOk := by
  unfold Blk.chAct
  refine .ite h ?_
  split
  · exact h
  next _ hc =>
    have h₁ := h.pay hc
    exact h₁.openBank.granted

theorem Blk.MemOk.scrubNote {b : Blk} {ch : Nat} (h : b.MemOk) : (b.scrubNote ch).MemOk := h.upd

theorem Blk.MemOk.scrubQuarter {b : Blk} {g' q mpa : Nat} (h : b.MemOk) : (b.scrubQuarter g' q mpa).MemOk := by
  unfold Blk.scrubQuarter
  extract_lets _ _ b'
  have hb' : b'.MemOk := h.readQuarter
  refine .ite hb'.putQuarter.logMem.take ?_
  exact .ite hb'.scrubNote hb'

theorem Blk.MemOk.poisonOpen {b : Blk} {g : Nat} (h : b.MemOk) : (poisonOpen b g).MemOk :=
  h.of_frame (poisonOpen_memFrame _ _)

theorem Blk.MemOk.scrubGroup {b : Blk} {g' mpa : Nat} {isOpen : Bool} (h : b.MemOk) : (b.scrubGroup g' mpa isOpen).MemOk := by
  unfold Blk.scrubGroup
  refine .ite ?_ (h.foldl fun _ _ h₁ => h₁.scrubQuarter)
  refine .ite h.readOpen.poisonOpen.logMem.take ?_
  exact .ite h.readOpen.scrubNote h.readOpen

theorem Blk.MemOk.scrubStep {b : Blk} {ch : Nat} (h : b.MemOk) : (b.scrubStep ch).MemOk := by
  unfold Blk.scrubStep
  dsimp -zeta only
  refine .ite h ?_
  extract_lets done
  have hdone : ∀ c, done = some c → c.MemOk := by
    intro c hc
    unfold done at hc
    split at hc
    · cases hc
      exact h
    · split at hc
      · cases hc
      · obtain ⟨x, hx, rfl⟩ := Option.map_eq_some_iff.1 hc
        have hx' := h.pay hx
        extract_lets d
        have hd : d.MemOk := .ite hx'.closeBank hx'
        clear_value d
        split
        · exact hd.scrubGroup
        · exact hd
  clear_value done
  split
  · exact h
  next c =>
    have hc := hdone c rfl
    exact .ite (Blk.MemOk.setReg hc.updMem) hc.updMem

theorem Blk.MemOk.convNext {b : Blk} {fuel : Nat} {c : Conv} (h : b.MemOk) : (b.convNext fuel c).1.MemOk := by
  induction fuel generalizing b c with
  | zero => exact h
  | succ n ih =>
    unfold Blk.convNext
    split
    · exact h
    · exact .iteFst h (.iteFst (ih h) (.iteFst (ih h.setSeg) (.iteFst h (ih h))))

theorem Blk.MemOk.dropMargins {b : Blk} {gs : List Nat} {isOpen : Bool} (h : b.MemOk) : (b.dropMargins gs isOpen).MemOk :=
  .setCells (Memory.wf_cellsDrop _ h)

theorem Blk.MemOk.unsealGroup {b : Blk} {rq : Req} {g' : Nat} (h : b.MemOk) : (b.unsealGroup rq g').1.MemOk := by
  unfold Blk.unsealGroup
  extract_lets _ _ _ _ _ _ b' b''
  have hb' : b'.MemOk := h.foldl fun _ _ h₁ => h₁.corrected
  have hb'' : b''.MemOk := hb'.foldl fun _ _ h₁ => .ite h₁.logMem h₁
  refine .iteFst hb''.putOpen.logMem ?_
  exact .iteFst hb''.putOpen hb''.putOpen

theorem Blk.MemOk.putGuarded {b : Blk} {g' : Nat} {data : Bytes} {v : Nat} (h : b.MemOk) : (putGuarded b g' data v).MemOk :=
  h.foldl fun _ _ h₁ => h₁.putQuarter

theorem Blk.MemOk.sealGroup {b : Blk} {rq : Req} {g' : Nat} (h : b.MemOk) : (b.sealGroup rq g').1.MemOk := by
  unfold Blk.sealGroup
  extract_lets _ _ _ b'
  have hb' : b'.MemOk := .ite h h.logMem
  exact .iteFst h.putGuarded (.iteFst h.putGuarded hb'.putGuarded.logMem)

theorem Blk.MemOk.convertSeg {b : Blk} {c : Conv} {seg path : Nat} (h : b.MemOk) : (b.convertSeg c seg path).1.MemOk := by
  unfold Blk.convertSeg
  extract_lets gs rq
  split
  next d fl co hd =>
    have hd : d.MemOk := by
      refine .of_eq ?_ hd
      refine Blk.MemOk.foldlFst h fun s g h₁ => .iteFst ?_ ?_
      · split
        next x n hx => exact h₁.sealGroup.of_eq hx
      · split
        next x n k hx => exact h₁.unsealGroup.of_eq hx
    exact hd.dropMargins.setSeg

theorem Blk.MemOk.convSegDone {b : Blk} {seg : Nat} (h : b.MemOk) : (b.convSegDone seg).MemOk := by
  unfold Blk.convSegDone
  split
  · exact h
  · exact .ite h h.chargeSeg.convertSeg.convNext.convKeep

theorem Blk.MemOk.convStart {b : Blk} {q seq op : Nat} {toGuarded : Bool} (h : b.MemOk) : (b.convStart q seq op toGuarded).MemOk := by
  unfold Blk.convStart
  split
  · exact h
  · exact .ite h (.ite h.finish (.ite h.finish h.updFlight.convNext.convKeep))

theorem Blk.MemOk.segInit {b : Blk} {seg cls : Nat} (h : b.MemOk) : (b.segInit seg cls).MemOk := .ite h.initSeg h

theorem Blk.MemOk.layPersist {b : Blk} {ok : Bool} (h : b.MemOk) : (b.layPersist ok).MemOk := by
  unfold Blk.layPersist
  split
  · exact h
  · exact .ite h.upd.layEvent h.upd.layEvent

theorem Blk.MemOk.clockStep {b : Blk} {margin : Nat} (h : b.MemOk) : (b.clockStep margin).MemOk := by
  unfold Blk.clockStep
  refine .ite h ?_
  exact .ite h.setPwr (.ite h.setPwr (.ite h (.ite h.setPwr (.ite h.setPwr h))))

theorem Blk.MemOk.scrubLates {b : Blk} (h : b.MemOk) : (b.scrubLates).MemOk :=
  h.foldl fun _ _ h₁ => .ite h₁.updMem.logE.scEvent h₁

theorem Blk.MemOk.writeBacks {b : Blk} (h : b.MemOk) : (b.writeBacks).MemOk :=
  h.foldl fun _ _ h₁ => .ite h₁.updMem.fixQuarter h₁.updMem

theorem Blk.MemOk.pumpAll {b : Blk} (h : b.MemOk) : (b.pumpAll).MemOk := h.foldl fun _ _ h₁ => h₁.pump

theorem Blk.MemOk.loadCounters {b : Blk} (h : b.MemOk) : (b.loadCounters).MemOk :=
  h.foldl fun _ _ h₁ => h₁.foldl fun _ _ h₂ => .ite h₂ h₂.setChan

theorem Blk.MemOk.allowAll {b : Blk} (h : b.MemOk) : (b.allowAll).MemOk := h.foldl fun _ _ h₁ => .ite h₁ h₁.setDie

theorem Blk.MemOk.slotRound {b : Blk} (h : b.MemOk) : (b.slotRound).MemOk := by
  unfold Blk.slotRound
  extract_lets _ b' b''
  have hb' : b'.MemOk := h.foldl fun _ _ h₁ => .ite h₁.endSeq h₁
  have hb'' : b''.MemOk := hb'.foldl fun _ _ h₁ => .ite h₁.yieldIf h₁
  exact hb''.foldl fun _ _ h₁ => h₁.grant

theorem Blk.MemOk.resetShadows {b : Blk} (h : b.MemOk) : (b.resetShadows).MemOk :=
  h.foldl fun _ _ h₁ => h₁.foldl fun _ _ h₂ => .ite h₂ h₂.setReg

theorem Blk.MemOk.recheckDescs {b : Blk} (h : b.MemOk) : (b.recheckDescs).MemOk := h.upd

theorem Blk.MemOk.layApply {b : Blk} (h : b.MemOk) : (b.layApply).MemOk := by
  unfold Blk.layApply
  split
  · exact h
  · extract_lets old segs _ c₁ c₂ _ c₃ c₄
    have h₁ : c₁.MemOk := h.upd
    clear_value c₁
    have h₂ : c₂.MemOk := h₁.takeStruc.resetShadows.recheckDescs
    clear_value c₂
    have h₃ : c₃.MemOk := h₂.updMem
    clear_value c₃
    exact Blk.MemOk.measure (h₃.foldl fun _ _ h₄ => h₄.setCommit)

theorem Blk.MemOk.commitMore {b : Blk} {c : CBlk} {mask : Nat} (h : b.MemOk) : (b.commitMore c mask).MemOk := by
  unfold Blk.commitMore
  split
  · exact h.upd
  · exact .ite h.setQp h
  · exact .ite (h.foldl fun _ _ h₁ => h₁.setDie) h
  · exact h

theorem Blk.MemOk.commitLand {b : Blk} {c : CBlk} (h : b.MemOk) : (b.commitLand c).MemOk := by
  unfold Blk.commitLand
  extract_lets _ b'
  have hb' : b'.MemOk := h.foldl fun _ _ h₁ => h₁.setReg
  split
  · exact h
  · exact hb'.setCommit.commitMore

theorem Blk.MemOk.commitAll {b : Blk} (h : b.MemOk) : (b.commitAll).MemOk := h.foldl fun _ _ h₁ => h₁.commitLand

theorem Blk.MemOk.capLand {b : Blk} (h : b.MemOk) : (b.capLand).MemOk := by
  unfold Blk.capLand
  split
  · exact h
  · exact h.setSdg.capApply

theorem Blk.MemOk.lowerFactors {b : Blk} (h : b.MemOk) : (b.lowerFactors).MemOk := by
  unfold Blk.lowerFactors
  split
  · exact h
  · exact h.setSdg.setFactors

theorem Blk.MemOk.boundary {b : Blk} {margin : Nat} (h : b.MemOk) : (b.boundary margin).MemOk := by
  unfold Blk.boundary
  refine .ite h ?_
  extract_lets _ b' b''
  have hb' : b'.MemOk := h.upd.commitAll.capLand.lowerFactors
  have hb'' : b''.MemOk := .ite hb'.layApply hb'
  exact hb''.loadCounters.allowAll.slotRound.sweep.clockStep.scrubLates.writeBacks.pumpAll.releaseHeld

/-! ### Commands -/

theorem settle_memOk {a b : Blk} (h : b.MemOk) : (settle a b).MemOk := by
  rw [Blk.MemOk, settle_mem]
  exact h

/-- What a command answers leaves memory in its canonical form. -/
def OutOk (o : Out) : Prop := ∀ t, o = .next t → t.blk.MemOk

section
variable {s : State} {f : Blk → Blk} {o : Out}

theorem OutOk.act (e : o = act s f) (h : s.blk.MemOk) (hf : ∀ b, b.MemOk → (f b).MemOk) : OutOk o := by
  intro t ht
  cases e.symm.trans ht
  exact settle_memOk (hf _ h)

theorem OutOk.hub (e : o = hubAct s f) (h : s.blk.MemOk) (hf : ∀ b, b.MemOk → (f b).MemOk) : OutOk o := by
  unfold hubAct at e
  split at e
  · exact .act e h hf
  · intro t ht
    cases e.symm.trans ht
    exact h

theorem OutOk.side (e : o = sideAct s f) (h : s.blk.MemOk) (hf : ∀ b, b.MemOk → (f b).MemOk) : OutOk o :=
  .act e h fun _ hb => .ite (hf _ hb) hb

theorem OutOk.bus {p : Path} {i : Instr} (e : o = busAct p i s) (h : s.blk.MemOk) : OutOk o :=
  .act e h fun _ hb => hb.access

end

theorem exec_memOk (c : Instr) {s : State} (h : s.blk.MemOk) : OutOk (exec c s) := by
  cases c with
  | badAccess => exact .bus (exec_badAccess ..) h
  | sdgWriteRefused => exact .bus (exec_sdgWriteRefused ..) h
  | registerWrite => exact .bus (exec_registerWrite ..) h
  | budgetPeriodBoundary => exact .act (exec_budgetPeriodBoundary ..) h fun _ h => h.boundary
  | commit => exact .bus (exec_commit ..) h
  | layLoad => exact .bus (exec_layLoad ..) h
  | layPersistDone => exact .hub (exec_layPersistDone ..) h fun _ h => h.layPersist
  | segmentInitDone => exact .hub (exec_segmentInitDone ..) h fun _ h => h.segInit
  | sealSegs => exact .hub (exec_sealSegs ..) h fun _ h => h.convStart
  | unsealSegs => exact .hub (exec_unsealSegs ..) h fun _ h => h.convStart
  | conversionSegmentDone => exact .hub (exec_conversionSegmentDone ..) h fun _ h => h.convSegDone.releaseHeld
  | scrubStep => exact .hub (exec_scrubStep ..) h fun _ h => h.scrubStep
  | act => exact .hub (exec_act ..) h fun _ h => h.chAct.pump
  | pre => exact .hub (exec_pre ..) h fun _ h => h.chPre.pump
  | rdh => exact .hub (exec_rdh ..) h fun _ h => h.chRdh
  | wrh => exact .hub (exec_wrh ..) h fun _ h => h.chWrh
  | rdw => exact .hub (exec_rdw ..) h fun _ h => h.chRdw
  | wrw => exact .hub (exec_wrw ..) h fun _ h => h.chWrw
  | refpr => exact .hub (exec_refpr ..) h fun _ h => h.chRefpr
  | sre => exact .hub (exec_sre ..) h fun _ h => h.dieSre
  | srx => exact .hub (exec_srx ..) h fun _ h => h.dieSrx
  | cmdParityFail => exact .hub (exec_cmdParityFail ..) h fun _ h => h.parityFail
  | refreshDue => exact .hub (exec_refreshDue ..) h fun _ h => h.refreshDue
  | refreshLate => exact .hub (exec_refreshLate ..) h fun _ h => h.refreshLate
  | refreshPullIn => exact .hub (exec_refreshPullIn ..) h fun _ h => h.chPullIn
  | rowIdleTimeout => exact .hub (exec_rowIdleTimeout ..) h fun _ h => h.rowIdle
  | scReqTimeout => exact .hub (exec_scReqTimeout ..) h fun _ h => h.reqTimeout
  | srEntryTimeout => exact .hub (exec_srEntryTimeout ..) h fun _ h => h.srEntryTimeout
  | srExitPhyLocked => exact .hub (exec_srExitPhyLocked ..) h fun _ h => h.phyLocked
  | srExitTxsElapsed => exact .hub (exec_srExitTxsElapsed ..) h fun _ h => h.txsElapsed.sweep.releaseHeld
  | srExitPhyTimeout => exact .hub (exec_srExitPhyTimeout ..) h fun _ h => h.exitLate
  | corrWindowExpiry => exact .hub (exec_corrWindowExpiry ..) h fun _ h => h.corrExpiry
  | retrainTimer => exact .hub (exec_retrainTimer ..) h fun _ h => h.retrainAll
  | clrCounters => exact .bus (exec_clrCounters ..) h
  | trnStart => exact .bus (exec_trnStart ..) h
  | trnRunDone => exact .hub (exec_trnRunDone ..) h fun _ h => h.trnDone
  | pimMode => exact .hub (exec_pimMode ..) h fun _ h => h.submit.sweep
  | opl => exact .hub (exec_opl ..) h fun _ h => h.submit.sweep
  | cact => exact .hub (exec_cact ..) h fun _ h => h.stepCmd.sweep
  | crd => exact .hub (exec_crd ..) h fun _ h => h.stepCmd.sweep
  | cwr => exact .hub (exec_cwr ..) h fun _ h => h.stepCmd.sweep
  | accRd => exact .hub (exec_accRd ..) h fun _ h => h.stepCmd.sweep
  | accRdTransferDone => exact .hub (exec_accRdTransferDone ..) h fun _ h => h.transferDone.sweep
  | tblWr => exact .hub (exec_tblWr ..) h fun _ h => h.submit.settleErred.sweep
  | stepLd => exact .hub (exec_stepLd ..) h fun _ h => h.submit.sweep
  | stepGo => exact .hub (exec_stepGo ..) h fun _ h => h.submit.sweep
  | smax => exact .hub (exec_smax ..) h fun _ h => h.runStep
  | sexp => exact .hub (exec_sexp ..) h fun _ h => h.runStep
  | lperm => exact .hub (exec_lperm ..) h fun _ h => h.runStep
  | lew => exact .hub (exec_lew ..) h fun _ h => h.runStep
  | lstat => exact .hub (exec_lstat ..) h fun _ h => h.runStep
  | unitStepDone => exact .hub (exec_unitStepDone ..) h fun _ h => h.stepEnd
  | bankGemv => exact .hub (exec_bankGemv ..) h fun _ h => h.gemvStart
  | planReadDone => exact .hub (exec_planReadDone ..) h fun _ h => h.planReadDone
  | treeWindowComplete => exact .hub (exec_treeWindowComplete ..) h fun _ h => h.treeComplete.sweep
  | hubWindowCombine => exact .hub (exec_hubWindowCombine ..) h fun _ h => h.hubCombine
  | bankEwise => exact .hub (exec_bankEwise ..) h fun _ h => h.ewStart
  | bankNorm => exact .hub (exec_bankNorm ..) h fun _ h => h.normStart
  | normStatsReady => exact .hub (exec_normStatsReady ..) h fun _ h => h.normReady
  | bankTable => exact .hub (exec_bankTable ..) h fun _ h => h.tableStart
  | bankAttn => exact .hub (exec_bankAttn ..) h fun _ h => h.attnStart
  | attnFallbackCheck => exact .hub (exec_attnFallbackCheck ..) h fun _ h => h.attnFallback.sweep
  | attnProbeResolve => exact .hub (exec_attnProbeResolve ..) h fun _ h => h.attnResolve
  | tileMm => exact .hub (exec_tileMm ..) h fun _ h => h.tileStart
  | tileDone => exact .hub (exec_tileDone ..) h fun _ h => h.tileDone.veIdle
  | ftqEntryFreed => exact .hub (exec_ftqEntryFreed ..) h fun _ h => h.ftqFreed.veIdle
  | vecProg => exact .hub (exec_vecProg ..) h fun _ h => h.vecStart
  | veRowBoundary => exact .hub (exec_veRowBoundary ..) h fun _ h => h.veBoundary
  | sfuMap => exact .hub (exec_sfuMap ..) h fun _ h => h.sfuRun
  | sfuSoftmax => exact .hub (exec_sfuSoftmax ..) h fun _ h => h.sfuRun
  | sfuLogSoftmax => exact .hub (exec_sfuLogSoftmax ..) h fun _ h => h.sfuRun
  | sfuLayerNorm => exact .hub (exec_sfuLayerNorm ..) h fun _ h => h.sfuRun
  | sfuRmsNorm => exact .hub (exec_sfuRmsNorm ..) h fun _ h => h.sfuRun
  | sfuLoadTable => exact .hub (exec_sfuLoadTable ..) h fun _ h => h.sfuRun
  | copy => exact .hub (exec_copy ..) h fun _ h => h.copyRun
  | fill => exact .hub (exec_fill ..) h fun _ h => h.fillRun
  | relay => exact .hub (exec_relay ..) h fun _ h => h.relayRun
  | descCreate => exact .hub (exec_descCreate ..) h fun _ h => h.createRun
  | descDrop => exact .hub (exec_descDrop ..) h fun _ h => h.dropRun
  | nop => exact .hub (exec_nop ..) h fun _ h => h.nopRun
  | fence => exact .hub (exec_fence ..) h fun _ h => h.fenceRun
  | windowRead => exact .act (exec_windowRead ..) h fun _ h => h.windowRead
  | windowWrite => exact .act (exec_windowWrite ..) h fun _ h => h.windowWrite
  | pcieAtomicop => exact .bus (exec_pcieAtomicop ..) h
  | doorbell => exact .bus (exec_doorbell ..) h
  | ringFetchDone => exact .hub (exec_ringFetchDone ..) h fun _ h => h.fetchDone
  | staleReread => exact .hub (exec_staleReread ..) h fun _ h => h.reread
  | staleDoorbell => exact .hub (exec_staleDoorbell ..) h fun _ h => h.staleEnd
  | entryStart => exact .hub (exec_entryStart ..) h fun _ h => h.startEntry
  | entryComplete => exact .hub (exec_entryComplete ..) h fun _ h => h.entryDone
  | cqHeadWrite => exact .bus (exec_cqHeadWrite ..) h
  | qpEnable => exact .bus (exec_qpEnable ..) h
  | qpReset => exact .bus (exec_qpReset ..) h
  | qpDropHeld => exact .bus (exec_qpDropHeld ..) h
  | coalesceDelayExpiry => exact .hub (exec_coalesceDelayExpiry ..) h fun _ h => h.coalesced
  | reattach => exact .bus (exec_reattach ..) h
  | linkSignalDetect => exact .hub (exec_linkSignalDetect ..) h fun _ h => h.signalDetect
  | linkTrainingDone => exact .hub (exec_linkTrainingDone ..) h fun _ h => h.trainingDone
  | linkBringupTimeout => exact .hub (exec_linkBringupTimeout ..) h fun _ h => h.bringupLate
  | linkRetryTimer => exact .hub (exec_linkRetryTimer ..) h fun _ h => h.retryTimer
  | ident => exact .hub (exec_ident ..) h fun _ h => h.identIn
  | proof => exact .hub (exec_proof ..) h fun _ h => h.proofIn
  | linkMismatchRetry => exact .hub (exec_linkMismatchRetry ..) h fun _ h => h.mismatchRetry
  | linkFecRateCheck => exact .hub (exec_linkFecRateCheck ..) h fun _ h => h.fecRate
  | dataFlit => exact .hub (exec_dataFlit ..) h fun _ h => h.dataFlit
  | nakFlit => exact .hub (exec_nakFlit ..) h fun _ h => h.nakFlit
  | flitAckTimeout => exact .hub (exec_flitAckTimeout ..) h fun _ h => h.ackLate
  | fecLockLoss => exact .hub (exec_fecLockLoss ..) h fun _ h => h.fecLost
  | fabRead => exact .hub (exec_fabRead ..) h fun _ h => h.typedIn
  | fabWrite => exact .hub (exec_fabWrite ..) h fun _ h => h.typedIn
  | fabAtomic => exact .hub (exec_fabAtomic ..) h fun _ h => h.typedIn
  | fabFence => exact .hub (exec_fabFence ..) h fun _ h => h.typedIn
  | fabDoorbell => exact .hub (exec_fabDoorbell ..) h fun _ h => h.typedIn
  | fwdEntry => exact .hub (exec_fwdEntry ..) h fun _ h => h.typedIn
  | linkState => exact .hub (exec_linkState ..) h fun _ h => h.packetIn
  | readRsp => exact .hub (exec_readRsp ..) h fun _ h => h.typedIn
  | writeAck => exact .hub (exec_writeAck ..) h fun _ h => h.typedIn
  | atomicRsp => exact .hub (exec_atomicRsp ..) h fun _ h => h.typedIn
  | fenceAck => exact .hub (exec_fenceAck ..) h fun _ h => h.typedIn
  | doorbellAck => exact .hub (exec_doorbellAck ..) h fun _ h => h.typedIn
  | fwdAck => exact .hub (exec_fwdAck ..) h fun _ h => h.typedIn
  | routeNak => exact .hub (exec_routeNak ..) h fun _ h => h.typedIn
  | packetTransit => exact .hub (exec_packetTransit ..) h fun _ h => .ite h h.packetIn
  | remoteTimeout => exact .hub (exec_remoteTimeout ..) h fun _ h => h.remoteLate
  | unreachableMarkExpiry => exact .hub (exec_unreachableMarkExpiry ..) h fun _ h => h.markEnd
  | remotePut => exact .hub (exec_remotePut ..) h fun _ h => h.putRun
  | remoteGet => exact .hub (exec_remoteGet ..) h fun _ h => h.getRun
  | remoteAtomic => exact .hub (exec_remoteAtomic ..) h fun _ h => h.atomicRun
  | fabIsolate => exact .bus (exec_fabIsolate ..) h
  | fabRetrain => exact .bus (exec_fabRetrain ..) h
  | rdmaWrite => exact .hub (exec_rdmaWrite ..) h fun _ h => h.rdmaIn
  | rdmaRead => exact .hub (exec_rdmaRead ..) h fun _ h => h.rdmaIn
  | rdmaSend => exact .hub (exec_rdmaSend ..) h fun _ h => h.rdmaIn
  | roceAck => exact .hub (exec_roceAck ..) h fun _ h => h.roceAck
  | roceNak => exact .hub (exec_roceNak ..) h fun _ h => h.roceNak
  | rnrNak => exact .hub (exec_rnrNak ..) h fun _ h => h.rnrNak
  | roceRetryTimeout => exact .hub (exec_roceRetryTimeout ..) h fun _ h => h.retryLate
  | cnp => exact .hub (exec_cnp ..) h fun _ h => h.cnp
  | congestionRecovery => exact .hub (exec_congestionRecovery ..) h fun _ h => h.regain
  | pfcPause => exact .hub (exec_pfcPause ..) h fun _ h => h.pfc
  | nonRoceFrame => exact .hub (exec_nonRoceFrame ..) h fun _ h => h.otherFrame
  | netPostWrite => exact .hub (exec_netPostWrite ..) h fun _ h => h.netPost
  | netPostRead => exact .hub (exec_netPostRead ..) h fun _ h => h.netPost
  | netPostSend => exact .hub (exec_netPostSend ..) h fun _ h => h.netPost
  | netPostRecv => exact .hub (exec_netPostRecv ..) h fun _ h => h.netPost
  | qpcLoad => exact .bus (exec_qpcLoad ..) h
  | qpcReset => exact .bus (exec_qpcReset ..) h
  | qpcForceError => exact .bus (exec_qpcForceError ..) h
  | powerHint => exact .act (exec_powerHint ..) h fun _ h => h.hintRun
  | powerHintWaitTimeout => exact .act (exec_powerHintWaitTimeout ..) h fun _ h => h.hintTimeout
  | dieIdleTimer => exact .act (exec_dieIdleTimer ..) h fun _ h => h.dieIdle
  | listenWindow => exact .act (exec_listenWindow ..) h fun _ h => h.listen
  | linkWakeDetect => exact .act (exec_linkWakeDetect ..) h fun _ h => h.linkWake
  | wakeInNLow => exact .act (exec_wakeInNLow ..) h fun _ h => h.wakeIn.releaseHeld
  | wakeStepReady => exact .act (exec_wakeStepReady ..) h fun _ h => h.wakeReady.releaseHeld
  | wakeStepTimeout => exact .act (exec_wakeStepTimeout ..) h fun _ h => h.wakeFail
  | pwrCmdHold => exact .bus (exec_pwrCmdHold ..) h
  | pwrCmdOff => exact .bus (exec_pwrCmdOff ..) h
  | pwrCmdWake => exact .bus (exec_pwrCmdWake ..) h
  | clearStuck => exact .bus (exec_clearStuck ..) h
  | powerCycle => exact .bus (exec_powerCycle ..) h
  | pwrPadrel => exact .bus (exec_pwrPadrel ..) h
  | pwrLinkwake => exact .bus (exec_pwrLinkwake ..) h
  | linkwakePatternEnd => exact .hub (exec_linkwakePatternEnd ..) h fun _ h => h.patternEnd
  | pmbusTransactionDone => exact .act (exec_pmbusTransactionDone ..) h fun _ h => h.pmbusDone
  | avsAckTimeout => exact .act (exec_avsAckTimeout ..) h fun _ h => h.avsLate
  | pwrEnAssert => exact .act (exec_pwrEnAssert ..) h fun _ h => h.enHigh
  | railPowerGoodLost => exact .act (exec_railPowerGoodLost ..) h fun _ h => h.railLost
  | sensorUpdate => exact .act (exec_sensorUpdate ..) h fun _ h => h.sensorUpdate
  | regulatorRead => exact .act (exec_regulatorRead ..) h fun _ h => h.regRead
  | inputCurrentCheck => exact .act (exec_inputCurrentCheck ..) h fun _ h => h.currentCheck
  | holddownEnd => exact .act (exec_holddownEnd ..) h fun _ h => h.holdEnd
  | thermNExternal => exact .act (exec_thermNExternal ..) h fun _ h => h.thermExt
  | capsuleLoad => exact .bus (exec_capsuleLoad ..) h
  | capsulePersistDone => exact .act (exec_capsulePersistDone ..) h fun _ h => h.capPersist
  | leaseAcquire => exact .bus (exec_leaseAcquire ..) h
  | leaseRenew => exact .bus (exec_leaseRenew ..) h
  | leaseRelease => exact .bus (exec_leaseRelease ..) h
  | leaseExpiry => exact .act (exec_leaseExpiry ..) h fun _ h => h.leaseExpiry
  | watchdogExpiry => exact .act (exec_watchdogExpiry ..) h fun _ h => h.clusterRestart
  | coreParityError => exact .act (exec_coreParityError ..) h fun _ h => h.clusterRestart
  | elTailWrite => exact .bus (exec_elTailWrite ..) h
  | startupStepDone => exact .act (exec_startupStepDone ..) h fun _ h => h.startupStep.releaseHeld
  | modeRequest => exact .bus (exec_modeRequest ..) h
  | idObjFirmware => exact .bus (exec_idObjFirmware ..) h
  | idObjEnrol => exact .bus (exec_idObjEnrol ..) h
  | idObjReport => exact .bus (exec_idObjReport ..) h
  | idObjCert => exact .bus (exec_idObjCert ..) h
  | readReg => exact .side (exec_readReg ..) h fun _ h => h.readRegs
  | writeReg => exact .side (exec_writeReg ..) h fun _ h => h.writeReg
  | getReport => exact .side (exec_getReport ..) h fun _ h => h.resp
  | loadObject => exact .act (exec_loadObject ..) h fun _ h => .ite h h.loadObject
  | setMode => exact .side (exec_setMode ..) h fun _ h => h.setModeCmd
  | hostWake => exact .bus (exec_hostWake ..) h
  | rdmaReadResponse => exact .hub (exec_rdmaReadResponse ..) h fun _ h => h.readReturn
  | netLinkChange => exact .hub (exec_netLinkChange ..) h fun _ h => h.netLink
  | idleFlit => exact .hub (exec_idleFlit ..) h fun _ h => h.idleFlit
  | layCopyDone => exact .hub (exec_layCopyDone ..) h fun _ h => h.layCopied
  | layVerifyDone => exact .hub (exec_layVerifyDone ..) h fun _ h => h.layVerified
  | layDrainTimeout => exact .hub (exec_layDrainTimeout ..) h fun _ h => h.layTimeout
  | layDrainDone => exact .hub (exec_layDrainDone ..) h fun _ h => h.layDrained
  | layApplyDone => exact .hub (exec_layApplyDone ..) h fun _ h => h.layDone.releaseHeld.layRelink
  | trnRunTimeout => exact .hub (exec_trnRunTimeout ..) h fun _ h => h.trnTimeout
  | vadd => exact .hub (exec_vadd ..) h fun _ h => h.veStep
  | vsub => exact .hub (exec_vsub ..) h fun _ h => h.veStep
  | vmul => exact .hub (exec_vmul ..) h fun _ h => h.veStep
  | vfma => exact .hub (exec_vfma ..) h fun _ h => h.veStep
  | vmin => exact .hub (exec_vmin ..) h fun _ h => h.veStep
  | vmax => exact .hub (exec_vmax ..) h fun _ h => h.veStep
  | vabs => exact .hub (exec_vabs ..) h fun _ h => h.veStep
  | vneg => exact .hub (exec_vneg ..) h fun _ h => h.veStep
  | vlogic => exact .hub (exec_vlogic ..) h fun _ h => h.veStep
  | vcmp => exact .hub (exec_vcmp ..) h fun _ h => h.veStep
  | vsel => exact .hub (exec_vsel ..) h fun _ h => h.veStep
  | vmov => exact .hub (exec_vmov ..) h fun _ h => h.veStep
  | vsplat => exact .hub (exec_vsplat ..) h fun _ h => h.veStep
  | viota => exact .hub (exec_viota ..) h fun _ h => h.veStep
  | vperm => exact .hub (exec_vperm ..) h fun _ h => h.veStep
  | vcompress => exact .hub (exec_vcompress ..) h fun _ h => h.veStep
  | vexpand => exact .hub (exec_vexpand ..) h fun _ h => h.veStep
  | ld => exact .hub (exec_ld ..) h fun _ h => h.veStep
  | st => exact .hub (exec_st ..) h fun _ h => h.veStep
  | ldk => exact .hub (exec_ldk ..) h fun _ h => h.veStep
  | scmp => exact .hub (exec_scmp ..) h fun _ h => h.veStep
  | ldx => exact .hub (exec_ldx ..) h fun _ h => h.veStep
  | lds => exact .hub (exec_lds ..) h fun _ h => h.veStep
  | sts => exact .hub (exec_sts ..) h fun _ h => h.veStep
  | red => exact .hub (exec_red ..) h fun _ h => h.veStep
  | rget => exact .hub (exec_rget ..) h fun _ h => h.veStep
  | xset => exact .hub (exec_xset ..) h fun _ h => h.veStep
  | xalu => exact .hub (exec_xalu ..) h fun _ h => h.veStep
  | kop => exact .hub (exec_kop ..) h fun _ h => h.veStep
  | vfn => exact .hub (exec_vfn ..) h fun _ h => h.veStep
  | attach => exact .bus (exec_attach ..) h
  | detach => exact .bus (exec_detach ..) h
  | heartbeat => exact .bus (exec_heartbeat ..) h
  | heartbeatTimeout => exact .act (exec_heartbeatTimeout ..) h fun _ h => h.heartbeatLost
  | orphanExpiry => exact .act (exec_orphanExpiry ..) h fun _ h => h.orphanEnd
  | perstNAssert => exact .act (exec_perstNAssert ..) h fun _ h => h.perstAssert
  | perstNDeassert => exact .act (exec_perstNDeassert ..) h fun _ h => h.perstRelease
  | pcieLinkDown => exact .act (exec_pcieLinkDown ..) h fun _ h => h.linkLost
  | pcieLinkDown1ms => exact .act (exec_pcieLinkDown1ms ..) h fun _ h => h.linkGone
  | functionLevelReset => exact .act (exec_functionLevelReset ..) h fun _ h => .ite h.attEnd h
  | keepExpiry => exact .act (exec_keepExpiry ..) h fun _ h => h.keepExpiry
  | runDozeTimer => exact .act (exec_runDozeTimer ..) h fun _ h => h.runDoze
  | dozeWatchTimer => exact .act (exec_dozeWatchTimer ..) h fun _ h => h.dozeWatch
  | quiesceTimeout => exact .act (exec_quiesceTimeout ..) h fun _ h => h.quiesceTimeout
  | entryStepDone => exact .act (exec_entryStepDone ..) h fun _ h => h.entryStep.releaseHeld
  | alarmExpiry => exact .act (exec_alarmExpiry ..) h fun _ h => h.alarm
  | wakeRetryDelay => exact .act (exec_wakeRetryDelay ..) h fun _ h => h.wakeRetry
  | pwrEnDeassert => exact .act (exec_pwrEnDeassert ..) h fun _ h => h.enLow
  | inputPowerApplied => exact .act (exec_inputPowerApplied ..) h fun _ h => h.inputOn
  | clusterReadyTimeout => exact .act (exec_clusterReadyTimeout ..) h fun _ h => h.clusterLate
  | getCert => exact .side (exec_getCert ..) h fun _ h => h.resp
  | getStatus => exact .side (exec_getStatus ..) h fun _ h => h.getStatus
  | mctpResponseTimeout => exact .act (exec_mctpResponseTimeout ..) h fun _ h => h.respLost
  | inputUndervoltage => exact .act (exec_inputUndervoltage ..) h fun _ h => h.inputBad
  | inputOvervoltage => exact .act (exec_inputOvervoltage ..) h fun _ h => h.inputBad
  | inputRestored => exact .act (exec_inputRestored ..) h fun _ h => h.inputGood
  | holdupExhausted => exact .act (exec_holdupExhausted ..) h fun _ h => h.holdupOut
  | clusterRestartReady => exact .act (exec_clusterRestartReady ..) h fun _ h => h.clusterReady
  | avsAcknowledged => exact .act (exec_avsAcknowledged ..) h fun _ h => h.avsOk
  | wakeOutNRelease => exact .act (exec_wakeOutNRelease ..) h fun _ h => h.upd

/-- Settles O6: every function of the model that a command runs keeps the canonical form, since memory's cells
change through `setCells` alone, with cells put, dropped or none. -/
theorem stepKeepsMemoryWf : Obligations.StepKeepsMemoryWf := by
  intro s t hs ht
  unfold step at ht
  split at ht
  · cases ht
    exact hs
  next c rest _ =>
    exact exec_memOk c (s := { s with pending := rest }) hs t ht

end Sys2Proof.Machine
end

section
/-! Proofs: the cells of a group after writes of its data and its margin (R59, R61), and groups in open form (R73, R74,
R77). -/

namespace Sys2Proof.Machine
open Sys2Proof

/-! ### Numbers and bytes -/

@[simp] theorem length_leBytes (n v : Nat) : (leBytes n v).length = n := by
  induction n generalizing v with
  | zero => rfl
  | succ n ih => simp [leBytes, ih]

theorem leNat_leBytes (n v : Nat) : leNat (leBytes n v) = v % 256 ^ n := by
  induction n generalizing v with
  | zero => simp [leBytes, leNat, Nat.mod_one]
  | succ n ih =>
    simp only [leBytes, leNat, ih, BitVec.toNat_ofNat]
    rw [show (2 : Nat) ^ 8 = 256 from rfl, Nat.pow_succ', Nat.mod_mul]

theorem bytesAt_of_le {b : Bytes} {off n : Nat} (h : off + n ≤ b.length) : bytesAt b off n = (b.drop off).take n := by
  simp [bytesAt, Nat.min_eq_left (Nat.le_sub_of_add_le' h)]

@[simp] theorem length_bytesAt (b : Bytes) (off n : Nat) : (bytesAt b off n).length = n := by
  simp [bytesAt]

theorem bytesAt_zero {b : Bytes} {n : Nat} (h : b.length = n) : bytesAt b 0 n = b := by
  simp [bytesAt, List.take_of_length_le (Nat.le_of_eq h), h]

theorem crcBit_lt {c : Nat} (h : c < 2 ^ 32) : crcBit c < 2 ^ 32 := by
  unfold crcBit
  split
  · exact Nat.xor_lt_two_pow (by omega) (by decide)
  · omega

theorem crcByte_lt {c : Nat} (h : c < 2 ^ 32) (b : Byte) : crcByte c b < 2 ^ 32 := by
  have hx : c ^^^ b.toNat < 2 ^ 32 := Nat.xor_lt_two_pow h (Nat.lt_trans b.isLt (by decide))
  rw [crcByte]
  iterate 8 apply crcBit_lt
  exact hx

theorem crcFrom_cons (b : Byte) (t : Bytes) (c : Nat) : crcFrom (b :: t) c = crcFrom t (crcByte c b) := by
  conv_lhs => unfold crcFrom
  generalize crcByte c b = x
  cases x with
  | zero => rfl
  | succ n => rfl

theorem crcFrom_lt (d : Bytes) {c : Nat} (h : c < 2 ^ 32) : crcFrom d c < 2 ^ 32 := by
  induction d generalizing c with
  | nil => exact h
  | cons b t ih =>
    rw [crcFrom_cons]
    exact ih (crcByte_lt h b)

theorem crc32c_lt (d : Bytes) : crc32c d < 2 ^ 32 := Nat.xor_lt_two_pow (crcFrom_lt d (by decide)) (by decide)

theorem openCrc_lt (g : Nat) (d : Bytes) (b0 : Byte) : openCrc g d b0 < 2 ^ 32 := crc32c_lt _

/-! ### Cells after a run of writes -/

theorem cellsPut_append (m : Memory) (l k : List (Nat × Byte)) : cellsPut m (l ++ k) = cellsPut (cellsPut m l) k := by
  induction l generalizing m with
  | nil => rfl
  | cons c t ih => exact ih _

theorem cellGet_cellsPut_of_forall_ne {m : Memory} (h : Memory.wf m = true) {l : List (Nat × Byte)} {j : Nat}
    (hj : ∀ c ∈ l, c.1 ≠ j) : cellGet (cellsPut m l) j = cellGet m j := by
  induction l generalizing m with
  | nil => rfl
  | cons c t ih =>
    obtain ⟨hc, ht⟩ := List.forall_mem_cons.1 hj
    rw [cellsPut, ih (Memory.wf_cellPut _ _ h) ht, cellGet_cellPut h, if_neg (Ne.symm hc)]

theorem mem_dataCells {g off : Nat} {d : Bytes} {c : Nat × Byte} (h : c ∈ dataCells g off d) :
    ∃ i, i < d.length ∧ c.1 = dataKey g (off + i) := by
  induction d generalizing off with
  | nil => simp [dataCells] at h
  | cons v t ih =>
    rcases List.mem_cons.1 h with rfl | h
    · exact ⟨0, by simp, rfl⟩
    · obtain ⟨i, hi, e⟩ := ih h
      exact ⟨i + 1, by simpa using hi, by rw [e, Nat.add_assoc, Nat.add_comm 1]⟩

theorem mem_marginCells {g off : Nat} {o : Bool} {d : Bytes} {c : Nat × Byte} (h : c ∈ marginCells g o off d) :
    ∃ i, i < d.length ∧ c.1 = marginKey g o (off + i) := by
  induction d generalizing off with
  | nil => simp [marginCells] at h
  | cons v t ih =>
    rcases List.mem_cons.1 h with rfl | h
    · exact ⟨0, by simp, rfl⟩
    · obtain ⟨i, hi, e⟩ := ih h
      exact ⟨i + 1, by simpa using hi, by rw [e, Nat.add_assoc, Nat.add_comm 1]⟩

theorem cellGet_put_dataCells {m : Memory} (h : Memory.wf m = true) (g off i : Nat) (d : Bytes) :
    cellGet (cellsPut m (dataCells g off d)) (dataKey g (off + i)) = d.getD i (cellGet m (dataKey g (off + i))) := by
  induction d generalizing m off i with
  | nil => rfl
  | cons v t ih =>
    have hw := Memory.wf_cellPut (dataKey g off) v h
    rw [dataCells, cellsPut]
    cases i with
    | zero =>
      rw [cellGet_cellsPut_of_forall_ne hw, Nat.add_zero, cellGet_cellPut h, if_pos rfl]
      · rfl
      · intro c hc
        obtain ⟨k, -, e⟩ := mem_dataCells hc
        simp only [e, dataKey]
        omega
    | succ i =>
      rw [show off + (i + 1) = off + 1 + i by omega, ih hw, cellGet_cellPut h, if_neg]
      · rfl
      · simp only [dataKey]
        omega

theorem cellGet_put_marginCells {m : Memory} (h : Memory.wf m = true) (g off i : Nat) (o : Bool) (d : Bytes) :
    cellGet (cellsPut m (marginCells g o off d)) (marginKey g o (off + i))
      = d.getD i (cellGet m (marginKey g o (off + i))) := by
  induction d generalizing m off i with
  | nil => rfl
  | cons v t ih =>
    have hw := Memory.wf_cellPut (marginKey g o off) v h
    rw [marginCells, cellsPut]
    cases i with
    | zero =>
      rw [cellGet_cellsPut_of_forall_ne hw, Nat.add_zero, cellGet_cellPut h, if_pos rfl]
      · rfl
      · intro c hc
        obtain ⟨k, -, e⟩ := mem_marginCells hc
        simp only [e, marginKey]
        omega
    | succ i =>
      rw [show off + (i + 1) = off + 1 + i by omega, ih hw, cellGet_cellPut h, if_neg]
      · rfl
      · simp only [marginKey]
        omega

/-! ### A group after a write of bytes of its data and of its margin -/

@[simp] theorem length_groupData (m : Memory) (g : Nat) : (groupData m g).length = 256 := by simp [groupData]
@[simp] theorem length_groupMargin (m : Memory) (g : Nat) (o : Bool) : (groupMargin m g o).length = 32 := by
  simp [groupMargin]

theorem dataKey_lt {g i : Nat} (hg : g < 0xC0000000) (hi : i < 256) : dataKey g i < dramBytes := by
  simp only [dataKey, dramBytes]
  omega

theorem dramBytes_le_marginKey (g : Nat) (o : Bool) (i : Nat) : dramBytes ≤ marginKey g o i := by
  simp only [marginKey]
  omega

theorem dataKey_inj {g h i j : Nat} (hi : i < 256) (hj : j < 256) : dataKey g i = dataKey h j ↔ g = h ∧ i = j := by
  simp only [dataKey]
  omega

theorem marginKey_inj {g h i j : Nat} {o p : Bool} (hi : i < 32) (hj : j < 32) :
    marginKey g o i = marginKey h p j ↔ g = h ∧ o = p ∧ i = j := by
  cases o <;> cases p <;> simp [marginKey, b2n] <;> omega

/-- Writes of bytes of a group's data from `off` on, and of its margin from `moff` on. -/
def groupCells (g off : Nat) (d : Bytes) (o : Bool) (moff : Nat) (k : Bytes) : List (Nat × Byte) :=
  dataCells g off d ++ marginCells g o moff k

theorem length_putAt {b : Bytes} {off : Nat} {d : Bytes} (h : off + d.length ≤ b.length) : (putAt b off d).length = b.length := by
  simp [putAt]
  omega

theorem getElem_putAt {b : Bytes} {off : Nat} {d : Bytes} (h : off + d.length ≤ b.length) {i : Nat} (hi : i < b.length) :
    (putAt b off d)[i]'(by rwa [length_putAt h]) = if off ≤ i then d.getD (i - off) b[i] else b[i] := by
  simp only [putAt, List.getElem_append, List.length_append, List.length_take, List.getElem_take, List.getElem_drop]
  grind

theorem groupData_put {m : Memory} (hm : Memory.wf m = true) {g h : Nat} (hg : g < 0xC0000000) (hh : h < 0xC0000000) {off : Nat} {d : Bytes}
    (hd : off + d.length ≤ 256) (o : Bool) (moff : Nat) (k : Bytes) :
    groupData (cellsPut m (groupCells g off d o moff k)) h = if h = g then putAt (groupData m g) off d else groupData m h := by
  have key : ∀ i, i < 256 → cellGet (cellsPut m (groupCells g off d o moff k)) (dataKey h i)
      = cellGet (cellsPut m (dataCells g off d)) (dataKey h i) := fun i hi => by
    rw [groupCells, cellsPut_append]
    refine cellGet_cellsPut_of_forall_ne (Memory.wf_cellsPut _ hm) fun c hc => ?_
    obtain ⟨j, -, e⟩ := mem_marginCells hc
    have := dataKey_lt hh hi
    have := dramBytes_le_marginKey g o (moff + j)
    omega
  have hl : off + d.length ≤ (groupData m g).length := by simpa using hd
  split
  next e =>
    subst e
    refine List.ext_getElem (by simp [length_putAt hl]) fun i hi _ => ?_
    have hi : i < 256 := by simpa using hi
    rw [getElem_putAt hl (by simpa using hi)]
    simp only [groupData, List.getElem_map, List.getElem_range]
    rw [key i hi]
    split
    next hoff =>
      obtain ⟨j, rfl⟩ := Nat.exists_eq_add_of_le hoff
      rw [cellGet_put_dataCells hm, Nat.add_sub_cancel_left]
    next hoff =>
      refine cellGet_cellsPut_of_forall_ne hm fun c hc => ?_
      obtain ⟨j, -, e⟩ := mem_dataCells hc
      simp only [e, dataKey]
      omega
  next ne =>
    refine List.map_congr_left fun i hi => ?_
    have hi : i < 256 := by simpa using hi
    rw [key i hi]
    refine cellGet_cellsPut_of_forall_ne hm fun c hc => ?_
    obtain ⟨j, hj, e⟩ := mem_dataCells hc
    rw [e]
    exact fun e => ne ((dataKey_inj (by omega) hi).1 e).1.symm

theorem groupMargin_put {m : Memory} (hm : Memory.wf m = true) {g : Nat} (hg : g < 0xC0000000) {off moff : Nat} {d k : Bytes}
    (hd : off + d.length ≤ 256) (hk : moff + k.length ≤ 32) (o : Bool) :
    groupMargin (cellsPut m (groupCells g off d o moff k)) g o = putAt (groupMargin m g o) moff k := by
  have hl : moff + k.length ≤ (groupMargin m g o).length := by simpa using hk
  refine List.ext_getElem (by simp [length_putAt hl]) fun i hi _ => ?_
  have hi : i < 32 := by simpa using hi
  have key : cellGet (cellsPut m (dataCells g off d)) (marginKey g o i) = cellGet m (marginKey g o i) := by
    refine cellGet_cellsPut_of_forall_ne hm fun c hc => ?_
    obtain ⟨j, hj, e⟩ := mem_dataCells hc
    have := dataKey_lt (i := off + j) hg (by omega)
    have := dramBytes_le_marginKey g o i
    omega
  rw [getElem_putAt hl (by simpa using hi)]
  simp only [groupMargin, List.getElem_map, List.getElem_range]
  rw [groupCells, cellsPut_append]
  have hw := Memory.wf_cellsPut (dataCells g off d) hm
  split
  next hoff =>
    obtain ⟨j, rfl⟩ := Nat.exists_eq_add_of_le hoff
    rw [cellGet_put_marginCells hw, key, Nat.add_sub_cancel_left]
  next hoff =>
    rw [← key]
    refine cellGet_cellsPut_of_forall_ne hw fun c hc => ?_
    obtain ⟨j, hj, e⟩ := mem_marginCells hc
    rw [e]
    intro e
    have := ((marginKey_inj (by omega) hi).1 e).2.2
    omega

end Sys2Proof.Machine
end

section
/-! Proofs: groups in open form (R73, R74, R77). -/

namespace Sys2Proof.Machine
open Sys2Proof

@[simp] theorem length_openMargin (b0 : Byte) (crc : Nat) : (openMargin b0 crc).length = 32 := rfl

theorem bytesAt_openMargin (b0 : Byte) (crc : Nat) {q : Nat} (hq : q < 4) :
    bytesAt (openMargin b0 crc) (8 * q) 8 = openSlice b0 crc q := by
  match q, hq with
  | 0, _ | 1, _ | 2, _ | 3, _ => rfl

theorem openSig_openSlice (b0 : Byte) (crc q : Nat) : openSig (openSlice b0 crc q) q = true := by
  simp [openSig, openSlice, leBytes]

theorem take_openSlice (b0 : Byte) (crc q : Nat) : (openSlice b0 crc q).take 5 = b0 :: leBytes 4 crc := rfl

theorem fld_openSlice (b0 : Byte) {crc : Nat} (h : crc < 2 ^ 32) (q : Nat) : fld (openSlice b0 crc q) 1 4 = crc := by
  rw [show fld (openSlice b0 crc q) 1 4 = leNat (leBytes 4 crc) from rfl, leNat_leBytes]
  exact Nat.mod_eq_of_lt h

/-- R77: a margin of tag 01 whose CRC is that of the group is the row that delivers. -/
theorem gFind_openMargin {b0 : Byte} (h : b0.toNat / 64 = 1) (g : Nat) (d : Bytes) :
    gFind g d (openMargin b0 (openCrc g d b0)) = 5 := by
  have hcrc := openCrc_lt g d b0
  generalize he : openCrc g d b0 = crc at hcrc ⊢
  have h10 : (openMargin b0 crc == openMargin 0x80 (openCrc10 g)) = false := by
    refine beq_eq_false_iff_ne.2 fun e => ?_
    obtain rfl : b0 = 0x80 := (List.cons.inj e).1
    exact absurd h (by decide)
  have hq : ∀ q ∈ List.range 4, bytesAt (openMargin b0 crc) (8 * q) 8 = openSlice b0 crc q :=
    fun q hq => bytesAt_openMargin b0 crc (List.mem_range.1 hq)
  have hlack : (List.range 4).filter (fun q => !openSig (bytesAt (openMargin b0 crc) (8 * q) 8) q) = [] := by
    refine List.filter_eq_nil_iff.2 fun q hm => ?_
    simp [hq q hm, openSig_openSlice]
  have h0 : bytesAt (openMargin b0 crc) (8 * 0) 8 = openSlice b0 crc 0 := hq 0 (by decide)
  have hdiff : (List.range 4).any (fun q => (bytesAt (openMargin b0 crc) (8 * q) 8).take 5
      != (openSlice b0 crc 0).take 5) = false := by
    refine List.any_eq_false.2 fun q hm => ?_
    simp [hq q hm, take_openSlice]
  have hb : (openSlice b0 crc 0).getD 0 0 = b0 := rfl
  simp only [gFind, hlack, h0, hdiff, hb, fld_openSlice b0 hcrc, he, h, h10]
  simp

/-- The group that a write in open form leaves. -/
theorem Blk.putOpen_cells (b : Blk) (g : Nat) (d : Bytes) (tag gen : Nat) : (putOpen b g d tag gen).mem.cells
    = cellsPut b.mem.cells (groupCells g 0 d true 0 (openMargin (BitVec.ofNat 8 (tag * 64 + gen % 64))
        (openCrc g d (BitVec.ofNat 8 (tag * 64 + gen % 64))))) := rfl

theorem putAt_whole {b d : Bytes} (h : d.length = b.length) : putAt b 0 d = d := by simp [putAt, h]

section
variable {b : Blk} {g : Nat} {d : Bytes} (hm : Memory.wf b.mem.cells = true) (hg : g < 0xC0000000) (hd : d.length = 256)
  (tag gen : Nat)
include hm hg hd

theorem groupData_putOpen {h : Nat} (hh : h < 0xC0000000) :
    groupData (putOpen b g d tag gen).mem.cells h = if h = g then d else groupData b.mem.cells h := by
  rw [Blk.putOpen_cells, groupData_put hm hg hh (by omega), putAt_whole (by simpa using hd)]

theorem groupMargin_putOpen : groupMargin (putOpen b g d tag gen).mem.cells g true
    = openMargin (BitVec.ofNat 8 (tag * 64 + gen % 64)) (openCrc g d (BitVec.ofNat 8 (tag * 64 + gen % 64))) := by
  rw [Blk.putOpen_cells, groupMargin_put hm hg (by omega) (by simp), putAt_whole (by simp)]

end

/-- Settles O9: the bytes and the margin that the write leaves are in the row of R77 that delivers. -/
theorem openGroupRoundTrip : Obligations.OpenGroupRoundTrip := by
  intro b rq g d gen mpa hm hg hd
  have htag : (BitVec.ofNat 8 (1 * 64 + gen % 64)).toNat / 64 = 1 := by simp; omega
  refine ⟨?_, fun h hh hne => ?_⟩
  · simp [readOpen, groupData_putOpen hm hg hd 1 gen hg, groupMargin_putOpen hm hg hd 1 gen, gFind_openMargin htag]
  · rw [groupData_putOpen hm hg hd 1 gen hh, if_neg hne]

end Sys2Proof.Machine
end

section
/-! Proofs: the initialisation of a fresh segment (R66, R67, R68). -/

namespace Sys2Proof.Machine
open Sys2Proof

/-! ### Cells after dropping some -/

theorem cellGet_cellsDrop_of_dropped (m : Memory) {p : Nat → Bool} {j : Nat} (h : p j = true) :
    cellGet (cellsDrop m p) j = cellDefault j := by
  unfold cellsDrop
  induction m with
  | nil => rfl
  | cons c t ih =>
    obtain ⟨a, v⟩ := c
    simp only [List.filter_cons]
    split
    next ha =>
      have hja : j ≠ a := by rintro rfl; simp [h] at ha
      simp only [cellGet, hja, if_false, ih, ite_self]
    next => exact ih

theorem cellGet_cellsDrop_of_pairwise {m : Memory} (hm : m.Pairwise (fun c d => c.1 < d.1)) {p : Nat → Bool} {j : Nat}
    (h : p j = false) : cellGet (cellsDrop m p) j = cellGet m j := by
  unfold cellsDrop
  induction m with
  | nil => rfl
  | cons c t ih =>
    obtain ⟨a, v⟩ := c
    obtain ⟨ha, ht⟩ := List.pairwise_cons.1 hm
    simp only [List.filter_cons]
    split
    next => simp only [cellGet, ih ht]
    next hp =>
      have hja : j ≠ a := by rintro rfl; simp [h] at hp
      rw [ih ht, cellGet, if_neg hja]
      split
      next hlt => exact cellGet_of_lt fun c hc => Nat.lt_trans hlt (ha c hc)
      next => rfl

theorem cellGet_cellsDrop_of_kept {m : Memory} (hm : Memory.wf m = true) {p : Nat → Bool} {j : Nat} (h : p j = false) :
    cellGet (cellsDrop m p) j = cellGet m j := cellGet_cellsDrop_of_pairwise ((Memory.wf_iff m).1 hm).2 h

theorem keyGroup_dataKey {g i : Nat} (hg : g < 0xC0000000) (hi : i < 256) : keyGroup (dataKey g i) = g := by
  rw [keyGroup, if_pos (dataKey_lt hg hi), dataKey]
  omega

theorem cellDefault_dataKey {g i : Nat} (hg : g < 0xC0000000) (hi : i < 256) : cellDefault (dataKey g i) = 0 := by
  rw [cellDefault, if_pos (dataKey_lt hg hi)]

section
variable {g : Nat} (hg : g < 0xC0000000) {p : Nat → Bool}
include hg

/-- A group whose cells are dropped reads zero. -/
theorem groupData_cellsDrop_of_dropped (m : Memory) (h : p g = true) :
    groupData (cellsDrop m (fun k => p (keyGroup k))) g = zeros 256 := by
  refine (List.map_congr_left (g := fun _ => (0 : Byte)) fun i hi => ?_).trans (by simp [zeros])
  have hi : i < 256 := List.mem_range.1 hi
  rw [cellGet_cellsDrop_of_dropped m (by rwa [keyGroup_dataKey hg hi]), cellDefault_dataKey hg hi]

theorem groupData_cellsDrop_of_kept {m : Memory} (hm : Memory.wf m = true) (h : p g = false) :
    groupData (cellsDrop m (fun k => p (keyGroup k))) g = groupData m g := by
  refine List.map_congr_left fun i hi => ?_
  exact cellGet_cellsDrop_of_kept hm (by rwa [keyGroup_dataKey hg (List.mem_range.1 hi)])

end

/-! ### The charge and the segment -/

theorem Blk.take_eq (b : Blk) (ch cls half : Nat) : ∃ c, b.take ch cls half = { b with chans := c } := ⟨_, rfl⟩

/-- A charge changes the channels' counters and nothing else. -/
theorem Blk.chargeSeg_eq (b : Blk) (cls seg half : Nat) : ∃ c, b.chargeSeg cls seg half = { b with chans := c } := by
  unfold Blk.chargeSeg
  generalize b.struc.segShare seg = l
  suffices h : ∀ x : Blk, (∃ c, x = { b with chans := c }) →
      ∃ c, l.foldl (fun (b : Blk) p => b.take p.1 cls (half * p.2)) x = { b with chans := c } from h b ⟨_, rfl⟩
  induction l with
  | nil => exact fun _ h => h
  | cons p t ih =>
    rintro _ ⟨c, rfl⟩
    exact ih _ ⟨_, rfl⟩

@[simp] theorem settle_seg (a b : Blk) (k : Nat) : (settle a b).seg k = b.seg k := by simp [Blk.seg]

theorem Blk.seg_setSeg (b : Blk) (seg : Nat) (x : Seg) (k : Nat) : (b.setSeg seg x).seg k = if k = seg then x else b.seg k := by
  simp only [Blk.seg, Blk.setSeg, tget_tset]

/-- The groups of a segment. -/
def Struc.inSeg (st : Struc) (seg g : Nat) : Bool :=
  match st.groupMpa? g with
  | some a => a / 0x200000 == seg
  | none => false

theorem Struc.inSeg_of {st : Struc} {g a : Nat} (h : st.groupMpa? g = some a) (seg : Nat) :
    st.inSeg seg g = (a / 0x200000 == seg) := by simp [Struc.inSeg, h]

/-- What the initialisation of a segment leaves. -/
theorem initSeg_eq (b : Blk) (cls seg : Nat) : initSeg b cls seg
    = ((b.chargeSeg cls seg 132).setCells (cellsDrop (b.chargeSeg cls seg 132).mem.cells
        (fun k => b.struc.inSeg seg (keyGroup k)))).setSeg seg { b.seg seg with fresh := false } := rfl

/-- Settles O15: the initialisation drops the cells of the segment's groups, which then read as unlisted. -/
theorem segmentInit : Obligations.SegmentInit := by
  intro s seg cls hu hmap hfresh hcls hpay
  refine .of_hub (exec_segmentInitDone s _) hu ?_
  have hinit : s.blk.segInit seg cls = initSeg s.blk cls seg := by simp [Blk.segInit, hmap, hfresh, hcls, hpay]
  obtain ⟨c, hc⟩ := s.blk.chargeSeg_eq cls seg 132
  dsimp only
  rw [hinit, initSeg_eq, hc]
  refine ⟨?_, ?_, ?_, fun k hk => ?_, fun g a hg ha hs => ?_, fun hm g a hg ha hs => ?_⟩
  · rw [settle_seg, Blk.seg_setSeg, if_pos rfl]
  · simp [Blk.setSeg, Blk.setCells]
  · simp [Blk.setSeg, Blk.setCells]
  · rw [settle_seg, Blk.seg_setSeg, if_neg hk]
    rfl
  · simp only [settle_mem]
    exact groupData_cellsDrop_of_dropped hg _ (by simp [Struc.inSeg_of ha, hs])
  · simp only [settle_mem]
    exact groupData_cellsDrop_of_kept hg hm (by simp [Struc.inSeg_of ha, hs])

end Sys2Proof.Machine
end

section
/-! Proofs: the steps of the scrubber (R83, R110). -/

namespace Sys2Proof.Machine
open Sys2Proof

/-- The segments and the scrubber's place in its pass are as they were. -/
structure PassFrame (a b : Blk) : Prop where
  struc : b.struc = a.struc
  segs : b.mem.segs = a.mem.segs
  pos : b.mem.scrubPos = a.mem.scrubPos

namespace PassFrame

theorem rfl' (b : Blk) : PassFrame b b := ⟨rfl, rfl, rfl⟩

theorem trans {a b c : Blk} (h : PassFrame a b) (g : PassFrame b c) : PassFrame a c :=
  ⟨g.struc.trans h.struc, g.segs.trans h.segs, g.pos.trans h.pos⟩

theorem ite {p : Prop} [Decidable p] {a b c : Blk} (h : PassFrame a b) (g : PassFrame a c) : PassFrame a (if p then b else c) := by
  split <;> assumption

theorem seg {a b : Blk} (h : PassFrame a b) (k : Nat) : b.seg k = a.seg k := by simp [Blk.seg, h.struc, h.segs]

end PassFrame

section
variable (b : Blk)

theorem Blk.take_passFrame (ch cls half : Nat) : PassFrame b (b.take ch cls half) := ⟨rfl, rfl, rfl⟩
theorem Blk.closeBank_passFrame (ch bank : Nat) : PassFrame b (b.closeBank ch bank) := ⟨rfl, rfl, rfl⟩
theorem Blk.setCells_passFrame (c : List Host.Cell) : PassFrame b (b.setCells c) := ⟨rfl, rfl, rfl⟩
theorem Blk.scrubNote_passFrame (ch : Nat) : PassFrame b (b.scrubNote ch) := ⟨rfl, rfl, rfl⟩

theorem Blk.logE_passFrame (k : Nat) (a : LogArg) : PassFrame b (b.logE k a) := by
  unfold Blk.logE
  split
  · exact ⟨rfl, rfl, rfl⟩
  · exact .rfl' b

theorem Blk.scEvent_passFrame (n i : Nat) : PassFrame b (b.scEvent n i) := ⟨rfl, rfl, rfl⟩

theorem Blk.counted_passFrame (o ch : Nat) (x : ChanSt) : PassFrame b ((b.incReg o).setChan ch x) := ⟨rfl, rfl, rfl⟩

theorem Blk.corrected_passFrame (ch : Nat) : PassFrame b (b.corrected ch) := by
  unfold Blk.corrected
  dsimp only
  refine .ite (((Blk.counted_passFrame _ _ _ _).trans (Blk.logE_passFrame _ _ _)).trans (Blk.scEvent_passFrame _ _ _)) ?_
  exact Blk.counted_passFrame _ _ _ _

theorem Blk.fixQuarter_passFrame (cls g q : Nat) (d : Bytes) : PassFrame b (b.fixQuarter cls g q d) :=
  .ite ⟨rfl, rfl, rfl⟩ ⟨rfl, rfl, rfl⟩

theorem readQuarter_passFrame (rq : Req) (g q mpa : Nat) : PassFrame b (readQuarter b rq g q mpa).b := by
  unfold readQuarter
  dsimp only
  split
  · exact Blk.logE_passFrame _ _ _
  · split
    · exact (Blk.corrected_passFrame _ _).trans (Blk.fixQuarter_passFrame _ _ _ _ _)
    · split
      · exact .rfl' b
      · split
        · exact Blk.logE_passFrame _ _ _
        · exact .rfl' b

theorem readOpen_passFrame (rq : Req) (g : Nat) (mpa : Option Nat) : PassFrame b (readOpen b rq g mpa).b := by
  unfold readOpen
  dsimp only
  split
  · exact Blk.logE_passFrame _ _ _
  · split
    · exact Blk.logE_passFrame _ _ _
    · split
      · exact .rfl' b
      · split <;> exact .rfl' b

theorem Blk.scrubQuarter_passFrame (g q mpa : Nat) : PassFrame b (b.scrubQuarter g q mpa) := by
  have hr := readQuarter_passFrame b rqScrub g q mpa
  refine .ite (hr.trans ?_) (.ite (hr.trans (Blk.scrubNote_passFrame _ _)) hr)
  exact (Blk.setCells_passFrame _ _).trans ((Blk.logE_passFrame _ _ _).trans (Blk.take_passFrame _ _ _ _))

theorem Blk.scrubGroup_passFrame (g mpa : Nat) (isOpen : Bool) : PassFrame b (b.scrubGroup g mpa isOpen) := by
  have hr := readOpen_passFrame b rqScrub g (some mpa)
  refine .ite (.ite (hr.trans ?_) (.ite (hr.trans (Blk.scrubNote_passFrame _ _)) hr)) ?_
  · exact (Blk.setCells_passFrame _ _).trans ((Blk.logE_passFrame _ _ _).trans (Blk.take_passFrame _ _ _ _))
  · generalize List.range 4 = l
    suffices h : ∀ x, PassFrame b x → PassFrame b (l.foldl (fun (b : Blk) q => b.scrubQuarter g q (mpa + 64 * q)) x) from
      h b (.rfl' b)
    induction l with
    | nil => exact fun _ h => h
    | cons q t ih => exact fun x h => ih _ (h.trans (Blk.scrubQuarter_passFrame x g q _))

end

/-- The place after a group, and at a pass's end the next pass. -/
def Blk.scrubNext (b : Blk) (ch : Nat) : Blk :=
  let s := stackOfCh ch
  let next := (tget 0 ch b.mem.scrubPos % scrubLen + 1) % scrubLen
  let b := { b with mem := { b.mem with scrubPos := tset ch next b.mem.scrubPos } }
  if next = 0 then
    let b := { b with mem := { b.mem with scrubFrom := tset ch b.time.toNat b.mem.scrubFrom, scrubLate := b.mem.scrubLate.filter (· != ch) } }
    b.setReg (bSC s + 0xB8) ((b.reg (bSC s + 0xB8) + 1) % 2 ^ 32)
  else b

/-- The scrubber's work on the group at which a channel stands, in a live segment, when it has paid. -/
def Blk.scrubHere (b c : Blk) (ch k : Nat) : Blk :=
  let (row, bank, grp) := b.scrubAt ch
  let c := if (c.openRowOf ch bank).any (· != row) then c.closeBank ch bank else c
  match b.struc.groupMpa? (gidOf ch bank row grp) with
  | some mpa => c.scrubGroup (gidOf ch bank row grp) mpa (b.seg k).isOpen
  | none => c

section
variable {b : Blk} {ch : Nat}

theorem Blk.pay_of_canPay {cls half : Nat} (h : b.canPay ch cls half = true) : b.pay ch cls half = some (b.take ch cls half) :=
  if_pos h

theorem Blk.scrubHere_passFrame (b c : Blk) (ch k : Nat) : PassFrame c (b.scrubHere c ch k) := by
  have hc : PassFrame c (if (c.openRowOf ch (b.scrubAt ch).2.1).any (· != (b.scrubAt ch).1)
      then c.closeBank ch (b.scrubAt ch).2.1 else c) := .ite (Blk.closeBank_passFrame _ _ _) (.rfl' c)
  unfold Blk.scrubHere
  dsimp only
  split
  · exact hc.trans (Blk.scrubGroup_passFrame _ _ _ _)
  · exact hc

theorem Blk.scrubNext_pos (b : Blk) (ch : Nat) :
    tget 0 ch (b.scrubNext ch).mem.scrubPos = (tget 0 ch b.mem.scrubPos % scrubLen + 1) % scrubLen := by
  unfold Blk.scrubNext
  dsimp only
  split <;> exact tget_tset_same _ _ _ _

theorem Blk.scrubNext_cells (b : Blk) (ch : Nat) : (b.scrubNext ch).mem.cells = b.mem.cells := by
  unfold Blk.scrubNext
  dsimp only
  split <;> rfl

theorem Blk.scrubNext_seg (b : Blk) (ch k : Nat) : (b.scrubNext ch).seg k = b.seg k := by
  unfold Blk.scrubNext
  dsimp only
  split <;> rfl

theorem Blk.scrubNext_regs (h : tget 0 ch b.mem.scrubPos % scrubLen + 1 < scrubLen) : (b.scrubNext ch).regs = b.regs := by
  unfold Blk.scrubNext
  dsimp only
  rw [if_neg (by rw [Nat.mod_eq_of_lt h]; omega)]

theorem Blk.scrubNext_pass (h : tget 0 ch b.mem.scrubPos % scrubLen + 1 = scrubLen) :
    (b.scrubNext ch).reg (bSC (stackOfCh ch) + 0xB8) = (b.reg (bSC (stackOfCh ch) + 0xB8) + 1) % 2 ^ 32
      ∧ tget 0 ch (b.scrubNext ch).mem.scrubFrom = b.time.toNat := by
  unfold Blk.scrubNext
  dsimp only
  rw [if_pos (by rw [h]; exact Nat.mod_self _)]
  refine ⟨?_, tget_tset_same _ _ _ _⟩
  simp [Blk.reg, Blk.setReg]

section
variable (hch : ch < 384) (hon : (b.reg (bSC (stackOfCh ch) + 4)).testBit 0 = true) (hdie : (b.die (dieOfCh ch)).sr = .awake)
include hch hon hdie

theorem Blk.scrubStep_none (hs : b.scrubSeg ch = none) : b.scrubStep ch = b.scrubNext ch := by
  have hgo : (384 ≤ ch || !(b.reg (bSC (stackOfCh ch) + 4)).testBit 0 || (b.die (dieOfCh ch)).sr != .awake) = false := by
    simp [hch, hon, hdie]
  simp only [Blk.scrubStep, hgo, hs]
  rfl

theorem Blk.scrubStep_some {k : Nat} (hs : b.scrubSeg ch = some k)
    (hf : b.bankFree ch (b.scrubAt ch).2.1 cScrub 0 = true) (hc : b.rowConv ch (b.scrubAt ch).2.1 (b.scrubAt ch).1 = false)
    (hp : b.canPay ch cScrub (b.scrubCost ch (b.scrubAt ch).2.1 (b.scrubAt ch).1 (b.scrubAt ch).2.2) = true) :
    ∃ c, PassFrame b c ∧ b.scrubStep ch = (b.scrubHere c ch k).scrubNext ch := by
  refine ⟨_, Blk.take_passFrame b ch cScrub (b.scrubCost ch (b.scrubAt ch).2.1 (b.scrubAt ch).1 (b.scrubAt ch).2.2), ?_⟩
  have hgo : (384 ≤ ch || !(b.reg (bSC (stackOfCh ch) + 4)).testBit 0 || (b.die (dieOfCh ch)).sr != .awake) = false := by
    simp [hch, hon, hdie]
  simp only [Blk.scrubStep, hgo, hs, hf, hc, Blk.pay_of_canPay hp]
  rfl

end
end

/-- Settles O17: whatever the scrubber finds in a group, its place goes on by one. -/
theorem scrubbing : Obligations.Scrubbing := by
  refine ⟨fun s ch hu hch hon hdie hs => ?_, fun s ch seg hu hch hon hdie hs hf hc hp => ?_⟩
  · refine .of_hub (exec_scrubStep s ch) hu ?_
    rw [Blk.scrubStep_none hch hon hdie hs]
    simp only [settle_mem, settle_regs, settle_reg]
    exact ⟨Blk.scrubNext_cells _ _, Blk.scrubNext_pos _ _, Blk.scrubNext_regs, Blk.scrubNext_pass⟩
  · refine .of_hub (exec_scrubStep s ch) hu ?_
    obtain ⟨c, hb, hstep⟩ := Blk.scrubStep_some hch hon hdie hs hf hc hp
    have hframe := hb.trans (Blk.scrubHere_passFrame s.blk c ch seg)
    rw [hstep]
    simp only [settle_mem, settle_seg]
    rw [Blk.scrubNext_pos, hframe.pos, Blk.scrubNext_seg, hframe.seg]
    exact ⟨rfl, rfl⟩

end Sys2Proof.Machine
end

section
/-! Proofs: half-groups through a channel's queues (R93, R95, R96). -/

namespace Sys2Proof.Machine
open Sys2Proof

/-- A block is another, but for its channels. -/
def OnlyChans (a b : Blk) : Prop := ∃ c, b = { a with chans := c }

namespace OnlyChans

theorem rfl' (b : Blk) : OnlyChans b b := ⟨_, rfl⟩

theorem trans {a b c : Blk} (h : OnlyChans a b) (g : OnlyChans b c) : OnlyChans a c := by
  obtain ⟨_, rfl⟩ := h
  obtain ⟨_, rfl⟩ := g
  exact ⟨_, rfl⟩

theorem ite {p : Prop} [Decidable p] {a b c : Blk} (h : OnlyChans a b) (g : OnlyChans a c) : OnlyChans a (if p then b else c) := by
  split <;> assumption

section
variable {a b : Blk} (h : OnlyChans a b)
include h

theorem mem : b.mem = a.mem := by obtain ⟨_, rfl⟩ := h; rfl
theorem regs : b.regs = a.regs := by obtain ⟨_, rfl⟩ := h; rfl
theorem die (d : Nat) : b.die d = a.die d := by obtain ⟨_, rfl⟩ := h; rfl
theorem rowSeg (ch bank row : Nat) : b.rowSeg ch bank row = a.rowSeg ch bank row := by obtain ⟨_, rfl⟩ := h; rfl
theorem rowFresh (ch bank row : Nat) : b.rowFresh ch bank row = a.rowFresh ch bank row := by obtain ⟨_, rfl⟩ := h; rfl
theorem rowConv (ch bank row : Nat) : b.rowConv ch bank row = a.rowConv ch bank row := by obtain ⟨_, rfl⟩ := h; rfl
theorem groupOpen (ch bank row : Nat) : b.groupOpen ch bank row = a.groupOpen ch bank row := by obtain ⟨_, rfl⟩ := h; rfl
theorem halfBytes (ch bank row grp half : Nat) : b.halfBytes ch bank row grp half = a.halfBytes ch bank row grp half := by
  obtain ⟨_, rfl⟩ := h; rfl
theorem bankFree (ch bank cls since : Nat) : b.bankFree ch bank cls since = a.bankFree ch bank cls since := by
  obtain ⟨_, rfl⟩ := h; rfl

/-- A class that could pay on a channel can pay while only its own requests wait there. -/
theorem canPay {ch cls half : Nat} (hcnt : (b.chan ch).cnt = (a.chan ch).cnt) (hspent : (b.chan ch).spent = (a.chan ch).spent)
    (hq : ∀ r ∈ (b.chan ch).readQ ++ (b.chan ch).writeQ, r.cls = cls) (hp : a.canPay ch cls half = true) :
    b.canPay ch cls half = true := by
  have hnone : ((b.chan ch).readQ ++ (b.chan ch).writeQ).any (fun r => r.cls != cls && b.couldIssue ch r) = false := by
    refine List.any_eq_false.2 fun r hr => ?_
    simp [hq r hr]
  have hunit : b.unitCouldIssue ch = a.unitCouldIssue ch := by
    unfold Blk.unitCouldIssue
    rw [hcnt]
    obtain ⟨_, rfl⟩ := h
    rfl
  have hreg : b.reg (bSC (stackOfCh ch) + 4) = a.reg (bSC (stackOfCh ch) + 4) := by simp [Blk.reg, h.regs]
  simp only [Blk.canPay, Blk.mayBorrow, hcnt, hspent, hnone, hunit, hreg, Bool.or_eq_true, Bool.and_eq_true] at hp ⊢
  refine hp.imp_right fun hb => ?_
  obtain ⟨⟨⟨⟨⟨h2, h3⟩, h4⟩, h5⟩, -⟩, h7⟩ := hb
  exact ⟨⟨⟨⟨⟨h2, h3⟩, h4⟩, h5⟩, rfl⟩, h7⟩

end
end OnlyChans

/-- Besides, what waits at a channel and what it moved last are as they were. -/
structure ChanFrame (ch : Nat) (a b : Blk) : Prop where
  only : OnlyChans a b
  readQ : (b.chan ch).readQ = (a.chan ch).readQ
  writeQ : (b.chan ch).writeQ = (a.chan ch).writeQ
  portQ : (b.chan ch).portQ = (a.chan ch).portQ
  moved : (b.chan ch).moved = (a.chan ch).moved

namespace ChanFrame
variable {ch : Nat}

theorem rfl' (b : Blk) : ChanFrame ch b b := ⟨.rfl' b, rfl, rfl, rfl, rfl⟩

theorem trans {a b c : Blk} (h : ChanFrame ch a b) (g : ChanFrame ch b c) : ChanFrame ch a c :=
  ⟨h.only.trans g.only, g.readQ.trans h.readQ, g.writeQ.trans h.writeQ, g.portQ.trans h.portQ, g.moved.trans h.moved⟩

theorem ite {p : Prop} [Decidable p] {a b c : Blk} (h : ChanFrame ch a b) (g : ChanFrame ch a c) : ChanFrame ch a (if p then b else c) := by
  split <;> assumption

theorem setChan {b : Blk} {k : Nat} {x : ChanSt} (hr : x.readQ = (b.chan k).readQ) (hw : x.writeQ = (b.chan k).writeQ)
    (hp : x.portQ = (b.chan k).portQ) (hm : x.moved = (b.chan k).moved) : ChanFrame ch b (b.setChan k x) := by
  refine ⟨⟨_, rfl⟩, ?_, ?_, ?_, ?_⟩ <;> rw [Blk.chan_setChan] <;> split <;> simp [*]

end ChanFrame

section
variable (b : Blk) (ch : Nat)

theorem Blk.take_chanFrame (k cls half : Nat) : ChanFrame ch b (b.take k cls half) := .setChan rfl rfl rfl rfl
theorem Blk.closeBank_chanFrame (bank : Nat) : ChanFrame ch b (b.closeBank ch bank) := .setChan rfl rfl rfl rfl
theorem Blk.granted_chanFrame (cls port : Nat) : ChanFrame ch b (b.granted ch cls port) := .setChan rfl rfl rfl rfl

theorem Blk.setDrain_chanFrame : ChanFrame ch b (b.setDrain ch) := .ite (.rfl' b) (.setChan rfl rfl rfl rfl)

theorem Blk.precharge_chanFrame (bank cls : Nat) : ChanFrame ch b (b.precharge ch bank cls) := by
  unfold Blk.precharge Blk.pay
  split
  next c hc =>
    split at hc
    · cases hc
      exact (Blk.take_chanFrame _ _ _ _ _).trans (Blk.closeBank_chanFrame _ _ _)
    · cases hc
  next => exact .setChan rfl rfl rfl rfl

theorem Blk.afterColumn_chanFrame (port cls bank : Nat) (keep : Bool) : ChanFrame ch b (b.afterColumn ch port cls bank keep) :=
  (Blk.granted_chanFrame b ch cls port).trans (.ite (.rfl' _) (Blk.precharge_chanFrame _ _ _ _))

theorem Blk.closeLate_chanFrame : ChanFrame ch b (b.closeLate ch) := by
  unfold Blk.closeLate
  generalize (b.chan ch).closing = l
  suffices h : ∀ x, ChanFrame ch b x → ChanFrame ch b (l.foldl (fun (b : Blk) p =>
      if b.bankNow ch p.1 p.2 && b.canPay ch p.2 2 then (b.take ch p.2 2).closeBank ch p.1 else b) x) from h b (.rfl' b)
  induction l with
  | nil => exact fun _ h => h
  | cons p t ih =>
    refine fun x h => ih _ (h.trans (.ite ?_ (.rfl' x)))
    exact (Blk.take_chanFrame _ _ _ _ _).trans (Blk.closeBank_chanFrame _ _ _)

theorem Blk.setDrain_chan : ∃ d, (b.setDrain ch).chan ch = { b.chan ch with drain := d } := by
  unfold Blk.setDrain
  extract_lets c w d
  split
  · exact ⟨_, rfl⟩
  · exact ⟨_, by rw [Blk.chan_setChan, if_pos rfl]⟩

@[simp] theorem Blk.moved_moved (d : Bytes) : ((b.moved ch d).chan ch).moved = d := by
  rw [Blk.moved, Blk.chan_setChan, if_pos rfl]

theorem Blk.moved_onlyChans (d : Bytes) : OnlyChans b (b.moved ch d) := ⟨_, rfl⟩

theorem Blk.afterColumn_moved (d : Bytes) (port cls bank : Nat) (keep : Bool) :
    (((b.moved ch d).afterColumn ch port cls bank keep).chan ch).moved = d := by
  rw [(Blk.afterColumn_chanFrame _ _ _ _ _ _).moved, Blk.moved_moved]

end

/-! ### One request at a channel -/

section
variable {b : Blk} {ch : Nat}

theorem Blk.wakeDie_of_awake {d : Nat} (h : (b.die d).sr = .awake) : b.wakeDie d = b := by simp [Blk.wakeDie, h]

theorem Blk.pick_nil (older : List HalfReq) : b.pick ch older [] = none := rfl

theorem Blk.pick_one (r : HalfReq) : b.pick ch [] [r] = if b.reqReady ch r then some r else none := by
  simp [Blk.pick]

/-- Nothing is served where no queue holds anything. -/
theorem Blk.nextReq_of_empty (hr : (b.chan ch).readQ = []) (hw : (b.chan ch).writeQ = []) : b.nextReq ch = none := by
  simp [Blk.nextReq, hr, hw, Blk.pick_nil]

theorem Blk.nextReq_of_read {r : HalfReq} (hr : (b.chan ch).readQ = [r]) (hw : (b.chan ch).writeQ = [])
    (h : b.reqReady ch r = true) : b.nextReq ch = some (false, r) := by
  simp [Blk.nextReq, hr, hw, Blk.pick_nil, Blk.pick_one, h]

theorem Blk.nextReq_of_write {r : HalfReq} (hr : (b.chan ch).readQ = []) (hw : (b.chan ch).writeQ = [r]) :
    b.nextReq ch = if b.reqReady ch r then some (true, r) else none := by
  cases h : b.reqReady ch r <;> simp [Blk.nextReq, hr, hw, Blk.pick_nil, Blk.pick_one, h]

theorem Blk.acceptHalves_of_none (h : (b.chan ch).portQ = []) : ChanFrame ch b (b.acceptHalves ch) := by
  refine .ite (.rfl' b) ?_
  rw [h]
  exact .setChan rfl rfl h.symm rfl

theorem Blk.acceptHalves_of_one {c : Blk} {w : Bool} {r : HalfReq} (ha : (b.die (dieOfCh ch)).sr = .awake)
    (hp : (b.chan ch).portQ = [(w, r)]) (hc : b.acceptHalf ch w r = some c) :
    b.acceptHalves ch = c.setChan ch { c.chan ch with portQ := [] } := by
  simp [Blk.acceptHalves, ha, hp, hc]

/-- A channel with nothing in its queues serves nothing. -/
theorem Blk.pumpN_of_empty (hr : (b.chan ch).readQ = []) (hw : (b.chan ch).writeQ = []) (hp : (b.chan ch).portQ = []) (n : Nat) :
    ChanFrame ch b (b.pumpN ch n) := by
  cases n with
  | zero => exact .rfl' b
  | succ n =>
    have h := Blk.acceptHalves_of_none hp
    rw [Blk.pumpN, Blk.nextReq_of_empty (h.readQ.trans hr) (h.writeQ.trans hw)]
    exact h

/-- A request that comes to a channel where nothing else waits at the ports. -/
theorem Blk.request1_eq (ha : (b.die (dieOfCh ch)).sr = .awake) (hp : (b.chan ch).portQ = []) (w : Bool) (r : HalfReq) :
    ∃ c n, ChanFrame ch (b.setChan ch { b.chan ch with portQ := [(w, r)] }) c ∧ b.request1 ch w r = c.pumpN ch (n + 1)
      ∧ ((b.chan ch).closing = [] → ∃ d, c.chan ch = { b.chan ch with portQ := [(w, r)], drain := d }) := by
  have hwake : ((b.setChan ch { b.chan ch with portQ := [(w, r)] }).die (dieOfCh ch)).sr = .awake := ha
  have hchan : (b.setChan ch { b.chan ch with portQ := [(w, r)] }).chan ch = { b.chan ch with portQ := [(w, r)] } := by
    rw [Blk.chan_setChan, if_pos rfl]
  have hpump : b.request1 ch w r = (b.setChan ch { b.chan ch with portQ := [(w, r)] }).pump ch := by
    simp only [Blk.request1, hp, List.nil_append, Blk.wakeDie_of_awake hwake]
  generalize b.setChan ch { b.chan ch with portQ := [(w, r)] } = b₁ at hchan hpump ⊢
  refine ⟨(b₁.setDrain ch).closeLate ch,
    2 * ((b₁.chan ch).readQ.length + (b₁.chan ch).writeQ.length + (b₁.chan ch).portQ.length),
    (Blk.setDrain_chanFrame _ _).trans (Blk.closeLate_chanFrame _ _), ?_, fun hc => ?_⟩
  · rw [hpump, Blk.pump, if_neg (by simp [hchan])]
  · obtain ⟨d, hd⟩ := Blk.setDrain_chan b₁ ch
    refine ⟨d, ?_⟩
    rw [Blk.closeLate, hd, hchan, hc, List.foldl_nil, hd, hchan]

end
end Sys2Proof.Machine
end

section
/-! Proofs: transfers of half-groups and column words (R59, R67, R88, R95). -/

namespace Sys2Proof.Machine
open Sys2Proof

/-! ### Bytes of a group that were just stored -/

theorem gidOf_lt {ch bank row grp : Nat} (hc : ch < 384) (hb : bank < 32) (hr : row < 32768) (hg : grp < 8) :
    gidOf ch bank row grp < 0xC0000000 := by
  simp only [gidOf]
  omega

theorem bytesAt_putAt {b : Bytes} {off n : Nat} {d : Bytes} (hn : d.length = n) (h : off + n ≤ b.length) :
    bytesAt (putAt b off d) off n = d := by
  subst hn
  rw [bytesAt_of_le (by rw [length_putAt h]; exact h)]
  have hl : (b.take off).length = off := by simp; omega
  rw [putAt, List.append_assoc, List.drop_left' hl, List.take_left' rfl]

/-- A write of bytes of a group's data and margin, in a block. -/
def Blk.putGroup (b : Blk) (g off : Nat) (d : Bytes) (o : Bool) (moff : Nat) (k : Bytes) : Blk :=
  b.setCells (cellsPut b.mem.cells (groupCells g off d o moff k))

section
variable {b : Blk} (hm : Memory.wf b.mem.cells = true) {g : Nat} (hg : g < 0xC0000000) {off n moff p : Nat} {d k : Bytes}
  (hd : d.length = n) (hoff : off + n ≤ 256) (hk : k.length = p) (hmoff : moff + p ≤ 32) (o : Bool)
include hm hg hd hoff

theorem Blk.putGroup_data : bytesAt (groupData (b.putGroup g off d o moff k).mem.cells g) off n = d := by
  subst hd
  have h : groupData (b.putGroup g off d o moff k).mem.cells g = putAt (groupData b.mem.cells g) off d :=
    (groupData_put hm hg hg hoff o moff k).trans (if_pos rfl)
  rw [h, bytesAt_putAt rfl (by simpa using hoff)]

theorem Blk.putGroup_data_other {h : Nat} (hh : h < 0xC0000000) (hne : h ≠ g) :
    groupData (b.putGroup g off d o moff k).mem.cells h = groupData b.mem.cells h := by
  subst hd
  exact (groupData_put hm hg hh hoff o moff k).trans (if_neg hne)

include hk hmoff

theorem Blk.putGroup_margin : bytesAt (groupMargin (b.putGroup g off d o moff k).mem.cells g o) moff p = k := by
  subst hd hk
  have h : groupMargin (b.putGroup g off d o moff k).mem.cells g o = putAt (groupMargin b.mem.cells g o) moff k :=
    groupMargin_put hm hg hoff hmoff o
  rw [h, bytesAt_putAt rfl (by simpa using hmoff)]

end

theorem Blk.putHalf_eq (b : Blk) (ch bank row grp half : Nat) (d : Bytes) : b.putHalf ch bank row grp half d
    = b.putGroup (gidOf ch bank row grp) (128 * half) (bytesAt d 0 128) (b.groupOpen ch bank row) (16 * half) (bytesAt d 128 16) :=
  rfl

theorem bytesAt_append {d : Bytes} {n m : Nat} (h : d.length = n + m) : bytesAt d 0 n ++ bytesAt d n m = d := by
  rw [bytesAt_of_le (by omega), bytesAt_of_le (by omega), List.drop_zero, List.take_of_length_le (l := d.drop n) (by simp; omega),
    List.take_append_drop]

/-! ### The segment of a row that is written -/

section
variable {b : Blk} {cls ch bank row : Nat}

theorem Blk.chargeSeg_chanFrame (b : Blk) (k cls seg half : Nat) : ChanFrame k b (b.chargeSeg cls seg half) := by
  unfold Blk.chargeSeg
  generalize b.struc.segShare seg = l
  suffices h : ∀ x, ChanFrame k b x → ChanFrame k b (l.foldl (fun (b : Blk) p => b.take p.1 cls (half * p.2)) x) from
    h b (.rfl' b)
  induction l with
  | nil => exact fun _ h => h
  | cons p t ih => exact fun x h => ih _ (h.trans (Blk.take_chanFrame _ _ _ _ _))

theorem Blk.rowInit_of_stale (h : b.rowFresh ch bank row = false) : b.rowInit cls ch bank row = b := by
  unfold Blk.rowInit
  split
  next k hk =>
    have hf : (b.seg k).fresh = false := by simpa [Blk.rowFresh, hk] using h
    simp [hf]
  next => rfl

/-- What a row's segment is for a write: no longer fresh, for a charge and no other cell but those it drops. -/
theorem Blk.rowInit_eq (b : Blk) (cls ch bank row : Nat) (k : Nat) : ∃ c, ChanFrame k b c ∧ (b.rowInit cls ch bank row).chans = c.chans
    ∧ (b.rowInit cls ch bank row).regs = b.regs ∧ (b.rowInit cls ch bank row).struc = b.struc := by
  unfold Blk.rowInit
  split
  next j hj =>
    split
    · have hf := Blk.chargeSeg_chanFrame b k cls j 132
      refine ⟨_, hf, ?_⟩
      obtain ⟨x, hx⟩ := hf.only
      rw [initSeg_eq, hx]
      exact ⟨rfl, rfl, rfl⟩
    · exact ⟨b, .rfl' b, rfl, rfl, rfl⟩
  next => exact ⟨b, .rfl' b, rfl, rfl, rfl⟩

theorem Blk.rowSeg_of_struc {a b : Blk} (h : b.struc = a.struc) (ch bank row : Nat) : b.rowSeg ch bank row = a.rowSeg ch bank row := by
  simp [Blk.rowSeg, h]

theorem Blk.rowFresh_rowInit (b : Blk) (cls ch bank row : Nat) : (b.rowInit cls ch bank row).rowFresh ch bank row = false := by
  obtain ⟨-, -, -, -, hs⟩ := Blk.rowInit_eq b cls ch bank row ch
  cases hf : b.rowFresh ch bank row with
  | false => rwa [Blk.rowInit_of_stale hf]
  | true =>
    rw [Blk.rowFresh, Blk.rowSeg_of_struc hs]
    unfold Blk.rowInit
    split
    next j hj =>
      have hj' : (b.seg j).fresh = true := by simpa [Blk.rowFresh, hj] using hf
      simp only [hj', if_true, initSeg_eq, hj, Option.map_some, Blk.seg_setSeg]
      rfl
    next hj => simp [hj]

end

/-! ### Column commands and what they leave -/

section
variable {b : Blk} {ch port cls bank row : Nat} {keep : Bool}

/-- The bytes of a half-group that was stored; its row is as it was. -/
theorem Blk.halfBytes_putHalf (hm : b.MemOk) {grp half : Nat} (hg : gidOf ch bank row grp < 0xC0000000) (hh : half < 2) {d : Bytes}
    (hd : d.length = 144) : (b.putHalf ch bank row grp half d).halfBytes ch bank row grp half = d := by
  have ho : (b.putHalf ch bank row grp half d).groupOpen ch bank row = b.groupOpen ch bank row := rfl
  rw [Blk.halfBytes, ho]
  rw [Blk.putHalf_eq, Blk.putGroup_data hm hg (length_bytesAt _ _ _) (by omega),
    Blk.putGroup_margin hm hg (length_bytesAt _ _ _) (by omega) (length_bytesAt _ _ _) (by omega), bytesAt_append hd]

theorem Blk.afterColumn_onlyChans (b : Blk) (ch port cls bank : Nat) (keep : Bool) : OnlyChans b (b.afterColumn ch port cls bank keep) :=
  (Blk.afterColumn_chanFrame b ch port cls bank keep).only


/-- A request that is accepted and served at once. -/
theorem Blk.pumpN_serve {b c : Blk} {w : Bool} {r : HalfReq} (ha : b.acceptHalves ch = c) (hn : c.nextReq ch = some (w, r)) (n : Nat) :
    b.pumpN ch (n + 1) = (c.issueReq ch w r).pumpN ch n := by
  rw [Blk.pumpN, ha, hn]

/-- A request for an open row of a free bank is ready where nothing of another class waits. -/
theorem Blk.reqCharge_of_open {c : Blk} {r : HalfReq} (h : OnlyChans b c) (hrows : (c.chan ch).rows = (b.chan ch).rows)
    (hcls : r.cls ≠ cTrain) (hs : (b.rowSeg ch r.bank r.row).isSome = true) (hconv : b.rowConv ch r.bank r.row = false)
    (hfree : b.bankFree ch r.bank r.cls r.since = true) (hopen : b.openRowOf ch r.bank = some r.row) :
    c.reqCharge ch r = some 3 := by
  have ho : c.openRowOf ch r.bank = some r.row := by rw [← hopen, Blk.openRowOf, Blk.openRowOf, hrows]
  have hs' : (c.rowSeg ch r.bank r.row).isNone = false := by
    rw [h.rowSeg]
    simpa [Option.isSome_iff_ne_none] using hs
  simp [Blk.reqCharge, hcls, hs', h.bankFree, hfree, h.rowConv, hconv, ho]

/-- What a block leaves that has issued a request's column command, before the command acts. -/
theorem Blk.dequeue_take_chanFrame (b : Blk) (w : Bool) (r : HalfReq) (hw : (b.chan ch).writeQ = if w then [r] else [])
    (hr : (b.chan ch).readQ = if w then [] else [r]) (cls half : Nat) :
    OnlyChans b ((b.dequeue ch w r).take ch cls half) ∧ ((((b.dequeue ch w r).take ch cls half).chan ch).readQ = []
      ∧ (((b.dequeue ch w r).take ch cls half).chan ch).writeQ = []
      ∧ (((b.dequeue ch w r).take ch cls half).chan ch).portQ = (b.chan ch).portQ) := by
  have hf := (Blk.setDrain_chanFrame (b.setChan ch (if w then { b.chan ch with writeQ := (b.chan ch).writeQ.erase r }
    else { b.chan ch with readQ := (b.chan ch).readQ.erase r })) ch).trans (Blk.take_chanFrame _ ch ch cls half)
  refine ⟨OnlyChans.trans ⟨_, rfl⟩ hf.only, hf.readQ.trans ?_, hf.writeQ.trans ?_, hf.portQ.trans ?_⟩ <;>
    rw [Blk.chan_setChan, if_pos rfl] <;> cases w <;> simp [hw, hr]

end

end Sys2Proof.Machine
end

section
/-! Proofs: half-group and column-word transfers (R67, R81, R88, R93 to R97). -/

namespace Sys2Proof.Machine
open Sys2Proof

theorem Blk.chanQuiet_iff (b : Blk) (ch : Nat) : b.chanQuiet ch = true ↔ ((b.chan ch).readQ = [] ∧ (b.chan ch).writeQ = []
    ∧ (b.chan ch).portQ = [] ∧ (b.chan ch).closing = [] ∧ (b.die (dieOfCh ch)).sr = .awake) := by
  simp [Blk.chanQuiet, and_assoc]

section
variable {b : Blk} {ch : Nat} {r : HalfReq}

/-- A request at a quiet channel, for an open row of a free bank that its class can pay for, is served at once. -/
theorem Blk.request1_serve (hq : b.chanQuiet ch = true) (hcls : r.cls ≠ cTrain) (hs : (b.rowSeg ch r.bank r.row).isSome = true)
    (hconv : b.rowConv ch r.bank r.row = false) (hfree : b.bankFree ch r.bank r.cls r.since = true)
    (hopen : b.openRowOf ch r.bank = some r.row) (hpay : b.canPay ch r.cls 3 = true) (w : Bool)
    (hfresh : w = false → b.rowFresh ch r.bank r.row = false) :
    ∃ c n, OnlyChans b c ∧ (c.chan ch).writeQ = (if w then [r] else []) ∧ (c.chan ch).readQ = (if w then [] else [r])
      ∧ (c.chan ch).portQ = [] ∧ c.reqCharge ch r = some 3 ∧ b.request1 ch w r = (c.issueReq ch w r).pumpN ch n := by
  obtain ⟨hr, hw, hp, hcl, ha⟩ := (Blk.chanQuiet_iff b ch).1 hq
  obtain ⟨c, n, hf, hreq, hchan⟩ := Blk.request1_eq ha hp w r
  obtain ⟨d, hd⟩ := hchan hcl
  have hbc : OnlyChans b c := OnlyChans.trans ⟨_, rfl⟩ hf.only
  -- the request in its queue
  obtain ⟨e, he, hce, d', hed⟩ : ∃ e, c.acceptHalf ch w r = some e ∧ OnlyChans c e ∧ ∃ d, e.chan ch
      = { b.chan ch with readQ := if w then [] else [r], writeQ := if w then [r] else [], portQ := [(w, r)], drain := d } := by
    cases w with
    | false =>
      have hcf : c.rowFresh ch r.bank r.row = false := by rw [hbc.rowFresh, hfresh rfl]
      have hlen : ¬ 64 ≤ (c.chan ch).readQ.length := by simp [hd, hr]
      refine ⟨c.setChan ch { c.chan ch with readQ := (c.chan ch).readQ ++ [r] }, ?_, ⟨_, rfl⟩, d, ?_⟩
      · simp [Blk.acceptHalf, hd, hr, hw, hcf]
      · rw [Blk.chan_setChan, if_pos rfl, hd, ← hw]
        simp [hr]
    | true =>
      obtain ⟨d', hd'⟩ := Blk.setDrain_chan (c.setChan ch { c.chan ch with writeQ := (c.chan ch).writeQ ++ [r] }) ch
      have hlen : ¬ 64 ≤ (c.chan ch).writeQ.length := by simp [hd, hw]
      refine ⟨(c.setChan ch { c.chan ch with writeQ := (c.chan ch).writeQ ++ [r] }).setDrain ch, ?_,
        OnlyChans.trans ⟨_, rfl⟩ (Blk.setDrain_chanFrame _ _).only, d', ?_⟩
      · simp only [Blk.acceptHalf, if_true, if_neg hlen]
      · rw [hd', Blk.chan_setChan, if_pos rfl, hd, ← hr]
        simp [hw]
  have hca : (c.die (dieOfCh ch)).sr = .awake := by rw [hbc.die, ha]
  have hacc := Blk.acceptHalves_of_one hca (by rw [hd]) he
  generalize hg : e.setChan ch { e.chan ch with portQ := [] } = g at hacc
  have hbg : OnlyChans b g := hg ▸ (hbc.trans hce).trans ⟨_, rfl⟩
  have hgc : g.chan ch = { b.chan ch with readQ := if w then [] else [r], writeQ := if w then [r] else [], portQ := [], drain := d' } := by
    rw [← hg, Blk.chan_setChan, if_pos rfl, hed]
  have hall : ∀ x ∈ (g.chan ch).readQ ++ (g.chan ch).writeQ, x.cls = r.cls := by
    rw [hgc]
    cases w <;> simp
  have hcharge := Blk.reqCharge_of_open hbg (by rw [hgc]) hcls hs hconv hfree hopen
  have hready : g.reqReady ch r = true := by
    rw [Blk.reqReady, hcharge]
    exact hbg.canPay (by rw [hgc]) (by rw [hgc]) hall hpay
  have hnext : g.nextReq ch = some (w, r) := by
    cases w with
    | false => exact Blk.nextReq_of_read (by rw [hgc]; rfl) (by rw [hgc]; rfl) hready
    | true => rw [Blk.nextReq_of_write (by rw [hgc]; rfl) (by rw [hgc]; rfl), if_pos hready]
  exact ⟨g, n, hbg, by rw [hgc], by rw [hgc], by rw [hgc], hcharge, by rw [hreq, Blk.pumpN_serve hacc hnext]⟩

end
end Sys2Proof.Machine
end

section
/-! Proofs: the transfer commands of a channel (R88, R93 to R97). -/

namespace Sys2Proof.Machine
open Sys2Proof

/-- Nothing waits in the queues of a channel. -/
structure Blk.Drained (b : Blk) (ch : Nat) : Prop where
  readQ : (b.chan ch).readQ = []
  writeQ : (b.chan ch).writeQ = []
  portQ : (b.chan ch).portQ = []

theorem halfArgs_of {b : Blk} {ch port cls bank row grp half : Nat} (ha : chanArgs ch port cls bank row = true) (hg : grp < 8)
    (hh : half < 2) (hc : cls = cHub ∨ cls = cRemote) (hs : (b.rowSeg ch bank row).isSome = true) :
    b.halfArgs ch port cls bank row grp half = true := by
  have hp : portClass cls = true := by
    obtain rfl | rfl := hc <;> rfl
  simp [Blk.halfArgs, ha, hg, hh, hp, hs]

theorem ne_cTrain_of {cls : Nat} (hc : cls = cHub ∨ cls = cRemote) : cls ≠ cTrain := by
  obtain rfl | rfl := hc <;> decide

theorem gidOf_lt_of_chanArgs {ch port cls bank row grp : Nat} (ha : chanArgs ch port cls bank row = true) (hg : grp < 8) :
    gidOf ch bank row grp < 0xC0000000 := by
  simp only [chanArgs, Bool.and_eq_true, decide_eq_true_eq] at ha
  obtain ⟨⟨⟨hch, -⟩, hb⟩, hr⟩ := ha
  exact gidOf_lt hch hb hr hg

theorem Blk.rowFresh_isSome {b : Blk} {ch bank row : Nat} (h : b.rowFresh ch bank row = true) : (b.rowSeg ch bank row).isSome = true := by
  cases hs : b.rowSeg ch bank row with
  | none => simp [Blk.rowFresh, hs] at h
  | some k => rfl

section
variable {b : Blk} {ch : Nat}

/-- What follows a transfer at a channel where nothing else waits. -/
theorem Blk.moved_pumpN (hb : b.Drained ch) (d : Bytes) (port cls bank : Nat) (keep : Bool) (n : Nat) :
    ChanFrame ch (b.moved ch d) (((b.moved ch d).afterColumn ch port cls bank keep).pumpN ch n) := by
  have hm : ((b.moved ch d).chan ch) = { b.chan ch with moved := d } := by rw [Blk.moved, Blk.chan_setChan, if_pos rfl]
  have ha := Blk.afterColumn_chanFrame (b.moved ch d) ch port cls bank keep
  refine ha.trans (Blk.pumpN_of_empty ?_ ?_ ?_ n)
  · rw [ha.readQ, hm, hb.readQ]
  · rw [ha.writeQ, hm, hb.writeQ]
  · rw [ha.portQ, hm, hb.portQ]

theorem Blk.Drained.rowInit (hb : b.Drained ch) (cls bank row : Nat) : (b.rowInit cls ch bank row).Drained ch := by
  obtain ⟨c, hf, hc, -, -⟩ := Blk.rowInit_eq b cls ch bank row ch
  have hch : (b.rowInit cls ch bank row).chan ch = c.chan ch := by rw [Blk.chan, hc, Blk.chan]
  exact ⟨by rw [hch, hf.readQ, hb.readQ], by rw [hch, hf.writeQ, hb.writeQ], by rw [hch, hf.portQ, hb.portQ]⟩

/-- A request that is served at once, for its transfer and what follows it. -/
theorem Blk.request1_open {r : HalfReq} (hq : b.chanQuiet ch = true) (hcls : r.cls ≠ cTrain)
    (hs : (b.rowSeg ch r.bank r.row).isSome = true)
    (hconv : b.rowConv ch r.bank r.row = false) (hfree : b.bankFree ch r.bank r.cls r.since = true)
    (hopen : b.openRowOf ch r.bank = some r.row) (hpay : b.canPay ch r.cls 3 = true) (w : Bool)
    (hfresh : w = false → b.rowFresh ch r.bank r.row = false) :
    ∃ t n, OnlyChans b t ∧ t.Drained ch ∧ b.request1 ch w r = ((if w then
        ((t.rowInit r.cls ch r.bank r.row).putHalf ch r.bank r.row r.grp r.half r.data).moved ch r.data
      else t.moved ch (t.halfBytes ch r.bank r.row r.grp r.half)).afterColumn ch r.port r.cls r.bank r.keep).pumpN ch n := by
  obtain ⟨c, n, hbc, hwq, hrq, hpq, hcharge, hreq⟩ := Blk.request1_serve hq hcls hs hconv hfree hopen hpay w hfresh
  obtain ⟨ht, hr, hw, hp⟩ := Blk.dequeue_take_chanFrame c w r hwq hrq r.cls 3
  refine ⟨_, n, hbc.trans ht, ⟨hr, hw, hp.trans hpq⟩, ?_⟩
  rw [hreq, Blk.issueReq, hcharge]
  simp only [if_neg hcls]
  cases w <;> rfl

/-! ### A read that the write queue answers -/

/-- A channel has moved the bytes of a write, which may wait still; nothing else waits. -/
structure Blk.WriteMoved (b : Blk) (ch : Nat) (w : HalfReq) : Prop where
  readQ : (b.chan ch).readQ = []
  writeQ : (b.chan ch).writeQ = [w] ∨ (b.chan ch).writeQ = []
  portQ : (b.chan ch).portQ = []
  moved : (b.chan ch).moved = w.data

theorem Blk.WriteMoved.frame {c : Blk} {w : HalfReq} (h : b.WriteMoved ch w) (hf : ChanFrame ch b c) : c.WriteMoved ch w :=
  ⟨hf.readQ.trans h.readQ, hf.writeQ ▸ h.writeQ, hf.portQ.trans h.portQ, hf.moved.trans h.moved⟩

/-- Such a channel, for its state as it stands. -/
theorem Blk.WriteMoved.of_chan {c : Blk} {w : HalfReq} (h : b.WriteMoved ch w) (hc : c.chan ch = b.chan ch) : c.WriteMoved ch w :=
  ⟨hc ▸ h.readQ, hc ▸ h.writeQ, hc ▸ h.portQ, hc ▸ h.moved⟩

theorem Blk.WriteMoved.dequeue {w : HalfReq} (h : b.WriteMoved ch w) : (b.dequeue ch true w).WriteMoved ch w := by
  refine Blk.WriteMoved.frame ?_ (Blk.setDrain_chanFrame _ ch)
  refine ⟨?_, .inr ?_, ?_, ?_⟩ <;> rw [Blk.chan_setChan, if_pos rfl]
  · exact h.readQ
  · obtain hw | hw := h.writeQ <;> simp [hw]
  · exact h.portQ
  · exact h.moved

theorem Blk.WriteMoved.movedAgain {w : HalfReq} (h : b.WriteMoved ch w) : (b.moved ch w.data).WriteMoved ch w := by
  refine ⟨?_, ?_, ?_, ?_⟩ <;> rw [Blk.moved, Blk.chan_setChan, if_pos rfl]
  · exact h.readQ
  · exact h.writeQ
  · exact h.portQ

theorem Blk.WriteMoved.issue {w : HalfReq} (h : b.WriteMoved ch w) : (b.issueReq ch true w).WriteMoved ch w := by
  unfold Blk.issueReq
  split
  · have ht := h.dequeue.frame (Blk.take_chanFrame _ ch ch w.cls 3)
    dsimp only
    generalize (b.dequeue ch true w).take ch w.cls 3 = t at ht
    split
    · refine Blk.WriteMoved.frame ?_ (Blk.granted_chanFrame _ ch w.cls w.port)
      refine ⟨?_, ?_, ?_, ?_⟩ <;> rw [if_pos rfl, Blk.chan_setChan, if_pos rfl]
      · exact ht.readQ
      · exact ht.writeQ
      · exact ht.portQ
    · obtain ⟨c, hf, hc, -, -⟩ := Blk.rowInit_eq t w.cls ch w.bank w.row ch
      have hput : ((t.rowInit w.cls ch w.bank w.row).putHalf ch w.bank w.row w.grp w.half w.data).chan ch = c.chan ch := by
        rw [Blk.putHalf_eq]
        exact congrArg (fun x => tget ChanSt.reset ch x) hc
      exact (((ht.frame hf).of_chan hput).movedAgain).frame (Blk.afterColumn_chanFrame _ ch w.port w.cls w.bank w.keep)
  · exact h.frame (((Blk.take_chanFrame _ ch ch w.cls 2).trans (Blk.closeBank_chanFrame _ ch w.bank)).trans
      (Blk.granted_chanFrame _ ch w.cls w.port))
  · exact h.dequeue

/-- The channel can serve nothing but that write. -/
theorem Blk.WriteMoved.next {w r : HalfReq} {v : Bool} (h : b.WriteMoved ch w) (hn : b.nextReq ch = some (v, r)) : v = true ∧ r = w := by
  obtain hw | hw := h.writeQ
  · rw [Blk.nextReq_of_write h.readQ hw] at hn
    split at hn <;> cases hn
    exact ⟨rfl, rfl⟩
  · rw [Blk.nextReq_of_empty h.readQ hw] at hn
    cases hn

theorem Blk.WriteMoved.pumpN {w : HalfReq} (n : Nat) : ∀ {b : Blk}, b.WriteMoved ch w → (b.pumpN ch n).WriteMoved ch w := by
  induction n with
  | zero => exact fun h => h
  | succ n ih =>
    intro b h
    have ha := h.frame (Blk.acceptHalves_of_none h.portQ)
    rw [Blk.pumpN]
    split
    · exact ha
    next v r hn =>
      obtain ⟨rfl, rfl⟩ := ha.next hn
      exact ih ha.issue

/-- A read of a half-group that one write waits for moves that write's bytes. -/
theorem Blk.moved_request1_of_waiting {w r : HalfReq} (ha : (b.die (dieOfCh ch)).sr = .awake) (hw : (b.chan ch).writeQ = [w])
    (hr : (b.chan ch).readQ = []) (hp : (b.chan ch).portQ = []) (h : w.sameHalf r = true) :
    ((b.request1 ch false r).chan ch).moved = w.data := by
  obtain ⟨c, n, hf, hreq, -⟩ := Blk.request1_eq ha hp false r
  have hset : (b.setChan ch { b.chan ch with portQ := [(false, r)] }).chan ch = { b.chan ch with portQ := [(false, r)] } := by
    rw [Blk.chan_setChan, if_pos rfl]
  have hcw : (c.chan ch).writeQ = [w] := by rw [hf.writeQ, hset, hw]
  have hcr : (c.chan ch).readQ = [] := by rw [hf.readQ, hset, hr]
  have hcp : (c.chan ch).portQ = [(false, r)] := by rw [hf.portQ, hset]
  have hca : (c.die (dieOfCh ch)).sr = .awake := by rw [hf.only.die]; exact ha
  have hacc : c.acceptHalf ch false r = some (c.moved ch w.data) := by simp [Blk.acceptHalf, hcw, h]
  have hg : (c.acceptHalves ch).WriteMoved ch w := by
    rw [Blk.acceptHalves_of_one hca hcp hacc]
    have hm : (c.moved ch w.data).chan ch = { c.chan ch with moved := w.data } := by rw [Blk.moved, Blk.chan_setChan, if_pos rfl]
    refine ⟨?_, .inl ?_, ?_, ?_⟩ <;> rw [Blk.chan_setChan, if_pos rfl]
    · rw [hm]; exact hcr
    · rw [hm]; exact hcw
    · rw [hm]
  rw [hreq, Blk.pumpN]
  split
  · exact hg.moved
  next v x hn =>
    obtain ⟨rfl, rfl⟩ := hg.next hn
    exact (hg.issue.pumpN n).moved

/-- A read of a fresh segment moves zeros and touches no row (R67). -/
theorem Blk.request1_of_fresh {r : HalfReq} (hq : b.chanQuiet ch = true) (hcls : r.cls ≠ cTrain)
    (hf : b.rowFresh ch r.bank r.row = true) : OnlyChans b (b.request1 ch false r)
      ∧ ((b.request1 ch false r).chan ch).moved = zeros 144 ∧ ((b.request1 ch false r).chan ch).rows = (b.chan ch).rows := by
  obtain ⟨hr, hw, hp, hcl, ha⟩ := (Blk.chanQuiet_iff b ch).1 hq
  obtain ⟨c, n, hfr, hreq, hchan⟩ := Blk.request1_eq ha hp false r
  obtain ⟨d, hd⟩ := hchan hcl
  have hbc : OnlyChans b c := OnlyChans.trans ⟨_, rfl⟩ hfr.only
  have hacc : c.acceptHalf ch false r = some (c.moved ch (zeros 144)) := by
    have hcf : c.rowFresh ch r.bank r.row = true := by rw [hbc.rowFresh, hf]
    simp [Blk.acceptHalf, hd, hw, hcf, hcls]
  have hca : (c.die (dieOfCh ch)).sr = .awake := by rw [hbc.die, ha]
  have hg := Blk.acceptHalves_of_one hca (by rw [hd]) hacc
  have hm : (c.acceptHalves ch).chan ch = { b.chan ch with portQ := [], drain := d, moved := zeros 144 } := by
    rw [hg, Blk.chan_setChan, if_pos rfl, Blk.moved, Blk.chan_setChan, if_pos rfl, hd]
  have hn : (c.acceptHalves ch).nextReq ch = none := Blk.nextReq_of_empty (by rw [hm]; exact hr) (by rw [hm]; exact hw)
  have hend : b.request1 ch false r = c.acceptHalves ch := by rw [hreq, Blk.pumpN, hn]
  rw [hend, hm]
  exact ⟨hg ▸ hbc.trans ⟨_, rfl⟩, rfl, rfl⟩

end
end Sys2Proof.Machine
end

section
/-! Proofs: half-group and column-word transfers, assembled. -/

namespace Sys2Proof.Machine
open Sys2Proof

theorem Blk.putGroup_eq (b : Blk) (g off : Nat) (d : Bytes) (o : Bool) (moff : Nat) (k : Bytes) :
    b.setCells (cellsPut b.mem.cells (dataCells g off d ++ marginCells g o moff k)) = b.putGroup g off d o moff k := rfl

section
variable {s : State} {ch port cls bank row : Nat}

/-- RDH of an open row. -/
theorem rdh_open {grp half : Nat} {keep : Bool} (hu : s.blk.hubUp = true) (ha : chanArgs ch port cls bank row = true)
    (hg : grp < 8) (hh : half < 2) (hc : cls = cHub ∨ cls = cRemote) (hq : s.blk.chanQuiet ch = true)
    (hs : (s.blk.rowSeg ch bank row).isSome = true) (hf : s.blk.rowFresh ch bank row = false)
    (hconv : s.blk.rowConv ch bank row = false) (hfree : s.blk.bankFree ch bank cls s.blk.time.toNat = true)
    (hopen : s.blk.openRowOf ch bank = some row) (hpay : s.blk.canPay ch cls 3 = true) :
    Completes (.rdh ch port cls bank row grp half keep) s (fun b =>
      (b.chan ch).moved = s.blk.halfBytes ch bank row grp half ∧ SameMem s.blk b ∧ b.regs = s.blk.regs) := by
  refine Completes.of_hub (exec_rdh s ch port cls bank row grp half keep) hu ?_
  rw [Blk.chRdh, if_pos (halfArgs_of ha hg hh hc hs)]
  obtain ⟨t, n, ht, hd, hreq⟩ := Blk.request1_open (r := ⟨port, cls, bank, row, grp, half, keep, s.blk.time.toNat, []⟩)
    hq (ne_cTrain_of hc) hs hconv hfree hopen hpay false (fun _ => hf)
  have hm := Blk.moved_pumpN hd (t.halfBytes ch bank row grp half) port cls bank keep n
  have hall := (ht.trans ⟨_, rfl⟩).trans hm.only
  simp only [settle_chan, settle_mem, settle_regs, SameMem]
  rw [hreq]
  refine ⟨?_, hall.mem, hall.regs⟩
  rw [← ht.halfBytes]
  exact hm.moved.trans (Blk.moved_moved _ _ _)

/-- WRH of an open row. -/
theorem wrh_open {grp half : Nat} {keep : Bool} {d : Bytes} (hu : s.blk.hubUp = true) (hwf : s.memWf)
    (ha : chanArgs ch port cls bank row = true) (hg : grp < 8) (hh : half < 2) (hc : cls = cHub ∨ cls = cRemote)
    (hd : d.length = 144) (hq : s.blk.chanQuiet ch = true) (hs : (s.blk.rowSeg ch bank row).isSome = true)
    (hconv : s.blk.rowConv ch bank row = false) (hfree : s.blk.bankFree ch bank cls s.blk.time.toNat = true)
    (hopen : s.blk.openRowOf ch bank = some row) (hpay : s.blk.canPay ch cls 3 = true) :
    Completes (.wrh ch port cls bank row grp half keep d) s (fun b =>
      b.halfBytes ch bank row grp half = d ∧ b.rowFresh ch bank row = false ∧ b.regs = s.blk.regs
      ∧ (s.blk.rowFresh ch bank row = false → ∀ g, g < 0xC0000000 → g ≠ gidOf ch bank row grp →
          groupData b.mem.cells g = groupData s.blk.mem.cells g)) := by
  refine Completes.of_hub (exec_wrh s ch port cls bank row grp half keep d) hu ?_
  have hd' : bytesAt d 0 144 = d := by rw [bytesAt_of_le (by omega), List.drop_zero, List.take_of_length_le (by omega)]
  rw [Blk.chWrh, if_pos (halfArgs_of ha hg hh hc hs), hd']
  obtain ⟨t, n, ht, hdr, hreq⟩ := Blk.request1_open (r := ⟨port, cls, bank, row, grp, half, keep, s.blk.time.toNat, d⟩)
    hq (ne_cTrain_of hc) hs hconv hfree hopen hpay true (fun h => Bool.noConfusion h)
  rw [hreq]
  clear hreq
  have hgid := gidOf_lt_of_chanArgs ha hg
  have hmt : t.MemOk := by rw [Blk.MemOk, ht.mem]; exact hwf
  have hmu : (t.rowInit cls ch bank row).MemOk := hmt.rowInit
  obtain ⟨c, hcf, hchans, hregs, hstruc⟩ := Blk.rowInit_eq t cls ch bank row ch
  have hfresh := Blk.rowFresh_rowInit t cls ch bank row
  have hu := hdr.rowInit cls bank row
  have hstale : s.blk.rowFresh ch bank row = false → t.rowInit cls ch bank row = t := fun h =>
    Blk.rowInit_of_stale (by rw [ht.rowFresh, h])
  generalize t.rowInit cls ch bank row = u at *
  have hv : (u.putHalf ch bank row grp half d).Drained ch := ⟨hu.readQ, hu.writeQ, hu.portQ⟩
  have hm := (OnlyChans.trans ⟨_, rfl⟩ (Blk.moved_pumpN hv d port cls bank keep n).only :
    OnlyChans (u.putHalf ch bank row grp half d) _)
  have hset : ∀ x, (settle s.blk x).halfBytes ch bank row grp half = x.halfBytes ch bank row grp half
      ∧ (settle s.blk x).rowFresh ch bank row = x.rowFresh ch bank row := fun x => by
    rw [settle_eq]
    exact ⟨rfl, rfl⟩
  simp only [settle_mem, settle_regs, (hset _).1, (hset _).2, if_true]
  refine ⟨?_, ?_, ?_, fun hst g hg' hne => ?_⟩
  · rw [hm.halfBytes, Blk.halfBytes_putHalf hmu hgid hh hd]
  · rw [hm.rowFresh]
    exact hfresh
  · rw [hm.regs]
    exact hregs.trans ht.regs
  · rw [hm.mem, Blk.putHalf_eq, Blk.putGroup_data_other hmu hgid (length_bytesAt _ _ _) (by omega) _ hg' hne, hstale hst, ht.mem]

theorem wordArgs_iff {b : Blk} {word : Nat} : b.wordArgs ch port cls bank row word = true ↔
    (chanArgs ch port cls bank row = true ∧ word < 64) ∧ b.bankNow ch bank cls = true ∧ b.openRowOf ch bank = some row := by
  simp [Blk.wordArgs, and_assoc]

/-- RDW. -/
theorem rdw_open {word : Nat} {keep : Bool} (hu : s.blk.hubUp = true) (hw : s.blk.wordArgs ch port cls bank row word = true)
    (hpay : s.blk.canPay ch cls 2 = true) :
    Completes (.rdw ch ⟨port, cls, keep⟩ bank row word) s (fun b => SameMem s.blk b ∧ b.regs = s.blk.regs
      ∧ (b.chan ch).moved = if s.blk.rowFresh ch bank row then zeros 36 else
          bytesAt (groupData s.blk.mem.cells (gidOf ch bank row (word / 8))) (32 * (word % 8)) 32
            ++ bytesAt (groupMargin s.blk.mem.cells (gidOf ch bank row (word / 8)) (s.blk.groupOpen ch bank row)) (4 * (word % 8)) 4) := by
  refine Completes.of_hub (exec_rdw s ch ⟨port, cls, keep⟩ bank row word) hu ?_
  simp only [settle_chan, settle_mem, settle_regs, SameMem, Blk.chRdw, hw, Bool.not_true, Bool.false_eq_true, if_false,
    Blk.pay_of_canPay hpay]
  split
  · exact ⟨rfl, rfl, Blk.moved_moved _ _ _⟩
  · generalize hd : bytesAt (groupData (s.blk.take ch cls 2).mem.cells (gidOf ch bank row (word / 8))) (32 * (word % 8)) 32 ++ _ = d
    have ho := OnlyChans.trans ⟨_, rfl⟩ (Blk.afterColumn_onlyChans ((s.blk.take ch cls 2).moved ch d) ch port cls bank keep)
    exact ⟨ho.mem, ho.regs, (Blk.afterColumn_moved _ _ d port cls bank keep).trans hd.symm⟩

/-- WRW. -/
theorem wrw_open {word : Nat} {keep : Bool} {d : Bytes} (hu : s.blk.hubUp = true) (hwf : s.memWf)
    (hw : s.blk.wordArgs ch port cls bank row word = true) (hd : d.length = 36) (hpay : s.blk.canPay ch cls 2 = true) :
    Completes (.wrw ch ⟨port, cls, keep⟩ bank row word d) s (fun b => b.regs = s.blk.regs
      ∧ bytesAt (groupData b.mem.cells (gidOf ch bank row (word / 8))) (32 * (word % 8)) 32 = d.take 32
      ∧ bytesAt (groupMargin b.mem.cells (gidOf ch bank row (word / 8)) (b.groupOpen ch bank row)) (4 * (word % 8)) 4 = d.drop 32
      ∧ (s.blk.rowFresh ch bank row = false → ∀ g, g < 0xC0000000 → g ≠ gidOf ch bank row (word / 8) →
          groupData b.mem.cells g = groupData s.blk.mem.cells g)) := by
  refine Completes.of_hub (exec_wrw s ch ⟨port, cls, keep⟩ bank row word d) hu ?_
  obtain ⟨⟨ha, hword⟩, -⟩ := wordArgs_iff.1 hw
  have hgid : gidOf ch bank row (word / 8) < 0xC0000000 := gidOf_lt_of_chanArgs ha (by omega)
  have ht : OnlyChans s.blk (s.blk.take ch cls 2) := ⟨_, rfl⟩
  have hmu : ((s.blk.take ch cls 2).rowInit cls ch bank row).MemOk := (Blk.MemOk.take hwf).rowInit
  obtain ⟨-, -, -, hregs, -⟩ := Blk.rowInit_eq (s.blk.take ch cls 2) cls ch bank row ch
  have hstale : s.blk.rowFresh ch bank row = false → (s.blk.take ch cls 2).rowInit cls ch bank row = s.blk.take ch cls 2 := fun h =>
    Blk.rowInit_of_stale (by rw [ht.rowFresh, h])
  have hset : ∀ x, (settle s.blk x).groupOpen ch bank row = x.groupOpen ch bank row := fun x => by
    rw [settle_eq]
    rfl
  simp only [settle_mem, settle_regs, hset, Blk.chWrw, hw, Bool.not_true, Bool.false_eq_true, if_false, Blk.pay_of_canPay hpay]
  generalize (s.blk.take ch cls 2).rowInit cls ch bank row = u at *
  rw [Blk.putGroup_eq]
  have ho := (Blk.moved_onlyChans (u.putGroup (gidOf ch bank row (word / 8)) (32 * (word % 8)) (bytesAt d 0 32)
    (u.groupOpen ch bank row) (4 * (word % 8)) (bytesAt d 32 4)) ch (bytesAt d 0 36)).trans
      (Blk.afterColumn_onlyChans _ ch port cls bank keep)
  refine ⟨ho.regs.trans hregs, ?_, ?_, fun hst g hg' hne => ?_⟩
  · rw [ho.mem, Blk.putGroup_data hmu hgid (length_bytesAt _ _ _) (by omega), bytesAt_of_le (by omega), List.drop_zero]
  · rw [ho.groupOpen]
    rw [ho.mem]
    refine (Blk.putGroup_margin hmu hgid (length_bytesAt _ _ _) (by omega) (length_bytesAt _ _ _) (by omega) _).trans ?_
    rw [bytesAt_of_le (by omega), List.take_of_length_le (by simp; omega)]
  · rw [ho.mem, Blk.putGroup_data_other hmu hgid (length_bytesAt _ _ _) (by omega) _ hg' hne, hstale hst]
    rfl

end

/-- Settles O19: a request at a quiet channel is served at once, and what follows a transfer touches only the channel. -/
theorem columnTransfers : Obligations.ColumnTransfers := by
  refine ⟨fun s ch port cls bank row grp half keep => rdh_open, ?_, ?_, fun s ch port cls bank row grp half keep d => wrh_open,
    fun s ch port cls bank row word keep => rdw_open, fun s ch port cls bank row word keep d => wrw_open⟩
  · intro s ch port cls bank row grp half keep w hu ha hdie hw hr hp hsame
    refine Completes.of_hub (exec_rdh s ch port cls bank row grp half keep) hu ?_
    rw [Blk.chRdh, if_pos ha, settle_chan]
    exact Blk.moved_request1_of_waiting hdie hw hr hp hsame
  · intro s ch port cls bank row grp half keep hu ha hg hh hc hq hf
    refine Completes.of_hub (exec_rdh s ch port cls bank row grp half keep) hu ?_
    rw [Blk.chRdh, if_pos (halfArgs_of ha hg hh hc (Blk.rowFresh_isSome hf))]
    obtain ⟨ho, hm, hrows⟩ := Blk.request1_of_fresh (r := ⟨port, cls, bank, row, grp, half, keep, s.blk.time.toNat, []⟩)
      hq (ne_cTrain_of hc) hf
    simp only [settle_chan, settle_mem, settle_regs, SameMem]
    exact ⟨hm, hrows, ho.mem, ho.regs⟩

end Sys2Proof.Machine
end

section
/-! Proofs: SEAL and UNSEAL, their checks, their first segment and the end of a segment's treatment (R78 to R82). -/

namespace Sys2Proof.Machine
open Sys2Proof

theorem MemFrame.held {a b : Blk} (h : MemFrame a b) : b.held = a.held := by
  obtain ⟨⟨_, _, _, _, rfl⟩, -⟩ := h
  rfl

theorem Blk.setSeg_memFrame (b : Blk) (seg : Nat) (x : Seg) : MemFrame b (b.setSeg seg x) := ⟨⟨_, _, _, _, rfl⟩, id⟩

section
variable (b : Blk)

theorem putGuarded_memFrame (g : Nat) (d : Bytes) (v : Nat) : MemFrame b (putGuarded b g d v) :=
  MemFrame.foldl (π := id) (fun _ _ => putQuarter_memFrame _ _ _ _ _) _ b

theorem Blk.sealGroup_memFrame (rq : Req) (g : Nat) : MemFrame b (b.sealGroup rq g).1 := by
  unfold Blk.sealGroup
  extract_lets d mpa row
  split
  · exact putGuarded_memFrame _ _ _ _
  · split
    · exact putGuarded_memFrame _ _ _ _
    · exact ((MemFrame.ite (.rfl' b) (logMem_memFrame _ _ _ _ _ _)).trans (putGuarded_memFrame _ _ _ _)).trans
        (logMem_memFrame _ _ _ _ _ _)

theorem Blk.unsealGroup_memFrame (rq : Req) (g : Nat) : MemFrame b (b.unsealGroup rq g).1 := by
  unfold Blk.unsealGroup
  extract_lets d m mpa fs fixed bad c e
  have hc : MemFrame b c := MemFrame.foldl (π := id) (fun x _ => Blk.corrected_memFrame x _) _ b
  have he : MemFrame b e := hc.trans
    (MemFrame.foldl (π := id) (fun x _ => .ite (logMem_memFrame _ _ _ _ _ _) (.rfl' x)) _ c)
  clear_value e
  split
  · exact (he.trans (putOpen_memFrame _ _ _ _ _)).trans (logMem_memFrame _ _ _ _ _ _)
  · split <;> exact he.trans (putOpen_memFrame _ _ _ _ _)

theorem Blk.dropMargins_memFrame (gs : List Nat) (o : Bool) : MemFrame b (b.dropMargins gs o) :=
  Blk.setCells_memFrame _ (Memory.wf_cellsDrop _)

/-- The treatment of a segment: the segment is in the target class, and the command's waiting accesses stay. -/
theorem Blk.convertSeg_spec (c : Conv) (seg path : Nat) : MemFrame b (b.convertSeg c seg path).1
    ∧ ((b.convertSeg c seg path).1.seg seg).isOpen = !c.toGuarded ∧ (b.convertSeg c seg path).2.toGuarded = c.toGuarded := by
  refine ⟨?_, congrArg Seg.isOpen ((Blk.seg_setSeg _ _ _ _).trans (if_pos rfl)), rfl⟩
  refine MemFrame.trans ?_ ((Blk.dropMargins_memFrame _ _ _).trans (Blk.setSeg_memFrame _ _ _))
  refine MemFrame.foldl (π := fun a : Blk × Nat × Nat => a.1) (fun a g => ?_) _ (b, 0, 0)
  dsimp only
  split
  · exact Blk.sealGroup_memFrame _ _ _
  · exact Blk.unsealGroup_memFrame _ _ _

/-- Taking further segments leaves a segment that is in the target class there. -/
theorem Blk.convNext_spec (n : Nat) (k : Nat) : ∀ (b : Blk) (c : Conv), (b.seg k).isOpen = !c.toGuarded →
    MemFrame b (b.convNext n c).1 ∧ ((b.convNext n c).1.seg k).isOpen = !c.toGuarded := by
  induction n with
  | zero => exact fun b c h => ⟨.rfl' b, h⟩
  | succ n ih =>
    intro b c h
    unfold Blk.convNext
    split
    · exact ⟨.rfl' b, h⟩
    next j t _ =>
      dsimp only
      split
      · exact ⟨.rfl' b, h⟩
      · split
        · exact ih b { c with rest := t } h
        next hcls =>
          split
          · have hk : k ≠ j := by
              rintro rfl
              simp [h] at hcls
            obtain ⟨hm, ho⟩ := ih (b.setSeg j { b.seg j with isOpen := !c.toGuarded }) { c with rest := t }
              (by rw [Blk.seg_setSeg, if_neg hk]; exact h)
            exact ⟨(Blk.setSeg_memFrame _ _ _).trans hm, ho⟩
          · split
            · exact ⟨.rfl' b, h⟩
            · exact ih b { c with now := c.now ++ [j], rest := t } h

theorem Blk.convKeep_spec (c : Conv) : (b.convKeep c).held = b.held ∧ ∀ k, (b.convKeep c).seg k = b.seg k := by
  unfold Blk.convKeep
  dsimp only
  split <;> exact ⟨rfl, fun _ => rfl⟩

end

theorem Blk.releaseHeld_of_nil {b : Blk} (h : b.held = []) : b.releaseHeld = b := by simp [Blk.releaseHeld, h]

/-- The end of the treatment of a segment (R80, R81). -/
theorem conversionSegmentDone_class {s : State} {k : Nat} {c : Conv} (hu : s.blk.hubUp = true)
    (hc : s.blk.mem.convs.find? (fun c => c.now.contains k) = some c) (ht : c.toGuarded = true → s.blk.segTouched k = false)
    (hp : s.blk.segPays cHub k = true) (hh : s.blk.held = []) :
    Completes (.conversionSegmentDone k) s (fun b => (b.seg k).isOpen = !c.toGuarded) := by
  refine Completes.of_hub (exec_conversionSegmentDone s k) hu ?_
  have hgo : ¬ ((c.toGuarded && s.blk.segTouched k) || !s.blk.segPays cHub k) = true := by
    cases hg : c.toGuarded <;> simp [hp, ht, hg]
  simp only [settle_seg, Blk.convSegDone, hc, if_neg hgo]
  generalize ((s.blk.flight? c.q c.seq).map Flight.path).getD 0 = path
  obtain ⟨x, hx⟩ := s.blk.chargeSeg_eq cHub k 264
  rw [hx]
  obtain ⟨hw, ho, hg⟩ := Blk.convertSeg_spec { s.blk with chans := x } c k path
  generalize Blk.convertSeg { s.blk with chans := x } c k path = r at hw ho hg
  obtain ⟨d, e⟩ := r
  obtain ⟨hw', ho'⟩ := Blk.convNext_spec e.rest.length k d e (hg ▸ ho)
  dsimp only at hw hg ⊢
  generalize d.convNext e.rest.length e = r at hw' ho'
  obtain ⟨d', e'⟩ := r
  obtain ⟨hheld, hseg⟩ := Blk.convKeep_spec d' e'
  have hnil : (d'.convKeep e').held = [] := by
    rw [hheld]
    exact hw'.held.trans (hw.held.trans hh)
  dsimp only
  rw [Blk.releaseHeld_of_nil hnil, hseg, ← hg]
  exact ho'

/-! ### The start of a conversion -/

theorem Blk.fresh?_some {b : Blk} {q seq op : Nat} {f : Flight} (h : b.fresh? q seq op = some f) :
    b.flight? q seq = some f ∧ f.q = q ∧ f.seq = seq := by
  unfold Blk.fresh? Blk.running? at h
  split at h
  · rename_i g hg
    split at hg
    · split at hg
      · split at h
        · cases hg
          cases h
          have hf : b.flight? q seq = some f := by assumption
          exact ⟨hf, Blk.flight?_is hf⟩
        · cases h
      · cases hg
    · cases hg
  · cases h

/-- A conversion's entry, started, with the treatment of one segment ahead. -/
theorem Blk.convStart_one {b : Blk} {q seq op k : Nat} {f : Flight} {g : Bool} (hf : b.fresh? q seq op = some f)
    (hc : b.mem.convs = []) (hb : fld f.raw 0x20 8 = k * 0x200000) (hl : fld f.raw 0x28 8 = 0x200000)
    (hz : zeroAt f.raw 0x30 80 = true)
    (hr : (b.struc.rangeIn (k * 0x200000) 0x200000).any (fun r => r.convertible && r.owners.testBit q) = true)
    (ho : (b.seg k).isOpen = g) :
    b.convStart q seq op g = let c := b.updFlight q seq (fun f => { f with writes := [(k * 0x200000, 0x200000)], scope := max f.scope 2 })
      if (b.seg k).fresh then (c.setSeg k { b.seg k with isOpen := !g }).convKeep ⟨q, seq, g, [], [], 0, 0, 0⟩
      else c.convKeep ⟨q, seq, g, [k], [], 0, 0, 0⟩ := by
  obtain ⟨r, hreg, hok⟩ : ∃ r, b.struc.rangeIn (k * 0x200000) 0x200000 = some r ∧ (r.convertible && r.owners.testBit q) = true := by
    simpa [Option.any_eq_true] using hr
  have hsegs : (List.range (0x200000 / 0x200000)).map (k * 0x200000 / 0x200000 + ·) = [k] := by
    simp [List.range_succ]
  unfold Blk.convStart
  rw [hf]
  dsimp only
  rw [hb, hl, hc, hz, hsegs, hreg, if_neg (by simp), if_neg (by simp), if_neg (by simp [hok])]
  simp only [List.length_singleton, Blk.convNext]
  have hs : (b.updFlight q seq (fun f => { f with writes := [(k * 0x200000, 0x200000)], scope := max f.scope 2 })).seg k = b.seg k := rfl
  rw [hs, ho]
  by_cases hfr : (b.seg k).fresh = true <;> simp [hfr]

/-- The end of a conversion that had nothing to treat. -/
theorem Blk.convKeep_empty {b : Blk} {q seq : Nat} {g : Bool} : b.convKeep ⟨q, seq, g, [], [], 0, 0, 0⟩
    = Blk.finish { b with mem := { b.mem with convs := b.mem.convs.filter (fun k => !(k.q == q && k.seq == seq)) } }
        q seq stOK 0 0 := by
  simp [Blk.convKeep, Conv.status]

theorem Blk.convKeep_one {b : Blk} {q seq k : Nat} {g : Bool} (h : b.mem.convs = []) : b.convKeep ⟨q, seq, g, [k], [], 0, 0, 0⟩
    = { b with mem := { b.mem with convs := [⟨q, seq, g, [k], [], 0, 0, 0⟩] } } := by
  simp [Blk.convKeep, h]

/-- SEAL and UNSEAL of one segment of the other class. -/
theorem convStart_completes {s : State} {c : Instr} {q seq op k : Nat} {f : Flight} {g : Bool}
    (hx : exec c s = hubAct s (fun b => b.convStart q seq op g)) (hu : s.blk.hubUp = true) (hf : s.blk.fresh? q seq op = some f)
    (hc : s.blk.mem.convs = []) (hb : fld f.raw 0x20 8 = k * 0x200000) (hl : fld f.raw 0x28 8 = 0x200000)
    (hz : zeroAt f.raw 0x30 80 = true)
    (hr : (s.blk.struc.rangeIn (k * 0x200000) 0x200000).any (fun r => r.convertible && r.owners.testBit q) = true)
    (ho : (s.blk.seg k).isOpen = g) :
    Completes c s (fun b =>
      ((s.blk.seg k).fresh = true → b.seg k = ⟨!g, true⟩ ∧ b.mem.cells = s.blk.mem.cells
        ∧ FinishedWith b f (finalStatus stOK f.flags f.preempted) 0)
      ∧ ((s.blk.seg k).fresh = false → b.mem = { s.blk.mem with convs := [⟨q, seq, g, [k], [], 0, 0, 0⟩] })) := by
  refine Completes.of_hub hx hu ?_
  rw [Blk.convStart_one hf hc hb hl hz hr ho]
  refine ⟨fun h => ?_, fun h => ?_⟩
  · simp only [if_pos h, settle_seg, settle_mem, FinishedWith, settle_flight?, Blk.convKeep_empty]
    refine ⟨?_, rfl, ?_⟩
    · refine (Blk.seg_setSeg s.blk k _ k).trans ?_
      rw [if_pos rfl, ← h]
    · obtain ⟨hfl, rfl, rfl⟩ := Blk.fresh?_some hf
      rw [Blk.flight?_finish]
      generalize hy : (fun f : Flight => { f with writes := [(k * 0x200000, 0x200000)], scope := max f.scope 2 }) = y
      have hup : (s.blk.updFlight f.q f.seq y).flight? f.q f.seq = some (y f) := by
        rw [Blk.flight?_updFlight _ (fun x hx => by subst hy; exact hx), hfl, Option.map_some]
      refine ⟨_, congrArg _ (hup : _ = _), rfl, ?_, rfl⟩
      subst hy
      simp
  · simp only [h, Bool.false_eq_true, if_false, settle_mem]
    rw [Blk.convKeep_one (by exact hc)]
    rfl

/-- Settles O16: the checks, the first segment and the end of a segment's treatment. -/
theorem conversions : Obligations.Conversions := by
  refine ⟨fun s q seq f k hu hf hc hb hl hz hr ho => convStart_completes (exec_sealSegs s q seq) hu hf hc hb hl hz hr ho,
    fun s q seq f k hu hf hc hb hl hz hr ho => convStart_completes (exec_unsealSegs s q seq) hu hf hc hb hl hz hr ho,
    fun s q seq f hu hf hc hb => ?_, fun s q seq f hu hf hc hb hl h0 hz hr => ?_, fun s k c => conversionSegmentDone_class⟩
  · refine Completes.hubFrame (exec_sealSegs s q seq) hu ?_
    simp [Blk.convStart, hf, hc, hb]
  · refine Completes.hubFrame (exec_unsealSegs s q seq) hu ?_
    cases h : s.blk.struc.rangeIn (fld f.raw 0x20 8) (fld f.raw 0x28 8) with
    | none => simp [Blk.convStart, hf, hc, hb, hl, h0, hz, h]
    | some r =>
      have hno : (r.convertible && r.owners.testBit q) = false := by simpa [h] using hr
      simp [Blk.convStart, hf, hc, hb, hl, h0, hz, h, hno]

end Sys2Proof.Machine
end

section
/-! Proofs: the fields of step words, and a unit's step at a bank sequencer where nothing else is under way (R130, R144). -/

namespace Sys2Proof.Machine
open Sys2Proof

/-! ### The fields of a step word -/

theorem bits_eq (n hi lo : Nat) : bits n hi lo = n / 2 ^ lo % 2 ^ (hi + 1 - lo) := by rw [bits, Nat.shiftRight_eq_div_pow]

theorem testBit_eq (n k : Nat) : n.testBit k = decide (n / 2 ^ k % 2 = 1) := Nat.testBit_eq_decide_div_mod_eq

theorem sides_one : sides 1 = [0] := rfl
theorem sides_two : sides 2 = [1] := rfl

/-- The word of a CACT step of one side. -/
def cactWord (side pend row : Nat) : Nat := 3 * 2 ^ 60 + 2 ^ (42 + side) + pend * 2 ^ 41 + row * 2 ^ (26 - 15 * side)

section
variable {side pend row : Nat} (hs : side < 2) (hr : row < 32768) (hp : pend < 2)
include hs hr

theorem row_cactWord : (if side = 0 then bits (eBody (cactWord side pend row)) 40 26
    else bits (eBody (cactWord side pend row)) 25 11) = row := by
  obtain rfl | rfl : side = 0 ∨ side = 1 := by omega
  · rw [if_pos rfl]; simp only [eBody, cactWord, bits_eq]; omega
  · rw [if_neg (by decide)]; simp only [eBody, cactWord, bits_eq]; omega

include hp

theorem eKind_cactWord : eKind (cactWord side pend row) = 3 := by
  obtain rfl | rfl : side = 0 ∨ side = 1 := by omega
  all_goals simp only [eKind, cactWord, bits_eq]; omega

theorem sides_cactWord : sides (bits (eBody (cactWord side pend row)) 43 42) = [side] := by
  obtain rfl | rfl : side = 0 ∨ side = 1 := by omega
  · rw [show bits (eBody (cactWord 0 pend row)) 43 42 = 1 by simp only [eBody, cactWord, bits_eq]; omega, sides_one]
  · rw [show bits (eBody (cactWord 1 pend row)) 43 42 = 2 by simp only [eBody, cactWord, bits_eq]; omega, sides_two]

theorem pend_cactWord : (eBody (cactWord side pend row)).testBit 41 = decide (pend = 1) := by
  rw [testBit_eq]
  obtain rfl | rfl : side = 0 ∨ side = 1 := by omega
  all_goals exact decide_eq_decide.2 (by simp only [eBody, cactWord]; omega)

end

/-! ### A unit begins a step -/

theorem Blk.unitsIdle_iff {b : Blk} : b.unitsIdle = true ↔ b.hubUp = true ∧ b.cu.jobs = [] ∧ b.cu.waiting = [] := by
  simp [Blk.unitsIdle, and_assoc]

theorem Blk.sweep_of_idle {b : Blk} (hj : b.cu.jobs = []) (hw : b.cu.waiting = []) : b.sweep = b := by simp [Blk.sweep, hj, hw]

/-- The block in which a unit carries its step out. -/
def Blk.stepAt (b : Blk) (u half : Nat) (x : SeqSt) : Blk :=
  (b.take (unitCh u) cCompute half).setUnit u ((b.unit u).stepping x)

section
variable (b : Blk) (u half : Nat) (x : SeqSt)

@[simp] theorem Blk.stepAt_unit : (b.stepAt u half x).unit u = (b.unit u).stepping x := Blk.unit_setUnit_same _ _ _
@[simp] theorem Blk.stepAt_mem : (b.stepAt u half x).mem = b.mem := rfl
@[simp] theorem Blk.stepAt_regs : (b.stepAt u half x).regs = b.regs := rfl
@[simp] theorem Blk.stepAt_ctr : (b.stepAt u half x).ctr = b.ctr := rfl
@[simp] theorem Blk.stepAt_jobs : (b.stepAt u half x).cu.jobs = b.cu.jobs := rfl
@[simp] theorem Blk.stepAt_waiting : (b.stepAt u half x).cu.waiting = b.cu.waiting := rfl
@[simp] theorem Blk.stepAt_rowStatus (ch bank row : Nat) (new : Bool) :
    (b.stepAt u half x).rowStatus ch bank row new = b.rowStatus ch bank row new := rfl
@[simp] theorem Blk.stepAt_rowFresh (ch bank row : Nat) : (b.stepAt u half x).rowFresh ch bank row = b.rowFresh ch bank row := rfl

end

section
variable {b : Blk} {u w : Nat} {x : SeqSt}

theorem Blk.stepsAt_iff : b.stepsAt u w x = true ↔
    b.hubUp = true ∧ (b.unit u).seq = some x ∧ (b.unit u).entry x = w ∧ b.stepReady u = true := by
  simp [Blk.stepsAt, and_assoc]

/-- A unit takes the step at which it stands, where it can pay for it. -/
theorem Blk.runStep_eq (h : b.stepsAt u w x = true) {kind half : Nat} (hk : eKind w = kind)
    (hh : 3 * cdiv ((b.unit u).accBytes w) 128 = half) (hp : b.canPay (unitCh u) cCompute half = true) :
    (kind = 3 → b.runStep u kind = (b.stepAt u half x).stepCact u (eBody w) true x.cmd.own)
    ∧ (kind = 4 → b.runStep u kind = (b.stepAt u half x).stepCrd u (eBody w) (adjSet w x.n (bits (eBody w) 32 31))
        (((b.unit u).stepping x).adjLat w x.n (bits (eBody w) 24 17)) x.cmd.own)
    ∧ (kind = 5 → b.runStep u kind = (b.stepAt u half x).stepCwr u (eBody w)
        (((b.unit u).stepping x).adjLat w x.n (bits (eBody w) 36 29)) x.cmd.own)
    ∧ (kind = 6 → b.runStep u kind = (b.stepAt u half x).stepAccRd u (eBody w)
        ((List.range (bits (eBody w) 39 38 + 1)).map (fun i => (adjSet w x.n (bits (eBody w) 41 40) + i) % 4))
        ((if w.testBit 58 then bits (eBody w) 29 14 + x.n * (2 * ((b.unit u).stepping x).nvec
            * ((List.range (bits (eBody w) 39 38 + 1)).map (fun i => (adjSet w x.n (bits (eBody w) 41 40) + i) % 4)).length)
          else bits (eBody w) 29 14) % 65536)
        (((b.unit u).stepping x).adjLat w x.n (bits (eBody w) 13 6)) x.cmd (decide (x.i = x.last) && decide (x.n + 1 = x.reps))) := by
  obtain ⟨-, hseq, hent, hready⟩ := Blk.stepsAt_iff.1 h
  refine ⟨?_, ?_, ?_, ?_⟩ <;> rintro rfl <;> rw [Blk.runStep, hseq] <;> dsimp only <;> rw [hent, hk, hready, hh, Blk.pay_of_canPay hp] <;>
    simp only [bne_self_eq_false, Bool.not_true, Bool.or_self, Bool.false_eq_true, if_false, if_true, Nat.reduceEqDiff,
      Blk.unit_setUnit_same, Blk.stepAt, UnitSt.stepping]

end

end Sys2Proof.Machine
end

section
/-! Proofs: CACT as a step and as a direct command (R72, R133, R144). -/

namespace Sys2Proof.Machine
open Sys2Proof

section
variable {s : State} {u : Nat}

/-- A unit's step at an idle bank sequencer, whose outcome leaves it idle. -/
theorem Completes.of_step {c : Instr} {kind : Nat} {P : Blk → Prop} {t : Blk}
    (hx : exec c s = hubAct s (fun b => (b.stepCmd kind (.unit u)).sweep)) (hi : s.blk.unitsIdle = true)
    (hr : s.blk.runStep u kind = t) (hj : t.cu.jobs = s.blk.cu.jobs) (hw : t.cu.waiting = s.blk.cu.waiting)
    (hp : P (settle s.blk t)) : Completes c s P := by
  obtain ⟨hu, hjobs, hwait⟩ := Blk.unitsIdle_iff.1 hi
  refine Completes.of_hub hx hu ?_
  rw [Blk.stepCmd, hr, Blk.sweep_of_idle (hj.trans hjobs) (hw.trans hwait)]
  exact hp

end

section
variable {b : Blk} {u side pend row : Nat}

theorem Blk.canPay_zero (b : Blk) (ch cls : Nat) : b.canPay ch cls 0 = true := by simp [Blk.canPay]

theorem accBytes_of_ne (x : UnitSt) {w : Nat} (h : eKind w ≠ 6) : x.accBytes w = 0 := by simp [UnitSt.accBytes, h]

/-- A row that may be opened and is not fresh opens as it is. -/
theorem Blk.openRow_ok {own : Option (Nat × Nat)} (hst : b.rowStatus (unitCh u) (unitBank u side) row true = 0)
    (hf : b.rowFresh (unitCh u) (unitBank u side) row = false) : b.openRow u side row true own = (b, true) := by
  simp only [Blk.openRow, hst, if_true]
  rw [if_neg]
  cases hm : b.struc.rowMpa (unitCh u) (unitBank u side) row with
  | none => simp [Blk.rowStatus, hm, stRANGE] at hst
  | some a =>
    cases hr : b.struc.isRetired (a / 0x200000) with
    | true => simp [Blk.rowStatus, hm, hr, stRANGE] at hst
    | false => simpa [Blk.rowFresh, Blk.rowSeg, hm, hr] using hf

/-- A CACT of a row that may be opened. -/
theorem Blk.stepCact_ok {own : Option (Nat × Nat)} (hs : side < 2) (hp : pend < 2) (hr : row < 32768)
    (hst : b.rowStatus (unitCh u) (unitBank u side) row true = 0)
    (hf : b.rowFresh (unitCh u) (unitBank u side) row = false) :
    b.stepCact u (eBody (cactWord side pend row)) true own
      = b.setUnit u (if pend = 1 ∧ ((b.unit u).cur.getD side none).any (fun c => c % 8 == row % 8) = false
          then { b.unit u with pend := (b.unit u).pend.set side (some row) }
          else { b.unit u with cur := (b.unit u).cur.set side (some row) }) := by
  simp only [Blk.stepCact, sides_cactWord hs hr hp, List.foldl_cons, List.foldl_nil, row_cactWord hs hr, Blk.openRow_ok hst hf,
    pend_cactWord hs hr hp, Bool.not_true, Bool.false_eq_true, if_false, setRow]
  by_cases h : pend = 1 ∧ ((b.unit u).cur.getD side none).any (fun c => c % 8 == row % 8) = false
  · rw [if_pos h, if_pos (by rw [h.2, h.1]; rfl)]
  · rw [if_neg h, if_neg]
    simpa using h

/-- A CACT of a row that is refused. -/
theorem Blk.stepCact_refused {own : Option (Nat × Nat)} (hs : side < 2) (hp : pend < 2) (hr : row < 32768)
    (hst : b.rowStatus (unitCh u) (unitBank u side) row true ≠ 0) :
    b.stepCact u (eBody (cactWord side pend row)) true own
      = b.refuseRow u side row (b.rowStatus (unitCh u) (unitBank u side) row true) own := by
  simp only [Blk.stepCact, sides_cactWord hs hr hp, List.foldl_cons, List.foldl_nil, row_cactWord hs hr, Blk.openRow, if_neg hst,
    Bool.not_false, if_true]

/-- What a refused row leaves of a unit: its rows, and a sequence that stops (R72). -/
theorem Blk.refuseRow_unit {st : Nat} {own : Option (Nat × Nat)} :
    ((b.refuseRow u side row st own).unit u).cur = (b.unit u).cur ∧ ((b.refuseRow u side row st own).unit u).pend = (b.unit u).pend
    ∧ ((b.refuseRow u side row st own).unit u).seq.map SeqSt.stop = (b.unit u).seq.map (fun _ => st) := by
  have hb : ∀ k a, (b.logE k a).unit u = b.unit u := fun k a => by
    unfold Blk.logE
    split <;> rfl
  simp only [Blk.refuseRow, Blk.unit_setUnit_same, logMem, hb]
  generalize b.unit u = y
  split <;> cases hq : y.seq <;> simp [UnitSt.error, hq]

end

section
variable {s : State} {u side pend row : Nat} {x : SeqSt}

theorem cact_opens (hi : s.blk.unitsIdle = true) (hs : side < 2) (hp : pend < 2) (hr : row < 32768)
    (hat : s.blk.stepsAt u (cactWord side pend row) x = true)
    (hst : s.blk.rowStatus (unitCh u) (unitBank u side) row true = 0)
    (hf : s.blk.rowFresh (unitCh u) (unitBank u side) row = false) :
    Completes (.cact (.unit u)) s (fun b =>
      b.unit u =
        (if pend = 1 ∧ ((s.blk.unit u).cur.getD side none).any (fun c => c % 8 == row % 8) = false
         then { (s.blk.unit u).stepping x with pend := (s.blk.unit u).pend.set side (some row) }
         else { (s.blk.unit u).stepping x with cur := (s.blk.unit u).cur.set side (some row) })
      ∧ SameMem s.blk b ∧ b.regs = s.blk.regs) := by
  have hk := eKind_cactWord hs hr hp
  have hzero : 3 * cdiv ((s.blk.unit u).accBytes (cactWord side pend row)) 128 = 0 := by
    rw [accBytes_of_ne _ (by rw [hk]; decide)]
    rfl
  obtain ⟨hrun, -⟩ := Blk.runStep_eq hat hk hzero (Blk.canPay_zero _ _ _)
  refine Completes.of_step (exec_cact s (.unit u)) hi ((hrun rfl).trans (Blk.stepCact_ok hs hp hr hst hf)) rfl rfl ?_
  simp only [settle_unit, settle_mem, settle_regs, SameMem, Blk.unit_setUnit_same, Blk.stepAt_unit]
  exact ⟨rfl, rfl, rfl⟩

theorem cact_refused (hi : s.blk.unitsIdle = true) (hs : side < 2) (hp : pend < 2) (hr : row < 32768)
    (hat : s.blk.stepsAt u (cactWord side pend row) x = true)
    (hst : s.blk.rowStatus (unitCh u) (unitBank u side) row true ≠ 0) :
    Completes (.cact (.unit u)) s (fun b => (b.unit u).cur = (s.blk.unit u).cur ∧ (b.unit u).pend = (s.blk.unit u).pend
      ∧ (b.unit u).seq.map SeqSt.stop = some (s.blk.rowStatus (unitCh u) (unitBank u side) row true) ∧ SameMem s.blk b) := by
  have hk := eKind_cactWord hs hr hp
  have hzero : 3 * cdiv ((s.blk.unit u).accBytes (cactWord side pend row)) 128 = 0 := by
    rw [accBytes_of_ne _ (by rw [hk]; decide)]
    rfl
  obtain ⟨hrun, -⟩ := Blk.runStep_eq hat hk hzero (Blk.canPay_zero _ _ _)
  have hcu : ∀ b : Blk, ∀ st own, (b.refuseRow u side row st own).cu.jobs = b.cu.jobs
      ∧ (b.refuseRow u side row st own).cu.waiting = b.cu.waiting ∧ (b.refuseRow u side row st own).mem = b.mem := fun b st own => by
    simp [Blk.refuseRow, Blk.setUnit, logMem, Blk.logE_cu, Blk.logE_mem]
  refine Completes.of_step (exec_cact s (.unit u)) hi ((hrun rfl).trans (Blk.stepCact_refused hs hp hr hst)) (hcu _ _ _).1 (hcu _ _ _).2.1 ?_
  obtain ⟨h1, h2, h3⟩ := Blk.refuseRow_unit (b := s.blk.stepAt u 0 x) (u := u) (side := side) (row := row)
    (st := s.blk.rowStatus (unitCh u) (unitBank u side) row true) (own := x.cmd.own)
  simp only [settle_unit, settle_mem, SameMem, Blk.stepAt_rowStatus, h1, h2, h3, (hcu _ _ _).2.2, Blk.stepAt_unit]
  exact ⟨rfl, rfl, rfl, rfl⟩

end

end Sys2Proof.Machine
end

section
/-! Proofs: a direct CACT (R133, R144): its unit gets a slot at once and takes the one step. -/

namespace Sys2Proof.Machine
open Sys2Proof

section
variable {ch m : Nat} (hm : m < 16)
include hm

theorem unitPair_unitNo : unitPair (unitNo ch m) = m := by
  simp only [unitPair, unitNo]
  omega

theorem unitCh_unitNo : unitCh (unitNo ch m) = ch := by
  simp only [unitCh, unitNo]
  omega

theorem unitDie_unitNo : unitDie (unitNo ch m) = ch / 2 := by
  simp only [unitDie, unitNo]
  omega

theorem bitsSet_pow : bitsSet (2 ^ m) 16 = [m] := by
  interval_cases m <;> decide

end

/-- The body of a direct CACT of one side. -/
def cactBody (side row : Nat) : Nat := 2 ^ (42 + side) + row * 2 ^ (26 - 15 * side)

/-- A direct CACT of one unit. -/
def cactCmd (ch m side row : Nat) : UCmd := directCmd ch 3 (2 ^ m) (cactBody side row)

section
variable {ch m side row : Nat} (hs : side < 2) (hr : row < 32768)
include hs hr

theorem word_cactCmd : (cactCmd ch m side row).word = cactWord side 0 row := by
  obtain rfl | rfl : side = 0 ∨ side = 1 := by omega
  all_goals simp only [UCmd.word, cactCmd, directCmd, cactBody, cactWord]; omega

theorem entryOk_cactWord (wfmt : Nat) : entryOk wfmt (cactWord side 0 row) = true := by
  have hk := eKind_cactWord hs hr (pend := 0) (by decide)
  have hz : bits (cactWord side 0 row) 56 44 = 0 := by
    obtain rfl | rfl : side = 0 ∨ side = 1 := by omega
    all_goals simp only [cactWord, bits_eq]; omega
  have hlow : bits (eBody (cactWord side 0 row)) 10 0 = 0 := by
    obtain rfl | rfl : side = 0 ∨ side = 1 := by omega
    all_goals simp only [eBody, cactWord, bits_eq]; omega
  have hside : bits (eBody (cactWord side 0 row)) 43 42 ≠ 0 := by
    obtain rfl | rfl : side = 0 ∨ side = 1 := by omega
    all_goals simp only [eBody, cactWord, bits_eq]; omega
  simp [entryOk, hk, hz, hlow, hside]

end

/-- The sequence of a direct command. -/
def directSeq (c : UCmd) (age : Nat) : SeqSt :=
  { direct := some c.word, first := 0, last := 0, reps := 1, n := 0, i := 0, inStep := false, begun := false, age := age,
    yielded := false, preempted := false, stop := 0, erred := 0, cmd := c }

/-- The only unit that has state, with the number of the next order that the slots give. -/
def Blk.oneUnit (b : Blk) (u : Nat) (x : UnitSt) (age : Nat) : Blk := { b with cu := { b.cu with units := [(u, x)], age := age } }

/-- A unit whose sequence has a slot. -/
def UnitSt.granted (x : UnitSt) (y : SeqSt) (g : Nat) : UnitSt :=
  { x with slot := some g, released := none, wants := none, seq := some { y with yielded := false } }

section
variable {b : Blk} {u : Nat} {c : UCmd}

theorem Blk.oneUnit_unit (x : UnitSt) (age : Nat) : (b.oneUnit u x age).unit u = x := by simp [Blk.oneUnit, Blk.unit, tget]

theorem Blk.setUnit_oneUnit (x y : UnitSt) (age : Nat) : (b.oneUnit u x age).setUnit u y = b.oneUnit u y age := by
  simp [Blk.setUnit, Blk.oneUnit, tset]

theorem Blk.grantN_of_none {die : Nat} (h : b.nextGrant die = none) (n : Nat) : b.grantN die n = b := by
  cases n with
  | zero => rfl
  | succ n => rw [Blk.grantN, h, ite_self]

/-- Nothing but one unit of the die may hold or want a slot, and it gets one. -/
theorem Blk.grant_one {x : UnitSt} {y : SeqSt} {age : Nat} (hs : x.slot = none) (hq : x.seq = some y) (hn : y.needs = true)
    (hal : 1 ≤ (b.die (unitDie u)).allow) (ha : (b.die (unitDie u)).sr = .awake)
    (he : (b.eligMask (unitDie u)).testBit (u % 32) = true) (hwd : b.sdg.withdrawn = []) :
    (b.oneUnit u x age).grant (unitDie u) = b.oneUnit u (x.granted y age) (age + 1) := by
  obtain ⟨r, hrank⟩ : ∃ r, x.waitRank = some r := by
    simp only [UnitSt.waitRank, hq, hs, hn]
    split
    · simp at *
    · split
      · exact ⟨_, rfl⟩
      · split <;> exact ⟨_, rfl⟩
  have hnext : (b.oneUnit u x age).nextGrant (unitDie u) = some u := by
    have he' : ((b.oneUnit u x age).eligMask (unitDie u)).testBit (u % 32) = true := he
    have ha' : ((b.oneUnit u x age).die (unitDie u)).sr = .awake := ha
    have hu : (b.oneUnit u x age).cu.units = [(u, x)] := rfl
    have hwd' : (b.oneUnit u x age).sdg.withdrawn = [] := hwd
    simp [Blk.nextGrant, hu, hq, he', hwd', ha', hrank]
  have hlt : ((b.oneUnit u x age).holders (unitDie u)).length < ((b.oneUnit u x age).die (unitDie u)).allow := by
    have hhold : (b.oneUnit u x age).holders (unitDie u) = [] := by simp [Blk.holders, Blk.oneUnit, hs]
    rw [hhold]
    exact hal
  have hdone : (b.oneUnit u (x.granted y age) (age + 1)).nextGrant (unitDie u) = none := by
    simp [Blk.nextGrant, Blk.oneUnit, UnitSt.waitRank, UnitSt.granted]
  rw [Blk.grant, Blk.grantN, if_pos hlt, hnext]
  dsimp only
  rw [Blk.oneUnit_unit, hq, Option.map_some, Blk.setUnit_oneUnit]
  have hage : ∀ z : UnitSt, ({ b.oneUnit u z age with cu := { (b.oneUnit u z age).cu with age := (b.oneUnit u z age).cu.age + 1 } } : Blk)
      = b.oneUnit u z (age + 1) := fun _ => rfl
  rw [hage]
  exact Blk.grantN_of_none hdone 15

/-- A sequence begins in the only unit that has state, and gets a slot. -/
theorem Blk.beginSeq_one (hu : b.cu.units = [(u, b.unit u)]) (hpim : (b.unit u).inPim = true)
    (hslot : (b.unit u).slot = none) (href : (b.die (unitDie u)).refused = false) (ha : (b.die (unitDie u)).sr = .awake)
    (hal : 1 ≤ (b.die (unitDie u)).allow) (he : (b.eligMask (unitDie u)).testBit (u % 32) = true) (hwd : b.sdg.withdrawn = [])
    (hn : (directSeq c b.cu.age).needs = true) :
    b.beginSeq u (some c.word) 0 0 1 c
      = b.oneUnit u ((b.unit u).granted (directSeq c b.cu.age) (b.cu.age + 1)) (b.cu.age + 2) := by
  have hset : b.setUnit u { b.unit u with seq := some (directSeq c b.cu.age) }
      = b.oneUnit u { b.unit u with seq := some (directSeq c b.cu.age) } b.cu.age := by
    simp [Blk.setUnit, Blk.oneUnit, hu, tset]
  have hbegin : b.beginSeq u (some c.word) 0 0 1 c
      = ((b.oneUnit u { b.unit u with seq := some (directSeq c b.cu.age) } (b.cu.age + 1)).yieldIf u).grant (unitDie u) := by
    have hd : b.beginSeq u (some c.word) 0 0 1 c = (let d := (b.setUnit u { b.unit u with seq := some (directSeq c b.cu.age) }).wakeDie (unitDie u)
        (({ d with cu := { d.cu with age := d.cu.age + 1 } }).yieldIf u).grant (unitDie u)) := by
      simp only [Blk.beginSeq, hpim, href, Bool.not_true, Bool.false_eq_true, if_false]
      rfl
    rw [hd, hset, Blk.wakeDie_of_awake (by exact ha)]
    rfl
  have hyield : (b.oneUnit u { b.unit u with seq := some (directSeq c b.cu.age) } (b.cu.age + 1)).yieldIf u
      = b.oneUnit u { b.unit u with seq := some (directSeq c b.cu.age) } (b.cu.age + 1) := by
    simp [Blk.yieldIf, Blk.mustYield, Blk.oneUnit_unit, hslot]
  rw [hbegin, hyield]
  exact Blk.grant_one hslot rfl hn hal ha he hwd

end

end Sys2Proof.Machine
end

section
/-! Proofs: a direct CACT, from its issue to its step (R133, R144). -/

namespace Sys2Proof.Machine
open Sys2Proof

section
variable {b : Blk} {ch m side row : Nat} (hm : m < 16) (hs : side < 2) (hr : row < 32768)

theorem Blk.unitTakes_iff {half : Nat} : b.unitTakes ch m half = true ↔ b.unitsIdle = true ∧ ch < 384 ∧ m < 16
    ∧ (b.unit (unitNo ch m)).seq = none ∧ (b.pair ch m).urgent = false ∧ b.canPay ch cCompute half = true := by
  have hp : (b.pay ch cCompute half).isSome = b.canPay ch cCompute half := by
    rw [Blk.pay]
    cases b.canPay ch cCompute half <;> rfl
  simp [Blk.unitTakes, hp, and_assoc]

section
include hs hr

/-- A unit in compute mode takes a direct CACT as a sequence of one step. -/
theorem Blk.directUnit_cactCmd (hpim : (b.unit (unitNo ch m)).inPim = true) :
    b.directUnit (cactCmd ch m side row) (unitNo ch m)
      = (b.beginSeq (unitNo ch m) (some (cactCmd ch m side row).word) 0 0 1 (cactCmd ch m side row)).runStep (unitNo ch m) 3 := by
  have haim : b.aimRefused (unitNo ch m) [(cactCmd ch m side row).word] [] = none := by
    simp [Blk.aimRefused, word_cactCmd hs hr, eKind_cactWord hs hr (show 0 < 2 by decide)]
  rw [Blk.directUnit, haim]
  simp only [hpim, Bool.not_true, Bool.false_eq_true, if_false, word_cactCmd hs hr, entryOk_cactWord hs hr]
  rfl

theorem needs_cactSeq (age : Nat) : (directSeq (cactCmd ch m side row) age).needs = true := by
  have hk := eKind_cactWord hs hr (show 0 < 2 by decide)
  simp [SeqSt.needs, directSeq, word_cactCmd hs hr]
  rw [← eKind, hk]
  decide

end

include hm

theorem units_cactCmd : (cactCmd ch m side row).units = [unitNo ch m] := by
  have hmask : 2 ^ m % 65536 = 2 ^ m := Nat.mod_eq_of_lt (Nat.pow_lt_pow_right (by decide) hm : 2 ^ m < 2 ^ 16)
  simp [UCmd.units, cactCmd, directCmd, hmask, bitsSet_pow hm]

/-- A direct CACT that its channel can pay for comes to its unit. -/
theorem Blk.submit_cactCmd (h : b.unitTakes ch m 2 = true) : b.submit (cactCmd ch m side row)
    = (b.take ch cCompute 2).directUnit (cactCmd ch m side row) (unitNo ch m) := by
  obtain ⟨hi, -, -, hseq, hurg, hpay⟩ := Blk.unitTakes_iff.1 h
  obtain ⟨-, hj, hw⟩ := Blk.unitsIdle_iff.1 hi
  have hcharge : b.cmdCharge (cactCmd ch m side row) = 2 := by simp [Blk.cmdCharge, cactCmd, directCmd, cdiv]
  have hch : (cactCmd ch m side row).ch = ch := rfl
  have hclaim : b.claim (cactCmd ch m side row) [] b.cu.jobs = none := by rw [hj]; rfl
  have hseq' : ((b.take ch cCompute 2).unit (unitNo ch m)).seq = none := hseq
  have hw' : (b.take ch cCompute 2).cu.waiting = [] := hw
  have hheld : (b.take ch cCompute 2).holdsCmd (b.take ch cCompute 2).cu.waiting (cactCmd ch m side row) = false := by
    simp [Blk.holdsCmd, units_cactCmd hm, hseq', hw', Blk.takesSlot, show (cactCmd ch m side row).op = 3 from rfl]
  rw [Blk.submit, units_cactCmd hm, hch, hcharge, Blk.pay_of_canPay hpay, hclaim, if_neg (by simp [unitPair_unitNo hm, hurg])]
  dsimp only
  rw [Blk.passCmd, hheld, Blk.unitCmd, units_cactCmd hm]
  rfl

include hs hr

/-- The unit that has a slot for its one step is ready to take it. -/
theorem Blk.stepsAt_cactSeq {g age age' : Nat} (hhub : b.hubUp = true) (hurg : (b.pair ch m).urgent = false)
    (href : (b.die (ch / 2)).refused = false) (ha : (b.die (ch / 2)).sr = .awake) :
    (b.oneUnit (unitNo ch m) ((b.unit (unitNo ch m)).granted (directSeq (cactCmd ch m side row) age) g) age').stepsAt
      (unitNo ch m) (cactWord side 0 row) (directSeq (cactCmd ch m side row) age) = true := by
  have hk := eKind_cactWord hs hr (show 0 < 2 by decide)
  refine Blk.stepsAt_iff.2 ⟨hhub, by rw [Blk.oneUnit_unit]; rfl, word_cactCmd hs hr, ?_⟩
  have hsets : setsWritten (cactWord side 0 row) 0 = [] := by simp [setsWritten, hk]
  have hent : ((b.unit (unitNo ch m)).granted (directSeq (cactCmd ch m side row) age) g).entry
      { directSeq (cactCmd ch m side row) age with yielded := false } = cactWord side 0 row := word_cactCmd hs hr
  have hurg' : ((b.oneUnit (unitNo ch m) ((b.unit (unitNo ch m)).granted (directSeq (cactCmd ch m side row) age) g) age').pair
      ch m).urgent = false := hurg
  have hdie : (b.oneUnit (unitNo ch m) ((b.unit (unitNo ch m)).granted (directSeq (cactCmd ch m side row) age) g) age').die (ch / 2)
      = b.die (ch / 2) := rfl
  rw [Blk.stepReady, Blk.oneUnit_unit, unitCh_unitNo hm, unitPair_unitNo hm, unitDie_unitNo hm, hurg', hdie, href, ha]
  simp only [UnitSt.granted] at hent ⊢
  rw [hent]
  simp [directSeq, UnitSt.stalls, hsets]

end

theorem cact_direct {s : State} {ch m side row : Nat} (ht : s.blk.unitTakes ch m 2 = true) (hs : side < 2) (hr : row < 32768)
    (hpim : (s.blk.unit (unitNo ch m)).inPim = true) (hslot : (s.blk.unit (unitNo ch m)).slot = none)
    (href : (s.blk.die (ch / 2)).refused = false) (ha : (s.blk.die (ch / 2)).sr = .awake)
    (hal : 1 ≤ (s.blk.die (ch / 2)).allow) (he : (s.blk.eligMask (ch / 2)).testBit (unitNo ch m % 32) = true)
    (hwd : s.blk.sdg.withdrawn = []) (hu : s.blk.cu.units = [(unitNo ch m, s.blk.unit (unitNo ch m))])
    (hst : s.blk.rowStatus ch (2 * m + side) row true = 0) (hf : s.blk.rowFresh ch (2 * m + side) row = false)
    (hcur : (s.blk.unit (unitNo ch m)).cur = [none, none]) :
    Completes (.cact (.direct ch (2 ^ m) (cactBody side row))) s (fun b =>
      (b.unit (unitNo ch m)).cur = ([none, none] : List (Option Nat)).set side (some row)
      ∧ (b.unit (unitNo ch m)).seq.map (fun y => (y.reps, y.inStep)) = some (1, true)
      ∧ (b.unit (unitNo ch m)).slot.isSome = true ∧ SameMem s.blk b ∧ b.regs = s.blk.regs) := by
  obtain ⟨hi, -, hm, -, hurg, -⟩ := Blk.unitTakes_iff.1 ht
  obtain ⟨hhub, hj, hw⟩ := Blk.unitsIdle_iff.1 hi
  refine Completes.of_hub (exec_cact s _) hhub ?_
  have hcmd : s.blk.stepCmd 3 (.direct ch (2 ^ m) (cactBody side row)) = s.blk.submit (cactCmd ch m side row) := rfl
  have hbegin := Blk.beginSeq_one (b := s.blk.take ch cCompute 2) (u := unitNo ch m) (c := cactCmd ch m side row) hu hpim hslot
    (by rw [unitDie_unitNo hm]; exact href) (by rw [unitDie_unitNo hm]; exact ha) (by rw [unitDie_unitNo hm]; exact hal)
    (by rw [unitDie_unitNo hm]; exact he) hwd (needs_cactSeq hs hr _)
  have hat := Blk.stepsAt_cactSeq (b := s.blk.take ch cCompute 2) (g := (s.blk.take ch cCompute 2).cu.age + 1)
    (age := (s.blk.take ch cCompute 2).cu.age) (age' := (s.blk.take ch cCompute 2).cu.age + 2) hm hs hr hhub hurg href ha
  rw [hcmd, Blk.submit_cactCmd hm ht, Blk.directUnit_cactCmd (b := s.blk.take ch cCompute 2) hs hr hpim, hbegin]
  have hbank : unitBank (unitNo ch m) side = 2 * m + side := by rw [unitBank, unitPair_unitNo hm]
  generalize hd : (s.blk.take ch cCompute 2).oneUnit (unitNo ch m) _ ((s.blk.take ch cCompute 2).cu.age + 2) = d at hat ⊢
  have hdunit : d.unit (unitNo ch m)
      = (s.blk.unit (unitNo ch m)).granted (directSeq (cactCmd ch m side row) s.blk.cu.age) (s.blk.cu.age + 1) := by
    rw [← hd, Blk.oneUnit_unit]
    rfl
  have hk := eKind_cactWord hs hr (show 0 < 2 by decide)
  have hzero : 3 * cdiv ((d.unit (unitNo ch m)).accBytes (cactWord side 0 row)) 128 = 0 := by
    rw [accBytes_of_ne _ (by rw [hk]; decide)]
    rfl
  obtain ⟨hrun, -⟩ := Blk.runStep_eq hat hk hzero (Blk.canPay_zero _ _ _)
  have hst' : d.rowStatus (unitCh (unitNo ch m)) (unitBank (unitNo ch m) side) row true = 0 := by
    rw [unitCh_unitNo hm, hbank, ← hd]
    exact hst
  have hf' : d.rowFresh (unitCh (unitNo ch m)) (unitBank (unitNo ch m) side) row = false := by
    rw [unitCh_unitNo hm, hbank, ← hd]
    exact hf
  have hdm : d.mem = s.blk.mem ∧ d.regs = s.blk.regs ∧ d.cu.jobs = [] ∧ d.cu.waiting = [] := by
    rw [← hd]
    exact ⟨rfl, rfl, hj, hw⟩
  obtain ⟨hmem, hregs, hj', hw'⟩ := hdm
  have hcact := (hrun rfl).trans (Blk.stepCact_ok hs (show 0 < 2 by decide) hr hst' hf')
  rw [hcact, Blk.sweep_of_idle (by exact hj') (by exact hw')]
  simp only [settle_unit, settle_mem, settle_regs, SameMem, Blk.unit_setUnit_same, Blk.stepAt_unit, Blk.setUnit_mem, Blk.setUnit_regs,
    Blk.stepAt_mem, Blk.stepAt_regs, hmem, hregs, hdunit, if_neg (show ¬ (0 = 1 ∧ _) from fun h => absurd h.1 (by decide))]
  refine ⟨?_, rfl, rfl, trivial, trivial⟩
  exact congrArg (fun l : List (Option Nat) => l.set side (some row)) hcur

end Sys2Proof.Machine
end

section
/-! Proofs: CRD steps (R134, R135, R150): over groups in order, and without a current row. -/

namespace Sys2Proof.Machine
open Sys2Proof

/-- The word of a CRD step of one side. -/
def crdWord (side op gf gc set clear lat seg : Nat) : Nat :=
  4 * 2 ^ 60 + op * 2 ^ 41 + 2 ^ (39 + side) + gf * 2 ^ 36 + (gc - 1) * 2 ^ 33 + set * 2 ^ 31 + clear * 2 ^ 30 + lat * 2 ^ 17
    + seg * 2 ^ 14

/-- What a CRD step's word and body say. -/
structure CrdFields (w side op gf gc set lat seg : Nat) (clear : Bool) : Prop where
  kind : eKind w = 4
  op : bits (eBody w) 43 41 = op
  sides : sides (bits (eBody w) 40 39) = [side]
  gf : bits (eBody w) 38 36 = gf
  gc : bits (eBody w) 35 33 + 1 = gc
  set : bits (eBody w) 32 31 = set
  clear : (eBody w).testBit 30 = clear
  stream : (eBody w).testBit 29 = false
  lat : bits (eBody w) 24 17 = lat
  seg : bits (eBody w) 16 14 = seg
  fixedSet : w.testBit 59 = false
  fixedLat : w.testBit 57 = false

theorem crdFields {side op gf gc set clear lat seg : Nat} (hs : side < 2) (ho : op < 5) (h1 : 1 ≤ gc) (hg : gf + gc ≤ 8)
    (hset : set < 4) (hc : clear < 2) (hl : lat < 256) (hseg : seg < 4) :
    CrdFields (crdWord side op gf gc set clear lat seg) side op gf gc set lat seg (decide (clear = 1)) := by
  obtain ⟨n, rfl⟩ : ∃ n, gc = n + 1 := ⟨gc - 1, by omega⟩
  have hw : crdWord side op gf (n + 1) set clear lat seg = 4 * 2 ^ 60 + op * 2 ^ 41 + (side + 1) * 2 ^ 39 + gf * 2 ^ 36 + n * 2 ^ 33
      + set * 2 ^ 31 + clear * 2 ^ 30 + lat * 2 ^ 17 + seg * 2 ^ 14 := by
    obtain rfl | rfl : side = 0 ∨ side = 1 := by omega
    all_goals simp only [crdWord, Nat.add_sub_cancel]; omega
  rw [hw]
  constructor
  case sides =>
    obtain rfl | rfl : side = 0 ∨ side = 1 := by omega
    · exact (congrArg sides (by simp only [eBody, bits_eq]; omega)).trans sides_one
    · exact (congrArg sides (by simp only [eBody, bits_eq]; omega)).trans sides_two
  case clear => rw [testBit_eq]; exact decide_eq_decide.2 (by simp only [eBody]; omega)
  case stream => rw [testBit_eq]; exact decide_eq_false (by simp only [eBody]; omega)
  case fixedSet => rw [testBit_eq]; exact decide_eq_false (by omega)
  case fixedLat => rw [testBit_eq]; exact decide_eq_false (by omega)
  all_goals simp only [eKind, eBody, bits_eq]; omega

theorem mem_readOrder {wfmt gf gc s g : Nat} {banks : List Nat} :
    (s, g) ∈ readOrder wfmt banks gf gc ↔ s ∈ banks ∧ ∃ k, k < gc ∧ g = gf + k := by
  have hmem : ∀ l : List Nat, g ∈ (if isMX wfmt then l.filter (· == 7) ++ l.filter (· != 7) else l) ↔ g ∈ l := fun l => by
    split
    · by_cases h : g = 7 <;> simp [h]
    · rfl
  simp only [readOrder, List.mem_flatMap, List.mem_map, Prod.mk.injEq]
  constructor
  · rintro ⟨a, ha, b, hb, rfl, rfl⟩
    obtain ⟨k, hk, rfl⟩ := (hmem _).1 ha |> List.mem_map.1
    exact ⟨hb, k, List.mem_range.1 hk, rfl⟩
  · rintro ⟨hs, k, hk, rfl⟩
    exact ⟨_, (hmem _).2 (List.mem_map.2 ⟨k, List.mem_range.2 hk, rfl⟩), s, hs, rfl, rfl⟩

theorem foldl_fixed {α β : Type} {f : β → α → β} {b : β} {l : List α} (h : ∀ x ∈ l, f b x = b) : l.foldl f b = b := by
  induction l with
  | nil => rfl
  | cons x t ih =>
    rw [List.foldl_cons, h x (by simp)]
    exact ih fun y hy => h y (by simp [hy])

section
variable {b : Blk} {u side row gf gc : Nat}

/-- A group that reads clean is delivered as it lies, and the reading changes nothing. -/
theorem readOpen_of_clean (h : b.rowClean u side row gf gc = true) {k : Nat} (hk : k < gc) (rq : Req) (mpa : Option Nat) :
    readOpen b rq (gidOf (unitCh u) (unitBank u side) row (gf + k)) mpa
      = ⟨b, stOK, groupData b.mem.cells (gidOf (unitCh u) (unitBank u side) row (gf + k)), false⟩ := by
  have hrow := List.all_eq_true.1 h k (List.mem_range.2 hk)
  dsimp only at hrow
  generalize gidOf (unitCh u) (unitBank u side) row (gf + k) = g at hrow ⊢
  rw [readOpen]
  generalize gFind g (groupData b.mem.cells g) (groupMargin b.mem.cells g true) = r at hrow ⊢
  simp only [Bool.or_eq_true, beq_iff_eq, Bool.and_eq_true] at hrow
  obtain rfl | ⟨rfl, hz⟩ := hrow
  · rfl
  · simp [hz]

theorem Blk.groupWords_of_clean (hcur : (b.unit u).cur.getD side none = some row) (h : b.rowClean u side row gf gc = true)
    (own : Option (Nat × Nat)) : b.groupWords u side gf gc own = b.rowWords u side row gf gc := by
  refine List.flatMap_congr fun k hk => ?_
  rw [Blk.unitGroup, hcur, Option.map_some]
  dsimp only
  rw [readOpen_of_clean h (List.mem_range.1 hk)]

theorem Blk.useRow_ok {own : Option (Nat × Nat)} (hst : ∀ row, (b.unit u).cur.getD side none = some row →
    b.rowStatus (unitCh u) (unitBank u side) row false = 0) : b.useRow u side own = (b, true) := by
  unfold Blk.useRow
  split
  · rfl
  next r hr => rw [hst r hr]; rfl

/-- A CRD step over groups that read clean. -/
theorem Blk.stepCrd_clean {w op set lat seg : Nat} {clear : Bool} {own : Option (Nat × Nat)}
    (hw : CrdFields w side op gf gc set lat seg clear) (hcur : (b.unit u).cur.getD side none = some row)
    (hst : b.rowStatus (unitCh u) (unitBank u side) row false = 0) (h : b.rowClean u side row gf gc = true) (set' lat' : Nat) :
    b.stepCrd u (eBody w) set' lat' own
      = if op = 0 then ({ b with ctr := b.ctr + 8 }).setUnit u ((b.unit u).dot set' clear lat' [(side, b.rowWords u side row gf gc)]
          (fun k => (Config.freeWord (b.ctr + k)).toNat))
        else if op = 1 then b.setUnit u ((b.unit u).sdot lat' (2 ^ seg) [(side, b.rowWords u side row gf gc)])
        else b.setUnit u ((b.unit u).ew op lat' [(side, b.rowWords u side row gf gc)]) := by
  have huse : b.useRow u side own = (b, true) := Blk.useRow_ok fun r hr => by
    cases hcur.symm.trans hr
    exact hst
  have hcheck : (readOrder (b.unit u).wfmt [side] gf gc).foldl (fun (b : Blk) p => b.checkGroup u p.1 p.2 own) b = b := by
    refine foldl_fixed fun p hp => ?_
    obtain ⟨hside, k, hk, hg⟩ := (mem_readOrder (s := p.1) (g := p.2)).1 hp
    obtain rfl := List.mem_singleton.1 hside
    rw [Blk.checkGroup, Blk.unitGroup, hcur, Option.map_some, hg]
    dsimp only
    rw [readOpen_of_clean h hk]
    simp
  simp only [Blk.stepCrd, hw.stream, hw.sides, hw.op, hw.gf, hw.gc, hw.clear, hw.seg, Bool.false_eq_true, if_false, List.foldl_cons,
    List.foldl_nil, if_true, huse, Bool.not_true, List.map_cons, List.map_nil, Blk.groupWords_of_clean hcur h, hcheck]

end

end Sys2Proof.Machine
end

section
/-! Proofs: the CRD, CWR and ACC_RD steps of a unit (R134, R135, R137, R138, R150). -/

namespace Sys2Proof.Machine
open Sys2Proof

/-! ### CRD -/

section
variable {s : State} {u : Nat} {x : SeqSt}

/-- A step that moves no words to the port is taken at once. -/
theorem accBytes_zero {b : Blk} {w : Nat} (h : eKind w ≠ 6) : 3 * cdiv ((b.unit u).accBytes w) 128 = 0 := by
  rw [accBytes_of_ne _ h]
  rfl

theorem adjLat_fixed (y : UnitSt) {w : Nat} (h : w.testBit 57 = false) (n lat : Nat) : y.adjLat w n lat = lat := by
  simp [UnitSt.adjLat, h]

theorem adjSet_fixed {w : Nat} (h : w.testBit 59 = false) (n set : Nat) : adjSet w n set = set := by
  simp [adjSet, h]

theorem crd_groups {side op gf gc set lat seg row w : Nat} {clear : Bool} (hi : s.blk.unitsIdle = true)
    (hw : CrdFields w side op gf gc set lat seg clear) (hat : s.blk.stepsAt u w x = true)
    (hcur : (s.blk.unit u).cur.getD side none = some row)
    (hst : s.blk.rowStatus (unitCh u) (unitBank u side) row false = 0) (hclean : s.blk.rowClean u side row gf gc = true) :
    Completes (.crd (.unit u)) s (fun b =>
      (op = 0 → b.unit u = ((s.blk.unit u).stepping x).dot set clear lat [(side, s.blk.rowWords u side row gf gc)]
        (fun k => (Config.freeWord (s.blk.ctr + k)).toNat))
      ∧ (op = 1 → b.unit u = ((s.blk.unit u).stepping x).sdot lat (2 ^ seg) [(side, s.blk.rowWords u side row gf gc)])
      ∧ (2 ≤ op → b.unit u = ((s.blk.unit u).stepping x).ew op lat [(side, s.blk.rowWords u side row gf gc)])
      ∧ SameMem s.blk b ∧ b.regs = s.blk.regs) := by
  obtain ⟨-, hrun, -⟩ := Blk.runStep_eq hat hw.kind (accBytes_zero (by rw [hw.kind]; decide)) (Blk.canPay_zero _ _ _)
  have hrun := hrun rfl
  rw [Blk.stepCrd_clean (b := s.blk.stepAt u 0 x) hw (by rw [Blk.stepAt_unit]; exact hcur) hst hclean, hw.set, hw.lat,
    adjSet_fixed hw.fixedSet, adjLat_fixed _ hw.fixedLat, Blk.stepAt_unit] at hrun
  obtain rfl | rfl | h2 : op = 0 ∨ op = 1 ∨ 2 ≤ op := by omega
  · refine Completes.of_step (exec_crd s (.unit u)) hi hrun rfl rfl ?_
    simp only [SameMem, reduceIte, settle_unit, Blk.unit_setUnit_same, settle_mem, settle_regs]
    exact ⟨fun _ => rfl, fun h => absurd h (by decide), fun h => absurd h (by decide), rfl, rfl⟩
  · refine Completes.of_step (exec_crd s (.unit u)) hi hrun rfl rfl ?_
    simp only [SameMem, reduceIte, Nat.one_ne_zero, settle_unit, Blk.unit_setUnit_same, settle_mem, settle_regs]
    exact ⟨fun h => absurd h (by decide), fun _ => rfl, fun h => absurd h (by decide), rfl, rfl⟩
  · rw [if_neg (by omega), if_neg (by omega)] at hrun
    refine Completes.of_step (exec_crd s (.unit u)) hi hrun rfl rfl ?_
    simp only [SameMem, settle_unit, Blk.unit_setUnit_same, settle_mem, settle_regs]
    exact ⟨fun h => absurd h (by omega), fun h => absurd h (by omega), fun _ => rfl, rfl, rfl⟩

end

/-! ### CRD without a current row -/

section
variable (y : UnitSt)

theorem foldl_err {α β : Type} {e : β → Nat} {f : β → α → β} (hf : ∀ y a, e (f y a) = e y) (l : List α) (z : β) :
    e (l.foldl f z) = e z := by
  induction l generalizing z with
  | nil => rfl
  | cons a t ih => rw [List.foldl_cons, ih, hf]

theorem UnitSt.dot_err (set : Nat) (clear : Bool) (lat : Nat) (banks : List (Nat × List (Nat × Bytes))) (free : Nat → Nat) :
    (y.dot set clear lat banks free).err = y.err := by
  unfold UnitSt.dot
  extract_lets a wasFp
  split
  rfl

theorem UnitSt.sdot_err (e seg : Nat) (banks : List (Nat × List (Nat × Bytes))) : (y.sdot e seg banks).err = y.err := by
  unfold UnitSt.sdot
  refine foldl_err (e := fun p : UnitSt × Nat => p.1.err) (fun p a => ?_) _ (y, 0)
  refine foldl_err (e := UnitSt.err) (fun z v => ?_) _ p.1
  split
  split
  rfl

theorem UnitSt.mapWord_err (v off : Nat) (f : Nat → Ex → Ex) : (y.mapWord v off f).err = y.err := by
  unfold UnitSt.mapWord
  dsimp only
  unfold UnitSt.setLatch
  rfl

theorem UnitSt.ew_err (op lat : Nat) (banks : List (Nat × List (Nat × Bytes))) : (y.ew op lat banks).err = y.err := by
  refine foldl_err (e := UnitSt.err) (fun z p => ?_) banks y
  refine foldl_err (e := UnitSt.err) (fun z c => ?_) p.2 z
  refine (foldl_err (e := UnitSt.err) (fun z v => ?_) _ _).trans (show (z.flag _).err = z.err from rfl)
  exact foldl_err (e := UnitSt.err) (fun t k => UnitSt.mapWord_err t _ _ _) _ z

end

/-- A block with the error code of one unit, whose memory, registers and queues are those of another. -/
structure UnitErr (a : Blk) (u e : Nat) (b : Blk) : Prop where
  mem : b.mem = a.mem
  regs : b.regs = a.regs
  jobs : b.cu.jobs = a.cu.jobs
  waiting : b.cu.waiting = a.cu.waiting
  err : (b.unit u).err = e

section
variable {a b : Blk} {u e : Nat}

theorem UnitErr.setUnit (h : UnitErr a u e b) {y : UnitSt} (he : y.err = (b.unit u).err) : UnitErr a u e (b.setUnit u y) :=
  ⟨h.mem, h.regs, h.jobs, h.waiting, by rw [Blk.unit_setUnit_same, he, h.err]⟩

/-- The check of a group of a side without a current row. -/
theorem UnitErr.checkGroup (h : UnitErr a u e b) {side grp : Nat} {own : Option (Nat × Nat)}
    (hcur : (b.unit u).cur.getD side none = none) :
    UnitErr a u (if e = 0 then stINTERNAL else e) (b.checkGroup u side grp own)
      ∧ ((b.checkGroup u side grp own).unit u).cur.getD side none = none := by
  have hgrp : b.unitGroup u side grp = none := by rw [Blk.unitGroup, hcur]; rfl
  rw [Blk.checkGroup, hgrp]
  refine ⟨⟨h.mem, h.regs, h.jobs, h.waiting, ?_⟩, ?_⟩
  · rw [Blk.unit_setUnit_same, ← h.err]
    rfl
  · rw [Blk.unit_setUnit_same]
    exact hcur

/-- The checks of groups of a side without a current row leave INTERNAL, where no other error stood before. -/
theorem UnitErr.checkGroups {own : Option (Nat × Nat)} {side : Nat} (l : List (Nat × Nat)) : ∀ {b : Blk} {e : Nat},
    UnitErr a u e b → (b.unit u).cur.getD side none = none → (∀ p ∈ l, p.1 = side) → l ≠ [] →
      UnitErr a u (if e = 0 then stINTERNAL else e) (l.foldl (fun (b : Blk) p => b.checkGroup u p.1 p.2 own) b) := by
  induction l with
  | nil => exact fun _ _ _ h => absurd rfl h
  | cons p t ih =>
    intro b e h hcur hl _
    obtain ⟨h1, hcur1⟩ := h.checkGroup (grp := p.2) (own := own) hcur
    rw [List.foldl_cons, hl p (by simp)]
    cases t with
    | nil => exact h1
    | cons q r =>
      have h2 := ih h1 hcur1 (fun z hz => hl z (by simp [hz])) (by simp)
      have hidem : (if (if e = 0 then stINTERNAL else e) = 0 then stINTERNAL else (if e = 0 then stINTERNAL else e))
          = if e = 0 then stINTERNAL else e := by
        split <;> simp_all
      rwa [hidem] at h2

/-- A CRD step without a current row. -/
theorem UnitErr.stepCrd {body side set lat : Nat} {own : Option (Nat × Nat)} (hb : body.testBit 29 = false)
    (hs : sides (bits body 40 39) = [side]) (hcur : (b.unit u).cur.getD side none = none) :
    UnitErr b u (if (b.unit u).err = 0 then stINTERNAL else (b.unit u).err) (b.stepCrd u body set lat own) := by
  have huse : b.useRow u side own = (b, true) := Blk.useRow_ok fun r hr => by
    cases hcur.symm.trans hr
  have hne : readOrder (b.unit u).wfmt [side] (bits body 38 36) (bits body 35 33 + 1) ≠ [] :=
    List.ne_nil_of_mem (mem_readOrder.2 ⟨List.mem_singleton_self side, 0, Nat.succ_pos _, rfl⟩)
  have hside : ∀ p ∈ readOrder (b.unit u).wfmt [side] (bits body 38 36) (bits body 35 33 + 1), p.1 = side := fun p hp =>
    List.mem_singleton.1 (mem_readOrder.1 (show (p.1, p.2) ∈ _ from hp)).1
  have hc := UnitErr.checkGroups (own := own) _ (⟨rfl, rfl, rfl, rfl, rfl⟩ : UnitErr b u (b.unit u).err b) hcur hside hne
  simp only [Blk.stepCrd, hb, hs, Bool.false_eq_true, if_false, List.foldl_cons, List.foldl_nil, if_true, huse, Bool.not_true]
  generalize (readOrder (b.unit u).wfmt [side] (bits body 38 36) (bits body 35 33 + 1)).foldl
    (fun (b : Blk) p => b.checkGroup u p.1 p.2 own) b = c at hc ⊢
  generalize (if (b.unit u).err = 0 then stINTERNAL else (b.unit u).err) = e at hc ⊢
  split
  · exact UnitErr.setUnit (b := { c with ctr := c.ctr + 8 }) ⟨hc.mem, hc.regs, hc.jobs, hc.waiting, hc.err⟩ (UnitSt.dot_err _ _ _ _ _ _)
  · split
    · exact hc.setUnit (UnitSt.sdot_err _ _ _ _)
    · exact hc.setUnit (UnitSt.ew_err _ _ _ _)

end

theorem crd_internal {s : State} {u body side : Nat} {x : SeqSt} (hi : s.blk.unitsIdle = true) (hb : body < 2 ^ 44)
    (hat : s.blk.stepsAt u (4 * 2 ^ 60 + body) x = true) (h29 : body.testBit 29 = false) (hs : sides (bits body 40 39) = [side])
    (hcur : (s.blk.unit u).cur.getD side none = none) :
    Completes (.crd (.unit u)) s (fun b => (b.unit u).err = (if (s.blk.unit u).err = 0 then stINTERNAL else (s.blk.unit u).err)
      ∧ SameMem s.blk b ∧ b.regs = s.blk.regs) := by
  have hk : eKind (4 * 2 ^ 60 + body) = 4 := by simp only [eKind, bits_eq]; omega
  have hbody : eBody (4 * 2 ^ 60 + body) = body := by simp only [eBody]; omega
  obtain ⟨-, hrun, -⟩ := Blk.runStep_eq hat hk (accBytes_zero (by rw [hk]; decide)) (Blk.canPay_zero _ _ _)
  have hrun := hrun rfl
  rw [hbody] at hrun
  have herr := UnitErr.stepCrd (b := s.blk.stepAt u 0 x) (u := u) (body := body) (set := adjSet (4 * 2 ^ 60 + body) x.n (bits body 32 31))
    (lat := ((s.blk.unit u).stepping x).adjLat (4 * 2 ^ 60 + body) x.n (bits body 24 17)) (own := x.cmd.own) h29 hs
    (by rw [Blk.stepAt_unit]; exact hcur)
  refine Completes.of_step (exec_crd s (.unit u)) hi hrun herr.jobs herr.waiting ?_
  simp only [SameMem, settle_unit, settle_mem, settle_regs]
  refine ⟨?_, herr.mem, herr.regs⟩
  rw [herr.err, Blk.stepAt_unit]
  rfl

end Sys2Proof.Machine
end

section
/-! Proofs: the CWR and ACC_RD steps of a unit (R137, R138, R150), and the settled statement. -/

namespace Sys2Proof.Machine
open Sys2Proof

/-- The word of a CWR step of one group. -/
def cwrWord (side gf lat : Nat) : Nat := 5 * 2 ^ 60 + side * 2 ^ 43 + gf * 2 ^ 40 + lat * 2 ^ 29

/-- What a CWR step's word and body say. -/
structure CwrFields (w side gf lat : Nat) : Prop where
  kind : eKind w = 5
  side : bits (eBody w) 43 43 = side
  gf : bits (eBody w) 42 40 = gf
  gc : bits (eBody w) 39 37 = 0
  lat : bits (eBody w) 36 29 = lat
  fixedLat : w.testBit 57 = false

theorem cwrFields {side gf lat : Nat} (hs : side < 2) (hg : gf < 8) (hl : lat < 256) : CwrFields (cwrWord side gf lat) side gf lat := by
  constructor
  case fixedLat => rw [testBit_eq]; exact decide_eq_false (by simp only [cwrWord]; omega)
  all_goals simp only [eKind, eBody, bits_eq, cwrWord]; omega

theorem gidOf_unit_lt {u side row grp : Nat} (hu : u < 6144) (hs : side < 2) (hr : row < 32768) (hg : grp < 8) :
    gidOf (unitCh u) (unitBank u side) row grp < 0xC0000000 := by
  refine gidOf_lt ?_ ?_ hr hg
  · simp only [unitCh]; omega
  · simp only [unitBank, unitPair]; omega

/-- Eight latch words from one on, as the bytes of a group. -/
def UnitSt.latchGroup (y : UnitSt) (lat : Nat) : Bytes := (List.range 8).flatMap (fun c => tget zeroWord ((lat + c) % 256) y.latch)

theorem UnitSt.length_latchGroup {y : UnitSt} (h : ∀ k, k < 256 → (tget zeroWord k y.latch).length = 32) (lat : Nat) :
    (y.latchGroup lat).length = 256 := by
  have hk : ∀ k, (tget zeroWord ((lat + k) % 256) y.latch).length = 32 := fun k => h _ (Nat.mod_lt _ (by decide))
  simp [UnitSt.latchGroup, List.length_flatMap, hk]

/-- A CWR step of one group of a row that may be used, which is not poisoned. -/
theorem Blk.stepCwr_one {b : Blk} {u w side gf lat row : Nat} {own : Option (Nat × Nat)} (hw : CwrFields w side gf lat)
    (hcur : (b.unit u).cur.getD side none = some row) (hst : b.rowStatus (unitCh u) (unitBank u side) row false = 0)
    (hp : ((groupMargin b.mem.cells (gidOf (unitCh u) (unitBank u side) row gf) true).getD 0 0).toNat / 64 ≠ 3) :
    b.stepCwr u (eBody w) lat own = putOpen b (gidOf (unitCh u) (unitBank u side) row gf) ((b.unit u).latchGroup lat) 1
      (((groupMargin b.mem.cells (gidOf (unitCh u) (unitBank u side) row gf) true).getD 0 0).toNat % 64 + 1) := by
  have huse : b.useRow u side own = (b, true) := Blk.useRow_ok fun r hr => by
    cases hcur.symm.trans hr
    exact hst
  simp only [Blk.stepCwr, hw.side, hw.gf, hw.gc, huse, hcur, Bool.not_true, Bool.false_eq_true, if_false, Nat.zero_add, List.range_one,
    List.foldl_cons, List.foldl_nil, Nat.add_zero, if_neg hp, Nat.mul_zero]
  rfl

theorem cwr_group {s : State} {u side gf lat row w : Nat} {x : SeqSt} (hi : s.blk.unitsIdle = true) (hwf : s.memWf) (hu : u < 6144)
    (hs : side < 2) (hg : gf < 8) (hr : row < 32768) (hw : CwrFields w side gf lat) (hat : s.blk.stepsAt u w x = true)
    (hcur : (s.blk.unit u).cur.getD side none = some row) (hst : s.blk.rowStatus (unitCh u) (unitBank u side) row false = 0)
    (hl : ∀ k, k < 256 → (tget zeroWord k (s.blk.unit u).latch).length = 32)
    (hp : ((groupMargin s.blk.mem.cells (gidOf (unitCh u) (unitBank u side) row gf) true).getD 0 0).toNat / 64 ≠ 3) :
    Completes (.cwr (.unit u)) s (fun b =>
      groupData b.mem.cells (gidOf (unitCh u) (unitBank u side) row gf) = (s.blk.unit u).latchGroup lat
      ∧ ((groupMargin b.mem.cells (gidOf (unitCh u) (unitBank u side) row gf) true).getD 0 0).toNat / 64 = 1
      ∧ (∀ g, g < 0xC0000000 → g ≠ gidOf (unitCh u) (unitBank u side) row gf →
          groupData b.mem.cells g = groupData s.blk.mem.cells g)
      ∧ b.unit u = (s.blk.unit u).stepping x ∧ b.regs = s.blk.regs) := by
  obtain ⟨-, -, hrun, -⟩ := Blk.runStep_eq hat hw.kind (accBytes_zero (by rw [hw.kind]; decide)) (Blk.canPay_zero _ _ _)
  have hrun := hrun rfl
  rw [hw.lat, adjLat_fixed _ hw.fixedLat, Blk.stepCwr_one (b := s.blk.stepAt u 0 x) hw (by rw [Blk.stepAt_unit]; exact hcur) hst hp,
    Blk.stepAt_unit] at hrun
  have hgid := gidOf_unit_lt hu hs hr hg
  have hlen := UnitSt.length_latchGroup hl lat
  have hm : (s.blk.stepAt u 0 x).MemOk := hwf
  generalize gidOf (unitCh u) (unitBank u side) row gf = g at *
  generalize ((groupMargin (s.blk.stepAt u 0 x).mem.cells g true).getD 0 0).toNat % 64 + 1 = n at hrun
  have hlatch : ((s.blk.unit u).stepping x).latchGroup lat = (s.blk.unit u).latchGroup lat := rfl
  rw [hlatch] at hrun
  refine Completes.of_step (exec_cwr s (.unit u)) hi hrun rfl rfl ?_
  have hput : ∀ o, (putOpen (s.blk.stepAt u 0 x) g o 1 n).unit u = (s.blk.unit u).stepping x := fun o => Blk.stepAt_unit _ _ _ _
  simp only [settle_unit, settle_mem, settle_regs, hput]
  refine ⟨?_, ?_, fun h hh hne => ?_, trivial, rfl⟩
  · rw [groupData_putOpen hm hgid hlen 1 n hgid, if_pos rfl]
  · rw [groupMargin_putOpen hm hgid hlen 1 n]
    have hb0 : ∀ b0 crc, (openMargin b0 crc).getD 0 0 = b0 := fun _ _ => rfl
    rw [hb0, BitVec.toNat_ofNat]
    omega
  · rw [groupData_putOpen hm hgid hlen 1 n hh, if_neg hne]
    rfl

/-! ### ACC_RD -/

/-- The word of an ACC_RD step of the window kind. -/
def accRdWord (set tag : Nat) (clear : Bool) : Nat := 6 * 2 ^ 60 + set * 2 ^ 40 + tag * 2 ^ 14 + (if clear then 2 ^ 5 else 0)

/-- What such a step's word and body say. -/
structure AccRdFields (w set tag : Nat) (clear : Bool) : Prop where
  kind : eKind w = 6
  window : bits (eBody w) 43 42 = 0
  set : bits (eBody w) 41 40 = set
  one : bits (eBody w) 39 38 = 0
  tag : bits (eBody w) 29 14 = tag
  clear : (eBody w).testBit 5 = clear
  fixedTag : w.testBit 58 = false
  fixedSet : w.testBit 59 = false

theorem accRdFields {set tag : Nat} (hs : set < 4) (ht : tag < 65536) (clear : Bool) :
    AccRdFields (accRdWord set tag clear) set tag clear := by
  obtain ⟨c, hc, hw, hd⟩ : ∃ c, c < 2 ∧ accRdWord set tag clear = 6 * 2 ^ 60 + set * 2 ^ 40 + tag * 2 ^ 14 + c * 2 ^ 5
      ∧ clear = decide (c = 1) := by
    cases clear
    · exact ⟨0, by decide, by simp [accRdWord], rfl⟩
    · exact ⟨1, by decide, by simp [accRdWord], rfl⟩
  rw [hw, hd]
  constructor
  case clear => rw [testBit_eq]; exact decide_eq_decide.2 (by simp only [eBody]; omega)
  case fixedTag => rw [testBit_eq]; exact decide_eq_false (by omega)
  case fixedSet => rw [testBit_eq]; exact decide_eq_false (by omega)
  all_goals simp only [eKind, eBody, bits_eq]; omega

theorem UnitSt.accSet_setAcc {y : UnitSt} (hl : y.acc.length = 4) (a : AccSet) {j k : Nat} (hj : j < 4) (hk : k < 4) :
    (y.setAcc j a).accSet k = if k = j then a else y.accSet k := by
  simp only [UnitSt.accSet, UnitSt.setAcc, Nat.mod_eq_of_lt hj, Nat.mod_eq_of_lt hk]
  rw [List.getD_eq_getElem?_getD, List.getD_eq_getElem?_getD, List.getElem?_set]
  by_cases h : j = k
  · subst h
    simp [hl, hj]
  · rw [if_neg h, if_neg (fun e => h e.symm)]

theorem UnitSt.partsOf_one (y : UnitSt) (k : Nat) :
    y.partsOf [k] = [0, 1].flatMap (fun d => (List.range y.nvec).map (fun v => (y.accSet k, d, v))) := by
  simp [UnitSt.partsOf]

/-- Some partial of a set is BF16's where the set is and there is a vector. -/
theorem UnitSt.any_partsOf_one (y : UnitSt) (k : Nat) : (y.partsOf [k]).any (fun p => p.1.fp) = ((y.accSet k).fp && decide (0 < y.nvec)) := by
  rw [UnitSt.partsOf_one]
  cases h : (y.accSet k).fp <;> cases hn : y.nvec <;> simp [h, List.any_map, List.range_succ]

theorem accRd_window {s : State} {u set tag w : Nat} {clear : Bool} {x : SeqSt} (hi : s.blk.unitsIdle = true) (hset : set < 4)
    (ht : tag < 65536) (hw : AccRdFields w set tag clear) (hat : s.blk.stepsAt u w x = true)
    (hacc : (s.blk.unit u).acc.length = 4) (hfmt : (s.blk.unit u).wfmt ≠ cBF16)
    (hpay : (s.blk.pay (unitCh u) cCompute (3 * cdiv (24 * (s.blk.unit u).nvec + 4) 128)).isSome = true) :
    Completes (.accRd (.unit u)) s (fun b =>
      (b.unit u).xfers = (s.blk.unit u).xfers ++ [
        { sets := [set], tag := tag, fp := ((s.blk.unit u).accSet set).fp && decide (0 < (s.blk.unit u).nvec)
          parts := [0, 1].flatMap (fun d => (List.range (s.blk.unit u).nvec).map (fun v => ((s.blk.unit u).accSet set).get d v))
          flags := (s.blk.unit u).flags, err := (s.blk.unit u).err, cmd := x.cmd
          fin := x.cmd.fin && decide (x.i = x.last) && decide (x.n + 1 = x.reps) }]
      ∧ (b.unit u).flags = 0
      ∧ (∀ k, k < 4 → (b.unit u).accSet k = if clear = true ∧ k = set then AccSet.zero else (s.blk.unit u).accSet k)
      ∧ SameMem s.blk b ∧ b.regs = s.blk.regs) := by
  have hbytes : (s.blk.unit u).accBytes w = 24 * (s.blk.unit u).nvec + 4 := by
    simp only [UnitSt.accBytes, hw.kind, hw.window, hw.one, beq_self_eq_true, decide_true, Bool.and_self, if_true, beq_iff_eq, if_neg hfmt]
    omega
  have hcan : s.blk.canPay (unitCh u) cCompute (3 * cdiv (24 * (s.blk.unit u).nvec + 4) 128) = true := by
    rw [Blk.pay] at hpay
    split at hpay
    · assumption
    · cases hpay
  obtain ⟨-, -, -, hrun⟩ := Blk.runStep_eq hat hw.kind (congrArg (fun n => 3 * cdiv n 128) hbytes) hcan
  have hrun := hrun rfl
  generalize 3 * cdiv (24 * (s.blk.unit u).nvec + 4) 128 = half at hrun
  have hsets : (List.range (bits (eBody w) 39 38 + 1)).map (fun i => (adjSet w x.n (bits (eBody w) 41 40) + i) % 4) = [set] := by
    rw [hw.one, hw.set, adjSet_fixed hw.fixedSet]
    simpa using Nat.mod_eq_of_lt hset
  rw [hsets, hw.fixedTag, hw.tag, if_neg (by decide), Nat.mod_eq_of_lt ht] at hrun
  simp only [Blk.stepAccRd, hw.window, hw.clear, if_true, Blk.stepAt_unit, List.foldl_cons, List.foldl_nil] at hrun
  refine Completes.of_step (exec_accRd s (.unit u)) hi hrun rfl rfl ?_
  have hany := UnitSt.any_partsOf_one ((s.blk.unit u).stepping x) set
  have hparts : (((s.blk.unit u).stepping x).partsOf [set]).map (fun p => p.1.get p.2.1 p.2.2)
      = [0, 1].flatMap (fun d => (List.range (s.blk.unit u).nvec).map (fun v => ((s.blk.unit u).accSet set).get d v)) := by
    rw [UnitSt.partsOf_one]
    simp
    rfl
  have hbf : (((s.blk.unit u).stepping x).wfmt == cBF16) = false := beq_eq_false_iff_ne.2 hfmt
  simp only [SameMem, settle_unit, settle_mem, settle_regs, Blk.unit_setUnit_same, hany, hparts, hbf, Bool.false_or]
  refine ⟨by rw [Bool.and_assoc]; rfl, ?_, fun k hk => ?_, rfl, rfl⟩
  · trivial
  cases clear with
  | false => rw [if_neg (by simp)]; rfl
  | true => exact (UnitSt.accSet_setAcc hacc _ hset hk).trans (by simp)

/-- Settles O25: each step's word says its fields, and the step then does what they ask for. -/
theorem rowSteps : Obligations.RowSteps := by
  refine ⟨fun s u side pend row x hi hs hp hr hat _ _ hst hf => cact_opens hi hs hp hr hat hst hf, ?_, ?_, ?_,
    fun s u body side x hi hb hat hs h29 hsides hcur => crd_internal hi hb hat h29 hsides hcur, ?_, ?_⟩
  · intro s u side row x hi hs hr hat hst
    refine cact_refused (x := x) hi hs (show 0 < 2 by decide) hr ?_ hst
    rw [cactWord, Nat.zero_mul, Nat.add_zero]
    exact hat
  · intro s ch m side row ht hs hr hpim hslot href ha _ hal he hwd hu hst hf hcur
    exact cact_direct ht hs hr hpim hslot href ha hal he hwd hu hst hf hcur
  · intro s u side op gf gc set clear lat seg row x hi hs ho h1 hg hset hc hl hseg hat hcur hst hclean
    exact crd_groups hi (crdFields hs ho h1 hg hset hc hl hseg) hat hcur hst hclean
  · intro s u side gf lat row x hi hwf hu hs hg hl hr hat hcur hst hlen hp
    exact cwr_group hi hwf hu hs hg hr (cwrFields hs hg hl) hat hcur hst hlen hp
  · intro s u set tag clear x hi hset ht hat hacc hfmt hpay
    exact accRd_window hi hset ht (accRdFields hset ht clear) hat hacc hfmt hpay

end Sys2Proof.Machine
end

section
/-! Proofs: the state of the buffers through reads, and a double-bit error of a buffer (R76, R77, R87). -/

namespace Sys2Proof.Machine
open Sys2Proof

/-- What every step of a fold keeps, the fold keeps. -/
theorem foldl_keeps {α β : Type} {P : β → Prop} {f : β → α → β} (hf : ∀ b a, P b → P (f b a)) (l : List α) {z : β} (h : P z) :
    P (l.foldl f z) := by
  induction l generalizing z with
  | nil => exact h
  | cons a t ih => exact ih (hf z a h)

section
variable (b : Blk)

/-! ### Reads keep the state of the buffers -/

theorem logMem_mem (k : Nat) (rq : Req) (g : Nat) (mpa : Option Nat) (st : Nat) : (logMem b k rq g mpa st).mem = b.mem :=
  Blk.logE_mem _ _ _

theorem Blk.corrected_mem (ch : Nat) : (b.corrected ch).mem = b.mem := by
  unfold Blk.corrected
  dsimp only
  split
  · simp [Blk.scEvent]
  · simp

theorem Blk.fixQuarter_sramBad (cls g q : Nat) (d : Bytes) : (b.fixQuarter cls g q d).mem.sramBad = b.mem.sramBad := by
  unfold Blk.fixQuarter
  extract_lets half
  split <;> rfl

theorem readQuarter_sramBad (rq : Req) (g q mpa : Nat) : (readQuarter b rq g q mpa).b.mem.sramBad = b.mem.sramBad := by
  unfold readQuarter
  dsimp only
  split
  · rw [logMem_mem]
  · split
    · rw [Blk.fixQuarter_sramBad, Blk.corrected_mem]
    · split
      · rfl
      · split
        · rw [logMem_mem]
        · rfl

theorem readOpen_mem (rq : Req) (g : Nat) (mpa : Option Nat) : (readOpen b rq g mpa).b.mem = b.mem := by
  unfold readOpen
  dsimp only
  split
  · exact logMem_mem _ _ _ _ _ _
  · split
    · exact logMem_mem _ _ _ _ _ _
    · split
      · rfl
      · split <;> rfl

theorem readPiece_sramBad (rq : Req) (mpa n : Nat) : (readPiece b rq mpa n).b.mem.sramBad = b.mem.sramBad := by
  unfold readPiece
  split
  · rfl
  next r _ =>
    dsimp only
    split
    · rfl
    · generalize r.place mpa = p
      obtain ⟨g, i⟩ := p
      dsimp only
      split
      · rw [readOpen_mem]
      · exact readQuarter_sramBad _ _ _ _ _

/-- Charging a range touches channels alone. -/
theorem Blk.chargeRange_onlyChans (cls mpa len : Nat) (w : Bool) : OnlyChans b (b.chargeRange cls mpa len w) := by
  refine foldl_keeps (P := fun a : Blk × Option (Nat × Nat × Nat) => OnlyChans b a.1) (fun a k h => ?_) _ (.rfl' b)
  dsimp only
  split
  · exact h
  · split
    · exact h
    · exact h.trans (OnlyChans.trans (.ite ⟨_, rfl⟩ (.rfl' _)) ⟨_, rfl⟩)

/-! ### A double-bit error of a buffer -/

theorem Blk.moduleFault_mem (d : Nat) : (b.moduleFault d).mem = b.mem := by
  simp [Blk.moduleFault, Blk.sdgEvent]

theorem Blk.sramHit_mem (q : Option Nat) (path buf off : Nat) : (b.sramHit q path buf off).mem.cells = b.mem.cells
    ∧ (b.sramHit q path buf off).mem.sramBad = none := by
  unfold Blk.sramHit
  dsimp only
  split
  · rw [Blk.moduleFault_mem, Blk.logE_mem]
    exact ⟨rfl, rfl⟩
  · rw [Blk.logE_mem]
    exact ⟨rfl, rfl⟩

end

end Sys2Proof.Machine
end

section
/-! Proofs: window reads (R87, R284 to R286). -/

namespace Sys2Proof.Machine
open Sys2Proof

section
variable {b : Blk}

theorem Blk.winWaits_atPort (b : Blk) (p : Path) (mpa n : Nat) : (b.atPort p).winWaits mpa n = b.winWaits mpa n := by
  cases p <;> rfl

theorem winPieces_atPort (b : Blk) (p : Path) (fuel : Nat) : ∀ mpa n, winPieces (b.atPort p) fuel mpa n = winPieces b fuel mpa n := by
  have hreach : ∀ m, (b.atPort p).reach m = b.reach m := fun _ => by cases p <;> rfl
  have hlen : ∀ m, pieceLen (b.atPort p) m = pieceLen b m := fun _ => by cases p <;> rfl
  induction fuel with
  | zero => exact fun _ _ => rfl
  | succ k ih =>
    intro mpa n
    simp only [winPieces, hreach, hlen, ih]

/-- A window read that need not wait is carried out with the base in effect. -/
theorem Blk.windowRead_now {off n : Nat} (h : b.hostOn = true) (hl : off + n ≤ 2 ^ 28) (hw : b.winWaits (b.winBase + off) n = false) :
    b.windowRead off n = (b.atPort .host).winReadNow off n b.winBase := by
  rw [Blk.windowRead, if_neg (Nat.not_lt.2 hl), Blk.gate_on h, Blk.winRead, Blk.winWaits_atPort, hw]
  rfl

/-- What a read of one piece of a region leaves, where no buffer meets an error. -/
theorem Blk.winReadNow_piece {off n base : Nat} (hs : b.mem.sramBad = none)
    (hp : winPieces b (n / 64 + 2) (base + off) n = [(base + off, n, true)]) :
    let r := readPiece (b.chargeRange cHub (base + off) n false) rqWin (base + off) n
    b.winReadNow off n base = if r.st = stOK then r.b.send (.winRead off r.data [])
      else (if List.range n = [] then r.b else r.b.winEvent 2).send (.winRead off (List.replicate n 0xFF) (List.range n)) := by
  have hbad : (readPiece (b.chargeRange cHub (base + off) n false) rqWin (base + off) n).b.mem.sramBad = none := by
    rw [readPiece_sramBad, (Blk.chargeRange_onlyChans b _ _ _ _).mem, hs]
  unfold Blk.winReadNow
  simp only [hp, List.foldl_cons, List.foldl_nil, Bool.not_true, Bool.false_eq_true, if_false, List.find?_cons, List.find?_nil,
    List.nil_append, List.length_nil]
  generalize readPiece (b.chargeRange cHub (base + off) n false) rqWin (base + off) n = r at hbad ⊢
  by_cases h : r.st = stOK
  · simp [h, hbad]
  · simp [h, hbad, List.isEmpty_iff]

/-- What a read of one piece outside every region leaves, where no buffer meets an error. -/
theorem Blk.winReadNow_outside {off n base : Nat} (hs : b.mem.sramBad = none)
    (hp : winPieces b (n / 64 + 2) (base + off) n = [(base + off, n, false)]) :
    b.winReadNow off n base = ((b.chargeRange cHub (base + off) n false).winRange (base + off)).send
      (.winRead off (List.replicate n 0xFF) []) := by
  have hbad : ((b.chargeRange cHub (base + off) n false).winRange (base + off)).mem.sramBad = none := by
    obtain ⟨c, hc⟩ := Blk.chargeRange_onlyChans b cHub (base + off) n false
    simp [Blk.winRange, Blk.winEvent, hc, hs]
  unfold Blk.winReadNow
  simp only [hp, List.foldl_cons, List.foldl_nil, Bool.not_false, if_true, List.find?_cons, List.nil_append, hbad, List.isEmpty_nil]

/-- A double-bit error of a buffer poisons the whole read (R87). -/
theorem Blk.winReadNow_sram {off n base buf o : Nat} (hs : b.mem.sramBad = some (buf, o)) (hn : 0 < n)
    (hp : winPieces b (n / 64 + 2) (base + off) n = [(base + off, n, true)]) :
    b.winReadNow off n base = (((readPiece (b.chargeRange cHub (base + off) n false) rqWin (base + off) n).b.sramHit none pHOST
      buf o).winEvent 2).send (.winRead off (List.replicate n 0xFF) (List.range n)) := by
  have hbad : (readPiece (b.chargeRange cHub (base + off) n false) rqWin (base + off) n).b.mem.sramBad = some (buf, o) := by
    rw [readPiece_sramBad, (Blk.chargeRange_onlyChans b _ _ _ _).mem, hs]
  unfold Blk.winReadNow
  simp only [hp, List.foldl_cons, List.foldl_nil, Bool.not_true, Bool.false_eq_true, if_false, List.find?_cons, List.find?_nil,
    List.nil_append, List.length_nil]
  generalize readPiece (b.chargeRange cHub (base + off) n false) rqWin (base + off) n = r at hbad ⊢
  by_cases h : r.st = stOK <;> simp [h, hbad, hn.ne']

end

section
variable {s : State} {off n : Nat}

/-- A window read, for what the read of its bytes leaves. -/
theorem Completes.of_windowRead {P : Blk → Prop} {t : Blk} (h : s.blk.hostOn = true) (hl : off + n ≤ 2 ^ 28)
    (hw : s.blk.winWaits (s.blk.winBase + off) n = false) (ht : (s.blk.atPort .host).winReadNow off n s.blk.winBase = t)
    (hP : P (settle s.blk t)) : Completes (.windowRead off n) s P := by
  refine Completes.of_act (exec_windowRead s off n) ?_
  rw [Blk.windowRead_now h hl hw, ht]
  exact hP

theorem Blk.winEvent_testBit (b : Blk) {i : Nat} (hi : i < 32) (m : Msg) :
    (((b.winEvent i).send m).reg oWIN_EVENTS).testBit i = true := by
  rw [Blk.send_reg]
  exact Blk.testBit_orReg b _ hi

theorem windowRead_delivers (h : s.blk.hostOn = true) (hl : off + n ≤ 2 ^ 28)
    (hw : s.blk.winWaits (s.blk.winBase + off) n = false) (hs : s.blk.mem.sramBad = none)
    (hp : winPieces s.blk (n / 64 + 2) (s.blk.winBase + off) n = [(s.blk.winBase + off, n, true)])
    (hok : (readPiece (s.blk.winCharged off n) rqWin (s.blk.winBase + off) n).st = stOK) :
    Completes (.windowRead off n) s (fun b =>
      EvFrame (readPiece (s.blk.winCharged off n) rqWin (s.blk.winBase + off) n).b b
      ∧ .winRead off (readPiece (s.blk.winCharged off n) rqWin (s.blk.winBase + off) n).data [] ∈ b.sent) := by
  refine Completes.of_windowRead h hl hw (Blk.winReadNow_piece (by rw [Blk.atPort_mem]; exact hs) (by rw [winPieces_atPort]; exact hp)) ?_
  rw [if_pos hok]
  exact ⟨(Blk.send_evFrame _ _).trans (settle_frame _ _), Blk.mem_settle_send _ _ _⟩

theorem windowRead_refused (h : s.blk.hostOn = true) (hl : off + n ≤ 2 ^ 28)
    (hw : s.blk.winWaits (s.blk.winBase + off) n = false) (hs : s.blk.mem.sramBad = none)
    (hp : winPieces s.blk (n / 64 + 2) (s.blk.winBase + off) n = [(s.blk.winBase + off, n, true)]) (hn : 0 < n)
    (hbad : (readPiece (s.blk.winCharged off n) rqWin (s.blk.winBase + off) n).st ≠ stOK) :
    Completes (.windowRead off n) s (fun b =>
      .winRead off (List.replicate n 0xFF) (List.range n) ∈ b.sent ∧ (b.reg oWIN_EVENTS).testBit 2 = true) := by
  refine Completes.of_windowRead h hl hw (Blk.winReadNow_piece (by rw [Blk.atPort_mem]; exact hs) (by rw [winPieces_atPort]; exact hp)) ?_
  rw [if_neg hbad, if_neg (by simp; omega), settle_reg]
  exact ⟨Blk.mem_settle_send _ _ _, Blk.winEvent_testBit _ (by decide) _⟩

theorem windowRead_outside (h : s.blk.hostOn = true) (hl : off + n ≤ 2 ^ 28)
    (hw : s.blk.winWaits (s.blk.winBase + off) n = false) (hs : s.blk.mem.sramBad = none)
    (hp : winPieces s.blk (n / 64 + 2) (s.blk.winBase + off) n = [(s.blk.winBase + off, n, false)]) :
    Completes (.windowRead off n) s (fun b =>
      .winRead off (List.replicate n 0xFF) [] ∈ b.sent ∧ (b.reg oWIN_EVENTS).testBit 0 = true ∧ SameMem s.blk b
        ∧ (s.blk.logUp = true → LastLog s.blk b kWIN_RANGE 0)) := by
  refine Completes.of_windowRead h hl hw (Blk.winReadNow_outside (by rw [Blk.atPort_mem]; exact hs) (by rw [winPieces_atPort]; exact hp)) ?_
  obtain ⟨c, hc⟩ := Blk.chargeRange_onlyChans (s.blk.atPort .host) cHub (s.blk.winBase + off) n false
  rw [hc]
  refine ⟨Blk.mem_settle_send _ _ _, ?_, ?_, fun hu => ?_⟩
  · rw [settle_reg]
    exact Blk.winEvent_testBit _ (by decide) _
  · simp [SameMem, Blk.winRange, Blk.winEvent]
  · refine LastLog.settle ?_
    have hlog := Blk.lastLog_logE (a := s.blk) (b := { s.blk.atPort .host with chans := c }) (by simp) (by exact hu) kWIN_RANGE
      { port := some 0, path := pHOST, addr := some (s.blk.winBase + off) }
    simpa [LastLog, Blk.winRange, Blk.winEvent] using hlog

theorem windowRead_sram {buf o : Nat} (h : s.blk.hostOn = true) (hl : off + n ≤ 2 ^ 28)
    (hw : s.blk.winWaits (s.blk.winBase + off) n = false) (hn : 0 < n) (hs : s.blk.mem.sramBad = some (buf, o))
    (hp : winPieces s.blk (n / 64 + 2) (s.blk.winBase + off) n = [(s.blk.winBase + off, n, true)]) :
    Completes (.windowRead off n) s (fun b =>
      .winRead off (List.replicate n 0xFF) (List.range n) ∈ b.sent ∧ (b.reg oWIN_EVENTS).testBit 2 = true ∧ b.mem.sramBad = none) := by
  refine Completes.of_windowRead h hl hw (Blk.winReadNow_sram (by rw [Blk.atPort_mem]; exact hs) hn (by rw [winPieces_atPort]; exact hp)) ?_
  refine ⟨Blk.mem_settle_send _ _ _, ?_, ?_⟩
  · rw [settle_reg]
    exact Blk.winEvent_testBit _ (by decide) _
  · rw [settle_mem, Blk.send_mem, Blk.winEvent, Blk.orReg_mem]
    exact (Blk.sramHit_mem _ _ _ _ _).2

/-! ### A read that waits -/

/-- Asking for what an access waits for changes dies and units alone. -/
def Asked (a b : Blk) : Prop := ∃ d c, b = { a with dies := d, cu := c }

theorem Blk.askExit_asked {a b : Blk} (h : Asked a b) (mpa n : Nat) : Asked a (b.askExit mpa n) := by
  have hdies : Asked a ((b.asleep mpa n).foldl Blk.wakeDie b) := by
    refine foldl_keeps (P := Asked a) (fun c d h => ?_) _ h
    obtain ⟨_, _, rfl⟩ := h
    unfold Blk.wakeDie
    dsimp only
    split <;> exact ⟨_, _, rfl⟩
  unfold Blk.askExit Blk.askPairs
  generalize (b.asleep mpa n).foldl Blk.wakeDie b = c at hdies ⊢
  split
  · refine foldl_keeps (P := Asked a) (fun c g h => ?_) _ hdies
    dsimp only
    split
    · obtain ⟨_, _, rfl⟩ := h
      exact ⟨_, _, rfl⟩
    · exact h
  · exact hdies

theorem windowRead_waits (h : s.blk.hostOn = true) (hl : off + n ≤ 2 ^ 28) (hw : s.blk.winWaits (s.blk.winBase + off) n = true) :
    Completes (.windowRead off n) s (fun b => b.held = s.blk.held ++ [.winRead off n s.blk.winBase] ∧ SameMem s.blk b) := by
  refine Completes.of_act (exec_windowRead s off n) ?_
  rw [Blk.windowRead, if_neg (Nat.not_lt.2 hl), Blk.gate_on h, Blk.winRead, Blk.winWaits_atPort, if_pos hw]
  obtain ⟨d, c, hask⟩ := Blk.askExit_asked (a := s.blk.atPort .host) ⟨_, _, rfl⟩ (s.blk.winBase + off) n
  rw [settle_held, SameMem, settle_mem, Blk.hold_mem, Blk.hold, hask]
  simp

end

end Sys2Proof.Machine
end

section
/-! Proofs: window writes and AtomicOps (R284 to R288, R292, R293). -/

namespace Sys2Proof.Machine
open Sys2Proof

section
variable {b : Blk} {off : Nat} {d : Bytes}

theorem bytesAt_whole (d : Bytes) : bytesAt d 0 d.length = d := by
  rw [bytesAt_of_le (by omega), List.drop_zero, List.take_length]

theorem slotCuts_nil (fuel : Nat) : slotCuts b fuel off [] = [] := by cases fuel <;> rfl

/-- Without slots a write is one cut. -/
theorem slotCuts_off {fuel : Nat} (hd : d ≠ []) (hs : b.slotsOn = false) : slotCuts b (fuel + 1) off d = [(off, d)] := by
  have hat : b.slotAt off = none := by simp [Blk.slotAt, hs]
  simp [slotCuts, hat, hs, hd, slotCuts_nil]

/-- A write that ends in the slot where it begins is one cut. -/
theorem slotCuts_slot {fuel i x : Nat} (hd : d ≠ []) (hs : b.slotAt off = some (i, x)) (hl : x + d.length ≤ b.slotSize) :
    slotCuts b (fuel + 1) off d = [(off, d)] := by
  have hle : d.length ≤ b.slotSize - x := by omega
  simp [slotCuts, hs, hd, List.take_of_length_le hle, List.drop_of_length_le hle, slotCuts_nil]

theorem Blk.winWriteNow_off {base : Nat} (hd : d ≠ []) (hs : b.slotsOn = false) : b.winWriteNow off d base = b.winPut (base + off) d := by
  have hat : b.slotAt off = none := by simp [Blk.slotAt, hs]
  rw [Blk.winWriteNow, slotCuts_off hd hs, List.foldl_cons,
    List.foldl_nil, hat]

theorem Blk.winWriteNow_slot {base i x : Nat} (hd : d ≠ []) (hs : b.slotAt off = some (i, x)) (hl : x + d.length ≤ b.slotSize) :
    b.winWriteNow off d base = b.winSlotWrite i x (base + off) d := by
  rw [Blk.winWriteNow, slotCuts_slot hd hs hl, List.foldl_cons,
    List.foldl_nil, hs]

/-- Bytes that are one piece of a region. -/
theorem Blk.winPut_piece {mpa : Nat} (hp : winPieces b (d.length / 64 + 2) mpa d.length = [(mpa, d.length, true)]) :
    b.winPut mpa d = (writePiece (b.chargeRange cHub mpa d.length true) rqWin mpa d).1 := by
  simp only [Blk.winPut, hp, List.foldl_cons, List.foldl_nil, if_true, List.find?_cons, List.find?_nil, Bool.not_true, Nat.sub_self,
    bytesAt_whole]

/-- Bytes outside every region. -/
theorem Blk.winPut_outside {mpa : Nat} (hp : winPieces b (d.length / 64 + 2) mpa d.length = [(mpa, d.length, false)]) :
    b.winPut mpa d = (b.chargeRange cHub mpa d.length true).winRange mpa := by
  simp only [Blk.winPut, hp, List.foldl_cons, List.foldl_nil, Bool.false_eq_true, if_false, List.find?_cons, Bool.not_false]

/-- The owner byte alone, which the host changes as it may. -/
theorem Blk.winSlotWrite_owner {i mpa : Nat} (hl : d.length = 1) (hm : hostMay (b.slotOwner i).2 (d.getD 0 0).toNat = true)
    (hn : (d.getD 0 0).toNat ≠ (b.slotOwner i).2) :
    b.winSlotWrite i 0 mpa d = (b.slotOwner i).1.setOwner i (d.getD 0 0).toNat := by
  have hrest : d.drop 1 = [] := List.drop_of_length_le (by omega)
  unfold Blk.winSlotWrite
  generalize b.slotOwner i = r at hm hn ⊢
  generalize (d.getD 0 0).toNat = new at hm hn ⊢
  obtain ⟨c, o⟩ := r
  simp only at hm hn ⊢
  simp [hrest, hm, hn, bytesAt]

/-- A payload of a slot that the host does not own. -/
theorem Blk.winSlotWrite_payload {i x mpa : Nat} (hx : 8 ≤ x) (hd : d ≠ []) (ho : (b.slotOwner i).2 ≠ 1) :
    b.winSlotWrite i x mpa d = (b.slotOwner i).1.slotViolation i mpa := by
  have h0 : x ≠ 0 := by omega
  unfold Blk.winSlotWrite
  generalize b.slotOwner i = r at ho ⊢
  obtain ⟨c, o⟩ := r
  simp [h0, hd, ho]

end

section
variable {s : State} {off : Nat} {d : Bytes}

theorem Blk.slots_atPort (b : Blk) (p : Path) : (b.atPort p).slotsOn = b.slotsOn ∧ (∀ o, (b.atPort p).slotAt o = b.slotAt o)
    ∧ (b.atPort p).slotSize = b.slotSize ∧ (∀ o n a, (b.atPort p).winWriteWaits o n a = b.winWriteWaits o n a) := by
  cases p <;> exact ⟨rfl, fun _ => rfl, rfl, fun _ _ _ => rfl⟩

/-- A window write that need not wait, for what the write of its bytes leaves. -/
theorem Completes.of_windowWrite {t : Blk} (h : s.blk.hostOn = true) (hl : off + d.length ≤ 2 ^ 28)
    (hw : s.blk.winWriteWaits off d.length s.blk.winBase = false) (ht : (s.blk.atPort .host).winWriteNow off d s.blk.winBase = t) :
    Completes (.windowWrite off d) s (EvFrame t) := by
  refine Completes.frame (exec_windowWrite s off d) ?_
  rw [Blk.windowWrite, if_neg (Nat.not_lt.2 hl), Blk.gate_on h, Blk.winWrite, (Blk.slots_atPort s.blk .host).2.2.2, hw]
  exact ht

theorem Blk.winWriteWaits_off {b : Blk} {n base : Nat} (hs : b.slotsOn = false) (hw : b.winWaits (base + off) n = false) :
    b.winWriteWaits off n base = false := by
  simp [Blk.winWriteWaits, hs, hw]

end

/-- Settles O39: an access that need not wait is carried out on the pieces of its range, slots by their owners. -/
theorem window : Obligations.Window := by
  refine ⟨fun s off n => windowRead_delivers, fun s off n => windowRead_refused, fun s off n => windowRead_outside,
    fun s off n buf o h hl hw hn hs hp => windowRead_sram h hl hw hn hs hp, ?_, ?_, ?_, ?_, fun s off n => windowRead_waits, ?_⟩
  · intro s off d h hl hw hs hp hd
    refine Completes.of_windowWrite h hl (Blk.winWriteWaits_off hs hw) ?_
    rw [Blk.winWriteNow_off hd ((Blk.slots_atPort s.blk .host).1.trans hs), Blk.winPut_piece (by rw [winPieces_atPort]; exact hp)]
  · intro s off d h hl hw hs hd hp
    refine Completes.of_windowWrite h hl (Blk.winWriteWaits_off hs hw) ?_
    rw [Blk.winWriteNow_off hd ((Blk.slots_atPort s.blk .host).1.trans hs), Blk.winPut_outside (by rw [winPieces_atPort]; exact hp)]
  · rintro s off i x d o h hl hw hat rfl hd rfl hm hn
    obtain ⟨-, hat', hsize, -⟩ := Blk.slots_atPort s.blk .host
    have hne : d ≠ [] := by
      rintro rfl
      cases hd
    have hfit : 0 + d.length ≤ (s.blk.atPort .host).slotSize := by
      rw [hd, Blk.slotSize]
      exact Nat.one_le_two_pow
    refine Completes.of_windowWrite h hl hw ?_
    rw [Blk.winWriteNow_slot hne ((hat' off).trans hat) hfit, Blk.winSlotWrite_owner hd hm hn]
  · rintro s off i x d o h hl hw hat hx hne hfit rfl ho
    obtain ⟨-, hat', hsize, -⟩ := Blk.slots_atPort s.blk .host
    refine Completes.of_windowWrite h hl hw ?_
    rw [Blk.winWriteNow_slot hne ((hat' off).trans hat) (by rw [hsize]; exact hfit), Blk.winSlotWrite_payload hx hne ho]
  · intro s bar h
    refine Completes.of_bus (exec_pcieAtomicop s bar) h (Blk.carry_plain rfl) ?_
    exact ⟨(Blk.send_evFrame _ _).trans (settle_frame _ _), Blk.mem_settle_send _ _ _⟩

end Sys2Proof.Machine
end

section
/-! Proofs: fabric requests at their home (R46, R332 to R334, R337). -/

namespace Sys2Proof.Machine
open Sys2Proof

/-- What a request that need not be held does, by its type. -/
def Blk.serve (b : Blk) (p : Packet) : Blk :=
  if p.typ = 1 then b.homeRead p
  else if p.typ = 2 then b.homeWrite p
  else if p.typ = 3 then b.homeAtomic p
  else if p.typ = 4 then b.respond p 0x84 stOK []
  else if p.typ = 5 then b.homeDoorbell p
  else b.homeEntry p

section
variable {b : Blk} {l k : Nat} {p : Packet}

/-- A well-formed request that has arrived for this module. -/
theorem Blk.typedIn_req (hk : k < 0x10) (hl : (b.link l).st = .up) (hf : pktForm (b.arrived k p) = true) :
    b.typedIn l k p = b.homeReq l (b.arrived k p) := by
  have h10 : k ≠ 0x10 := by omega
  have hrsp : pktIsRsp (b.arrived k p) = false := decide_eq_false (by simp only; omega)
  have hup : ((b.link l).st != .up) = false := by rw [hl]; rfl
  rw [Blk.typedIn, Blk.packetIn, hup, Blk.packetDo]
  simp only [hf, hrsp, h10, Bool.not_true, Bool.false_eq_true, if_false, bne_self_eq_false]

/-- A request that need not be held is served. -/
theorem Blk.typedIn_serve (hk : k < 0x10) (h : b.homeNow l (b.arrived k p) = true) :
    b.hubUp = true ∧ b.typedIn l k p = b.serve (b.arrived k p) := by
  simp only [Blk.homeNow, Bool.and_eq_true, Bool.not_eq_true', beq_iff_eq, Bool.or_eq_true, decide_eq_true_eq] at h
  obtain ⟨⟨⟨⟨⟨hu, hl⟩, hf⟩, hr⟩, hb⟩, hw⟩ := h
  refine ⟨hu, ?_⟩
  rw [Blk.typedIn_req hk hl hf, Blk.homeReq]
  generalize b.arrived k p = x at hr hb hw ⊢
  generalize b.reqRange x = r at hw ⊢
  obtain ⟨a, n⟩ := r
  simp only [hr, hb, Bool.or_self, Bool.false_eq_true, if_false]
  rw [if_neg, Blk.serve]
  simp only [Bool.and_eq_true, decide_eq_true_eq, bne_iff_ne, not_and]
  rintro ⟨hn, hle⟩
  obtain (h0 | h1) | h2 := hw
  · exact absurd h0 hn
  · omega
  · simp [h2]

end

section
variable {s : State} {l : Nat} {p : Packet}

/-- A request that need not be held, for what serving it leaves. -/
theorem Completes.of_home {c : Instr} {k : Nat} {t : Blk} (hx : exec c s = hubAct s (fun b => b.typedIn l k p)) (hk : k < 0x10)
    (h : s.blk.homeNow l (s.blk.arrived k p) = true) (ht : s.blk.serve (s.blk.arrived k p) = t) : Completes c s (EvFrame t) := by
  obtain ⟨hu, hs⟩ := Blk.typedIn_serve hk h
  exact Completes.hubFrame hx hu (hs.trans ht)

end

section
variable {b : Blk} {p : Packet}

theorem Blk.homeRead_ok (h : b.homeOk p.addr p.arg p.qs = true) (hs : b.mem.sramBad = none)
    (hr : (readRange b (rqFab p.qs) (haMpa p.addr) p.arg).st = stOK) :
    b.homeRead p = (readRange b (rqFab p.qs) (haMpa p.addr) p.arg).b.respond p 0x81
      (if (readRange b (rqFab p.qs) (haMpa p.addr) p.arg).corr then stFLAGGED else stOK)
      (readRange b (rqFab p.qs) (haMpa p.addr) p.arg).data := by
  rw [Blk.homeRead, h, hs]
  generalize readRange b (rqFab p.qs) (haMpa p.addr) p.arg = r at hr ⊢
  simp [hr]

theorem Blk.homeRead_sram {buf o : Nat} (h : b.homeOk p.addr p.arg p.qs = true) (hs : b.mem.sramBad = some (buf, o)) :
    b.homeRead p = (b.sramHit (some p.qs) pFAB buf o).respond p 0x81 stUNCORR [] := by
  rw [Blk.homeRead, h, hs]
  rfl

theorem Blk.homeRead_range (h : b.homeOk p.addr p.arg p.qs = false) : b.homeRead p = b.respond p 0x81 stRANGE [] := by
  rw [Blk.homeRead, h]
  rfl

theorem Blk.slotHeads_off (hs : b.slotsOn = false) (a n : Nat) : b.slotHeads a n = [] := by simp [Blk.slotHeads, hs]

/-- Without slots a write over the fabric is a write. -/
theorem Blk.fabWrite_off (hs : b.slotsOn = false) (rq : Req) (a : Nat) (d : Bytes) : b.fabWrite rq a d = writeRange b rq a d := by
  rw [Blk.fabWrite, Blk.slotHeads_off hs]
  rfl

theorem Blk.homeWrite_ok (h : b.homeOk p.addr p.arg p.qs = true) (hl : p.arg ≤ p.payload.length) (hs : b.slotsOn = false) :
    b.homeWrite p = (writeRange b (rqFab p.qs) (haMpa p.addr) (p.payload.take p.arg)).1.respond p 0x82
      (writeRange b (rqFab p.qs) (haMpa p.addr) (p.payload.take p.arg)).2 [] := by
  rw [Blk.homeWrite, Blk.fabWrite_off hs, h, if_neg (by simpa using hl)]

theorem Blk.homeWrite_range (h : b.homeOk p.addr p.arg p.qs = false ∨ p.payload.length < p.arg) :
    b.homeWrite p = b.respond p 0x82 stRANGE [] := by
  rw [Blk.homeWrite, if_pos]
  simpa using h

theorem Blk.homeAtomic_ok (ha : atomicOk p.sub p.addr = true) (h : b.homeOk p.addr (atomicLen p.sub) p.qs = true)
    (hr : (readRange b (rqFab p.qs) (haMpa p.addr) (atomicLen p.sub)).st = stOK)
    (hc : (readRange b (rqFab p.qs) (haMpa p.addr) (atomicLen p.sub)).corr = false)
    (hw : ((readRange b (rqFab p.qs) (haMpa p.addr) (atomicLen p.sub)).b.otherWrite (rqFab p.qs) (haMpa p.addr)
      (leBytes (atomicLen p.sub) (atomicNew p.sub (leNat (readRange b (rqFab p.qs) (haMpa p.addr) (atomicLen p.sub)).data) p.arg
        (fld p.payload 0 8)))).2 = stOK) :
    b.homeAtomic p = ((readRange b (rqFab p.qs) (haMpa p.addr) (atomicLen p.sub)).b.otherWrite (rqFab p.qs) (haMpa p.addr)
      (leBytes (atomicLen p.sub) (atomicNew p.sub (leNat (readRange b (rqFab p.qs) (haMpa p.addr) (atomicLen p.sub)).data) p.arg
        (fld p.payload 0 8)))).1.respond p 0x83 stOK
        (leBytes 16 (leNat (readRange b (rqFab p.qs) (haMpa p.addr) (atomicLen p.sub)).data)) := by
  rw [Blk.homeAtomic, ha, h, Blk.atomicAt]
  dsimp only
  generalize readRange b (rqFab p.qs) (haMpa p.addr) (atomicLen p.sub) = r at hr hc hw ⊢
  generalize r.b.otherWrite (rqFab p.qs) (haMpa p.addr) (leBytes (atomicLen p.sub) (atomicNew p.sub (leNat r.data) p.arg
    (fld p.payload 0 8))) = w at hw ⊢
  obtain ⟨c, st⟩ := w
  simp only at hw
  simp [hr, hc, hw]

theorem Blk.homeAtomic_form (ha : atomicOk p.sub p.addr = false) : b.homeAtomic p = b.respond p 0x83 stDESC (zeros 16) := by
  rw [Blk.homeAtomic, ha]
  rfl

theorem Blk.pairOk_lt (h : b.pairOk p = true) : p.addr < 64 := by
  simp only [Blk.pairOk, Bool.and_eq_true, decide_eq_true_eq] at h
  exact h.1.1.1

theorem Blk.homeDoorbell_ok (h : b.pairOk p = true) :
    b.homeDoorbell p = (b.ring p.addr pFAB (BitVec.ofNat 32 p.arg)).respond p 0x85 stOK [] := by
  have hlt := Blk.pairOk_lt h
  simp [Blk.homeDoorbell, h, hlt, Nat.mod_eq_of_lt hlt]

/-- A doorbell to a pair that is off, or that the fabric may not ring. -/
theorem Blk.homeDoorbell_refused (hlt : p.addr < 64) (h : (b.qp p.addr).enabled = false ∨ b.mayRing p.addr pFAB = false) :
    b.homeDoorbell p = (b.qpEvent p.addr 3).respond p 0x85 stRANGE [] := by
  have hbad : b.pairOk p = false := by
    obtain h | h := h <;> simp [Blk.pairOk, Nat.mod_eq_of_lt hlt, h]
  have hring : b.ring p.addr pFAB (BitVec.ofNat 32 p.arg) = b.qpEvent p.addr 3 := by
    obtain h | h := h <;> simp [Blk.ring, h]
  have hdo : (decide (p.addr < 64) && (false || !(b.qp p.addr).enabled || !b.mayRing p.addr pFAB)) = true := by
    obtain h | h := h <;> simp [hlt, h]
  rw [Blk.homeDoorbell, hbad, Nat.mod_eq_of_lt hlt, hdo, if_pos rfl, hring]
  rfl

theorem Blk.homeEntry_ok (ht : p.typ = 6) (h : b.pairOk p = true) (hl : b.sqLocal p.addr = true)
    (hw : (b.otherWrite (rqFab p.qs) (b.sqBase p.addr + 128 * (p.arg % 2 ^ b.sqLog p.addr)) (bytesAt p.payload 0 128)).2 = stOK) :
    b.homeEntry p = ((b.otherWrite (rqFab p.qs) (b.sqBase p.addr + 128 * (p.arg % 2 ^ b.sqLog p.addr)) (bytesAt p.payload 0 128)).1.ring
      p.addr pFAB (BitVec.ofNat 32 (p.arg + 1))).respond p 0x86 stOK [] := by
  have hlt := Blk.pairOk_lt h
  have hrange : (b.reqRange p).1 = b.sqBase p.addr + 128 * (p.arg % 2 ^ b.sqLog p.addr) := by
    simp [Blk.reqRange, ht, Nat.mod_eq_of_lt hlt]
  rw [Blk.homeEntry, hrange, Nat.mod_eq_of_lt hlt, h, hl]
  generalize b.otherWrite (rqFab p.qs) (b.sqBase p.addr + 128 * (p.arg % 2 ^ b.sqLog p.addr)) (bytesAt p.payload 0 128) = w at hw ⊢
  obtain ⟨c, st⟩ := w
  simp only at hw
  simp [hw]

theorem Blk.homeEntry_refused (h : b.pairOk p = false ∨ b.sqLocal (p.addr % 64) = false) :
    b.homeEntry p = b.respond p 0x86 stRANGE [] := by
  rw [Blk.homeEntry, if_pos]
  simpa using h

end

/-- Settles O46: a request that need not be held is served by its type. -/
theorem homeRequests : Obligations.HomeRequests := by
  refine ⟨fun s l p h ho hs hr => ?_, fun s l buf o p h ho hs => ?_, fun s l p h ho => ?_, fun s l p h ho hl hs => ?_,
    fun s l p h ho => ?_, fun s l p h ha ho hr hc hw => ?_, fun s l p h ha => ?_, fun s l p h => ?_, fun s l p h ho => ?_,
    fun s l p h hlt ho => ?_, fun s l p h ho hq hw => ?_, fun s l p h ho => ?_, fun s l p hu hl hf hr => ?_⟩
  · exact Completes.of_home (exec_fabRead s l p) (by decide) h (Blk.homeRead_ok ho hs hr)
  · exact Completes.of_home (exec_fabRead s l p) (by decide) h (Blk.homeRead_sram ho hs)
  · exact Completes.of_home (exec_fabRead s l p) (by decide) h (Blk.homeRead_range ho)
  · exact Completes.of_home (exec_fabWrite s l p) (by decide) h (Blk.homeWrite_ok ho hl hs)
  · exact Completes.of_home (exec_fabWrite s l p) (by decide) h (Blk.homeWrite_range ho)
  · exact Completes.of_home (exec_fabAtomic s l p) (by decide) h (Blk.homeAtomic_ok ha ho hr hc hw)
  · exact Completes.of_home (exec_fabAtomic s l p) (by decide) h (Blk.homeAtomic_form ha)
  · exact Completes.of_home (exec_fabFence s l p) (by decide) h rfl
  · exact Completes.of_home (exec_fabDoorbell s l p) (by decide) h (Blk.homeDoorbell_ok ho)
  · exact Completes.of_home (exec_fabDoorbell s l p) (by decide) h (Blk.homeDoorbell_refused hlt ho)
  · exact Completes.of_home (exec_fwdEntry s l p) (by decide) h (Blk.homeEntry_ok rfl ho hq hw)
  · exact Completes.of_home (exec_fwdEntry s l p) (by decide) h (Blk.homeEntry_refused ho)
  · refine Completes.hubFrame (exec_fabRead s l p) hu ?_
    rw [Blk.typedIn_req (by decide) hl hf, Blk.homeReq, hr]
    rfl

end Sys2Proof.Machine
end

section
/-! Proofs: inbound RoCE frames: their order, their answers and a failed check (R347 to R350). -/

namespace Sys2Proof.Machine
open Sys2Proof

section
variable {b : Blk} {f : RFrame}

/-! ### A frame that its context takes now -/

/-- A context takes a frame, whatever the frame's PSN. -/
structure Blk.TakesFrame (b : Blk) (op : Nat) (f : RFrame) : Prop where
  hub : b.hubUp = true
  phase : (b.qpc f.qpn).phase = .ready
  port : (b.qpc f.qpn).port = f.port
  up : b.portUp f.port = true
  free : b.remoteHeld = false
  first : b.held.all (fun h => match h with | .rdma _ g => g.qpn != f.qpn | _ => true) = true
  range : (b.frameRange op f).2 = 0 ∨ b.mustWait cRemote (b.frameRange op f).1 (b.frameRange op f).2 = false

theorem Blk.frameNow_iff {op : Nat} : b.frameNow op f = true ↔ b.TakesFrame op f ∧ f.psn = (b.qpc f.qpn).rqPsn := by
  simp only [Blk.frameNow, Bool.and_eq_true, Bool.not_eq_true', beq_iff_eq, Bool.or_eq_true]
  constructor
  · rintro ⟨⟨⟨⟨⟨⟨⟨hu, hph⟩, hport⟩, hup⟩, hr⟩, hheld⟩, hpsn⟩, hw⟩
    exact ⟨⟨hu, hph, hport, hup, hr, hheld, hw⟩, hpsn⟩
  · rintro ⟨⟨hu, hph, hport, hup, hr, hheld, hw⟩, hpsn⟩
    exact ⟨⟨⟨⟨⟨⟨⟨hu, hph⟩, hport⟩, hup⟩, hr⟩, hheld⟩, hpsn⟩, hw⟩

/-- What a frame that its context takes does, by its kind. -/
theorem Blk.TakesFrame.rdmaIn {op : Nat} (h : b.TakesFrame op f) :
    b.rdmaIn op f = if op = 0 then b.rdmaWrite f else if op = 1 then b.rdmaRead f else b.rdmaSend f := by
  obtain ⟨-, hph, hport, hup, hr, hheld, hw⟩ := h
  have hbefore : b.held.any (fun h => match h with
      | .rdma _ g => g.qpn == f.qpn
      | _ => false) = false := by
    refine List.any_eq_false.2 fun x hx => ?_
    have hq := List.all_eq_true.1 hheld x hx
    cases x <;> simp_all
  unfold Blk.rdmaIn
  generalize b.frameRange op f = r at hw ⊢
  obtain ⟨a, n⟩ := r
  dsimp only at hw ⊢
  rw [if_neg (by simp [hph, hport, hup]), if_neg, if_neg]
  · obtain h0 | h1 := hw
    · simp [h0]
    · simp [h1]
  · rw [Bool.or_eq_true, not_or]
    exact ⟨by simp [hr], fun h => Bool.noConfusion (hbefore.symm.trans h)⟩

/-- The next frame of a context goes on. -/
theorem Blk.inOrder_next {go : Blk → QpcSt → Blk} (h : f.psn = (b.qpc f.qpn).rqPsn) :
    b.inOrder f go = go (b.ecnSeen f) (b.qpc f.qpn) := by
  rw [Blk.inOrder, if_pos h]
  rfl

/-- One that is not next is answered alone. -/
theorem Blk.inOrder_other {go : Blk → QpcSt → Blk} (h : f.psn ≠ (b.qpc f.qpn).rqPsn) :
    b.inOrder f go = if psnLe f.psn (b.qpc f.qpn).rqPsn then (b.ecnSeen f).frame f.qpn 3 (((b.qpc f.qpn).rqPsn + 2 ^ 24 - 1) % 2 ^ 24) []
      else (b.ecnSeen f).frame f.qpn 9 (b.qpc f.qpn).rqPsn [] := by
  rw [Blk.inOrder, if_neg h]
  rfl

theorem Completes.of_frame {s : State} {c : Instr} {op : Nat} {P : Blk → Prop} {t : Blk}
    (hx : exec c s = hubAct s (fun b => b.rdmaIn op f)) (h : s.blk.TakesFrame op f)
    (ht : (if op = 0 then s.blk.rdmaWrite f else if op = 1 then s.blk.rdmaRead f else s.blk.rdmaSend f) = t)
    (hP : P (settle s.blk t)) : Completes c s P := by
  refine Completes.of_hub hx h.hub ?_
  rw [h.rdmaIn, ht]
  exact hP

/-! ### What is sent -/

theorem Blk.frame_evFrame (n k psn : Nat) (d : Bytes) : EvFrame b (b.frame n k psn d) := Blk.send_evFrame _ _

theorem Blk.mem_settle_frame (a : Blk) (n k psn : Nat) (d : Bytes) : .roce n k psn d ∈ (settle a (b.frame n k psn d)).sent :=
  Blk.mem_settle_send _ _ _

theorem Blk.ecnSeen_evFrame : EvFrame b (b.ecnSeen f) := by
  unfold Blk.ecnSeen
  split
  · exact Blk.frame_evFrame _ _ _ _
  · exact EvFrame.rfl' b

theorem Blk.ecnSeen_eq : ∃ m, b.ecnSeen f = { b with sent := m } := by
  unfold Blk.ecnSeen
  split
  · exact ⟨_, rfl⟩
  · exact ⟨_, rfl⟩

theorem EvFrame.setQpc {a c : Blk} (h : EvFrame a c) (n : Nat) (x : QpcSt) : EvFrame (a.setQpc n x) (c.setQpc n x) := by
  obtain ⟨e, m, rfl⟩ := h
  exact ⟨e, m, rfl⟩

theorem EvFrame.logE {a c : Blk} (h : EvFrame a c) (k : Nat) (x : LogArg) : EvFrame (a.logE k x) (c.logE k x) := by
  obtain ⟨e, m, rfl⟩ := h
  unfold Blk.logE
  dsimp only
  split <;> exact ⟨e, m, rfl⟩

theorem EvFrame.orReg {a c : Blk} (h : EvFrame a c) (o v : Nat) : EvFrame (a.orReg o v) (c.orReg o v) := by
  obtain ⟨e, m, rfl⟩ := h
  exact ⟨e, m, by simp only [Blk.orReg, Blk.setReg, Blk.reg]⟩

theorem EvFrame.moduleFault {a c : Blk} (h : EvFrame a c) (d : Nat) : EvFrame (a.moduleFault d) (c.moduleFault d) := by
  have hregs := (h.orReg oSDG_STATUS 4).orReg oSDG_EVENTS (2 ^ 5)
  simp only [Blk.moduleFault, Blk.sdgEvent_eq]
  generalize (a.orReg oSDG_STATUS 4).orReg oSDG_EVENTS (2 ^ 5) = a' at hregs ⊢
  generalize (c.orReg oSDG_STATUS 4).orReg oSDG_EVENTS (2 ^ 5) = c' at hregs ⊢
  obtain ⟨e, m, rfl⟩ := hregs
  exact EvFrame.logE ⟨e, m, rfl⟩ _ _

/-- The findings of a buffer's error do not depend on what is sent. -/
theorem EvFrame.sramHit {a c : Blk} (h : EvFrame a c) (q : Option Nat) (path buf off : Nat) :
    EvFrame (a.sramHit q path buf off) (c.sramHit q path buf off) := by
  obtain ⟨e, m, rfl⟩ := h
  have hmem : ∀ x : MemSt, EvFrame { a with mem := x } { a with mem := x, ev := e, sent := m } := fun _ => ⟨e, m, rfl⟩
  unfold Blk.sramHit
  dsimp only
  split
  · exact ((hmem _).logE _ _).moduleFault _
  · exact (hmem _).logE _ _

theorem Blk.ackFrame_evFrame (n : Nat) : EvFrame b (b.ackFrame n f) := by
  unfold Blk.ackFrame
  split
  · exact Blk.frame_evFrame _ _ _ _
  · exact EvFrame.rfl' b

theorem Blk.ackFrame_sends {n : Nat} (h : f.ackReq = true ∨ RPos.ends f.pos = true) : b.ackFrame n f = b.frame n 3 f.psn [] := by
  rw [Blk.ackFrame, if_pos]
  simpa [RPos.ends, or_assoc] using h

theorem Blk.mem_settle_ackFrame (a : Blk) {n : Nat} (h : f.ackReq = true ∨ RPos.ends f.pos = true) :
    .roce n 3 f.psn [] ∈ (settle a (b.ackFrame n f)).sent := by
  rw [Blk.ackFrame_sends h]
  exact Blk.mem_settle_frame _ _ _ _ _

end

/-! ### A failed check -/

/-- A block differs from another in its entries alone. -/
def OnlyFlights (a b : Blk) : Prop := ∃ l, b = { a with flights := l }

theorem OnlyFlights.netFinish {a b : Blk} (h : OnlyFlights a b) (p : NetPost) (st result : Nat) :
    OnlyFlights a (b.netFinish p st result) := by
  unfold Blk.netFinish
  split
  · obtain ⟨l, rfl⟩ := h
    exact ⟨_, rfl⟩
  · exact h

/-- A context in ERROR: its posts end, and it holds nothing. -/
theorem Blk.qpcError_eq (b : Blk) (n st : Nat) : ∃ c, OnlyFlights b c ∧ b.qpcError n st
    = (c.setQpc n { b.qpc n with phase := .error, posts := [], recvs := [], sendBuf := [], left := 0 }).netEvent 1 := by
  unfold Blk.qpcError
  extract_lets x c d
  have hc : OnlyFlights b c := by
    show OnlyFlights b (match x.posts with
      | [] => b
      | p :: t => t.foldl (fun (b : Blk) p => b.netFinish p stABORT 0) (b.netFinish p st 0))
    split
    · exact ⟨_, rfl⟩
    · exact foldl_keeps (P := OnlyFlights b) (fun y p h => h.netFinish p _ _) _ (OnlyFlights.netFinish ⟨_, rfl⟩ _ _ _)
  exact ⟨d, foldl_keeps (P := OnlyFlights b) (fun y p h => h.netFinish p _ _) _ hc, rfl⟩

theorem satInc_toNat (w : W32) : (satInc w).toNat = min (w.toNat + 1) (2 ^ 32 - 1) := by
  have hlt := w.isLt
  unfold satInc
  split
  · subst_vars
    rfl
  next h =>
    have hne : w.toNat ≠ 2 ^ 32 - 1 := fun e => h (BitVec.eq_of_toNat_eq (by rw [e]; rfl))
    rw [BitVec.toNat_add, show (1 : W32).toNat = 1 from rfl]
    omega

theorem Blk.reg_incReg_same (b : Blk) (off : Nat) : (b.incReg off).reg off = min (b.reg off + 1) (2 ^ 32 - 1) := by
  have hlt := b.reg_lt off
  rw [Blk.incReg, Blk.reg, tget_tset_same, satInc_toNat, BitVec.toNat_ofNat, Nat.mod_eq_of_lt hlt]

theorem Blk.reg_incReg_other (b : Blk) {off o : Nat} (h : o ≠ off) : (b.incReg off).reg o = b.reg o := by
  rw [Blk.incReg, Blk.reg]
  exact congrArg BitVec.toNat (tget_tset_other _ _ h _)

/-- A request that fails a check: its context is in ERROR, it is answered, and it is counted (R349). -/
theorem Blk.accessNak_spec (a b : Blk) (n psn : Nat) : ((settle a (b.accessNak n psn)).qpc n).phase = .error
    ∧ ((settle a (b.accessNak n psn)).qpc n).posts = [] ∧ .roce n 4 psn [] ∈ (settle a (b.accessNak n psn)).sent
    ∧ (settle a (b.accessNak n psn)).reg oNET_NAK = min (b.reg oNET_NAK + 1) (2 ^ 32 - 1)
    ∧ ((settle a (b.accessNak n psn)).reg oNET_EVENTS).testBit 1 = true ∧ (settle a (b.accessNak n psn)).mem = b.mem := by
  obtain ⟨c, ⟨l, rfl⟩, hc⟩ := (b.frame n 4 psn []).qpcError_eq n stABORT
  have hq : (settle a (b.accessNak n psn)).qpc n = (b.accessNak n psn).qpc n := by rw [settle_eq]; rfl
  rw [hq, settle_reg, settle_reg, settle_mem, Blk.accessNak, hc, Blk.reg_incReg_same, Blk.reg_incReg_other _ (by decide)]
  have hqpc : ∀ x y, ((((({ b.frame n 4 psn [] with flights := l } : Blk).setQpc n x).netEvent 1).incReg y).qpc n) = x := fun x _ =>
    tget_tset_same _ _ _ _
  rw [hqpc]
  refine ⟨rfl, rfl, settle_sent _ _ ?_, ?_, Blk.testBit_orReg _ _ (by decide), rfl⟩
  · exact List.mem_append_right _ (List.mem_singleton_self _)
  · rw [Blk.netEvent, Blk.reg_orReg_other _ _ (by decide)]
    rfl

end Sys2Proof.Machine
end

section
/-! Proofs: RDMA_WRITE, RDMA_READ and RDMA_SEND from outside (R347 to R350). -/

namespace Sys2Proof.Machine
open Sys2Proof

section
variable {b : Blk} {f : RFrame}

theorem QpcSt.begun_rqPsn (x : QpcSt) (f : RFrame) : (x.begun f).rqPsn = x.rqPsn := by
  unfold QpcSt.begun
  split <;> rfl

theorem rqNet_begun (x : QpcSt) (f : RFrame) : rqNet (x.begun f) = rqNet x := by
  unfold QpcSt.begun
  split <;> rfl

/-! ### RDMA_WRITE -/

/-- A WRITE that passes its check and is next. -/
theorem Blk.rdmaWrite_next (h : f.psn = (b.qpc f.qpn).rqPsn)
    (hok : RPos.starts f.pos = true → (b.ecnSeen f).rdmaOk (b.qpc f.qpn) true f = true) :
    b.rdmaWrite f = (let x := (b.qpc f.qpn).begun f
      let d := f.payload.take x.left
      let r := if d.isEmpty then (b.ecnSeen f, stOK) else (b.ecnSeen f).fabWrite (rqNet x) x.va d
      if r.2 != stOK then (r.1.setQpc f.qpn { x with left := 0 }).frame f.qpn 5 f.psn []
      else (r.1.setQpc f.qpn { x with va := x.va + d.length, left := x.left - d.length, rqPsn := psnAdd x.rqPsn 1 }).ackFrame f.qpn f) := by
  have hbad : (RPos.starts f.pos && !(b.ecnSeen f).rdmaOk (b.qpc f.qpn) true f) = false := by
    cases hp : RPos.starts f.pos with
    | false => rfl
    | true => rw [hok hp]; rfl
  rw [Blk.rdmaWrite, Blk.inOrder_next h, hbad]
  rfl

/-- A WRITE that fails its check. -/
theorem Blk.rdmaWrite_refused (h : f.psn = (b.qpc f.qpn).rqPsn) (hs : RPos.starts f.pos = true)
    (hbad : (b.ecnSeen f).rdmaOk (b.qpc f.qpn) true f = false) : b.rdmaWrite f = (b.ecnSeen f).accessNak f.qpn f.psn := by
  rw [Blk.rdmaWrite, Blk.inOrder_next h, hs, hbad]
  rfl

end

section
variable {s : State} {f : RFrame}

/-- A WRITE of no bytes. -/
theorem rdmaWrite_empty (h : s.blk.frameNow 0 f = true)
    (hok : RPos.starts f.pos = true → (s.blk.ecnSeen f).rdmaOk (s.blk.qpc f.qpn) true f = true)
    (hd : f.payload.take ((s.blk.qpc f.qpn).begun f).left = []) :
    Completes (.rdmaWrite f) s (fun b =>
      EvFrame (s.blk.setQpc f.qpn { (s.blk.qpc f.qpn).begun f with rqPsn := psnAdd f.psn 1 }) b
      ∧ ((f.ackReq = true ∨ RPos.ends f.pos = true) → .roce f.qpn 3 f.psn [] ∈ b.sent)) := by
  obtain ⟨ht, hpsn⟩ := Blk.frameNow_iff.1 h
  refine Completes.of_frame (exec_rdmaWrite s f) ht ((if_pos rfl).trans (Blk.rdmaWrite_next hpsn hok)) ?_
  have hx := QpcSt.begun_rqPsn (s.blk.qpc f.qpn) f
  rw [← hpsn] at hx
  simp only [hd, List.isEmpty_nil, if_true, List.length_nil, Nat.add_zero, Nat.sub_zero, bne_self_eq_false, Bool.false_eq_true,
    if_false, hx]
  exact ⟨((Blk.ecnSeen_evFrame.setQpc _ _).trans (Blk.ackFrame_evFrame _)).trans (settle_frame _ _), Blk.mem_settle_ackFrame _⟩

/-- A WRITE of bytes. -/
theorem rdmaWrite_stores (h : s.blk.frameNow 0 f = true)
    (hok : RPos.starts f.pos = true → (s.blk.ecnSeen f).rdmaOk (s.blk.qpc f.qpn) true f = true)
    (hd : f.payload.take ((s.blk.qpc f.qpn).begun f).left ≠ [])
    (hw : ((s.blk.ecnSeen f).fabWrite (rqNet (s.blk.qpc f.qpn)) ((s.blk.qpc f.qpn).begun f).va
      (f.payload.take ((s.blk.qpc f.qpn).begun f).left)).2 = stOK) :
    Completes (.rdmaWrite f) s (fun b =>
      EvFrame (((s.blk.ecnSeen f).fabWrite (rqNet (s.blk.qpc f.qpn)) ((s.blk.qpc f.qpn).begun f).va
            (f.payload.take ((s.blk.qpc f.qpn).begun f).left)).1.setQpc f.qpn { (s.blk.qpc f.qpn).begun f with
        va := ((s.blk.qpc f.qpn).begun f).va + (f.payload.take ((s.blk.qpc f.qpn).begun f).left).length
        left := ((s.blk.qpc f.qpn).begun f).left - (f.payload.take ((s.blk.qpc f.qpn).begun f).left).length
        rqPsn := psnAdd f.psn 1 }) b
      ∧ ((f.ackReq = true ∨ RPos.ends f.pos = true) → .roce f.qpn 3 f.psn [] ∈ b.sent)) := by
  obtain ⟨ht, hpsn⟩ := Blk.frameNow_iff.1 h
  refine Completes.of_frame (exec_rdmaWrite s f) ht ((if_pos rfl).trans (Blk.rdmaWrite_next hpsn hok)) ?_
  have hx := QpcSt.begun_rqPsn (s.blk.qpc f.qpn) f
  rw [← hpsn] at hx
  simp only [List.isEmpty_iff, if_neg hd, rqNet_begun, hx]
  generalize (s.blk.ecnSeen f).fabWrite (rqNet (s.blk.qpc f.qpn)) ((s.blk.qpc f.qpn).begun f).va
    (f.payload.take ((s.blk.qpc f.qpn).begun f).left) = r at hw ⊢
  rw [hw, if_neg (by simp)]
  exact ⟨(Blk.ackFrame_evFrame _).trans (settle_frame _ _), Blk.mem_settle_ackFrame _⟩

/-- What a failed check leaves, in terms of the block before the frame. -/
theorem accessNak_ecnSeen (n psn : Nat) : let c := settle s.blk ((s.blk.ecnSeen f).accessNak n psn)
    (c.qpc n).phase = .error ∧ (c.qpc n).posts = [] ∧ .roce n 4 psn [] ∈ c.sent
    ∧ c.reg oNET_NAK = min (s.blk.reg oNET_NAK + 1) (2 ^ 32 - 1) ∧ (c.reg oNET_EVENTS).testBit 1 = true ∧ SameMem s.blk c := by
  have h := Blk.accessNak_spec s.blk (s.blk.ecnSeen f) n psn
  obtain ⟨m, hm⟩ := s.blk.ecnSeen_eq (f := f)
  have hreg : (s.blk.ecnSeen f).reg oNET_NAK = s.blk.reg oNET_NAK := by
    rw [hm, Blk.reg, Blk.reg]
  have hmem : (s.blk.ecnSeen f).mem = s.blk.mem := by rw [hm]
  rw [hreg, hmem] at h
  exact h

/-! ### RDMA_READ -/

theorem rdmaRead_delivers (h : s.blk.frameNow 1 f = true) (hok : (s.blk.ecnSeen f).rdmaOk (s.blk.qpc f.qpn) false f = true)
    (hs : s.blk.mem.sramBad = none) (hr : (readRange (s.blk.ecnSeen f) (rqNet (s.blk.qpc f.qpn)) f.va f.len).st = stOK) :
    Completes (.rdmaRead f) s (fun b =>
      EvFrame ((readRange (s.blk.ecnSeen f) (rqNet (s.blk.qpc f.qpn)) f.va f.len).b.setQpc f.qpn
        { s.blk.qpc f.qpn with rqPsn := psnAdd f.psn ((s.blk.qpc f.qpn).frames f.len) }) b
      ∧ .roce f.qpn 8 f.psn (readRange (s.blk.ecnSeen f) (rqNet (s.blk.qpc f.qpn)) f.va f.len).data ∈ b.sent) := by
  obtain ⟨ht, hpsn⟩ := Blk.frameNow_iff.1 h
  have hmem : (s.blk.ecnSeen f).mem.sramBad = none := by
    obtain ⟨m, hm⟩ := s.blk.ecnSeen_eq (f := f)
    rw [hm]
    exact hs
  refine Completes.of_frame (exec_rdmaRead s f) ht rfl ?_
  simp only [Nat.one_ne_zero, reduceIte, Blk.rdmaRead, Blk.inOrder_next hpsn, hok, hmem, Bool.not_true, Bool.false_eq_true, ← hpsn]
  generalize readRange (s.blk.ecnSeen f) (rqNet (s.blk.qpc f.qpn)) f.va f.len = r at hr ⊢
  rw [hr, if_neg (by simp)]
  exact ⟨(Blk.frame_evFrame _ _ _ _).trans (settle_frame _ _), Blk.mem_settle_frame _ _ _ _ _⟩

theorem rdmaRead_sram {buf o : Nat} (h : s.blk.frameNow 1 f = true)
    (hok : (s.blk.ecnSeen f).rdmaOk (s.blk.qpc f.qpn) false f = true) (hs : s.blk.mem.sramBad = some (buf, o)) :
    Completes (.rdmaRead f) s (fun b => EvFrame (s.blk.sramHit (some (s.blk.qpc f.qpn).owner) pNET buf o) b
      ∧ .roce f.qpn 5 f.psn [] ∈ b.sent) := by
  obtain ⟨ht, hpsn⟩ := Blk.frameNow_iff.1 h
  have hmem : (s.blk.ecnSeen f).mem.sramBad = some (buf, o) := by
    obtain ⟨m, hm⟩ := s.blk.ecnSeen_eq (f := f)
    rw [hm]
    exact hs
  refine Completes.of_frame (exec_rdmaRead s f) ht rfl ?_
  simp only [Nat.one_ne_zero, reduceIte, Blk.rdmaRead, Blk.inOrder_next hpsn, hok, hmem, Bool.not_true, Bool.false_eq_true]
  exact ⟨((Blk.ecnSeen_evFrame.sramHit _ _ _ _).trans (Blk.frame_evFrame _ _ _ _)).trans (settle_frame _ _),
    Blk.mem_settle_frame _ _ _ _ _⟩

theorem rdmaRead_refused (h : s.blk.frameNow 1 f = true) (hbad : (s.blk.ecnSeen f).rdmaOk (s.blk.qpc f.qpn) false f = false) :
    Completes (.rdmaRead f) s (fun b => (b.qpc f.qpn).phase = .error ∧ .roce f.qpn 4 f.psn [] ∈ b.sent
      ∧ b.reg oNET_NAK = min (s.blk.reg oNET_NAK + 1) (2 ^ 32 - 1) ∧ SameMem s.blk b) := by
  obtain ⟨ht, hpsn⟩ := Blk.frameNow_iff.1 h
  refine Completes.of_frame (exec_rdmaRead s f) ht rfl ?_
  simp only [Nat.one_ne_zero, reduceIte, Blk.rdmaRead, Blk.inOrder_next hpsn, hbad, Bool.not_false]
  obtain ⟨hph, -, hsent, hreg, -, hmem⟩ := accessNak_ecnSeen (s := s) (f := f) f.qpn f.psn
  exact ⟨hph, hsent, hreg, hmem⟩

/-! ### RDMA_SEND -/

theorem rdmaSend_rings (h : s.blk.frameNow 2 f = true) (hdb : (s.blk.qpc f.qpn).doorbell = true) (he : RPos.ends f.pos = true) :
    Completes (.rdmaSend f) s (fun b =>
      EvFrame (((s.blk.ecnSeen f).setQpc f.qpn { s.blk.qpc f.qpn with sendBuf := [], rqPsn := psnAdd f.psn 1 }).ring
        (s.blk.qpc f.qpn).dbQp pNET (BitVec.ofNat 32 (fld ((s.blk.qpc f.qpn).sent f) 0 4))) b
      ∧ .roce f.qpn 3 f.psn [] ∈ b.sent) := by
  obtain ⟨ht, hpsn⟩ := Blk.frameNow_iff.1 h
  refine Completes.of_frame (exec_rdmaSend s f) ht rfl ?_
  simp only [OfNat.ofNat_ne_zero, OfNat.ofNat_ne_one, reduceIte, Blk.rdmaSend, Blk.inOrder_next hpsn, hdb, he, ← hpsn]
  exact ⟨(Blk.ackFrame_evFrame _).trans (settle_frame _ _), Blk.mem_settle_ackFrame _ (.inr he)⟩

theorem Blk.nextRecv_ecnSeen (b : Blk) (f : RFrame) (x : QpcSt) : (b.ecnSeen f).nextRecv x = b.nextRecv x := by
  obtain ⟨m, hm⟩ := b.ecnSeen_eq (f := f)
  rw [hm]
  rfl

theorem rdmaSend_lands {p : NetPost} (h : s.blk.frameNow 2 f = true) (hdb : (s.blk.qpc f.qpn).doorbell = false)
    (he : RPos.ends f.pos = true) (hp : s.blk.nextRecv (s.blk.qpc f.qpn) = some p) (hl : ((s.blk.qpc f.qpn).sent f).length ≤ p.len)
    (hw : ((s.blk.ecnSeen f).otherWrite (rqNet (s.blk.qpc f.qpn)) p.addr ((s.blk.qpc f.qpn).sent f)).2 = stOK) :
    Completes (.rdmaSend f) s (fun b =>
      EvFrame (((((((s.blk.ecnSeen f).otherWrite (rqNet (s.blk.qpc f.qpn)) p.addr ((s.blk.qpc f.qpn).sent f)).1.noteScope p.q p.seq 2).noteSlots
        p.q p.seq p.addr ((s.blk.qpc f.qpn).sent f).length).setQpc f.qpn { s.blk.qpc f.qpn with
          recvs := (s.blk.qpc f.qpn).recvs.filter (fun (z : NetPost) => z != p)
          sendBuf := []
          rqPsn := psnAdd f.psn 1 }).netFinish p stOK ((s.blk.qpc f.qpn).sent f).length)) b
      ∧ .roce f.qpn 3 f.psn [] ∈ b.sent) := by
  obtain ⟨ht, hpsn⟩ := Blk.frameNow_iff.1 h
  refine Completes.of_frame (exec_rdmaSend s f) ht rfl ?_
  have hd : (if RPos.starts f.pos = true then [] else (s.blk.qpc f.qpn).sendBuf) ++ f.payload = (s.blk.qpc f.qpn).sent f := rfl
  simp only [OfNat.ofNat_ne_zero, OfNat.ofNat_ne_one, reduceIte, Blk.rdmaSend, Blk.inOrder_next hpsn, hdb, he, Bool.false_eq_true,
    Blk.nextRecv_ecnSeen, hp, hd, Blk.land, if_neg (Nat.not_lt.2 hl), ← hpsn]
  generalize (s.blk.ecnSeen f).otherWrite (rqNet (s.blk.qpc f.qpn)) p.addr ((s.blk.qpc f.qpn).sent f) = r at hw ⊢
  rw [hw, if_neg (by simp)]
  exact ⟨(Blk.ackFrame_evFrame _).trans (settle_frame _ _), Blk.mem_settle_ackFrame _ (.inr he)⟩

theorem rdmaSend_unposted (h : s.blk.frameNow 2 f = true) (hdb : (s.blk.qpc f.qpn).doorbell = false)
    (hp : s.blk.nextRecv (s.blk.qpc f.qpn) = none) :
    Completes (.rdmaSend f) s (fun b => EvFrame s.blk b ∧ .roce f.qpn 6 f.psn [] ∈ b.sent) := by
  obtain ⟨ht, hpsn⟩ := Blk.frameNow_iff.1 h
  refine Completes.of_frame (exec_rdmaSend s f) ht rfl ?_
  simp only [OfNat.ofNat_ne_zero, OfNat.ofNat_ne_one, reduceIte, Blk.rdmaSend, Blk.inOrder_next hpsn, hdb, Bool.false_eq_true,
    Blk.nextRecv_ecnSeen, hp]
  exact ⟨(Blk.ecnSeen_evFrame.trans (Blk.frame_evFrame _ _ _ _)).trans (settle_frame _ _), Blk.mem_settle_frame _ _ _ _ _⟩

/-! ### Frames out of order -/

theorem rdmaWrite_other (h : s.blk.frameNow 0 { f with psn := (s.blk.qpc f.qpn).rqPsn } = true) (hne : f.psn ≠ (s.blk.qpc f.qpn).rqPsn) :
    Completes (.rdmaWrite f) s (fun b => EvFrame s.blk b ∧
      (if psnLe f.psn (s.blk.qpc f.qpn).rqPsn then .roce f.qpn 3 (((s.blk.qpc f.qpn).rqPsn + 2 ^ 24 - 1) % 2 ^ 24) []
        else .roce f.qpn 9 (s.blk.qpc f.qpn).rqPsn []) ∈ b.sent) := by
  obtain ⟨ht, -⟩ := Blk.frameNow_iff.1 h
  have ht' : s.blk.TakesFrame 0 f := ⟨ht.hub, ht.phase, ht.port, ht.up, ht.free, ht.first, ht.range⟩
  refine Completes.of_frame (exec_rdmaWrite s f) ht' ((if_pos rfl).trans (Blk.inOrder_other hne)) ?_
  split
  · exact ⟨(Blk.ecnSeen_evFrame.trans (Blk.frame_evFrame _ _ _ _)).trans (settle_frame _ _), Blk.mem_settle_frame _ _ _ _ _⟩
  · exact ⟨(Blk.ecnSeen_evFrame.trans (Blk.frame_evFrame _ _ _ _)).trans (settle_frame _ _), Blk.mem_settle_frame _ _ _ _ _⟩

end

/-- Settles O49: a frame that its context takes now goes on where it is next, and is answered where it is not. -/
theorem roceRequests : Obligations.RoceRequests := by
  refine ⟨fun s f => rdmaWrite_empty, fun s f => rdmaWrite_stores, fun s f h hs hbad => ?_, fun s f => rdmaRead_delivers,
    fun s f buf o => rdmaRead_sram, fun s f => rdmaRead_refused, fun s f => rdmaSend_rings, fun s f p => rdmaSend_lands,
    fun s f => rdmaSend_unposted, fun s f => rdmaWrite_other, fun s f hu hph => ?_⟩
  · obtain ⟨ht, hpsn⟩ := Blk.frameNow_iff.1 h
    exact Completes.of_frame (exec_rdmaWrite s f) ht ((if_pos rfl).trans (Blk.rdmaWrite_refused hpsn hs hbad)) (accessNak_ecnSeen f.qpn f.psn)
  · refine Completes.hubFrame (exec_rdmaWrite s f) hu ?_
    unfold Blk.rdmaIn
    exact if_pos (by simp [hph])

end Sys2Proof.Machine
end

section
/-! Proofs: the start of an entry that waits for a slot's header (R81, R294, R302). -/

namespace Sys2Proof.Machine
open Sys2Proof

/-- Slots whose headers an entry is to read when it starts (R294). -/
def Blk.startSlots (b : Blk) (f : Flight) : List Nat :=
  b.slotsTouched (b.localOf (b.entrySpans f.q f.raw).1 ++ b.localOf (b.entrySpans f.q f.raw).2 ++ (paramSpans f.raw).1
    ++ (paramSpans f.raw).2)

theorem Blk.askSlots_asked (b : Blk) (l : List Nat) : Asked b (b.askSlots l) :=
  foldl_keeps (P := Asked b) (fun _ _ h => Blk.askExit_asked h _ _) l ⟨_, _, rfl⟩

/-- An entry that may start waits, before its form is looked at, for a slot's header that it is to read. -/
theorem Blk.startEntry_slotsWait {b : Blk} {q seq : Nat} {f : Flight} (hf : b.flight? q seq = some f) (hm : b.mayStart f = true)
    (hw : b.slotsWait (b.startSlots f) = true) : b.startEntry q seq = b.askSlots (b.startSlots f) := by
  obtain ⟨rfl, rfl⟩ := Blk.flight?_is hf
  unfold Blk.startEntry
  rw [hf]
  dsimp only
  generalize hs : b.slotsTouched _ = slots
  obtain rfl : b.startSlots f = slots := hs
  simp only [hm, hw, Bool.not_true, Bool.false_eq_true, if_false, if_true]

/-- Such an entry stays as it was accepted. -/
theorem entryStart_slotsWait {s : State} {q seq : Nat} {f : Flight} (hu : s.blk.hubUp = true) (hf : s.blk.flight? q seq = some f)
    (hm : s.blk.mayStart f = true) (hw : s.blk.slotsWait (s.blk.startSlots f) = true) :
    Completes (.entryStart q seq) s (fun b => b.flight? q seq = some f) := by
  refine Completes.of_hub (exec_entryStart s q seq) hu ?_
  obtain ⟨d, c, hask⟩ := s.blk.askSlots_asked (s.blk.startSlots f)
  rw [settle_flight?, Blk.startEntry_slotsWait hf hm hw, hask]
  exact hf

/-- A REMOTE_PUT of 256 bytes at address 0, with an inline_len of 1. -/
def badPut : Flight :=
  { q := 0, seq := 0, raw := [1, 0x30, 0, 1] ++ zeros 44 ++ leBytes 8 256 ++ zeros 72, path := 1, stage := .accepted, order := 0,
    mode := 0, status := 0, flags := 0, result := 0, scope := 0, preempted := false, reads := [], writes := [], slots := [], waits := [],
    txns := [], fetched := [], homes := [], used := [], progress := 0, out := [], burst := .start }

/-- The state after reset, with that entry accepted, one slot of 4 KiB at address 0, and segment 0 under conversion. -/
def badPutWaits : State := ⟨[], { Blk.reset with
  regs := [(bWINDOW + 0x808, BitVec.ofNat 32 (2 ^ 31 + 12 * 2 ^ 26))]
  mem := { Blk.reset.mem with convs := [⟨0, 0, true, [0], [], 0, 0, 0⟩] }
  flights := [badPut] }⟩

/-- Refutes O41: its clause on entries that break R297 or R299 asks that each ends at its start with DESC_INVALID. The
entry above breaks R299, and its start waits, because the slot's header that it is to read lies in a segment under
conversion (R81, R294): it stays accepted. -/
theorem not_entryLifecycle : ¬ Obligations.EntryLifecycle := by
  rintro ⟨-, hform, -⟩
  have hu : badPutWaits.blk.hubUp = true := by decide +kernel
  have hf : badPutWaits.blk.flight? 0 0 = some badPut := by decide +kernel
  have hm : badPutWaits.blk.mayStart badPut = true := by decide +kernel
  have hw : badPutWaits.blk.slotsWait (badPutWaits.blk.startSlots badPut) = true := by decide +kernel
  have hbad : entryForm badPut.raw = false := by decide +kernel
  have hwaits := entryStart_slotsWait hu hf hm hw
  obtain ⟨b, ⟨⟨g, hg, hdone, -⟩, -⟩, hsame⟩ := (hform badPutWaits 0 0 badPut hu hf hm hbad).both hwaits
  obtain rfl : g = badPut := Option.some.inj (hg.symm.trans hsame)
  exact absurd hdone (by decide)

end Sys2Proof.Machine
end

section
/-! Proofs: rows open and close (R88, R90, R93, R94, R97). -/

namespace Sys2Proof

/-! ### The listed members of a table -/

section
variable {α : Type} {j k : Nat} (v : α) (t : Tbl α)

theorem find?_tset_same : (tset k v t).find? (fun p => p.1 == k) = some (k, v) := by
  fun_induction tset k v t <;> simp_all [Ne.symm]

theorem find?_tset_other (h : j ≠ k) : (tset k v t).find? (fun p => p.1 == j) = t.find? (fun p => p.1 == j) := by
  fun_induction tset k v t <;> simp_all [List.find?_cons, h.symm]

theorem find?_tdel_same : (tdel k t).find? (fun p => p.1 == k) = none := by
  simp [tdel]

theorem find?_tdel_other (h : j ≠ k) : (tdel k t).find? (fun p => p.1 == j) = t.find? (fun p => p.1 == j) := by
  rw [tdel, List.find?_filter]
  refine List.find?_congr fun p _ => ?_
  by_cases hp : p.1 = j <;> simp [hp, h]

end

end Sys2Proof

namespace Sys2Proof.Machine
open Sys2Proof

section
variable (b : Blk) (ch bank row cls port half k : Nat)

/-! ### Open rows after an update -/

theorem Blk.openRowOf_congr {a c : Blk} (h : (c.chan ch).rows = (a.chan ch).rows) : c.openRowOf ch k = a.openRowOf ch k := by
  simp [Blk.openRowOf, h]

@[simp] theorem settle_openRowOf (a : Blk) : (settle a b).openRowOf ch k = b.openRowOf ch k :=
  Blk.openRowOf_congr _ _ (by rw [settle_chan])

@[simp] theorem Blk.openRowOf_take : (b.take ch cls half).openRowOf ch k = b.openRowOf ch k :=
  Blk.openRowOf_congr _ _ (by rw [Blk.take, Blk.chan_setChan_same])

@[simp] theorem Blk.openRowOf_granted : (b.granted ch cls port).openRowOf ch k = b.openRowOf ch k :=
  Blk.openRowOf_congr _ _ (by rw [Blk.granted, Blk.chan_setChan_same])

theorem Blk.openRowOf_openBank : (b.openBank ch bank row cls).openRowOf ch k = if k = bank then some row else b.openRowOf ch k := by
  rw [Blk.openRowOf, Blk.openBank, Blk.chan_setChan_same]
  split
  next h => rw [h, find?_tset_same]; rfl
  next h => rw [find?_tset_other _ _ h, Blk.openRowOf]

theorem Blk.openRowOf_closeBank : (b.closeBank ch bank).openRowOf ch k = if k = bank then none else b.openRowOf ch k := by
  rw [Blk.openRowOf, Blk.closeBank, Blk.chan_setChan_same]
  split
  next h => rw [h, find?_tdel_same]; rfl
  next h => rw [find?_tdel_other _ h, Blk.openRowOf]

/-! ### Where nothing waits -/

theorem Blk.idle_of_chanQuiet {b : Blk} {ch : Nat} (h : b.chanQuiet ch = true) : (b.chan ch).idle = true := by
  obtain ⟨hr, hw, hp, hc, -⟩ := (b.chanQuiet_iff ch).1 h
  simp [ChanSt.idle, hr, hw, hp, hc]

theorem Blk.idle_take {b : Blk} {ch : Nat} (h : (b.chan ch).idle = true) : ((b.take ch cls half).chan ch).idle = true := by
  rw [Blk.take, Blk.chan_setChan_same]
  exact h

theorem Blk.idle_granted {b : Blk} {ch : Nat} (h : (b.chan ch).idle = true) : ((b.granted ch cls port).chan ch).idle = true := by
  rw [Blk.granted, Blk.chan_setChan_same]
  exact h

theorem Blk.idle_openBank {b : Blk} {ch : Nat} (h : (b.chan ch).idle = true) :
    ((b.openBank ch bank row cls).chan ch).idle = true := by
  rw [Blk.openBank, Blk.chan_setChan_same]
  simp_all [ChanSt.idle]

theorem Blk.idle_closeBank {b : Blk} {ch : Nat} (h : (b.chan ch).idle = true) : ((b.closeBank ch bank).chan ch).idle = true := by
  rw [Blk.closeBank, Blk.chan_setChan_same]
  simp_all [ChanSt.idle]

end

/-! ### The commands -/

section
variable {b : Blk} {ch port cls bank row : Nat}

theorem Blk.chAct_opens (ha : chanArgs ch port cls bank row = true) (hn : b.bankNow ch bank cls = true)
    (ho : b.openRowOf ch bank = none) (hs : (b.rowSeg ch bank row).isSome = true) (hp : b.canPay ch cls 2 = true) :
    b.chAct ch port cls bank row = ((b.take ch cls 2).openBank ch bank row cls).granted ch cls port := by
  have hs' : (b.rowSeg ch bank row).isNone = false := by simpa using hs
  simp [Blk.chAct, ha, hn, ho, hs', Blk.pay_of_canPay hp]

theorem Blk.chPre_closes (ha : chanArgs ch port cls bank 0 = true) (hn : b.bankNow ch bank cls = true)
    (hp : b.canPay ch cls 2 = true) :
    b.chPre ch port cls bank = ((b.take ch cls 2).closeBank ch bank).granted ch cls port := by
  simp [Blk.chPre, ha, hn, Blk.pay_of_canPay hp]

theorem Blk.precharge_paid (hp : b.canPay ch cls 2 = true) :
    b.precharge ch bank cls = (b.take ch cls 2).closeBank ch bank := by
  rw [Blk.precharge, Blk.pay_of_canPay hp]

/-- A precharge that its class cannot pay for waits, and the bank's row stays open. -/
theorem Blk.precharge_waits (hp : b.canPay ch cls 2 = false) :
    (b.precharge ch bank cls).openRowOf ch bank = b.openRowOf ch bank
      ∧ (bank, cls) ∈ ((b.precharge ch bank cls).chan ch).closing := by
  have hnone : b.pay ch cls 2 = none := if_neg (by simp [hp])
  rw [Blk.precharge, hnone]
  exact ⟨Blk.openRowOf_congr _ _ (by rw [Blk.chan_setChan_same]), by simp⟩

theorem Blk.rowIdle_of_row {p : Nat × OpenRow} (h : (b.chan ch).rows.find? (fun p => p.1 == bank) = some p) :
    b.rowIdle ch bank = if (b.pair ch (bank / 2)).urgent then b else b.precharge ch bank p.2.cls := by
  rw [Blk.rowIdle, h]

end

/-- Settles O18: each command's update of its bank, which `pump` leaves as it is where nothing waits. -/
theorem rowCommands : Obligations.RowCommands := by
  refine ⟨fun s ch port cls bank row hu ha hn ho hs hp => ?_, fun s ch port cls bank hu ha hn hp => ?_,
    fun s ch bank p hu hrow => ?_⟩
  · refine .of_hub (exec_act s ch port cls bank row) hu ?_
    rw [Blk.chAct_opens ha hn ho hs hp]
    refine ⟨settle_frame _ _, fun hq => ?_⟩
    rw [Blk.pump_of_idle (Blk.idle_granted _ _ (Blk.idle_openBank _ _ _ (Blk.idle_take _ _ (Blk.idle_of_chanQuiet hq))))]
    exact ⟨settle_frame _ _, by simp [Blk.openRowOf_openBank], fun k _ hk => by simp [Blk.openRowOf_openBank, hk]⟩
  · refine .of_hub (exec_pre s ch port cls bank) hu ?_
    rw [Blk.chPre_closes ha hn hp]
    refine ⟨settle_frame _ _, fun hq => ?_⟩
    rw [Blk.pump_of_idle (Blk.idle_granted _ _ (Blk.idle_closeBank _ (Blk.idle_take _ _ (Blk.idle_of_chanQuiet hq))))]
    exact ⟨settle_frame _ _, by simp [Blk.openRowOf_closeBank], fun k _ hk => by simp [Blk.openRowOf_closeBank, hk]⟩
  · refine .of_hub (exec_rowIdleTimeout s ch bank) hu ?_
    rw [Blk.rowIdle_of_row hrow]
    refine ⟨fun h => ?_, fun h hp => ?_, fun h hp => ?_⟩
    · rw [if_pos h]
      exact settle_frame _ _
    · rw [if_neg (by simp [h]), Blk.precharge_paid hp]
      exact ⟨settle_frame _ _, by simp [Blk.openRowOf_closeBank]⟩
    · rw [if_neg (by simp [h]), settle_openRowOf, settle_chan]
      exact Blk.precharge_waits hp

end Sys2Proof.Machine
end

section
/-! Proofs: refresh debt, urgency and late refreshes (R91, R103, R104, R105, R410). -/

namespace Sys2Proof.Machine
open Sys2Proof

/-! ### Charges and pairs -/

section
variable {b : Blk} {ch cls half : Nat}

theorem Blk.isSome_pay (b : Blk) (ch cls half : Nat) : (b.pay ch cls half).isSome = b.canPay ch cls half := by
  cases h : b.canPay ch cls half <;> simp [Blk.pay, h]

theorem Blk.pay_eq_some {c : Blk} (h : b.pay ch cls half = some c) : c = b.take ch cls half := by
  rw [Blk.pay] at h
  split at h
  · exact (Option.some.inj h).symm
  · cases h

theorem Blk.pair_setPair_same (b : Blk) (ch m : Nat) (x : PairSt) : (b.setPair ch m x).pair ch m = x :=
  tget_tset_same _ _ _ _

/-- A refresh closes the pair's rows, pays one debt, and at debt 0 ends urgency (R103). -/
theorem Blk.refresh_pair (b : Blk) (ch pair : Nat) : (b.refresh ch pair).pair ch pair
    = ⟨(b.pair ch pair).debt - 1, (b.pair ch pair).urgent && decide (0 < (b.pair ch pair).debt - 1)⟩ :=
  Blk.pair_setPair_same _ _ _ _

theorem Blk.refresh_mem (b : Blk) (ch pair : Nat) : (b.refresh ch pair).mem = b.mem := rfl
theorem Blk.refresh_regs (b : Blk) (ch pair : Nat) : (b.refresh ch pair).regs = b.regs := rfl

theorem Blk.refresh_openRowOf (b : Blk) (ch pair : Nat) : (b.refresh ch pair).openRowOf ch (2 * pair) = none
    ∧ (b.refresh ch pair).openRowOf ch (2 * pair + 1) = none := by
  have hrows : ∀ k, (b.refresh ch pair).openRowOf ch k
      = ((b.closeBank ch (2 * pair)).closeBank ch (2 * pair + 1)).openRowOf ch k := fun k => Blk.openRowOf_congr _ _ rfl
  simp [hrows, Blk.openRowOf_closeBank]

end

/-! ### A refresh falls due -/

section
variable (b : Blk) (u : Nat)

/-- What the pre-emption of a sequence may change: its unit, its entry, and the stack's count (R105). -/
structure PreemptFrame (u : Nat) (a b : Blk) : Prop where
  pairs : b.pairs = a.pairs
  mem : b.mem = a.mem
  reg : ∀ o, o ≠ bSC (unitStack u) + 0xB0 → b.reg o = a.reg o

variable {u} {b} in
theorem PreemptFrame.counted {c : Blk} (hp : c.pairs = b.pairs) (hm : c.mem = b.mem)
    (hr : c.regs = (b.incReg (bSC (unitStack u) + 0xB0)).regs) : PreemptFrame u b c :=
  ⟨hp, hm, fun o ho => (Blk.reg_congr hr o).trans (Blk.reg_incReg_other b ho)⟩

theorem Blk.notePreempt_preemptFrame (s : SeqSt) : PreemptFrame u b (b.notePreempt u s) := by
  unfold Blk.notePreempt
  split <;> exact .counted (b := b) rfl rfl rfl

theorem Blk.preemptIdle_preemptFrame : PreemptFrame u b (b.preemptIdle u) := by
  unfold Blk.preemptIdle
  dsimp only
  split
  next y _ =>
    split
    · exact ⟨rfl, rfl, fun _ _ => rfl⟩
    · obtain ⟨hp, hm, hr⟩ := Blk.notePreempt_preemptFrame (b.setUnit u { b.unit u with seq := some { y with preempted := true } }) u y
      exact ⟨hp, hm, hr⟩
  next =>
    split
    · exact .counted (b := b) rfl rfl rfl
    · exact ⟨rfl, rfl, fun _ _ => rfl⟩

theorem bSC_ne_bSC {s t x y : Nat} (h : x % 0x1000 ≠ y % 0x1000) : bSC s + x ≠ bSC t + y := by
  simp only [bSC]
  omega

/-- The block in which a pair's debt has risen (R103, R116). -/
def Blk.debtUp (b : Blk) (ch pair : Nat) : Blk :=
  (b.setPair ch pair ⟨min ((b.pair ch pair).debt + 1) 11, (b.pair ch pair).urgent || decide ((b.pair ch pair).debt = 8)⟩).maxDebt
    (stackOfCh ch) (min ((b.pair ch pair).debt + 1) 11)

theorem Blk.refreshDue_debtUp {b : Blk} {ch pair : Nat} (hch : ch < 384) (hp : pair < 16) (ha : (b.die (dieOfCh ch)).sr = .awake) :
    PreemptFrame (unitNo ch pair) (b.debtUp ch pair) (b.refreshDue ch pair) := by
  have hgo : (384 ≤ ch || 16 ≤ pair || !((b.die (dieOfCh ch)).sr == .awake || (b.die (dieOfCh ch)).sr == .entering)) = false := by
    simp [hch, hp, ha]
  have heq : b.refreshDue ch pair = if !(b.pair ch pair).urgent && (b.pair ch pair).debt = 8
      then (b.debtUp ch pair).preemptIdle (unitNo ch pair) else b.debtUp ch pair := by
    simp only [Blk.refreshDue, hgo]
    rfl
  rw [heq]
  split
  · exact Blk.preemptIdle_preemptFrame _ _
  · exact ⟨rfl, rfl, fun _ _ => rfl⟩

theorem Blk.debtUp_pair (ch pair : Nat) : (b.debtUp ch pair).pair ch pair
    = ⟨min ((b.pair ch pair).debt + 1) 11, (b.pair ch pair).urgent || decide ((b.pair ch pair).debt = 8)⟩ :=
  Blk.pair_setPair_same _ _ _ _

theorem Blk.debtUp_mem (ch pair : Nat) : (b.debtUp ch pair).mem = b.mem := rfl

theorem Blk.debtUp_maxDebt (ch pair : Nat) : (b.debtUp ch pair).reg (bSC (stackOfCh ch) + 0xBC)
    = max (b.reg (bSC (stackOfCh ch) + 0xBC)) (min ((b.pair ch pair).debt + 1) 11).toNat := by
  have hlt := b.reg_lt (bSC (stackOfCh ch) + 0xBC)
  rw [Blk.debtUp, Blk.maxDebt, Blk.reg_setReg_same, Blk.setPair_reg]
  exact Nat.mod_eq_of_lt (by omega)

end

/-! ### A refresh that is late -/

/-- Granting slots changes the units and the order of the next grant, and nothing else. -/
def OnlyUnits (a b : Blk) : Prop := ∃ u n, b = { a with cu := { a.cu with units := u, age := n } }

theorem OnlyUnits.trans {a b c : Blk} (h : OnlyUnits a b) (g : OnlyUnits b c) : OnlyUnits a c := by
  obtain ⟨_, _, rfl⟩ := h
  obtain ⟨_, _, rfl⟩ := g
  exact ⟨_, _, rfl⟩

section
variable {a b : Blk} (h : OnlyUnits a b)
include h

theorem OnlyUnits.mem : b.mem = a.mem := by obtain ⟨_, _, rfl⟩ := h; rfl
theorem OnlyUnits.held : b.held = a.held := by obtain ⟨_, _, rfl⟩ := h; rfl
theorem OnlyUnits.die (d : Nat) : b.die d = a.die d := by obtain ⟨_, _, rfl⟩ := h; rfl
theorem OnlyUnits.pair (ch m : Nat) : b.pair ch m = a.pair ch m := by obtain ⟨_, _, rfl⟩ := h; rfl
theorem OnlyUnits.jobs : b.cu.jobs = a.cu.jobs := by obtain ⟨_, _, rfl⟩ := h; rfl
theorem OnlyUnits.waiting : b.cu.waiting = a.cu.waiting := by obtain ⟨_, _, rfl⟩ := h; rfl

end

theorem Blk.grantN_onlyUnits (die : Nat) : ∀ (n : Nat) (b : Blk), OnlyUnits b (b.grantN die n)
  | 0, _ => ⟨_, _, rfl⟩
  | n + 1, b => by
    rw [Blk.grantN]
    split
    · split
      · exact ⟨_, _, rfl⟩
      · exact OnlyUnits.trans ⟨_, _, rfl⟩ (Blk.grantN_onlyUnits die n _)
    · exact ⟨_, _, rfl⟩

theorem Blk.grant_onlyUnits (b : Blk) (die : Nat) : OnlyUnits b (b.grant die) := Blk.grantN_onlyUnits die 16 b

section
variable (b : Blk) (d : Nat)

theorem Blk.moduleFault_reg (o : Nat) : (b.moduleFault d).reg o = ((b.orReg oSDG_STATUS 4).orReg oSDG_EVENTS (2 ^ 5)).reg o :=
  Blk.reg_congr (by rw [Blk.moduleFault, Blk.logE_regs, Blk.sdgEvent_eq]) o

theorem Blk.moduleFault_status : ((b.moduleFault d).reg oSDG_STATUS).testBit 2 = true := by
  rw [Blk.moduleFault_reg, Blk.reg_orReg_other _ _ (by decide), Blk.reg_orReg_same _ _ _ (by decide), Nat.testBit_or]
  exact Bool.or_true _

theorem Blk.moduleFault_reg_other {o : Nat} (h : o < bSDG) : (b.moduleFault d).reg o = b.reg o := by
  have hs : o ≠ oSDG_STATUS := by simp only [oSDG_STATUS]; omega
  have he : o ≠ oSDG_EVENTS := by simp only [oSDG_EVENTS]; omega
  rw [Blk.moduleFault_reg, Blk.reg_orReg_other _ _ he, Blk.reg_orReg_other _ _ hs]

theorem Blk.moduleFault_faultN : (b.moduleFault d).pins.faultN = false := by
  rw [Blk.moduleFault, Blk.logE_pins]

end

theorem oSC_EVENTS_lt {s : Nat} (h : s < 16) : oSC_EVENTS s < bSDG := by
  simp only [oSC_EVENTS, bSC, bSTACK, bSDG]
  omega

/-- A unit that neither runs nor keeps a slot is stopped for no operation. -/
theorem Blk.forceStop_mem {b : Blk} {u : Nat} (hs : (b.unit u).seq = none) (hk : (b.unit u).keptFor = none) (st : Nat) :
    (b.forceStop u st).mem = b.mem := by
  simp only [Blk.forceStop, hs, hk, Blk.jobNote, Blk.jobSettle]
  exact (Blk.grant_onlyUnits _ _).mem

theorem Blk.refreshLate_faults {b : Blk} {ch pair : Nat} (hch : ch < 384) (hp : pair < 16) (hu : (b.pair ch pair).urgent = true)
    (hd : 9 ≤ (b.pair ch pair).debt) (hs : (b.unit (unitNo ch pair)).seq = none) (hk : (b.unit (unitNo ch pair)).keptFor = none) :
    ∃ (c : Blk) (d : Nat), c.mem = b.mem ∧ b.refreshLate ch pair = (c.scEvent (stackOfCh ch) 6).moduleFault d := by
  have hgo : (384 ≤ ch || 16 ≤ pair || !(b.pair ch pair).urgent || (b.pair ch pair).debt < 9) = false := by
    simp [hch, hp, hu, hd]
  simp only [Blk.refreshLate, hgo]
  exact ⟨_, _, (Blk.logE_mem _ _ _).trans (Blk.forceStop_mem hs hk _), rfl⟩

/-- Settles O20: what `refresh`, `refreshDue` and `moduleFault` do to the debts and the registers. -/
theorem refresh : Obligations.Refresh := by
  refine ⟨fun s ch pair hu hch hp ha => ?_, fun s ch pair hu hch hp hd hheld hstep ha => ?_,
    fun s ch pair hu hch hp hd hlow hheld ha hpay => ?_, fun s ch pair hu hch hp hurg hd hs hk _ => ?_⟩
  · refine .of_hub (exec_refreshDue s ch pair) hu ?_
    have h := Blk.refreshDue_debtUp hch hp ha
    have hpair : (s.blk.refreshDue ch pair).pair ch pair = (s.blk.debtUp ch pair).pair ch pair := by
      rw [Blk.pair, h.pairs, ← Blk.pair]
    have hreg := h.reg (bSC (stackOfCh ch) + 0xBC) (bSC_ne_bSC (by decide))
    simp only [settle_pair, settle_reg, SameMem, settle_mem, h.mem, hpair, hreg, Blk.debtUp_pair, Blk.debtUp_maxDebt, Blk.debtUp_mem,
      and_self]
  · refine .of_hub (exec_refpr s ch pair) hu ?_
    have heq : ∃ c, OnlyChans s.blk c ∧ s.blk.chRefpr ch pair = c.refresh ch pair := by
      refine ⟨_, ⟨_, rfl⟩, (if_neg ?_).trans (if_neg ?_)⟩
      · have hurg : (s.blk.pairHeld ch pair && !(s.blk.pair ch pair).urgent) = false := by
          cases h : s.blk.pairHeld ch pair <;> simp_all
        simp [hch, hp, hd, hurg, hstep]
      · simp [ha]
    obtain ⟨c, ⟨cs, rfl⟩, hc⟩ := heq
    obtain ⟨hlow, hhigh⟩ := Blk.refresh_openRowOf { s.blk with chans := cs } ch pair
    simp only [hc, settle_pair, settle_openRowOf, settle_regs, SameMem, settle_mem, Blk.refresh_pair, Blk.refresh_mem, Blk.refresh_regs,
      hlow, hhigh]
    exact ⟨rfl, congrArg _ (decide_eq_decide.2 Int.sub_pos), trivial, trivial, trivial, trivial⟩
  · refine .of_hub (exec_refreshPullIn s ch pair) hu ?_
    have heq : s.blk.chPullIn ch pair = (s.blk.take ch cRefresh 12).refresh ch pair := by
      rw [Blk.isSome_pay] at hpay
      rw [Blk.chPullIn, if_neg (by simp [hch, hp, hd, hlow, hheld, ha]), Blk.pay_of_canPay hpay]
    simp only [heq, settle_pair, settle_regs, SameMem, settle_mem, Blk.refresh_pair, Blk.refresh_mem, Blk.refresh_regs]
    exact ⟨rfl, rfl, rfl⟩
  · refine .of_hub (exec_refreshLate s ch pair) hu ?_
    obtain ⟨c, d, hmem, hc⟩ := Blk.refreshLate_faults hch hp hurg hd hs hk
    have hst : stackOfCh ch < 16 := by rw [stackOfCh]; omega
    simp only [hc, settle_reg, settle_pins, SameMem, settle_mem, Blk.moduleFault_mem, Blk.moduleFault_reg_other _ _ (oSC_EVENTS_lt hst),
      Blk.moduleFault_status, Blk.moduleFault_faultN, Blk.scEvent_eq, Blk.testBit_orReg _ _ (show 6 < 32 by decide), Blk.orReg_mem, hmem,
      and_self]

end Sys2Proof.Machine
end

section
/-! Proofs: self-refresh of a die (R107 to R109, R121, R410). -/

namespace Sys2Proof.Machine
open Sys2Proof

/-- What every step of a fold keeps and the step of one listed member sets up, the fold leaves. -/
theorem foldl_of_mem {α β : Type} {P : β → Prop} {f : β → α → β} {x : α} (hset : ∀ b, P (f b x)) (hf : ∀ b a, P b → P (f b a))
    {l : List α} (hx : x ∈ l) (z : β) : P (l.foldl f z) := by
  obtain ⟨l₁, l₂, rfl⟩ := List.append_of_mem hx
  rw [List.foldl_append, List.foldl_cons]
  exact foldl_keeps hf l₂ (hset _)

section
variable {b : Blk} {d : Nat}

/-! ### Entry -/

theorem Blk.payDie_onlyChans {c : Blk} (h : b.payDie d = some c) : OnlyChans b c := by
  obtain ⟨x, hx, hc⟩ := Option.bind_eq_some_iff.1 h
  rw [Blk.pay_eq_some hx] at hc
  rw [Blk.pay_eq_some hc]
  exact ⟨_, rfl⟩

/-- The die asleep, once its SRE has been paid for (R107 step 5, R121). -/
def Blk.dieAsleep (b : Blk) (d : Nat) : Blk :=
  let c := (b.setChan (2 * d) { b.chan (2 * d) with rows := [] })
  let c := c.setChan (2 * d + 1) { c.chan (2 * d + 1) with rows := [] }
  ({ c with cu := { c.cu with units := c.cu.units.map (fun (p : Nat × UnitSt) =>
    if unitDie p.1 = d then (p.1, p.2.asleep) else p) } }).setDie d { b.die d with sr := .asleep }

theorem Blk.dieSre_asleep (hd : d < 192) (hsr : (b.die d).sr = .entering) (hb : b.dieBusy d = false)
    (hq : b.queuesEmpty d = true) (hp : b.debtsPaid d = true) (hpay : (b.payDie d).isSome = true) :
    ∃ c, b.dieSre d = ({ b with chans := c } : Blk).dieAsleep d := by
  obtain ⟨c, hc⟩ := Option.isSome_iff_exists.1 hpay
  obtain ⟨cs, rfl⟩ := Blk.payDie_onlyChans hc
  refine ⟨cs, ?_⟩
  rw [Blk.dieSre, if_neg (by simp [hd, hsr, hb, hq, hp]), hc]
  rfl

theorem Blk.dieAsleep_rows (b : Blk) (d : Nat) :
    ((b.dieAsleep d).chan (2 * d)).rows = [] ∧ ((b.dieAsleep d).chan (2 * d + 1)).rows = [] := by
  have hchan : ∀ ch, (b.dieAsleep d).chan ch = ((b.setChan (2 * d) { b.chan (2 * d) with rows := [] }).setChan (2 * d + 1)
      { (b.setChan (2 * d) { b.chan (2 * d) with rows := [] }).chan (2 * d + 1) with rows := [] }).chan ch := fun _ => rfl
  rw [hchan, hchan, Blk.chan_setChan_same, Blk.chan_setChan, if_neg (by omega), Blk.chan_setChan_same]
  exact ⟨rfl, rfl⟩

/-- The only unit with state is in a step of a sequence, which is marked to stop at its end (R107 step 2). -/
theorem Blk.srEntryTimeout_one {u : Nat} {x : SeqSt} (hsr : (b.die d).sr = .entering) (hu : unitDie u = d)
    (hone : b.cu.units = [(u, b.unit u)]) (hx : (b.unit u).seq = some x) (hs : x.inStep = true) :
    b.srEntryTimeout d = b.setUnit u { b.unit u with seq := some { x with stop := stPOWER } } := by
  rw [Blk.srEntryTimeout, if_neg (by simp [hsr]), hone]
  simp [hu, hx, hs]

/-! ### Exit -/

/-- SRX, at once or when its slot can be paid (R108 step 2). -/
theorem Blk.phyLocked_eq {n : Nat} (hsr : (b.die d).sr = .exitPhy n) : ∃ c, b.phyLocked d
    = ({ b with chans := c } : Blk).setDie d { b.die d with sr := if (b.payDie d).isSome then .exitTxs else .locked } := by
  rw [Blk.phyLocked, hsr]
  dsimp only
  split
  next c hc =>
    obtain ⟨cs, rfl⟩ := Blk.payDie_onlyChans hc
    exact ⟨cs, by simp [hc]⟩
  next hc => exact ⟨b.chans, by simp [hc]⟩

theorem Blk.dieSrx_eq (hsr : (b.die d).sr = .locked) (hpay : (b.payDie d).isSome = true) : ∃ c, b.dieSrx d
    = ({ b with chans := c } : Blk).setDie d { b.die d with sr := .exitTxs } := by
  obtain ⟨c, hc⟩ := Option.isSome_iff_exists.1 hpay
  obtain ⟨cs, rfl⟩ := Blk.payDie_onlyChans hc
  refine ⟨cs, ?_⟩
  rw [Blk.dieSrx, if_pos hsr, hc]

theorem Blk.setDie_pair (b : Blk) (k : Nat) (x : DieSt) (ch m : Nat) : (b.setDie k x).pair ch m = b.pair ch m := rfl

theorem Blk.pair_setPair_reset {ch m j k : Nat} (h : b.pair ch m = .reset) : (b.setPair j k .reset).pair ch m = .reset := by
  rw [Blk.pair, Blk.setPair, tget_tset]
  split
  · rfl
  · exact h

/-- The refresh debts of a die's pairs at 0 (R108 step 3). -/
def Blk.debtsCleared (b : Blk) (d : Nat) : Blk :=
  (List.range 32).foldl (fun (b : Blk) k => b.setPair (2 * d + k / 16) (k % 16) .reset) b

theorem Blk.pair_debtsCleared (b : Blk) (d : Nat) {c m : Nat} (hc : c < 2) (hm : m < 16) :
    (b.debtsCleared d).pair (2 * d + c) m = .reset := by
  have hk : 16 * c + m ∈ List.range 32 := List.mem_range.2 (by omega)
  rw [Blk.debtsCleared]
  refine foldl_of_mem (P := fun x => x.pair (2 * d + c) m = .reset) (fun x => ?_) (fun _ _ h => Blk.pair_setPair_reset h) hk b
  rw [show (16 * c + m) / 16 = c by omega, show (16 * c + m) % 16 = m by omega]
  exact Blk.pair_setPair_same _ _ _ _

/-- The debts are cleared and the die wakes; its units wait for slots again (R108). -/
theorem Blk.txsElapsed_awake (hsr : (b.die d).sr = .exitTxs) :
    OnlyUnits ((b.debtsCleared d).setDie d { b.die d with sr := .awake }) (b.txsElapsed d) := by
  rw [Blk.txsElapsed]
  dsimp only
  rw [if_pos hsr]
  exact Blk.grant_onlyUnits _ _

theorem Blk.debtsCleared_rest (b : Blk) (d : Nat) : ∃ p, b.debtsCleared d = { b with pairs := p } := by
  rw [Blk.debtsCleared]
  refine foldl_keeps (P := fun x => ∃ p, x = { b with pairs := p }) (fun x _ h => ?_) _ ⟨b.pairs, rfl⟩
  obtain ⟨_, rfl⟩ := h
  exact ⟨_, rfl⟩

/-- Where nothing else waits, the wake of the die is all that happens. -/
theorem Blk.txsElapsed_sweep (hsr : (b.die d).sr = .exitTxs) (hh : b.held = []) (hw : b.cu.waiting = []) (hj : b.cu.jobs = []) :
    ((b.txsElapsed d).sweep).releaseHeld = b.txsElapsed d := by
  have h := Blk.txsElapsed_awake hsr
  obtain ⟨p, hp⟩ := b.debtsCleared_rest d
  rw [hp] at h
  rw [Blk.sweep_of_idle (h.jobs.trans hj) (h.waiting.trans hw), Blk.releaseHeld, if_pos]
  simp [h.held.trans hh]

/-! ### A lock that is late -/

theorem Blk.phyTimeout_retries {n : Nat} (hsr : (b.die d).sr = .exitPhy n) (hn : n < 2) :
    b.phyTimeout d = b.setDie d { b.die d with sr := .exitPhy (n + 1) } := by
  rw [Blk.phyTimeout, hsr]
  exact if_pos hn

theorem Blk.phyTimeout_fails {n : Nat} (hsr : (b.die d).sr = .exitPhy n) (hn : 2 ≤ n) : ∃ a,
    b.phyTimeout d = ((b.setDie d { b.die d with sr := .failed }).logE kSC_SREXIT a).moduleFault (kSC_SREXIT % 256) := by
  rw [Blk.phyTimeout, hsr]
  exact ⟨_, if_neg (by omega)⟩

@[simp] theorem Blk.moduleFault_die (b : Blk) (x k : Nat) : (b.moduleFault x).die k = b.die k := by
  rw [Blk.moduleFault, Blk.logE_die]
  rfl

@[simp] theorem Blk.moduleFault_pwr (b : Blk) (x : Nat) : (b.moduleFault x).pwr = b.pwr := by
  rw [Blk.moduleFault, Blk.logE_pwr]
  rfl

theorem Blk.moduleFault_head (h : b.logUp = true) (x : Nat) : (b.moduleFault x).log.head = b.log.head + 1 :=
  (Blk.newest_logE (b := { (b.orReg oSDG_STATUS 4).sdgEvent 5 with
    pins := { ((b.orReg oSDG_STATUS 4).sdgEvent 5).pins with faultN := false } }) h _ _).1

/-- Outside a wake, a late lock fails no step of one (R371). -/
theorem Blk.exitLate_run {n : Nat} (hr : b.pwr.state = .run) (hsr : (b.die d).sr = .exitPhy n) :
    b.exitLate d = b.phyTimeout d := by
  have hpwr : (b.phyTimeout d).pwr.state = .run := by
    obtain hn | hn := Nat.lt_or_ge n 2
    · rw [Blk.phyTimeout_retries hsr hn]
      exact hr
    · obtain ⟨a, h⟩ := Blk.phyTimeout_fails hsr hn
      rw [h, Blk.moduleFault_pwr, Blk.logE_pwr]
      exact hr
  simp [Blk.exitLate, hpwr]

end

/-- Settles O21: each command's update of the die, its units and its pairs. -/
theorem selfRefresh : Obligations.SelfRefresh := by
  refine ⟨fun s d hu hd hsr hb hq hp hpay => ?_, fun s d u x hu hsr hdie hone hx hs => ?_, fun s d n hu hsr => ?_,
    fun s d hu hsr hpay => ?_, fun s d hu hsr hh hw hj => ?_, fun s d n hu hr hsr => ?_⟩
  · refine .of_hub (exec_sre s d) hu ?_
    obtain ⟨c, h⟩ := Blk.dieSre_asleep hd hsr hb hq hp hpay
    obtain ⟨hlow, hhigh⟩ := Blk.dieAsleep_rows { s.blk with chans := c } d
    simp only [h, settle_die, settle_chan, settle_cu, SameMem, settle_mem, settle_regs, hlow, hhigh]
    exact ⟨congrArg DieSt.sr (Blk.die_setDie_same _ _ _), trivial, trivial, rfl, rfl, rfl⟩
  · exact .hubFrame (exec_srEntryTimeout s d) hu (Blk.srEntryTimeout_one hsr hdie hone hx hs)
  · refine .of_hub (exec_srExitPhyLocked s d) hu ?_
    obtain ⟨c, h⟩ := Blk.phyLocked_eq hsr
    simp only [h, settle_die, SameMem, settle_mem, settle_regs, Blk.die_setDie_same]
    exact ⟨trivial, rfl, rfl⟩
  · refine .of_hub (exec_srx s d) hu ?_
    obtain ⟨c, h⟩ := Blk.dieSrx_eq hsr hpay
    simp only [h, settle_die, SameMem, settle_mem, settle_regs, Blk.die_setDie_same]
    exact ⟨trivial, rfl, rfl⟩
  · refine .of_hub (exec_srExitTxsElapsed s d) hu ?_
    rw [Blk.txsElapsed_sweep hsr hh hw hj]
    have h := Blk.txsElapsed_awake hsr
    simp only [settle_die, settle_pair, h.die, h.pair, Blk.die_setDie_same, Blk.setDie_pair]
    exact ⟨trivial, fun m hm => ⟨Blk.pair_debtsCleared s.blk d (c := 0) (by decide) hm, Blk.pair_debtsCleared s.blk d (c := 1) (by decide) hm⟩⟩
  · refine .of_hub (exec_srExitPhyTimeout s d) hu ?_
    rw [Blk.exitLate_run hr hsr]
    refine ⟨fun hn => ?_, fun hn => ?_⟩
    · rw [Blk.phyTimeout_retries hsr hn]
      exact settle_frame _ _
    · obtain ⟨a, h⟩ := Blk.phyTimeout_fails hsr hn
      simp only [h, settle_die, settle_reg, settle_pins, settle_log, Blk.moduleFault_die, Blk.logE_die, Blk.die_setDie_same]
      refine ⟨trivial, Blk.moduleFault_status _ _, Blk.moduleFault_faultN _ _, fun hl => ?_⟩
      have hl' : ((s.blk.setDie d { s.blk.die d with sr := .failed }).logE kSC_SREXIT a).logUp = true := by
        rw [Blk.logUp, Blk.logE_pwr]
        exact hl
      rw [Blk.moduleFault_head hl', (Blk.newest_logE (b := s.blk.setDie d _) hl _ _).1, BitVec.add_assoc]
      rfl

end Sys2Proof.Machine
end

section
/-! Proofs: counters, training, parity failures and request timeouts of the stack controllers (R94, R111 to R116). -/

namespace Sys2Proof.Machine
open Sys2Proof

/-! ### Register bits and runs of register writes -/

section
variable (b : Blk)

/-- An event bit that is set stays set when others are. -/
theorem Blk.testBit_orReg_mono {off m o i : Nat} (hm : m < 2 ^ 32) (h : (b.reg o).testBit i = true) :
    ((b.orReg off m).reg o).testBit i = true := by
  by_cases ho : o = off
  · subst ho
    rw [Blk.reg_orReg_same _ _ _ hm, Nat.testBit_or, h, Bool.true_or]
  · rwa [Blk.reg_orReg_other _ _ ho]

/-- A field that a write covers takes the value written. -/
theorem Blk.testBit_putReg {off m v i : Nat} (hi : i < 32) (hm : m.testBit i = true) :
    ((b.putReg off m v).reg off).testBit i = v.testBit i := by
  rw [Blk.putReg, Blk.reg_setReg_same, Nat.testBit_mod_two_pow, Nat.testBit_or, Nat.testBit_and, Nat.testBit_and, Nat.testBit_xor,
    Nat.testBit_mod_two_pow, Nat.testBit_two_pow_sub_one]
  simp [hi, hm]

theorem Blk.reg_putReg_other {off o : Nat} (m v : Nat) (h : o ≠ off) : (b.putReg off m v).reg o = b.reg o :=
  Blk.reg_setReg_other _ _ h

/-- Writes of registers, one for each member of a list. -/
def Blk.setRegs {α : Type} (b : Blk) (l : List α) (o v : α → Nat) : Blk := l.foldl (fun (b : Blk) a => b.setReg (o a) (v a)) b

variable {α : Type} (l : List α) {o v : α → Nat}

theorem Blk.setRegs_frame : ∃ r, b.setRegs l o v = { b with regs := r } := by
  rw [Blk.setRegs]
  refine foldl_keeps (P := fun c => ∃ r, c = { b with regs := r }) (fun c a h => ?_) l ⟨b.regs, rfl⟩
  obtain ⟨r, rfl⟩ := h
  exact ⟨_, rfl⟩

theorem Blk.setRegs_mem : (b.setRegs l o v).mem = b.mem := by
  obtain ⟨r, h⟩ := b.setRegs_frame l (o := o) (v := v)
  rw [h]

theorem Blk.reg_setRegs_other {x : Nat} (h : ∀ a ∈ l, x ≠ o a) : (b.setRegs l o v).reg x = b.reg x := by
  induction l generalizing b with
  | nil => rfl
  | cons a t ih =>
    rw [List.forall_mem_cons] at h
    exact (ih _ h.2).trans (Blk.reg_setReg_other _ _ h.1)

theorem Blk.reg_setRegs {l : List α} {x : α} (hx : x ∈ l) (hv : ∀ a, o a = o x → v a = v x) :
    (b.setRegs l o v).reg (o x) = v x % 2 ^ 32 := by
  rw [Blk.setRegs]
  refine foldl_of_mem (P := fun c => c.reg (o x) = v x % 2 ^ 32) (f := fun (c : Blk) a => c.setReg (o a) (v a))
    (fun c => Blk.reg_setReg_same _ _ _) (fun c a h => ?_) hx b
  by_cases ha : o x = o a
  · rw [ha, Blk.reg_setReg_same, hv a ha.symm]
  · rw [Blk.reg_setReg_other _ _ ha, h]

end

/-! ### Retraining and failing lane pairs (R112, R113) -/

/-- A block is another, but for its registers and its error log. -/
def OnlyRegsLog (a b : Blk) : Prop := ∃ r l, b = { a with regs := r, log := l }

section
variable {a b c : Blk}

theorem OnlyRegsLog.trans (h : OnlyRegsLog a b) (g : OnlyRegsLog b c) : OnlyRegsLog a c := by
  obtain ⟨_, _, rfl⟩ := h
  obtain ⟨_, _, rfl⟩ := g
  exact ⟨_, _, rfl⟩

theorem OnlyRegsLog.mem (h : OnlyRegsLog a b) : b.mem = a.mem := by obtain ⟨_, _, rfl⟩ := h; rfl
theorem OnlyRegsLog.die (h : OnlyRegsLog a b) (d : Nat) : b.die d = a.die d := by obtain ⟨_, _, rfl⟩ := h; rfl
theorem OnlyRegsLog.chan (h : OnlyRegsLog a b) (d : Nat) : b.chan d = a.chan d := by obtain ⟨_, _, rfl⟩ := h; rfl

end

section
variable (b : Blk) (ch : Nat)

theorem Blk.logE_onlyRegsLog (k : Nat) (a : LogArg) : OnlyRegsLog b (b.logE k a) := by
  unfold Blk.logE
  split <;> exact ⟨_, _, rfl⟩

theorem Blk.laneFails_onlyRegsLog : OnlyRegsLog b (b.laneFails ch) :=
  (b.logE_onlyRegsLog _ _).trans ⟨_, _, rfl⟩

theorem Blk.laneFails_reg (o : Nat) : (b.laneFails ch).reg o = (b.orReg (oSC_EVENTS (stackOfCh ch)) (2 ^ 5)).reg o :=
  Blk.reg_congr (by
    rw [Blk.laneFails, Blk.scEvent_eq]
    show tset _ (BitVec.ofNat 32 (Blk.reg _ _ ||| _)) (Blk.logE _ _ _).regs = _
    rw [Blk.logE_reg, Blk.logE_regs]
    rfl) o

theorem Blk.laneFails_event : ((b.laneFails ch).reg (oSC_EVENTS (stackOfCh ch))).testBit 5 = true := by
  rw [Blk.laneFails_reg]
  exact Blk.testBit_orReg _ _ (by decide)

theorem Blk.laneFails_reg_other {o : Nat} (h : o % 0x1000 ≠ 0xA8) : (b.laneFails ch).reg o = b.reg o := by
  rw [Blk.laneFails_reg]
  refine Blk.reg_orReg_other _ _ fun ho => h ?_
  rw [ho]
  simp only [oSC_EVENTS, bSC, bSTACK]
  omega

/-- Every awake channel owes the half-slots of a retraining (R113). -/
def Blk.retrainChans (b : Blk) : Blk := (List.range 384).foldl (fun (b : Blk) ch =>
  if (b.die (dieOfCh ch)).sr != .awake then b else b.trainFor ch 4096) b

/-- The failing channels of a list are reported (R112). -/
def Blk.reportLanes (b : Blk) (bad : List Nat) : Blk := bad.foldl (fun (b : Blk) ch =>
  if ch < 384 && (b.die (dieOfCh ch)).sr == .awake then b.laneFails ch else b) b

theorem Blk.retrainAll_eq (bad : List Nat) : b.retrainAll bad = (b.retrainChans).reportLanes bad := rfl

theorem Blk.retrainChans_onlyChans : OnlyChans b b.retrainChans := by
  rw [Blk.retrainChans]
  exact foldl_keeps (P := OnlyChans b) (fun c k h => .ite h (h.trans ⟨_, rfl⟩)) _ (.rfl' b)

theorem Blk.reportLanes_onlyRegsLog (bad : List Nat) : OnlyRegsLog b (b.reportLanes bad) := by
  rw [Blk.reportLanes]
  refine foldl_keeps (P := OnlyRegsLog b) (fun c k h => ?_) _ ⟨_, _, rfl⟩
  split
  · exact h.trans (c.laneFails_onlyRegsLog k)
  · exact h

/-- A fold whose steps other than one member's leave a view of the state takes that view through that one step. -/
theorem foldl_view {α β γ : Type} (v : β → γ) {f : β → α → β} {x : α} (hf : ∀ b a, a ≠ x → v (f b a) = v b) {l : List α}
    (hl : l.Nodup) (hx : x ∈ l) (z : β) : ∃ y, v y = v z ∧ v (l.foldl f z) = v (f y x) := by
  obtain ⟨l₁, l₂, rfl⟩ := List.append_of_mem hx
  have hrest : ∀ (t : List α) (y : β), x ∉ t → v (t.foldl f y) = v y := by
    intro t
    induction t with
    | nil => exact fun _ _ => rfl
    | cons a t ih =>
      intro y h
      rw [List.mem_cons, not_or] at h
      exact (ih _ h.2).trans (hf y a (Ne.symm h.1))
  obtain ⟨hx₁, hx₂⟩ : x ∉ l₁ ∧ x ∉ l₂ := by
    rw [List.nodup_middle, List.nodup_cons, List.mem_append, not_or] at hl
    exact hl.1
  refine ⟨l₁.foldl f z, hrest l₁ z hx₁, ?_⟩
  rw [List.foldl_append, List.foldl_cons, hrest l₂ _ hx₂]

variable {b} {ch}

theorem Blk.retrainChans_chan (h : ch < 384) (ha : (b.die (dieOfCh ch)).sr = .awake) :
    b.retrainChans.chan ch = ({ b.chan ch with trainDue := (b.chan ch).trainDue + 4096 } : ChanSt).train1 := by
  obtain ⟨y, hy, hv⟩ := foldl_view (fun c : Blk => (c.chan ch, c.die (dieOfCh ch)))
    (f := fun (c : Blk) k => if (c.die (dieOfCh k)).sr != .awake then c else c.trainFor k 4096)
    (fun c k hk => by
      split
      · rfl
      · rw [Blk.trainFor, Blk.chan_setChan, if_neg (Ne.symm hk)]
        rfl) List.nodup_range (List.mem_range.2 h) b
  obtain ⟨hchan, hdie⟩ := Prod.mk.inj hy
  refine (Prod.mk.inj hv).1.trans ?_
  rw [if_neg (by simp [hdie, ha]), Blk.trainFor, Blk.chan_setChan_same, hchan]

/-- Every failing channel of an awake die is reported. -/
theorem Blk.reportLanes_event {bad : List Nat} (hb : ch ∈ bad) (h : ch < 384) (ha : (b.die (dieOfCh ch)).sr = .awake) :
    ((b.reportLanes bad).reg (oSC_EVENTS (stackOfCh ch))).testBit 5 = true := by
  refine foldl_of_mem (P := fun c => (c.die (dieOfCh ch)).sr = .awake → (c.reg (oSC_EVENTS (stackOfCh ch))).testBit 5 = true)
    (fun c => ?_) (fun c k hc => ?_) hb b (((b.reportLanes_onlyRegsLog bad).die _).symm ▸ ha)
  · split
    · exact fun _ => c.laneFails_event ch
    · next hn => exact fun hs => absurd (by simp [h, hs]) hn
  · split
    · rw [(c.laneFails_onlyRegsLog k).die, Blk.laneFails_reg]
      exact fun hs => Blk.testBit_orReg_mono c (by decide) (hc hs)
    · exact hc

end

/-! ### SC_CTRL (R116) -/

section
variable (b : Blk) {k v : Nat}

/-- A stack's corrected counts at 0. -/
def Blk.countsCleared (b : Blk) (k : Nat) : Blk :=
  b.setRegs (List.range 24) (fun i => bSC k + 0x100 + 4 * i) (fun _ => 0)

theorem Blk.scCtrl_clears (hv : v.testBit 1 = true) : b.scCtrl k v
    = ((((b.putReg (bSC k + 4) 5 v).countsCleared k).setReg (bSC k + 0xB0) 0).setReg (bSC k + 0xB4) 0).setReg (bSC k + 0xBC) 0 :=
  if_pos hv

theorem Blk.countsCleared_reg_other {o : Nat} (h : ∀ i < 24, o ≠ bSC k + 0x100 + 4 * i) : (b.countsCleared k).reg o = b.reg o :=
  Blk.reg_setRegs_other _ _ fun i hi => h i (List.mem_range.1 hi)

theorem Blk.countsCleared_reg {i : Nat} (hi : i < 24) : (b.countsCleared k).reg (bSC k + 0x100 + 4 * i) = 0 :=
  b.reg_setRegs (o := fun i => bSC k + 0x100 + 4 * i) (v := fun _ => 0) (List.mem_range.2 hi) (fun _ _ => rfl)

theorem Blk.scCtrl_count (hv : v.testBit 1 = true) {i : Nat} (hi : i < 24) : (b.scCtrl k v).reg (bSC k + 0x100 + 4 * i) = 0 := by
  rw [Blk.scCtrl_clears _ hv, Blk.reg_setReg_other _ _ (by omega), Blk.reg_setReg_other _ _ (by omega),
    Blk.reg_setReg_other _ _ (by omega), Blk.countsCleared_reg _ hi]

theorem Blk.scCtrl_stats (hv : v.testBit 1 = true) : (b.scCtrl k v).reg (bSC k + 0xB0) = 0 ∧ (b.scCtrl k v).reg (bSC k + 0xB4) = 0
    ∧ (b.scCtrl k v).reg (bSC k + 0xBC) = 0 := by
  rw [Blk.scCtrl_clears _ hv]
  refine ⟨?_, ?_, Blk.reg_setReg_same _ _ _⟩
  · rw [Blk.reg_setReg_other _ _ (by omega), Blk.reg_setReg_other _ _ (by omega), Blk.reg_setReg_same, Nat.zero_mod]
  · rw [Blk.reg_setReg_other _ _ (by omega), Blk.reg_setReg_same, Nat.zero_mod]

/-- What the write leaves of every register but the cleared ones. -/
theorem Blk.scCtrl_reg (hv : v.testBit 1 = true) {o : Nat} (hc : ∀ i < 24, o ≠ bSC k + 0x100 + 4 * i) (hp : o ≠ bSC k + 0xB0)
    (hy : o ≠ bSC k + 0xB4) (hd : o ≠ bSC k + 0xBC) : (b.scCtrl k v).reg o = (b.putReg (bSC k + 4) 5 v).reg o := by
  rw [Blk.scCtrl_clears _ hv, Blk.reg_setReg_other _ _ hd, Blk.reg_setReg_other _ _ hy, Blk.reg_setReg_other _ _ hp,
    Blk.countsCleared_reg_other _ hc]

theorem Blk.scCtrl_field (hv : v.testBit 1 = true) {i : Nat} (hi : i < 32) (hm : Nat.testBit 5 i = true) :
    ((b.scCtrl k v).reg (bSC k + 4)).testBit i = v.testBit i := by
  rw [Blk.scCtrl_reg _ hv (fun _ _ => by omega) (by omega) (by omega) (by omega), Blk.testBit_putReg _ hi hm]

theorem Blk.scCtrl_other (hv : v.testBit 1 = true) {j o : Nat} (hj : j ≠ k) (ho : o < 0x1000) :
    (b.scCtrl k v).reg (bSC j + o) = b.reg (bSC j + o) := by
  have hne : ∀ x < 0x1000, bSC j + o ≠ bSC k + x := fun x hx => by
    simp only [bSC]
    omega
  have hcount : ∀ i < 24, bSC j + o ≠ bSC k + 0x100 + 4 * i := fun i hi => by
    rw [Nat.add_assoc (bSC k)]
    exact hne _ (by omega)
  rw [Blk.scCtrl_reg _ hv hcount (hne 0xB0 (by decide)) (hne 0xB4 (by decide)) (hne 0xBC (by decide)),
    Blk.reg_putReg_other _ _ _ (hne 4 (by decide))]

theorem Blk.scCtrl_mem (hv : v.testBit 1 = true) : (b.scCtrl k v).mem = b.mem := by
  rw [Blk.scCtrl_clears _ hv, Blk.setReg_mem, Blk.setReg_mem, Blk.setReg_mem, Blk.countsCleared, Blk.setRegs_mem, Blk.putReg_mem]

end

/-! ### Training runs (R114, R115) -/

section
variable (b : Blk) (p : Path) {v : Nat}

theorem hostCmd_clrCounters {k : Nat} (hr : reaches p.code (bSC k) = true) (hk : k < 16) :
    hostCmd (.clrCounters p k v) b = b.scCtrl k v := by
  show (if k < 16 && reaches p.code (bSC k) then _ else _) = _
  rw [if_pos (by simp [hr, hk])]

theorem hostCmd_trnStart (hr : reaches p.code bTRAIN = true) : hostCmd (.trnStart p v) b = b.trnCtrl p.code v := by
  show (if reaches p.code bTRAIN then _ else _) = _
  rw [if_pos hr]

/-- What a start looks at, its own write of TRN_CTRL does not change. -/
theorem Blk.trnCtrl_written : ((b.atPort p).putReg (bTRAIN + 4) 0xE v).trnStarts = b.trnStarts
    ∧ ((b.atPort p).putReg (bTRAIN + 4) 0xE v).trnChan = b.trnChan
    ∧ ((b.atPort p).putReg (bTRAIN + 4) 0xE v).trnHalf = b.trnHalf := by
  have hreg : ∀ o, o ≠ bTRAIN + 4 → ((b.atPort p).putReg (bTRAIN + 4) 0xE v).reg o = b.reg o := fun o ho => by
    rw [Blk.reg_putReg_other _ _ _ ho, Blk.atPort_reg]
  have htake : ∀ d, ((b.atPort p).putReg (bTRAIN + 4) 0xE v).dieTakes d = b.dieTakes d := fun d => by cases p <;> rfl
  have hchan : ((b.atPort p).putReg (bTRAIN + 4) 0xE v).trnChan = b.trnChan := by
    rw [Blk.trnChan, Blk.trnChan, hreg _ (by decide)]
  refine ⟨?_, hchan, ?_⟩
  · rw [Blk.trnStarts, Blk.trnStarts, hchan, hreg _ (by decide), hreg _ (by decide), htake]
  · rw [Blk.trnHalf, Blk.trnHalf, hreg _ (by decide)]

variable {b} {p}

theorem Blk.trnCtrl_starts (hm : p = .host → b.mode = .test) (hv : v.testBit 0 = true) (hs : b.trnStarts = true) :
    (b.atPort p).trnCtrl p.code v = (((b.atPort p).putReg (bTRAIN + 4) 0xE v).setReg bTRAIN 1).trainFor b.trnChan b.trnHalf := by
  obtain ⟨hstarts, hchan, hhalf⟩ := b.trnCtrl_written p (v := v)
  have hgo : ¬(p.code = pHOST && (b.atPort p).mode != .test) = true := by
    simpa [Path.code_eq_host] using hm
  rw [Blk.trnCtrl, if_neg hgo]
  dsimp only
  rw [hstarts, hchan, hhalf, if_pos (by simp [hv, hs])]

theorem Blk.trnCtrl_refused (hm : b.mode ≠ .test) :
    (b.atPort .host).trnCtrl Path.host.code v = (b.atPort .host).logE kTRAIN_REF { path := Path.host.code, addr := none } :=
  if_pos (by simp [(Path.code_eq_host .host).2 rfl, hm])

end

section
variable (b : Blk) (errs : List Nat)

/-- The mismatch count that a training run reports of a lane pair (R115). -/
def laneErrs (errs : List Nat) (i : Nat) : Nat := min (errs.getD i 0) 0xFFFF

/-- The counts of the 72 lane pairs, the mask of those that failed, and the end of the run (R115). -/
def Blk.trnReport (b : Blk) (errs : List Nat) : Blk :=
  ((b.setRegs (List.range 36) (fun k => bTRAIN + 0x100 + 4 * k) (fun k => laneErrs errs (2 * k) + laneErrs errs (2 * k + 1) * 65536)).setRegs
    [0, 1, 2] (fun w => bTRAIN + 0x40 + 4 * w) (fun w => (List.range 32).foldl (fun a i =>
      if 32 * w + i < 72 && laneErrs errs (32 * w + i) != 0 then setBit a i else a) 0)).setReg bTRAIN 2

/-- After a write run the channel's training buffer holds what its lanes took (log 67). -/
def Blk.trnTaken (b : Blk) : Blk :=
  if (b.reg (bTRAIN + 4)).testBit 1 then
    { (b.setChan b.trnChan { b.chan b.trnChan with train := (List.range 72).map (Config.freeByte b.ctr) }) with ctr := b.ctr + 1 }
  else b

theorem Blk.trnTaken_mem : b.trnTaken.mem = b.mem := by
  rw [Blk.trnTaken]
  split <;> rfl

theorem Blk.trnDone_eq (hr : (b.reg bTRAIN).testBit 0 = true) (hd : (b.chan b.trnChan).trainDue = 0) :
    b.trnDone errs = if (List.range 72).any (fun i => laneErrs errs i != 0) then (b.trnTaken.trnReport errs).laneFails b.trnChan
      else b.trnTaken.trnReport errs := by
  rw [Blk.trnDone]
  exact if_neg (by simp [hr, hd])

theorem Blk.trnReport_mem : (b.trnReport errs).mem = b.mem := by
  rw [Blk.trnReport, Blk.setReg_mem, Blk.setRegs_mem, Blk.setRegs_mem]

theorem Blk.trnDone_mem (hr : (b.reg bTRAIN).testBit 0 = true) (hd : (b.chan b.trnChan).trainDue = 0) :
    (b.trnDone errs).mem = b.mem := by
  rw [Blk.trnDone_eq _ _ hr hd]
  split
  · rw [(Blk.laneFails_onlyRegsLog _ _).mem, Blk.trnReport_mem, Blk.trnTaken_mem]
  · rw [Blk.trnReport_mem, Blk.trnTaken_mem]

/-- The report of a failing lane pair leaves the run's own registers. -/
theorem Blk.trnDone_reg (hr : (b.reg bTRAIN).testBit 0 = true) (hd : (b.chan b.trnChan).trainDue = 0) {o : Nat}
    (ho : o % 0x1000 ≠ 0xA8) : (b.trnDone errs).reg o = (b.trnTaken.trnReport errs).reg o := by
  rw [Blk.trnDone_eq _ _ hr hd]
  split
  · exact Blk.laneFails_reg_other _ _ ho
  · rfl

theorem laneErrs_ne_zero (i : Nat) : (laneErrs errs i != 0) = (errs.getD i 0 != 0) := by
  rw [laneErrs, Bool.eq_iff_iff, bne_iff_ne, bne_iff_ne]
  omega

theorem Blk.trnDone_event (hr : (b.reg bTRAIN).testBit 0 = true) (hd : (b.chan b.trnChan).trainDue = 0)
    (hbad : (List.range 72).any (fun i => errs.getD i 0 != 0) = true) :
    ((b.trnDone errs).reg (oSC_EVENTS (stackOfCh b.trnChan))).testBit 5 = true := by
  rw [Blk.trnDone_eq _ _ hr hd, if_pos (by simpa only [laneErrs_ne_zero] using hbad)]
  exact Blk.laneFails_event _ _

theorem Blk.trnReport_done : (b.trnReport errs).reg bTRAIN = 2 := Blk.reg_setReg_same _ _ _

theorem Blk.trnReport_count {k : Nat} (hk : k < 36) : (b.trnReport errs).reg (bTRAIN + 0x100 + 4 * k)
    = laneErrs errs (2 * k) + laneErrs errs (2 * k + 1) * 65536 := by
  have hmask : ∀ w ∈ [0, 1, 2], bTRAIN + 0x100 + 4 * k ≠ bTRAIN + 0x40 + 4 * w := fun w hw => by
    simp only [List.mem_cons, List.not_mem_nil, or_false] at hw
    omega
  have hlt : ∀ i, laneErrs errs i ≤ 0xFFFF := fun i => Nat.min_le_right _ _
  have hlow := hlt (2 * k)
  have hhigh := hlt (2 * k + 1)
  rw [Blk.trnReport, Blk.reg_setReg_other _ _ (by omega), Blk.reg_setRegs_other _ _ hmask,
    Blk.reg_setRegs (o := fun k => bTRAIN + 0x100 + 4 * k) _ (List.mem_range.2 hk)
      (fun a ha => by rw [show a = k by omega])]
  omega

end

/-! ### Requests that end (R94, R111, R112) -/

section
variable (b : Blk) (ch : Nat)

theorem Blk.dropQueued_onlyChans (port cls : Nat) : OnlyChans b (b.dropQueued ch port cls) := by
  unfold Blk.dropQueued
  dsimp only
  split
  · exact ⟨_, rfl⟩
  · exact .rfl' b

/-- A request whose command has failed its third issue leaves its channel, which counts again from 0 (R111). -/
def Blk.parityEnded (b : Blk) (ch : Nat) (o : Owner) : Blk :=
  let c := match b.nextReq ch with
    | some (_, r) => if (Owner.ports o).contains r.port then b.dropReq ch r else b
    | none => b
  c.setChan ch { c.chan ch with parity := 0 }

theorem Blk.parityEnded_parity (o : Owner) : ((b.parityEnded ch o).chan ch).parity = 0 :=
  congrArg ChanSt.parity (Blk.chan_setChan_same _ _ _)

theorem Blk.parityEnded_mem (o : Owner) : (b.parityEnded ch o).mem = b.mem := by
  unfold Blk.parityEnded
  dsimp only
  split
  · split <;> rfl
  · rfl

theorem Blk.parityFail_first {o : Owner} (h : ch < 384) (hp : (b.chan ch).parity < 2) :
    b.parityFail ch o = b.setChan ch { b.chan ch with parity := (b.chan ch).parity + 1 } := by
  rw [Blk.parityFail, if_neg (by omega)]
  exact if_pos hp

theorem Blk.parityFail_third {o : Owner} (h : ch < 384) (hp : 2 ≤ (b.chan ch).parity) : b.parityFail ch o
    = (((b.parityEnded ch o).logE kSC_CMD { status := stUNCORR, cga := some (cgaOf (gidOf ch 0 0 0)) }).scEvent (stackOfCh ch) 2).ownerEnd
      o stUNCORR := by
  rw [Blk.parityFail, if_neg (by omega)]
  exact if_neg (by omega)

/-- Taking work changes only what the vector engine holds (R225). -/
theorem Blk.veIdle_onlyHub : ∃ h, b.veIdle = { b with hub := h } := by
  have hpick : ∃ h, b.vePick false = { b with hub := h } := by
    unfold Blk.vePick
    dsimp only
    split
    · exact ⟨_, rfl⟩
    split
    · split
      · exact ⟨_, rfl⟩
      · exact ⟨b.hub, rfl⟩
    split
    · split <;> exact ⟨_, rfl⟩
    · exact ⟨_, rfl⟩
  unfold Blk.veIdle
  split
  · exact hpick
  · exact ⟨b.hub, rfl⟩

/-- What an operation leaves undefined is bytes of memory. -/
theorem Blk.scramble_frame (rq : Req) (d : Desc) (ixs : List Int) (e0 n : Nat) :
    ∃ m k, b.scramble rq d ixs e0 n = { b with mem := m, ctr := k } := by
  rw [Blk.scramble]
  refine foldl_keeps (P := fun c => ∃ m k, c = { b with mem := m, ctr := k }) (fun c i h => ?_) _ ⟨b.mem, b.ctr, rfl⟩
  obtain ⟨m, k, rfl⟩ := h
  dsimp only
  split
  · exact ⟨m, k, rfl⟩
  · unfold Blk.smear
    split <;> exact ⟨_, _, rfl⟩

/-- The elements of one operand from the `r`-th on hold free values. -/
def Blk.sfuErase (b : Blk) (f : Flight) (r h per : Nat) : Blk :=
  match b.fdesc f h with
  | some d => let (w, ixs) := (Wk.hub b f 6).indices d
              b.scramble w.rq d ixs (r * per) (Dsc.count d - r * per)
  | none => b

theorem Blk.sfuUndefined_eq (f : Flight) (r : Nat) : b.sfuUndefined f r
    = (b.sfuErase f r (eHandle f.raw 2) (Sfu.len f.raw)).sfuErase f r (if Sfu.stats f.raw then Sfu.statsH f.raw else 0) 2 := rfl

theorem Blk.sfuErase_frame (f : Flight) (r h per : Nat) : ∃ m k, b.sfuErase f r h per = { b with mem := m, ctr := k } := by
  unfold Blk.sfuErase
  split
  · exact b.scramble_frame _ _ _ _ _
  · exact ⟨b.mem, b.ctr, rfl⟩

theorem Blk.sfuUndefined_frame (f : Flight) (r : Nat) : ∃ m k, b.sfuUndefined f r = { b with mem := m, ctr := k } := by
  rw [Blk.sfuUndefined_eq]
  obtain ⟨m, k, h⟩ := b.sfuErase_frame f r (eHandle f.raw 2) (Sfu.len f.raw)
  rw [h]
  obtain ⟨m', k', h'⟩ := Blk.sfuErase_frame ({ b with mem := m, ctr := k } : Blk) f r (if Sfu.stats f.raw then Sfu.statsH f.raw else 0) 2
  exact ⟨m', k', h'⟩

/-- The end of an entry that no engine has in work leaves its registers, and finishes it with the error. -/
theorem Blk.endEntry_plain {f : Flight} {st : Nat} {k : EndKind} (hf : b.flight? f.q f.seq = some f) (hst : f.stage = .running)
    (he : isErr st = true) (hj : b.job? f.q f.seq = none) (ht : b.tileJob? f.q f.seq = none)
    (hv : (b.hub.run.toList ++ b.hub.queue).find? (fun r => r.q == f.q && r.seq == f.seq) = none)
    (hc : b.mem.convs.find? (fun c => c.q == f.q && c.seq == f.seq) = none) :
    Finished (b.endEntry f st k) f st ∧ (b.endEntry f st k).regs = b.regs := by
  have heq : b.endEntry f st k = (if eOpcode f.raw = 0x22 && f.progress != 0 then (b.dropTxns f.q f.seq).sfuUndefined f f.progress
      else b.dropTxns f.q f.seq).finish f.q f.seq st 0 f.result := by
    rw [Blk.endEntry, if_neg (by simp [hst]), if_neg (by simp [hst]), if_neg (by simp [hj]), ht, hv, hc]
  have hframe : ∃ m n, (if eOpcode f.raw = 0x22 && f.progress != 0 then (b.dropTxns f.q f.seq).sfuUndefined f f.progress
      else b.dropTxns f.q f.seq) = { b.dropTxns f.q f.seq with mem := m, ctr := n } := by
    split
    · exact Blk.sfuUndefined_frame _ _ _
    · exact ⟨_, _, rfl⟩
  obtain ⟨m, n, h⟩ := hframe
  have hd : (b.dropTxns f.q f.seq).flight? f.q f.seq = some { f with txns := [], out := [] } :=
    (Blk.flight?_updFlight (fun g : Flight => { g with txns := [], out := [] }) (fun _ h => h)).trans (congrArg _ hf)
  rw [heq, h]
  refine ⟨⟨_, (Blk.flight?_finish _ _ _ _ _ _).trans (congrArg _ hd), rfl, ?_⟩, rfl⟩
  simp [finalStatus, he]

/-- A request that times out is logged and counted among the stack's events before its party is told (R94, R112). -/
theorem Blk.reqTimeout_logs {port cls : Nat} {o : Owner} (h : ch < 384) (hp : port < 12) (hc : cls < 6) :
    ∃ c : Blk, (c.flights = b.flights ∧ c.cu = b.cu ∧ c.hub = b.hub ∧ c.mem = b.mem)
      ∧ (c.reg (oSC_EVENTS (stackOfCh ch))).testBit 1 = true ∧ b.reqTimeout ch port cls o = c.ownerEnd o stINTERNAL := by
  rw [Blk.reqTimeout, if_neg (by simp [h, hp, hc])]
  refine ⟨_, ?_, ?_, rfl⟩
  · obtain ⟨x, hx⟩ := Blk.dropQueued_onlyChans ((b.logE kSC_REQTO
      { port := some port, status := stINTERNAL, cga := some (cgaOf (gidOf ch 0 0 0)), detail := cls }).scEvent (stackOfCh ch) 1)
      ch port cls
    rw [hx]
    simp
  · rw [Blk.reg_congr (Blk.dropQueued_onlyChans _ _ _ _).regs, Blk.scEvent_eq]
    exact Blk.testBit_orReg _ _ (by decide)

theorem Blk.ownerEnd_running {q seq : Nat} {f : Flight} (hf : b.flight? q seq = some f) (hst : f.stage = .running) (st : Nat) :
    b.ownerEnd (.entry q seq) st = (b.endEntry f st .now).veIdle := by
  rw [Blk.ownerEnd, hf]
  exact if_pos hst

end

/-- Settles O22: each command's update of the registers, the channels and the entry. -/
theorem stackEvents : Obligations.StackEvents := by
  refine ⟨fun s ch hu => .hubFrame (exec_corrWindowExpiry s ch) hu rfl, fun s bad hu => ?_, fun s p k v hp hr hk hv => ?_,
    fun s p v hp hr hm hv hs => ?_, fun s v hp hm => ?_, fun s errs hu hr hd => ?_,
    fun s hu hr => .hubFrame (exec_trnRunTimeout s) hu (if_pos hr), fun s ch o hu hch => ?_,
    fun s ch port cls q seq f hu hch hport hcls hf hst hj ht hv hc => ?_⟩
  · refine .of_hub (exec_retrainTimer s bad) hu ?_
    have hone := s.blk.retrainChans_onlyChans
    have hrep := s.blk.retrainChans.reportLanes_onlyRegsLog bad
    simp only [SameMem, settle_mem, settle_chan, settle_reg, Blk.retrainAll_eq]
    refine ⟨hrep.mem.trans hone.mem, fun ch h ha => (hrep.chan ch).trans (Blk.retrainChans_chan h ha), fun ch hb h ha => ?_⟩
    exact Blk.reportLanes_event hb h (by rwa [hone.die])
  · refine .of_bus (exec_clrCounters s p k v) hp (Blk.carry_plain rfl) ?_
    simp only [hostCmd_clrCounters _ _ hr hk, SameMem, settle_mem, settle_reg, Blk.scCtrl_mem _ hv, Blk.atPort_mem]
    obtain ⟨hpre, hyield, hdebt⟩ := (s.blk.atPort p).scCtrl_stats (k := k) hv
    refine ⟨fun i hi => Blk.scCtrl_count _ hv hi, hpre, hyield, hdebt, Blk.scCtrl_field _ hv (by decide) (by decide),
      Blk.scCtrl_field _ hv (by decide) (by decide), fun j o _ hj ho => ?_, trivial⟩
    rw [Blk.scCtrl_other _ hv hj ho, Blk.atPort_reg]
  · refine .busFrame (exec_trnStart s p v) hp (Blk.carry_plain rfl) ?_
    rw [hostCmd_trnStart _ _ hr]
    exact Blk.trnCtrl_starts hm hv hs
  · refine .of_bus (exec_trnStart s .host v) hp (Blk.carry_plain rfl) ?_
    rw [hostCmd_trnStart _ _ (by decide), Blk.trnCtrl_refused hm, settle_regs, Blk.logE_regs, Blk.atPort_regs]
    exact ⟨rfl, fun hl => (Blk.lastLog_logE (Blk.atPort_log _ _) (by rwa [Blk.atPort_logUp]) _ _).settle⟩
  · refine .of_hub (exec_trnRunDone s errs) hu ?_
    simp only [settle_reg, SameMem, settle_mem]
    refine ⟨?_, ?_, fun hbad => ?_, fun k hk => ?_⟩
    · rw [Blk.trnDone_reg _ _ hr hd (by decide), Blk.trnReport_done]
    · exact Blk.trnDone_mem _ _ hr hd
    · exact Blk.trnDone_event _ _ hr hd hbad
    · exact (Blk.trnDone_reg _ _ hr hd (by simp only [bTRAIN]; omega)).trans (Blk.trnReport_count _ _ hk)
  · refine .of_hub (exec_cmdParityFail s ch o) hu ?_
    refine ⟨fun hp => ?_, fun hp ho => ?_⟩
    · rw [Blk.parityFail_first _ _ hch hp]
      exact settle_frame _ _
    · subst ho
      simp only [Blk.parityFail_third _ _ hch hp, Blk.ownerEnd, settle_chan, settle_reg, SameMem, settle_mem, Blk.scEvent_eq,
        Blk.orReg_chan, Blk.orReg_mem, Blk.logE_chan, Blk.logE_mem, Blk.parityEnded_parity, Blk.parityEnded_mem]
      exact ⟨trivial, Blk.testBit_orReg _ _ (by decide), trivial⟩
  · obtain ⟨rfl, rfl⟩ := Blk.flight?_is hf
    refine .of_hub (exec_scReqTimeout s ch port cls _) hu ?_
    obtain ⟨c, ⟨hflights, hcu, hhub, hmem⟩, hev, heq⟩ := s.blk.reqTimeout_logs ch (o := .entry f.q f.seq) hch hport hcls
    have hcf : c.flight? f.q f.seq = some f := by rwa [Blk.flight?_congr hflights]
    obtain ⟨hfin, hregs⟩ := Blk.endEntry_plain c (k := .now) hcf hst (st := stINTERNAL) (by decide) (by rwa [Blk.job?, hcu])
      (by rwa [Blk.tileJob?, hhub]) (by rwa [hhub]) (by rwa [hmem])
    obtain ⟨x, hx⟩ := (c.endEntry f stINTERNAL .now).veIdle_onlyHub
    rw [heq, Blk.ownerEnd_running _ hcf hst, hx]
    refine ⟨?_, ?_⟩
    · simp only [Finished, settle_flight?]
      exact hfin
    · rw [settle_reg, ← hev, ← Blk.reg_congr hregs]
      rfl

end Sys2Proof.Machine
end

section
/-! Proofs: the end of a sequence in a unit table that is not in rising order (R101, R144). -/

namespace Sys2Proof.Machine
open Sys2Proof

/-- The end of a step is the end of the command (R144). -/
theorem Completes.unitStepDone {s : State} (h : s.blk.hubUp = true) (u : Nat) :
    Completes (.unitStepDone u) s (fun b => (b.unit u).slot = ((s.blk.stepEnd u).unit u).slot) :=
  .of_hub (exec_unitStepDone s u) h (by rw [settle_unit])

/-- A sequence of one entry and one repetition, in its step. -/
def lastStep : SeqSt where
  direct := none
  first := 0
  last := 0
  reps := 1
  n := 0
  i := 0
  inStep := true
  begun := true
  age := 0
  yielded := false
  preempted := false
  stop := 0
  erred := 0
  cmd := unitCmdOf 0 9 1 0 []

/-- The state after reset, with unit 1 and then unit 0, which runs that sequence, in the table of units. -/
def unitsOutOfOrder : State := ⟨[], { Blk.reset with
  cu := { Blk.reset.cu with units := [(1, UnitSt.reset), (0, { UnitSt.reset with seq := some lastStep })] } }⟩

/-- Refutes O24: its clause on the last step of a sequence asks that the unit holds no slot afterwards, for every table
of units. Writes to a table keep its keys in rising order and stop at the first key that is greater: where the table is not in
rising order, as above, the ended sequence's old entry stays behind its new one, and the die's next grant gives the unit
a slot for it. -/
theorem not_unitSequences : ¬ Obligations.UnitSequences := by
  rintro ⟨-, -, -, -, hend, -⟩
  have hidle : unitsOutOfOrder.blk.unitsIdle = true := by decide +kernel
  have hseq : (unitsOutOfOrder.blk.unit 0).seq = some lastStep := by decide +kernel
  have hquiet : unitsOutOfOrder.blk.chanQuiet (unitCh 0) = true := by decide +kernel
  have hasked : (unitsOutOfOrder.blk.unit 0).asked = none := by decide +kernel
  have hup : unitsOutOfOrder.blk.hubUp = true := by decide +kernel
  have hslot : ((unitsOutOfOrder.blk.stepEnd 0).unit 0).slot.isSome = true := by decide +kernel
  obtain ⟨b, ⟨hunit, -⟩, hgranted⟩ := (hend unitsOutOfOrder 0 lastStep hidle hseq rfl (.inr rfl) rfl rfl rfl hquiet hasked rfl rfl).both
    (Completes.unitStepDone hup 0)
  rw [← hgranted, hunit] at hslot
  exact absurd hslot (by decide)

end Sys2Proof.Machine
end

section
/-! Proofs: the local steps of a unit (R143, R144, R147), whatever operation it serves. -/

namespace Sys2Proof.Machine
open Sys2Proof

/-! ### A unit takes a local step -/

section
variable {s : State} {u w : Nat} {x : SeqSt}

/-- A unit takes the local step at which it stands, with the fields of its word. -/
theorem Blk.runStep_local {b : Blk} (h : b.stepsAt u w x = true) (h57 : w.testBit 57 = false) (h59 : w.testBit 59 = false) :
    (eKind w = 0xA → b.runStep u 0xA = (b.stepAt u 0 x).setUnit u (((b.unit u).stepping x).smax
        (bits (eBody w) 43 36) (bits (eBody w) 35 28 + 1) (bits (eBody w) 27 26) ((eBody w).testBit 25)))
    ∧ (eKind w = 0xB → b.runStep u 0xB = (b.stepAt u 0 x).setUnit u (((b.unit u).stepping x).sexp
        (bits (eBody w) 43 36) (bits (eBody w) 35 28 + 1) (bits (eBody w) 27 20) (bits (eBody w) 19 12)))
    ∧ (eKind w = 0xC → b.runStep u 0xC = (b.stepAt u 0 x).setUnit u (((b.unit u).stepping x).lperm
        (bits (eBody w) 43 36) (bits (eBody w) 35 28 + 1) (bits (eBody w) 27 27) (bits (eBody w) 26 21)))
    ∧ (eKind w = 0xD → b.runStep u 0xD = (b.stepAt u 0 x).setUnit u (((b.unit u).stepping x).lew
        (bits (eBody w) 43 36) (bits (eBody w) 35 28 + 1) (bits (eBody w) 27 25)))
    ∧ (eKind w = 0xE → b.runStep u 0xE = ({ b.stepAt u 0 x with ctr := b.ctr + 8 } : Blk).setUnit u
        (((b.unit u).stepping x).lstat (bits (eBody w) 43 36) (bits (eBody w) 35 28 + 1) (bits (eBody w) 27 26)
          (fun k => (Config.freeWord (b.ctr + k)).toNat))) := by
  obtain ⟨-, hseq, hent, hready⟩ := Blk.stepsAt_iff.1 h
  have hpay : eKind w ≠ 6 → b.pay (unitCh u) cCompute (3 * cdiv ((b.unit u).accBytes w) 128)
      = some (b.take (unitCh u) cCompute 0) :=
    fun hk => by rw [accBytes_zero hk, Blk.pay_of_canPay (Blk.canPay_zero _ _ _)]
  refine ⟨?_, ?_, ?_, ?_, ?_⟩ <;> intro hk <;> rw [Blk.runStep, hseq] <;> dsimp only <;>
    rw [hent, hk, hready, hpay (by rw [hk]; decide)] <;>
    simp only [bne_self_eq_false, Bool.not_true, Bool.or_self, Bool.false_eq_true, if_false, if_true, Nat.reduceEqDiff,
      Blk.unit_setUnit_same, adjLat_fixed _ h57, adjSet_fixed h59] <;> rfl

/-- Completion of a local step: its unit is as the step leaves it, and the other units, memory and the registers stay. -/
theorem Completes.of_local {c : Instr} {kind n : Nat} {y : UnitSt} {P : Blk → Prop}
    (hx : exec c s = hubAct s (fun b => b.runStep u kind)) (hat : s.blk.stepsAt u w x = true)
    (hr : s.blk.runStep u kind = ({ s.blk.stepAt u 0 x with ctr := n } : Blk).setUnit u y)
    (hp : ∀ b : Blk, b.unit u = y → (∀ k, k < 6144 → k ≠ u → b.unit k = s.blk.unit k) → SameMem s.blk b →
      b.regs = s.blk.regs → P b) :
    Completes c s P := by
  obtain ⟨hu, -⟩ := Blk.stepsAt_iff.1 hat
  refine .of_hub hx hu (hp _ ?_ (fun k _ hk => ?_) ?_ ?_)
  · rw [settle_unit, hr, Blk.unit_setUnit_same]
  · rw [settle_unit, hr, Blk.unit_setUnit, if_neg hk]
    exact (Blk.unit_setUnit _ _ _ _).trans (if_neg hk)
  · rw [SameMem, settle_mem, hr]; rfl
  · rw [settle_regs, hr]; rfl

end

/-! ### Lists and folds -/

theorem getD_set_self {α : Type} {l : List α} {k : Nat} (h : k < l.length) (a d : α) : (l.set k a).getD k d = a := by
  simp [List.getD_eq_getElem?_getD, h]

theorem getD_set_ne {α : Type} (l : List α) {k j : Nat} (h : k ≠ j) (a d : α) : (l.set k a).getD j d = l.getD j d := by
  simp [List.getD_eq_getElem?_getD, List.getElem?_set_ne h]

/-- What holds at the start of a fold over the numbers below `n`, and passes from each number to the next, holds at the end. -/
theorem foldl_range {β : Type} {P : Nat → β → Prop} {f : β → Nat → β} {n : Nat} {z : β} (h0 : P 0 z)
    (hs : ∀ k b, k < n → P k b → P (k + 1) (f b k)) : P n ((List.range n).foldl f z) := by
  induction n with
  | zero => exact h0
  | succ n ih =>
    rw [List.range_succ, List.foldl_append]
    exact hs n _ n.lt_succ_self (ih fun k b hk => hs k b (by omega))

/-! ### SMAX -/

/-- The greatest of a vector's running maximum and the entries that a SMAX covers, as FP32. -/
def UnitSt.topOf (y : UnitSt) (e n v : Nat) : Nat :=
  (encF ffp32 ((List.range n).foldl (fun a i => Ex.max2 a (f32 (y.scoreAt v (e + i)))) (f32 (y.m.getD v 0)))).1

/-- A unit after the first `k` vectors of a SMAX. -/
structure UnitSt.SmaxDone (y : UnitSt) (e n : Nat) (rescale : Bool) (k : Nat) (z : UnitSt) : Prop where
  rest : z = { y with m := z.m, l := z.l, acc := z.acc, flags := z.flags }
  len : z.m.length = y.m.length
  top : ∀ v, v < y.m.length → z.m.getD v 0 = if v < k then y.topOf e n v else y.m.getD v 0
  acc : rescale = false → z.acc = y.acc

/-- A unit whose vectors' maxima, sums and partials one more vector of a SMAX changes. -/
theorem UnitSt.SmaxDone.next {y z : UnitSt} {e n k : Nat} {rescale : Bool} (h : y.SmaxDone e n rescale k z) {l : List Nat}
    {a : List AccSet} {f : Flags} (ha : rescale = false → a = z.acc) :
    y.SmaxDone e n rescale (k + 1) { z with m := z.m.set k (z.topOf e n k), l := l, acc := a, flags := f } := by
  obtain ⟨hrest, hlen, htop, hacc⟩ := h
  refine ⟨?_, by simpa using hlen, fun v hv => ?_, fun hr => (ha hr).trans (hacc hr)⟩
  · rw [hrest]
  · by_cases hvk : v = k
    · subst hvk
      rw [if_pos (Nat.lt_succ_self v), getD_set_self (by omega)]
      have hm : z.m.getD v 0 = y.m.getD v 0 := by rw [htop v hv, if_neg (by omega)]
      have hs : z.score = y.score := by rw [hrest]
      simp only [UnitSt.topOf, UnitSt.scoreAt, hm, hs]
    · rw [getD_set_ne _ (Ne.symm hvk), htop v hv]
      simp only [show v < k + 1 ↔ v < k by omega]

/-- The rescaled set of a SMAX is marked as FP32's. -/
theorem UnitSt.SmaxDone.ofAcc {y z : UnitSt} {e n k set : Nat} {rescale : Bool} (h : y.SmaxDone e n rescale k z) :
    y.SmaxDone e n rescale k (if rescale then z.setAcc set { z.accSet set with fp := true } else z) := by
  split
  · next hr => exact ⟨by rw [h.rest]; rfl, h.len, h.top, fun hf => absurd (hr.symm.trans hf) (by decide)⟩
  · exact h

theorem UnitSt.smax_done (y : UnitSt) (e n set : Nat) (rescale : Bool) :
    y.SmaxDone e n rescale y.nvec (y.smax e n set rescale) := by
  unfold UnitSt.smax
  refine UnitSt.SmaxDone.ofAcc (foldl_range (P := y.SmaxDone e n rescale)
    ⟨rfl, rfl, fun v _ => (if_neg (Nat.not_lt_zero v)).symm, fun _ => rfl⟩ (fun k z _ h => ?_))
  extract_lets old top
  split
  next new f0 htop =>
  have hnew : new = z.topOf e n k := (congrArg Prod.fst htop).symm
  subst hnew
  split
  split
  extract_lets z'
  cases rescale with
  | false => exact h.next fun _ => rfl
  | true =>
    rw [if_pos rfl]
    exact h.next fun hf => absurd hf (by decide)

/-! ### SEXP -/

/-- A unit in a SEXP: its sums, latch and flags, with the sums of the vectors beyond those in use, and of those whose
maximum is −∞, as they were. -/
structure UnitSt.SexpDone (y z : UnitSt) : Prop where
  rest : z = { y with l := z.l, latch := z.latch, flags := z.flags }
  kept : ∀ v, y.nvec ≤ v ∨ y.m.getD v 0 = f32NInf → z.l.getD v 0 = y.l.getD v 0

section
variable {y z : UnitSt} (h : y.SexpDone z)
include h

theorem UnitSt.SexpDone.latched {t : Tbl Bytes} {f : Flags} : y.SexpDone { z with latch := t, flags := f } :=
  ⟨by rw [h.rest], h.kept⟩

theorem UnitSt.SexpDone.summed {v l : Nat} {t : Tbl Bytes} {f : Flags} (hv : v < y.nvec) (hm : y.m.getD v 0 ≠ f32NInf) :
    y.SexpDone { z with l := z.l.set v l, latch := t, flags := f } := by
  refine ⟨by rw [h.rest], fun k hk => ?_⟩
  have hne : v ≠ k := by
    rintro rfl
    exact hk.elim (fun hn => by omega) hm
  exact (getD_set_ne _ hne _ _).trans (h.kept k hk)

end

theorem UnitSt.sexp_done (y : UnitSt) (e n lat out : Nat) : y.SexpDone (y.sexp e n lat out) := by
  unfold UnitSt.sexp
  refine foldl_range (P := fun _ => y.SexpDone) ⟨rfl, fun _ _ => rfl⟩ (fun v x hv hx => ?_)
  extract_lets m epe
  have hm : m = y.m.getD v 0 := by simp only [m]; rw [hx.rest]
  refine foldl_keeps (fun z i h => ?_) _ hx
  extract_lets word
  split
  · exact h.latched
  · next hne =>
    split
    split
    split
    split
    exact h.summed hv (hm ▸ hne)

/-! ### LPERM and LEW -/

/-- A unit of which the latch words from `lat` on, `n` of each vector, have become `W` of what they were, in the vectors
before `v` and in the first `m` words of `v`. -/
structure UnitSt.Rewritten (y : UnitSt) (lat n : Nat) (W : Nat → Bytes → Bytes) (v m : Nat) (z : UnitSt) : Prop where
  rest : z = { y with latch := z.latch, flags := z.flags }
  words : n ≤ areaWords y.wfmt → ∀ k i, i < n → z.latchAt k (lat + i)
    = if k < v ∨ k = v ∧ i < m then W k (y.latchAt k (lat + i)) else y.latchAt k (lat + i)

/-- The words that an area holds have numbers of their own (R120). -/
theorem UnitSt.latchNo_inj {y : UnitSt} {lat n v k i j : Nat} (hn : n ≤ areaWords y.wfmt) (hi : i < n) (hj : j < n)
    (h : y.latchNo v (lat + i) = y.latchNo k (lat + j)) : v = k ∧ i = j := by
  have harea : areaWords y.wfmt = 64 ∨ areaWords y.wfmt = 128 := by unfold areaWords; split <;> simp
  unfold UnitSt.latchNo at h
  obtain ha | ha := harea <;> rw [ha] at h hn <;> omega

section
variable {y z : UnitSt} {lat n v m : Nat} {W : Nat → Bytes → Bytes}

theorem UnitSt.Rewritten.start : y.Rewritten lat n W 0 0 y := ⟨rfl, fun _ k i _ => by simp⟩

theorem UnitSt.Rewritten.next (h : y.Rewritten lat n W v m z) (hm : m < n) (f : Flags) :
    y.Rewritten lat n W v (m + 1)
      { z with latch := tset (z.latchNo v (lat + m)) (W v (z.latchAt v (lat + m))) z.latch, flags := f } := by
  have hno : ∀ k off, z.latchNo k off = y.latchNo k off := fun k off => by rw [h.rest]; rfl
  refine ⟨by rw [h.rest], fun hn k i hi => ?_⟩
  have hold := h.words hn
  by_cases hki : k = v ∧ i = m
  · obtain ⟨rfl, rfl⟩ := hki
    refine (tget_tset_same zeroWord _ _ _).trans ?_
    rw [if_pos (by omega), hold k i hi, if_neg (by omega)]
  · have hne : z.latchNo k (lat + i) ≠ z.latchNo v (lat + m) := fun he => by
      rw [hno, hno] at he
      exact hki (UnitSt.latchNo_inj hn hi hm he)
    refine (tget_tset_other _ _ hne _).trans ((hold k i hi).trans ?_)
    simp only [show (k < v ∨ k = v ∧ i < m + 1) ↔ (k < v ∨ k = v ∧ i < m) by omega]

theorem UnitSt.Rewritten.row (h : y.Rewritten lat n W v n z) : y.Rewritten lat n W (v + 1) 0 z := by
  refine ⟨h.rest, fun hn k i hi => (h.words hn k i hi).trans ?_⟩
  simp only [show (k < v ∨ k = v ∧ i < n) ↔ (k < v + 1 ∨ k = v + 1 ∧ i < 0) by omega]

end

theorem UnitSt.lperm_rewritten (y : UnitSt) (lat n esz m : Nat) :
    y.Rewritten lat n (fun _ w => (permWord y.tab.table esz m w).1) y.nvec 0 (y.lperm lat n esz m) := by
  unfold UnitSt.lperm
  refine foldl_range (P := fun v => y.Rewritten lat n _ v 0) .start (fun v x _ hx => ?_)
  refine UnitSt.Rewritten.row (foldl_range (P := fun i => y.Rewritten lat n _ v i) hx (fun i z hi h => ?_))
  have htab : z.tab = y.tab := by rw [h.rest]; rfl
  rw [htab]
  exact h.next hi _

/-- A latch word with every element passed through a function of its index and value, and the flags of that (R143). -/
def UnitSt.mapped (y : UnitSt) (f : Nat → Ex → Ex) (old : Bytes) : Bytes × Flags :=
  (List.range (latchElems y.afmt)).foldl (fun (a : Bytes × Flags) i =>
    let x := (y.operands old).getD i .zero
    let (r, g) := encElem y.afmt (plusZero (f i x))
    (putElem y.afmt a.1 i r, a.2 ||| g ||| nanFlags [x])) (old, 0)

theorem UnitSt.mapWord_eq (y : UnitSt) (v off : Nat) (f : Nat → Ex → Ex) :
    y.mapWord v off f = (y.setLatch v off (y.mapped f (y.latchAt v off)).1).flag (y.mapped f (y.latchAt v off)).2 := rfl

theorem UnitSt.latchAt_mapWord (y : UnitSt) (v off : Nat) (f : Nat → Ex → Ex) :
    (y.mapWord v off f).latchAt v off = (y.mapped f (y.latchAt v off)).1 := tget_tset_same _ _ _ _

/-- What a LEW does to an element of vector `v` (R143). -/
def UnitSt.lewOp (y : UnitSt) (op v : Nat) : Nat → Ex → Ex := fun _ e =>
  if op = 0 then Ex.mul e (plusZero (f32 (y.s.getD v 0)))
  else if op = 1 then Ex.add e (plusZero (f32 (y.s.getD v 0))) else Ex.max2 e (plusZero (f32 (y.s.getD v 0)))

theorem UnitSt.lew_rewritten (y : UnitSt) (lat n op : Nat) :
    y.Rewritten lat n (fun v w => (y.mapped (y.lewOp op v) w).1) y.nvec 0 (y.lew lat n op) := by
  unfold UnitSt.lew
  refine foldl_range (P := fun v => y.Rewritten lat n _ v 0) .start (fun v x _ hx => ?_)
  extract_lets s
  have hs : s = plusZero (f32 (y.s.getD v 0)) := by simp only [s]; rw [hx.rest]
  refine UnitSt.Rewritten.row (foldl_range (P := fun i => y.Rewritten lat n _ v i) hx (fun i z hi h => ?_))
  have hmap : z.mapped = y.mapped := by rw [h.rest]; rfl
  rw [UnitSt.mapWord_eq, hmap, hs]
  exact h.next hi _

/-! ### LSTAT -/

theorem UnitSt.lstat_rest (y : UnitSt) (lat n set : Nat) (free : Nat → Nat) :
    y.lstat lat n set free = { y with acc := (y.lstat lat n set free).acc, flags := (y.lstat lat n set free).flags } := rfl

theorem UnitSt.lstat_accSet (y : UnitSt) (lat n : Nat) {set k : Nat} (free : Nat → Nat) (hs : set < 4) (hk : k < 4) (h : k ≠ set) :
    (y.lstat lat n set free).accSet k = y.accSet k :=
  getD_set_ne _ (by rwa [Nat.mod_eq_of_lt hs, Nat.mod_eq_of_lt hk, ne_comm]) _ _

/-! ### The words of local steps (R142, R143) -/

/-- What the word of a local step says: its kind, its first latch word or entry, how many it covers, and what is left of
its body. -/
structure LocalFields (w kind first n low : Nat) : Prop where
  kind : eKind w = kind
  first : bits (eBody w) 43 36 = first
  count : bits (eBody w) 35 28 + 1 = n
  low : eBody w % 2 ^ 28 = low
  fixedLat : w.testBit 57 = false
  fixedSet : w.testBit 59 = false

theorem localFields {w kind first n low : Nat} (hw : w = kind * 2 ^ 60 + first * 2 ^ 36 + (n - 1) * 2 ^ 28 + low) (hk : kind < 16)
    (hf : first < 256) (h1 : 1 ≤ n) (hn : n ≤ 256) (hl : low < 2 ^ 28) : LocalFields w kind first n low := by
  subst hw
  constructor
  case fixedLat => rw [testBit_eq]; exact decide_eq_false (by omega)
  case fixedSet => rw [testBit_eq]; exact decide_eq_false (by omega)
  all_goals simp only [eKind, eBody, bits_eq]; omega

section
variable {s : State} {u w : Nat} {x : SeqSt} (hat : s.blk.stepsAt u w x = true)
include hat

theorem smax_completes {e n set : Nat} {rescale : Bool} (hs : set < 4)
    (hw : LocalFields w 0xA e n (set * 2 ^ 26 + (if rescale then 2 ^ 25 else 0))) :
    Completes (.smax u) s (fun b => b.unit u = ((s.blk.unit u).stepping x).smax e n set rescale
      ∧ b.unit u = { (s.blk.unit u).stepping x with m := (b.unit u).m, l := (b.unit u).l, acc := (b.unit u).acc, flags := (b.unit u).flags }
      ∧ ((s.blk.unit u).m.length = 4 → ∀ v, v < 4 → (b.unit u).m.getD v 0 =
          if v < (s.blk.unit u).nvec then (s.blk.unit u).topOf e n v else (s.blk.unit u).m.getD v 0)
      ∧ (rescale = false → (b.unit u).acc = (s.blk.unit u).acc)
      ∧ (∀ k, k < 6144 → k ≠ u → b.unit k = s.blk.unit k) ∧ SameMem s.blk b ∧ b.regs = s.blk.regs) := by
  have hlow := hw.low
  have hset : bits (eBody w) 27 26 = set := by rw [bits_eq]; cases rescale <;> simp at hlow <;> omega
  have hresc : (eBody w).testBit 25 = rescale := by
    rw [testBit_eq]
    cases rescale <;> simp at hlow ⊢ <;> omega
  obtain ⟨hrun, -⟩ := Blk.runStep_local hat hw.fixedLat hw.fixedSet
  have hrun := hrun hw.kind
  rw [hw.first, hw.count, hset, hresc] at hrun
  obtain ⟨hrest, -, htop, hacc⟩ := ((s.blk.unit u).stepping x).smax_done e n set rescale
  refine .of_local (exec_smax s u) hat hrun fun b hu hk hm hregs => ⟨hu, ?_, fun hlen v hv => ?_, fun h => ?_, hk, hm, hregs⟩
  · rw [hu]; exact hrest
  · rw [hu]; exact htop v (by rwa [← hlen] at hv)
  · rw [hu]; exact hacc h

theorem sexp_completes {e n lat out : Nat} (ho : out < 256)
    (hw : LocalFields w 0xB e n (lat * 2 ^ 20 + out * 2 ^ 12)) :
    Completes (.sexp u) s (fun b => b.unit u = ((s.blk.unit u).stepping x).sexp e n lat out
      ∧ b.unit u = { (s.blk.unit u).stepping x with l := (b.unit u).l, latch := (b.unit u).latch, flags := (b.unit u).flags }
      ∧ (∀ v, v < 4 → (s.blk.unit u).nvec ≤ v ∨ (s.blk.unit u).m.getD v 0 = 0xFF800000 →
          (b.unit u).l.getD v 0 = (s.blk.unit u).l.getD v 0)
      ∧ (∀ k, k < 6144 → k ≠ u → b.unit k = s.blk.unit k) ∧ SameMem s.blk b ∧ b.regs = s.blk.regs) := by
  have hlow := hw.low
  have hlat : bits (eBody w) 27 20 = lat := by rw [bits_eq]; omega
  have hout : bits (eBody w) 19 12 = out := by rw [bits_eq]; omega
  obtain ⟨-, hrun, -⟩ := Blk.runStep_local hat hw.fixedLat hw.fixedSet
  have hrun := hrun hw.kind
  rw [hw.first, hw.count, hlat, hout] at hrun
  obtain ⟨hrest, hkept⟩ := ((s.blk.unit u).stepping x).sexp_done e n lat out
  refine .of_local (exec_sexp s u) hat hrun fun b hu hk hm hregs => ⟨hu, ?_, fun v _ hv => ?_, hk, hm, hregs⟩
  · rw [hu]; exact hrest
  · rw [hu]; exact hkept v hv

theorem lperm_completes {lat n esz m : Nat} (hm : m < 64)
    (hw : LocalFields w 0xC lat n (esz * 2 ^ 27 + m * 2 ^ 21)) :
    Completes (.lperm u) s (fun b => b.unit u = ((s.blk.unit u).stepping x).lperm lat n esz m
      ∧ b.unit u = { (s.blk.unit u).stepping x with latch := (b.unit u).latch, flags := (b.unit u).flags }
      ∧ (n ≤ areaWords (s.blk.unit u).wfmt → ∀ v, v < (s.blk.unit u).nvec → ∀ i, i < n → (b.unit u).latchAt v (lat + i)
          = (permWord (s.blk.unit u).tab.table esz m ((s.blk.unit u).latchAt v (lat + i))).1)
      ∧ (∀ k, k < 6144 → k ≠ u → b.unit k = s.blk.unit k) ∧ SameMem s.blk b ∧ b.regs = s.blk.regs) := by
  have hlow := hw.low
  have hesz : bits (eBody w) 27 27 = esz := by rw [bits_eq]; omega
  have hbound : bits (eBody w) 26 21 = m := by rw [bits_eq]; omega
  obtain ⟨-, -, hrun, -⟩ := Blk.runStep_local hat hw.fixedLat hw.fixedSet
  have hrun := hrun hw.kind
  rw [hw.first, hw.count, hesz, hbound] at hrun
  obtain ⟨hrest, hwords⟩ := ((s.blk.unit u).stepping x).lperm_rewritten lat n esz m
  refine .of_local (exec_lperm s u) hat hrun fun b hu hk hm hregs => ⟨hu, ?_, fun hn v hv i hi => ?_, hk, hm, hregs⟩
  · rw [hu]; exact hrest
  · rw [hu]; exact (hwords hn v i hi).trans (if_pos (.inl hv))

theorem lew_completes {lat n op : Nat} (ho : op < 3) (hw : LocalFields w 0xD lat n (op * 2 ^ 25)) :
    Completes (.lew u) s (fun b => b.unit u = ((s.blk.unit u).stepping x).lew lat n op
      ∧ b.unit u = { (s.blk.unit u).stepping x with latch := (b.unit u).latch, flags := (b.unit u).flags }
      ∧ (n ≤ areaWords (s.blk.unit u).wfmt → ∀ v, v < (s.blk.unit u).nvec → ∀ i, i < n → (b.unit u).latchAt v (lat + i)
          = ((s.blk.unit u).mapWord v (lat + i) ((s.blk.unit u).lewOp op v)).latchAt v (lat + i))
      ∧ (∀ k, k < 6144 → k ≠ u → b.unit k = s.blk.unit k) ∧ SameMem s.blk b ∧ b.regs = s.blk.regs) := by
  have hlow := hw.low
  have hop : bits (eBody w) 27 25 = op := by rw [bits_eq]; omega
  obtain ⟨-, -, -, hrun, -⟩ := Blk.runStep_local hat hw.fixedLat hw.fixedSet
  have hrun := hrun hw.kind
  rw [hw.first, hw.count, hop] at hrun
  obtain ⟨hrest, hwords⟩ := ((s.blk.unit u).stepping x).lew_rewritten lat n op
  refine .of_local (exec_lew s u) hat hrun fun b hu hk hm hregs => ⟨hu, ?_, fun hn v hv i hi => ?_, hk, hm, hregs⟩
  · rw [hu]; exact hrest
  · rw [hu, UnitSt.latchAt_mapWord]
    exact (hwords hn v i hi).trans (if_pos (.inl hv))

theorem lstat_completes {lat n set : Nat} (hs : set < 4) (hw : LocalFields w 0xE lat n (set * 2 ^ 26)) :
    Completes (.lstat u) s (fun b =>
      b.unit u = ((s.blk.unit u).stepping x).lstat lat n set (fun k => (Config.freeWord (s.blk.ctr + k)).toNat)
      ∧ b.unit u = { (s.blk.unit u).stepping x with acc := (b.unit u).acc, flags := (b.unit u).flags }
      ∧ (∀ k, k < 4 → k ≠ set → (b.unit u).accSet k = (s.blk.unit u).accSet k)
      ∧ (∀ k, k < 6144 → k ≠ u → b.unit k = s.blk.unit k) ∧ SameMem s.blk b ∧ b.regs = s.blk.regs) := by
  have hlow := hw.low
  have hset : bits (eBody w) 27 26 = set := by rw [bits_eq]; omega
  obtain ⟨-, -, -, -, hrun⟩ := Blk.runStep_local hat hw.fixedLat hw.fixedSet
  have hrun := hrun hw.kind
  rw [hw.first, hw.count, hset] at hrun
  refine .of_local (exec_lstat s u) hat hrun fun b hu hk hm hregs => ⟨hu, ?_, fun j hj hne => ?_, hk, hm, hregs⟩
  · rw [hu]; exact UnitSt.lstat_rest _ _ _ _ _
  · rw [hu]; exact UnitSt.lstat_accSet _ _ _ _ hs hj hne

end

/-- Settles O26: each step's word says its fields, and the step then changes what its fold over the unit's vectors does. -/
theorem localSteps : Obligations.LocalSteps := by
  refine ⟨fun s u e n set rescale x he h1 hn hs hat => smax_completes hat hs ?_,
    fun s u e n lat out x he h1 hn hl ho hat => sexp_completes hat ho ?_,
    fun s u lat n esz m x hl h1 hn he hm hat => lperm_completes hat hm ?_,
    fun s u lat n op x hl h1 hn ho hat => lew_completes hat ho ?_,
    fun s u lat n set x hl h1 hn hs hat => lstat_completes hat hs ?_⟩
  · exact localFields (Nat.add_assoc _ _ _) (by decide) he h1 (by omega) (by split <;> omega)
  · exact localFields (Nat.add_assoc _ _ _) (by decide) he h1 (by omega) (by omega)
  · exact localFields (Nat.add_assoc _ _ _) (by decide) hl h1 hn (by omega)
  · exact localFields rfl (by decide) hl h1 hn (by omega)
  · exact localFields rfl (by decide) hl h1 hn (by omega)

end Sys2Proof.Machine
end

section
/-! Proofs: the end of compute mode in a unit that the unit table lists twice (R98, R131). -/

namespace Sys2Proof.Machine
open Sys2Proof

/-- What a PIM_MODE leaves of a unit is what its issue and the sweep after it leave (R130, R131). -/
theorem Completes.pimMode {s : State} (h : s.blk.hubUp = true) (ch mask body u : Nat) :
    Completes (.pimMode ch mask body) s (fun b =>
      (b.unit u).slot = (((s.blk.submit (unitCmdOf ch 1 mask body [])).sweep).unit u).slot) :=
  .of_hub (exec_pimMode s ch mask body) h (by rw [settle_unit])

/-- The state after reset, with unit 0 twice in the table of units: as it is after reset, and behind that with a sequence
that holds no slot. -/
def unitListedTwice : State := ⟨[], { Blk.reset with
  cu := { Blk.reset.cu with units := [(0, UnitSt.reset), (0, { UnitSt.reset with seq := some lastStep })] } }⟩

/-- Refutes O23: its clause on the end of compute mode asks that the unit holds no slot afterwards, for every table of
units. A unit reads as its first entry, and a die's grant goes through all entries: where the table lists a unit twice, as
above, the grant that follows the command finds the sequence of the second entry and gives the unit a slot for it. -/
theorem not_unitSetUp : ¬ Obligations.UnitSetUp := by
  rintro ⟨-, -, hexit, -⟩
  have htakes : unitListedTwice.blk.unitTakes 0 0 2 = true := by decide +kernel
  have hup : unitListedTwice.blk.hubUp = true := by decide +kernel
  have hslot : (((unitListedTwice.blk.submit (unitCmdOf 0 1 (2 ^ 0) 0 [])).sweep).unit (unitNo 0 0)).slot.isSome = true := by
    decide +kernel
  obtain ⟨b, ⟨hunit, -⟩, hgranted⟩ :=
    (hexit unitListedTwice 0 0 htakes rfl).both (Completes.pimMode hup 0 (2 ^ 0) 0 (unitNo 0 0))
  rw [← hgranted, hunit] at hslot
  exact absurd hslot (by decide)

end Sys2Proof.Machine
end

section
/-! Proofs: what the work of an entry on memory leaves of the bank sequencer and of the entries in flight (R166, R263, R279,
R335). -/

namespace Sys2Proof.Machine
open Sys2Proof

/-- What an entry is known by, and its descriptor. -/
def Flight.ident (f : Flight) : Nat × Nat × Bytes := (f.q, f.seq, f.raw)

/-- The units, the trees and the sequencer are as they were, and so is what every entry in flight was posted as. -/
structure Stands (a b : Blk) : Prop where
  cu : b.cu = a.cu
  idents : b.flights.map Flight.ident = a.flights.map Flight.ident

theorem Stands.rfl' (a : Blk) : Stands a a := ⟨rfl, rfl⟩

theorem Stands.trans {a b c : Blk} (h : Stands a b) (g : Stands b c) : Stands a c :=
  ⟨g.cu.trans h.cu, g.idents.trans h.idents⟩

theorem Stands.of_memFrame {a b : Blk} (h : MemFrame a b) : Stands a b := by
  obtain ⟨⟨_, _, _, _, rfl⟩, -⟩ := h
  exact ⟨rfl, rfl⟩

theorem Stands.updFlight (b : Blk) (q seq : Nat) {g : Flight → Flight} (hg : ∀ f, (g f).ident = f.ident := by intro _; rfl) :
    Stands b (b.updFlight q seq g) := by
  refine ⟨rfl, ?_⟩
  simp only [Blk.updFlight, List.map_map]
  refine List.map_congr_left fun f _ => ?_
  simp only [Function.comp_apply]
  split
  · exact hg f
  · rfl

/-- An entry in flight is still in flight, with its descriptor. -/
theorem Stands.flight? {a b : Blk} (h : Stands a b) {q seq : Nat} {f : Flight} (hf : a.flight? q seq = some f) :
    ∃ g, b.flight? q seq = some g ∧ g.raw = f.raw := by
  have hfind : ∀ c : Blk, (c.flight? q seq).map Flight.ident
      = (c.flights.map Flight.ident).find? (fun p => p.1 == q && p.2.1 == seq) := fun c => by
    rw [List.find?_map]
    rfl
  have hg : (b.flight? q seq).map Flight.ident = some f.ident := by rw [hfind b, h.idents, ← hfind a, hf]; rfl
  obtain ⟨g, hb, hid⟩ := Option.map_eq_some_iff.1 hg
  exact ⟨g, hb, congrArg (fun p : Nat × Nat × Bytes => p.2.2) hid⟩

/-! ### Accesses of memory -/

theorem Blk.otherWrite_stands (b : Blk) (rq : Req) (m : Nat) (d : Bytes) : Stands b (b.otherWrite rq m d).1 := by
  unfold Blk.otherWrite
  split
  · exact .of_memFrame (writeRange_memFrame _ _ _ _)
  · refine foldl_keeps (P := fun x : Blk × Nat => Stands b x.1) (fun x p h => ?_) _ (z := (b, stOK)) (.rfl' b)
    exact h.trans (.of_memFrame (writeRange_memFrame x.1 _ _ _))

theorem Blk.noteSlots_stands (b : Blk) (q seq m len : Nat) : Stands b (b.noteSlots q seq m len) := by
  unfold Blk.noteSlots
  split
  · exact .rfl' b
  · refine foldl_keeps (P := Stands b) (fun c i h => ?_) _ (.rfl' b)
    dsimp only
    split
    · exact ⟨h.cu, h.idents⟩
    · exact h

/-- Where no unit is listed, an access that waits asks for the exits of dies alone (R101, R108). -/
theorem Blk.askExit_stands {b : Blk} (hu : b.cu.units = []) (m len : Nat) : Stands b (b.askExit m len) := by
  have hdies : Stands b ((b.asleep m len).foldl Blk.wakeDie b) := by
    refine foldl_keeps (P := Stands b) (fun c d h => ?_) _ (.rfl' b)
    unfold Blk.wakeDie
    dsimp only
    split
    · exact ⟨h.cu, h.idents⟩
    · exact h
  rw [Blk.askExit, Blk.askPairs, hdies.cu, hu]
  exact hdies

/-! ### Requests to other modules -/

theorem Blk.sendOn_stands (b : Blk) (l : Nat) (p : Packet) : Stands b (b.sendOn l p) := by
  unfold Blk.sendOn
  dsimp only
  split <;> exact ⟨rfl, rfl⟩

theorem Blk.originate_stands {b c : Blk} {p : Packet} (h : b.originate p = some c) : Stands b c := by
  unfold Blk.originate at h
  split at h
  · cases h
  · unfold Blk.forward at h
    dsimp only at h
    split at h
    · cases h
    · injection h with h
      exact h ▸ Blk.sendOn_stands _ _ _

theorem Blk.request_stands (b : Blk) (q seq typ dst addr arg sub : Nat) (data : Bytes) :
    Stands b ((b.request q seq typ dst addr arg sub data).blk b) := by
  unfold Blk.request
  split
  · exact .rfl' b
  · dsimp only
    split
    · exact ⟨rfl, rfl⟩
    next c hc =>
      have hs := Blk.originate_stands hc
      dsimp only [ReqRes.blk]
      refine Stands.trans (b := { c with fab := _ }) ?_ (.updFlight _ _ _ ?_)
      · exact ⟨hs.cu, hs.idents⟩
      · exact fun _ => rfl

theorem Blk.sendOut_stands (b : Blk) (q seq : Nat) (ws : List (Nat × Bytes)) : Stands b (b.sendOut q seq ws) := by
  induction ws generalizing b with
  | nil => exact .updFlight b q seq
  | cons w t ih =>
    obtain ⟨addr, data⟩ := w
    have hreq := b.request_stands q seq 0x02 (haModule addr) addr data.length 0 data
    unfold Blk.sendOut
    split
    next c hc =>
      rw [hc] at hreq
      exact (hreq.trans (.updFlight c q seq)).trans (ih _)
    next c hc =>
      rw [hc] at hreq
      exact hreq.trans (.updFlight c q seq)
    next => exact .updFlight b q seq

/-! ### Work on tensors, where no unit is listed -/

section
variable (w : Wk)

@[simp] theorem Wk.fail_b (st : Nat) : (w.fail st).b = w.b := by unfold Wk.fail; split <;> rfl
@[simp] theorem Wk.flag_b (f : Nat) : (w.flag f).b = w.b := rfl

end

section
variable {a : Blk} (hu : a.cu.units = []) {w : Wk} (h : Stands a w.b)
include h

/-- What leaves for other modules changes entries, links and transactions (R279, R335). -/
theorem Wk.sent_stands : Stands a w.sent.b := by
  unfold Wk.sent
  split
  · exact h
  extract_lets ps b b' w'
  have hb : Stands a b := by
    unfold b
    split
    · exact h
    · exact h.trans (.updFlight _ _ _)
  have hb' : Stands a w'.b := by
    show Stands a b'
    unfold b'
    split
    · exact hb
    · split
      · exact hb.trans (Blk.sendOut_stands _ _ _ _)
      · exact hb.trans (.updFlight _ _ _)
  split
  · exact hb
  split
  · exact hb'
  · split
    · rwa [Wk.fail_b]
    · exact hb'

theorem Wk.lands_stands (d : Desc) (l : Loc) (e : Nat) : Stands a (w.lands d l e).1.b := by
  unfold Wk.lands
  repeat' split
  all_goals exact h

theorem Wk.landing_stands (d : Desc) (ixs : List Int) (es : List (Nat × Nat)) : Stands a (w.landing d ixs es).1.b :=
  foldl_keeps (P := fun s : Wk × List (Loc × Nat) => Stands a s.1.b) (fun _ _ h₁ => Wk.lands_stands h₁ _ _ _) _ (z := (w, [])) h

include hu

theorem Wk.read_stands (m len : Nat) : Stands a (w.read m len).1.b := by
  unfold Wk.read
  split
  · exact h
  split
  · extract_lets m' r w'
    have hr : Stands a w'.b := h.trans (.of_memFrame (readRange_memFrame _ _ _ _))
    split
    · exact h.trans (Blk.askExit_stands (by rw [h.cu, hu]) _ _)
    split
    · rwa [Wk.fail_b]
    · split <;> exact hr
  split
  · rwa [Wk.fail_b]
  split <;> exact h

theorem Wk.writeN_stands (m : Nat) (d : Bytes) (n : Nat) : Stands a (w.writeN m d n).b := by
  have ho := w.b.otherWrite_stands w.rq (haMpa m) d
  unfold Wk.writeN
  split
  · exact h
  split
  · extract_lets m'
    split
    · exact h.trans (Blk.askExit_stands (by rw [h.cu, hu]) _ _)
    · generalize w.b.otherWrite w.rq m' d = r at ho ⊢
      obtain ⟨c, s⟩ := r
      dsimp -zeta only
      extract_lets k w'
      have hw' : Stands a w'.b := by
        show Stands a (if _ then _ else _)
        split
        · exact ((h.trans ho).trans (.updFlight _ _ _)).trans (Blk.noteSlots_stands _ _ _ _ _)
        · exact h.trans ho
      split
      · rwa [Wk.fail_b]
      · exact hw'
  split
  · rwa [Wk.fail_b]
  · exact h

theorem Wk.writeRuns_stands (l : List (Nat × Bytes × Nat)) : Stands a (w.writeRuns l).b := by
  induction l generalizing w with
  | nil => exact h
  | cons p t ih => exact ih (Wk.writeN_stands hu h _ _ _)

theorem Wk.units_stands (n : Nat) (as : List Nat) : Stands a (w.units n as).1.b :=
  foldl_keeps (P := fun s : Wk × List (Nat × Bytes) => Stands a s.1.b) (fun _ _ h₁ => Wk.read_stands hu h₁ _ _) _ (z := (w, [])) h

theorem Wk.putInBlock_stands (fmt : Nat) (p : Loc × Nat) : Stands a (w.putInBlock fmt p).b := by
  have hr := Wk.read_stands hu h p.1.addr (blkBytes fmt)
  unfold Wk.putInBlock
  extract_lets n
  generalize w.read p.1.addr (blkBytes fmt) = r at hr ⊢
  obtain ⟨v, u⟩ := r
  exact Wk.writeN_stands hu hr _ _ _

theorem Wk.putAt_stands (d : Desc) (ixs : List Int) (es : List (Nat × Nat)) : Stands a (w.putAt d ixs es).b := by
  have hl := Wk.landing_stands h d ixs es
  unfold Wk.putAt
  generalize w.landing d ixs es = r at hl ⊢
  obtain ⟨v, ls⟩ := r
  dsimp only
  split
  · exact foldl_keeps (P := fun v : Wk => Stands a v.b) (fun _ _ h₁ => Wk.putInBlock_stands hu h₁ _ _) _ hl
  · split
    · exact Wk.writeRuns_stands hu (Wk.units_stands hu hl _ _) _
    · exact Wk.writeRuns_stands hu hl _

theorem Wk.bankOut_stands (yd : Desc) (old : List (Nat × Bytes)) (rs : List (Nat × Nat)) (last : Bool) :
    Stands a (w.bankOut yd old rs last).1.b := by
  have hruns := Wk.writeRuns_stands hu h
  unfold Wk.bankOut
  dsimp only
  split
  · exact Wk.writeRuns_stands hu (hruns _) _
  · exact hruns _

end

/-- The outputs of a window leave the sequencer as it is, where no unit is listed and the output has no index tensor. -/
theorem Blk.gemvStore_stands {b : Blk} (hu : b.cu.units = []) (f : Flight) (j : Job) (ws : WinSum) {yd : Desc}
    (hk : Dsc.kind yd ≠ 1) : Stands b (b.gemvStore f j ws yd).1.b := by
  unfold Blk.gemvStore
  have hix : (Wk.bank b f).indices yd = (Wk.bank b f, []) := by rw [Wk.indices, if_neg hk]
  rw [hix]
  extract_lets e p last rs
  dsimp -zeta only
  extract_lets w
  have hw : Stands b w.b :=
    foldl_keeps (P := fun v : Wk => Stands b v.b) (f := fun v (r : Nat × Nat × Flags) => v.flag r.2.2) (fun _ _ h => h) rs (.rfl' b)
  clear_value w
  split
  · exact Wk.bankOut_stands hu hw _ _ _ _
  · dsimp -zeta only
    exact Wk.putAt_stands hu hw _ _ _

/-- What leaves for other modules leaves memory as it is. -/
theorem Wk.sent_mem (w : Wk) : w.sent.b.mem = w.b.mem := by
  unfold Wk.sent
  split
  · rfl
  extract_lets ps b b' w'
  have hb : b.mem = w.b.mem := by unfold b; split <;> rfl
  have hb' : w'.b.mem = w.b.mem := by
    show b'.mem = _
    unfold b'
    split
    · exact hb
    · split
      · exact (Blk.sendOut_offLayout _ _ _ _).mem.trans hb
      · exact hb
  split
  · exact hb
  split
  · exact hb'
  · split
    · rwa [Wk.fail_b]
    · exact hb'

end Sys2Proof.Machine
end

section
/-! Proofs: windows of reduction trees, the hub's windows and the statistics of a row (R153, R165, R166, R174). -/

namespace Sys2Proof.Machine
open Sys2Proof

/-! ### The only operation of the sequencer -/

theorem Blk.onlyJob_iff {b : Blk} {j : Job} : b.onlyJob j = true ↔ b.hubUp = true ∧ b.cu.jobs = [j] ∧ b.cu.waiting = [] := by
  simp [Blk.onlyJob, and_assoc]

theorem Blk.flight?_of_running? {b : Blk} {q seq : Nat} {f : Flight} (h : b.running? q seq = some f) :
    b.flight? q seq = some f := by
  unfold Blk.running? at h
  split at h
  next g hg =>
    split at h
    · rwa [← h]
    · cases h
  next => cases h

theorem lowestErr_one (u e : Nat) : lowestErr [(u, e)] = e := rfl

section
variable {b : Blk} {j : Job} (hj : b.cu.jobs = [j])
include hj

theorem Blk.job?_only : b.job? j.q j.seq = some j := by simp [Blk.job?, hj, Job.is]

theorem Blk.updJob_only (g : Job → Job) : b.updJob j.q j.seq g = b.setJobs [g j] := by simp [Blk.updJob, hj, Job.is]

/-- After a command, the sequencer looks at its one operation. -/
theorem Blk.sweep_only (hw : b.cu.waiting = []) : b.sweep
    = ((b.progEnd (some (j.q, j.seq))).attnEnd (j.q, j.seq)).jobSettle (some (j.q, j.seq)) := by simp [Blk.sweep, hw, hj]

/-- A BANK_GEMV that waits for windows goes on. -/
theorem Blk.sweep_waits (hw : b.cu.waiting = []) {f : Flight} (hf : b.flight? j.q j.seq = some f) (hop : eOpcode f.raw = 0x10)
    (hfail : j.failed = false) (hwins : j.wins.all (fun w => j.combined.contains w.win) = false) : b.sweep = b := by
  have hjob := Blk.job?_only hj
  have hadv : b.gemvAdvance f j = b := by rw [Blk.gemvAdvance, hwins]; rfl
  have hprog : b.progEnd (some (j.q, j.seq)) = b := by simp [Blk.progEnd, hjob, hf, hop, hadv]
  have hattn : b.attnEnd (j.q, j.seq) = b := by simp [Blk.attnEnd, hjob, hf, hop]
  have hset : b.jobSettle (some (j.q, j.seq)) = b := by simp [Blk.jobSettle, hjob, hfail]
  rw [Blk.sweep_only hj hw, hprog, hattn, hset]

end

/-- Where no unit is listed and no command is held, nothing works for an operation. -/
theorem Blk.jobBusy_idle {b : Blk} (hw : b.cu.waiting = []) (hu : b.cu.units = []) (q seq : Nat) : b.jobBusy q seq = false := by
  simp [Blk.jobBusy, hw, hu]

/-! ### The end of the only operation -/

/-- What the end of an operation leaves, where it was the only one: an idle sequencer, memory and registers as they
were, and its entry finished. -/
structure JobEnded (b : Blk) (j : Job) (st fl r : Nat) (c : Blk) : Prop where
  jobs : c.cu.jobs = []
  trees : c.cu.trees = []
  waiting : c.cu.waiting = b.cu.waiting
  mem : c.mem = b.mem
  regs : c.regs = b.regs
  flight : c.flight? j.q j.seq = (b.flight? j.q j.seq).map (fun f =>
    { f with stage := .done, status := finalStatus st (f.flags ||| fl) f.preempted, flags := f.flags ||| fl, result := r })

theorem Blk.jobEnd_ended {b : Blk} {j : Job} (hj : b.cu.jobs = [j]) (ht : b.cu.trees = []) {st : Nat}
    (hs : isErr st = true → j.spoil = []) (fl r : Nat) : JobEnded b j st fl r (b.jobEnd j st fl r) := by
  have hkeep : ∃ p, (if isErr st then (b.keepAnchors j) |> fun b => j.spoil.foldl (fun (b : Blk) s => b.spoilRange s.1 s.2) b else b)
      = { b with plans := p } := by
    split
    next he =>
      rw [hs he]
      unfold Blk.keepAnchors
      split <;> exact ⟨_, rfl⟩
    next => exact ⟨_, rfl⟩
  obtain ⟨p, hp⟩ := hkeep
  unfold Blk.jobEnd
  rw [hp]
  exact ⟨by simp [Blk.setJobs, Blk.setTrees, hj, Job.is], by simp [Blk.setJobs, Blk.setTrees, ht], rfl, rfl, rfl,
    Blk.flight?_finish _ _ _ _ _ _⟩

/-! ### An operation that fails -/

/-- An operation of which a unit reported an error (R153). -/
def Job.failing (j : Job) (u e : Nat) : Job :=
  { j with errs := (u, e) :: j.errs, prog := [], rows := [], chans := [], failed := true }

section
variable {b : Blk} {j : Job} (hj : b.cu.jobs = [j]) (hw : b.cu.waiting = [])
include hj hw

theorem Blk.jobNote_only (u e : Nat) : b.jobNote (some (j.q, j.seq)) u e = b.setJobs [j.failing u e] := by
  rw [Blk.jobNote]
  simp only [Blk.updJob_only hj, Blk.setJobs, hw, List.filter_nil, Job.failing]

theorem Blk.jobSettle_failed (hfail : j.failed = true) (hu : b.cu.units = []) :
    b.jobSettle (some (j.q, j.seq)) = b.jobEnd j (lowestErr j.errs) j.flags j.result := by
  simp [Blk.jobSettle, Blk.job?_only hj, hfail, Blk.jobBusy_idle hw hu]

/-- The first error of a unit ends an operation for which nothing works any more. -/
theorem Blk.jobNote_ended (hu : b.cu.units = []) (ht : b.cu.trees = []) (herrs : j.errs = []) (hspoil : j.spoil = []) (u e : Nat) :
    JobEnded b j e j.flags j.result ((b.jobNote (some (j.q, j.seq)) u e).jobSettle (some (j.q, j.seq))) := by
  have hst : lowestErr (j.failing u e).errs = e := by rw [Job.failing, herrs, lowestErr_one]
  have hset : (b.setJobs [j.failing u e]).jobSettle (some (j.q, j.seq))
      = (b.setJobs [j.failing u e]).jobEnd (j.failing u e) (lowestErr (j.failing u e).errs) j.flags j.result :=
    Blk.jobSettle_failed (j := j.failing u e) rfl hw rfl hu
  rw [Blk.jobNote_only hj hw, hset, hst]
  obtain ⟨hjobs, htrees, hwait, hmem, hregs, hflight⟩ :=
    Blk.jobEnd_ended (b := b.setJobs [j.failing u e]) (j := j.failing u e) rfl ht (st := e) (fun _ => hspoil) j.flags j.result
  exact ⟨hjobs, htrees, hwait, hmem, hregs, hflight⟩

end

/-! ### A window that is complete in a stack (R165) -/

/-- An operation that a stack has delivered a window to. -/
def Job.delivered (j : Job) (t : TreeCtx) : Job :=
  { j with wins := j.wins.map (fun w =>
      if w.win = t.win then { w with due := w.due.filter (· != t.stack), got := w.got ++ [t] } else w) }

/-- The windows keep their numbers. -/
theorem Job.delivered_all (j : Job) (t : TreeCtx) (p : Nat → Bool) :
    (j.delivered t).wins.all (fun w => p w.win) = j.wins.all (fun w => p w.win) := by
  rw [Job.delivered, List.all_map]
  refine congrArg j.wins.all (funext fun w => ?_)
  simp only [Function.comp_apply]
  split <;> rfl

section
variable {b : Blk} {f : Flight} {j : Job} {t : TreeCtx} (hj : b.cu.jobs = [j]) (hf : b.flight? j.q j.seq = some f)
  (hq : t.q = j.q) (hseq : t.seq = j.seq) (ht : b.cu.trees = [t]) (hl : t.left = 0)
include hj hf hq hseq ht hl

/-- The window goes to the hub and its context is freed; then the error of its lowest-numbered unit counts. -/
theorem Blk.treeComplete_only (hop : eOpcode f.raw = 0x10) : b.treeComplete j.q j.seq t.stack t.win
    = match t.err with
      | some (u, e) => (((b.setTrees []).setJobs [j.delivered t]).jobNote (some (j.q, j.seq)) u e).jobSettle (some (j.q, j.seq))
      | none => (b.setTrees []).setJobs [j.delivered t] := by
  have hctx : b.ctx? j.q j.seq t.stack t.win = some t := by simp [Blk.ctx?, ht, hq, hseq]
  have hjs : (b.setTrees []).cu.jobs = [j] := hj
  rw [Blk.treeComplete, hctx, hf]
  simp only [hl, hop, ht, List.filter_cons, List.filter_nil, bne_self_eq_false, Bool.false_eq_true, if_false, beq_iff_eq,
    Bool.or_self, Blk.updJob_only hjs, Nat.reduceBEq] <;> rfl

end

section
variable {s : State} {f : Flight} {j : Job} {t : TreeCtx} (hone : s.blk.onlyJob j = true) (hr : s.blk.running? j.q j.seq = some f)
  (hop : eOpcode f.raw = 0x10) (hq : t.q = j.q) (hseq : t.seq = j.seq) (ht : s.blk.cu.trees = [t]) (hl : t.left = 0)
include hone hr hop hq hseq ht hl

theorem treeWindowComplete_delivers (he : t.err = none) (hfail : j.failed = false)
    (hwins : j.wins.all (fun w => j.combined.contains w.win) = false) :
    Completes (.treeWindowComplete j.q j.seq t.stack t.win) s (EvFrame ((s.blk.setTrees []).setJobs [j.delivered t])) := by
  obtain ⟨hup, hj, hw⟩ := Blk.onlyJob_iff.1 hone
  have hf := Blk.flight?_of_running? hr
  refine .hubFrame (exec_treeWindowComplete s _ _ _ _) hup ?_
  rw [Blk.treeComplete_only hj hf hq hseq ht hl hop, he]
  exact Blk.sweep_waits (j := j.delivered t) rfl hw hf hop hfail ((j.delivered_all t j.combined.contains).trans hwins)

theorem treeWindowComplete_fails {u e : Nat} (he : t.err = some (u, e)) (hbad : isErr e = true) (herrs : j.errs = [])
    (hspoil : j.spoil = []) (hu : s.blk.cu.units = []) :
    Completes (.treeWindowComplete j.q j.seq t.stack t.win) s (fun b => Finished b f e ∧ b.cu.jobs = [] ∧ b.cu.trees = []
      ∧ SameMem s.blk b ∧ b.regs = s.blk.regs) := by
  obtain ⟨hup, hj, hw⟩ := Blk.onlyJob_iff.1 hone
  have hf := Blk.flight?_of_running? hr
  obtain ⟨hfq, hfseq⟩ := Blk.flight?_is hf
  refine .of_hub (exec_treeWindowComplete s _ _ _ _) hup ?_
  rw [Blk.treeComplete_only hj hf hq hseq ht hl hop, he]
  dsimp only
  have hend := Blk.jobNote_ended (b := (s.blk.setTrees []).setJobs [j.delivered t]) (j := j.delivered t) rfl hw hu rfl herrs hspoil u e
  change JobEnded _ _ e _ _ ((((s.blk.setTrees []).setJobs [j.delivered t]).jobNote (some (j.q, j.seq)) u e).jobSettle
    (some (j.q, j.seq))) at hend
  rw [Blk.sweep_of_idle hend.jobs (hend.waiting.trans hw)]
  simp only [Finished, settle_flight?, settle_cu, settle_mem, settle_regs, SameMem, hfq, hfseq]
  refine ⟨⟨_, hend.flight.trans (congrArg _ hf), rfl, ?_⟩, hend.jobs, hend.trees, hend.mem, hend.regs⟩
  simp [finalStatus, hbad]

end

/-! ### A window that every stack has delivered (R160, R166) -/

/-- Work that meets no error and waits for nothing is sent. -/
theorem Wk.asks_goesOn {w : Wk} (h : w.goesOn = true) (b : Blk) : w.asks b = (none, w.sent) ∧ w.sent.bad = false := by
  simp only [Wk.goesOn, Bool.and_eq_true, Bool.not_eq_true'] at h
  obtain ⟨⟨⟨-, hneed⟩, hstall⟩, hsent⟩ := h
  exact ⟨by simp [Wk.asks, hneed, hstall], hsent⟩

/-- An operation of which a window has been combined. -/
def Job.withWindow (j : Job) (win fl : Nat) (rest : List (Nat × Bytes)) : Job :=
  { j with combined := win :: j.combined, flags := j.flags ||| fl, ybuf := rest }

/-- The outputs of a window stand, and the window is combined. -/
theorem Blk.gemvCombine_stores {b : Blk} {f : Flight} {w : WinSum} {j : Job} {yd : Desc} (hy : b.fdesc f (eHandle f.raw 2) = some yd)
    (hgo : (b.gemvStore f j w yd).1.goesOn = true) :
    ∃ fl rest, b.gemvCombine f j w = (b.gemvStore f j w yd).1.sent.b.updJob f.q f.seq (fun k => k.withWindow w.win fl rest) := by
  obtain ⟨hasks, hbad⟩ := Wk.asks_goesOn hgo b
  unfold Blk.gemvCombine
  rw [hy]
  dsimp only
  rw [hasks]
  dsimp only
  rw [hbad]
  exact ⟨_, _, rfl⟩

/-- A BANK_GEMV whose program has run, and whose last window of the last pass is combined, ends. -/
theorem Blk.sweep_ends {b : Blk} {j : Job} {f : Flight} (hj : b.cu.jobs = [j]) (hw : b.cu.waiting = []) (hu : b.cu.units = [])
    (ht : b.cu.trees = []) (hf : b.flight? j.q j.seq = some f) (hop : eOpcode f.raw = 0x10) (hfail : j.failed = false)
    (hprog : j.prog = []) (hrows : j.rows = []) (hwins : j.wins.all (fun w => j.combined.contains w.win) = true)
    (hpass : Gemv.passes f.raw ≤ j.pass + 1) : JobEnded b j stOK j.flags j.result b.sweep := by
  have hend := Blk.jobEnd_ended hj ht (st := stOK) (fun h => absurd h (by decide)) j.flags j.result
  have hadv : b.gemvAdvance f j = b.jobEnd j stOK j.flags j.result := by
    rw [Blk.gemvAdvance, hwins]
    simp [Nat.not_lt.2 hpass]
  have hprogEnd : b.progEnd (some (j.q, j.seq)) = b.jobEnd j stOK j.flags j.result := by
    simp [Blk.progEnd, Blk.job?_only hj, hf, hop, hadv, hfail, hprog, hrows, Blk.jobBusy_idle hw hu]
  rw [Blk.sweep_only hj hw, hprogEnd]
  generalize b.jobEnd j stOK j.flags j.result = c at hend
  have hnone : c.job? j.q j.seq = none := by simp [Blk.job?, hend.jobs]
  have hattn : c.attnEnd (j.q, j.seq) = c := by simp [Blk.attnEnd, hnone]
  have hset : c.jobSettle (some (j.q, j.seq)) = c := by simp [Blk.jobSettle, hnone]
  rw [hattn, hset]
  exact hend

theorem hubWindowCombine_ends {s : State} {f : Flight} {j : Job} {w : WinSum} {yd : Desc} (hone : s.blk.onlyJob j = true)
    (hr : s.blk.running? j.q j.seq = some f) (hop : eOpcode f.raw = 0x10) (hy : s.blk.fdesc f (eHandle f.raw 2) = some yd)
    (hk : Dsc.kind yd ≠ 1) (hwins : j.wins = [w]) (hdue : w.due = []) (hcomb : j.combined = []) (hfail : j.failed = false)
    (hprog : j.prog = []) (hrows : j.rows = []) (hu : s.blk.cu.units = []) (ht : s.blk.cu.trees = [])
    (hpass : Gemv.passes f.raw = 1) (hgo : (s.blk.gemvStore f j w yd).1.goesOn = true) :
    Completes (.hubWindowCombine j.q j.seq w.win) s (fun b => b.cu.jobs = []
      ∧ (b.flight? j.q j.seq).any (fun g => g.stage == .done && g.result == j.result) = true
      ∧ b.mem = (s.blk.gemvStore f j w yd).1.b.mem) := by
  obtain ⟨hup, hj, hw⟩ := Blk.onlyJob_iff.1 hone
  have hf := Blk.flight?_of_running? hr
  obtain ⟨hfq, hfseq⟩ := Blk.flight?_is hf
  obtain ⟨fl, rest, hcombine⟩ := Blk.gemvCombine_stores (j := j) hy hgo
  have hstands := Wk.sent_stands (Blk.gemvStore_stands hu f j w hk)
  have hmem := Wk.sent_mem (s.blk.gemvStore f j w yd).1
  generalize (s.blk.gemvStore f j w yd).1.sent.b = c at hcombine hstands hmem
  obtain ⟨g, hg, hraw⟩ := hstands.flight? hf
  obtain ⟨hcj, hcw, hcu, hct⟩ : c.cu.jobs = [j] ∧ c.cu.waiting = [] ∧ c.cu.units = [] ∧ c.cu.trees = [] := by
    rw [hstands.cu]
    exact ⟨hj, hw, hu, ht⟩
  have hhub : s.blk.hubCombine j.q j.seq w.win = (c.setJobs [j.withWindow w.win fl rest]).sweep := by
    rw [Blk.hubCombine, hr, Blk.job?_only hj]
    simp only [Job.win?, hwins, hdue, hcomb, hfail, hop, List.find?_cons, beq_self_eq_true, List.isEmpty_nil, Bool.not_true,
      Bool.or_self, List.contains_nil, Bool.false_eq_true, if_false, if_true, hcombine, hfq, hfseq]
    rw [Blk.updJob_only hcj]
  refine .of_hub (exec_hubWindowCombine s _ _ _) hup ?_
  rw [hhub]
  have hend := Blk.sweep_ends (b := c.setJobs [j.withWindow w.win fl rest]) (j := j.withWindow w.win fl rest) rfl
    hcw hcu hct hg (hraw ▸ hop) hfail hprog hrows
    (by simp [Job.withWindow, hwins]) (by rw [hraw, hpass]; omega)
  simp only [settle_cu, settle_flight?, settle_mem]
  have hflight : (c.setJobs [j.withWindow w.win fl rest]).sweep.flight? j.q j.seq = _ := hend.flight.trans (congrArg _ hg)
  refine ⟨hend.jobs, ?_, hend.mem.trans hmem⟩
  rw [hflight]
  simp [Job.withWindow]

/-! ### The statistics of a row (R173, R174) -/

/-- A sum of a row, in the formats whose partials are exact. -/
def normSum (e : Bytes) (t : TreeCtx) (k : Nat) : Ex :=
  (decWide (tget TagAcc.zero ((2 * t.win + k) % 65536) t.tags).wide).scale (wideExp (Norm.fmt e) (Norm.fmt e) 0)

/-- The statistics m and r of such a row. -/
def normStat (e : Bytes) (t : TreeCtx) : Nat × Nat :=
  normStats (Norm.kind e) (Norm.fmt e) (Norm.d e) (Norm.eps e) (normSum e t 0) (normSum e t 1)

/-- The commands of a row's later steps and of the next row. -/
def Blk.normRest (b : Blk) (f : Flight) (t : TreeCtx) : List UCmd :=
  normTail f ((b.normSets f t.win).getD []) (normStat f.raw t).1 (normStat f.raw t).2
    ++ (if t.win + 1 < Norm.rows f.raw then normHead f ((b.normSets f (t.win + 1)).getD []) (t.win + 1) else [])

/-- The context of a row that has its sums is freed, and the row and the next one go on. -/
theorem Blk.normReady_only {b : Blk} {f : Flight} {j : Job} {t : TreeCtx} (hj : b.cu.jobs = [j])
    (hr : b.running? j.q j.seq = some f) (hop : eOpcode f.raw = 0x13) (hq : t.q = j.q) (hseq : t.seq = j.seq)
    (ht : b.cu.trees = [t]) (hl : t.left = 0) (he : t.err = none) (hfail : j.failed = false) (hrows : j.rows = [(t.win, [])])
    (hfmt : Norm.fmt f.raw ≠ cBF16) :
    ∃ fl ch, b.normReady j.q j.seq t.win = (b.setTrees []).setJobs [{ j with
      prog := j.prog ++ b.normRest f t
      flags := fl
      rows := if t.win + 1 < Norm.rows f.raw then [(t.win + 1, [])] else []
      chans := ch }] := by
  have hjs : (b.setTrees []).cu.jobs = [j] := hj
  have hfind : b.cu.trees.find? (fun x => x.q == j.q && x.seq == j.seq && x.win == t.win) = some t := by simp [ht, hq, hseq]
  rw [Blk.normReady, hr, Blk.job?_only hj]
  dsimp only
  rw [hfind]
  simp only [hop, hfail, hl, he, hrows, ht, if_neg hfmt, List.any_cons, List.any_nil, beq_self_eq_true, bne_self_eq_false,
    Bool.or_false, Option.isSome_none, Bool.not_true, Bool.false_eq_true, if_false, List.filter_cons, List.filter_nil, Blk.updJob_only hjs,
    List.append_assoc]
  exact ⟨_, _, rfl⟩

theorem normStatsReady_goesOn {s : State} {f : Flight} {j : Job} {t : TreeCtx} (hone : s.blk.onlyJob j = true)
    (hr : s.blk.running? j.q j.seq = some f) (hop : eOpcode f.raw = 0x13) (hq : t.q = j.q) (hseq : t.seq = j.seq)
    (ht : s.blk.cu.trees = [t]) (hl : t.left = 0) (he : t.err = none) (hfail : j.failed = false) (hrows : j.rows = [(t.win, [])])
    (hfmt : Norm.fmt f.raw ≠ cBF16) :
    Completes (.normStatsReady j.q j.seq t.win) s (fun b => b.cu.trees = [] ∧ SameMem s.blk b ∧ b.regs = s.blk.regs
      ∧ b.cu.jobs.map (fun k => k.rows) = [if t.win + 1 < Norm.rows f.raw then [(t.win + 1, [])] else []]
      ∧ b.cu.jobs.map (fun k => k.prog) = [j.prog ++ s.blk.normRest f t]) := by
  obtain ⟨hup, hj, -⟩ := Blk.onlyJob_iff.1 hone
  obtain ⟨fl, ch, hready⟩ := Blk.normReady_only hj hr hop hq hseq ht hl he hfail hrows hfmt
  refine .of_hub (exec_normStatsReady s _ _ _) hup ?_
  simp only [hready, settle_cu, settle_regs, SameMem, settle_mem]
  exact ⟨rfl, rfl, rfl, rfl, rfl⟩

/-- Settles O28: with one operation in the sequencer, each command is a case of its meaning, and the sweep that follows
waits for more windows or ends the operation. -/
theorem reductions : Obligations.Reductions := by
  refine ⟨fun s f j t hone hr hop hq hseq ht hl he hfail hwins =>
      treeWindowComplete_delivers hone hr hop hq hseq ht hl he hfail hwins,
    fun s f j t u e hone hr hop hq hseq ht hl he hbad herrs hspoil hu _ =>
      treeWindowComplete_fails hone hr hop hq hseq ht hl he hbad herrs hspoil hu,
    fun s f j w yd hone hr hop hy hk hwins hdue hcomb hfail hprog hrows hu ht hpass hgo =>
      hubWindowCombine_ends hone hr hop hy hk hwins hdue hcomb hfail hprog hrows hu ht hpass hgo,
    fun s f j t hone hr hop hq hseq ht hl he hfail hrows hfmt => ?_⟩
  obtain ⟨b, hexec, hpend, htrees, hmem, hregs, hrs, hps⟩ :=
    normStatsReady_goesOn hone hr hop hq hseq ht hl he hfail hrows hfmt
  exact ⟨b, hexec, hpend, htrees, hmem, hregs, hrs, hps.trans (by rw [Blk.normRest, List.append_assoc]; rfl)⟩

end Sys2Proof.Machine
end

section
/-! Proofs: the block table of a BANK_ATTN without heads (R158, R184, R185). -/

namespace Sys2Proof.Machine
open Sys2Proof

/-- What PLAN_READ_DONE keeps in the plan store is what the reading of the plan kept there (R158, R185). -/
theorem Completes.planReadDone {s : State} (h : s.blk.hubUp = true) (q seq k kind : Nat) :
    Completes (.planReadDone q seq) s (fun b => b.planOf k kind = (s.blk.planReadDone q seq).planOf k kind) :=
  .of_hub (exec_planReadDone s q seq) h (by simp [Blk.planOf])

/-- A block table without elements. -/
def emptyTable : Desc where
  fmt := cUINT8
  rank := 1
  flags := 0
  dims := [0]
  stride := [1]
  base := 0
  fill := 0
  ixHandle := 0
  srcLen := 0
  winStart := 0
  winStep := 0
  winDil := 0
  ixDim := 0
  owners := []

/-- A BANK_ATTN in two-pass mode of no heads, of one query of 64 dimensions over one token. Its block table is handle
0x80000000, and it has asked for it. -/
def headlessAttn : Flight :=
  { q := 0, seq := 0
    raw := [1, 0x11] ++ zeros 18 ++ leBytes 4 0x80000000 ++ zeros 8 ++ [1, 4, 4, 1, 64, 0, 1, 0, 0, 0, 0, 0] ++ leBytes 4 1 ++ zeros 80
    path := 1, stage := .running, order := 0, mode := 0, status := 0, flags := 0, result := 0, scope := 0, preempted := false
    reads := [], writes := [], slots := [], waits := [], txns := [], fetched := [], homes := [], used := [0x80000000], progress := 1
    out := [], burst := .start }

/-- The state after reset, with that entry started and its table's descriptor. -/
def headlessAttnReads : State := ⟨[], { Blk.reset with
  flights := [headlessAttn]
  descs := [(0, ⟨emptyTable, true, .inUse⟩)] }⟩

/-- Refutes O29: its clause on the table that was read asks that the store keeps it, whatever the entry's number of heads. An
entry of no heads uses no record, so the missing copy already holds every record that it uses: nothing is read and nothing is
kept, where the statement asks for an empty copy. (A BANK_ATTN itself refuses such an entry, R186, before it asks for a table.) -/
theorem not_attention : ¬ Obligations.Attention := by
  rintro ⟨-, -, -, -, hread, -⟩
  have hup : headlessAttnReads.blk.hubUp = true := by decide +kernel
  have hfresh : headlessAttnReads.blk.fresh? 0 0 0x11 = some headlessAttn := by decide +kernel
  have hcopy : headlessAttnReads.blk.tableCopy headlessAttn = none := by decide +kernel
  have hdesc : headlessAttnReads.blk.fdesc headlessAttn (eHandle headlessAttn.raw 1) = some emptyTable := by decide +kernel
  have hcount : Dsc.count emptyTable = 8 * Attn.records headlessAttn.raw := by decide +kernel
  have hreads : headlessAttnReads.blk.readsAll headlessAttn emptyTable = true := by decide +kernel
  have hclean : headlessAttnReads.blk.readsClean headlessAttn emptyTable := by decide +kernel
  have hroom : Dsc.count emptyTable ≤ headlessAttnReads.blk.planRoom := by decide +kernel
  have htable : headlessAttnReads.blk.tableOk (headlessAttnReads.blk.tensorBytes headlessAttn emptyTable) (Attn.H headlessAttn.raw)
      (Attn.heads headlessAttn.raw) 0 (Attn.records headlessAttn.raw) = true := by decide +kernel
  have hnone : (headlessAttnReads.blk.planReadDone 0 0).planOf (eHandle headlessAttn.raw 1) 1 = none := by decide +kernel
  obtain ⟨b, hkept, hplan⟩ :=
    (hread headlessAttnReads 0 0 headlessAttn emptyTable hup hfresh rfl hcopy hdesc rfl hcount hreads hclean hroom htable).both
      (Completes.planReadDone hup 0 0 (eHandle headlessAttn.raw 1) 1)
  rw [hkept, hnone] at hplan
  cases hplan

end Sys2Proof.Machine
end

section
/-! Proofs: what the reads of an entry's tensors leave of the plan store, and of what the entry waits for (R81, R158, R263, R279,
R335). -/

namespace Sys2Proof.Machine
open Sys2Proof

/-! ### The plan store through accesses and requests -/

theorem MemFrame.plans {a b : Blk} (h : MemFrame a b) : b.plans = a.plans := by
  obtain ⟨⟨_, _, _, _, rfl⟩, -⟩ := h
  rfl

theorem OffLayout.plans {a b : Blk} (h : OffLayout a b) : b.plans = a.plans := by
  obtain ⟨⟨_, _, _, _, _, _, rfl⟩, -⟩ := h
  rfl

theorem Blk.askExit_plans (b : Blk) (m len : Nat) : (b.askExit m len).plans = b.plans := by
  obtain ⟨_, _, h⟩ := Blk.askExit_asked (a := b) ⟨_, _, rfl⟩ m len
  rw [h]

/-- The remote bytes that an entry asks for change entries, links and transactions (R335). -/
theorem Blk.askRemote_offLayout (q seq : Nat) (l : List (Nat × Nat)) (b : Blk) : OffLayout b (b.askRemote q seq l).1 := by
  induction l generalizing b with
  | nil => exact .rfl' b
  | cons p t ih =>
    unfold Blk.askRemote
    extract_lets r
    have hr : OffLayout b r.1 := by
      refine foldl_keeps (P := fun x : Blk × Nat => OffLayout b x.1) (fun x p h => ?_) _ (z := (b, stOK)) (.rfl' b)
      split
      · exact h
      split
      · exact h
      have hreq := Blk.request_offLayout x.1 q seq 0x01 (haModule p.1) p.1 p.2 0 []
      split
      next c hc =>
        rw [hc] at hreq
        exact h.trans hreq
      next c hc =>
        rw [hc] at hreq
        exact h.trans hreq
      next => exact h
    split
    · exact hr
    · exact hr.trans (ih r.1)

/-! ### Work that has read -/

/-- Work after reads: the plan store is as it was, and what the work waited for it still waits for. -/
structure ReadsOn (v w : Wk) : Prop where
  plans : w.b.plans = v.b.plans
  need : w.need = [] → v.need = []
  stall : w.stall = false → v.stall = false

theorem ReadsOn.rfl' (w : Wk) : ReadsOn w w := ⟨rfl, id, id⟩

theorem ReadsOn.trans {u v w : Wk} (h : ReadsOn u v) (g : ReadsOn v w) : ReadsOn u w :=
  ⟨g.plans.trans h.plans, h.need ∘ g.need, h.stall ∘ g.stall⟩

section
variable (w : Wk) (d : Desc) (ixs : List Int)

theorem Wk.fail_readsOn (st : Nat) : ReadsOn w (w.fail st) := by
  unfold Wk.fail
  split <;> exact ⟨rfl, id, id⟩

theorem Wk.read_readsOn (a len : Nat) : ReadsOn w (w.read a len).1 := by
  unfold Wk.read
  split
  · exact .rfl' w
  split
  · extract_lets m r v
    have hv : ReadsOn w v := ⟨(readRange_memFrame _ _ _ _).plans, id, id⟩
    split
    · exact ⟨Blk.askExit_plans _ _ _, id, fun h => Bool.noConfusion h⟩
    split
    · exact hv.trans (v.fail_readsOn _)
    · split <;> exact ⟨hv.plans, hv.need, hv.stall⟩
  split
  · exact w.fail_readsOn _
  split
  · exact .rfl' w
  · exact ⟨rfl, fun h => absurd h (List.cons_ne_nil _ _), id⟩

theorem Wk.units_readsOn (n : Nat) (as : List Nat) : ReadsOn w (w.units n as).1 :=
  foldl_keeps (P := fun s : Wk × List (Nat × Bytes) => ReadsOn w s.1) (fun s r h => h.trans (s.1.read_readsOn r.1 r.2)) _
    (z := (w, [])) (.rfl' w)

theorem Wk.readFlags_readsOn (l : Loc) : ReadsOn w (w.readFlags l) := by
  unfold Wk.readFlags
  dsimp only
  split <;> split <;> exact ⟨rfl, id, id⟩

theorem Wk.elems_readsOn (es : List Nat) : ReadsOn w (w.elems d ixs es).1 :=
  (foldl_keeps (P := ReadsOn w) (fun v l h => h.trans (v.readFlags_readsOn l)) _ (.rfl' w)).trans (Wk.units_readsOn _ _ _)

theorem Wk.indices_readsOn : ReadsOn w (w.indices d).1 := by
  unfold Wk.indices
  split
  · split
    · exact w.fail_readsOn _
    · exact w.elems_readsOn _ _ _
  · exact .rfl' w

theorem Wk.tensor_readsOn : ReadsOn w (w.tensor d).1 := (w.indices_readsOn d).trans (Wk.elems_readsOn _ _ _ _)

theorem Wk.scatterOk_readsOn : ReadsOn w (w.scatterOk d ixs) := by
  unfold Wk.scatterOk
  dsimp only
  split
  · split
    · exact w.fail_readsOn _
    · split
      · exact .rfl' w
      · exact w.fail_readsOn _
  · exact .rfl' w

theorem Wk.outsOk_readsOn (ds : List Desc) : ReadsOn w (w.outsOk ds) :=
  foldl_keeps (P := ReadsOn w) (fun v d h => (h.trans (v.indices_readsOn d)).trans (Wk.scatterOk_readsOn _ _ _)) ds (.rfl' w)

end

/-! ### Waits (R81, R108, R335) -/

/-- Work that waits for nothing. -/
theorem Wk.waits_eq_none {w : Wk} (hn : w.need = []) (hs : w.stall = false) (b : Blk) : w.waits b = none := by
  simp [Wk.waits, hn, hs]

/-- A wait leaves the plan store as it was. -/
theorem Wk.waits_plans {w : Wk} {b c : Blk} (h : w.waits b = some c) : c.plans = b.plans := by
  unfold Wk.waits at h
  split at h
  · rw [← Option.some.inj h]
  split at h
  · cases h
  · have hask := (Blk.askRemote_offLayout w.q w.seq w.need b).plans
    generalize b.askRemote w.q w.seq w.need = r at h hask
    obtain ⟨c', s⟩ := r
    rw [← Option.some.inj h]
    split
    · rwa [Blk.finish_plans]
    · exact hask

theorem Wk.goesOn_iff {w : Wk} : w.goesOn = true ↔ w.bad = false ∧ w.need = [] ∧ w.stall = false ∧ w.sent.bad = false := by
  simp [Wk.goesOn, and_assoc]

/-! ### The elements of a tensor -/

theorem Wk.length_place (d : Desc) (fill : Loc → Bool) (ls : List Loc) (us : List Bytes) :
    (Wk.elems.place d fill ls us).length = ls.length := by
  induction ls generalizing us with
  | nil => rfl
  | cons l t ih =>
    rw [Wk.elems.place]
    split <;> simp [ih]

/-- As many elements are read as a tensor has. -/
theorem Wk.length_tensor (w : Wk) (d : Desc) : (w.tensor d).2.length = Dsc.count d := by
  simp [Wk.tensor, Wk.elems, Wk.length_place]

/-- A tensor of bytes. -/
theorem Blk.length_tensorBytes (b : Blk) (f : Flight) (d : Desc) : (b.tensorBytes f d).length = Dsc.count d := by
  simp [Blk.tensorBytes, leBytes, Wk.length_tensor]

end Sys2Proof.Machine
end

section
/-! Proofs: BANK_GEMV and PLAN_READ_DONE: the checks, the plan and the first pass (R154 to R168). -/

namespace Sys2Proof.Machine
open Sys2Proof

/-! ### The start of an operation -/

/-- A started entry whose operation has not begun. -/
theorem Blk.fresh?_running {b : Blk} {q seq op : Nat} {f : Flight} (h : b.fresh? q seq op = some f) :
    b.running? q seq = some f ∧ eOpcode f.raw = op ∧ b.job? q seq = none := by
  unfold Blk.fresh? at h
  split at h
  next g hg =>
    split at h
    next hc =>
      obtain rfl := Option.some.inj h
      simp only [Bool.and_eq_true, decide_eq_true_eq, Option.isNone_iff_eq_none] at hc
      obtain ⟨⟨hop, hjob⟩, -⟩ := hc
      exact ⟨hg, hop, hjob⟩
    next => cases h
  next => cases h

/-- An operation that has not begun is found once it is added. -/
theorem Blk.job?_added {b c : Blk} {q seq : Nat} {j : Job} (h : b.job? q seq = none) (hj : j.is q seq = true)
    (hc : c.cu.jobs = b.cu.jobs ++ [j]) : c.job? q seq = some j := by
  have h' : b.cu.jobs.find? (fun j => j.is q seq) = none := h
  simp [Blk.job?, hc, List.find?_append, h', hj]

/-- An operation begins: it is added to the sequencer, behind the reads that its start made, which changed nothing but the
counters of their channels. -/
theorem Completes.begins {c : Instr} {s : State} {f : Blk → Blk} {t : Blk} {q seq : Nat} {j : Job} (h : exec c s = hubAct s f)
    (hu : s.blk.hubUp = true) (ht : { t with chans := s.blk.chans } = s.blk) (hf : f s.blk = t.setJobs (t.cu.jobs ++ [j]))
    (hjob : s.blk.job? q seq = none) (hj : j.is q seq = true) : Completes c s (fun b =>
      b.cu.jobs = s.blk.cu.jobs ++ [j] ∧ b.job? q seq = some j ∧ b.chans = t.chans
      ∧ EvFrame ({ s.blk with chans := t.chans }.setJobs b.cu.jobs) b) := by
  have hst : { s.blk with chans := t.chans } = t := congrArg (fun b : Blk => { b with chans := t.chans }) ht.symm
  have hjobs : t.cu.jobs = s.blk.cu.jobs := (congrArg (fun b : Blk => b.cu.jobs) ht :)
  have hadd : (settle s.blk (f s.blk)).cu.jobs = s.blk.cu.jobs ++ [j] := by rw [settle_cu, hf, ← hjobs]; rfl
  refine .of_hub h hu ⟨hadd, Blk.job?_added hjob hj hadd, by rw [settle_chans, hf]; rfl, ?_⟩
  rw [hadd, hst, hf, hjobs]
  exact settle_frame _ _

theorem Completes.imp {c : Instr} {s : State} {P Q : Blk → Prop} (h : Completes c s P) (hPQ : ∀ b, P b → Q b) : Completes c s Q := by
  obtain ⟨t, hx, hp, hP⟩ := h
  exact ⟨t, hx, hp, hPQ _ hP⟩

theorem EvFrame.mem {a b : Blk} (h : EvFrame a b) : b.mem = a.mem := by obtain ⟨_, _, rfl⟩ := h; rfl
theorem EvFrame.regs {a b : Blk} (h : EvFrame a b) : b.regs = a.regs := by obtain ⟨_, _, rfl⟩ := h; rfl

/-! ### The checks of R154 -/

/-- Checks 1 to 3 of R154 all end in DESC_INVALID. -/
theorem firstBad_desc (valid combo shapes : Bool) :
    firstBad [need valid stDESC, need combo stDESC, need shapes stDESC] = need (valid && combo && shapes) stDESC := by
  cases valid <;> cases combo <;> cases shapes <;> rfl

theorem need_of_false {c : Bool} (h : c = false) (st : Nat) : need c st = st := by rw [h]; rfl

theorem Blk.fdesc_of_handleOk {b : Blk} {f : Flight} {h fmt : Nat} {write : Bool} (hh : b.handleOk f h fmt write = true) :
    ∃ d, b.fdesc f h = some d := by
  unfold Blk.handleOk at hh
  split at hh
  next d hd => exact ⟨d, hd⟩
  next => cases hh

theorem gemvCheck_refuses {b : Blk} {f : Flight} (h : b.fdesc f (eHandle f.raw 0) = none
      ∨ pairOk (Gemv.wfmt f.raw) (Gemv.afmt f.raw) = false ∨ Gemv.batch f.raw = 0 ∨ 16 < Gemv.batch f.raw ∨ Gemv.n f.raw = 0
      ∨ Gemv.k f.raw % kMult (Gemv.wfmt f.raw) ≠ 0) : b.gemvCheck f = stDESC := by
  unfold Blk.gemvCheck
  extract_lets e hs w valid combo shapes st
  have hbad : (valid && combo && shapes) = false := by
    rcases h with h | h | h | h | h | h
    · simp [valid, e, hs, h]
    · simp [combo, e, w, h]
    · simp [shapes, e, h]
    · simp [shapes, e, Nat.not_le.2 h]
    · simp [shapes, e, h]
    · simp [shapes, e, w, multOf, h]
  have hst : st = stDESC := by
    show firstBad _ = _
    rw [firstBad_desc, need_of_false hbad]
  rw [if_pos (by rw [hst]; decide), hst]

/-! ### The first pass -/

theorem leNat_lt (d : Bytes) : leNat d < 256 ^ d.length := by
  induction d with
  | nil => decide
  | cons x t ih =>
    have hx : x.toNat < 256 := x.isLt
    simp only [leNat, List.length_cons, Nat.pow_succ]
    omega

/-- A field of an entry fits its bytes. -/
theorem fld_lt (e : Bytes) (off len : Nat) : fld e off len < 256 ^ len :=
  Nat.lt_of_lt_of_le (leNat_lt _) (Nat.pow_le_pow_right (by decide) (List.length_take_le _ _))

theorem Gemv.computed_all {e : Bytes} (h : Gemv.select e = false) (mask : Bytes) : Gemv.computed e mask = Gemv.n e := by
  simp [Gemv.computed, Gemv.picked, h]

/-- R168: outputs computed and passes begun, below the count of windows. -/
theorem gemvResult_low (pass : Nat) (e : Bytes) {outs : Nat} (h : outs < 2 ^ 32) (hp : pass + 1 < 2 ^ 16) :
    gemvResult outs pass e % 2 ^ 48 = outs + (pass + 1) * 2 ^ 32 := by
  unfold gemvResult
  omega

/-- The operation that a plan begins (R159 to R162). -/
def gemvJob (f : Flight) (plan x mask : Bytes) (fl : Flags) : Job :=
  { Job.blank f.q f.seq with
    result := gemvResult (Gemv.computed f.raw mask) 0 f.raw
    prog := gemvPass f plan x mask 0
    wins := winsOf f.raw 0 (gemvPass f plan x mask 0)
    flags := fl
    x := x
    sel := mask
    plan := plan
    chans := if Gemv.passes f.raw ≤ 1 then [] else ((recsOf plan).map (fun r => unitCh r.unit)).eraseDups }

/-- The plan store of one block is that of another. -/
def KeepsPlans (a b : Blk) : Prop := b.plans = a.plans

theorem KeepsPlans.ite {p : Prop} [Decidable p] {a b c : Blk} (h : KeepsPlans a b) (g : KeepsPlans a c) :
    KeepsPlans a (if p then b else c) := by split <;> assumption

theorem KeepsPlans.getD {a b : Blk} {o : Option Blk} (h : ∀ c, o = some c → KeepsPlans a c) (hb : KeepsPlans a b) :
    KeepsPlans a (o.getD b) := by
  cases o with
  | none => exact hb
  | some c => exact h c rfl

section
variable {b : Blk} {f : Flight} {p : Bytes}

/-- A plan that fails its check ends the entry (R157). -/
theorem Blk.gemvGo_refuses {wd : Desc} (hw : b.fdesc f (eHandle f.raw 0) = some wd)
    (hbad : b.planOk p (Gemv.n f.raw) (Gemv.k f.raw) (Gemv.wfmt f.raw) wd = false) : b.gemvGo f p = b.finish f.q f.seq stDESC 0 0 := by
  unfold Blk.gemvGo
  dsimp only
  split
  next wd' _ _ hw' _ _ =>
    obtain rfl := Option.some.inj (hw.symm.trans hw')
    simp [hbad]
  next => rfl

/-- With its plan in order and its inputs read, a BANK_GEMV begins its first pass (R160 to R162). -/
theorem Blk.gemvGo_begins {wd xd yd : Desc} (hw : b.fdesc f (eHandle f.raw 0) = some wd) (hx : b.fdesc f (eHandle f.raw 1) = some xd)
    (hy : b.fdesc f (eHandle f.raw 2) = some yd) (hplan : b.planOk p (Gemv.n f.raw) (Gemv.k f.raw) (Gemv.wfmt f.raw) wd = true)
    (hdest : Gemv.destBank f.raw = false) (hsel : Gemv.select f.raw = false) (hgo : (b.gemvWork f xd yd).goesOn = true) :
    ∃ x fl, b.gemvGo f p = (b.gemvWork f xd yd).b.setJobs ((b.gemvWork f xd yd).b.cu.jobs ++ [gemvJob f p x [] fl]) := by
  obtain ⟨hbad, hneed, hstall, -⟩ := Wk.goesOn_iff.1 hgo
  have houts := ((Wk.bank b f).tensor xd).1.outsOk_readsOn [yd]
  have hwaitX : ((Wk.bank b f).tensor xd).1.waits b = none := Wk.waits_eq_none (houts.need hneed) (houts.stall hstall) b
  have hwait : (b.gemvWork f xd yd).waits b = none := Wk.waits_eq_none hneed hstall b
  unfold Blk.gemvGo
  dsimp only
  rw [hw, hx, hy]
  simp only [Blk.gemvWork] at hwait hbad
  cases b.fdesc f (Gemv.sel f.raw) <;>
    simp only [hplan, hdest, hsel, hwaitX, hwait, hbad, Bool.not_true, Bool.false_and, Bool.false_eq_true, if_false,
      Option.isSome_none] <;>
    exact ⟨_, _, rfl⟩

/-- However it goes on, a BANK_GEMV leaves the plan store as it was. -/
theorem Blk.gemvGo_plans : KeepsPlans b (b.gemvGo f p) := by
  unfold Blk.gemvGo
  extract_lets e h w
  split
  next wd xd yd _ _ _ =>
    refine .ite rfl (.ite rfl ?_)
    split
    next v ms hv =>
      have hread : ReadsOn w (v, ms).1 := by
        rw [← hv]
        split
        · split
          · exact w.tensor_readsOn _
          · exact .rfl' w
        · exact .rfl' w
      split
      next v' xs hv' =>
        have hreadX : ReadsOn w (v', xs).1 := by
          rw [← hv']
          exact hread.trans (v.tensor_readsOn xd)
        split
        next c hc => exact Wk.waits_plans hc
        next =>
          extract_lets u
          have hu : KeepsPlans b u.b := (hreadX.trans (Wk.outsOk_readsOn _ [yd])).plans
          clear_value u
          exact .ite (.getD (fun _ hc => Wk.waits_plans hc) rfl) (.ite hu hu)
  next => rfl

end

/-! ### BANK_GEMV -/

section
variable {s : State} {q seq : Nat} {f : Flight} (hup : s.blk.hubUp = true) (hf : s.blk.fresh? q seq 0x10 = some f)
include hup hf

theorem bankGemv_asks (hok : s.blk.gemvCheck f = stOK) (hplan : s.blk.planOf (eHandle f.raw 3) 0 = none) :
    Completes (.bankGemv q seq) s (EvFrame (s.blk.updFlight q seq (fun g => { g with progress := 1 }))) :=
  .hubFrame (exec_bankGemv s q seq) hup (by simp [Blk.gemvStart, hf, hok, hplan])

theorem bankGemv_refused (hbad : s.blk.gemvCheck f = stDESC) :
    Completes (.bankGemv q seq) s (EvFrame (s.blk.finish q seq stDESC 0 0)) :=
  .hubFrame (exec_bankGemv s q seq) hup (by simp [Blk.gemvStart, hf, hbad, stDESC, stOK])

omit hup in
theorem gemvStart_goes {p : Bytes} (hok : s.blk.gemvCheck f = stOK) (hplan : s.blk.planOf (eHandle f.raw 3) 0 = some p) :
    s.blk.gemvStart q seq = s.blk.gemvGo f p := by
  simp [Blk.gemvStart, hf, hok, hplan]

theorem bankGemv_badPlan {p : Bytes} {wd : Desc} (hok : s.blk.gemvCheck f = stOK) (hplan : s.blk.planOf (eHandle f.raw 3) 0 = some p)
    (hw : s.blk.fdesc f (eHandle f.raw 0) = some wd)
    (hbad : s.blk.planOk p (Gemv.n f.raw) (Gemv.k f.raw) (Gemv.wfmt f.raw) wd = false) :
    Completes (.bankGemv q seq) s (EvFrame (s.blk.finish q seq stDESC 0 0)) := by
  obtain ⟨-, rfl, rfl⟩ := Blk.fresh?_some hf
  exact .hubFrame (exec_bankGemv s _ _) hup ((gemvStart_goes hf hok hplan).trans (Blk.gemvGo_refuses hw hbad))

theorem bankGemv_begins {p : Bytes} {wd xd yd : Desc} (hok : s.blk.gemvCheck f = stOK)
    (hplan : s.blk.planOf (eHandle f.raw 3) 0 = some p) (hw : s.blk.fdesc f (eHandle f.raw 0) = some wd)
    (hx : s.blk.fdesc f (eHandle f.raw 1) = some xd) (hy : s.blk.fdesc f (eHandle f.raw 2) = some yd)
    (hpok : s.blk.planOk p (Gemv.n f.raw) (Gemv.k f.raw) (Gemv.wfmt f.raw) wd = true) (hdest : Gemv.destBank f.raw = false)
    (hsel : Gemv.select f.raw = false) (hgo : (s.blk.gemvWork f xd yd).goesOn = true) (hclean : s.blk.gemvReadsClean f xd yd) :
    Completes (.bankGemv q seq) s (fun b =>
      b.cu.jobs.map (fun j => (j.q, j.seq, j.plan, j.pass))
        = s.blk.cu.jobs.map (fun j => (j.q, j.seq, j.plan, j.pass)) ++ [(q, seq, p, 0)]
      ∧ (b.job? q seq).map (fun j => j.wins.length) = some (Gemv.wins f.raw 0)
      ∧ (b.job? q seq).map (fun j => j.prog) = (b.job? q seq).map (fun j => gemvPass f p j.x [] 0)
      ∧ (b.job? q seq).map (fun j => j.result % 2 ^ 48) = some (Gemv.n f.raw + 2 ^ 32) ∧ SameMem s.blk b ∧ b.regs = s.blk.regs) := by
  obtain ⟨-, -, hjob⟩ := Blk.fresh?_running hf
  obtain ⟨-, rfl, rfl⟩ := Blk.fresh?_some hf
  obtain ⟨x, fl, hbegin⟩ := Blk.gemvGo_begins hw hx hy hpok hdest hsel hgo
  refine (Completes.begins (j := gemvJob f p x [] fl) (exec_bankGemv s _ _) hup hclean
    ((gemvStart_goes hf hok hplan).trans hbegin) hjob (by simp [Job.is, gemvJob, Job.blank])).imp ?_
  rintro b ⟨hjobs, hone, -, hframe⟩
  have hn : Gemv.n f.raw < 2 ^ 32 := fld_lt _ _ _
  rw [hjobs, hone, SameMem, hframe.mem, hframe.regs]
  refine ⟨by simp [gemvJob, Job.blank], by simp [gemvJob, winsOf], rfl, ?_, rfl, rfl⟩
  simp only [Option.map_some, gemvJob, Gemv.computed_all hsel, gemvResult_low 0 f.raw hn (by decide), Nat.zero_add, Nat.one_mul]

end

/-! ### PLAN_READ_DONE of a BANK_GEMV -/

theorem Blk.planOf_congr {a b : Blk} (h : b.plans = a.plans) (k kind : Nat) : b.planOf k kind = a.planOf k kind := by
  rw [Blk.planOf, h, Blk.planOf]

/-- The copy that was kept last for a handle is the one that the store holds (R158). -/
theorem Blk.planOf_keepPlan (b : Blk) (k kind : Nat) (d : Bytes) : (b.keepPlan k kind d).planOf k kind = some d := by
  have hrest : (b.plans.filter (fun p => !(p.handle == k && p.kind == kind))).find? (fun p => p.handle == k && p.kind == kind) = none :=
    List.find?_eq_none.2 fun p hp => by simpa only [Bool.not_eq_true, Bool.not_eq_true'] using (List.mem_filter.1 hp).2
  rw [Blk.planOf, Blk.keepPlan, List.find?_append, hrest]
  simp

/-- A plan that was read without an error, and for which the store has room, is kept before it is checked (R158). -/
theorem planReadDone_keeps {s : State} {q seq : Nat} {f : Flight} {d : Desc} (hup : s.blk.hubUp = true)
    (hf : s.blk.fresh? q seq 0x10 = some f) (hpr : f.progress = 1) (hplan : s.blk.planOf (eHandle f.raw 3) 0 = none)
    (hd : s.blk.fdesc f (eHandle f.raw 3) = some d) (hreads : s.blk.readsAll f d = true) (hroom : Dsc.count d ≤ s.blk.planRoom) :
    Completes (.planReadDone q seq) s (fun b => b.planOf (eHandle f.raw 3) 0 = some (s.blk.tensorBytes f d)) := by
  obtain ⟨hrun, hop, hjob⟩ := Blk.fresh?_running hf
  obtain ⟨hbad, hneed, hstall, -⟩ := Wk.goesOn_iff.1 hreads
  have hplans : ((Wk.bank s.blk f).tensor d).1.b.plans = s.blk.plans := (Wk.tensor_readsOn _ d).plans
  have hfits : ¬ ((Wk.bank s.blk f).tensor d).1.b.planRoom < (s.blk.tensorBytes f d).length := by
    rw [Blk.length_tensorBytes, Blk.planRoom, hplans]
    exact Nat.not_lt.2 hroom
  have hdone : s.blk.planReadDone q seq
      = (((Wk.bank s.blk f).tensor d).1.b.keepPlan (eHandle f.raw 3) 0 (s.blk.tensorBytes f d)).gemvGo f (s.blk.tensorBytes f d) := by
    have hread : s.blk.planReadDone q seq = s.blk.planRead f := by simp [Blk.planReadDone, hrun, hpr, hjob, hop]
    rw [hread, Blk.planRead, hplan, hd]
    dsimp only
    rw [Wk.waits_eq_none hneed hstall]
    dsimp only
    rw [hbad, if_neg Bool.false_ne_true]
    exact if_neg hfits
  refine .of_hub (exec_planReadDone s q seq) hup ?_
  rw [Blk.planOf_congr (settle_plans _ _), hdone, Blk.planOf_congr Blk.gemvGo_plans, Blk.planOf_keepPlan]

end Sys2Proof.Machine
end

section
/-! Proofs: BANK_EWISE: its conditions and the unit commands of its row sets (R154, R169 to R171). -/

namespace Sys2Proof.Machine
open Sys2Proof

/-! ### Whose commands a program holds -/

/-- Every command of a list serves one operation. -/
def AllOwn (o : Nat × Nat) (l : List UCmd) : Prop := ∀ c ∈ l, c.own = some o

section
variable {o : Nat × Nat} {l k : List UCmd}

theorem AllOwn.nil : AllOwn o [] := fun _ h => absurd h List.not_mem_nil

theorem AllOwn.cons {c : UCmd} (hc : c.own = some o) (hl : AllOwn o l) : AllOwn o (c :: l) := List.forall_mem_cons.2 ⟨hc, hl⟩

theorem AllOwn.one {c : UCmd} (hc : c.own = some o) : AllOwn o [c] := .cons hc .nil

theorem AllOwn.append (hl : AllOwn o l) (hk : AllOwn o k) : AllOwn o (l ++ k) := List.forall_mem_append.2 ⟨hl, hk⟩

theorem AllOwn.ite {p : Prop} [Decidable p] (hl : AllOwn o l) (hk : AllOwn o k) : AllOwn o (if p then l else k) := by
  split <;> assumption

theorem AllOwn.flatMap {α : Type} {xs : List α} {g : α → List UCmd} (h : ∀ x, AllOwn o (g x)) : AllOwn o (xs.flatMap g) :=
  fun c hc => by
    obtain ⟨x, -, hx⟩ := List.mem_flatMap.1 hc
    exact h x c hx

/-- The last command of a part gives its slot up; whose it is stays. -/
theorem AllOwn.dropHold (hl : AllOwn o l) : AllOwn o (dropHold l) := by
  induction l with
  | nil => exact hl
  | cons c t ih =>
    obtain ⟨hc, ht⟩ := List.forall_mem_cons.1 hl
    cases t with
    | nil => exact .cons hc .nil
    | cons d t => exact .cons hc (ih ht)

end

section
variable {o : Nat × Nat} {c : Nat → Nat → Nat → Bytes → UCmd} (hc : ∀ op m body data, (c op m body data).own = some o)
include hc

theorem openSet_own (m : Nat) (p : Place) (cur : List (Option Nat)) : AllOwn o (openSet c m p cur).1 := by
  unfold openSet
  split
  · exact .nil
  · exact .cons (hc _ _ _ _) .nil

theorem localStep_own (m e : Nat) : AllOwn o (localStep c m e) := .cons (hc _ _ _ _) (.cons (hc _ _ _ _) .nil)

end

/-- Every unit command of a BANK_EWISE serves it. -/
theorem ewProg_own (f : Flight) (sets : List RowSet) : AllOwn (f.q, f.seq) (ewProg f sets) := by
  unfold ewProg
  extract_lets e op sops units
  refine .flatMap fun u => ?_
  extract_lets c m body
  have hopen : ∀ p cur, AllOwn (f.q, f.seq) (openSet c m p cur).1 := openSet_own (fun _ _ _ _ => rfl) m
  have hbody : AllOwn (f.q, f.seq) body := .flatMap fun s => by
    extract_lets lew pa pb po
    have hlew : ∀ bit off k, AllOwn (f.q, f.seq) (lew bit off k) := fun _ _ _ =>
      .ite (.append (.one rfl) (localStep_own (fun _ _ _ _ => rfl) _ _)) .nil
    split
    next openA curA hA =>
    split
    next openB curB hB =>
    split
    next openO curO hO =>
      have hopenA : AllOwn (f.q, f.seq) (openA, curA).1 := hA ▸ hopen pa _
      have hopenB : AllOwn (f.q, f.seq) (openB, curB).1 := by
        rw [← hB]
        split
        · exact .nil
        · exact hopen pb _
      have hopenO : AllOwn (f.q, f.seq) (openO, curO).1 := hO ▸ hopen po _
      have hloadB : AllOwn (f.q, f.seq) (if op = 3 then [] else openB ++ [readCols c m (op + 2) pb s.gf s.gc]) :=
        .ite .nil (hopenB.append (.one rfl))
      exact (((((((AllOwn.append (.one rfl) hopenA).append (.one rfl)).append hloadB).append (hlew _ _ _)).append
        (hlew _ _ _)).append (hlew _ _ _)).append hopenO).append (.one rfl)
  exact (AllOwn.append (.one rfl) hbody.dropHold).append (.one rfl)

/-! ### Its conditions -/

/-- The formats of a pair are listed (R10, R169). -/
theorem fmtListed_of_ewPair {i o : Nat} (h : ewPair i o = true) : fmtListed i = true ∧ fmtListed o = true := by
  have hbf : fmtListed cBF16 = true := by decide
  have h4 : fmtListed cE4M3 = true := by decide
  have h5 : fmtListed cE5M2 = true := by decide
  have hi : fmtListed cINT8 = true := by decide
  have hu : fmtListed cUINT8 = true := by decide
  simp only [ewPair, Bool.or_eq_true, Bool.and_eq_true, beq_iff_eq] at h
  rcases h with (⟨rfl, rfl⟩ | ⟨rfl | rfl, rfl | rfl⟩) | ⟨rfl | rfl, rfl | rfl⟩ <;> simp only [hbf, h4, h5, hi, hu, and_self]

section
variable {b : Blk} {q seq : Nat} {f : Flight} (hf : b.fresh? q seq 0x12 = some f)
include hf

/-- A BANK_EWISE that meets its conditions begins (R169 to R171). -/
theorem Blk.ewStart_begins (ha : b.ewAccepts f = true) :
    ∃ sets, (ewProg f sets).isEmpty = false
      ∧ b.ewStart q seq = b.setJobs (b.cu.jobs ++ [{ Job.blank q seq with prog := ewProg f sets }]) := by
  unfold Blk.ewAccepts at ha
  extract_lets e h op fi fo ins n ds at ha
  simp only [Bool.and_eq_true, Bool.or_eq_true, decide_eq_true_eq, beq_iff_eq, bne_iff_ne, ne_eq, and_assoc] at ha
  obtain ⟨hop, hone, htwo, h3, hsops, hzero, hpair, hins, hout, hplain, htens, hsets⟩ := ha
  obtain ⟨hfi, hfo⟩ := fmtListed_of_ewPair hpair
  unfold Blk.ewStart
  rw [hf]
  dsimp -zeta only
  extract_lets two valid shapes st ds' sets st' prog
  have hchecks : ds' = ds ∧ (valid && ewPair fi fo && shapes) = true := by
    obtain ⟨d2, hd2⟩ := Blk.fdesc_of_handleOk hout
    by_cases hop3 : op = 3
    · have h1 : h 1 = 0 := hone.resolve_left (not_not_intro hop3)
      simp only [ins, if_pos hop3, List.all_cons, List.all_nil, Bool.and_true, Bool.and_eq_true, beq_iff_eq] at hins
      obtain ⟨hin0, hn0⟩ := hins
      obtain ⟨d0, hd0⟩ := Blk.fdesc_of_handleOk hin0
      refine ⟨by simp [ds', ds, ins, two, hop3, h1, hd0, hd2], ?_⟩
      simp [valid, shapes, two, h1, hd0, hd2, hfi, hfo, hpair, h3, hop3, hsops, hzero, hin0, hout, hn0, hplain, n]
    · have h1 : h 1 ≠ 0 := htwo.resolve_left hop3
      simp only [ins, if_neg hop3, List.all_cons, List.all_nil, Bool.and_true, Bool.and_eq_true, beq_iff_eq] at hins
      obtain ⟨⟨hin0, hn0⟩, hin1, hn1⟩ := hins
      obtain ⟨d0, hd0⟩ := Blk.fdesc_of_handleOk hin0
      obtain ⟨d1, hd1⟩ := Blk.fdesc_of_handleOk hin1
      refine ⟨by simp [ds', ds, ins, two, hop3, h1, hd0, hd1, hd2], ?_⟩
      simp [valid, shapes, two, h1, hd0, hd1, hd2, hfi, hfo, hpair, h3, hop, hop3, hsops, hzero, hin0, hin1, hout, hn0, hn1, hplain, n]
  obtain ⟨hds, hall⟩ := hchecks
  have hst : st = stOK := by
    show firstBad _ = _
    rw [firstBad_desc, hall]
    rfl
  have htens' : st' = stOK := by
    show b.unitTensors (ds'.map _) = _
    rw [hds, htens]
  obtain ⟨rs, hrs, hprog⟩ := (Option.any_eq_true _ _).1 hsets
  have hsets' : sets = some rs := by
    show b.rowSets ds' _ _ = _
    rw [hds, ← hrs]
  have hempty : (ewProg f rs).isEmpty = false := by simpa using hprog
  refine ⟨rs, hempty, ?_⟩
  simp [hst, htens', hsets', prog, hempty, stOK, stDESC]

theorem Blk.ewStart_refuses (hbad : 3 < fld f.raw 0x20 1 ∨ 8 ≤ fld f.raw 0x23 1 ∨ eHandle f.raw 3 ≠ 0
      ∨ ewPair (fld f.raw 0x21 1) (fld f.raw 0x22 1) = false) : b.ewStart q seq = b.finish q seq stDESC 0 0 := by
  unfold Blk.ewStart
  rw [hf]
  dsimp -zeta only
  extract_lets e h op fi fo two valid shapes st
  have hall : (valid && ewPair fi fo && shapes) = false := by
    rcases hbad with h' | h' | h' | h'
    · simp [shapes, op, e, Nat.not_le.2 h']
    · simp [shapes, e, Nat.not_lt.2 h']
    · simp [shapes, h, e, h']
    · simp [fi, fo, e, h']
  have hst : st = stDESC := by
    show firstBad _ = _
    rw [firstBad_desc, need_of_false hall]
  rw [if_pos (by rw [hst]; decide), hst]

end

/-! ### BANK_EWISE -/

section
variable {s : State} {q seq : Nat} {f : Flight} (hup : s.blk.hubUp = true) (hf : s.blk.fresh? q seq 0x12 = some f)
include hup hf

theorem bankEwise_begins (ha : s.blk.ewAccepts f = true) :
    Completes (.bankEwise q seq) s (fun b => b.cu.jobs.map (fun j => (j.q, j.seq)) = s.blk.cu.jobs.map (fun j => (j.q, j.seq)) ++ [(q, seq)]
      ∧ (b.job? q seq).any (fun j => !j.prog.isEmpty && j.prog.all (fun c => c.ownedBy q seq)) = true
      ∧ EvFrame (s.blk.setJobs b.cu.jobs) b) := by
  obtain ⟨-, -, hjob⟩ := Blk.fresh?_running hf
  obtain ⟨sets, hprog, hstart⟩ := Blk.ewStart_begins hf ha
  have hown := ewProg_own f sets
  obtain ⟨-, rfl, rfl⟩ := Blk.fresh?_some hf
  refine (Completes.begins (exec_bankEwise s _ _) hup rfl hstart hjob (by simp [Job.is, Job.blank])).imp ?_
  rintro b ⟨hjobs, hone, -, hframe⟩
  refine ⟨by simp [hjobs, Job.blank], ?_, hframe⟩
  rw [hone]
  simp only [Option.any_some, hprog, Bool.not_false, Bool.true_and, List.all_eq_true, UCmd.ownedBy, beq_iff_eq]
  exact hown

theorem bankEwise_refused (hbad : 3 < fld f.raw 0x20 1 ∨ 8 ≤ fld f.raw 0x23 1 ∨ eHandle f.raw 3 ≠ 0
      ∨ ewPair (fld f.raw 0x21 1) (fld f.raw 0x22 1) = false) :
    Completes (.bankEwise q seq) s (EvFrame (s.blk.finish q seq stDESC 0 0)) :=
  .hubFrame (exec_bankEwise s q seq) hup (Blk.ewStart_refuses hf hbad)

end

end Sys2Proof.Machine
end

section
/-! Proofs: BANK_NORM and BANK_TABLE: their conditions and their first unit commands (R154, R172 to R176). -/

namespace Sys2Proof.Machine
open Sys2Proof

/-! ### BANK_NORM -/

/-- The formats of a BANK_NORM (R172). -/
theorem normFmt_iff {fm : Nat} : [cBF16, cE4M3, cE5M2].contains fm = true ↔ (fm == cBF16 || fm == cE4M3 || fm == cE5M2) = true := by
  simp [or_assoc]

theorem fmtListed_of_normFmt {fm : Nat} (h : [cBF16, cE4M3, cE5M2].contains fm = true) : fmtListed fm = true := by
  simp only [normFmt_iff, Bool.or_eq_true, beq_iff_eq] at h
  rcases h with (rfl | rfl) | rfl <;> decide

/-- The head of a list is its first member. -/
theorem getD_map_of_head? {α : Type} {g : α → Nat} {l : List α} {x : Nat} (h : some x = l.head?.map g) : x = (l.map g).getD 0 0 := by
  cases l with
  | nil => cases h
  | cons a t => exact Option.some.inj h

/-- A BANK_NORM as it begins: its first row's partials go to the tree (R174). -/
def Blk.normJob (b : Blk) (f : Flight) (q seq : Nat) (chans : List Nat) : Job :=
  { Job.blank q seq with
    prog := normHead f ((b.normSets f 0).getD []) 0
    rows := [(0, [])]
    chans := chans }

section
variable {b : Blk} {q seq : Nat} {f : Flight} (hf : b.fresh? q seq 0x13 = some f)
include hf

/-- A BANK_NORM that meets its conditions begins with its first row (R172 to R174). -/
theorem Blk.normStart_begins (ha : b.normAccepts f = true) :
    ∃ chans, b.normStart q seq = b.setJobs (b.cu.jobs ++ [b.normJob f q seq chans]) := by
  unfold Blk.normAccepts at ha
  extract_lets e h fm n ins rows stack at ha
  simp only [Bool.and_eq_true, Bool.or_eq_true, decide_eq_true_eq, beq_iff_eq, and_assoc] at ha
  obtain ⟨hkind, hrsv, hfm, h1rows, hrows, h1n, hmult, hn, hfin, hneg, hzero, hins, hout, hplain, hc0, hc1, hc2, hc3, hsome, hstack,
    htens⟩ := ha
  have hlisted := fmtListed_of_normFmt hfm
  rw [normFmt_iff] at hfm
  obtain ⟨d2, hd2⟩ := Blk.fdesc_of_handleOk hout
  have hin : ∀ k ∈ ins, b.handleOk f k fm false = true := List.all_eq_true.1 hins
  have hin0 := hin (h 0) (by simp [ins])
  have hin1 := hin (h 1) (by simp [ins])
  obtain ⟨d0, hd0⟩ := Blk.fdesc_of_handleOk hin0
  obtain ⟨d1, hd1⟩ := Blk.fdesc_of_handleOk hin1
  unfold Blk.normStart
  rw [hf]
  dsimp -zeta only
  extract_lets beta valid eps shapes st ds st' stack' one
  have hform : valid = true ∧ shapes = true := by
    by_cases h3 : h 3 = 0
    · have hb : beta = false := by simpa [beta, Norm.hasBeta] using h3
      simp [valid, shapes, eps, hb, hd0, hd1, hd2, hlisted, hkind, hrsv, h1rows, hrows, h1n, hmult, hn, hfin, hneg, hzero, hin0, hin1,
        hout, hc0, hc1, hc2, hplain]
    · have hin3 := hin (h 3) (by simp [ins, h3])
      obtain ⟨d3, hd3⟩ := Blk.fdesc_of_handleOk hin3
      simp [valid, shapes, eps, hd0, hd1, hd2, hd3, hlisted, hkind, hrsv, h1rows, hrows, h1n, hmult, hn, hfin, hneg, hzero, hin0, hin1,
        hin3, hout, hc0, hc1, hc2, hc3.resolve_left h3, hplain]
  obtain ⟨hvalid, hshapes⟩ := hform
  have hst : st = stOK := by
    show firstBad _ = _
    rw [firstBad_desc, hvalid, hfm, hshapes]
    rfl
  have hst' : st' = stOK := htens
  have hnone : rows.any Option.isNone = false := by
    rw [List.any_eq_false]
    intro x hx
    simpa using Option.isSome_iff_ne_none.1 (List.all_eq_true.1 hsome x hx)
  have hone : one = true := by
    refine List.all_eq_true.2 fun x hx => List.all_eq_true.2 fun y hy => ?_
    have hy := List.all_eq_true.1 (List.all_eq_true.1 hstack x hx) y hy
    exact beq_iff_eq.2 (getD_map_of_head? (beq_iff_eq.1 hy))
  have hfirst : rows.getD 0 none = b.normSets f 0 := by
    simp only [rows, List.getD_eq_getElem?_getD, List.getElem?_map, List.getElem?_range h1rows]
    rfl
  rw [if_neg (by simp [hst]), if_neg (by simp [hst', hnone, hone, stOK, stDESC]), if_neg (by simp [hst']), hfirst]
  exact ⟨_, rfl⟩

theorem Blk.normStart_refuses (hbad : 1 < Norm.kind f.raw ∨ Norm.rows f.raw = 0 ∨ 4096 < Norm.rows f.raw ∨ Norm.d f.raw = 0
      ∨ [cBF16, cE4M3, cE5M2].contains (Norm.fmt f.raw) = false) : b.normStart q seq = b.finish q seq stDESC 0 0 := by
  unfold Blk.normStart
  rw [hf]
  dsimp -zeta only
  extract_lets e h fm beta valid n eps shapes st
  have hall : (valid && (fm == cBF16 || fm == cE4M3 || fm == cE5M2) && shapes) = false := by
    rcases hbad with h' | h' | h' | h' | h'
    · simp [shapes, e, Nat.not_le.2 h']
    · simp [shapes, e, h']
    · simp [shapes, e, Nat.not_le.2 h']
    · simp [shapes, n, e, h']
    · have hfm : (fm == cBF16 || fm == cE4M3 || fm == cE5M2) = false := by
        rw [← Bool.not_eq_true, ← normFmt_iff, Bool.not_eq_true]
        exact h'
      rw [hfm, Bool.and_false, Bool.false_and]
  have hst : st = stDESC := by
    show firstBad _ = _
    rw [firstBad_desc, need_of_false hall]
  rw [if_pos (by rw [hst]; decide), hst]

end

section
variable {s : State} {q seq : Nat} {f : Flight} (hup : s.blk.hubUp = true) (hf : s.blk.fresh? q seq 0x13 = some f)
include hup hf

theorem bankNorm_begins (ha : s.blk.normAccepts f = true) :
    Completes (.bankNorm q seq) s (fun b => b.cu.jobs.map (fun j => (j.q, j.seq)) = s.blk.cu.jobs.map (fun j => (j.q, j.seq)) ++ [(q, seq)]
      ∧ (b.job? q seq).any (fun j => j.rows == [(0, [])] && j.prog == normHead f ((s.blk.normSets f 0).getD []) 0) = true
      ∧ EvFrame (s.blk.setJobs b.cu.jobs) b) := by
  obtain ⟨-, -, hjob⟩ := Blk.fresh?_running hf
  obtain ⟨chans, hstart⟩ := Blk.normStart_begins hf ha
  refine (Completes.begins (exec_bankNorm s q seq) hup rfl hstart hjob (by simp [Job.is, Blk.normJob, Job.blank])).imp ?_
  rintro b ⟨hjobs, hone, -, hframe⟩
  exact ⟨by simp [hjobs, Blk.normJob, Job.blank], by simp [hone, Blk.normJob], hframe⟩

theorem bankNorm_refused (hbad : 1 < Norm.kind f.raw ∨ Norm.rows f.raw = 0 ∨ 4096 < Norm.rows f.raw ∨ Norm.d f.raw = 0
      ∨ [cBF16, cE4M3, cE5M2].contains (Norm.fmt f.raw) = false) :
    Completes (.bankNorm q seq) s (EvFrame (s.blk.finish q seq stDESC 0 0)) :=
  .hubFrame (exec_bankNorm s q seq) hup (Blk.normStart_refuses hf hbad)

end

/-! ### BANK_TABLE -/

section
variable {s : State} {q seq : Nat} {f : Flight} (hup : s.blk.hubUp = true) (hf : s.blk.fresh? q seq 0x14 = some f)
include hup hf

/-- With its entries read and in order, a BANK_TABLE begins with their TBL_WRs (R175). -/
theorem bankTable_begins {d : Desc} (hd : s.blk.fdesc f (eHandle f.raw 0) = some d) (hfmt : d.fmt = cUINT8)
    (h1 : 1 ≤ fld f.raw 0x20 4) (hn : fld f.raw 0x20 4 ≤ 65536) (hcount : Dsc.count d = 40 * fld f.raw 0x20 4)
    (hz14 : zeroAt f.raw 0x14 12 = true) (hz24 : zeroAt f.raw 0x24 92 = true) (hreads : s.blk.readsAll f d = true)
    (hclean : s.blk.readsClean f d) (hok : (chunk 40 (fld f.raw 0x20 4) (s.blk.tensorBytes f d)).all tableEntryOk = true) :
    Completes (.bankTable q seq) s (fun b => b.cu.jobs.map (fun j => (j.q, j.seq)) = s.blk.cu.jobs.map (fun j => (j.q, j.seq)) ++ [(q, seq)]
      ∧ (b.job? q seq).map (fun j => j.prog) = some ((chunk 40 (fld f.raw 0x20 4) (s.blk.tensorBytes f d)).flatMap (tableCmds f))
      ∧ EvFrame ({ s.blk with chans := b.chans }.setJobs b.cu.jobs) b) := by
  obtain ⟨-, -, hjob⟩ := Blk.fresh?_running hf
  obtain ⟨hbad, hneed, hstall, -⟩ := Wk.goesOn_iff.1 hreads
  have hhandle : s.blk.handleOk f (eHandle f.raw 0) cUINT8 false = true := by simp [Blk.handleOk, hd, hfmt]
  have hcountOf : s.blk.countOf f (eHandle f.raw 0) = 40 * fld f.raw 0x20 4 := by simp [Blk.countOf, hd, hcount]
  have hstart : s.blk.tableStart q seq = ((Wk.bank s.blk f).tensor d).1.b.setJobs (((Wk.bank s.blk f).tensor d).1.b.cu.jobs
      ++ [{ Job.blank q seq with
        prog := (chunk 40 (fld f.raw 0x20 4) (s.blk.tensorBytes f d)).flatMap (tableCmds f)
        flags := ((Wk.bank s.blk f).tensor d).1.flags }]) := by
    unfold Blk.tableStart
    rw [hf]
    dsimp only
    rw [hhandle, hcountOf, hz14, hz24, hd, if_neg (by simp [h1, hn])]
    dsimp only
    rw [Wk.waits_eq_none hneed hstall]
    dsimp only
    rw [hbad, if_neg Bool.false_ne_true]
    exact if_neg (by simpa [Blk.tensorBytes] using hok)
  refine (Completes.begins (exec_bankTable s q seq) hup hclean hstart hjob (by simp [Job.is, Job.blank])).imp ?_
  rintro b ⟨hjobs, hone, hchans, hframe⟩
  exact ⟨by simp [hjobs, Job.blank], by rw [hone]; rfl, by rw [hchans]; exact hframe⟩

theorem bankTable_refused (hbad : s.blk.countOf f (eHandle f.raw 0) ≠ 40 * fld f.raw 0x20 4 ∨ fld f.raw 0x20 4 = 0) :
    Completes (.bankTable q seq) s (EvFrame (s.blk.finish q seq stDESC 0 0)) := by
  refine .hubFrame (exec_bankTable s q seq) hup ?_
  unfold Blk.tableStart
  rw [hf]
  dsimp only
  rcases hbad with h | h <;> exact if_pos (by simp [h])

end

/-- Settles O27: each command runs its checks and then one case of its start; what begins is added to the sequencer behind reads
that leave everything but their channels' counters as it was. -/
theorem bankStarts : Obligations.BankStarts :=
  ⟨fun _ _ _ _ hup hf hok hplan => bankGemv_asks hup hf hok hplan,
    fun _ _ _ _ _ _ _ _ hup hf hok hplan hw hx hy hpok hdest hsel hgo hclean =>
      bankGemv_begins hup hf hok hplan hw hx hy hpok hdest hsel hgo hclean,
    fun _ _ _ _ _ _ hup hf hok hplan hw hbad => bankGemv_badPlan hup hf hok hplan hw hbad,
    fun _ _ _ _ hup hf hbad => bankGemv_refused hup hf (gemvCheck_refuses hbad),
    fun _ _ _ _ _ hup hf hpr hplan hd _ hreads hroom => planReadDone_keeps hup hf hpr hplan hd hreads hroom,
    fun _ _ _ _ hup hf ha => bankEwise_begins hup hf ha,
    fun _ _ _ _ hup hf hbad => bankEwise_refused hup hf hbad,
    fun _ _ _ _ hup hf ha => bankNorm_begins hup hf ha,
    fun _ _ _ _ hup hf hbad => bankNorm_refused hup hf hbad,
    fun _ _ _ _ _ hup hf hd hfmt h1 hn hcount hz14 hz24 hreads hclean hok =>
      bankTable_begins hup hf hd hfmt h1 hn hcount hz14 hz24 hreads hclean hok,
    fun _ _ _ _ hup hf hbad => bankTable_refused hup hf hbad⟩

end Sys2Proof.Machine
end

section
/-! Proofs: an instruction of the vector engine on its registers (R215 to R219), and its arithmetic. -/

namespace Sys2Proof.Machine
open Sys2Proof

/-! ### The cursor and the work in hand (R220) -/

theorem VeRun.toBody_eq (r : VeRun) (k : Nat) : ∃ p c n, r.toBody k = { r with phase := p, chunk := c, pc := n } := by
  unfold VeRun.toBody VeRun.toPost
  split <;> exact ⟨_, _, _, rfl⟩

/-- The cursor moves, and nothing else of the run changes. -/
theorem VeRun.next_eq (r : VeRun) : ∃ p c n, r.next = { r with phase := p, chunk := c, pc := n } := by
  unfold VeRun.next
  dsimp only
  split
  · split
    · exact ⟨_, _, _, rfl⟩
    · exact r.toBody_eq 0
  split
  · split
    · exact ⟨_, _, _, rfl⟩
    · exact r.toBody_eq _
  · split <;> exact ⟨_, _, _, rfl⟩

section
variable (r : VeRun)

@[simp] theorem VeRun.next_st : r.next.st = r.st := by obtain ⟨_, _, _, h⟩ := r.next_eq; rw [h]
@[simp] theorem VeRun.next_pos : r.next.pos = r.pos := by obtain ⟨_, _, _, h⟩ := r.next_eq; rw [h]
@[simp] theorem VeRun.next_stored : r.next.stored = r.stored := by obtain ⟨_, _, _, h⟩ := r.next_eq; rw [h]

end

/-- Work is in hand only where the engine is on a tile or on a VEC_PROG. -/
theorem HubSt.active_of_current {h : HubSt} {x : VeRun × VeCtx} (hx : h.current = some x) : h.active = 1 ∨ h.active = 2 := by
  unfold HubSt.current at hx
  split at hx
  · exact .inl (by assumption)
  · split at hx
    · exact .inr (by assumption)
    · cases hx

section
variable (b : Blk) (r : VeRun) (c : VeCtx)

@[simp] theorem Blk.setVe_mem : (b.setVe r c).mem = b.mem := by unfold Blk.setVe; split <;> rfl
@[simp] theorem Blk.setVe_regs : (b.setVe r c).regs = b.regs := by unfold Blk.setVe; split <;> rfl

variable {b} in
/-- The work in hand and its registers, once they are put back. -/
theorem Blk.setVe_current (h : b.hub.active = 1 ∨ b.hub.active = 2) : (b.setVe r c).hub.current = some (r, c) := by
  unfold Blk.setVe HubSt.current
  rcases h with h | h <;> simp [h]

end

theorem Blk.veCtx_of_current {b : Blk} {r : VeRun} {c : VeCtx} (h : b.hub.current = some (r, c)) : b.veCtx = c := by
  simp [Blk.veCtx, h]

/-! ### One step of the engine -/

/-- Where the engine stands at an instruction. -/
theorem Blk.veAt_spec {b : Blk} {op : Nat} {r : VeRun} {c : VeCtx} (h : b.veAt op r c = true) :
    b.hubUp = true ∧ (∃ c₀, b.hub.current = some (r, c₀) ∧ { c₀ with vl := r.vl } = c)
      ∧ (∃ f, b.flight? r.q r.seq = some f) ∧ r.phase ≠ 3 ∧ r.ins.op = op := by
  simp only [Blk.veAt, Bool.and_eq_true, Option.any_eq_true, beq_iff_eq, bne_iff_ne, Option.isSome_iff_exists] at h
  obtain ⟨⟨⟨⟨hup, ⟨r₀, c₀⟩, hcur, rfl, hc⟩, hf⟩, hph⟩, hop⟩ := h
  exact ⟨hup, ⟨c₀, hcur, hc⟩, hf, hph, hop⟩

/-- The opcodes that move data between registers and streams (R218). -/
def streamOps : List Nat := [0x18, 0x19, 0x1A, 0x1B, 0x1C, 0x1D, 0x1E]

section
variable {b : Blk} {op : Nat} {r : VeRun} {c : VeCtx} (h : b.veAt op r c = true)
include h

theorem Blk.veAt_active : b.hub.active = 1 ∨ b.hub.active = 2 := by
  obtain ⟨-, ⟨c₀, hcur, -⟩, -⟩ := Blk.veAt_spec h
  exact HubSt.active_of_current hcur

theorem Blk.veStep_stream (hop : streamOps.contains op = true) {f : Flight} (hf : b.flight? r.q r.seq = some f) :
    b.veStep op = b.veMem f r c r.ins := by
  obtain ⟨-, ⟨c₀, hcur, rfl⟩, -, hph, rfl⟩ := Blk.veAt_spec h
  unfold Blk.veStep
  rw [hcur]
  dsimp only
  rw [hf]
  dsimp only
  rw [if_neg (by simp [hph])]
  exact if_pos hop

theorem Blk.veStep_register (hop : streamOps.contains op = false) {c' : VeCtx} {fl : Flags}
    (hx : c.exec r.prog r.ins (r.chunk * vlMax r.prog.vfmt) (Config.freeWord b.ctr).toNat = (c', fl)) :
    b.veStep op = ({ b with ctr := b.ctr + 1 } : Blk).setVe { r.next with flags := r.flags ||| fl } c' := by
  obtain ⟨-, ⟨c₀, hcur, rfl⟩, ⟨f, hf⟩, hph, rfl⟩ := Blk.veAt_spec h
  unfold Blk.veStep
  rw [hcur]
  dsimp only
  rw [hf]
  dsimp only
  rw [if_neg (by simp [hph]), hx]
  exact if_neg (by rw [← streamOps, hop]; exact Bool.false_ne_true)

end

/-- An instruction that touches only registers leaves what it computes from them, and its run goes on. -/
theorem Completes.register {i : Instr} {s : State} {op : Nat} {r : VeRun} {c c' : VeCtx} {fl : Flags}
    (hexec : exec i s = hubAct s (fun b => b.veStep op)) (hat : s.blk.veAt op r c = true) (hop : streamOps.contains op = false)
    (hx : c.exec r.prog r.ins (r.chunk * vlMax r.prog.vfmt) (Config.freeWord s.blk.ctr).toNat = (c', fl)) :
    Completes i s (fun b => b.veCtx = c' ∧ RunsOn s.blk b r fl) := by
  obtain ⟨hup, -⟩ := Blk.veAt_spec hat
  have hcur := Blk.setVe_current (b := { s.blk with ctr := s.blk.ctr + 1 }) { r.next with flags := r.flags ||| fl } c'
    (Blk.veAt_active hat)
  refine .of_hub hexec hup ?_
  rw [Blk.veStep_register hat hop hx]
  exact ⟨Blk.veCtx_of_current (by rw [settle_hub, hcur]), by rw [settle_hub, hcur]; rfl, by simp [SameMem], by simp⟩

/-! ### Vector registers (R215, R217) -/

/-- Lanes below 2^w, one after the other, as one number. -/
def packLanes (w : Nat) (l : List Nat) : Nat := l.foldr (fun x a => x + a * 2 ^ w) 0

theorem packLanes_lane {w : Nat} {l : List Nat} (h : ∀ x ∈ l, x < 2 ^ w) (n : Nat) :
    packLanes w l / 2 ^ (w * n) % 2 ^ w = l.getD n 0 := by
  induction l generalizing n with
  | nil => simp [packLanes]
  | cons x t ih =>
    obtain ⟨hx, ht⟩ := List.forall_mem_cons.1 h
    have hcons : packLanes w (x :: t) = x + packLanes w t * 2 ^ w := rfl
    cases n with
    | zero => rw [hcons, Nat.mul_zero, Nat.pow_zero, Nat.div_one, Nat.add_mul_mod_self_right, Nat.mod_eq_of_lt hx]; rfl
    | succ n =>
      rw [hcons, Nat.mul_succ, Nat.add_comm (w * n), Nat.pow_add, ← Nat.div_div_eq_div_mul,
        Nat.add_mul_div_right _ _ (Nat.two_pow_pos w), Nat.div_eq_of_lt hx, Nat.zero_add, ih ht n]
      rfl

section
variable (c : VeCtx) (r : VeRun) (k : Nat) (f : Nat → Nat)

/-- What lane n of a destination takes under mask k. -/
def VeRun.laneOut (n : Nat) : Nat :=
  if c.vl ≤ n then 0 else if c.active k n then f n % 2 ^ vBits r.prog.vfmt
    else if r.ins.z then 0 else c.lane r.prog.vfmt r.ins.d n

theorem VeRun.laneOut_lt (n : Nat) : r.laneOut c k f n < 2 ^ vBits r.prog.vfmt := by
  have hpos := Nat.two_pow_pos (vBits r.prog.vfmt)
  unfold VeRun.laneOut
  split
  · exact hpos
  split
  · exact Nat.mod_lt _ hpos
  split
  · exact hpos
  · exact Nat.mod_lt _ hpos

theorem VeCtx.setV_lane {n : Nat} (hn : n < vlMax r.prog.vfmt) :
    (c.setV r.prog.vfmt { r.ins with k := k } f).lane r.prog.vfmt r.ins.d n = r.laneOut c k f n := by
  have hlanes : ∀ x ∈ (List.range (vlMax r.prog.vfmt)).map (r.laneOut c k f), x < 2 ^ vBits r.prog.vfmt := by
    simp only [List.mem_map]
    rintro x ⟨m, -, rfl⟩
    exact r.laneOut_lt c k f m
  unfold VeCtx.lane VeCtx.setV
  rw [tget_tset_same]
  refine (packLanes_lane hlanes n).trans ?_
  simp [hn]

/-- A write of a vector destination under mask k. -/
theorem VeCtx.setV_lanesAre : LanesAre c (c.setV r.prog.vfmt { r.ins with k := k } f) r k f := by
  refine ⟨fun n hn => (c.setV_lane r k f hn).trans ?_, fun j _ hj => tget_tset_other _ _ hj _, rfl, rfl, rfl⟩
  unfold VeRun.laneOut
  split
  · rfl
  next hvl => simp [VeCtx.active, Nat.lt_of_not_le hvl, vBits]

end

/-! ### Arithmetic (R218, R219) -/

/-- An arithmetic instruction rounds every active lane once. -/
theorem Completes.arith {i : Instr} {s : State} {op : Nat} {r : VeRun} {c : VeCtx} {f : Nat → Ex} {inputs : Nat → List Ex}
    (hexec : exec i s = hubAct s (fun b => b.veStep op)) (hat : s.blk.veAt op r c = true) (hop : streamOps.contains op = false)
    (hx : c.exec r.prog r.ins (r.chunk * vlMax r.prog.vfmt) (Config.freeWord s.blk.ctr).toNat = c.arith r.prog.vfmt r.ins f inputs) :
    Completes i s (fun b => LanesRound s.blk b r c f inputs) := by
  refine (Completes.register hexec hat hop hx).imp ?_
  rintro b ⟨hctx, hruns⟩
  refine ⟨hctx ▸ VeCtx.setV_lanesAre c r r.ins.k _, ?_⟩
  simpa only [VeCtx.gather, Nat.or_assoc, vEnc] using hruns

section
variable {c : VeCtx} {r : VeRun} (base free : Nat)

theorem VeCtx.exec_vadd (h : r.ins.op = 1) : c.exec r.prog r.ins base free
    = c.arith r.prog.vfmt r.ins (fun n => Ex.add (r.inA c n) (r.inB c n)) (fun n => [r.inA c n, r.inB c n]) := by
  unfold VeCtx.exec; rw [h]; rfl

theorem VeCtx.exec_vsub (h : r.ins.op = 2) : c.exec r.prog r.ins base free
    = c.arith r.prog.vfmt r.ins (fun n => Ex.sub (r.inA c n) (r.inB c n)) (fun n => [r.inA c n, r.inB c n]) := by
  unfold VeCtx.exec; rw [h]; rfl

theorem VeCtx.exec_vmul (h : r.ins.op = 3) : c.exec r.prog r.ins base free
    = c.arith r.prog.vfmt r.ins (fun n => Ex.mul (r.inA c n) (r.inB c n)) (fun n => [r.inA c n, r.inB c n]) := by
  unfold VeCtx.exec; rw [h]; rfl

theorem VeCtx.exec_vfma (h : r.ins.op = 4) : c.exec r.prog r.ins base free
    = c.arith r.prog.vfmt r.ins (fun n => Ex.add (Ex.mul (r.inA c n) (r.inB c n)) (r.inC c n))
        (fun n => [r.inA c n, r.inB c n, r.inC c n]) := by
  unfold VeCtx.exec; rw [h]; rfl

theorem VeCtx.exec_vmin (h : r.ins.op = 5) : c.exec r.prog r.ins base free
    = c.arith r.prog.vfmt r.ins (fun n => Ex.min2 (r.inA c n) (r.inB c n)) (fun n => [r.inA c n, r.inB c n]) := by
  unfold VeCtx.exec; rw [h]; rfl

theorem VeCtx.exec_vmax (h : r.ins.op = 6) : c.exec r.prog r.ins base free
    = c.arith r.prog.vfmt r.ins (fun n => Ex.max2 (r.inA c n) (r.inB c n)) (fun n => [r.inA c n, r.inB c n]) := by
  unfold VeCtx.exec; rw [h]; rfl

theorem VeCtx.exec_vabs (h : r.ins.op = 7) : c.exec r.prog r.ins base free
    = c.arith r.prog.vfmt r.ins (fun n => Ex.abs (r.inA c n)) (fun n => [r.inA c n]) := by
  unfold VeCtx.exec; rw [h]; rfl

theorem VeCtx.exec_vneg (h : r.ins.op = 8) : c.exec r.prog r.ins base free
    = c.arith r.prog.vfmt r.ins (fun n => Ex.neg (r.inA c n)) (fun n => [r.inA c n]) := by
  unfold VeCtx.exec; rw [h]; rfl

end

theorem Blk.veAt_op {b : Blk} {op : Nat} {r : VeRun} {c : VeCtx} (h : b.veAt op r c = true) : r.ins.op = op := by
  obtain ⟨-, -, -, -, hop⟩ := Blk.veAt_spec h
  exact hop

/-- Settles O30: each instruction is a lane function of its sources, rounded once. -/
theorem vectorArithmetic : Obligations.VectorArithmetic :=
  ⟨fun s _ _ h => .arith (exec_vadd s) h rfl (VeCtx.exec_vadd _ _ (Blk.veAt_op h)),
    fun s _ _ h => .arith (exec_vsub s) h rfl (VeCtx.exec_vsub _ _ (Blk.veAt_op h)),
    fun s _ _ h => .arith (exec_vmul s) h rfl (VeCtx.exec_vmul _ _ (Blk.veAt_op h)),
    fun s _ _ h => .arith (exec_vfma s) h rfl (VeCtx.exec_vfma _ _ (Blk.veAt_op h)),
    fun s _ _ h => .arith (exec_vmin s) h rfl (VeCtx.exec_vmin _ _ (Blk.veAt_op h)),
    fun s _ _ h => .arith (exec_vmax s) h rfl (VeCtx.exec_vmax _ _ (Blk.veAt_op h)),
    fun s _ _ h => .arith (exec_vabs s) h rfl (VeCtx.exec_vabs _ _ (Blk.veAt_op h)),
    fun s _ _ h => .arith (exec_vneg s) h rfl (VeCtx.exec_vneg _ _ (Blk.veAt_op h))⟩

end Sys2Proof.Machine
end

section
/-! Proofs: the instructions of the vector engine on bits, lanes, masks and scalars (R215 to R219, R222, R223, R229). -/

namespace Sys2Proof.Machine
open Sys2Proof

/-! ### Masks and scalars (R215) -/

theorem two_pow_128_testBit {n : Nat} (h : n < 128) : (2 ^ 128 - 1).testBit n = true := by
  rw [Nat.testBit_two_pow_sub_one, decide_eq_true h]

section
variable (c : VeCtx) (d v : Nat)

@[simp] theorem VeCtx.setK_v : (c.setK d v).v = c.v := by unfold VeCtx.setK; split <;> rfl
@[simp] theorem VeCtx.setK_x : (c.setK d v).x = c.x := by unfold VeCtx.setK; split <;> rfl

/-- R215: a mask takes what is written, but for k0. -/
theorem VeCtx.setK_testBit {n : Nat} (hn : n < 128) :
    ((c.setK d v).kreg d).testBit n = if d = 0 then true else v.testBit n := by
  unfold VeCtx.kreg VeCtx.setK
  split
  · exact two_pow_128_testBit hn
  · rw [tget_tset_same, Nat.testBit_mod_two_pow, decide_eq_true hn, Bool.true_and]

theorem VeCtx.setK_other {j : Nat} (hj : j ≠ d) : (c.setK d v).kreg j = c.kreg j := by
  unfold VeCtx.kreg VeCtx.setK
  split
  · rfl
  split
  · rfl
  · exact tget_tset_other _ _ hj _

theorem VeCtx.setX_same : (c.setX d v).xreg d = v % 2 ^ 32 := tget_tset_same _ _ _ _

theorem VeCtx.setX_other {j : Nat} (hj : j ≠ d) : (c.setX d v).xreg j = c.xreg j := tget_tset_other _ _ hj _

end

/-! ### The active lanes (R218) -/

theorem VeCtx.mem_lanes {c : VeCtx} {k n : Nat} : n ∈ c.lanes k ↔ c.active k n = true := by
  simp [VeCtx.lanes, VeCtx.active]

/-- A destination depends on the values of active lanes alone. -/
theorem LanesAre.congr {c d : VeCtx} {r : VeRun} {k : Nat} {f g : Nat → Nat} (h : LanesAre c d r k f)
    (hfg : ∀ n ∈ c.lanes k, f n = g n) : LanesAre c d r k g := by
  obtain ⟨hlane, hrest⟩ := h
  refine ⟨fun n hn => (hlane n hn).trans ?_, hrest⟩
  split
  · rfl
  split
  next hvl hk => rw [hfg n (VeCtx.mem_lanes.2 (by simp [VeCtx.active, hk, Nat.lt_of_not_le hvl]))]
  · rfl

/-- Its place in a list that holds it. -/
theorem indexIn_of_mem {l : List Nat} {n : Nat} (h : n ∈ l) : (indexIn l n).getD 0 = l.idxOf n := by
  have hlt : l.findIdx (· == n) < l.length := List.idxOf_lt_length_of_mem h
  rw [indexIn, List.findIdx?_eq_guard_findIdx_lt, Option.guard, if_pos (by simpa using hlt)]
  rfl

/-- The bits that a mask instruction sets. -/
theorem testBit_foldl_setBit (p : Nat → Bool) (l : List Nat) (m i : Nat) :
    (l.foldl (fun m n => if p n then setBit m n else m) m).testBit i = (m.testBit i || (l.contains i && p i)) := by
  induction l generalizing m with
  | nil => simp
  | cons n t ih =>
    rw [List.foldl_cons, ih, List.contains_cons]
    by_cases hin : i = n
    · subst hin
      cases hp : p i <;> simp [setBit, Nat.one_shiftLeft, Nat.testBit_two_pow_self]
    · have hbit : (setBit m n).testBit i = m.testBit i := by
        simp [setBit, Nat.one_shiftLeft, Ne.symm hin]
      have hne : (i == n) = false := beq_eq_false_iff_ne.2 hin
      split <;> simp [hbit, hne]

/-! ### Instructions that write one kind of register -/

section
variable {i : Instr} {s : State} {op : Nat} {r : VeRun} {c : VeCtx} {fl : Flags}
  (hexec : exec i s = hubAct s (fun b => b.veStep op)) (hat : s.blk.veAt op r c = true) (hop : streamOps.contains op = false)
include hexec hat hop

theorem Completes.lanes {k : Nat} {f : Nat → Nat}
    (hx : c.exec r.prog r.ins (r.chunk * vlMax r.prog.vfmt) (Config.freeWord s.blk.ctr).toNat
      = (c.setV r.prog.vfmt { r.ins with k := k } f, fl)) :
    Completes i s (fun b => LanesAre c b.veCtx r k f ∧ RunsOn s.blk b r fl) :=
  (Completes.register hexec hat hop hx).imp fun _ ⟨hctx, hruns⟩ => ⟨hctx ▸ VeCtx.setV_lanesAre c r k f, hruns⟩

theorem Completes.mask {m : Nat}
    (hx : c.exec r.prog r.ins (r.chunk * vlMax r.prog.vfmt) (Config.freeWord s.blk.ctr).toNat = (c.setK r.ins.d m, fl)) :
    Completes i s (fun b => (∀ n, n < 128 → (b.veCtx.kreg r.ins.d).testBit n = if r.ins.d = 0 then true else m.testBit n)
      ∧ (∀ j, j < 8 → j ≠ r.ins.d → b.veCtx.kreg j = c.kreg j) ∧ b.veCtx.v = c.v ∧ b.veCtx.x = c.x ∧ RunsOn s.blk b r fl) := by
  refine (Completes.register hexec hat hop hx).imp ?_
  rintro b ⟨hctx, hruns⟩
  rw [hctx]
  exact ⟨fun n hn => c.setK_testBit _ _ hn, fun j _ hj => c.setK_other _ _ hj, c.setK_v _ _, c.setK_x _ _, hruns⟩

theorem Completes.scalar {v : Nat}
    (hx : c.exec r.prog r.ins (r.chunk * vlMax r.prog.vfmt) (Config.freeWord s.blk.ctr).toNat = (c.setX r.ins.d v, fl)) :
    Completes i s (fun b => b.veCtx.xreg r.ins.d = v % 2 ^ 32 ∧ (∀ j, j < 16 → j ≠ r.ins.d → b.veCtx.xreg j = c.xreg j)
      ∧ b.veCtx.v = c.v ∧ b.veCtx.k = c.k ∧ b.veCtx.ra = c.ra ∧ RunsOn s.blk b r fl) := by
  refine (Completes.register hexec hat hop hx).imp ?_
  rintro b ⟨hctx, hruns⟩
  rw [hctx]
  exact ⟨c.setX_same _ _, fun j _ hj => c.setX_other _ _ hj, rfl, rfl, rfl, hruns⟩

end

/-! ### Logic, comparison and selection -/

section
variable {c : VeCtx} {r : VeRun} (base free : Nat)

theorem VeCtx.exec_vlogic (h : r.ins.op = 9) : c.exec r.prog r.ins base free = (c.setV r.prog.vfmt r.ins
    (fun n => vLogic r.ins.sub (c.lane r.prog.vfmt r.ins.a n) (c.rawB r.prog.vfmt r.ins n)), 0) := by
  unfold VeCtx.exec; rw [h]; rfl

theorem VeCtx.exec_vcmp (h : r.ins.op = 0xA) : c.exec r.prog r.ins base free
    = (c.setK r.ins.d ((c.lanes r.ins.k).foldl (fun m n => if vCmp r.ins.sub (r.inA c n) (r.inB c n) then setBit m n else m) 0),
      c.gather r.ins.k (fun n => nanFlags [r.inA c n, r.inB c n])) := by
  unfold VeCtx.exec; rw [h]; rfl

/-- The lane that VSEL takes. -/
def VeRun.picked (r : VeRun) (c : VeCtx) (n : Nat) : Nat :=
  if (c.kreg r.ins.k).testBit n then c.lane r.prog.vfmt r.ins.a n else c.rawB r.prog.vfmt r.ins n

theorem VeCtx.exec_vsel (h : r.ins.op = 0xB) : c.exec r.prog r.ins base free = (c.setV r.prog.vfmt { r.ins with k := 0 } (r.picked c),
    nanFlags ((c.lanes 0).map (fun n => decElem r.prog.vfmt (r.picked c n)))) := by
  unfold VeCtx.exec; rw [h]; rfl

/-! ### Copies and lane numbers -/

theorem VeCtx.exec_vmov (h : r.ins.op = 0xC) : c.exec r.prog r.ins base free
    = (c.setV r.prog.vfmt r.ins (fun n => c.lane r.prog.vfmt r.ins.a n), nanFlags ((c.lanes r.ins.k).map (r.inA c))) := by
  unfold VeCtx.exec; rw [h]; rfl

theorem VeCtx.exec_vsplat (h : r.ins.op = 0xD) : c.exec r.prog r.ins base free
    = (c.setV r.prog.vfmt r.ins (fun _ => (encElem r.prog.vfmt (decElem (sFmt r.prog.vfmt) (c.xreg r.ins.a))).1),
      if (c.lanes r.ins.k).isEmpty then 0 else (encElem r.prog.vfmt (decElem (sFmt r.prog.vfmt) (c.xreg r.ins.a))).2) := by
  unfold VeCtx.exec; rw [h]; rfl

theorem VeCtx.exec_viota (h : r.ins.op = 0xE) : c.exec r.prog r.ins base free = (c.setV r.prog.vfmt r.ins (fun n => n), 0) := by
  unfold VeCtx.exec; rw [h]; rfl

/-! ### Lanes by index -/

/-- The index that VPERM uses in a lane, and the lane that it takes. -/
def VeRun.index (r : VeRun) (c : VeCtx) (n : Nat) : Nat := if r.ins.bs then c.xreg r.ins.b else c.lane r.prog.vfmt r.ins.b n
def VeRun.indexed (r : VeRun) (c : VeCtx) (n : Nat) : Nat :=
  if r.index c n < c.vl then c.lane r.prog.vfmt r.ins.a (r.index c n) else 0

theorem VeCtx.exec_vperm (h : r.ins.op = 0x10) : c.exec r.prog r.ins base free = (c.setV r.prog.vfmt r.ins (r.indexed c),
    (c.lanes r.ins.k).foldl (fun a n =>
      a ||| (if r.index c n < c.vl then 0 else flagPermOor) ||| nanFlags [decElem r.prog.vfmt (r.indexed c n)]) 0) := by
  unfold VeCtx.exec; rw [h]; rfl

/-- The active lanes of source a. -/
def VeRun.packed (r : VeRun) (c : VeCtx) : List Nat := (c.lanes r.ins.k).map (fun n => c.lane r.prog.vfmt r.ins.a n)

theorem VeCtx.exec_vcompress (h : r.ins.op = 0x11) : c.exec r.prog r.ins base free
    = ((c.setV r.prog.vfmt { r.ins with k := 0 } (fun n => (r.packed c).getD n 0)).setX r.ins.c (r.packed c).length,
      nanFlags ((r.packed c).map (decElem r.prog.vfmt))) := by
  unfold VeCtx.exec; rw [h]; rfl

theorem VeCtx.exec_vexpand (h : r.ins.op = 0x12) : c.exec r.prog r.ins base free
    = (c.setV r.prog.vfmt r.ins (fun n => c.lane r.prog.vfmt r.ins.a ((indexIn (c.lanes r.ins.k) n).getD 0)),
      nanFlags ((c.lanes r.ins.k).map (fun n =>
        decElem r.prog.vfmt (c.lane r.prog.vfmt r.ins.a ((indexIn (c.lanes r.ins.k) n).getD 0))))) := by
  unfold VeCtx.exec; rw [h]; rfl

end

theorem vlMax_le (vf : Nat) : vlMax vf ≤ 128 := by unfold vlMax; split <;> omega

section
variable {s : State} {r : VeRun} {c : VeCtx}

theorem vcmp_writes (h : s.blk.veAt 0xA r c = true) : Completes .vcmp s (fun b =>
    (∀ n, n < 128 → (b.veCtx.kreg r.ins.d).testBit n
      = if r.ins.d = 0 then true else c.active r.ins.k n && vCmp r.ins.sub (r.inA c n) (r.inB c n))
    ∧ (∀ j, j < 8 → j ≠ r.ins.d → b.veCtx.kreg j = c.kreg j) ∧ b.veCtx.v = c.v ∧ b.veCtx.x = c.x
    ∧ RunsOn s.blk b r (c.gather r.ins.k (fun n => nanFlags [r.inA c n, r.inB c n]))) := by
  refine (Completes.mask (exec_vcmp s) h rfl (VeCtx.exec_vcmp _ _ (Blk.veAt_op h))).imp ?_
  rintro b ⟨hbits, hrest⟩
  refine ⟨fun n hn => (hbits n hn).trans ?_, hrest⟩
  have hin : (c.lanes r.ins.k).contains n = c.active r.ins.k n := by
    rw [Bool.eq_iff_iff, List.contains_iff_mem, VeCtx.mem_lanes]
  rw [testBit_foldl_setBit (fun n => vCmp r.ins.sub (r.inA c n) (r.inB c n)), hin, Nat.zero_testBit, Bool.false_or]

theorem vsplat_fills (h : s.blk.veAt 0xD r c = true) : Completes .vsplat s (fun b =>
    LanesAre c b.veCtx r r.ins.k (fun _ => (encElem r.prog.vfmt (decElem (sFmt r.prog.vfmt) (c.xreg r.ins.a))).1)
    ∧ RunsOn s.blk b r (if c.lanes r.ins.k = [] then 0 else (encElem r.prog.vfmt (decElem (sFmt r.prog.vfmt) (c.xreg r.ins.a))).2)) := by
  simpa only [List.isEmpty_iff] using
    Completes.lanes (exec_vsplat s) h rfl (k := r.ins.k) (VeCtx.exec_vsplat _ _ (Blk.veAt_op h))

theorem vperm_takes (h : s.blk.veAt 0x10 r c = true) : Completes .vperm s (fun b => LanesAre c b.veCtx r r.ins.k (r.indexed c)
    ∧ RunsOn s.blk b r (c.gather r.ins.k (fun n =>
        (if r.index c n < c.vl then 0 else flagPermOor) ||| nanFlags [decElem r.prog.vfmt (r.indexed c n)]))) := by
  simpa only [VeCtx.gather, Nat.or_assoc] using
    Completes.lanes (exec_vperm s) h rfl (k := r.ins.k) (VeCtx.exec_vperm _ _ (Blk.veAt_op h))

theorem vcompress_packs (h : s.blk.veAt 0x11 r c = true) : Completes .vcompress s (fun b =>
    (∀ n, n < vlMax r.prog.vfmt → b.veCtx.lane r.prog.vfmt r.ins.d n
      = if c.vl ≤ n then 0 else (r.packed c).getD n 0 % 2 ^ fmtBits r.prog.vfmt)
    ∧ b.veCtx.xreg r.ins.c = (c.lanes r.ins.k).length % 2 ^ 32 ∧ b.veCtx.k = c.k
    ∧ RunsOn s.blk b r (nanFlags ((r.packed c).map (decElem r.prog.vfmt)))) := by
  refine (Completes.register (exec_vcompress s) h rfl (VeCtx.exec_vcompress _ _ (Blk.veAt_op h))).imp ?_
  rintro b ⟨hctx, hruns⟩
  obtain ⟨hlanes, -⟩ := VeCtx.setV_lanesAre c r 0 (fun n => (r.packed c).getD n 0)
  rw [hctx]
  refine ⟨fun n hn => (hlanes n hn).trans ?_, ?_, rfl, hruns⟩
  · rw [VeCtx.kreg, if_pos rfl, two_pow_128_testBit (Nat.lt_of_lt_of_le hn (vlMax_le _)), if_pos rfl]
  · rw [VeCtx.setX_same, VeRun.packed, List.length_map]

theorem vexpand_spreads (h : s.blk.veAt 0x12 r c = true) : Completes .vexpand s (fun b =>
    LanesAre c b.veCtx r r.ins.k (fun n => c.lane r.prog.vfmt r.ins.a ((c.lanes r.ins.k).idxOf n))
    ∧ RunsOn s.blk b r (nanFlags ((c.lanes r.ins.k).map (fun n =>
        decElem r.prog.vfmt (c.lane r.prog.vfmt r.ins.a ((c.lanes r.ins.k).idxOf n)))))) := by
  refine (Completes.lanes (exec_vexpand s) h rfl (k := r.ins.k) (VeCtx.exec_vexpand _ _ (Blk.veAt_op h))).imp ?_
  rintro b ⟨hlanes, hruns⟩
  refine ⟨hlanes.congr fun n hn => by rw [indexIn_of_mem hn], ?_⟩
  rwa [List.map_congr_left fun n hn => by rw [indexIn_of_mem hn]] at hruns

end

/-- Settles O31: each instruction writes one vector or one mask, lane by lane. -/
theorem vectorMoves : Obligations.VectorMoves :=
  ⟨fun s r _ h => .lanes (exec_vlogic s) h rfl (k := r.ins.k) (VeCtx.exec_vlogic _ _ (Blk.veAt_op h)),
    fun _ _ _ h _ => vcmp_writes h,
    fun s _ _ h => .lanes (exec_vsel s) h rfl (k := 0) (VeCtx.exec_vsel _ _ (Blk.veAt_op h)),
    fun s r _ h => .lanes (exec_vmov s) h rfl (k := r.ins.k) (VeCtx.exec_vmov _ _ (Blk.veAt_op h)),
    fun _ _ _ h => vsplat_fills h,
    fun s r _ h => .lanes (exec_viota s) h rfl (k := r.ins.k) (VeCtx.exec_viota _ _ (Blk.veAt_op h)),
    fun _ _ _ h => vperm_takes h,
    fun _ _ _ h => vcompress_packs h,
    fun _ _ _ h => vexpand_spreads h⟩

/-! ### Reductions, scalars, masks and functions (R222, R223, R229, R230) -/

/-- The leaves of RED's tree: the active lanes with their numbers in the row. -/
def VeRun.leaves (r : VeRun) (c : VeCtx) : List Node :=
  (List.range (vlMax r.prog.vfmt)).map (fun n => if c.active r.ins.k n
    then some (if r.prog.vfmt = cINT32 then c.lane r.prog.vfmt r.ins.a n else fl32 (r.inA c n), r.chunk * vlMax r.prog.vfmt + n) else none)

/-- The row accumulator that RED leaves, with the flags of its last operation. -/
def VeRun.reduced (r : VeRun) (c : VeCtx) : RowAcc × Flags :=
  (tget RowAcc.empty r.ins.d c.ra).add (sFmt r.prog.vfmt) r.ins.sub (c.lanes r.ins.k).length
    (redTree (sFmt r.prog.vfmt) r.ins.sub 7 (r.leaves c)).1

section
variable {c : VeCtx} {r : VeRun} (base free : Nat)

theorem VeCtx.exec_red (h : r.ins.op = 0x20) : c.exec r.prog r.ins (r.chunk * vlMax r.prog.vfmt) free
    = ({ c with ra := tset r.ins.d (r.reduced c).1 c.ra },
      (redTree (sFmt r.prog.vfmt) r.ins.sub 7 (r.leaves c)).2 ||| (r.reduced c).2 ||| c.nans r.ins.k (fun n => r.inA c n)) := by
  unfold VeCtx.exec
  rw [h]
  simp only [VeRun.reduced, VeRun.leaves, VeRun.inA, vDec, Nat.reduceEqDiff, if_false, if_true]

theorem VeCtx.exec_rget (h : r.ins.op = 0x21) : c.exec r.prog r.ins base free
    = (c.setX r.ins.d ((tget RowAcc.empty r.ins.a c.ra).get (sFmt r.prog.vfmt) (r.prog.redSub r.ins.a) free).1,
      ((tget RowAcc.empty r.ins.a c.ra).get (sFmt r.prog.vfmt) (r.prog.redSub r.ins.a) free).2) := by
  unfold VeCtx.exec; rw [h]; rfl

theorem VeCtx.exec_xset (h : r.ins.op = 0x28) : c.exec r.prog r.ins base free = (c.setX r.ins.d r.ins.imm, 0) := by
  unfold VeCtx.exec; rw [h]; rfl

theorem VeCtx.exec_xalu (h : r.ins.op = 0x29) : c.exec r.prog r.ins base free
    = (c.setX r.ins.d (xAlu (sFmt r.prog.vfmt) r.ins.sub (c.xreg r.ins.a) (c.xreg r.ins.b) free).1,
      (xAlu (sFmt r.prog.vfmt) r.ins.sub (c.xreg r.ins.a) (c.xreg r.ins.b) free).2) := by
  unfold VeCtx.exec; rw [h]; rfl

/-- What KOP writes. -/
def kopMask (sub a b : Nat) : Nat :=
  if sub = 0 then a &&& b else if sub = 1 then a ||| b else if sub = 2 then a ^^^ b else a &&& ((2 ^ 128 - 1) ^^^ b)

theorem kopMask_testBit (sub a b : Nat) {n : Nat} (hn : n < 128) : (kopMask sub a b).testBit n
    = if sub = 0 then a.testBit n && b.testBit n else if sub = 1 then a.testBit n || b.testBit n
      else if sub = 2 then a.testBit n != b.testBit n else a.testBit n && !b.testBit n := by
  unfold kopMask
  split
  · exact Nat.testBit_and ..
  split
  · exact Nat.testBit_or ..
  split
  · exact Nat.testBit_xor ..
  · rw [Nat.testBit_and, Nat.testBit_xor, two_pow_128_testBit hn, Bool.true_xor]

theorem VeCtx.exec_kop (h : r.ins.op = 0x2A) : c.exec r.prog r.ins base free
    = (c.setK r.ins.d (kopMask r.ins.sub (c.kreg r.ins.a) (c.kreg r.ins.b)), 0) := by
  unfold VeCtx.exec; rw [h]; rfl

theorem VeCtx.exec_vfn (h : r.ins.op = 0x30) : c.exec r.prog r.ins base free
    = (c.setV r.prog.vfmt r.ins (fun n => (sfuFn r.ins.fn r.prog.vfmt (widen32 r.prog.vfmt (c.lane r.prog.vfmt r.ins.a n))).1),
      c.gather r.ins.k (fun n => (sfuFn r.ins.fn r.prog.vfmt (widen32 r.prog.vfmt (c.lane r.prog.vfmt r.ins.a n))).2)) := by
  unfold VeCtx.exec; rw [h]; rfl

end

section
variable {s : State} {r : VeRun} {c : VeCtx}

theorem red_joins (h : s.blk.veAt 0x20 r c = true) : Completes .red s (fun b =>
    tget RowAcc.empty r.ins.d b.veCtx.ra = (r.reduced c).1
    ∧ (∀ j, j < 4 → j ≠ r.ins.d → tget RowAcc.empty j b.veCtx.ra = tget RowAcc.empty j c.ra)
    ∧ b.veCtx.v = c.v ∧ b.veCtx.x = c.x ∧ b.veCtx.k = c.k ∧ SameMem s.blk b ∧ b.regs = s.blk.regs) := by
  refine (Completes.register (exec_red s) h rfl (VeCtx.exec_red _ (Blk.veAt_op h))).imp ?_
  rintro b ⟨hctx, -, hmem, hregs⟩
  rw [hctx]
  exact ⟨tget_tset_same _ _ _ _, fun j _ hj => tget_tset_other _ _ hj _, rfl, rfl, rfl, hmem, hregs⟩

theorem VeRun.imm_lt (r : VeRun) : r.ins.imm < 2 ^ 32 := Nat.mod_lt _ (Nat.two_pow_pos 32)

theorem xset_writes (h : s.blk.veAt 0x28 r c = true) : Completes .xset s (fun b => b.veCtx.xreg r.ins.d = r.ins.imm
    ∧ (∀ j, j < 16 → j ≠ r.ins.d → b.veCtx.xreg j = c.xreg j)
    ∧ b.veCtx.v = c.v ∧ b.veCtx.k = c.k ∧ b.veCtx.ra = c.ra ∧ RunsOn s.blk b r 0) := by
  simpa only [Nat.mod_eq_of_lt r.imm_lt] using Completes.scalar (exec_xset s) h rfl (VeCtx.exec_xset _ _ (Blk.veAt_op h))

theorem kop_writes (h : s.blk.veAt 0x2A r c = true) : Completes .kop s (fun b =>
    (∀ n, n < 128 → (b.veCtx.kreg r.ins.d).testBit n
      = if r.ins.d = 0 then true
        else if r.ins.sub = 0 then (c.kreg r.ins.a).testBit n && (c.kreg r.ins.b).testBit n
        else if r.ins.sub = 1 then (c.kreg r.ins.a).testBit n || (c.kreg r.ins.b).testBit n
        else if r.ins.sub = 2 then (c.kreg r.ins.a).testBit n != (c.kreg r.ins.b).testBit n
        else (c.kreg r.ins.a).testBit n && !(c.kreg r.ins.b).testBit n)
    ∧ (∀ j, j < 8 → j ≠ r.ins.d → b.veCtx.kreg j = c.kreg j) ∧ b.veCtx.v = c.v ∧ b.veCtx.x = c.x ∧ RunsOn s.blk b r 0) := by
  refine (Completes.mask (exec_kop s) h rfl (VeCtx.exec_kop _ _ (Blk.veAt_op h))).imp ?_
  rintro b ⟨hbits, hrest⟩
  exact ⟨fun n hn => (hbits n hn).trans (by rw [kopMask_testBit _ _ _ hn]), hrest⟩

end

/-- Settles O32: RED writes a row accumulator, RGET, XSET and XALU a scalar, KOP a mask, and VFN a vector. -/
theorem vectorScalars : Obligations.VectorScalars :=
  ⟨fun _ _ _ h => red_joins h,
    fun s _ _ h => .scalar (exec_rget s) h rfl (VeCtx.exec_rget _ _ (Blk.veAt_op h)),
    fun _ _ _ h => xset_writes h,
    fun s _ _ h => .scalar (exec_xalu s) h rfl (VeCtx.exec_xalu _ _ (Blk.veAt_op h)),
    fun _ _ _ h => kop_writes h,
    fun s r _ h => .lanes (exec_vfn s) h rfl (k := r.ins.k) (VeCtx.exec_vfn _ _ (Blk.veAt_op h))⟩

end Sys2Proof.Machine
end

section
/-! Proofs: what work on tensors leaves of the hub's engines and of the entries in flight (R207, R221, R263, R279, R335). -/

namespace Sys2Proof.Machine
open Sys2Proof

/-! ### Accesses and requests -/

theorem MemFrame.hub {a b : Blk} (h : MemFrame a b) : b.hub = a.hub := by
  obtain ⟨⟨_, _, _, _, rfl⟩, -⟩ := h
  rfl

theorem MemFrame.flights {a b : Blk} (h : MemFrame a b) : b.flights = a.flights := by
  obtain ⟨⟨_, _, _, _, rfl⟩, -⟩ := h
  rfl

theorem OffLayout.hub {a b : Blk} (h : OffLayout a b) : b.hub = a.hub := by
  obtain ⟨⟨_, _, _, _, _, _, rfl⟩, -⟩ := h
  rfl

section
variable (b : Blk) (m len : Nat)

theorem Blk.askExit_hub : (b.askExit m len).hub = b.hub := by
  obtain ⟨_, _, h⟩ := Blk.askExit_asked (a := b) ⟨_, _, rfl⟩ m len
  rw [h]

theorem Blk.askExit_flights : (b.askExit m len).flights = b.flights := by
  obtain ⟨_, _, h⟩ := Blk.askExit_asked (a := b) ⟨_, _, rfl⟩ m len
  rw [h]

end

theorem Blk.otherWrite_memFrame (b : Blk) (rq : Req) (m : Nat) (d : Bytes) : MemFrame b (b.otherWrite rq m d).1 := by
  unfold Blk.otherWrite
  split
  · exact writeRange_memFrame _ _ _ _
  · refine foldl_keeps (P := fun x : Blk × Nat => MemFrame b x.1) (fun x p h => ?_) _ (z := (b, stOK)) (.rfl' b)
    exact h.trans (writeRange_memFrame x.1 _ _ _)

/-- What an entry wrote in slots is noted with the window alone. -/
theorem Blk.noteSlots_eq (b : Blk) (q seq m len : Nat) : ∃ x, b.noteSlots q seq m len = { b with win := x } := by
  unfold Blk.noteSlots
  split
  · exact ⟨b.win, rfl⟩
  · refine foldl_keeps (P := fun c : Blk => ∃ x, c = { b with win := x }) (fun c i h => ?_) _ ⟨b.win, rfl⟩
    obtain ⟨x, rfl⟩ := h
    dsimp only
    split <;> exact ⟨_, rfl⟩

theorem Blk.noteSlots_hub (b : Blk) (q seq m len : Nat) : (b.noteSlots q seq m len).hub = b.hub := by
  obtain ⟨x, h⟩ := b.noteSlots_eq q seq m len
  rw [h]

/-! ### Reads -/

/-- Work after reads: the hub's engines and the entries in flight are as they were, and nothing more waits to be written on
other modules. -/
structure HubReads (v w : Wk) : Prop where
  hub : w.b.hub = v.b.hub
  flights : w.b.flights = v.b.flights
  out : w.out = v.out

theorem HubReads.rfl' (w : Wk) : HubReads w w := ⟨rfl, rfl, rfl⟩

theorem HubReads.trans {u v w : Wk} (h : HubReads u v) (g : HubReads v w) : HubReads u w :=
  ⟨g.hub.trans h.hub, g.flights.trans h.flights, g.out.trans h.out⟩

section
variable (w : Wk) (d : Desc) (ixs : List Int)

theorem Wk.fail_hubReads (st : Nat) : HubReads w (w.fail st) := by
  unfold Wk.fail
  split <;> exact ⟨rfl, rfl, rfl⟩

theorem Wk.flag_hubReads (f : Nat) : HubReads w (w.flag f) := ⟨rfl, rfl, rfl⟩

theorem Wk.read_hubReads (a len : Nat) : HubReads w (w.read a len).1 := by
  unfold Wk.read
  split
  · exact .rfl' w
  split
  · extract_lets m r v
    have hr := readRange_memFrame w.b w.rq m len
    have hv : HubReads w v := ⟨hr.hub, hr.flights, rfl⟩
    split
    · exact ⟨Blk.askExit_hub _ _ _, Blk.askExit_flights _ _ _, rfl⟩
    split
    · exact hv.trans (v.fail_hubReads _)
    · split
      · exact hv.trans (v.flag_hubReads _)
      · exact hv
  split
  · exact w.fail_hubReads _
  split
  · exact .rfl' w
  · exact ⟨rfl, rfl, rfl⟩

theorem Wk.units_hubReads (n : Nat) (as : List Nat) : HubReads w (w.units n as).1 :=
  foldl_keeps (P := fun s : Wk × List (Nat × Bytes) => HubReads w s.1) (fun s r h => h.trans (s.1.read_hubReads r.1 r.2)) _
    (z := (w, [])) (.rfl' w)

theorem Wk.readFlags_hubReads (l : Loc) : HubReads w (w.readFlags l) := by
  unfold Wk.readFlags
  dsimp only
  split <;> split <;> exact ⟨rfl, rfl, rfl⟩

theorem Wk.elems_hubReads (es : List Nat) : HubReads w (w.elems d ixs es).1 :=
  (foldl_keeps (P := HubReads w) (fun v l h => h.trans (v.readFlags_hubReads l)) _ (.rfl' w)).trans (Wk.units_hubReads _ _ _)

theorem Wk.elem_hubReads (e : Nat) : HubReads w (w.elem d ixs e).1 := w.elems_hubReads d ixs [e]

theorem Wk.indices_hubReads : HubReads w (w.indices d).1 := by
  unfold Wk.indices
  split
  · split
    · exact w.fail_hubReads _
    · exact w.elems_hubReads _ _ _
  · exact .rfl' w

theorem Wk.bytes_hubReads (e n : Nat) : HubReads w (w.bytes d e n).1 := (w.indices_hubReads d).trans (Wk.elems_hubReads _ _ _ _)

theorem Wk.scatterOk_hubReads : HubReads w (w.scatterOk d ixs) := by
  unfold Wk.scatterOk
  dsimp only
  split
  · split
    · exact w.fail_hubReads _
    · split
      · exact .rfl' w
      · exact w.fail_hubReads _
  · exact .rfl' w

theorem Wk.outsOk_hubReads (ds : List Desc) : HubReads w (w.outsOk ds) :=
  foldl_keeps (P := HubReads w) (fun v d h => (h.trans (v.indices_hubReads d)).trans (Wk.scatterOk_hubReads _ _ _)) ds (.rfl' w)

theorem Wk.vLoad_hubReads (e n : Nat) : HubReads w (w.vLoad d e n).1 := by
  have hi := w.indices_hubReads d
  unfold Wk.vLoad
  generalize w.indices d = r at hi ⊢
  obtain ⟨v, ixs⟩ := r
  dsimp only
  split
  · exact hi.trans (Wk.elem_hubReads _ _ _ _)
  · exact hi.trans (Wk.elems_hubReads _ _ _ _)

theorem Wk.vRow_hubReads (old : List Elem) (len : Nat) : HubReads w (w.vRow d old len).1 := by
  unfold Wk.vRow
  split
  · exact .rfl' w
  · exact (w.indices_hubReads d).trans (Wk.elems_hubReads _ _ _ _)

theorem Wk.rowsOf_hubReads (k r0 len : Nat) : HubReads w (w.rowsOf d ixs k r0 len).1 := by
  induction len generalizing w r0 with
  | zero => exact .rfl' w
  | succ n ih => exact (w.elems_hubReads d ixs _).trans (ih _ _)

theorem Wk.tileSums_hubReads (e : Bytes) (xd : Desc) (t : Nat) : HubReads w (w.tileSums e d xd t).1 :=
  (((w.indices_hubReads d).trans (Wk.indices_hubReads _ xd)).trans (Wk.rowsOf_hubReads _ d _ _ _ _)).trans
    (Wk.rowsOf_hubReads _ xd _ _ _ _)

end

/-! ### Writes -/

/-- The hub's engines are as they were, and so is what every entry in flight was posted as. -/
structure HubStands (a b : Blk) : Prop where
  hub : b.hub = a.hub
  idents : b.flights.map Flight.ident = a.flights.map Flight.ident

theorem HubStands.rfl' (a : Blk) : HubStands a a := ⟨rfl, rfl⟩

theorem HubStands.trans {a b c : Blk} (h : HubStands a b) (g : HubStands b c) : HubStands a c :=
  ⟨g.hub.trans h.hub, g.idents.trans h.idents⟩

theorem Stands.toHub {a b : Blk} (h : Stands a b) (hhub : b.hub = a.hub) : HubStands a b := ⟨hhub, h.idents⟩

theorem MemFrame.hubStands {a b : Blk} (h : MemFrame a b) : HubStands a b := (Stands.of_memFrame h).toHub h.hub

theorem HubReads.stands {v w : Wk} (h : HubReads v w) : HubStands v.b w.b := ⟨h.hub, by rw [h.flights]⟩

/-- An entry in flight is still in flight. -/
theorem HubStands.flight? {a b : Blk} (h : HubStands a b) {q seq : Nat} {f : Flight} (hf : a.flight? q seq = some f) :
    ∃ g, b.flight? q seq = some g := by
  obtain ⟨g, hg, -⟩ := Stands.flight? (a := { a with cu := b.cu }) (b := b) ⟨rfl, h.idents⟩ hf
  exact ⟨g, hg⟩

section
variable (w : Wk)

/-- What leaves for other modules changes entries, links and transactions (R279, R335). -/
theorem Wk.sent_hubStands : HubStands w.b w.sent.b := by
  refine (Wk.sent_stands (.rfl' w.b)).toHub ?_
  unfold Wk.sent
  split
  · rfl
  extract_lets ps b b' w'
  have hb : b.hub = w.b.hub := by unfold b; split <;> rfl
  have hb' : w'.b.hub = w.b.hub := by
    show b'.hub = _
    unfold b'
    split
    · exact hb
    · split
      · exact (Blk.sendOut_offLayout _ _ _ _).hub.trans hb
      · exact hb
  split
  · exact hb
  split
  · exact hb'
  · split
    · rwa [Wk.fail_b]
    · exact hb'

theorem Wk.writeN_hubStands (m : Nat) (d : Bytes) (n : Nat) : HubStands w.b (w.writeN m d n).b := by
  have ho := (w.b.otherWrite_memFrame w.rq (haMpa m) d).hubStands
  unfold Wk.writeN
  split
  · exact .rfl' _
  split
  · extract_lets m'
    split
    · exact ⟨Blk.askExit_hub _ _ _, by rw [Blk.askExit_flights]⟩
    · generalize w.b.otherWrite w.rq m' d = r at ho ⊢
      obtain ⟨c, s⟩ := r
      dsimp -zeta only
      extract_lets k w'
      have hw' : HubStands w.b w'.b := by
        show HubStands w.b (if _ then _ else _)
        split
        · exact ho.trans (((Stands.updFlight c _ _).trans (Blk.noteSlots_stands _ _ _ _ _)).toHub (Blk.noteSlots_hub _ _ _ _ _))
        · exact ho
      split
      · rwa [Wk.fail_b]
      · exact hw'
  split
  · rw [Wk.fail_b]
    exact .rfl' _
  · exact .rfl' _

theorem Wk.writeRuns_hubStands (l : List (Nat × Bytes × Nat)) : HubStands w.b (w.writeRuns l).b := by
  induction l generalizing w with
  | nil => exact .rfl' _
  | cons p t ih => exact (w.writeN_hubStands _ _ _).trans (ih _)

theorem Wk.putInBlock_hubStands (fmt : Nat) (p : Loc × Nat) : HubStands w.b (w.putInBlock fmt p).b := by
  have hr := (w.read_hubReads p.1.addr (blkBytes fmt)).stands
  unfold Wk.putInBlock
  extract_lets n
  generalize w.read p.1.addr (blkBytes fmt) = r at hr ⊢
  obtain ⟨v, u⟩ := r
  exact hr.trans (Wk.writeN_hubStands _ _ _ _)

theorem Wk.putAt_hubStands (d : Desc) (ixs : List Int) (es : List (Nat × Nat)) : HubStands w.b (w.putAt d ixs es).b := by
  have hl : HubStands w.b (w.landing d ixs es).1.b :=
    foldl_keeps (P := fun s : Wk × List (Loc × Nat) => HubStands w.b s.1.b)
      (fun s e h => by
        dsimp only
        unfold Wk.lands
        repeat' split
        all_goals exact h) _ (z := (w, [])) (.rfl' _)
  unfold Wk.putAt
  generalize w.landing d ixs es = r at hl ⊢
  obtain ⟨v, ls⟩ := r
  dsimp only
  split
  · exact foldl_keeps (P := fun v : Wk => HubStands w.b v.b) (fun v p h => h.trans (v.putInBlock_hubStands _ p)) _ hl
  · split
    · exact (hl.trans (v.units_hubReads _ _).stands).trans (Wk.writeRuns_hubStands _ _)
    · exact hl.trans (Wk.writeRuns_hubStands _ _)

theorem Wk.putVals_hubStands (d : Desc) (ixs : List Int) (e0 : Nat) (xs : List Ex) : HubStands w.b (w.putVals d ixs e0 xs).b := by
  unfold Wk.putVals
  extract_lets rs v
  have hv : HubStands w.b v.b :=
    foldl_keeps (P := fun v : Wk => HubStands w.b v.b) (f := fun v (r : Nat × Flags) => v.flag r.2) (fun _ _ h => h) rs (.rfl' _)
  exact hv.trans (Wk.putAt_hubStands _ _ _ _)

end

/-! ### Work that goes on -/

section
variable {w : Wk}

theorem Wk.bad_eq_false : w.bad = false ↔ w.st = stOK := by simp [Wk.bad]

@[simp] theorem Wk.fail_flags (st : Nat) : (w.fail st).flags = w.flags := by unfold Wk.fail; split <;> rfl

theorem Wk.sent_flags : w.sent.flags = w.flags := by
  unfold Wk.sent
  split
  · rfl
  dsimp only
  split
  · rfl
  split
  · rfl
  split
  · exact Wk.fail_flags _
  · rfl

variable (w) in
theorem Wk.fail_flag (fl st : Nat) : (w.flag fl).fail st = (w.fail st).flag fl := by
  unfold Wk.fail
  rw [apply_ite (fun v : Wk => v.flag fl)]
  rfl

variable (w) in
/-- Flags that work raises are of no account to what it sends. -/
theorem Wk.sent_flag (fl : Nat) : (w.flag fl).sent = w.sent.flag fl := by
  unfold Wk.sent
  rw [apply_ite (fun v : Wk => v.flag fl)]
  refine ite_congr rfl (fun _ => rfl) fun _ => ?_
  extract_lets ps b b' u ps₂ b₂ b₂' v
  rw [apply_ite (fun v : Wk => v.flag fl)]
  refine ite_congr rfl (fun _ => rfl) fun _ => ?_
  have hfound : b₂'.flight? v.q v.seq = b'.flight? u.q u.seq := rfl
  have hfail := v.fail_flag fl
  rw [hfound]
  generalize b'.flight? u.q u.seq = g
  cases g with
  | none => rfl
  | some f =>
    dsimp only
    rw [apply_ite (fun v : Wk => v.flag fl)]
    exact ite_congr rfl (fun _ => hfail _) fun _ => rfl

/-- Where nothing was written on other modules, what LAST remembers is kept with the entry, and nothing leaves. -/
theorem Wk.sent_of_out_nil (h : w.out = []) : ∃ l, w.sent = { w with b := { w.b with flights := l } } := by
  unfold Wk.sent
  split
  · exact ⟨w.b.flights, rfl⟩
  simp only [h, List.reverse_nil, List.flatMap_nil, List.isEmpty_nil, if_true]
  split <;> exact ⟨_, rfl⟩

/-- Work goes on whatever flags are raised. -/
theorem Wk.goesOn_flag (h : w.goesOn = true) (fl : Nat) : (w.flag fl).goesOn = true := by
  obtain ⟨hbad, hneed, hstall, hsent⟩ := Wk.goesOn_iff.1 h
  exact Wk.goesOn_iff.2 ⟨hbad, hneed, hstall, by rw [Wk.sent_flag]; exact hsent⟩

end

end Sys2Proof.Machine
end

section
/-! Proofs: the loads and stores of the vector engine (R214, R218, R221, R227). -/

namespace Sys2Proof.Machine
open Sys2Proof

/-! ### The end of a memory instruction -/

/-- Work that has written nothing on other modules goes on where it met no error and waits for nothing. -/
theorem Wk.goesOn_of_out_nil {w : Wk} (h : w.out = []) :
    w.goesOn = true ↔ w.bad = false ∧ w.need = [] ∧ w.stall = false := by
  obtain ⟨l, hl⟩ := Wk.sent_of_out_nil h
  have hsent : w.sent.bad = w.bad := by rw [hl]; rfl
  rw [Wk.goesOn_iff, hsent]
  exact ⟨fun ⟨hbad, hneed, hstall, _⟩ => ⟨hbad, hneed, hstall⟩, fun ⟨hbad, hneed, hstall⟩ => ⟨hbad, hneed, hstall, hbad⟩⟩

/-- Such work goes on whatever else the block holds. -/
theorem Wk.goesOn_withBlk {w : Wk} (h : w.out = []) (hgo : w.goesOn = true) (b : Blk) : ({ w with b := b } : Wk).goesOn = true :=
  (Wk.goesOn_of_out_nil (w := { w with b := b }) h).2 ((Wk.goesOn_of_out_nil h).1 hgo)

/-- Where its work goes on, a memory instruction puts its run and its registers back. -/
theorem Blk.veCommit_goesOn {w : Wk} (h : w.goesOn = true) {r : VeRun} (hst : r.st = stOK) (b : Blk) (c : VeCtx) (fl : Flags) :
    b.veCommit w r c fl = w.sent.b.setVe { r.next with flags := r.flags ||| w.flags ||| fl } c := by
  obtain ⟨hasks, hbad⟩ := Wk.asks_goesOn h b
  have hnext : r.next.st = stOK := r.next_st.trans hst
  unfold Blk.veCommit
  rw [hasks]
  dsimp only
  rw [if_pos hst, Wk.bad_eq_false.1 hbad, Wk.sent_flags, ← hnext]

/-- A memory instruction whose work goes on: the run goes to its next instruction, and memory is what the work left. -/
theorem Completes.stream {i : Instr} {s : State} {op : Nat} {r r' : VeRun} {c c' : VeCtx} {f : Flight} {w : Wk} {fl : Flags}
    (hexec : exec i s = hubAct s (fun b => b.veStep op)) (hat : s.blk.veAt op r c = true) (hop : streamOps.contains op = true)
    (hf : s.blk.flight? r.q r.seq = some f) (hmem : s.blk.veMem f r c r.ins = s.blk.veCommit w r' c' fl) (hgo : w.goesOn = true)
    (hst : r'.st = stOK) (hact : w.b.hub.active = s.blk.hub.active) :
    Completes i s (fun b => b.hub.current = some ({ r'.next with flags := r'.flags ||| w.flags ||| fl }, c')
      ∧ b.mem = w.b.mem ∧ b.regs = w.sent.b.regs) := by
  obtain ⟨hup, -⟩ := Blk.veAt_spec hat
  have hactive : w.sent.b.hub.active = 1 ∨ w.sent.b.hub.active = 2 := by
    rw [w.sent_hubStands.hub, hact]
    exact Blk.veAt_active hat
  refine .of_hub hexec hup ?_
  rw [Blk.veStep_stream hat hop hf, hmem, Blk.veCommit_goesOn hgo hst, settle_hub, settle_mem, settle_regs]
  exact ⟨Blk.setVe_current _ _ hactive, (Blk.setVe_mem _ _ _).trans w.sent_mem, Blk.setVe_regs _ _ _⟩

/-! ### What each instruction works on -/

section
variable (b : Blk) (f : Flight) (r : VeRun) (c : VeCtx) (d : Desc)

/-- The element of a stream at lane 0, and its position for SCMP and LDX. -/
def Blk.lane0 : Nat := r.elem0 f.raw (b.hub.active == 1)
def VeRun.streamPos (r : VeRun) : Nat := r.pos.getD r.ins.s 0

/-- The work of a hub engine that has read the index tensor of a stream. -/
def Blk.streamWork : Wk := ((Wk.hub b f 6).indices d).1

/-- The elements that ST stores where not every lane is active. -/
def Blk.stWork : Wk :=
  (c.lanes r.ins.k).foldl (fun (w : Wk) n => w.putVals d ((Wk.hub b f 6).indices d).2 (b.lane0 f r + n) [r.inA c n]) (b.streamWork f d)

/-- The bytes that LDK reads. -/
def Blk.ldkWork : Wk × Bytes := (Wk.hub b f 6).bytes d (b.lane0 f r / 8) ((b.lane0 f r % 8 + c.vl + 7) / 8)

/-- The elements that SCMP stores. -/
def Blk.scmpWork : Wk := (b.streamWork f d).putVals d ((Wk.hub b f 6).indices d).2 r.streamPos ((c.lanes r.ins.k).map (r.inA c))

/-- The lanes that LDX fills before the stream's end, and the elements that it reads. -/
def VeRun.ldxLanes : List Nat := (c.lanes r.ins.k).take (Dsc.count d - r.streamPos)
def Blk.ldxWork : Wk × List Elem :=
  (b.streamWork f d).elems d ((Wk.hub b f 6).indices d).2 ((List.range (r.ldxLanes c d).length).map (r.streamPos + ·))

/-- The element that LDS reads, and the one that STS stores. -/
def Blk.ldsWork : Wk × Elem := (b.streamWork f d).elem d ((Wk.hub b f 6).indices d).2 r.row
def Blk.stsWork : Wk :=
  (b.streamWork f d).putVals d ((Wk.hub b f 6).indices d).2 r.row [decElem (sFmt r.prog.vfmt) (c.xreg r.ins.a)]

end

/-! ### The instructions on a stream that the entry names -/

section
variable {b : Blk} {f : Flight} {r : VeRun} {c : VeCtx} {d : Desc} (hs : b.stream f (b.hub.active == 1) r.ins.s = some d)
include hs

theorem Blk.veMem_ld (hop : r.ins.op = 0x18) (hepi : b.hub.active = 1 → r.ins.s ≠ 0) (hbad : (b.ldRead f r d c.vl).1.bad = false) :
    b.veMem f r c r.ins = b.veCommit (b.ldRead f r d c.vl).1 (b.ldRead f r d c.vl).2.2
      (c.setV r.prog.vfmt r.ins (fun n => (encElem r.prog.vfmt ((b.ldRead f r d c.vl).2.1.getD n .zero)).1))
      (c.gather r.ins.k (fun n => (encElem r.prog.vfmt ((b.ldRead f r d c.vl).2.1.getD n .zero)).2)) := by
  unfold Blk.veMem
  rw [hop]
  dsimp only
  rw [if_neg (by simpa using hepi), hs]
  dsimp only
  rw [if_pos rfl, VeCtx.take, hbad]
  rfl

theorem Blk.veMem_st (hop : r.ins.op = 0x19) (hpart : (c.lanes r.ins.k).length ≠ c.vl) :
    b.veMem f r c r.ins = b.veCommit (b.stWork f r c d) r c (nanFlags ((c.lanes r.ins.k).map (r.inA c))) := by
  unfold Blk.veMem
  rw [hop]
  dsimp only
  rw [if_neg (by simp), hs]
  dsimp only
  rw [if_neg (by decide), if_pos rfl, if_neg hpart]
  rfl

theorem Blk.veMem_ldk (hop : r.ins.op = 0x1A) (hbad : (b.ldkWork f r c d).1.bad = false) :
    b.veMem f r c r.ins
      = b.veCommit { (b.ldkWork f r c d).1 with b := { (b.ldkWork f r c d).1.b with ctr := (b.ldkWork f r c d).1.b.ctr + 1 } } r
        (c.setK r.ins.d (leNat (b.ldkWork f r c d).2 / 2 ^ (b.lane0 f r % 8) % 2 ^ c.vl)) 0 := by
  unfold Blk.veMem
  rw [hop]
  dsimp only
  rw [if_neg (by simp), hs]
  dsimp only
  unfold Blk.ldkWork Blk.lane0 at hbad ⊢
  rw [if_neg (by decide), if_neg (by decide), if_pos rfl, hbad, if_neg Bool.false_ne_true]

/-- The run after SCMP or LDX has moved `n` elements of its stream. -/
def VeRun.moved (r : VeRun) (n : Nat) : VeRun := { r with pos := r.pos.set r.ins.s (r.streamPos + n) }

theorem Blk.veMem_scmp (hop : r.ins.op = 0x1B) (hroom : r.streamPos + (c.lanes r.ins.k).length ≤ Dsc.count d) :
    b.veMem f r c r.ins = b.veCommit (b.scmpWork f r c d)
      { r.moved (c.lanes r.ins.k).length with stored := r.stored + (c.lanes r.ins.k).length } c
      (nanFlags ((c.lanes r.ins.k).map (r.inA c))) := by
  have htake : (c.lanes r.ins.k).take (Dsc.count d - r.pos.getD r.ins.s 0) = c.lanes r.ins.k :=
    List.take_of_length_le (by rw [VeRun.streamPos] at hroom; omega)
  unfold Blk.veMem
  rw [hop]
  dsimp only
  rw [if_neg (by simp), hs]
  dsimp only
  rw [if_neg (by decide), if_neg (by decide), if_neg (by decide), if_pos rfl, htake, if_neg (Nat.lt_irrefl _)]
  rfl

/-- The work of LDX, with FILL where the stream ends before its lanes do. -/
def Blk.ldxFilled (b : Blk) (f : Flight) (r : VeRun) (c : VeCtx) (d : Desc) : Wk :=
  if (r.ldxLanes c d).length < (c.lanes r.ins.k).length then (b.ldxWork f r c d).1.flag flagFill else (b.ldxWork f r c d).1

/-- The value that LDX converts for a lane. -/
def Blk.ldxValue (b : Blk) (f : Flight) (r : VeRun) (c : VeCtx) (d : Desc) (p : Nat) : Ex :=
  ((b.ldxWork f r c d).2.map (fun x => x.val d.fmt)).getD p .zero

theorem Blk.veMem_ldx (hop : r.ins.op = 0x1C) (hbad : (b.ldxFilled f r c d).bad = false) :
    b.veMem f r c r.ins = b.veCommit (b.ldxFilled f r c d) (r.moved (r.ldxLanes c d).length)
      (c.setV r.prog.vfmt r.ins (fun n => (encElem r.prog.vfmt (b.ldxValue f r c d ((indexIn (c.lanes r.ins.k) n).getD 0))).1))
      (c.gather r.ins.k (fun n => (encElem r.prog.vfmt (b.ldxValue f r c d ((indexIn (c.lanes r.ins.k) n).getD 0))).2)) := by
  unfold Blk.veMem
  rw [hop]
  dsimp only
  rw [if_neg (by simp), hs]
  dsimp only
  rw [if_neg (by decide), if_neg (by decide), if_neg (by decide), if_neg (by decide), if_pos rfl]
  unfold Blk.ldxFilled Blk.ldxWork VeRun.ldxLanes Blk.streamWork VeRun.streamPos at hbad
  rw [VeCtx.take, hbad]
  rfl

theorem Blk.veMem_lds (hop : r.ins.op = 0x1D) (hbad : (b.ldsWork f r d).1.bad = false) :
    b.veMem f r c r.ins = b.veCommit (b.ldsWork f r d).1 r
      (c.setX r.ins.d (encElem (sFmt r.prog.vfmt) ((b.ldsWork f r d).2.val d.fmt)).1)
      (encElem (sFmt r.prog.vfmt) ((b.ldsWork f r d).2.val d.fmt)).2 := by
  unfold Blk.veMem
  rw [hop]
  dsimp only
  rw [if_neg (by simp), hs]
  dsimp only
  rw [if_neg (by decide), if_neg (by decide), if_neg (by decide), if_neg (by decide), if_neg (by decide), if_pos rfl]
  unfold Blk.ldsWork Blk.streamWork at hbad ⊢
  rw [hbad, if_neg Bool.false_ne_true, if_neg Bool.false_ne_true, Nat.add_zero, vEnc]

theorem Blk.veMem_sts (hop : r.ins.op = 0x1E) (hsub : r.ins.sub = 0) :
    b.veMem f r c r.ins = b.veCommit (b.stsWork f r c d) r c (nanFlags [decElem (sFmt r.prog.vfmt) (c.xreg r.ins.a)]) := by
  unfold Blk.veMem
  rw [hop]
  dsimp only
  rw [if_neg (by simp), hs]
  dsimp only
  rw [if_neg (by decide), if_neg (by decide), if_neg (by decide), if_neg (by decide), if_neg (by decide), if_neg (by decide), hsub,
    if_neg (by decide), if_neg (by decide)]
  rfl

end

/-! ### What the reads of a stream leave -/

section
variable (b : Blk) (f : Flight) (r : VeRun) (c : VeCtx) (d : Desc)

theorem Blk.streamWork_hubReads : HubReads (Wk.hub b f 6) (b.streamWork f d) := Wk.indices_hubReads _ _

/-- A row that repeats is kept with the run, or with the tiles of its entry. -/
theorem Blk.veRepeat_keeps {w : Wk} (h : HubReads (Wk.hub b f 6) w) (s p n : Nat) (epi : Bool) :
    (b.veRepeat w r d s p n epi).1.b.hub.active = b.hub.active ∧ (b.veRepeat w r d s p n epi).1.out = []
      ∧ ∃ x, (b.veRepeat w r d s p n epi).2.2 = { r with held := x } := by
  unfold Blk.veRepeat
  extract_lets len old
  have hrow := h.trans (w.vRow_hubReads d old len)
  generalize w.vRow d old len = v at hrow ⊢
  obtain ⟨v, row⟩ := v
  have hact : v.b.hub.active = b.hub.active := congrArg HubSt.active hrow.hub
  dsimp only
  split
  · exact ⟨hact, hrow.out, _, rfl⟩
  split
  · exact ⟨hact, hrow.out, _, rfl⟩
  · exact ⟨hact, hrow.out, _, rfl⟩

theorem Blk.ldRead_keeps (n : Nat) : (b.ldRead f r d n).1.b.hub.active = b.hub.active ∧ (b.ldRead f r d n).1.out = []
    ∧ ∃ x, (b.ldRead f r d n).2.2 = { r with held := x } := by
  unfold Blk.ldRead
  dsimp only
  split
  · exact b.veRepeat_keeps f r d (.rfl' _) _ _ _ _
  split
  · exact b.veRepeat_keeps f r d (.rfl' _) _ _ _ _
  · have hload := (Wk.hub b f 6).vLoad_hubReads d (r.elem0 f.raw (b.hub.active == 1)) n
    exact ⟨congrArg HubSt.active hload.hub, hload.out, _, rfl⟩

/-- A stream that does not repeat is read from its place. -/
theorem Blk.ldRead_plain (n : Nat) (h : Dsc.repeats d (if b.hub.active = 1 then Tmm.n f.raw else r.len) = false) :
    b.ldRead f r d n = (((Wk.hub b f 6).vLoad d (b.lane0 f r) n).1, ((Wk.hub b f 6).vLoad d (b.lane0 f r) n).2, r) := by
  unfold Blk.ldRead
  by_cases hact : b.hub.active = 1
  · rw [if_pos hact] at h
    simp [hact, h, Blk.lane0]
  · rw [if_neg hact] at h
    simp [hact, h, Blk.lane0]

end

/-! ### The instructions, from their issue -/

section
variable {s : State} {f : Flight} {r : VeRun} {c : VeCtx} {d : Desc}

theorem ld_fills (hat : s.blk.veAt 0x18 r c = true) (hf : s.blk.flight? r.q r.seq = some f)
    (hs : s.blk.stream f (s.blk.hub.active == 1) r.ins.s = some d) (hepi : s.blk.hub.active = 1 → r.ins.s ≠ 0)
    (hgo : (s.blk.ldRead f r d c.vl).1.goesOn = true) (hst : r.st = stOK) : Completes .ld s (fun b =>
      let x := s.blk.ldRead f r d c.vl
      LanesAre c b.veCtx r r.ins.k (fun n => (encElem r.prog.vfmt (x.2.1.getD n .zero)).1)
      ∧ b.hub.current.map (fun y => y.1) = some { x.2.2.next with
          flags := r.flags ||| x.1.flags ||| c.gather r.ins.k (fun n => (encElem r.prog.vfmt (x.2.1.getD n .zero)).2) }
      ∧ (Dsc.repeats d (if s.blk.hub.active = 1 then Tmm.n f.raw else r.len) = false →
          x = (((Wk.hub s.blk f 6).vLoad d (s.blk.lane0 f r) c.vl).1, ((Wk.hub s.blk f 6).vLoad d (s.blk.lane0 f r) c.vl).2, r))
      ∧ b.mem = x.1.b.mem ∧ b.regs = x.1.b.regs) := by
  obtain ⟨hact, hout, y, hrun⟩ := s.blk.ldRead_keeps f r d c.vl
  obtain ⟨hbad, -⟩ := Wk.goesOn_iff.1 hgo
  obtain ⟨l, hsent⟩ := Wk.sent_of_out_nil hout
  refine (Completes.stream (exec_ld s) hat rfl hf (Blk.veMem_ld hs (Blk.veAt_op hat) hepi hbad) hgo (by rw [hrun]; exact hst) hact).imp ?_
  rintro b ⟨hcur, hmem, hregs⟩
  refine ⟨?_, ?_, s.blk.ldRead_plain f r d c.vl, hmem, by rw [hregs, hsent]⟩
  · rw [Blk.veCtx_of_current hcur]
    exact VeCtx.setV_lanesAre c r r.ins.k _
  · rw [hcur, hrun]
    rfl

theorem st_stores (hat : s.blk.veAt 0x19 r c = true) (hf : s.blk.flight? r.q r.seq = some f)
    (hs : s.blk.stream f (s.blk.hub.active == 1) r.ins.s = some d) (hpart : (c.lanes r.ins.k).length ≠ c.vl) (hst : r.st = stOK)
    (hgo : (s.blk.stWork f r c d).goesOn = true) : Completes .st s (fun b => b.veCtx = c
      ∧ b.hub.current.map (fun x => (x.1.pc, x.1.st)) = some (r.next.pc, stOK) ∧ b.mem = (s.blk.stWork f r c d).b.mem) := by
  have hwork : HubStands s.blk (s.blk.stWork f r c d).b :=
    foldl_keeps (P := fun w : Wk => HubStands s.blk w.b) (fun w n h => h.trans (w.putVals_hubStands _ _ _ _)) _
      (s.blk.streamWork_hubReads f d).stands
  refine (Completes.stream (exec_st s) hat rfl hf (Blk.veMem_st hs (Blk.veAt_op hat) hpart) hgo hst
    (congrArg HubSt.active hwork.hub)).imp ?_
  rintro b ⟨hcur, hmem, -⟩
  refine ⟨Blk.veCtx_of_current hcur, ?_, hmem⟩
  simp [hcur, hst]

theorem ldk_loads (hat : s.blk.veAt 0x1A r c = true) (hf : s.blk.flight? r.q r.seq = some f)
    (hs : s.blk.stream f (s.blk.hub.active == 1) r.ins.s = some d) (hst : r.st = stOK) (hvl : c.vl ≤ 128)
    (hgo : (s.blk.ldkWork f r c d).1.goesOn = true) : Completes .ldk s (fun b =>
      (∀ n, n < c.vl → (b.veCtx.kreg r.ins.d).testBit n
        = if r.ins.d = 0 then true else (leNat (s.blk.ldkWork f r c d).2).testBit (s.blk.lane0 f r % 8 + n))
      ∧ (∀ j, j < 8 → j ≠ r.ins.d → b.veCtx.kreg j = c.kreg j) ∧ b.veCtx.v = c.v ∧ b.veCtx.x = c.x) := by
  have hreads : HubReads (Wk.hub s.blk f 6) (s.blk.ldkWork f r c d).1 := Wk.bytes_hubReads _ _ _ _
  have hbad := (Wk.goesOn_iff.1 hgo).1
  refine (Completes.stream (exec_ldk s) hat rfl hf (Blk.veMem_ldk hs (Blk.veAt_op hat) hbad)
    (Wk.goesOn_withBlk hreads.out hgo _) hst (congrArg HubSt.active hreads.hub)).imp ?_
  rintro b ⟨hcur, -⟩
  rw [Blk.veCtx_of_current hcur]
  refine ⟨fun n hn => ?_, fun j _ hj => c.setK_other _ _ hj, c.setK_v _ _, c.setK_x _ _⟩
  rw [c.setK_testBit _ _ (Nat.lt_of_lt_of_le hn hvl), Nat.testBit_mod_two_pow, decide_eq_true hn, Bool.true_and,
    Nat.testBit_div_two_pow, Nat.add_comm]

theorem scmp_stores (hat : s.blk.veAt 0x1B r c = true) (hf : s.blk.flight? r.q r.seq = some f)
    (hs : s.blk.stream f (s.blk.hub.active == 1) r.ins.s = some d) (hst : r.st = stOK)
    (hroom : r.streamPos + (c.lanes r.ins.k).length ≤ Dsc.count d) (hgo : (s.blk.scmpWork f r c d).goesOn = true) :
    Completes .scmp s (fun b => b.hub.current.map (fun x => (x.1.pos, x.1.stored, x.1.st))
        = some (r.pos.set r.ins.s (r.streamPos + (c.lanes r.ins.k).length), r.stored + (c.lanes r.ins.k).length, stOK)
      ∧ b.mem = (s.blk.scmpWork f r c d).b.mem ∧ b.veCtx = c) := by
  have hwork := (s.blk.streamWork_hubReads f d).stands.trans (Wk.putVals_hubStands _ d ((Wk.hub s.blk f 6).indices d).2 r.streamPos
    ((c.lanes r.ins.k).map (r.inA c)))
  refine (Completes.stream (exec_scmp s) hat rfl hf (Blk.veMem_scmp hs (Blk.veAt_op hat) hroom) hgo hst
    (congrArg HubSt.active hwork.hub)).imp ?_
  rintro b ⟨hcur, hmem, -⟩
  refine ⟨?_, hmem, Blk.veCtx_of_current hcur⟩
  simp [hcur, VeRun.moved, hst]

theorem ldx_loads (hat : s.blk.veAt 0x1C r c = true) (hf : s.blk.flight? r.q r.seq = some f)
    (hs : s.blk.stream f (s.blk.hub.active == 1) r.ins.s = some d) (hst : r.st = stOK)
    (hgo : (s.blk.ldxWork f r c d).1.goesOn = true) : Completes .ldx s (fun b =>
      b.hub.current.map (fun x => x.1.pos) = some (r.pos.set r.ins.s (r.streamPos + (r.ldxLanes c d).length))
      ∧ LanesAre c b.veCtx r r.ins.k (fun n =>
          (encElem r.prog.vfmt (s.blk.ldxValue f r c d ((c.lanes r.ins.k).idxOf n))).1)) := by
  have hreads : HubReads (Wk.hub s.blk f 6) (s.blk.ldxWork f r c d).1 :=
    (s.blk.streamWork_hubReads f d).trans (Wk.elems_hubReads _ _ _ _)
  have hfilled : (s.blk.ldxFilled f r c d).goesOn = true ∧ (s.blk.ldxFilled f r c d).b.hub.active = s.blk.hub.active := by
    have hact : (s.blk.ldxWork f r c d).1.b.hub.active = s.blk.hub.active := congrArg HubSt.active hreads.hub
    unfold Blk.ldxFilled
    split
    · exact ⟨Wk.goesOn_flag hgo _, hact⟩
    · exact ⟨hgo, hact⟩
  obtain ⟨hgo', hact⟩ := hfilled
  obtain ⟨hbad, -⟩ := Wk.goesOn_iff.1 hgo'
  refine (Completes.stream (exec_ldx s) hat rfl hf (Blk.veMem_ldx hs (Blk.veAt_op hat) hbad) hgo' hst hact).imp ?_
  rintro b ⟨hcur, -⟩
  refine ⟨by simp [hcur, VeRun.moved], ?_⟩
  rw [Blk.veCtx_of_current hcur]
  exact (VeCtx.setV_lanesAre c r r.ins.k _).congr fun n hn => by rw [indexIn_of_mem hn]

theorem lds_loads (hat : s.blk.veAt 0x1D r c = true) (hf : s.blk.flight? r.q r.seq = some f)
    (hs : s.blk.stream f (s.blk.hub.active == 1) r.ins.s = some d) (hst : r.st = stOK)
    (hgo : (s.blk.ldsWork f r d).1.goesOn = true) : Completes .lds s (fun b =>
      b.veCtx.xreg r.ins.d = (encElem (sFmt r.prog.vfmt) ((s.blk.ldsWork f r d).2.val d.fmt)).1 % 2 ^ 32
      ∧ (∀ j, j < 16 → j ≠ r.ins.d → b.veCtx.xreg j = c.xreg j) ∧ b.veCtx.v = c.v ∧ b.veCtx.k = c.k) := by
  have hreads := (s.blk.streamWork_hubReads f d).trans (Wk.elem_hubReads _ d ((Wk.hub s.blk f 6).indices d).2 r.row)
  obtain ⟨hbad, -⟩ := Wk.goesOn_iff.1 hgo
  refine (Completes.stream (exec_lds s) hat rfl hf (Blk.veMem_lds hs (Blk.veAt_op hat) hbad) hgo hst
    (congrArg HubSt.active hreads.hub)).imp ?_
  rintro b ⟨hcur, -⟩
  rw [Blk.veCtx_of_current hcur]
  exact ⟨c.setX_same _ _, fun j _ hj => c.setX_other _ _ hj, rfl, rfl⟩

theorem sts_stores (hat : s.blk.veAt 0x1E r c = true) (hf : s.blk.flight? r.q r.seq = some f)
    (hs : s.blk.stream f (s.blk.hub.active == 1) r.ins.s = some d) (hst : r.st = stOK) (hsub : r.ins.sub = 0)
    (hgo : (s.blk.stsWork f r c d).goesOn = true) :
    Completes .sts s (fun b => b.veCtx = c ∧ b.mem = (s.blk.stsWork f r c d).b.mem) := by
  have hwork := (s.blk.streamWork_hubReads f d).stands.trans (Wk.putVals_hubStands _ d ((Wk.hub s.blk f 6).indices d).2 r.row
    [decElem (sFmt r.prog.vfmt) (c.xreg r.ins.a)])
  refine (Completes.stream (exec_sts s) hat rfl hf (Blk.veMem_sts hs (Blk.veAt_op hat) hsub) hgo hst
    (congrArg HubSt.active hwork.hub)).imp ?_
  rintro b ⟨hcur, hmem, -⟩
  exact ⟨Blk.veCtx_of_current hcur, hmem⟩

/-- R227: a stream that the entry does not name stops the run. -/
theorem st_unnamed (hat : s.blk.veAt 0x19 r c = true) (hf : s.blk.flight? r.q r.seq = some f) (hst : r.st = stOK)
    (hs : s.blk.stream f (s.blk.hub.active == 1) r.ins.s = none) :
    Completes .st s (fun b => b.hub.current.map (fun x => x.1) = some { r.next with st := stDESC } ∧ b.veCtx = c
      ∧ SameMem s.blk b ∧ b.regs = s.blk.regs) := by
  obtain ⟨hup, -⟩ := Blk.veAt_spec hat
  have hmem : s.blk.veMem f r c r.ins = s.blk.setVe { r.next with st := stDESC } c := by
    unfold Blk.veMem
    rw [Blk.veAt_op hat]
    dsimp only
    rw [if_neg (by simp), hs]
    dsimp only
    rw [if_pos hst]
  have hcur := Blk.setVe_current { r.next with st := stDESC } c (Blk.veAt_active hat)
  refine .of_hub (exec_st s) hup ?_
  rw [Blk.veStep_stream hat rfl hf, hmem]
  exact ⟨by rw [settle_hub, hcur]; rfl, Blk.veCtx_of_current (by rw [settle_hub, hcur]), by simp [SameMem], by simp⟩

end

/-- Settles O33: each instruction is the work of its stream, put back with the run where the work goes on. -/
theorem vectorMemory : Obligations.VectorMemory :=
  ⟨fun _ _ _ _ _ hat hf hs hepi hgo hst => ld_fills hat hf hs hepi hgo hst,
    fun _ _ _ _ _ hat hf hs hpart hst hgo => st_stores hat hf hs hpart hst hgo,
    fun _ _ _ _ _ hat hf hs hst hvl hgo => ldk_loads hat hf hs hst hvl hgo,
    fun _ _ _ _ _ hat hf hs hst hroom hgo => scmp_stores hat hf hs hst hroom hgo,
    fun _ _ _ _ _ hat hf hs hst hgo => ldx_loads hat hf hs hst hgo,
    fun _ _ _ _ _ hat hf hs hst hgo => lds_loads hat hf hs hst hgo,
    fun _ _ _ _ _ hat hf hs hst hsub hgo => sts_stores hat hf hs hst hsub hgo,
    fun _ _ _ _ hat hf hst hs => st_unnamed hat hf hst hs⟩

end Sys2Proof.Machine
end

section
/-! Proofs: what the hub's engines take, and what that leaves (R211, R213, R225, R227). -/

namespace Sys2Proof.Machine
open Sys2Proof

/-! ### The engine takes its next work (R225) -/

/-- A change of the hub's engines that leaves the jobs of the Ox and the finished-tile queue. -/
def OnlyEngine (a b : Blk) : Prop := ∃ h : HubSt, b = a.setHub h ∧ h.tiles = a.hub.tiles ∧ h.ftq = a.hub.ftq

theorem OnlyEngine.rfl' (b : Blk) : OnlyEngine b b := ⟨b.hub, rfl, rfl, rfl⟩

theorem Blk.veResume_onlyEngine (b : Blk) (r : VeRun) : OnlyEngine b (b.veResume r) := ⟨_, rfl, rfl, rfl⟩

theorem Blk.vePick_onlyEngine (b : Blk) : OnlyEngine b (b.vePick false) := by
  unfold Blk.vePick
  dsimp only
  split
  · exact ⟨_, rfl, rfl, rfl⟩
  split
  · split
    · exact ⟨_, rfl, rfl, rfl⟩
    · exact .rfl' b
  split
  · split
    · exact b.veResume_onlyEngine _
    · exact ⟨_, rfl, rfl, rfl⟩
  · exact ⟨_, rfl, rfl, rfl⟩

theorem Blk.veIdle_onlyEngine (b : Blk) : OnlyEngine b b.veIdle := by
  unfold Blk.veIdle
  split
  · exact b.vePick_onlyEngine
  · exact .rfl' b

section
variable {a b : Blk} (h : OnlyEngine a b)
include h

theorem OnlyEngine.mem : b.mem = a.mem := by obtain ⟨_, rfl, -⟩ := h; rfl
theorem OnlyEngine.regs : b.regs = a.regs := by obtain ⟨_, rfl, -⟩ := h; rfl
theorem OnlyEngine.flights : b.flights = a.flights := by obtain ⟨_, rfl, -⟩ := h; rfl
theorem OnlyEngine.tiles : b.hub.tiles = a.hub.tiles := by obtain ⟨_, rfl, ht, -⟩ := h; exact ht
theorem OnlyEngine.ftq : b.hub.ftq = a.hub.ftq := by obtain ⟨_, rfl, -, hq⟩ := h; exact hq

end

/-! ### Where an entry's program stands -/

/-- A run without the context that it keeps while another entry runs. -/
def VeRun.unsaved (r : VeRun) : VeRun := { r with saved := none }

def VeRun.is (q seq : Nat) (r : VeRun) : Bool := r.q == q && r.seq == seq

/-- The run of a VEC_PROG, in work or waiting. -/
def Blk.program? (b : Blk) (q seq : Nat) : Option VeRun :=
  ((b.hub.run.toList ++ b.hub.queue).find? (VeRun.is q seq)).map VeRun.unsaved

theorem VeRun.is_iff {q seq : Nat} {r : VeRun} : r.is q seq = true ↔ r.q = q ∧ r.seq = seq := by simp [VeRun.is]

/-- The run that the engine takes is the first one of its entry. -/
theorem nextVec_first {run : Option VeRun} {l : List VeRun} {r : VeRun} (h : nextVec run l = some r) :
    l.find? (VeRun.is r.q r.seq) = some r := by
  obtain ⟨hr, as, bs, rfl, has⟩ := List.find?_eq_some_iff_append.1 h
  refine List.find?_eq_some_iff_append.2 ⟨by simp [VeRun.is], as, bs, rfl, fun a ha => ?_⟩
  have hno := has a ha
  by_contra his
  obtain ⟨hq, hseq⟩ := VeRun.is_iff.1 (by simpa using his)
  rw [hq, hseq, hr] at hno
  exact absurd hno (by decide)

/-- Beginning or resuming a program keeps where every program stands. -/
theorem Blk.veResume_program {b : Blk} {r : VeRun} (hrun : b.hub.run = none) (hr : nextVec none b.hub.queue = some r) (q seq : Nat) :
    (b.veResume r).program? q seq = b.program? q seq := by
  have hfirst := nextVec_first hr
  unfold Blk.program? Blk.veResume
  simp only [Blk.setHub_hub, hrun, Option.toList_some, Option.toList_none, List.nil_append, List.singleton_append, List.find?_cons]
  by_cases his : VeRun.is q seq r = true
  · obtain ⟨rfl, rfl⟩ := VeRun.is_iff.1 his
    have his' : VeRun.is r.q r.seq { r with saved := none } = true := his
    rw [his', hfirst]
    rfl
  · have his' : VeRun.is q seq { r with saved := none } = false := Bool.eq_false_iff.2 his
    rw [his', List.find?_filter]
    refine congrArg (Option.map VeRun.unsaved) (congrArg (fun p => b.hub.queue.find? p) (funext fun y => ?_))
    by_cases hy : VeRun.is q seq y = true
    · obtain ⟨rfl, rfl⟩ := VeRun.is_iff.1 hy
      have hne : y.q ≠ r.q ∨ y.seq ≠ r.seq :=
        not_and_or.1 fun ⟨hq, hseq⟩ => his (VeRun.is_iff.2 ⟨hq.symm, hseq.symm⟩)
      simpa [hy] using hne
    · simp [Bool.eq_false_iff.2 hy]

theorem Blk.vePick_program (b : Blk) (q seq : Nat) : (b.vePick false).program? q seq = b.program? q seq := by
  unfold Blk.vePick
  dsimp only
  split
  · rfl
  split
  · split <;> rfl
  split
  next hrun =>
    split
    next r hr => exact Blk.veResume_program hrun hr q seq
    next => rfl
  next cur hrun => rfl

theorem Blk.veIdle_program (b : Blk) (q seq : Nat) : b.veIdle.program? q seq = b.program? q seq := by
  unfold Blk.veIdle
  split
  · exact b.vePick_program q seq
  · rfl

/-! ### The Ox take tiles (R211) -/

/-- What taking a tile leaves of a job. -/
def TileJob.fixed (j : TileJob) : TileJob := { j with next := 0 }

/-- One Ox takes a tile where it is free and one is left. -/
def Blk.oxStep (b : Blk) (k : Nat) : Blk :=
  let x := b.oxSt k
  if x.run.isSome || 1 < x.kept.length then b
  else match b.hub.tiles.find? (fun j => decide (j.next < j.total)) with
    | none => b
    | some j => (b.updTile j.q j.seq (fun y => { y with next := y.next + 1 })).setOx k { x with run := some (j.q, j.seq, j.next) }

theorem Blk.oxTake_eq (b : Blk) : b.oxTake = (List.range 4).foldl Blk.oxStep b := by
  unfold Blk.oxTake Blk.oxStep
  rfl

/-- Taking tiles changes what the Ox run and how far the jobs have been taken, and nothing else. -/
structure OxTook (a b : Blk) : Prop where
  only : ∃ t o, b = a.setHub { a.hub with tiles := t, ox := o }
  jobs : b.hub.tiles.map TileJob.fixed = a.hub.tiles.map TileJob.fixed

theorem OxTook.rfl' (b : Blk) : OxTook b b := ⟨⟨b.hub.tiles, b.hub.ox, rfl⟩, rfl⟩

theorem OxTook.trans {a b c : Blk} (h : OxTook a b) (g : OxTook b c) : OxTook a c := by
  obtain ⟨⟨_, _, rfl⟩, hj⟩ := h
  obtain ⟨⟨_, _, rfl⟩, gj⟩ := g
  exact ⟨⟨_, _, rfl⟩, gj.trans hj⟩

theorem Blk.oxStep_took (b : Blk) (k : Nat) : OxTook b (b.oxStep k) := by
  unfold Blk.oxStep
  dsimp only
  split
  · exact .rfl' b
  split
  · exact .rfl' b
  · refine ⟨⟨_, _, rfl⟩, ?_⟩
    simp only [Blk.setOx, Blk.updTile, Blk.setHub_hub, List.map_map]
    refine List.map_congr_left fun y _ => ?_
    simp only [Function.comp_apply]
    split <;> rfl

theorem Blk.oxTake_took (b : Blk) : OxTook b b.oxTake :=
  b.oxTake_eq ▸ foldl_keeps (P := OxTook b) (fun c k h => h.trans (c.oxStep_took k)) _ (.rfl' b)

/-- Another Ox keeps what it runs. -/
theorem Blk.oxStep_other (b : Blk) {k j : Nat} (h : j ≠ k) : (b.oxStep k).oxSt j = b.oxSt j := by
  unfold Blk.oxStep
  dsimp only
  split
  · rfl
  split
  · rfl
  · exact tget_tset_other _ _ h _

/-- Where every tile has been taken, the Ox take nothing. -/
theorem Blk.oxTake_idle {b : Blk} (h : ∀ j ∈ b.hub.tiles, j.total ≤ j.next) : b.oxTake = b := by
  have hnone : b.hub.tiles.find? (fun j => decide (j.next < j.total)) = none :=
    List.find?_eq_none.2 fun j hj => by simpa using h j hj
  refine foldl_keeps (P := fun c => c = b) (fun c k hc => ?_) _ rfl
  subst hc
  rw [hnone]
  dsimp only
  split <;> rfl

section
variable {a b : Blk} (h : OxTook a b)
include h

theorem OxTook.mem : b.mem = a.mem := by obtain ⟨⟨_, _, rfl⟩, -⟩ := h; rfl
theorem OxTook.regs : b.regs = a.regs := by obtain ⟨⟨_, _, rfl⟩, -⟩ := h; rfl
theorem OxTook.flights : b.flights = a.flights := by obtain ⟨⟨_, _, rfl⟩, -⟩ := h; rfl
theorem OxTook.ftq : b.hub.ftq = a.hub.ftq := by obtain ⟨⟨_, _, rfl⟩, -⟩ := h; rfl
theorem OxTook.waited : b.hub.tiles.map TileJob.waited = a.hub.tiles.map TileJob.waited := by
  have hw : ∀ l : List TileJob, l.map TileJob.waited = (l.map TileJob.fixed).map TileJob.waited := fun l => by
    rw [List.map_map]
    rfl
  rw [hw, h.jobs, ← hw]

end

/-! ### Finished tiles go into the queue (R213) -/

/-- One Ox puts its waiting tiles into the queue while it has room. -/
def Blk.pushStep (b : Blk) (k : Nat) : Blk :=
  let x := b.oxSt k
  let b' := b.setOx k { x with kept := x.kept.drop (64 - b.hub.ftq.length) }
  b'.setHub { b'.hub with ftq := b'.hub.ftq ++ x.kept.take (64 - b.hub.ftq.length) }

theorem Blk.ftqPush_eq (b : Blk) : b.ftqPush = (List.range 4).foldl Blk.pushStep b := rfl

/-- The queue and what waits for it change, and nothing else. -/
theorem Blk.ftqPush_only (b : Blk) : ∃ o l, b.ftqPush = b.setHub { b.hub with ox := o, ftq := l } := by
  rw [Blk.ftqPush_eq]
  refine foldl_keeps (P := fun c => ∃ o l, c = b.setHub { b.hub with ox := o, ftq := l }) (fun c k h => ?_) _ ⟨b.hub.ox, b.hub.ftq, rfl⟩
  obtain ⟨_, _, rfl⟩ := h
  exact ⟨_, _, rfl⟩

theorem Blk.pushStep_oxSt (b : Blk) (k j : Nat) : (b.pushStep k).oxSt j
    = if j = k then { b.oxSt k with kept := (b.oxSt k).kept.drop (64 - b.hub.ftq.length) } else b.oxSt j := tget_tset _ _ _ _ _

/-- Where no tile waits, none is put into the queue. -/
theorem Blk.ftqPush_idle {b : Blk} (h : ∀ k, k < 4 → (b.oxSt k).kept = []) : b.ftqPush.hub.ftq = b.hub.ftq := by
  suffices hkeep : b.ftqPush.hub.ftq = b.hub.ftq ∧ ∀ k, k < 4 → (b.ftqPush.oxSt k).kept = [] from hkeep.1
  rw [Blk.ftqPush_eq]
  refine List.foldlRecOn (List.range 4) Blk.pushStep
    (motive := fun c : Blk => c.hub.ftq = b.hub.ftq ∧ ∀ k, k < 4 → (c.oxSt k).kept = []) ⟨rfl, h⟩ ?_
  rintro c ⟨hftq, hkept⟩ k hk
  have hempty := hkept k (List.mem_range.1 hk)
  refine ⟨by simp [Blk.pushStep, Blk.setOx, hempty, hftq], fun j hj => ?_⟩
  rw [Blk.pushStep_oxSt]
  split
  · simp [hempty]
  · exact hkept j hj

end Sys2Proof.Machine
end

section
/-! Proofs: TILE_MM, finished tiles and the finished-tile queue (R206 to R213). -/

namespace Sys2Proof.Machine
open Sys2Proof

/-! ### Entries that no engine holds yet -/

theorem Blk.unserved_spec {b : Blk} {q seq op : Nat} {f : Flight} (h : b.unserved q seq op = some f) :
    b.flight? q seq = some f ∧ b.tileJob? q seq = none ∧ b.program? q seq = none := by
  unfold Blk.unserved at h
  split at h
  next g hg =>
    split at h
    next hc =>
      obtain rfl := Option.some.inj h
      simp only [Bool.and_eq_true, decide_eq_true_eq, Option.isNone_iff_eq_none, Bool.not_eq_true'] at hc
      obtain ⟨⟨-, htile⟩, hrun⟩ := hc
      refine ⟨Blk.flight?_of_running? hg, htile, ?_⟩
      rw [Blk.program?, Option.map_eq_none_iff, List.find?_eq_none]
      simpa [VeRun.is, or_imp, forall_and] using hrun
    next => cases h
  next => cases h

/-- The pair of formats, the sizes and the first tensor of a TILE_MM that meets its rules (R206, R207). -/
theorem Blk.tmmOk_spec {b : Blk} {f : Flight} (h : b.tmmOk f = true) :
    Tmm.pair (Tmm.wfmt f.raw) (Tmm.afmt f.raw) = true ∧ 1 ≤ Tmm.n f.raw ∧ 1 ≤ Tmm.k f.raw ∧ 1 ≤ Tmm.batch f.raw
      ∧ ∃ d, b.fdesc f (eHandle f.raw 0) = some d := by
  simp only [Blk.tmmOk, Bool.and_eq_true, decide_eq_true_eq, and_assoc] at h
  obtain ⟨hpair, -, -, -, -, hn, -, hk, -, -, hb, -, -, -, -, -, hw, -⟩ := h
  refine ⟨hpair, hn, hk, hb, ?_⟩
  unfold Blk.handleOk at hw
  split at hw
  next d hd => exact ⟨d, hd⟩
  next => cases hw

theorem one_le_cdiv {a n : Nat} (ha : 1 ≤ a) (hn : 1 ≤ n) : 1 ≤ cdiv a n := by
  rw [cdiv, Nat.one_le_div_iff hn]
  omega

/-- A TILE_MM of at least one vector and one output has a tile (R210). -/
theorem Tmm.one_le_total {e : Bytes} (hn : 1 ≤ Tmm.n e) (hb : 1 ≤ Tmm.batch e) : 1 ≤ Tmm.total e :=
  Nat.mul_le_mul (one_le_cdiv hb (by omega)) (one_le_cdiv hn (by omega))

/-! ### TILE_MM -/

/-- The job of a TILE_MM without epilogue, before its first tile. -/
def Flight.tileJob (f : Flight) (q seq fl : Nat) : TileJob := ⟨q, seq, f.order, 0, Tmm.total f.raw, 0, 0, fl, none, stOK, []⟩

/-- Where it meets its rules, a TILE_MM joins the jobs of the Ox, behind the checks of its output. -/
theorem Blk.tileStart_joins {b : Blk} {q seq : Nat} {f : Flight} {yd : Desc} (hf : b.unserved q seq 0x20 = some f)
    (hok : b.tmmOk f = true) (hepi : Tmm.epi f.raw = false) (hy : b.fdesc f (eHandle f.raw 2) = some yd)
    (hgo : ((Wk.hub b f 5).outsOk [yd]).goesOn = true) : ∃ (d : Blk) (fl : Flags), b.tileStart q seq = d.oxTake
      ∧ d.hub = { b.hub with tiles := insTile (f.tileJob q seq fl) b.hub.tiles } ∧ d.flights = b.flights := by
  have hreads := (Wk.hub b f 5).outsOk_hubReads [yd]
  obtain ⟨hbad, hneed, hstall, -⟩ := Wk.goesOn_iff.1 hgo
  refine ⟨((Wk.hub b f 5).outsOk [yd]).b.setHub { b.hub with
    tiles := insTile (f.tileJob q seq ((Wk.hub b f 5).outsOk [yd]).flags) b.hub.tiles }, _, ?_, rfl, hreads.flights⟩
  unfold Blk.tileStart
  rw [hf]
  dsimp only
  rw [hok, if_neg (by decide), hepi, hy]
  dsimp only [Option.toList_some]
  rw [Wk.waits_eq_none hneed hstall]
  dsimp only
  simp only [hbad, Bool.false_eq_true, if_false, hreads.hub]
  rfl

/-- The first Ox takes the first tile of the only job. -/
theorem Blk.oxStep_first {b : Blk} {j : TileJob} (ht : b.hub.tiles = [j]) (hox : b.hub.ox = []) (hj : j.next < j.total) :
    ((b.oxStep 0).oxSt 0).run = some (j.q, j.seq, j.next) := by
  unfold Blk.oxStep
  simp [Blk.oxSt, hox, ht, hj, tget, OxSt.reset, Blk.setOx]

/-- The jobs that are found are those that were there, as far as their tiles are not concerned. -/
theorem OxTook.tileJob? {a b : Blk} (h : OxTook a b) (q seq : Nat) :
    (b.tileJob? q seq).map TileJob.fixed = (a.tileJob? q seq).map TileJob.fixed := by
  have hfind : ∀ c : Blk, (c.tileJob? q seq).map TileJob.fixed
      = (c.hub.tiles.map TileJob.fixed).find? (fun j => j.q == q && j.seq == seq) := fun c => by
    rw [List.find?_map]
    rfl
  rw [hfind, h.jobs, ← hfind]

section
variable {s : State} {q seq : Nat} {f : Flight} (hup : s.blk.hubUp = true) (hf : s.blk.unserved q seq 0x20 = some f)
include hup hf

theorem tileMm_joins {yd : Desc} (hok : s.blk.tmmOk f = true) (hepi : Tmm.epi f.raw = false)
    (hy : s.blk.fdesc f (eHandle f.raw 2) = some yd) (htiles : s.blk.hub.tiles = []) (hox : s.blk.hub.ox = [])
    (hgo : ((Wk.hub s.blk f 5).outsOk [yd]).goesOn = true) : Completes (.tileMm q seq) s (fun b =>
      (b.tileJob? q seq).map (fun j => (j.total, j.written, j.epi.isSome)) = some (Tmm.total f.raw, 0, false)
      ∧ (b.oxSt 0).run = some (q, seq, 0) ∧ b.flights = s.blk.flights) := by
  obtain ⟨-, hn, -, hb, -⟩ := Blk.tmmOk_spec hok
  obtain ⟨d, fl, hstart, hhub, hflights⟩ := Blk.tileStart_joins hf hok hepi hy hgo
  have hdt : d.hub.tiles = [f.tileJob q seq fl] := by rw [hhub, htiles]; rfl
  have hdo : d.hub.ox = [] := by rw [hhub]; exact hox
  refine .of_hub (exec_tileMm s q seq) hup ?_
  rw [hstart]
  refine ⟨?_, ?_, ?_⟩
  · have hfixed := d.oxTake_took.tileJob? q seq
    have hfind : d.tileJob? q seq = some (f.tileJob q seq fl) := by simp [Blk.tileJob?, hdt, Flight.tileJob]
    rw [hfind] at hfixed
    have hsame : ∀ x : Option TileJob, x.map (fun j => (j.total, j.written, j.epi.isSome))
        = (x.map TileJob.fixed).map (fun j => (j.total, j.written, j.epi.isSome)) := fun x => by
      rw [Option.map_map]
      rfl
    rw [Blk.tileJob?, settle_hub, ← Blk.tileJob?, hsame, hfixed]
    rfl
  · have hfirst := Blk.oxStep_first hdt hdo (Tmm.one_le_total hn hb)
    have htake : d.oxTake = (((d.oxStep 0).oxStep 1).oxStep 2).oxStep 3 := d.oxTake_eq
    rw [Blk.oxSt, settle_hub, ← Blk.oxSt, htake, Blk.oxStep_other _ (by decide), Blk.oxStep_other _ (by decide),
      Blk.oxStep_other _ (by decide), hfirst]
    rfl
  · rw [settle_flights, d.oxTake_took.flights, hflights]

theorem tileMm_refused (hbad : Tmm.pair (Tmm.wfmt f.raw) (Tmm.afmt f.raw) = false ∨ Tmm.batch f.raw = 0 ∨ Tmm.n f.raw = 0
      ∨ Tmm.k f.raw = 0 ∨ (s.blk.fdesc f (eHandle f.raw 0)).isNone = true) :
    Completes (.tileMm q seq) s (EvFrame (s.blk.finish q seq stDESC 0 0)) := by
  have hno : s.blk.tmmOk f = false := by
    by_contra hok
    obtain ⟨hpair, hn, hk, hb, d, hd⟩ := Blk.tmmOk_spec (by simpa using hok)
    rw [hpair, hd] at hbad
    rcases hbad with h | h | h | h | h
    · cases h
    · omega
    · omega
    · omega
    · cases h
  refine .hubFrame (exec_tileMm s q seq) hup ?_
  unfold Blk.tileStart
  rw [hf]
  dsimp only
  rw [hno]
  rfl

end

/-! ### The end of the only job (R212, R213) -/

section
variable {b : Blk} {j : TileJob} (ht : b.hub.tiles = [j])
include ht

theorem Blk.tileJob?_only : b.tileJob? j.q j.seq = some j := by simp [Blk.tileJob?, ht]

theorem Blk.updTile_only (g : TileJob → TileJob) : b.updTile j.q j.seq g = b.setHub { b.hub with tiles := [g j] } := by
  simp [Blk.updTile, ht]

theorem Blk.tileDrop_only : (b.tileDrop j.q j.seq).hub.tiles = [] := by simp [Blk.tileDrop, ht]

/-- What the end of a job leaves, where its last tile was written. -/
theorem Blk.tileSettle_last (hlast : j.written = j.total) {f : Flight} (hf : b.flight? j.q j.seq = some f) :
    b.tileSettle j.q j.seq = (b.tileDrop j.q j.seq).finish j.q j.seq stOK j.flags j.result := by
  have hidle : ∀ k ∈ ((b.tileDrop j.q j.seq).finish j.q j.seq stOK j.flags j.result).hub.tiles, k.total ≤ k.next := by
    rw [Blk.finish_hub, Blk.tileDrop_only ht]
    simp
  unfold Blk.tileSettle
  rw [Blk.tileJob?_only ht]
  dsimp only
  rw [if_pos hlast, Blk.tileEnd, hf]
  exact Blk.oxTake_idle hidle

end

/-! ### TILE_DONE -/

/-- The outputs that the end of a tile stores. -/
def Blk.tileStores (b : Blk) (f : Flight) (wd xd yd : Desc) (t : Nat) : Wk :=
  (List.range (Tmm.v f.raw t)).foldl (fun (w : Wk) i => w.putVals yd [] ((Tmm.b0 f.raw t + i) * Tmm.n f.raw + Tmm.n0 f.raw t)
    ((((Wk.hub b f 5).tileSums f.raw wd xd t).2.getD i []).map (fun p => tmmVal f.raw p.1)))
    ((Wk.hub b f 5).tileSums f.raw wd xd t).1

theorem Blk.tileStores_hubStands (b : Blk) (f : Flight) (wd xd yd : Desc) (t : Nat) : HubStands b (b.tileStores f wd xd yd t).b :=
  foldl_keeps (P := fun w : Wk => HubStands b w.b) (fun w _ h => h.trans (w.putVals_hubStands _ _ _ _)) _
    ((Wk.hub b f 5).tileSums_hubReads wd f.raw xd t).stands

/-- A job of which one more tile is written. -/
def TileJob.wrote (j : TileJob) (fl : Flags) : TileJob := { j with flags := j.flags ||| fl, written := j.written + 1 }

section
variable {b : Blk} {k t : Nat} {j : TileJob} {f : Flight} {wd xd yd : Desc} (ht : b.hub.tiles = [j])
  (hrun : (b.oxSt k).run = some (j.q, j.seq, t)) (hf : b.flight? j.q j.seq = some f) (hepi : j.epi = none)
  (hw : b.fdesc f (eHandle f.raw 0) = some wd) (hx : b.fdesc f (eHandle f.raw 1) = some xd)
  (hy : b.fdesc f (eHandle f.raw 2) = some yd) (hkind : Dsc.kind yd ≠ 1) (hofmt : Tmm.ofmt f.raw ≠ cWIDE96)
  (hgo : (b.tileStores f wd xd yd t).goesOn = true)
include ht hrun hf hepi hw hx hy hkind hofmt hgo

/-- A tile without epilogue whose stores go on is written, and its Ox is free. -/
theorem Blk.tileDone_writes : ∃ fl, b.tileDone k
    = (((b.tileStores f wd xd yd t).sent.b.updTile j.q j.seq (fun y => y.wrote fl)).setOx k { b.oxSt k with run := none }).oxTake.tileSettle
        j.q j.seq := by
  have hix : ((Wk.hub b f 5).tileSums f.raw wd xd t).1.indices yd = (((Wk.hub b f 5).tileSums f.raw wd xd t).1, []) := by
    rw [Wk.indices, if_neg hkind]
  unfold Blk.tileDone
  dsimp only
  rw [hrun]
  dsimp only
  rw [Blk.tileJob?_only ht, hf]
  dsimp only
  rw [hw, hx, hy]
  dsimp only
  rw [hepi, if_neg (by simp), if_neg (by simp), hix]
  simp only [hofmt, if_false]
  unfold Blk.tileStores at hgo ⊢
  obtain ⟨hasks, hbad⟩ := Wk.asks_goesOn (Wk.goesOn_flag hgo _) b
  rw [hasks]
  dsimp only
  rw [hbad, if_neg Bool.false_ne_true, Wk.sent_flag]
  exact ⟨_, rfl⟩

end

/-- The end of the last tile of the only job ends the job's entry (R212, R213). -/
theorem tileDone_ends {s : State} {k t : Nat} {j : TileJob} {f : Flight} {wd xd yd : Desc} (hup : s.blk.hubUp = true)
    (ht : s.blk.hub.tiles = [j]) (hrun : (s.blk.oxSt k).run = some (j.q, j.seq, t)) (hf : s.blk.flight? j.q j.seq = some f)
    (hepi : j.epi = none) (hlast : j.written + 1 = j.total) (hnext : j.next = j.total)
    (hw : s.blk.fdesc f (eHandle f.raw 0) = some wd) (hx : s.blk.fdesc f (eHandle f.raw 1) = some xd)
    (hy : s.blk.fdesc f (eHandle f.raw 2) = some yd) (hkind : Dsc.kind yd ≠ 1) (hofmt : Tmm.ofmt f.raw ≠ cWIDE96)
    (hgo : (s.blk.tileStores f wd xd yd t).goesOn = true) : Completes (.tileDone k) s (fun b => b.hub.tiles = []
      ∧ (b.flight? j.q j.seq).map (fun g => (g.stage, g.result)) = some (.done, { j with written := j.total }.result)
      ∧ b.mem = (s.blk.tileStores f wd xd yd t).b.mem) := by
  obtain ⟨fl, hdone⟩ := Blk.tileDone_writes ht hrun hf hepi hw hx hy hkind hofmt hgo
  have hstands := (s.blk.tileStores_hubStands f wd xd yd t).trans (Wk.sent_hubStands _)
  have hmem := (s.blk.tileStores f wd xd yd t).sent_mem
  generalize (s.blk.tileStores f wd xd yd t).sent.b = c at hdone hstands hmem
  obtain ⟨g, hg⟩ := hstands.flight? hf
  have hc : c.hub.tiles = [j] := by rw [hstands.hub, ht]
  rw [Blk.updTile_only hc] at hdone
  generalize hd : (c.setHub { c.hub with tiles := [j.wrote fl] }).setOx k { s.blk.oxSt k with run := none } = d at hdone
  have hdt : d.hub.tiles = [j.wrote fl] := by rw [← hd]; rfl
  have hdg : d.flight? (j.wrote fl).q (j.wrote fl).seq = some g := by rw [← hd]; exact hg
  have hdm : d.mem = c.mem := by rw [← hd]; rfl
  have hidle : d.oxTake = d := Blk.oxTake_idle (by rw [hdt]; simp [TileJob.wrote, hnext])
  have hend : s.blk.tileDone k = (d.tileDrop j.q j.seq).finish j.q j.seq stOK (j.wrote fl).flags (j.wrote fl).result := by
    rw [hdone, hidle]
    exact Blk.tileSettle_last hdt hlast hdg
  have honly := Blk.veIdle_onlyEngine (s.blk.tileDone k)
  refine .of_hub (exec_tileDone s k) hup ⟨?_, ?_, ?_⟩
  · rw [settle_hub, honly.tiles, hend, Blk.finish_hub]
    exact Blk.tileDrop_only (j := j.wrote fl) hdt
  · rw [settle_flight?, Blk.flight?_congr honly.flights, hend, Blk.flight?_finish]
    have hdrop : (d.tileDrop j.q j.seq).flight? j.q j.seq = some g := hdg
    rw [hdrop, ← hlast]
    rfl
  · rw [settle_mem, honly.mem, hend, Blk.finish_mem, ← hmem, ← hdm]
    rfl

/-! ### FTQ_ENTRY_FREED (R212, R213) -/

/-- The periods for which the Ox waited for an entry of the queue, by the entry of each tile. -/
def Blk.oxWaits (b : Blk) (periods : List Nat) : List (Nat × Nat × Nat) :=
  (List.range 4).flatMap (fun k => (b.oxSt k).kept.map (fun t => (t.q, t.seq, periods.getD k 0)))

/-- A job with the periods counted for its entry. -/
def TileJob.waitedFor (ws : List (Nat × Nat × Nat)) (j : TileJob) : TileJob :=
  { j with waited := j.waited + ws.foldl (fun n w => if w.1 == j.q && w.2.1 == j.seq then max n w.2.2 else n) 0 }

/-- The queue without the entry that is freed, and the periods counted. -/
def Blk.ftqDropped (b : Blk) (t : Tile) (periods : List Nat) : Blk :=
  b.setHub { b.hub with ftq := b.hub.ftq.erase t, tiles := b.hub.tiles.map (TileJob.waitedFor (b.oxWaits periods)) }

theorem Blk.ftqFreed_none {b : Blk} (h : b.hub.ftq.find? Tile.stored = none) (periods : List Nat) : b.ftqFreed periods = b := by
  rw [Blk.ftqFreed, h]

theorem Blk.ftqFreed_some {b : Blk} {t : Tile} (h : b.hub.ftq.find? Tile.stored = some t) (periods : List Nat) :
    b.ftqFreed periods = (b.ftqDropped t periods).ftqPush.oxTake := by
  rw [Blk.ftqFreed, h]
  rfl

section
variable (b : Blk) (periods : List Nat)

theorem Blk.ftqFreed_frame : (b.ftqFreed periods).mem = b.mem ∧ (b.ftqFreed periods).regs = b.regs := by
  cases h : b.hub.ftq.find? Tile.stored with
  | none => rw [Blk.ftqFreed_none h]; exact ⟨rfl, rfl⟩
  | some t =>
    obtain ⟨_, _, hpush⟩ := (b.ftqDropped t periods).ftqPush_only
    have htake := (b.ftqDropped t periods).ftqPush.oxTake_took
    rw [Blk.ftqFreed_some h, htake.mem, htake.regs, hpush]
    exact ⟨rfl, rfl⟩

/-- Where no Ox waits, the queue loses the entry of a stored tile and nothing joins it. -/
theorem Blk.ftqFreed_ftq (hkept : (List.range 4).all (fun k => (b.oxSt k).kept.isEmpty) = true) :
    (b.ftqFreed periods).hub.ftq = ((b.hub.ftq.find? Tile.stored).map b.hub.ftq.erase).getD b.hub.ftq := by
  cases h : b.hub.ftq.find? Tile.stored with
  | none => rw [Blk.ftqFreed_none h]; rfl
  | some t =>
    have hempty : ∀ k, k < 4 → ((b.ftqDropped t periods).oxSt k).kept = [] := fun k hk =>
      List.isEmpty_iff.1 (List.all_eq_true.1 hkept k (List.mem_range.2 hk))
    rw [Blk.ftqFreed_some h, (Blk.oxTake_took _).ftq, Blk.ftqPush_idle hempty]
    rfl

theorem Blk.ftqFreed_waited (h : (b.hub.ftq.find? Tile.stored).isSome = true) :
    (b.ftqFreed periods).hub.tiles.map TileJob.waited
      = b.hub.tiles.map (fun j => (j.waitedFor (b.oxWaits periods)).waited) := by
  obtain ⟨t, ht⟩ := Option.isSome_iff_exists.1 h
  obtain ⟨_, _, hpush⟩ := (b.ftqDropped t periods).ftqPush_only
  rw [Blk.ftqFreed_some ht, (Blk.oxTake_took _).waited, hpush]
  exact List.map_map

end

theorem ftqEntryFreed_frees {s : State} (hup : s.blk.hubUp = true) (periods : List Nat) :
    Completes (.ftqEntryFreed periods) s (fun b => SameMem s.blk b ∧ b.regs = s.blk.regs
      ∧ (s.blk.hub.ftq.find? Tile.stored = none → b.hub.ftq = s.blk.hub.ftq)
      ∧ ((List.range 4).all (fun k => (s.blk.oxSt k).kept.isEmpty) = true →
          b.hub.ftq = ((s.blk.hub.ftq.find? Tile.stored).map s.blk.hub.ftq.erase).getD s.blk.hub.ftq)
      ∧ ((s.blk.hub.ftq.find? Tile.stored).isSome = true → b.hub.tiles.map TileJob.waited
          = s.blk.hub.tiles.map (fun j => (j.waitedFor (s.blk.oxWaits periods)).waited))) := by
  have honly := Blk.veIdle_onlyEngine (s.blk.ftqFreed periods)
  obtain ⟨hmem, hregs⟩ := s.blk.ftqFreed_frame periods
  refine .of_hub (exec_ftqEntryFreed s periods) hup ?_
  simp only [SameMem, settle_mem, settle_regs, settle_hub, honly.mem, honly.regs, honly.ftq, honly.tiles]
  exact ⟨hmem, hregs, fun h => by rw [Blk.ftqFreed_none h], s.blk.ftqFreed_ftq periods, s.blk.ftqFreed_waited periods⟩

end Sys2Proof.Machine
end

section
/-! Proofs: VEC_PROG and the rows of its program (R220, R225 to R227). -/

namespace Sys2Proof.Machine
open Sys2Proof

/-! ### The start of a program -/

/-- The run of a VEC_PROG before its first row. -/
def Flight.vecRun (f : Flight) (p : VProg) (fl : Flags) : VeRun :=
  { q := f.q, seq := f.seq, prog := p, rows := Vpg.rows f.raw, len := Vpg.len f.raw, row := 0, phase := 0, chunk := 0, pc := 0
    pos := [0, 0, 0, 0], rowPos := [0, 0, 0, 0], stored := 0, st := stOK, flags := fl, tile := 0, saved := none
    stop := stOK, held := [] }

/-- What the start row leaves of a run. -/
theorem VeRun.startRow_eq (r : VeRun) :
    ∃ ph ch pc, r.startRow = { r with rowPos := r.pos, phase := ph, chunk := ch, pc := pc } := by
  unfold VeRun.startRow
  dsimp only
  split
  · obtain ⟨_, _, _, h⟩ := VeRun.toBody_eq { r with rowPos := r.pos } 0
    exact ⟨_, _, _, h⟩
  · exact ⟨_, _, _, rfl⟩

/-- An entry of an inline program without a broken field, alone in flight, whose outputs are checked without an error or a wait
(R220, R226, R271). -/
structure Blk.InlineVec (b : Blk) (q seq : Nat) (f : Flight) (p : VProg) : Prop where
  unserved : b.unserved q seq 0x21 = some f
  alone : b.flights = [f]
  inline : Vpg.progH f.raw = 0
  len : Vpg.len f.raw ≤ 2147483647
  zero : zeroAt f.raw 0x2C 4 = true
  prog : inlineProg f.raw = some p
  outs : (b.vecOuts f p).goesOn = true

theorem Blk.vecOuts_hubReads (b : Blk) (f : Flight) (p : VProg) : HubReads (Wk.hub b f 6) (b.vecOuts f p) := Wk.outsOk_hubReads _ _

/-- What VEC_PROG does with an inline program once the outputs are checked (R220, R227). -/
def Blk.vecEnter (b : Blk) (f : Flight) (p : VProg) : Blk :=
  let w := b.vecOuts f p
  match p.firstBad false with
  | some n => w.b.finish f.q f.seq stDESC w.flags n
  | none =>
    if !b.streamsOk f p then w.b.finish f.q f.seq stDESC w.flags 0xFFFFFFFF
    else if Vpg.rows f.raw = 0 then w.b.finish f.q f.seq stOK w.flags 0
    else (w.b.setHub { w.b.hub with queue := w.b.hub.queue ++ [(f.vecRun p w.flags).startRow] }).veIdle

section
variable {b : Blk} {q seq : Nat} {f : Flight} {p : VProg} (h : b.InlineVec q seq f p)
include h

theorem Blk.InlineVec.is : f.q = q ∧ f.seq = seq := by
  obtain ⟨hf, -⟩ := Blk.unserved_spec h.unserved
  exact Blk.flight?_is hf

/-- Nothing that the entry begins with waits or fails: its program is entered. -/
theorem Blk.vecStart_enters : b.vecStart q seq = b.vecEnter f p := by
  obtain ⟨rfl, rfl⟩ := h.is
  obtain ⟨hbad, hneed, hstall, -⟩ := Wk.goesOn_iff.1 h.outs
  unfold Blk.vecOuts at hbad hneed hstall
  unfold Blk.vecStart Blk.vecEnter Blk.vecOuts
  rw [h.unserved, h.alone]
  dsimp only
  rw [h.inline, h.zero, decide_eq_true h.len, if_neg (by simp)]
  simp only [beq_self_eq_true, Bool.true_or, Bool.and_self, Bool.not_true, Bool.false_eq_true, if_false, if_true, h.prog,
    Wk.waits_eq_none hneed hstall, hbad, Bool.false_and, Bool.false_or]
  rfl

end

/-- The run of an entry that no engine held is found once it waits. -/
theorem Blk.program?_queued {b : Blk} {q seq : Nat} {r : VeRun} (h : b.program? q seq = none) (hr : r.is q seq = true) :
    (b.setHub { b.hub with queue := b.hub.queue ++ [r] }).program? q seq = some r.unsaved := by
  have hnone : (b.hub.run.toList ++ b.hub.queue).find? (VeRun.is q seq) = none := Option.map_eq_none_iff.1 h
  unfold Blk.program?
  rw [Blk.setHub_hub, ← List.append_assoc, List.find?_append, hnone]
  simp [hr]

section
variable {s : State} {q seq : Nat} {f : Flight} {p : VProg} (hup : s.blk.hubUp = true) (h : s.blk.InlineVec q seq f p)
include hup h

theorem vecProg_enters (hok : p.firstBad false = none) (hstreams : s.blk.streamsOk f p = true) (hrows : 1 ≤ Vpg.rows f.raw) :
    Completes (.vecProg q seq) s (fun b =>
      ((b.hub.run.toList ++ b.hub.queue).find? (fun r => r.q == q && r.seq == seq)).map (fun r => (r.prog.code, r.rows, r.len, r.row))
        = some (p.code, Vpg.rows f.raw, Vpg.len f.raw, 0)
      ∧ b.flights = s.blk.flights) := by
  have hreads := s.blk.vecOuts_hubReads f p
  obtain ⟨_, _, _, hrow⟩ := (f.vecRun p (s.blk.vecOuts f p).flags).startRow_eq
  have henter : s.blk.vecStart q seq = ((s.blk.vecOuts f p).b.setHub { (s.blk.vecOuts f p).b.hub with
      queue := (s.blk.vecOuts f p).b.hub.queue ++ [(f.vecRun p (s.blk.vecOuts f p).flags).startRow] }).veIdle := by
    rw [Blk.vecStart_enters h, Blk.vecEnter, hok]
    simp only [hstreams, Bool.not_true, Bool.false_eq_true, if_false, Nat.ne_of_gt hrows]
  have hnone : (s.blk.vecOuts f p).b.program? q seq = none := by
    obtain ⟨-, -, hprog⟩ := Blk.unserved_spec h.unserved
    rw [Blk.program?, hreads.hub]
    exact hprog
  have hfound : (s.blk.vecStart q seq).program? q seq = some (f.vecRun p (s.blk.vecOuts f p).flags).startRow.unsaved := by
    rw [henter, Blk.veIdle_program]
    refine Blk.program?_queued hnone ?_
    rw [hrow]
    exact VeRun.is_iff.2 h.is
  have hsame : ∀ x : Option VeRun, x.map (fun r => (r.prog.code, r.rows, r.len, r.row))
      = (x.map VeRun.unsaved).map (fun r => (r.prog.code, r.rows, r.len, r.row)) := fun x => by
    rw [Option.map_map]
    rfl
  refine .of_hub (exec_vecProg s q seq) hup ⟨?_, ?_⟩
  · rw [settle_hub, hsame]
    refine (congrArg (Option.map _) hfound).trans ?_
    rw [hrow]
    rfl
  · rw [settle_flights, henter, (Blk.veIdle_onlyEngine _).flights]
    exact hreads.flights

/-- An entry that its program ends at once has finished with a status and a result. -/
theorem vecProg_finishes {st res : Nat} (hend : s.blk.vecEnter f p = (s.blk.vecOuts f p).b.finish f.q f.seq st (s.blk.vecOuts f p).flags res)
    (hst : finalStatus st (f.flags ||| (s.blk.vecOuts f p).flags) f.preempted = st) :
    Completes (.vecProg q seq) s (fun b => FinishedWith b f st res) := by
  obtain ⟨hf, -⟩ := Blk.unserved_spec h.unserved
  obtain ⟨rfl, rfl⟩ := h.is
  refine .of_hub (exec_vecProg s f.q f.seq) hup ?_
  rw [Blk.vecStart_enters h, hend]
  have hdone := Blk.flight?_finish (s.blk.vecOuts f p).b f.q f.seq st (s.blk.vecOuts f p).flags res
  have hflights : (s.blk.vecOuts f p).b.flights = s.blk.flights := (s.blk.vecOuts_hubReads f p).flights
  rw [Blk.flight?_congr hflights, hf, Option.map_some] at hdone
  exact ⟨_, (settle_flight? ..).trans hdone, rfl, hst, rfl⟩

theorem vecProg_noRows (hok : p.firstBad false = none) (hstreams : s.blk.streamsOk f p = true) (hrows : Vpg.rows f.raw = 0)
    (hpre : f.preempted = false) (hfl : f.flags = 0) (hwfl : (s.blk.vecOuts f p).flags = 0) :
    Completes (.vecProg q seq) s (fun b => FinishedWith b f stOK 0) := by
  refine vecProg_finishes hup h ?_ (by rw [hpre, hfl, hwfl]; rfl)
  rw [Blk.vecEnter, hok]
  simp only [hstreams, hrows, Bool.not_true, Bool.false_eq_true, if_false, if_true]

theorem vecProg_badInstruction {n : Nat} (hn : p.firstBad false = some n) :
    Completes (.vecProg q seq) s (fun b => FinishedWith b f stDESC n) := by
  refine vecProg_finishes hup h ?_ (if_pos (by decide))
  rw [Blk.vecEnter, hn]

end

/-! ### The end of a row (R225, R227) -/

section
variable (r : VeRun)

@[simp] theorem VeRun.startRow_rows : r.startRow.rows = r.rows := by obtain ⟨_, _, _, h⟩ := r.startRow_eq; rw [h]
@[simp] theorem VeRun.startRow_row : r.startRow.row = r.row := by obtain ⟨_, _, _, h⟩ := r.startRow_eq; rw [h]
@[simp] theorem VeRun.startRow_stop : r.startRow.stop = r.stop := by obtain ⟨_, _, _, h⟩ := r.startRow_eq; rw [h]
@[simp] theorem VeRun.startRow_stored : r.startRow.stored = r.stored := by obtain ⟨_, _, _, h⟩ := r.startRow_eq; rw [h]
@[simp] theorem VeRun.startRow_q : r.startRow.q = r.q := by obtain ⟨_, _, _, h⟩ := r.startRow_eq; rw [h]
@[simp] theorem VeRun.startRow_seq : r.startRow.seq = r.seq := by obtain ⟨_, _, _, h⟩ := r.startRow_eq; rw [h]

end

/-- The row that follows the row of a run. -/
def VeRun.nextRow (r : VeRun) : VeRun := ({ r with row := r.row + 1 } : VeRun).startRow

/-- A program that ends without an error leaves its run and finishes its entry. -/
theorem Blk.vecEnd_ok {b : Blk} {cur r : VeRun} (hrun : b.hub.run = some cur) (hact : b.hub.active = 2) (hqueue : b.hub.queue = [])
    (hr : cur.is r.q r.seq = true) : b.vecEnd r stOK = (b.setHub { b.hub with run := none, queue := [], active := 0 }).finish
      r.q r.seq stOK r.flags (r.row % 2 ^ 32 + r.stored % 2 ^ 32 * 2 ^ 32) := by
  have hmine : b.hub.run.any (fun y => y.q == r.q && y.seq == r.seq) = true := by rw [hrun]; exact hr
  unfold Blk.vecEnd
  dsimp only
  rw [hmine, hact, hqueue, show isErr stOK = false by decide]
  split <;> rfl

section
variable {b : Blk} {r : VeRun} (hst : r.st = stOK)
include hst

/-- The next row begins, with empty row accumulators. -/
theorem Blk.veProgRow_next (hstop : r.stop = stOK) (hrow : r.row + 1 < r.rows) : b.veProgRow r
    = b.setHub { b.hub with run := some r.nextRow, prog := { b.hub.prog with ra := [] } } := by
  unfold Blk.veProgRow
  rw [if_neg (by simp [hst])]
  dsimp only
  rw [if_neg (by simpa using hrow), if_neg (by simp [hstop])]
  rfl

theorem Blk.veProgRow_last (hrow : r.row + 1 = r.rows) : b.veProgRow r = b.vecEnd r.nextRow stOK := by
  unfold Blk.veProgRow
  rw [if_neg (by simp [hst])]
  dsimp only
  rw [if_pos (by simp [hrow])]
  rfl

end

/-- The engine goes on with its run where no tile waits for it. -/
theorem Blk.vePick_run {b : Blk} {r : VeRun} (htile : b.hub.tile = none) (hftq : b.hub.ftq = []) (hrun : b.hub.run = some r) :
    b.vePick false = b.setHub { b.hub with active := 2 } := by
  unfold Blk.vePick
  simp only [htile, hftq, hrun, List.find?_nil, Bool.false_eq_true, if_false]

/-- The engine rests where nothing waits for it. -/
theorem Blk.vePick_rest {b : Blk} (htile : b.hub.tile = none) (hftq : b.hub.ftq = []) (hrun : b.hub.run = none)
    (hqueue : b.hub.queue = []) : b.vePick false = b.setHub { b.hub with active := 0 } := by
  unfold Blk.vePick
  simp only [htile, hftq, hrun, hqueue, List.find?_nil, nextVec]

/-- The run of a program at the end of its row, with nothing else for the engine to do. -/
structure Blk.RowEnds (b : Blk) (r : VeRun) : Prop where
  active : b.hub.active = 2
  run : b.hub.run = some r
  tile : b.hub.tile = none
  ftq : b.hub.ftq = []
  queue : b.hub.queue = []
  phase : r.phase = 3
  st : r.st = stOK
  stop : r.stop = stOK

section
variable {b : Blk} {r : VeRun} (h : b.RowEnds r)
include h

theorem Blk.RowEnds.boundary : b.veBoundary false = (b.veProgRow r).vePick false := by
  have hcur : b.hub.current = some (r, b.hub.prog) := by simp [HubSt.current, h.active, h.run]
  unfold Blk.veBoundary
  rw [hcur]
  simp [h.phase, h.active]

/-- Where rows are left, the boundary changes the engine's run and the row accumulators only. -/
theorem Blk.RowEnds.next (hrow : r.row + 1 < r.rows) : b.veBoundary false
    = b.setHub { b.hub with run := some r.nextRow, prog := { b.hub.prog with ra := [] }, active := 2 } := by
  rw [h.boundary, Blk.veProgRow_next h.st h.stop hrow]
  exact Blk.vePick_run h.tile h.ftq rfl

/-- After the last row the engine is empty and the entry has finished. -/
theorem Blk.RowEnds.last (hrow : r.row + 1 = r.rows) : b.veBoundary false
    = (b.setHub { b.hub with run := none, queue := [], active := 0 }).finish r.q r.seq stOK r.nextRow.flags
        ((r.row + 1) % 2 ^ 32 + r.stored % 2 ^ 32 * 2 ^ 32) := by
  have hr : r.is r.nextRow.q r.nextRow.seq = true := by simp [VeRun.is, VeRun.nextRow]
  rw [h.boundary, Blk.veProgRow_last h.st hrow, Blk.vecEnd_ok h.run h.active h.queue hr]
  refine Eq.trans (Blk.vePick_rest ?_ ?_ rfl rfl) ?_
  · exact h.tile
  · exact h.ftq
  · simp only [VeRun.nextRow, VeRun.startRow_q, VeRun.startRow_seq, VeRun.startRow_row, VeRun.startRow_stored]
    rfl

end

theorem veRowBoundary_goesOn {s : State} {r : VeRun} (hup : s.blk.hubUp = true) (h : s.blk.RowEnds r) (hrow : r.row < r.rows)
    (hflight : (s.blk.flight? r.q r.seq).isSome = true) :
    Completes (.veRowBoundary false) s (fun b => SameMem s.blk b ∧ b.regs = s.blk.regs
      ∧ (r.row + 1 < r.rows → b.hub.run = some ({ r with row := r.row + 1 }).startRow ∧ b.hub.prog.ra = [] ∧ b.flights = s.blk.flights)
      ∧ (r.row + 1 = r.rows → b.hub.run = none ∧ b.hub.active = 0
        ∧ (b.flight? r.q r.seq).map (fun g => (g.stage, g.result))
          = some (.done, (r.row + 1) % 2 ^ 32 + r.stored % 2 ^ 32 * 2 ^ 32))) := by
  obtain ⟨f, hf⟩ := Option.isSome_iff_exists.1 hflight
  refine .of_hub (exec_veRowBoundary s false) hup ?_
  rcases Nat.lt_or_eq_of_le hrow with hnext | hlast
  · rw [h.next hnext]
    refine ⟨?_, settle_regs .., fun _ => ?_, fun he => absurd he (Nat.ne_of_lt hnext)⟩
    · rw [SameMem, settle_mem]; rfl
    · rw [settle_hub, settle_flights]
      exact ⟨rfl, rfl, rfl⟩
  · rw [h.last hlast]
    refine ⟨?_, settle_regs .., fun hlt => absurd hlast (Nat.ne_of_lt hlt), fun _ => ?_⟩
    · rw [SameMem, settle_mem]; rfl
    · rw [settle_hub, settle_flight?, Blk.flight?_finish, Blk.flight?_congr (Blk.setHub_flights ..), hf]
      exact ⟨rfl, rfl, rfl⟩

/-- Settles O34: the tiles by what the Ox and the queue of finished tiles keep of them, the programs by what the checks of an inline
program leave, and their rows by the two ends of a row. -/
theorem tilesAndPrograms : Obligations.TilesAndPrograms :=
  ⟨fun _ _ _ _ _ hup hf hok hepi hy htiles hox hgo => tileMm_joins hup hf hok hepi hy htiles hox hgo,
   fun _ _ _ _ hup hf hbad => tileMm_refused hup hf hbad,
   fun _ _ _ _ _ _ _ _ hup ht hrun hf hepi hlast hnext hw hx hy hkind _ hofmt hgo =>
     tileDone_ends hup ht hrun hf hepi hlast hnext hw hx hy hkind hofmt hgo,
   fun _ periods hup => ftqEntryFreed_frees hup periods,
   fun _ _ _ _ _ hup hu hone hinline hlen hzero hprog hok houts hstreams hrows =>
     vecProg_enters hup ⟨hu, hone, hinline, hlen, hzero, hprog, houts⟩ hok hstreams hrows,
   fun _ _ _ _ _ hup hu hone hinline hlen hzero hprog hok houts hstreams hrows hpre hfl hwfl =>
     vecProg_noRows hup ⟨hu, hone, hinline, hlen, hzero, hprog, houts⟩ hok hstreams hrows hpre hfl hwfl,
   fun _ _ _ _ _ _ hup hu hone hinline hlen hzero hprog hn houts _ =>
     vecProg_badInstruction hup ⟨hu, hone, hinline, hlen, hzero, hprog, houts⟩ hn,
   fun _ _ hup hact hrun htile hftq hqueue hphase hst hstop hrow hflight =>
     veRowBoundary_goesOn hup ⟨hact, hrun, htile, hftq, hqueue, hphase, hst, hstop⟩ hrow
       (Option.isSome_of_any hflight)⟩

end Sys2Proof.Machine
end

section
/-! Proofs: the rows of SOFTMAX and LOG_SOFTMAX: masked elements, rows without a live element, and NaN (R236, R238, R239;
log 13). -/

namespace Sys2Proof.Machine
open Sys2Proof

/-! ### A row's lanes (R236, R239) -/

/-- The scaled elements of a row, none where an element is masked. -/
def softLanes (e : Bytes) (xs : List Nat) (m : List Bool) : List (Option Nat) :=
  List.zipWith (fun x k => if k then none else some (sfuZ e x).1) xs m

/-- The unmasked ones. -/
def softLive (e : Bytes) (xs : List Nat) (m : List Bool) : List Nat := (softLanes e xs m).filterMap id

/-- What a masked element gives (R238). -/
def softOff (e : Bytes) : Nat := if Sfu.op e = 2 then negInfOut (Sfu.outF e) else 0

theorem softLanes_eq_zipWith_map (e : Bytes) (xs : List Nat) (m : List Bool) :
    List.zipWith (fun (z : Nat × Flags) (k : Bool) => if k then none else some z.1) (xs.map (sfuZ e)) m = softLanes e xs m :=
  List.zipWith_map_left ..

@[simp] theorem filterMap_softLanes (e : Bytes) (xs : List Nat) (m : List Bool) :
    (softLanes e xs m).filterMap id = softLive e xs m := rfl

theorem mem_softLive {e : Bytes} {xs : List Nat} {m : List Bool} {z : Nat} :
    z ∈ softLive e xs m ↔ ∃ (i x : Nat), xs[i]? = some x ∧ m[i]? = some false ∧ (sfuZ e x).1 = z := by
  constructor
  · intro hz
    obtain ⟨_, hmem, hz⟩ := List.mem_filterMap.mp hz
    obtain ⟨i, hi⟩ := List.mem_iff_getElem?.mp hmem
    obtain ⟨x, k, hx, hk, rfl⟩ := List.getElem?_zipWith_eq_some.mp hi
    cases k with
    | true => exact absurd hz (by simp)
    | false => exact ⟨i, x, hx, hk, by simpa using hz⟩
  · rintro ⟨i, x, hx, hk, rfl⟩
    exact List.mem_filterMap.mpr
      ⟨_, List.mem_iff_getElem?.mpr ⟨i, List.getElem?_zipWith_eq_some.mpr ⟨x, false, hx, hk, rfl⟩⟩, by simp⟩

/-- A property of every unmasked element, as it stands in the statements. -/
theorem softLive_forall_of_all {e : Bytes} {xs : List Nat} {m : List Bool} {p : Nat → Bool}
    (h : (List.zipWith (fun x k => k || p (sfuZ e x).1) xs m).all (fun x => x) = true) : ∀ z ∈ softLive e xs m, p z = true := by
  intro z hz
  obtain ⟨i, x, hx, hk, rfl⟩ := mem_softLive.mp hz
  have hmem : (false || p (sfuZ e x).1) ∈ List.zipWith (fun x k => k || p (sfuZ e x).1) xs m :=
    List.mem_iff_getElem?.mpr ⟨i, List.getElem?_zipWith_eq_some.mpr ⟨x, false, hx, hk, rfl⟩⟩
  exact List.all_eq_true.mp h _ hmem

/-- A NaN among the unmasked elements, as it stands in the statements. -/
theorem softLive_any_isNan {e : Bytes} {xs : List Nat} {m : List Bool} {i : Nat} (hm : m[i]? = some false)
    (hx : (xs[i]?).any (fun x => (f32 (sfuZ e x).1).isNan) = true) :
    (softLive e xs m).any (fun z => (f32 z).isNan) = true := by
  obtain ⟨x, hxi, hnan⟩ := (Option.any_eq_true ..).mp hx
  exact List.any_eq_true.mpr ⟨_, mem_softLive.mpr ⟨i, x, hxi, hm, rfl⟩, hnan⟩

/-! ### The cases of a row (R239) -/

/-- A row with a NaN is NaN everywhere. -/
theorem softRow_of_nan {e : Bytes} {xs : List Nat} {m : List Bool} (h : (softLive e xs m).any (fun z => (f32 z).isNan) = true) :
    (softRow e xs m).flags = flagNan
      ∧ (softRow e xs m).y = List.replicate xs.length (rowNan (Sfu.crl e) (Sfu.outF e) (softLive e xs m)).2 := by
  unfold softRow
  simp only [softLanes_eq_zipWith_map, filterMap_softLanes]
  rw [if_pos h]
  exact ⟨rfl, List.map_const' ..⟩

/-- A row of −∞ alone, or of nothing, is fully masked. -/
theorem softRow_of_allNInf {e : Bytes} {xs : List Nat} {m : List Bool} (h : (softLive e xs m).all (· == f32NInf) = true) :
    (softRow e xs m).empty = true ∧ (softRow e xs m).flags.testBit 4 = true
      ∧ (softRow e xs m).y = List.replicate xs.length (softOff e) := by
  have hnan : ¬ (softLive e xs m).any (fun z => (f32 z).isNan) = true := by
    intro hany
    obtain ⟨z, hz, hn⟩ := List.any_eq_true.mp hany
    have : z = f32NInf := by simpa using List.all_eq_true.mp h z hz
    subst this
    exact absurd hn (by decide)
  unfold softRow
  simp only [softLanes_eq_zipWith_map, filterMap_softLanes]
  rw [if_neg hnan, if_pos h]
  refine ⟨rfl, ?_, ?_⟩
  · rw [Nat.testBit_or, show Nat.testBit flagMaskedRow 4 = true from rfl, Bool.or_true]
  · simp [softOff]

/-- A masked element of a row without NaN: no case of the row gives its empty lane anything else. -/
theorem softRow_getElem?_masked {e : Bytes} {xs : List Nat} {m : List Bool} {i : Nat} (hi : i < xs.length) (hm : m[i]? = some true)
    (hnan : ¬ (softLive e xs m).any (fun z => (f32 z).isNan) = true) : (softRow e xs m).y[i]? = some (softOff e) := by
  have hlane : (softLanes e xs m)[i]? = some none :=
    List.getElem?_zipWith_eq_some.mpr ⟨xs[i], true, List.getElem?_eq_getElem hi, hm, rfl⟩
  by_cases hall : (softLive e xs m).all (· == f32NInf) = true
  · obtain ⟨-, -, hy⟩ := softRow_of_allNInf hall
    rw [hy, List.getElem?_replicate_of_lt hi]
  · unfold softRow
    simp only [softLanes_eq_zipWith_map, filterMap_softLanes]
    rw [if_neg hnan, if_neg hall]
    split
    · simp [hlane, softOff]
    · simp [gather, hlane, softOff]

/-- Settles O36: a masked lane by the cases of a row without NaN, the rows without a live element or with a NaN by their case of the
row. -/
theorem softRowMasks : Obligations.SoftRowMasks := by
  refine ⟨fun e xs m i hlen hm hall => ?_, fun e xs m _ hall => ?_, fun e xs m i _ hm hx hcrl => ?_,
    fun e xs m i _ hm hx hcrl => ?_⟩
  · obtain ⟨hi, -⟩ := List.getElem?_eq_some_iff.mp hm
    refine softRow_getElem?_masked (hlen ▸ hi) hm fun hany => ?_
    obtain ⟨z, hz, hn⟩ := List.any_eq_true.mp hany
    have := softLive_forall_of_all (p := fun z => !(f32 z).isNan) hall z hz
    simp [hn] at this
  · exact softRow_of_allNInf (List.all_eq_true.mpr (softLive_forall_of_all (p := (· == f32NInf)) hall))
  · have h := softRow_of_nan (softLive_any_isNan hm hx)
    rwa [hcrl] at h
  · have h := softRow_of_nan (softLive_any_isNan hm hx)
    rwa [hcrl] at h

end Sys2Proof.Machine
end

section
/-! Proofs: what the writes of an entry leave in the entries in flight (R264, R279, R335, R339). -/

namespace Sys2Proof.Machine
open Sys2Proof

/-- An entry but for what its writes leave in it: scope, homes, requests, the writes that wait, the status where one has no path,
and what LAST remembers. -/
def Flight.unwritten (f : Flight) : Flight :=
  { f with scope := 0, homes := [], txns := [], out := [], status := stOK, burst := { f.burst with tops := [] } }

/-- The entries in flight are those that were there, but for what writes leave in them. -/
def EntriesStand (a b : Blk) : Prop := b.flights.map Flight.unwritten = a.flights.map Flight.unwritten

theorem EntriesStand.of_flights {a b : Blk} (h : b.flights = a.flights) : EntriesStand a b := by rw [EntriesStand, h]

theorem EntriesStand.rfl' (a : Blk) : EntriesStand a a := .of_flights rfl

theorem EntriesStand.trans {a b c : Blk} (h : EntriesStand a b) (g : EntriesStand b c) : EntriesStand a c := Eq.trans g h

theorem MemFrame.entriesStand {a b : Blk} (h : MemFrame a b) : EntriesStand a b := .of_flights h.flights

theorem HubReads.entriesStand {v w : Wk} (h : HubReads v w) : EntriesStand v.b w.b := .of_flights h.flights

theorem EntriesStand.updFlight (b : Blk) (q seq : Nat) {g : Flight → Flight}
    (hg : ∀ f, (g f).unwritten = f.unwritten := by intro _; rfl) : EntriesStand b (b.updFlight q seq g) := by
  simp only [EntriesStand, Blk.updFlight, List.map_map]
  refine List.map_congr_left fun f _ => ?_
  simp only [Function.comp_apply]
  split
  · exact hg f
  · rfl

/-- An entry in flight is still in flight, but for what writes left in it. -/
theorem EntriesStand.flight? {a b : Blk} (h : EntriesStand a b) {q seq : Nat} {f : Flight} (hf : a.flight? q seq = some f) :
    ∃ g, b.flight? q seq = some g ∧ g.unwritten = f.unwritten := by
  have hfind : ∀ c : Blk, (c.flight? q seq).map Flight.unwritten
      = (c.flights.map Flight.unwritten).find? (fun f => f.is q seq) := fun c => by
    rw [List.find?_map]
    rfl
  have hg : (b.flight? q seq).map Flight.unwritten = some f.unwritten := by rw [hfind b, h, ← hfind a, hf]; rfl
  exact Option.map_eq_some_iff.1 hg

/-! ### Requests to other modules -/

theorem Blk.sendOn_entriesStand (b : Blk) (l : Nat) (p : Packet) : EntriesStand b (b.sendOn l p) := by
  unfold Blk.sendOn
  dsimp only
  split <;> exact .of_flights rfl

theorem Blk.originate_entriesStand {b c : Blk} {p : Packet} (h : b.originate p = some c) : EntriesStand b c := by
  unfold Blk.originate at h
  split at h
  · cases h
  · unfold Blk.forward at h
    dsimp only at h
    split at h
    · cases h
    · exact Option.some.inj h ▸ Blk.sendOn_entriesStand _ _ _

theorem Blk.request_entriesStand (b : Blk) (q seq typ dst addr arg sub : Nat) (data : Bytes) :
    EntriesStand b ((b.request q seq typ dst addr arg sub data).blk b) := by
  unfold Blk.request
  split
  · exact .rfl' b
  · dsimp only
    split
    · exact .of_flights rfl
    next c hc => exact (Blk.originate_entriesStand hc).trans (.updFlight { c with fab := _ } q seq)

theorem Blk.sendOut_entriesStand (b : Blk) (q seq : Nat) (ws : List (Nat × Bytes)) : EntriesStand b (b.sendOut q seq ws) := by
  induction ws generalizing b with
  | nil => exact .updFlight b q seq
  | cons w t ih =>
    obtain ⟨addr, data⟩ := w
    have hreq := b.request_entriesStand q seq 0x02 (haModule addr) addr data.length 0 data
    unfold Blk.sendOut
    split
    next c hc =>
      rw [hc] at hreq
      exact (hreq.trans (.updFlight c q seq)).trans (ih _)
    next c hc =>
      rw [hc] at hreq
      exact hreq.trans (.updFlight c q seq)
    next => exact .updFlight b q seq

/-! ### Writes -/

section
variable (w : Wk)

theorem Wk.sent_entriesStand : EntriesStand w.b w.sent.b := by
  unfold Wk.sent
  split
  · exact .rfl' _
  extract_lets ps b b' w'
  have hb : EntriesStand w.b b := by
    unfold b
    split
    · exact .rfl' _
    · exact .updFlight _ _ _
  have hb' : EntriesStand w.b w'.b := by
    show EntriesStand w.b b'
    unfold b'
    split
    · exact hb
    · split
      · exact hb.trans (Blk.sendOut_entriesStand _ _ _ _)
      · exact hb.trans (.updFlight _ _ _)
  split
  · exact hb
  split
  · exact hb'
  · split
    · rwa [Wk.fail_b]
    · exact hb'

theorem Wk.writeN_entriesStand (m : Nat) (d : Bytes) (n : Nat) : EntriesStand w.b (w.writeN m d n).b := by
  have ho := (w.b.otherWrite_memFrame w.rq (haMpa m) d).entriesStand
  unfold Wk.writeN
  split
  · exact .rfl' _
  split
  · extract_lets m'
    split
    · exact .of_flights (Blk.askExit_flights _ _ _)
    · generalize w.b.otherWrite w.rq m' d = r at ho ⊢
      obtain ⟨c, s⟩ := r
      dsimp -zeta only
      extract_lets k w'
      have hw' : EntriesStand w.b w'.b := by
        show EntriesStand w.b (if _ then _ else _)
        split
        · obtain ⟨x, hx⟩ := Blk.noteSlots_eq (c.noteScope w.q w.seq 2) w.q w.seq m' d.length
          rw [hx]
          exact ho.trans (.updFlight c w.q w.seq)
        · exact ho
      split
      · rwa [Wk.fail_b]
      · exact hw'
  split
  · rw [Wk.fail_b]
    exact .rfl' _
  · exact .rfl' _

theorem Wk.writeRuns_entriesStand (l : List (Nat × Bytes × Nat)) : EntriesStand w.b (w.writeRuns l).b := by
  induction l generalizing w with
  | nil => exact .rfl' _
  | cons p t ih => exact (w.writeN_entriesStand _ _ _).trans (ih _)

theorem Wk.putInBlock_entriesStand (fmt : Nat) (p : Loc × Nat) : EntriesStand w.b (w.putInBlock fmt p).b := by
  have hr := (w.read_hubReads p.1.addr (blkBytes fmt)).entriesStand
  unfold Wk.putInBlock
  extract_lets n
  generalize w.read p.1.addr (blkBytes fmt) = r at hr ⊢
  obtain ⟨v, u⟩ := r
  exact hr.trans (Wk.writeN_entriesStand _ _ _ _)

theorem Wk.landing_flights (d : Desc) (ixs : List Int) (es : List (Nat × Nat)) :
    (w.landing d ixs es).1.b.flights = w.b.flights :=
  foldl_keeps (P := fun s : Wk × List (Loc × Nat) => s.1.b.flights = w.b.flights)
    (fun s e h => by
      dsimp only
      unfold Wk.lands
      repeat' split
      all_goals exact h) _ (z := (w, [])) rfl

theorem Wk.putAt_entriesStand (d : Desc) (ixs : List Int) (es : List (Nat × Nat)) : EntriesStand w.b (w.putAt d ixs es).b := by
  have hl := EntriesStand.of_flights (w.landing_flights d ixs es)
  unfold Wk.putAt
  generalize w.landing d ixs es = r at hl ⊢
  obtain ⟨v, ls⟩ := r
  dsimp only
  split
  · exact foldl_keeps (P := fun v : Wk => EntriesStand w.b v.b) (fun v p h => h.trans (v.putInBlock_entriesStand _ p)) _ hl
  · split
    · exact (hl.trans (v.units_hubReads _ _).entriesStand).trans (Wk.writeRuns_entriesStand _ _)
    · exact hl.trans (Wk.writeRuns_entriesStand _ _)

/-- Storing raw elements through a descriptor, with the reads of its index tensor. -/
theorem Wk.putRaws_entriesStand (d : Desc) (e0 : Nat) (raws : List Nat) :
    EntriesStand w.b ((w.indices d).1.putRaws d (w.indices d).2 e0 raws).b :=
  (w.indices_hubReads d).entriesStand.trans (Wk.putAt_entriesStand _ _ _ _)

end

/-! ### A part of an entry's work is done -/

/-- The entry ends after its last part, with a result. -/
theorem PartDone.finish {a : Blk} {f : Flight} {w : Wk} (hst : EntriesStand a w.sent.b) (hf : a.flight? f.q f.seq = some f)
    (fl result : Nat) : PartDone (w.sent.b.finish f.q f.seq stOK fl result) f w true result := by
  obtain ⟨g, hg, hgf⟩ := hst.flight? hf
  refine ⟨?_, Wk.sent_mem w⟩
  have hprog : g.progress = f.progress := (congrArg Flight.progress hgf :)
  rw [Blk.flight?_finish, hg]
  simp [hprog]

/-- It stands before its next part, with the result so far. -/
theorem PartDone.updFlight {a : Blk} {f : Flight} {w : Wk} (hst : EntriesStand a w.sent.b) (hf : a.flight? f.q f.seq = some f)
    (hrun : f.stage = .running) (fl result : Nat) :
    PartDone (w.sent.b.updFlight f.q f.seq (fun g => { g with
      progress := f.progress + 1, fetched := [], result := result, flags := g.flags ||| fl })) f w false result := by
  obtain ⟨g, hg, hgf⟩ := hst.flight? hf
  refine ⟨?_, Wk.sent_mem w⟩
  have hstage : g.stage = .running := (congrArg Flight.stage hgf :).trans hrun
  rw [Blk.flight?_updFlight, hg]
  · simp [hstage]
  · exact fun _ h => h

end Sys2Proof.Machine
end

section
/-! Proofs: SFU_ROW, its rows and the tables of USER codes (R235 to R246, R281; log 83). -/

namespace Sys2Proof.Machine
open Sys2Proof

/-! ### The work of a row, and the checks before the first one -/

theorem HubReads.of_eq {α : Type} {v w : Wk} {r : Wk × α} {x : α} (h : HubReads v r.1) (e : r = (w, x)) : HubReads v w := by
  rwa [e] at h

section
variable (w : Wk) (f : Flight)

theorem Wk.row32_hubReads (d : Option Desc) (e0 n : Nat) : HubReads w (w.row32 d e0 n).1 := by
  unfold Wk.row32
  split
  · exact .rfl' w
  · exact (w.indices_hubReads _).trans (Wk.elems_hubReads _ _ _ _)

/-- A scale or an offset of a row, where the entry names one. -/
theorem Wk.row32_hubReads_ite (c : Prop) [Decidable c] (d : Option Desc) (e0 n : Nat) :
    HubReads w (if c then (w, []) else w.row32 d e0 n).1 := by
  split
  · exact .rfl' w
  · exact w.row32_hubReads d e0 n

theorem Wk.places_hubReads (d : Desc) (reads : Bool) : HubReads w (w.places d reads).1 := w.indices_hubReads d

theorem Wk.sfuAlias_hubReads : HubReads w (w.sfuAlias f) := by
  unfold Wk.sfuAlias
  extract_lets e
  split
  · exact .rfl' w
  next y _ =>
    refine foldl_keeps (P := HubReads w) (fun v h hv => ?_) _ (.rfl' w)
    dsimp only
    split
    · exact hv
    next d _ =>
      have hp := (hv.trans (v.places_hubReads y false)).trans (Wk.places_hubReads _ d h.2)
      split
      · exact hv
      split
      · exact hp
      split
      · exact hp.trans (Wk.fail_hubReads _ _)
      · exact hp

theorem Blk.sfuOuts_hubReads (b : Blk) : HubReads (Wk.hub b f 6) (b.sfuOuts f) :=
  ((Wk.hub b f 6).sfuAlias_hubReads f).trans (Wk.outsOk_hubReads _ _)

/-- A row's reads and stores leave the entries in flight as they were, but for what writes leave in them. -/
theorem Wk.sfuRow_entriesStand (table : Bytes) (r : Nat) : EntriesStand w.b (w.sfuRow f table r).1.b := by
  unfold Wk.sfuRow
  extract_lets e n b
  split
  next w₁ xs h₁ =>
  split
  next w₂ gs h₂ =>
  split
  next w₃ bs h₃ =>
  split
  next w₄ m h₄ =>
  have hreads : HubReads w w₄ := by
    have hx : HubReads w w₁ := .of_eq
      (foldl_keeps (P := fun x : Wk × List Nat => HubReads w x.1) (fun x _ h => h.trans (x.1.row32_hubReads _ _ _)) _
        (.rfl' w)) h₁
    have hgb : HubReads w w₃ := (hx.trans (.of_eq (w₁.row32_hubReads_ite _ _ _ _) h₂)).trans
      (.of_eq (w₂.row32_hubReads_ite _ _ _ _) h₃)
    split at h₄
    · exact hgb.trans (.of_eq (w₃.bytes_hubReads _ _ _) h₄)
    · exact hgb.trans (.of_eq (.rfl' w₃) h₄)
  split
  · exact hreads.entriesStand
  · extract_lets o u v y
    have hv : EntriesStand w.b v.b := by
      unfold v
      split
      · exact hreads.entriesStand.trans (u.putRaws_entriesStand _ _ _)
      · exact hreads.entriesStand
    show EntriesStand w.b y.b
    unfold y
    split
    · exact hv.trans (v.putRaws_entriesStand _ _ _)
    · exact hv

end

/-! ### A step of an entry -/

/-- What a row that waits for nothing and meets no error leaves (R246, R281). -/
def Blk.sfuStepped (f : Flight) (x : Wk × Bool) : Blk :=
  let done := f.result + (1 + b2n x.2 * 2 ^ 32)
  if Sfu.rows f.raw ≤ f.progress + 1 then x.1.sent.b.finish f.q f.seq stOK x.1.sent.flags done
  else x.1.sent.b.updFlight f.q f.seq (fun g => { g with
    progress := f.progress + 1, fetched := [], result := done, flags := g.flags ||| x.1.sent.flags })

theorem Blk.sfuStep_goesOn (b : Blk) {f : Flight} {w : Wk} {table : Bytes} (h : (w.sfuRow f table f.progress).1.goesOn = true) :
    b.sfuStep f w table = Blk.sfuStepped f (w.sfuRow f table f.progress) := by
  obtain ⟨-, hneed, hstall, hsent⟩ := Wk.goesOn_iff.1 h
  unfold Blk.sfuStep Blk.sfuStepped
  generalize w.sfuRow f table f.progress = x at hneed hstall hsent ⊢
  have hasks : x.1.asks b = (none, x.1.sent) := by simp [Wk.asks, hneed, hstall]
  dsimp only
  rw [hasks]
  simp only [hsent, Bool.false_eq_true, if_false]

/-- The row is done for the entry that it belongs to. -/
theorem Blk.sfuStepped_done {a : Blk} {f : Flight} {w : Wk} {table : Bytes} {r : Nat} (hw : EntriesStand a w.b)
    (hf : a.flight? f.q f.seq = some f) (hrun : f.stage = .running) :
    SfuDone (Blk.sfuStepped f (w.sfuRow f table r)) f (w.sfuRow f table r) := by
  have hst := (hw.trans (w.sfuRow_entriesStand f table r)).trans (Wk.sent_entriesStand _)
  unfold Blk.sfuStepped
  dsimp only
  by_cases hlast : Sfu.rows f.raw ≤ f.progress + 1
  · rw [if_pos hlast, SfuDone, decide_eq_true hlast]
    exact .finish hst hf _ _
  · rw [if_neg hlast, SfuDone, decide_eq_false hlast]
    exact .updFlight hst hf hrun _ _

theorem PartDone.settle {a b : Blk} {f : Flight} {w : Wk} {last : Bool} {result : Nat} (h : PartDone b f w last result) :
    PartDone (settle a b) f w last result := by
  rwa [PartDone, settle_flight?, settle_mem]

/-! ### An entry whose turn it is -/

/-- A started SFU_ROW of an operation, whose turn it is (R235, R245). -/
structure Blk.SfuDue (b : Blk) (q seq op : Nat) (f : Flight) : Prop where
  running : b.running? q seq = some f
  opcode : eOpcode f.raw = 0x22
  op : Sfu.op f.raw = op
  turn : b.sfuTurn f = true

theorem Blk.stage_of_running? {b : Blk} {q seq : Nat} {f : Flight} (h : b.running? q seq = some f) : f.stage = .running := by
  unfold Blk.running? at h
  split at h
  · split at h
    · exact Option.some.inj h ▸ ‹_›
    · cases h
  · cases h

section
variable {b : Blk} {q seq op : Nat} {f : Flight} (h : b.SfuDue q seq op f)
include h

theorem Blk.SfuDue.is : f.q = q ∧ f.seq = seq := Blk.flight?_is (Blk.flight?_of_running? h.running)

theorem Blk.SfuDue.flight? : b.flight? f.q f.seq = some f := by
  obtain ⟨rfl, rfl⟩ := h.is
  exact Blk.flight?_of_running? h.running

/-- The next row, or the checks and the first row: which part of the operation a command carries out. -/
theorem Blk.SfuDue.sfuRun : b.sfuRun q seq op =
    if f.progress ≠ 0 then b.sfuStep f (Wk.hub b f 6) (b.hub.user (Sfu.fn f.raw)).table
    else if sfuFields f.raw = false then b.finish q seq stDESC 0 0
    else if op ≠ 5 ∧ Sfu.rows f.raw = 0 then b.finish q seq stOK 0 0
    else if b.sfuTensors f = false then b.finish q seq stDESC 0 0
    else if op = 5 then b.sfuLoad f
    else b.sfuFirst f := by
  unfold Blk.sfuRun
  rw [h.running]
  simp [h.opcode, h.op, h.turn]

/-- A first row after its checks: aliasing and the scatters, and the table of a USER code. -/
theorem Blk.SfuDue.sfuRun_first (hop : op ≠ 5) (hp : f.progress = 0) (hfields : sfuFields f.raw = true)
    (hrows : Sfu.rows f.raw ≠ 0) (ht : b.sfuTensors f = true) : b.sfuRun q seq op = b.sfuFirst f := by
  simp [h.sfuRun, hop, hp, hfields, hrows, ht]

end

theorem Blk.SfuDue.sfuRun_load {b : Blk} {q seq : Nat} {f : Flight} (h : b.SfuDue q seq 5 f) (hp : f.progress = 0)
    (hfields : sfuFields f.raw = true) (ht : b.sfuTensors f = true) : b.sfuRun q seq 5 = b.sfuLoad f := by
  simp [h.sfuRun, hp, hfields, ht]

/-- The work of the checks before the first row waits for nothing and meets no error. -/
theorem Blk.sfuFirst_goesOn {b : Blk} {f : Flight} (h : (b.sfuOuts f).goesOn = true) : b.sfuFirst f =
    if Sfu.op f.raw = 0 ∧ Sfu.user f.raw = true then
      ((b.hub.user (Sfu.fn f.raw)).require (Sfu.gen f.raw)).elim
        ((b.sfuOuts f).b.finish f.q f.seq stTABLE (b.sfuOuts f).flags 0)
        (fun u => b.sfuStep f { b.sfuOuts f with b := (b.sfuOuts f).b.setHub (b.hub.setUser (Sfu.fn f.raw) u) } u.table)
    else b.sfuStep f (b.sfuOuts f) [] := by
  obtain ⟨hbad, hneed, hstall, -⟩ := Wk.goesOn_iff.1 h
  have hhub : (b.sfuOuts f).b.hub = b.hub := (b.sfuOuts_hubReads f).hub
  unfold Blk.sfuFirst
  dsimp only
  rw [Wk.waits_eq_none hneed hstall]
  simp only [hbad, Bool.false_eq_true, if_false, hhub, Bool.and_eq_true, decide_eq_true_eq]
  cases (b.hub.user (Sfu.fn f.raw)).require (Sfu.gen f.raw) <;> rfl

/-- A table that is required and active stays the one in use. -/
theorem HubSt.setUser_user (h : HubSt) (fn : Nat) : h.setUser fn (h.user fn) = h := by
  unfold HubSt.setUser HubSt.user
  split <;> rfl

theorem UserFn.require_eq_none {u : UserFn} {gen : Nat} (h0 : u.bank0.gen ≠ gen) (h1 : u.bank1.gen ≠ gen) :
    u.require gen = none := by
  unfold UserFn.require
  by_cases hact : u.active = 0 <;> simp [hact, h0, h1]

/-- An entry that stands before its first row, with its checks met. -/
theorem Blk.sfuReady_iff {b : Blk} {q seq op : Nat} {f : Flight} : b.sfuReady q seq op f = true ↔
    b.hubUp = true ∧ b.SfuDue q seq op f ∧ f.progress = 0 ∧ sfuFields f.raw = true ∧ Sfu.rows f.raw ≠ 0
      ∧ b.sfuTensors f = true ∧ (b.sfuOuts f).goesOn = true := by
  simp only [Blk.sfuReady, Bool.and_eq_true, beq_iff_eq, bne_iff_ne, and_assoc]
  constructor
  · rintro ⟨hup, hrun, hopc, hop, hturn, h⟩
    exact ⟨hup, ⟨hrun, hopc, hop, hturn⟩, h⟩
  · rintro ⟨hup, ⟨hrun, hopc, hop, hturn⟩, h⟩
    exact ⟨hup, hrun, hopc, hop, hturn, h⟩

/-! ### The commands of rows -/

/-- The commands that treat rows, by operation. -/
theorem exec_sfuRows {s : State} {q seq op : Nat} {c : Instr}
    (h : (op, c) ∈ [(0, .sfuMap q seq), (1, .sfuSoftmax q seq), (2, .sfuLogSoftmax q seq), (3, .sfuLayerNorm q seq),
      (4, .sfuRmsNorm q seq)]) :
    op ≠ 5 ∧ exec c s = hubAct s (fun b => b.sfuRun q seq op) := by
  simp only [List.mem_cons, Prod.mk.injEq, List.not_mem_nil, or_false] at h
  rcases h with ⟨rfl, rfl⟩ | ⟨rfl, rfl⟩ | ⟨rfl, rfl⟩ | ⟨rfl, rfl⟩ | ⟨rfl, rfl⟩
  · exact ⟨by decide, exec_sfuMap s q seq⟩
  · exact ⟨by decide, exec_sfuSoftmax s q seq⟩
  · exact ⟨by decide, exec_sfuLogSoftmax s q seq⟩
  · exact ⟨by decide, exec_sfuLayerNorm s q seq⟩
  · exact ⟨by decide, exec_sfuRmsNorm s q seq⟩

section
variable {s : State} {q seq op : Nat} {f : Flight} {c : Instr} (hx : exec c s = hubAct s (fun b => b.sfuRun q seq op))
include hx

/-- A command that carries out one step of an entry. -/
theorem Completes.sfuStep {w : Wk} {table : Bytes} (hup : s.blk.hubUp = true) (h : s.blk.SfuDue q seq op f)
    (hrun : s.blk.sfuRun q seq op = s.blk.sfuStep f w table) (hw : EntriesStand s.blk w.b)
    (hgo : (w.sfuRow f table f.progress).1.goesOn = true) :
    Completes c s (fun b => SfuDone b f (w.sfuRow f table f.progress)) := by
  refine .of_hub hx hup ?_
  rw [hrun, Blk.sfuStep_goesOn _ hgo]
  exact (Blk.sfuStepped_done hw h.flight? (Blk.stage_of_running? h.running)).settle

theorem sfuRows_next (hup : s.blk.hubUp = true) (h : s.blk.SfuDue q seq op f) (hp : f.progress ≠ 0)
    (hgo : ((Wk.hub s.blk f 6).sfuRow f (s.blk.hub.user (Sfu.fn f.raw)).table f.progress).1.goesOn = true) :
    Completes c s (fun b => SfuDone b f ((Wk.hub s.blk f 6).sfuRow f (s.blk.hub.user (Sfu.fn f.raw)).table f.progress)) :=
  .sfuStep hx hup h (by rw [h.sfuRun, if_pos hp]) (.rfl' _) hgo

theorem sfuRows_none (hop : op ≠ 5) (hup : s.blk.hubUp = true) (h : s.blk.SfuDue q seq op f) (hp : f.progress = 0)
    (hfields : sfuFields f.raw = true) (hrows : Sfu.rows f.raw = 0) :
    Completes c s (EvFrame (s.blk.finish q seq stOK 0 0)) :=
  .hubFrame hx hup (by simp [h.sfuRun, hp, hfields, hop, hrows])

section
variable (hop : op ≠ 5) (h : s.blk.sfuReady q seq op f = true)
include hop h

theorem sfuRows_first (huser : op = 0 → Sfu.user f.raw = false) (hgo : ((s.blk.sfuOuts f).sfuRow f [] 0).1.goesOn = true) :
    Completes c s (fun b => SfuDone b f ((s.blk.sfuOuts f).sfuRow f [] 0)) := by
  obtain ⟨hup, hturn, hp, hfields, hrows, ht, houts⟩ := Blk.sfuReady_iff.1 h
  have hplain : ¬(Sfu.op f.raw = 0 ∧ Sfu.user f.raw = true) := by
    rintro ⟨h0, hu⟩
    exact absurd hu (by simp [huser (hturn.op ▸ h0)])
  have hrun : s.blk.sfuRun q seq op = s.blk.sfuStep f (s.blk.sfuOuts f) [] := by
    rw [hturn.sfuRun_first hop hp hfields hrows ht, Blk.sfuFirst_goesOn houts, if_neg hplain]
  rw [← hp] at hgo ⊢
  exact .sfuStep hx hup hturn hrun (s.blk.sfuOuts_hubReads f).entriesStand hgo

end

end

section
variable {s : State} {q seq : Nat} {f : Flight}

/-- A first row through the active table of a USER code (R244). -/
theorem sfuMap_user (h : s.blk.sfuReady q seq 0 f = true) (hu : Sfu.user f.raw = true)
    (hreq : (s.blk.hub.user (Sfu.fn f.raw)).require (Sfu.gen f.raw) = some (s.blk.hub.user (Sfu.fn f.raw)))
    (hgo : ((s.blk.sfuOuts f).sfuRow f (s.blk.hub.user (Sfu.fn f.raw)).table 0).1.goesOn = true) :
    Completes (.sfuMap q seq) s (fun b => SfuDone b f ((s.blk.sfuOuts f).sfuRow f (s.blk.hub.user (Sfu.fn f.raw)).table 0)) := by
  obtain ⟨hup, hturn, hp, hfields, hrows, ht, houts⟩ := Blk.sfuReady_iff.1 h
  have hreads := s.blk.sfuOuts_hubReads f
  have hsame : (s.blk.sfuOuts f).b.setHub s.blk.hub = (s.blk.sfuOuts f).b := by rw [← show _ = s.blk.hub from hreads.hub]; rfl
  have hrun : s.blk.sfuRun q seq 0 = s.blk.sfuStep f (s.blk.sfuOuts f) (s.blk.hub.user (Sfu.fn f.raw)).table := by
    rw [hturn.sfuRun_first (by decide) hp hfields hrows ht, Blk.sfuFirst_goesOn houts, if_pos ⟨hturn.op, hu⟩, hreq,
      Option.elim_some, HubSt.setUser_user, hsame]
  rw [← hp] at hgo ⊢
  exact .sfuStep (exec_sfuMap s q seq) hup hturn hrun hreads.entriesStand hgo

/-- An entry that its checks end has finished with an error. -/
theorem Blk.finished_finish {a b : Blk} {st fl result : Nat} (hfl : b.flights = a.flights) (hf : a.flight? f.q f.seq = some f)
    (hst : isErr st = true) : Finished (b.finish f.q f.seq st fl result) f st := by
  have hdone := Blk.flight?_finish b f.q f.seq st fl result
  rw [Blk.flight?_congr hfl, hf] at hdone
  exact ⟨_, hdone, rfl, if_pos hst⟩

theorem sfuMap_tableMiss (h : s.blk.sfuReady q seq 0 f = true) (hu : Sfu.user f.raw = true)
    (h0 : (s.blk.hub.user (Sfu.fn f.raw)).bank0.gen ≠ Sfu.gen f.raw)
    (h1 : (s.blk.hub.user (Sfu.fn f.raw)).bank1.gen ≠ Sfu.gen f.raw) :
    Completes (.sfuMap q seq) s (fun b => Finished b f stTABLE) := by
  obtain ⟨hup, hturn, hp, hfields, hrows, ht, houts⟩ := Blk.sfuReady_iff.1 h
  refine .of_hub (exec_sfuMap s q seq) hup ?_
  rw [hturn.sfuRun_first (by decide) hp hfields hrows ht, Blk.sfuFirst_goesOn houts, if_pos ⟨hturn.op, hu⟩,
    UserFn.require_eq_none h0 h1, Option.elim_none, Finished, settle_flight?]
  exact Blk.finished_finish (s.blk.sfuOuts_hubReads f).flights hturn.flight? (by decide)

theorem sfuSoftmax_alias (hup : s.blk.hubUp = true) (h : s.blk.SfuDue q seq 1 f) (hp : f.progress = 0)
    (hfields : sfuFields f.raw = true) (hrows : Sfu.rows f.raw ≠ 0) (ht : s.blk.sfuTensors f = true)
    (hst : (s.blk.sfuOuts f).st = stALIAS) (hstall : (s.blk.sfuOuts f).stall = false) (hneed : (s.blk.sfuOuts f).need = []) :
    Completes (.sfuSoftmax q seq) s (EvFrame ((s.blk.sfuOuts f).b.finish q seq stALIAS (s.blk.sfuOuts f).flags 0)) := by
  have hbad : (s.blk.sfuOuts f).bad = true := by rw [Wk.bad, hst]; rfl
  obtain ⟨rfl, rfl⟩ := h.is
  refine .hubFrame (exec_sfuSoftmax s f.q f.seq) hup ?_
  rw [h.sfuRun_first (by decide) hp hfields hrows ht]
  unfold Blk.sfuFirst
  dsimp only
  rw [Wk.waits_eq_none hneed hstall]
  simp only [hbad, if_true, hst]

end

/-! ### LOAD_TABLE (R244) -/

/-- A USER code with a table put into its idle bank. -/
def UserFn.loaded (u : UserFn) (k : UserBank) : UserFn := if u.active = 0 then { u with bank1 := k } else { u with bank0 := k }

/-- The active bank stays, and the idle one holds the table. -/
theorem UserFn.loaded_spec (u : UserFn) (k : UserBank) : (u.loaded k).active = u.active ∧ (u.loaded k).table = u.table
    ∧ (if u.active = 0 then (u.loaded k).bank1 else (u.loaded k).bank0) = k := by
  unfold UserFn.loaded UserFn.table
  by_cases hact : u.active = 0 <;> simp [hact]

@[simp] theorem HubSt.user_setUser (h : HubSt) (fn : Nat) (u : UserFn) : (h.setUser fn u).user fn = u := by
  unfold HubSt.setUser HubSt.user
  by_cases hfn : fn = 0x20 <;> simp [hfn]

/-- A table that is read at once goes into the idle bank, or is refused for what it holds. -/
theorem Blk.sfuLoad_goesOn {b : Blk} {f : Flight} {d : Desc} (hd : b.fdesc f (eHandle f.raw 0) = some d)
    (hgo : ((Wk.hub b f 6).bytes d 0 1040).1.goesOn = true) : b.sfuLoad f =
      let x := (Wk.hub b f 6).bytes d 0 1040
      if zeroAt x.2 5 3 = true ∧ f32Finite (fld x.2 0 4) = true then
        (x.1.b.setHub (b.hub.setUser (Sfu.fn f.raw) ((b.hub.user (Sfu.fn f.raw)).loaded ⟨x.2, Sfu.gen f.raw⟩))).finish
          f.q f.seq stOK x.1.flags 0
      else x.1.b.finish f.q f.seq stDESC x.1.flags 0 := by
  obtain ⟨hbad, hneed, hstall, -⟩ := Wk.goesOn_iff.1 hgo
  have hreads := (Wk.hub b f 6).bytes_hubReads d 0 1040
  unfold Blk.sfuLoad
  dsimp only
  rw [hd]
  dsimp only
  generalize (Wk.hub b f 6).bytes d 0 1040 = x at hbad hneed hstall hreads ⊢
  rw [Wk.waits_eq_none hneed hstall]
  have hhub : x.1.b.hub = b.hub := hreads.hub
  by_cases hok : zeroAt x.2 5 3 = true ∧ f32Finite (fld x.2 0 4) = true
  · simp only [hbad, hok, hhub, Bool.not_true, Bool.or_self, Bool.false_eq_true, if_false, and_self, if_true]
    rfl
  · have href : (!zeroAt x.2 5 3 || !f32Finite (fld x.2 0 4)) = true := by
      simpa only [Bool.or_eq_true, Bool.not_eq_true', ← Bool.not_eq_true, ← not_and_or] using hok
    simp only [hbad, href, hok, Bool.false_eq_true, if_false, if_true]

theorem sfuLoadTable_loads {s : State} {q seq : Nat} {f : Flight} {d : Desc} (hup : s.blk.hubUp = true)
    (h : s.blk.SfuDue q seq 5 f) (hp : f.progress = 0) (hfields : sfuFields f.raw = true) (ht : s.blk.sfuTensors f = true)
    (hd : s.blk.fdesc f (eHandle f.raw 0) = some d) (hgo : ((Wk.hub s.blk f 6).bytes d 0 1040).1.goesOn = true) :
    Completes (.sfuLoadTable q seq) s (fun b =>
      let t := ((Wk.hub s.blk f 6).bytes d 0 1040).2
      let u := s.blk.hub.user (Sfu.fn f.raw)
      let v := b.hub.user (Sfu.fn f.raw)
      if zeroAt t 5 3 = true ∧ f32Finite (fld t 0 4) = true
      then v.active = u.active ∧ v.table = u.table ∧ (if u.active = 0 then v.bank1 else v.bank0) = ⟨t, Sfu.gen f.raw⟩
        ∧ (b.flight? q seq).map Flight.stage = some .done
      else Finished b f stDESC ∧ b.hub = s.blk.hub) := by
  have hreads := (Wk.hub s.blk f 6).bytes_hubReads d 0 1040
  obtain ⟨rfl, rfl⟩ := h.is
  refine .of_hub (exec_sfuLoadTable s f.q f.seq) hup ?_
  rw [h.sfuRun_load hp hfields ht, Blk.sfuLoad_goesOn hd hgo]
  dsimp only
  generalize (Wk.hub s.blk f 6).bytes d 0 1040 = x at hreads ⊢
  by_cases hok : zeroAt x.2 5 3 = true ∧ f32Finite (fld x.2 0 4) = true
  · obtain ⟨hact, htable, hbank⟩ := (s.blk.hub.user (Sfu.fn f.raw)).loaded_spec ⟨x.2, Sfu.gen f.raw⟩
    have huser := s.blk.hub.user_setUser (Sfu.fn f.raw) ((s.blk.hub.user (Sfu.fn f.raw)).loaded ⟨x.2, Sfu.gen f.raw⟩)
    have hdone := Blk.flight?_finish (x.1.b.setHub (s.blk.hub.setUser (Sfu.fn f.raw)
      ((s.blk.hub.user (Sfu.fn f.raw)).loaded ⟨x.2, Sfu.gen f.raw⟩))) f.q f.seq stOK x.1.flags 0
    rw [Blk.setHub_flight?, Blk.flight?_congr (show x.1.b.flights = s.blk.flights from hreads.flights), h.flight?] at hdone
    simp only [if_pos hok]
    rw [settle_hub, settle_flight?, hdone, Blk.finish_hub, Blk.setHub_hub, huser]
    exact ⟨hact, htable, hbank, rfl⟩
  · simp only [if_neg hok]
    rw [Finished, settle_flight?, settle_hub]
    exact ⟨Blk.finished_finish hreads.flights h.flight? (by decide), hreads.hub⟩

/-- Settles O35: each command of a row by what a step leaves of the entry, after the checks of a first row; a USER code without the
table, and aliasing, by the end of the checks; LOAD_TABLE by its idle bank. -/
theorem sfuRows : Obligations.SfuRows :=
  ⟨fun s q seq _ h hu hgo => sfuRows_first (exec_sfuMap s q seq) (by decide) h (fun _ => hu) hgo,
   fun _ _ _ _ h hu hreq hgo => sfuMap_user h hu hreq hgo,
   fun _ _ _ _ h hu _ h0 h1 => sfuMap_tableMiss h hu h0 h1,
   fun s q seq _ h hgo => sfuRows_first (exec_sfuSoftmax s q seq) (by decide) h (by simp) hgo,
   fun s q seq _ h hgo => sfuRows_first (exec_sfuLogSoftmax s q seq) (by decide) h (by simp) hgo,
   fun s q seq _ h hgo => sfuRows_first (exec_sfuLayerNorm s q seq) (by decide) h (by simp) hgo,
   fun s q seq _ h hgo => sfuRows_first (exec_sfuRmsNorm s q seq) (by decide) h (by simp) hgo,
   fun _ _ _ _ _ _ hc hup hrun hopc hop hturn hp hgo =>
     have ⟨_, hx⟩ := exec_sfuRows hc
     sfuRows_next hx hup ⟨hrun, hopc, hop, hturn⟩ hp hgo,
   fun _ _ _ _ _ _ hc hup hrun hopc hop hturn hp hfields hrows =>
     have ⟨hne, hx⟩ := exec_sfuRows hc
     sfuRows_none hx hne hup ⟨hrun, hopc, hop, hturn⟩ hp hfields hrows,
   fun _ _ _ _ _ hup hrun hopc hop hturn hp hfields ht _ hd hgo =>
     sfuLoadTable_loads hup ⟨hrun, hopc, hop, hturn⟩ hp hfields ht hd hgo,
   fun _ _ _ _ hup hrun hopc hop hturn hp hfields hrows ht hst hstall hneed =>
     sfuSoftmax_alias hup ⟨hrun, hopc, hop, hturn⟩ hp hfields hrows ht hst hstall hneed⟩

end Sys2Proof.Machine
end
